-- ==== Sys2Proof/Word.lean ====
section
/-! DEFINITION. The bit-vector types of the manual (R4) and nothing else: every helper that computes with them
stands in Machine/Bits.lean. -/

namespace Sys2Proof

/-- R4: 72 data bits of a stored word. -/
abbrev Word := BitVec 72
/-- R112: the 8 check bits of a stored word. -/
abbrev Check := BitVec 8
/-- A byte of the byte view (R84). -/
abbrev Byte := BitVec 8
/-- R4: one 18-bit sample, two's complement. -/
abbrev Sample := BitVec 18
/-- R4: 36 bits, real part in the lower 18 bits; also the width of a Pemer S register (R133). -/
abbrev CSample := BitVec 36
/-- R4: short time, 64-bit unsigned count of 2^-16 ns. -/
abbrev ShortTime := BitVec 64
/-- A 32-bit register word of the PF BAR0 map (R49). -/
abbrev Reg32 := BitVec 32

end Sys2Proof
end

