-- ==== Sys2Proof/Syntax.lean ====
section
/-! DEFINITION. The commands the device takes, one constructor per row of the table of operations and events, and the
types of their operands. Data that comes from outside the device (an answer of the host, of another device, of a sensor,
of a link partner) is an operand of the command that delivers it. -/

namespace Sys2Proof

/-- An answer to a request the device sent to the host: data, a completion with an error status, or a completion with
the EP bit (R60, R118). -/
inductive Reply (α : Type) where
  | data (v : α)
  | error
  | poison
  deriving DecidableEq, Repr

/-- Who makes a register access: PCIe function f (0 is the PF, R47), the secure steward or the non-secure steward. -/
inductive Accessor where
  | func (f : Fin 64)
  | secure
  | steward
  deriving DecidableEq, Repr

/-- What a host write reaches: the function's BAR0 (R47), the Bus Master Enable bit of its PCIe Command register (R56, R80), or MSI-X
Enable (bit 1) and Function Mask (bit 0) of its MSI-X capability (R477). -/
inductive RegSpace where
  | bar
  | busMaster
  | msix
  deriving DecidableEq, Repr

/-- The functions of the device in the sense of R50, each with one control register: rings, carrier contexts (R53), the
doorbell poller (R58), data-mover channels (R99), ergs (R230), matrix engines (R237), transform units (R252), CODE
(R265), the cipher engine (R419), burst receivers (R286), DFE chains (R306), NoC probes (R341), lanes (R350), Uldom
ports (R362), timed I/O pins (R386), the time servo (R375) and Ethernet ports (R390). -/
inductive Fn where
  | sq (n : Fin 256)
  | cq (m : Fin 256)
  | car (c : Fin 384)
  | poller
  | dmv (ch : Fin 64)
  | erg (e : Fin 13)
  | mxe (m : Fin 4)
  | xfm (u : Fin 32)
  | code
  | ciph
  | brx (b : Fin 16)
  | dfeTx (t : Fin 128)
  | dfeRx (t : Fin 128)
  | probe (p : Fin 16)
  | lane (l : Fin 56)
  | uld (p : Fin 3)
  | tio (i : Fin 16)
  | servo
  | eth (n : Fin 16)
  deriving DecidableEq, Repr

/-- An answer from outside the device to one word a job or core reads or writes there: a word of data (or, for a write,
its acceptance), a poisoned word, or an ERR or NOTICE with a status of R78 (R88, R91, R118, R340). -/
inductive Ext where
  | word (v : BitVec 72)
  | poison
  | err (status : Nat)
  deriving DecidableEq, Repr

/-- The packet types of the network on chip (R324). -/
inductive PType where
  | rd | wr | wrn | rdata | wack | sack | err | swr | event | fence | unfence | drained | notice | power | epoch
  deriving DecidableEq, Repr

/-- A packet: the header of R323 (`len` is flits minus 1), the number of words minus 1 of a read, a mark that the scrubber
sent it (R330), and its data words with their check bytes in bits [79:72]. -/
structure Packet where
  type : PType
  len : Fin 4
  srcDev : Fin 4
  srcEp : Fin 96
  srcLink : Fin 4
  dstEp : Fin 96
  dstLink : Fin 4
  tag : Fin 1024
  epoch : Bool
  urg : Fin 16
  world : Bool
  value : BitVec 56
  byteView : Bool
  mask : BitVec 8
  count : Fin 16
  scrub : Bool
  words : List (BitVec 80)
  deriving DecidableEq, Repr

/-- To whom a tag belongs (R325): the function of the owner where one is known (R406), its reader code (R131), its job
number if it is a job, and the Uldom port by which its request came, if it came over a link. -/
structure Owner where
  func : Option (Fin 64)
  reader : Fin 9
  job : Option Nat
  via : Option (Fin 3)
  deriving DecidableEq, Repr

/-- A head flit to be routed: of a packet a block injects at its slot, or of the k-th packet held in the routers. -/
inductive Head where
  | inject (p : Packet)
  | held (k : Nat)
  deriving DecidableEq, Repr

/-- R356: what every frame that arrives over a link carries: whether its CRC is good, ACK, NAK, CR_CLASS and CR_COUNT. -/
structure Frame where
  good : Bool
  ack : Fin 4096
  nak : Bool
  crClass : Fin 8
  crCount : Fin 4096
  deriving DecidableEq, Repr

/-- R356: a flit in a DATA frame: the header of the packet it begins, if it begins one, and its words. -/
structure Flit where
  vn : Fin 4
  hop : Bool
  head : Option Packet
  words : List (BitVec 80)
  deriving DecidableEq, Repr

/-- R356: the body of a TRAIN frame. -/
structure TrainBody where
  dev : Fin 4
  port : Fin 4
  width : Fin 4
  rate : Bool
  precode : BitVec 8
  ready : Bool
  ack : Fin 4096
  limits : List (Fin 4096)
  deriving DecidableEq, Repr

/-- Where an operation stands: its core, its predicate P[pred] (R139), whether it is the last operation of its bundle (in
slot order), and the stall steps its bundle has then had (R140, R170). -/
structure Bnd where
  core : Fin 104
  pred : Fin 8
  last : Bool
  stalls : Nat
  deriving DecidableEq, Repr

/-- The address operands of a load or store of format L (R177, R183): A[n], SEG[g], the circular unit if CIRC is set, PM,
and the immediate with EXT applied, not yet scaled. -/
structure Addr where
  n : Fin 16
  g : Fin 4
  circ : Option (Fin 4)
  pm : Bool
  imm : BitVec 33
  deriving DecidableEq, Repr

/-- The shift of an extraction: in the instruction, or in S[k] (R181). -/
inductive Shift where
  | imm (s : Fin 32)
  | reg (k : Fin 32)
  deriving DecidableEq, Repr

/-- The count of LOOPSET: S[a], or an immediate (R186). -/
inductive Count where
  | reg (a : Fin 32)
  | imm (n : BitVec 32)
  deriving DecidableEq, Repr

/-- A local maximum that the search of an occasion finds (R290, R291): preamble index, correlation power per antenna in units of
2^-64 of full scale, and the estimates FREQ, TIMING and DRIFT of R301. -/
structure Peak where
  seq : BitVec 8
  power : Nat
  freq : BitVec 16
  timing : BitVec 32
  drift : BitVec 16
  deriving DecidableEq, Repr

/-- What the boot ROM finds of a steward image (R431, R470): whether it could be read, its MAGIC, TYPE, KEY_SLOT, SVN and LENGTH, and
whether the key digest and the signature are right. -/
structure ImageIn where
  read : Bool
  magic : BitVec 32
  type : BitVec 8
  keySlot : BitVec 8
  svn : BitVec 16
  len : BitVec 32
  digestOk : Bool
  sigOk : Bool
  deriving DecidableEq, Repr

/-- What a boot meets outside the fabric (R469): the reference clocks present (R368), the straps, whether the keys could be derived, what the fuses say (OWNER_LOCKED, SVN
counters, revoked slots), the challenge drawn, the controllers that fail the self-test, the four slots of the flash, whether each HBM
stack trains, how long in ms, and the repairs its pseudo-channels report, and the channels of the first housekeeping round. -/
structure BootInput where
  refclk : BitVec 3
  strap : BitVec 2
  keysOk : Bool
  ownerLocked : Bool
  svnSs : Fin 65
  svnNs : Fin 65
  revoked : BitVec 4
  challenge : BitVec 256
  failing : List (Fin 197)
  slots : List ImageIn
  trained : BitVec 2
  trainMs : List (BitVec 16)
  repairsLeft : List (BitVec 8)
  codes : List (Option Int)
  deriving DecidableEq, Repr

/-- The commands the device can take: one constructor per row of the table of operations and events, in the table's
order. -/
inductive Instr where
  /-- REGISTER_WRITE (R8): A host or steward write to a register field that has no row of its own; each field obeys its access code. -/
  | registerWrite (who : Accessor) (space : RegSpace) (off size : Nat) (value : BitVec 64)
  /-- RUN (R51): RUN command to a function control register: the start checks pass and the function enters RUN, or a check fails and sets FAULT. -/
  | run (who : Accessor) (fn : Fn)
  /-- STOP_DRAIN (R51): STOP_DRAIN command: the function enters STOPPING, and work in flight runs to its normal end. -/
  | stopDrain (who : Accessor) (fn : Fn)
  /-- STOP_ABORT (R51): STOP_ABORT command: the function enters STOPPING with ABORT set, and work in flight ends ABORTED. -/
  | stopAbort (who : Accessor) (fn : Fn) (ext : List Ext)
  /-- LAST_WORK_ENDED (R51): The last work in flight of a STOPPING function ends, and the function becomes STOPPED. -/
  | lastWorkEnded (fn : Fn)
  /-- SHORT_TIME_BROADCAST (R29): Every 16 ns the timebase island broadcasts short time, and fabric targets reached under R6 fire. -/
  | shortTimeBroadcast
  /-- MONITOR_WINDOW_END (R31): A 10 us pace-monitor window ends, and each monitor's reading is updated. -/
  | monitorWindowEnd (readings : List Nat)
  /-- PACE_LOOP_UPDATE (R35): Every 100 us the power controller updates each rail's target and voltage command and sends it over AVSBus. -/
  | paceLoopUpdate (avsFault : BitVec 4)
  /-- DOORBELL_POLL (R59): At each poll instant the JFE swaps the enabled doorbell words, or reads the scan array in SCAN mode. -/
  | doorbellPoll
  /-- DOORBELL_SWEEP (R61): At each sweep instant the JFE reads the producer count of every SQ in RUN. -/
  | doorbellSweep
  /-- ATOMIC_SWAP_COMPLETE (R60): A doorbell Swap returns: set bits of rings in RUN lead to producer-count reads, and stray or failed bits are counted. -/
  | atomicSwapComplete (q : Fin 4) (reply : Reply (BitVec 64))
  /-- PRODUCER_COUNT_READ_COMPLETE (R60): A producer-count read returns: new work is fetched, an INDEX fault stops the SQ, or an error flags the ring for the next poll. -/
  | producerCountReadComplete (n : Fin 256) (reply : Reply (BitVec 32))
  /-- SCAN_ARRAY_READ_COMPLETE (R62): The 1 KiB producer-count array read returns in SCAN mode and is handled as in ATOMIC mode. -/
  | scanArrayReadComplete (reply : Reply (List (BitVec 32)))
  /-- DESCRIPTOR_READ_COMPLETE (R65): Fetched descriptors arrive; the JFE writes the SQ consumer count and checks each descriptor, completing failures at once. -/
  | descriptorReadComplete (n : Fin 256) (reply : Reply (List (BitVec 512)))
  /-- FETCH_RESUME (R68): Room appears under the in-flight limits, and the JFE resumes fetching round-robin from rings with work waiting. -/
  | fetchResume
  /-- JOB_REACHES_QUEUE (R68): A job waiting in the JFE for room enters its engine or channel queue, or completes CONFIG if the block is not in RUN. -/
  | jobReachesQueue (job : Nat)
  /-- JOB_START (R64): A held job starts once its NOT_BEFORE is reached and its ORDERED or FENCE condition is met. -/
  | jobStart (job : Nat)
  /-- NOP (R66): NOP descriptor completes OK once its ORDERED or FENCE condition is met. -/
  | nopJob (job : Nat)
  /-- CANCEL (R76): CANCEL descriptor: every matching job in flight on TARGET_SQ is cancelled, and the CANCEL completes OK after its targets' records. -/
  | cancelJob (job : Nat)
  /-- JOB_COMPLETION (R72): A job's end is taken and its 32-byte completion record is written to its CQ after its outputs, or held if the CQ is full. -/
  | jobCompletion (job : Nat)
  /-- CQ_FULL_RECHECK (R74): While a CQ stays full, the JFE reads CI_ADDR again at each poll-interval instant. -/
  | cqFullRecheck (m : Fin 256)
  /-- CQ_CI_READ_COMPLETE (R74): A CQ consumer-count read returns: a valid count releases waiting records, and a bad or failed read sets INDEX or FETCH. -/
  | cqCiReadComplete (m : Fin 256) (reply : Reply (BitVec 32))
  /-- FUNCTION_LEVEL_RESET (R79): PCIe FLR of function f stops its rings and functions, ends its jobs without records and clears its desk and event page. -/
  | functionLevelReset (f : Fin 64)
  /-- BUS_MASTER_ENABLE_CLEAR (R80): Clearing Bus Master Enable stops the function's rings as by STOP_ABORT with FAULT BME. -/
  | busMasterEnableClear (f : Fin 64)
  /-- RD (R87): A read request packet reaches its memory, which returns RDATA, or ERR for a world, unmapped or fenced target. -/
  | rd (p : Packet) (owner : Owner)
  /-- WR (R87): An acknowledged whole-word write packet is stored and answered with WACK. -/
  | wr (p : Packet) (owner : Owner)
  /-- WRN (R86): A narrow write packet is carried out as a read-modify-write of one word. -/
  | wrn (p : Packet) (owner : Owner)
  /-- SWR (R328): A posted write packet is stored, or discarded with NOTICE, and acknowledged with SACK. -/
  | swr (p : Packet) (owner : Owner)
  /-- RDATA (R118): Read data arrives at the requester with its check bits, and is checked and delivered, corrected or as poison. -/
  | rdata (p : Packet) (owner : Owner)
  /-- WACK (R328): A write acknowledgement completes an outstanding write request. -/
  | wack (p : Packet) (owner : Owner)
  /-- SACK (R328): A SACK acknowledges up to 16 STREAM packets of one tag. -/
  | sack (p : Packet) (owner : Owner)
  /-- ERR (R340): A refused request's ERR arrives, and the job stops issuing packets and takes the status. -/
  | errPacket (p : Packet) (owner : Owner)
  /-- NOTICE (R340): A NOTICE reports a discarded STREAM packet with its status. -/
  | noticePacket (p : Packet) (owner : Owner)
  /-- EVENT (R474): An event occurrence packet reaches the event fabric, which latches the source and delivers it to its target when it becomes pending. -/
  | eventPacket (n : Fin 2048)
  /-- FENCE (R337): FENCE from the power controller puts an OPEN slot into FENCING, or a ULD slot into PROXY when received over a link. -/
  | fencePacket (slot : Fin 96) (link : Bool)
  /-- UNFENCE (R337): UNFENCE returns a DRAINED or PROXY slot to OPEN. -/
  | unfencePacket (slot : Fin 96) (link : Bool)
  /-- DRAINED (R337): A slot's DRAINED message reaches the power controller. -/
  | drainedPacket (slot : Fin 96)
  /-- POWER (R324): A power-controller handshake message is delivered. -/
  | powerPacket (slot : Fin 96) (value : BitVec 56)
  /-- EPOCH (R336): An epoch flip message switches an injection point to the new epoch. -/
  | epochPacket (slot : Fin 96)
  /-- SLOT_DRAINED (R337): A FENCING slot has no partial packet and no incomplete request, becomes DRAINED and sends DRAINED. -/
  | slotDrained (slot : Fin 96)
  /-- PACKET_ROUTE (R332): A head flit at a router is routed by the table of its epoch and granted an output link by urgency. -/
  | packetRoute (head : Head) (waited : Nat)
  /-- AGE_QUANTUM (R331): A head flit that has waited a full AGE_NS at a router gains one urgency. -/
  | ageQuantum (k : Nat)
  /-- CHECK (R334): NOC_EPOCH_CMD.CHECK starts a walk of the inactive route tables. -/
  | nocCheck (who : Accessor)
  /-- NOC_CHECK_DONE (R334): The table check ends, setting CHECK_OK or CHECK_FAIL with the failing router, endpoint and cause. -/
  | nocCheckDone
  /-- FLIP (R336): NOC_EPOCH_CMD.FLIP sends EPOCH to every injection point and sets CUR to the other epoch. -/
  | nocFlip (who : Accessor)
  /-- NOC_EPOCH_DRAINED (R336): The former epoch's packet count reaches zero, and its tables become writable. -/
  | nocEpochDrained
  /-- MEMORY_WINDOW_READ (R98): A host read through the PF BAR0 memory window reads the internal address as a non-secure PF request. -/
  | memoryWindowRead (off : BitVec 25) (size : Nat) (e0 e1 : Ext)
  /-- MEMORY_WINDOW_WRITE (R98): A host write through the memory window writes the internal address in byte view. -/
  | memoryWindowWrite (off : BitVec 25) (size : Nat) (value : BitVec 64)
  /-- DMV_COPY (R102): Data-mover job copying words row by row. -/
  | dmvCopy (job : Nat) (ext : List Ext)
  /-- DMV_CONVERT (R105): Data-mover job expanding or packing PACK72, S16 or BFP. -/
  | dmvConvert (job : Nat) (ext : List Ext)
  /-- DMV_FILL (R102): Data-mover job filling rows with a 72-bit pattern. -/
  | dmvFill (job : Nat) (ext : List Ext)
  /-- DMV_TX_FRAME (R104): Data-mover job packing PRBs into a U-plane frame from a template and enqueuing it on a port queue. -/
  | dmvTxFrame (job : Nat)
  /-- DMV_JOB_START (R100): A channel begins its next queued job once the previous one has ended. -/
  | dmvJobStart (ch : Fin 64)
  /-- TRACKER_ENTRY_EXPIRY (R123): A tracker entry is freed after 24 h of short time without a correction. -/
  | trackerEntryExpiry (n : Fin 197) (word : Nat)
  /-- SCRUB_READ (R126): A scrubber reads its next word or group and writes back or poisons as found. -/
  | scrubRead (hbm : Bool)
  /-- CORR_HOUR_END (R131): An hour of short time ends, and each CORR_HOUR takes the count of that hour. -/
  | corrHourEnd
  /-- MEM_INJECT_ARM (R131): MEM_INJECT.ARM arms one injection on the target word. -/
  | memInjectArm (who : Accessor)
  /-- TASK_DISPATCH (R224): The TSU gives a takeable task to an eligible idle core, which clears its state, loads the arguments and starts. -/
  | taskDispatch
  /-- CMAC (R181): Complex multiply-accumulate into an accumulator. -/
  | opCmac (b : Bnd) (a : Fin 8) (x y : Fin 64)
  /-- CMACN (R181): Complex multiply-accumulate, subtracting. -/
  | opCmacn (b : Bnd) (a : Fin 8) (x y : Fin 64)
  /-- CMACZ (R181): Complex multiply, setting the accumulator. -/
  | opCmacz (b : Bnd) (a : Fin 8) (x y : Fin 64)
  /-- CMACJ (R181): Conjugate complex multiply-accumulate. -/
  | opCmacj (b : Bnd) (a : Fin 8) (x y : Fin 64)
  /-- CMACJN (R181): Conjugate complex multiply-accumulate, subtracting. -/
  | opCmacjn (b : Bnd) (a : Fin 8) (x y : Fin 64)
  /-- CMACJZ (R181): Conjugate complex multiply, setting. -/
  | opCmacjz (b : Bnd) (a : Fin 8) (x y : Fin 64)
  /-- CMACS (R181): Complex multiply-accumulate by a scalar from S. -/
  | opCmacs (b : Bnd) (a : Fin 8) (x : Fin 64) (k : Fin 32)
  /-- CMACSJ (R181): Conjugate complex multiply-accumulate by a scalar. -/
  | opCmacsj (b : Bnd) (a : Fin 8) (x : Fin 64) (k : Fin 32)
  /-- RMAC (R181): Real multiply-accumulate of two products per lane. -/
  | opRmac (b : Bnd) (a : Fin 8) (x y z w : Fin 64)
  /-- RMACN (R181): Real multiply-accumulate, subtracting. -/
  | opRmacn (b : Bnd) (a : Fin 8) (x y z w : Fin 64)
  /-- RMACZ (R181): Real multiply, setting. -/
  | opRmacz (b : Bnd) (a : Fin 8) (x y z w : Fin 64)
  /-- RMAC1 (R181): Real multiply-accumulate of one product. -/
  | opRmac1 (b : Bnd) (a : Fin 8) (x y : Fin 64)
  /-- RMAC1Z (R181): Real multiply of one product, setting. -/
  | opRmac1z (b : Bnd) (a : Fin 8) (x y : Fin 64)
  /-- RMACS (R181): Real multiply-accumulate by scalar halves. -/
  | opRmacs (b : Bnd) (a : Fin 8) (x z : Fin 64) (k : Fin 32)
  /-- RMACSZ (R181): Real multiply by scalar halves, setting. -/
  | opRmacsz (b : Bnd) (a : Fin 8) (x z : Fin 64) (k : Fin 32)
  /-- RMACP (R181): Real multiply-accumulate of adjacent lane pairs. -/
  | opRmacp (b : Bnd) (a : Fin 8) (x y : Fin 64)
  /-- EXT (R145): Extraction of accumulator lanes into samples with a rounding shift. -/
  | opExt (b : Bnd) (a : Fin 8) (v : Fin 64) (sh : Shift)
  /-- BEXPA (R147): Smallest headroom of selected accumulator lanes into S. -/
  | opBexpa (b : Bnd) (a : Fin 8) (k : Fin 32)
  /-- ACCCLR (R181): Clears accumulator lanes. -/
  | opAccclr (b : Bnd) (a : Fin 8)
  /-- ACCGET (R181): Moves a part of accumulator lanes into a V register. -/
  | opAccget (b : Bnd) (a : Fin 8) (v : Fin 64) (part : Fin 3)
  /-- ACCPUT (R181): Writes a part of accumulator lanes from a V register. -/
  | opAccput (b : Bnd) (a : Fin 8) (v : Fin 64) (part : Fin 3)
  /-- ACCSET (R181): Sets accumulator lanes from scaled samples. -/
  | opAccset (b : Bnd) (a : Fin 8) (v : Fin 64) (sh : Shift)
  /-- VADD (R182): Vector add, wrapping. -/
  | opVadd (b : Bnd) (v x y : Fin 64)
  /-- VSUB (R182): Vector subtract, wrapping. -/
  | opVsub (b : Bnd) (v x y : Fin 64)
  /-- VADDS (R182): Vector add, limited. -/
  | opVadds (b : Bnd) (v x y : Fin 64)
  /-- VSUBS (R182): Vector subtract, limited. -/
  | opVsubs (b : Bnd) (v x y : Fin 64)
  /-- VNEG (R182): Vector negate, wrapping. -/
  | opVneg (b : Bnd) (v x : Fin 64)
  /-- VNEGS (R182): Vector negate, limited. -/
  | opVnegs (b : Bnd) (v x : Fin 64)
  /-- VABS (R182): Vector absolute value, limited. -/
  | opVabs (b : Bnd) (v x : Fin 64)
  /-- VMIN (R182): Vector minimum. -/
  | opVmin (b : Bnd) (v x y : Fin 64)
  /-- VMAX (R182): Vector maximum. -/
  | opVmax (b : Bnd) (v x y : Fin 64)
  /-- VAVG (R182): Vector average, rounding up. -/
  | opVavg (b : Bnd) (v x y : Fin 64)
  /-- VAND (R182): Vector AND. -/
  | opVand (b : Bnd) (v x y : Fin 64)
  /-- VOR (R182): Vector OR. -/
  | opVor (b : Bnd) (v x y : Fin 64)
  /-- VXOR (R182): Vector XOR. -/
  | opVxor (b : Bnd) (v x y : Fin 64)
  /-- VNOT (R182): Vector NOT. -/
  | opVnot (b : Bnd) (v x : Fin 64)
  /-- VSHL (R182): Vector shift left, wrapping. -/
  | opVshl (b : Bnd) (v x : Fin 64) (t : Fin 18)
  /-- VSHLS (R182): Vector shift left, limited. -/
  | opVshls (b : Bnd) (v x : Fin 64) (t : Fin 18)
  /-- VSHRA (R182): Vector arithmetic shift right, truncating. -/
  | opVshra (b : Bnd) (v x : Fin 64) (t : Fin 18)
  /-- VSHRR (R182): Vector shift right, rounding half up. -/
  | opVshrr (b : Bnd) (v x : Fin 64) (t : Fin 18)
  /-- VCONJ (R182): Complex conjugate of each complex lane. -/
  | opVconj (b : Bnd) (v x : Fin 64)
  /-- VCSWAP (R182): Exchanges real and imaginary lanes. -/
  | opVcswap (b : Bnd) (v x : Fin 64)
  /-- VROTJ (R182): Multiplies complex lanes by j. -/
  | opVrotj (b : Bnd) (v x : Fin 64)
  /-- VCMPEQ (R182): Lane equality compare into a predicate. -/
  | opVcmpeq (b : Bnd) (p : Fin 8) (x y : Fin 64)
  /-- VCMPLT (R182): Lane less-than compare into a predicate. -/
  | opVcmplt (b : Bnd) (p : Fin 8) (x y : Fin 64)
  /-- VCMPLE (R182): Lane less-or-equal compare into a predicate. -/
  | opVcmple (b : Bnd) (p : Fin 8) (x y : Fin 64)
  /-- VMOV (R182): Vector move. -/
  | opVmov (b : Bnd) (v x : Fin 64)
  /-- VSEL (R182): Vector select by predicate. -/
  | opVsel (b : Bnd) (v x y : Fin 64) (q : Fin 8)
  /-- VPERM (R182): Vector lane permute. -/
  | opVperm (b : Bnd) (v x y : Fin 64)
  /-- VMOVI (R182): Vector broadcast of an immediate. -/
  | opVmovi (b : Bnd) (v : Fin 64) (imm : BitVec 18)
  /-- VBCAST (R182): Broadcast of a sample from S. -/
  | opVbcast (b : Bnd) (v : Fin 64) (k : Fin 32)
  /-- VBCASTC (R182): Broadcast of a complex sample from S. -/
  | opVbcastc (b : Bnd) (v : Fin 64) (k : Fin 32)
  /-- VINS (R182): Inserts a sample from S into one lane. -/
  | opVins (b : Bnd) (v : Fin 64) (l k : Fin 32)
  /-- VEXTL (R182): Extracts one lane into S. -/
  | opVextl (b : Bnd) (k : Fin 32) (x : Fin 64) (l : Fin 32)
  /-- BEXPV (R147): Smallest headroom of selected vector lanes into S. -/
  | opBexpv (b : Bnd) (k : Fin 32) (x : Fin 64)
  /-- LDV1 (R184): Loads one word into a V register. -/
  | opLdv1 (b : Bnd) (r : Fin 64) (m : Addr)
  /-- LDV2 (R184): Loads two words into a V register. -/
  | opLdv2 (b : Bnd) (r : Fin 64) (m : Addr)
  /-- LDV4 (R184): Loads four words into a V register. -/
  | opLdv4 (b : Bnd) (r : Fin 64) (m : Addr)
  /-- LDV8 (R184): Loads eight words into a V register. -/
  | opLdv8 (b : Bnd) (r : Fin 64) (m : Addr)
  /-- LDS0 (R184): Loads sample 0 of a word into S. -/
  | opLds0 (b : Bnd) (r : Fin 32) (m : Addr)
  /-- LDS1 (R184): Loads sample 1 of a word into S. -/
  | opLds1 (b : Bnd) (r : Fin 32) (m : Addr)
  /-- LDS2 (R184): Loads sample 2 of a word into S. -/
  | opLds2 (b : Bnd) (r : Fin 32) (m : Addr)
  /-- LDS3 (R184): Loads sample 3 of a word into S. -/
  | opLds3 (b : Bnd) (r : Fin 32) (m : Addr)
  /-- LDC0 (R184): Loads complex sample 0 into S. -/
  | opLdc0 (b : Bnd) (r : Fin 32) (m : Addr)
  /-- LDC1 (R184): Loads complex sample 1 into S. -/
  | opLdc1 (b : Bnd) (r : Fin 32) (m : Addr)
  /-- LDBU (R184): Loads a byte, zero-extended. -/
  | opLdbu (b : Bnd) (r : Fin 32) (m : Addr)
  /-- LDBS (R184): Loads a byte, sign-extended. -/
  | opLdbs (b : Bnd) (r : Fin 32) (m : Addr)
  /-- LDHU (R184): Loads two bytes, zero-extended. -/
  | opLdhu (b : Bnd) (r : Fin 32) (m : Addr)
  /-- LDHS (R184): Loads two bytes, sign-extended. -/
  | opLdhs (b : Bnd) (r : Fin 32) (m : Addr)
  /-- LDQU (R184): Loads four bytes, zero-extended. -/
  | opLdqu (b : Bnd) (r : Fin 32) (m : Addr)
  /-- LDQS (R184): Loads four bytes, sign-extended. -/
  | opLdqs (b : Bnd) (r : Fin 32) (m : Addr)
  /-- LDA (R184): Loads four bytes into an A register. -/
  | opLda (b : Bnd) (r : Fin 16) (m : Addr)
  /-- STV1 (R185): Stores one word of a V register. -/
  | opStv1 (b : Bnd) (r : Fin 64) (m : Addr)
  /-- STV2 (R185): Stores two words of a V register. -/
  | opStv2 (b : Bnd) (r : Fin 64) (m : Addr)
  /-- STV4 (R185): Stores four words of a V register. -/
  | opStv4 (b : Bnd) (r : Fin 64) (m : Addr)
  /-- STV8 (R185): Stores eight words of a V register. -/
  | opStv8 (b : Bnd) (r : Fin 64) (m : Addr)
  /-- STS0 (R185): Stores S into sample 0 of a word. -/
  | opSts0 (b : Bnd) (r : Fin 32) (m : Addr)
  /-- STS1 (R185): Stores S into sample 1 of a word. -/
  | opSts1 (b : Bnd) (r : Fin 32) (m : Addr)
  /-- STS2 (R185): Stores S into sample 2 of a word. -/
  | opSts2 (b : Bnd) (r : Fin 32) (m : Addr)
  /-- STS3 (R185): Stores S into sample 3 of a word. -/
  | opSts3 (b : Bnd) (r : Fin 32) (m : Addr)
  /-- STC0 (R185): Stores S into complex sample 0. -/
  | opStc0 (b : Bnd) (r : Fin 32) (m : Addr)
  /-- STC1 (R185): Stores S into complex sample 1. -/
  | opStc1 (b : Bnd) (r : Fin 32) (m : Addr)
  /-- STB (R185): Stores one byte. -/
  | opStb (b : Bnd) (r : Fin 32) (m : Addr)
  /-- STH (R185): Stores two bytes. -/
  | opSth (b : Bnd) (r : Fin 32) (m : Addr)
  /-- STQ (R185): Stores four bytes. -/
  | opStq (b : Bnd) (r : Fin 32) (m : Addr)
  /-- STA (R185): Stores an A register as four bytes. -/
  | opSta (b : Bnd) (r : Fin 16) (m : Addr)
  /-- MFENCE (R160): Holds younger loads and stores until every older store is accepted. -/
  | opMfence (b : Bnd)
  /-- ADD (R186): Scalar add. -/
  | opAdd (b : Bnd) (k x y : Fin 32)
  /-- SUB (R186): Scalar subtract. -/
  | opSub (b : Bnd) (k x y : Fin 32)
  /-- MUL (R186): Scalar multiply, low 36 bits. -/
  | opMul (b : Bnd) (k x y : Fin 32)
  /-- MIN (R186): Scalar signed minimum. -/
  | opMin (b : Bnd) (k x y : Fin 32)
  /-- MAX (R186): Scalar signed maximum. -/
  | opMax (b : Bnd) (k x y : Fin 32)
  /-- AND (R186): Scalar AND. -/
  | opAnd (b : Bnd) (k x y : Fin 32)
  /-- OR (R186): Scalar OR. -/
  | opOr (b : Bnd) (k x y : Fin 32)
  /-- XOR (R186): Scalar XOR. -/
  | opXor (b : Bnd) (k x y : Fin 32)
  /-- SHL (R186): Scalar shift left by register. -/
  | opShl (b : Bnd) (k x y : Fin 32)
  /-- SHR (R186): Scalar logical shift right by register. -/
  | opShr (b : Bnd) (k x y : Fin 32)
  /-- SHRA (R186): Scalar arithmetic shift right by register. -/
  | opShra (b : Bnd) (k x y : Fin 32)
  /-- ADDI (R186): Scalar add immediate. -/
  | opAddi (b : Bnd) (k x : Fin 32) (imm : BitVec 34)
  /-- MOVI (R186): Scalar move immediate. -/
  | opMovi (b : Bnd) (k : Fin 32) (imm : BitVec 34)
  /-- SHLI (R186): Scalar shift left by immediate. -/
  | opShli (b : Bnd) (k x : Fin 32) (n : Fin 36)
  /-- SHRI (R186): Scalar logical shift right by immediate. -/
  | opShri (b : Bnd) (k x : Fin 32) (n : Fin 36)
  /-- SHRAI (R186): Scalar arithmetic shift right by immediate. -/
  | opShrai (b : Bnd) (k x : Fin 32) (n : Fin 36)
  /-- CMPEQ (R186): Scalar equality compare into a predicate. -/
  | opCmpeq (b : Bnd) (p : Fin 8) (x y : Fin 32)
  /-- CMPLT (R186): Scalar signed less-than compare. -/
  | opCmplt (b : Bnd) (p : Fin 8) (x y : Fin 32)
  /-- CMPLTU (R186): Scalar unsigned less-than compare. -/
  | opCmpltu (b : Bnd) (p : Fin 8) (x y : Fin 32)
  /-- CMPEQI (R186): Scalar compare with an immediate. -/
  | opCmpeqi (b : Bnd) (p : Fin 8) (x : Fin 32) (imm : BitVec 34)
  /-- AADD (R186): Adds an S register to an A register. -/
  | opAadd (b : Bnd) (k n : Fin 16) (y : Fin 32)
  /-- AADDI (R186): Adds an immediate to an A register. -/
  | opAaddi (b : Bnd) (k n : Fin 16) (imm : BitVec 32)
  /-- AMOVI (R186): Moves an immediate into an A register. -/
  | opAmovi (b : Bnd) (k : Fin 16) (imm : BitVec 32)
  /-- AMOV (R186): Moves an S register into an A register. -/
  | opAmov (b : Bnd) (n : Fin 16) (x : Fin 32)
  /-- AGET (R186): Moves an A register into S. -/
  | opAget (b : Bnd) (n : Fin 16) (k : Fin 32)
  /-- PAND (R186): Predicate AND. -/
  | opPand (b : Bnd) (k x y : Fin 8)
  /-- POR (R186): Predicate OR. -/
  | opPor (b : Bnd) (k x y : Fin 8)
  /-- PXOR (R186): Predicate XOR. -/
  | opPxor (b : Bnd) (k x y : Fin 8)
  /-- PANDN (R186): Predicate AND NOT. -/
  | opPandn (b : Bnd) (k x y : Fin 8)
  /-- PMOVS (R186): Moves S into a predicate. -/
  | opPmovs (b : Bnd) (p : Fin 8) (x : Fin 32)
  /-- PGETS (R186): Moves a predicate into S. -/
  | opPgets (b : Bnd) (p : Fin 8) (k : Fin 32)
  /-- LOOPSET (R153): Sets TRIPS, STG and PASS and computes the stage predicates. -/
  | opLoopset (b : Bnd) (stages : Fin 4) (n : Count)
  /-- MFSR (R187): Reads a system register into S. -/
  | opMfsr (b : Bnd) (k : Fin 32) (sys : BitVec 8)
  /-- MTSR (R187): Writes a system register from S, taking a time snapshot for TSNAP_LO. -/
  | opMtsr (b : Bnd) (k : Fin 32) (sys : BitVec 8)
  /-- BRA (R189): Branch, conditional when predicated. -/
  | opBra (b : Bnd) (hint : Bool) (target : BitVec 13)
  /-- CALL (R189): Branch saving the return address in S[31]. -/
  | opCall (b : Bnd) (hint : Bool) (target : BitVec 13)
  /-- BRI (R189): Indirect branch through S. -/
  | opBri (b : Bnd) (k : Fin 32)
  /-- LOOP (R153): Increments PASS and branches while PASS is below TRIPS. -/
  | opLoop (b : Bnd) (target : BitVec 13)
  /-- LOOPM (R153): Modulo-loop branch: increments PASS and ROT and recomputes stage predicates. -/
  | opLoopm (b : Bnd) (target : BitVec 13)
  /-- TEND (R168): Ends the task with a status once its stores and coprocessor operations are done. -/
  | opTend (b : Bnd) (status : BitVec 8)
  /-- SYSCALL (R161): Takes the after trap SYSCALL. -/
  | opSyscall (b : Bnd)
  /-- BREAK (R161): Takes the precise trap BREAK. -/
  | opBreak (b : Bnd)
  /-- RTE (R166): Returns from a handler to TRAP_LEVEL at TRAP_PC, where held asynchronous traps may be taken. -/
  | opRte (b : Bnd)
  /-- SIGNAL (R189): Raises CORE_SIGNAL at commit. -/
  | opSignal (b : Bnd)
  /-- CMM (R193): Coprocessor issue of a complex matrix multiply. -/
  | opCmm (b : Bnd) (tag : Fin 8) (n : Fin 16) (g : Fin 4)
  /-- GRAM (R193): Coprocessor issue of a Gram matrix. -/
  | opGram (b : Bnd) (tag : Fin 8) (n : Fin 16) (g : Fin 4)
  /-- CHOL (R199): Coprocessor issue of a Cholesky factorisation. -/
  | opChol (b : Bnd) (tag : Fin 8) (n : Fin 16) (g : Fin 4)
  /-- TRSM (R199): Coprocessor issue of a triangular solve. -/
  | opTrsm (b : Bnd) (tag : Fin 8) (n : Fin 16) (g : Fin 4)
  /-- CXWAIT (R191): Holds issue until the masked SB bits clear. -/
  | opCxwait (b : Bnd) (mask : BitVec 8)
  /-- CXLOCK (R211): Tries to take the coprocessor lock. -/
  | opCxlock (b : Bnd) (p : Fin 8)
  /-- CXUNLOCK (R211): Releases the coprocessor lock. -/
  | opCxunlock (b : Bnd)
  /-- BRANCH_RESOLVE (R157): A branch resolves; on a misprediction younger bundles are squashed and the correct path fetched. -/
  | branchResolve (c : Fin 104) (mispredicted : Bool) (squashed : Fin 17)
  /-- LOAD_RETURN (R159): Data of a load beyond own data memory returns, or a load trap condition is found. -/
  | loadReturn (c : Fin 104) (ext : List Ext)
  /-- STORE_ACCEPTED (R160): A buffered store is accepted by its memory and becomes visible. -/
  | storeAccepted (c : Fin 104) (k : Fin 16) (ext : List Ext)
  /-- STORE_FAULT (R161): An accepted store ends with an error and the asynchronous trap STORE_FAULT is taken or held. -/
  | storeFault (c : Fin 104)
  /-- ABORT_REQUEST (R169): An abort request from the task scheduler enters the running task as the trap ABORT. -/
  | abortRequest (c : Fin 104)
  /-- COPROCESSOR_OP_BEGIN (R201): A coprocessor operation begins computing when its predecessor has finished or its writes are accepted. -/
  | coprocessorOpBegin (c : Fin 104)
  /-- CX_LATE (R205): A late coprocessor error is reported as the asynchronous trap CX_LATE after commit. -/
  | cxLate (c : Fin 104)
  /-- COPROCESSOR_OP_END (R206): The result record is accepted and SB[tag] clears. -/
  | coprocessorOpEnd (c : Fin 104)
  /-- TASK_END (R226): A core reports a task's end; the TSU frees a job task or moves a resident run on. -/
  | taskEnd (c : Fin 104)
  /-- TASK_RUN (R217): TASK_RUN descriptor allocates a task entry, or waits for a free one. -/
  | taskRun (job : Nat) (entry : Fin 4096)
  /-- TASK_WAKE (R229): TASK_WAKE descriptor wakes a resident entry. -/
  | taskWake (job : Nat)
  /-- TASK_FREE (R229): TASK_FREE descriptor frees a resident entry, aborting its run when ABORT is set. -/
  | taskFree (job : Nat)
  /-- TSU_TICK (R221): At each tick the TSU moves every task whose wake time is reached from its caravan list to its shelf. -/
  | tsuTick
  /-- AFFINITY_HOLD_END (R224): A READY task passes the end of a hold stage and becomes takeable by more cores. -/
  | affinityHoldEnd (entry : Fin 4096)
  /-- ABORT_TIMEOUT (R228): An aborted task not ended within TIMEOUT_US is forced to end. -/
  | abortTimeout (c : Fin 104)
  /-- RETIRE (R232): TSU_RETIRE.GO starts retirement of an erg. -/
  | retire (who : Accessor) (erg : Fin 16) (abort : Bool)
  /-- RETIREMENT_DRAINED (R232): The retiring erg has stopped; RETIRED sets and the standby erg takes its place. -/
  | retirementDrained
  /-- TSU_STANDBY_WRITE (R232): A write of TSU_STANDBY.ERG names the standby erg, clearing RETIRED, or is rejected. -/
  | tsuStandbyWrite (who : Accessor) (erg : Fin 16) (auto : Bool)
  /-- MX_MATMUL (R238): Matrix engine job of batched matrix products. -/
  | mxMatmul (job : Nat)
  /-- MX_GRAM (R244): Matrix engine job of Gram matrices with optional diagonal loading. -/
  | mxGram (job : Nat)
  /-- MX_COMBINE (R241): Matrix engine job applying weight groups to vector columns. -/
  | mxCombine (job : Nat)
  /-- MX_CHOL (R245): Matrix engine job of Cholesky or LDL factorisations. -/
  | mxChol (job : Nat)
  /-- MX_TRSM (R245): Matrix engine job of triangular solves. -/
  | mxTrsm (job : Nat)
  /-- MX_POSV (R245): Matrix engine job factorising and solving Hermitian systems. -/
  | mxPosv (job : Nat)
  /-- MXE_JOB_BEGIN (R247): An engine begins its next job once the previous one has finished computing or its writes are accepted. -/
  | mxeJobBegin (m : Fin 4)
  /-- XF_FFT (R256): Transform job of FFTs or iFFTs with cyclic prefix handling. -/
  | xfFft (job : Nat)
  /-- XF_DFT (R256): Transform job of prime-length DFTs. -/
  | xfDft (job : Nat)
  /-- XFM_JOB_BEGIN (R252): A transform unit begins its next queued job. -/
  | xfmJobBegin (u : Fin 32)
  /-- CD_LDPC (R272): LDPC decode job with HARQ combining. -/
  | cdLdpc (job : Nat)
  /-- CE_LDPC (R273): LDPC encode and rate-matching job. -/
  | ceLdpc (job : Nat) (ext : List Ext)
  /-- CD_POLAR (R276): Polar list decode job. -/
  | cdPolar (job : Nat)
  /-- CE_POLAR (R275): Polar encode job. -/
  | cePolar (job : Nat) (ext : List Ext)
  /-- CD_TURBO (R272): Turbo decode job. -/
  | cdTurbo (job : Nat)
  /-- CE_TURBO (R273): Turbo encode job. -/
  | ceTurbo (job : Nat) (ext : List Ext)
  /-- CD_TBCC (R276): Tail-biting convolutional decode job. -/
  | cdTbcc (job : Nat)
  /-- CE_TBCC (R275): Tail-biting convolutional encode job. -/
  | ceTbcc (job : Nat) (ext : List Ext)
  /-- CC_CRC (R277): CRC attach or check job. -/
  | ccCrc (job : Nat) (ext : List Ext)
  /-- CODE_INSTANCE_START (R265): A free coding unit takes the first waiting instance of its kind, after any soft-buffer wait. -/
  | codeInstanceStart (u : Fin 36)
  /-- CODE_INSTANCE_END (R271): A code block ends, with its output, soft-buffer write-back and record. -/
  | codeInstanceEnd (u : Fin 36)
  /-- BRX_RELEASE (R296): BRX_RELEASE descriptor ends a burst-receiver context of matching GEN. -/
  | brxRelease (job : Nat) (ext : List Ext)
  /-- BRX_QUIET (R303): BRX_QUIET descriptor marks a noise-measurement window on a slot. -/
  | brxQuiet (job : Nat)
  /-- OCCASION_END (R290): The search of an occasion ends, giving detections that open, preempt or are refused contexts. -/
  | occasionEnd (b : Fin 16) (slot : Fin 24) (fmt : Fin 8) (k : Nat) (j : Fin 32) (f : Fin 8) (at_ until_ : ShortTime) (peaks : List Peak) (ext : List Ext)
  /-- FULL_LENGTH_CONFIRM (R294): At full preamble length an OPEN context is confirmed or ended as false. -/
  | fullLengthConfirm (b : Fin 16) (k : Fin 64) (power : Nat) (at_ : ShortTime) (ext : List Ext)
  /-- CAPTURE_ACCEPTED (R295): Every row of a context's payload capture is accepted, and the context becomes READY. -/
  | captureAccepted (b : Fin 16) (k : Fin 64) (symbol : Nat) (at_ : ShortTime) (ext : List Ext)
  /-- HOLD_TIMEOUT (R298): A READY context not released within HOLD_US ends LATE. -/
  | holdTimeout (b : Fin 16) (k : Fin 64) (ext : List Ext)
  /-- QUIET_WINDOW_END (R303): A quiet window ends, the antennas' powers are measured and the job completes. -/
  | quietWindowEnd (job : Nat) (symbols : Nat) (powers : List Nat)
  /-- DFE_TX_COMMIT (R308): DFE_TX_COMMIT descriptor sets COMMITTED of a TX carrier slot. -/
  | dfeTxCommit (job : Nat)
  /-- DFE_LOAD_COEF (R310): DFE_LOAD_COEF descriptor writes a coefficient bank. -/
  | dfeLoadCoef (job : Nat)
  /-- TX_BLOCK_FETCH (R308): At F_j a TX chain fetches block j, or sends zeros for an uncommitted block. -/
  | txBlockFetch (t : Fin 128) (k : Fin 4) (ext : List Ext)
  /-- RX_BLOCK_COMPLETE (R313): An RX chain completes a block in its ring and writes its header. -/
  | rxBlockComplete (r : Fin 128) (k : Fin 4) (ext : List Ext)
  /-- AGC_WINDOW_END (R315): An AGC window of WIN blocks ends and the gain code is adjusted. -/
  | agcWindowEnd (r : Fin 128) (k : Fin 4) (power : Nat)
  /-- MASK_DWELL_END (R311): A mask monitor's dwell on a chain ends and is evaluated, possibly muting the chain. -/
  | maskDwellEnd (m : Fin 8) (spectrum : List Nat)
  /-- ATTN_MASK_CLEAR (R312): Clearing ATTN.MASK of a TX chain clears MUTED. -/
  | attnMaskClear (who : Accessor) (t : Fin 128)
  /-- SLIP_GO (R361): LANE[L].SLIP.GO moves a Uldom lane's word boundary one symbol later. -/
  | slipGo (who : Accessor) (l : Fin 56)
  /-- ULD_SIGNAL_LOCK (R362): Every active lane has signal and clock lock, and the port enters EQUALISE. -/
  | uldSignalLock (p : Fin 3)
  /-- ULD_EQUALISE_CONVERGED (R362): Every active receiver's adaptation converges, and the port enters ALIGN. -/
  | uldEqualiseConverged (p : Fin 3) (eyes : List (BitVec 16))
  /-- ULD_ALIGN_MATCH (R362): Every active lane holds MATCH for 64 words, and the port enters DESKEW. -/
  | uldAlignMatch (p : Fin 3)
  /-- ULD_DESKEW_DONE (R362): Lane skew and order are judged, and the port enters EXCHANGE or faults with LANE_ORDER. -/
  | uldDeskewDone (p : Fin 3) (skew : Nat) (order : List (Fin 8))
  /-- TRAIN_FRAME (R362): A TRAIN frame is received, advancing EXCHANGE to ACTIVE or causing RETRAIN or PEER fault. -/
  | trainFrame (p : Fin 3) (f : Frame) (body : TrainBody)
  /-- IDLE_FRAME (R356): An IDLE frame delivers its acknowledgement and credit fields. -/
  | idleFrame (p : Fin 3) (f : Frame)
  /-- DATA_FRAME (R359): A DATA frame is accepted in sequence and its flit delivered or forwarded, or discarded with NAK. -/
  | dataFrame (p : Fin 3) (f : Frame) (seq : Fin 4096) (flit : Flit)
  /-- TIME_FRAME (R366): A TIME frame yields an OFFSET and DELAY measurement and raises ULD_TIME. -/
  | timeFrame (p : Fin 3) (f : Frame) (tseq rseq : BitVec 8) (prevTx rseqRx arrived : BitVec 96)
  /-- SLEEP_FRAME (R365): A SLEEP frame puts the receiving direction's receivers into SLEEP. -/
  | sleepFrame (p : Fin 3) (f : Frame)
  /-- BYE_FRAME (R362): A BYE frame moves an ACTIVE port to STOPPING with PEER_STOPPED. -/
  | byeFrame (p : Fin 3) (f : Frame)
  /-- MARKER (R357): A marker word is received and checked against the lane's alignment. -/
  | markerWord (l : Fin 56) (word : BitVec 64)
  /-- REPLAY_TIMEOUT (R359): Unacknowledged frames without ACK progress for REPLAY_TIMEOUT start a replay. -/
  | replayTimeout (p : Fin 3)
  /-- LOSS_OF_SIGNAL (R362): Signal lost on an active lane without a prior SLEEP puts the port into RETRAIN. -/
  | lossOfSignal (l : Fin 56)
  /-- RETRAIN_LOCK (R362): Lanes in RETRAIN regain lock, and the port returns to ALIGN. -/
  | retrainLock (p : Fin 3)
  /-- TRAIN_TIMEOUT (R362): First training not complete within TRAIN_MS stops the port with TIMEOUT. -/
  | trainTimeout (p : Fin 3)
  /-- RETRAIN_TIMEOUT (R362): Retraining not complete within RETRAIN_MS stops the port with LINK_LOST. -/
  | retrainTimeout (p : Fin 3)
  /-- SLEEP_IDLE_EXPIRY (R365): A direction idle for IDLE_US sends SLEEP frames and sleeps its transmitters. -/
  | sleepIdleExpiry (p : Fin 3)
  /-- TIME_INTERVAL_EXPIRY (R366): TIME_INTERVAL_US elapses and a TIME frame is sent. -/
  | timeIntervalExpiry (p : Fin 3) (crossing : BitVec 96)
  /-- REFERENCE_INVALID (R374): A DPLL reference becomes invalid and the DPLL switches or enters HOLD. -/
  | referenceInvalid (code : BitVec 8)
  /-- REFERENCE_VALID (R374): A reference valid for 10 s becomes valid again, with reversion when REVERT is set. -/
  | referenceValid (code : BitVec 8)
  /-- SYNCE_TX_WRITE (R374): A write of TB_DPLL.SYNCE_TX switches the Ethernet transmit frequency source, or is rejected. -/
  | synceTxWrite (who : Accessor) (on : Bool)
  /-- SERVO_UPDATE (R377): The steward writes a servo correction, which filters the offset, steers F and may change the time state. -/
  | servoUpdate (offset : BitVec 64) (freq slew : BitVec 32) (accepted : Bool) (gm : BitVec 8)
  /-- TB_HOST_MEAS_COMMIT (R375): TB_HOST_MEAS.COMMIT hands a host offset measurement to the servo. -/
  | tbHostMeasCommit (who : Accessor)
  /-- MEASUREMENT_LOSS (R376): No accepted measurement for LOSS_MS moves LOCKED to HOLDOVER or ACQUIRING to FREE. -/
  | measurementLoss
  /-- TB_ADJ_FREQ_WRITE (R378): A write to TB_ADJ.FREQ sets F at the next timebase cycle. -/
  | tbAdjFreqWrite (who : Accessor) (value : BitVec 32)
  /-- TB_ADJ_GO_STEP (R378): TB_ADJ.GO without slew applies PHASE as a phase step. -/
  | tbAdjGoStep (who : Accessor)
  /-- TB_ADJ_GO_SLEW (R378): TB_ADJ.GO with SLEW and a non-zero SLEW_PPB starts a slew. -/
  | tbAdjGoSlew (who : Accessor)
  /-- SLEW_COMPLETE (R378): The whole of PHASE has been applied and SLEWING clears. -/
  | slewComplete
  /-- TB_SET_GO (R378): TB_SET.GO sets full time without changing short time. -/
  | tbSetGo (who : Accessor)
  /-- TB_SNAP_GO (R401): TB_SNAP.GO captures short and full time at one instant. -/
  | tbSnapGo (who : Accessor)
  /-- SECOND_BOUNDARY (R384): At each full-time second PPS_OUT rises and the coarse counter is reloaded. -/
  | secondBoundary
  /-- PPS_PULSE_END (R384): PPS_OUT falls after WIDTH_NS. -/
  | ppsPulseEnd
  /-- PPS_IN_EDGE (R385): A PPS_IN edge is time-stamped and counted. -/
  | ppsInEdge (falling : Bool) (at_ : ShortTime)
  /-- TIMED_IO_INPUT_EDGE (R386): A selected edge on an input TIMED_IO pin is captured in LAST. -/
  | timedIoInputEdge (i : Fin 16) (falling : Bool) (at_ : ShortTime)
  /-- TIMED_IO_OUTPUT_EDGE (R386): An enabled output edge's time is reached and the pin takes its level. -/
  | timedIoOutputEdge (i : Fin 16)
  /-- PTM_REQUEST (R387): A PTM Request is answered with Response and ResponseD. -/
  | ptmRequest
  /-- ETH_QUAD_WRITE (R388): A write of ETH_QUAD configures a quad's ports, or is rejected unless all are STOPPED. -/
  | ethQuadWrite (who : Accessor) (q : Fin 4) (value : BitVec 32)
  /-- LINK_UP (R390): An Ethernet port acquires link, calibrates D_phase and sets LINK_UP. -/
  | linkUp (n : Fin 16) (an : Bool)
  /-- LINK_DOWN (R390): An Ethernet port loses link, clears LINK_UP and retrains. -/
  | linkDown (n : Fin 16)
  /-- FRAME_LAUNCH (R392): A queued frame reaches its turn and departs, is deferred, dropped or flagged. -/
  | frameLaunch (n : Fin 16) (at_ : ShortTime) (mismatch : Bool) (ext : List Ext)
  /-- TX_RING_POLL (R395): Each POLL_NS a port reads its TX ring producer count and fetches descriptors. -/
  | txRingPoll (n : Fin 16) (ext : List Ext)
  /-- FRAME_RECEIVE (R397): A received frame is time-stamped, checked and classified to a chain, steering, steward or RX ring. -/
  | frameReceive (n : Fin 16) (good : Bool) (at_ : ShortTime) (bytes : List (BitVec 8)) (mismatch : Bool) (ext : List Ext)
  /-- ETH_STEER_WRITE (R402): A write to an enabled steering entry's fields is rejected. -/
  | ethSteerWrite (who : Accessor) (i : Fin 1024) (w : Fin 16) (value : BitVec 32)
  /-- SEC_REGION_GO (R405): SEC_REGION_CMD.GO starts a change of one granule's world. -/
  | secRegionGo (who : Accessor)
  /-- REGION_DONE (R405): The granule is zero-filled and takes its new world. -/
  | regionDone
  /-- CORE_WORLD_WRITE (R405): A change of ERG_CORE.CFG.WORLD zero-fills the core's memories. -/
  | coreWorldWrite (who : Accessor) (c : Fin 104) (world : Bool)
  /-- LOAD (R411): Key command unwrapping a blob into a drawer. -/
  | keyLoad (who : Accessor) (desk : Fin 64) (ext : List Ext)
  /-- LOAD_KW (R411): Key command unwrapping a raw AES-KW key into a MACsec drawer. -/
  | keyLoadKw (who : Accessor) (desk : Fin 64) (ext : List Ext)
  /-- CLEAR (R411): Key command emptying a drawer. -/
  | keyClear (who : Accessor) (desk : Fin 64)
  /-- GRANT (R411): Key command granting a drawer to a desk. -/
  | keyGrant (who : Accessor) (desk : Fin 64)
  /-- REVOKE (R411): Key command withdrawing a grant. -/
  | keyRevoke (who : Accessor) (desk : Fin 64)
  /-- KEK_IMPORT (R408): Key command wrapping the owner's plaintext KEK into a blob and zeroing the plaintext. -/
  | kekImport (who : Accessor) (desk : Fin 64) (ext : List Ext)
  /-- LOCK_OWNER (R411): Key command blowing the OWNER_LOCKED fuse. -/
  | lockOwner (who : Accessor) (desk : Fin 64)
  /-- KCMD_COMPLETE (R411): A key command ends, setting RESULT and KCMD_DONE. -/
  | kcmdComplete (desk : Fin 64)
  /-- CI_GCM (R416): Cipher job of AES-GCM encryption or verified decryption. -/
  | ciGcm (job : Nat) (mismatch : Option Nat) (ext : List Ext)
  /-- CI_CTR (R416): Cipher job of AES-CTR keystream XOR. -/
  | ciCtr (job : Nat) (mismatch : Option Nat) (ext : List Ext)
  /-- CI_CMAC (R416): Cipher job generating or verifying an AES-CMAC tag. -/
  | ciCmac (job : Nat) (mismatch : Option Nat) (ext : List Ext)
  /-- CI_NEA (R416): Cipher job of 3GPP ciphering. -/
  | ciNea (job : Nat) (mismatch : Option Nat) (ext : List Ext)
  /-- CI_NIA (R416): Cipher job generating or verifying a 3GPP MAC-I. -/
  | ciNia (job : Nat) (mismatch : Option Nat) (ext : List Ext)
  /-- CI_PDCP (R416): Cipher job protecting or unprotecting a PDCP PDU. -/
  | ciPdcp (job : Nat) (mismatch : Option Nat) (ext : List Ext)
  /-- CIPH_JOB_START (R419): A free cipher unit takes the first waiting job it can serve, sealing its quarantine window. -/
  | ciphJobStart (u : Fin 24)
  /-- QUARANTINE_ENABLE (R425): A write of SEC_QW.EN enables a quarantine window, or is rejected. -/
  | quarantineEnable (who : Accessor) (i : Fin 16)
  /-- SVN_COMMIT (R432): SEC_SVN_COMMIT.GO raises the fused SVN counter of a TYPE. -/
  | svnCommit (who : Accessor)
  /-- DEBUG_TOKEN (R433): A debug token presented through JTAG opens debug if accepted. -/
  | debugToken (challenge : BitVec 256) (idOk keyOk sigOk : Bool) (permit : BitVec 2)
  /-- TAMPER (R413): TAMPER_N asserted zeroises the cabinet and resets the device when in service. -/
  | tamper
  /-- REQUEST_ACTIVE (R448): PWR_REQ.TARGET ACTIVE request starts, merges, pends or is held. -/
  | requestActive (who : Accessor)
  /-- REQUEST_STANDBY (R448): PWR_REQ.TARGET STANDBY request. -/
  | requestStandby (who : Accessor)
  /-- REQUEST_DORMANT (R448): PWR_REQ.TARGET DORMANT request. -/
  | requestDormant (who : Accessor)
  /-- REQUEST_OFF (R448): PWR_REQ.TARGET OFF request. -/
  | requestOff (who : Accessor)
  /-- DRAIN_TIMEOUT (R449): PWR_DRAIN.US after entry step 1, every job still in flight ends with POWER. -/
  | drainTimeout
  /-- TRANSITION_COMPLETE (R449): A device-state transition ends, STATE takes the target and the pending request starts. -/
  | transitionComplete
  /-- DOMAIN_REQUEST (R444): A write of PWR_DOM.REQ requests a domain state, or is rejected. -/
  | domainRequest (who : Accessor) (k : Fin 22) (req : Fin 4)
  /-- DOMAIN_CHANGE_COMPLETE (R445): A domain finishes leaving or returning to ON. -/
  | domainChangeComplete (k : Fin 22)
  /-- WAKE_N (R451): WAKE_N low is a wake source requesting ACTIVE. -/
  | wakeN (low : Bool)
  /-- PCIE_L12_EXIT (R451): The PCIe link leaving L1.2 is a wake source. -/
  | pcieL12Exit (leaving : Bool)
  /-- WAKE_TIMER (R451): PWR_WAKE_TIMER.AT reached wakes the device. -/
  | wakeTimer
  /-- GPIO_WAKE_EDGE (R452): A level change on a selected GPIO wakes the device, or is lost in the commit window. -/
  | gpioWakeEdge (i : Fin 32) (window : Bool)
  /-- MAIN_SUPPLY_FAILURE (R447): A main supply failure moves the device to BACKUP at once, abandoning any transition. -/
  | mainSupplyFailure (holdup : Bool)
  /-- SUPPLY_GLITCH (R439): A short undervoltage or any overvoltage zeroises the cabinet and resets the device. -/
  | supplyGlitch
  /-- POWER_ON (R496): Oasis, PWR_GOOD and every supply monitor hold good for 1 ms and a cold boot starts. -/
  | powerOn (ran : Nat)
  /-- VAON_SWITCH_TO_BAK (R440): VAON_MAIN below 1.62 V switches the oasis domain to VAON_BAK. -/
  | vaonSwitchToBak
  /-- VAON_SWITCH_TO_MAIN (R440): VAON_MAIN at or above 1.70 V for 1 ms returns the oasis domain to it. -/
  | vaonSwitchToMain
  /-- OASIS_BROWNOUT (R442): A brown-out resets the oasis domain, zeroising the cabinet and losing the log. -/
  | oasisBrownout
  /-- CHARGE_TIMEOUT (R457): The backup target voltage not reached within TIMEOUT_S blocks charging. -/
  | chargeTimeout
  /-- HOUSEKEEPING_ROUND (R458): Every 1.0 ms the controller converts 64 channels and applies faults and thresholds. -/
  | housekeepingRound (codes : List (Option Int))
  /-- THERMAL_TRIP (R463): A trip comparator at 120 C drives THERMTRIP_N low and removes power. -/
  | thermalTrip (sensor : Fin 32)
  /-- PERST_N_FALL (R467): A falling edge of PERST_N starts a warm reset and holds the device. -/
  | perstNFall
  /-- PERST_N_RISE (R467): PERST_N rising begins the held boot sequence. -/
  | perstNRise
  /-- WARM (R467): GLB_RESET.WARM starts a warm reset. -/
  | warm (who : Accessor)
  /-- SECURE_WATCHDOG_EXPIRY (R485): The secure steward's watchdog expires and causes a warm reset. -/
  | secureWatchdogExpiry
  /-- NS_WATCHDOG_EXPIRY (R485): The non-secure steward's watchdog expires and restarts that steward. -/
  | nsWatchdogExpiry
  /-- BOOT_SEQUENCE (R469): The cold or warm boot runs release, keys, self-test, images, HBM, fill and READY. -/
  | bootSequence (input : BootInput)
  /-- GLB_BOOT_HOST_GO (R471): GLB_BOOT_HOST.GO hands a host-written steward image to the ROM for verification. -/
  | glbBootHostGo (who : Accessor) (digestOk sigOk : Bool)
  /-- EVT_LATCHED_CLEAR (R473): A W1C clear of LATCHED, which re-latches at once while a level source is LIVE. -/
  | evtLatchedClear (who : Accessor) (n : Fin 2048)
  /-- MSIX_UNMASK (R477): Unmasking or enabling a vector sends its pending message. -/
  | msixUnmask (f : Fin 64) (v : Fin 2048)
  /-- MODERATION_INTERVAL_END (R478): A vector's MOD_NS interval ends, DEFERRED clears and one message may be sent. -/
  | moderationIntervalEnd (f : Fin 64) (v : Fin 2048)
  /-- EVT_LOG_SEL (R481): A write of EVT_LOG_SEL selects an event-log entry for reading. -/
  | evtLogSel (who : Accessor) (seq : BitVec 32)
  /-- STW_MB_SEND (R485): STW_MB.SEND hands a mailbox message to a steward. -/
  | stwMbSend (who : Accessor) (s : Fin 2)
  /-- STW_MB_DONE (R485): A steward completes a mailbox message and raises STW_MB_DONE. -/
  | stwMbDone (s : Fin 2) (result : BitVec 8) (reply : List (BitVec 32))
  /-- PCIE_LINK (R483): The PCIe link comes up, goes down or changes rate or width. -/
  | pcieLink (speed : BitVec 4) (width : BitVec 5) (l12 : Bool) (errors : BitVec 2)
  /-- ILLEGAL_BUNDLE (R174): A bundle with a header fault, an undefined or malformed operation, or conflicting operations traps with ILLEGAL, DETAIL and BUNDLE_FAULT set. -/
  | illegalBundle (c : Fin 104)
  /-- FETCH_ERROR (R161): A bundle whose fetch finds an uncorrectable or poisoned word takes the precise trap FETCH_ERROR at commit. -/
  | fetchError (c : Fin 104) (k : Fin 4)
  /-- PTP_SYNC_INTERVAL (R375): The servo sends Sync and Delay_Req at 16 per second and Announce at 8 per second on its PTP ports. -/
  | ptpSyncInterval (n : Fin 16) (at_ : ShortTime) (frames : List (List (BitVec 8)))
  /-- PRBS_LOCK (R352): A lane's PRBS checker locks within 1 us of valid input and then counts bit errors in PRBS_ERR, setting ATTN.PRBS_ERR. -/
  | prbsLock (l : Fin 56) (errors : Nat)
  /-- HBM_REPAIR_COMPLETE (R125): A soft post-package repair ends, writing back the copied groups, releasing the held pseudo-channel accesses and updating the repair counts. -/
  | hbmRepairComplete (stack : Fin 2) (pc : Fin 32) (left : BitVec 8)
  /-- VDD_RET_DIP (R454): A dip of a kept chest bank's VDD_RET below 0.55 V sets the bank's sticky retention-monitor flag. -/
  | vddRetDip (b : Fin 8)
  /-- COARSE_COUNTER_STOP (R442): VAON_BAK falling below 1.2 V stops the coarse counter, so TB_COARSE.VALID is 0 and the time state becomes FREE, and releases THERMTRIP_N. -/
  | coarseCounterStop
  /-- CHARGE_TARGET_REACHED (R457): The backup capacitor reaches the charger's target voltage, and the charger passes from charging to holding. -/
  | chargeTargetReached
  deriving DecidableEq, Repr

end Sys2Proof
end

