-- ==== Sys2Proof/Decode.lean ====
section
/-! DEFINITION. Words of the table of operations. The table gives none of its rows any bits: the block has no encoding for a command,
so that no word spells one. -/

namespace Sys2Proof

/-- The command that a word spells by the bits of the table of operations: none, since no row gives bits. -/
def decodeTableWord (nbits w : Nat) : Option Instr :=
  match nbits, w with
  | _, _ => none

end Sys2Proof
end

