-- ==== Sys2Proof/Machine/Bits.lean ====
section
/-! DEFINITION. Helpers on bits, signed numbers, bytes and canonical sparse maps. They stand under Machine/ so that a
repair may mend them. -/

namespace Sys2Proof.Machine

/-- Bits `[lo+w-1:lo]` of a number. -/
def bitsOf (v lo w : Nat) : Nat := (v / 2 ^ lo) % 2 ^ w

/-- `v` with bits `[lo+w-1:lo]` replaced by the low `w` bits of `x`. -/
def putBits (v lo w x : Nat) : Nat := v - bitsOf v lo w * 2 ^ lo + (x % 2 ^ w) * 2 ^ lo

/-- One bit of a number. -/
def bitOf (v k : Nat) : Bool := bitsOf v k 1 == 1

/-- A Bool as 0 or 1. -/
def b2n (b : Bool) : Nat := if b then 1 else 0

/-- The two's complement value of the low `w` bits of `v`. -/
def signed (v w : Nat) : Int :=
  let x := v % 2 ^ w
  if x < 2 ^ (w - 1) then (x : Int) else (x : Int) - (2 ^ w : Nat)

/-- The low `w` bits of an integer, two's complement (wrapping). -/
def wrapTo (w : Nat) (x : Int) : Nat := (x % (2 ^ w : Nat)).toNat

/-- Limit an integer to `w` bits, two's complement (saturating). -/
def satTo (w : Nat) (x : Int) : Int :=
  if x < -(2 ^ (w - 1) : Nat) then -(2 ^ (w - 1) : Nat)
  else if x > (2 ^ (w - 1) : Nat) - 1 then (2 ^ (w - 1) : Nat) - 1 else x

/-- Does an integer fit `w` bits, two's complement? -/
def fits (w : Nat) (x : Int) : Bool := decide (satTo w x = x)

/-- `floor((x + 2^(s-1)) / 2^s)`: a right shift by `s` that rounds half up; `s = 0` leaves `x`. -/
def roundShift (x : Int) (s : Nat) : Int :=
  if s = 0 then x else (x + (2 ^ (s - 1) : Nat)) / (2 ^ s : Nat)

/-- Clamp a number to a range. -/
def clamp (lo hi v : Nat) : Nat := if v < lo then lo else if v > hi then hi else v

/-- The set bits of the low `w` bits of `v`, counted. -/
def popcount (v : Nat) : Nat → Nat
  | 0 => 0
  | w + 1 => b2n (bitOf v w) + popcount v w

/-- The little-endian bytes of a number, `n` of them. -/
def leBytes (v : Nat) : Nat → List Byte
  | 0 => []
  | n + 1 => BitVec.ofNat 8 v :: leBytes (v / 256) n

/-- The number a list of little-endian bytes spells. -/
def ofLE : List Byte → Nat
  | [] => 0
  | b :: bs => b.toNat + 256 * ofLE bs

/-- The big-endian bytes of a number, `n` of them. -/
def beBytes (v n : Nat) : List Byte := (leBytes v n).reverse

/-- The number a list of big-endian bytes spells. -/
def ofBE (bs : List Byte) : Nat := ofLE bs.reverse

/-- `n` bytes of a list from offset `k`, zero beyond its end. -/
def sliceBytes (bs : List Byte) (k : Nat) : Nat → List Byte
  | 0 => []
  | n + 1 => bs.getD k 0 :: sliceBytes bs (k + 1) n

/-- A list with the bytes from offset `k` replaced by `xs` as far as the list reaches. -/
def patchBytes (bs : List Byte) (k : Nat) : List Byte → List Byte
  | [] => bs
  | x :: xs => patchBytes (bs.set k x) (k + 1) xs

/-- The value a sparse map holds at a key: the first entry with that key, else what an unlisted key reads as. -/
def lookup {α : Type} (dflt : Nat → α) : List (Nat × α) → Nat → α
  | [], k => dflt k
  | (k', v) :: m, k => if k' = k then v else lookup dflt m k

/-- Every entry with the key removed. -/
def dropKey {α : Type} (k : Nat) : List (Nat × α) → List (Nat × α)
  | [] => []
  | (k', v) :: m => if k' = k then dropKey k m else (k', v) :: dropKey k m

/-- A new entry put before the first entry with a greater key. -/
def putKey {α : Type} (k : Nat) (v : α) : List (Nat × α) → List (Nat × α)
  | [] => [(k, v)]
  | (k', v') :: m => if k < k' then (k, v) :: (k', v') :: m else (k', v') :: putKey k v m

/-- A sparse map updated at a key; writing what an unlisted key reads as removes the entry, so equal maps are equal
lists. -/
def update {α : Type} [DecidableEq α] (dflt : Nat → α) (m : List (Nat × α)) (k : Nat) (v : α) : List (Nat × α) :=
  if v = dflt k then dropKey k m else putKey k v (dropKey k m)

/-- The canonical form: keys strictly rising, no entry equal to what an unlisted key reads as. -/
def canonical {α : Type} [DecidableEq α] (dflt : Nat → α) : List (Nat × α) → Bool
  | [] => true
  | [(k, v)] => decide (v ≠ dflt k)
  | (k, v) :: (k', v') :: m => decide (v ≠ dflt k) && decide (k < k') && canonical dflt ((k', v') :: m)

/-- The first `n` natural numbers from `k`. -/
def upFrom (k : Nat) : Nat → List Nat
  | 0 => []
  | n + 1 => k :: upFrom (k + 1) n

/-- The sum of a list of integers. -/
def sumInt : List Int → Int
  | [] => 0
  | x :: xs => x + sumInt xs

/-- The least of a list of numbers, or a default for the empty list. -/
def minD (d : Nat) : List Nat → Nat
  | [] => d
  | x :: xs => min x (minD d xs)

/-- Signed 64-bit difference, target minus now (R6). -/
def timeDiff (target now : ShortTime) : Int := (target - now).toInt

/-- R6: a trigger, deadline or wake fires when the signed difference target minus now is zero or negative. -/
def reached (target now : ShortTime) : Bool := decide (timeDiff target now ≤ 0)

end Sys2Proof.Machine
end

