-- ==== Sys2Proof/Machine/Format.lean ====
section
/-! DEFINITION. Samples in words (R84) and the packed forms of the data movers and the fronthaul: PACK72, S16 and block
floating point (R105, R106). -/

namespace Sys2Proof.Machine

/-- R84: sample k of a word, as an integer. -/
def sampleOf (v : Word) (k : Nat) : Int := signed (v.toNat / 2 ^ (18 * k)) 18

/-- R84: the four samples of a word. -/
def samplesOf (v : Word) : List Int := [sampleOf v 0, sampleOf v 1, sampleOf v 2, sampleOf v 3]

/-- A word of up to four samples, each wrapped to 18 bits; missing samples are zero. -/
def packSamples : List Int → Nat
  | [] => 0
  | x :: xs => wrapTo 18 x + 2 ^ 18 * packSamples xs

/-- R84: a word of four samples. -/
def wordOfSamples (xs : List Int) : Word := BitVec.ofNat 72 (packSamples (xs.take 4))

/-- R105: the S16 value of a sample. -/
def s16Of (x : Int) : Int := satTo 16 ((x + 2) / 4)

/-- R105: the sample of an S16 value. -/
def ofS16 (v : Int) : Int := 4 * v

/-- R105: the 8 bytes of a word in S16. -/
def packS16 (v : Word) : List Byte := (samplesOf v).foldr (fun x bs => leBytes (wrapTo 16 (s16Of x)) 2 ++ bs) []

/-- R105: a word expanded from 8 bytes of S16. -/
def expandS16 (bs : List Byte) : Word :=
  let v := ofLE bs
  wordOfSamples ((upFrom 0 4).map (fun k => ofS16 (signed (v / 2 ^ (16 * k)) 16)))

/-- R105: the 9 bytes of a word in PACK72. -/
def pack72 (v : Word) : List Byte := leBytes v.toNat 9

/-- R105: a word expanded from 9 bytes of PACK72. -/
def expand72 (bs : List Byte) : Word := BitVec.ofNat 72 (ofLE bs)

/-- R106: the bytes of a PRB at mantissa width w. -/
def bfpBytes (w : Nat) : Nat := (24 * w + 8) / 8

/-- R106: does every mantissa of a PRB fit w bits at exponent e? -/
def bfpFits (vs : List Int) (w e : Nat) : Bool := vs.all (fun v => fits w (roundShift v e))

/-- R106: the smallest exponent from e on, of the `n` still to try, at which every mantissa fits; the last one tried
otherwise. -/
def bfpExp (vs : List Int) (w e : Nat) : Nat → Nat
  | 0 => e
  | n + 1 => if bfpFits vs w e then e else bfpExp vs w (e + 1) n

/-- Values of w bits joined most significant bit first, as a number. -/
def joinBE (w : Nat) (ms : List Int) : Nat := ms.foldl (fun a m => a * 2 ^ w + wrapTo w m) 0

/-- R106: a PRB of 24 values v packed at width w: exponent and bytes. -/
def packBfp (vs : List Int) (w : Nat) : Nat × List Byte :=
  let e := bfpExp vs w 0 15
  (e, BitVec.ofNat 8 e :: beBytes (joinBE w (vs.map (fun v => roundShift v e))) (3 * w))

/-- R106: the six words of a PRB as its 24 values in S16. -/
def prbValues (ws : List Word) : List Int := (ws.foldr (fun v xs => samplesOf v ++ xs) []).map s16Of

/-- R106: a PRB packed from its six words. -/
def packPrb (ws : List Word) (w : Nat) : Nat × List Byte := packBfp (prbValues ws) w

/-- Four values at a time as words of samples. -/
def wordsOfSamples : Nat → List Int → List Word
  | 0, _ => []
  | n + 1, xs => wordOfSamples xs :: wordsOfSamples n (xs.drop 4)

/-- R106: the six words of a packed PRB. -/
def expandPrb (bs : List Byte) (w : Nat) : List Word :=
  let e := (bs.headD 0).toNat % 16
  let m := ofBE (bs.drop 1)
  wordsOfSamples 6 ((upFrom 0 24).map (fun i => 4 * satTo 16 (signed (m / 2 ^ (w * (23 - i))) w * (2 ^ e : Nat))))

end Sys2Proof.Machine
end

