-- ==== Sys2Proof/Machine/Ecc.lean ====
section
/-! DEFINITION. The (80,72) Hsiao code of R112–R116: the columns, the check byte of a data word, the syndrome of a stored
word and its class. A stored word is a number of 80 bits: data in [71:0], check byte in [79:72]. -/

namespace Sys2Proof.Machine

/-- R112: the columns of data bits 0–71: the 56 values of weight 3 and the 16 smallest of weight 5, each in ascending
order. -/
def eccColumns : List Nat := [
  0x07, 0x0B, 0x0D, 0x0E, 0x13, 0x15, 0x16, 0x19, 0x1A, 0x1C, 0x23, 0x25, 0x26, 0x29, 0x2A, 0x2C, 0x31, 0x32, 0x34, 0x38,
  0x43, 0x45, 0x46, 0x49, 0x4A, 0x4C, 0x51, 0x52, 0x54, 0x58, 0x61, 0x62, 0x64, 0x68, 0x70] ++ [
  0x83, 0x85, 0x86, 0x89, 0x8A, 0x8C, 0x91, 0x92, 0x94, 0x98, 0xA1, 0xA2, 0xA4, 0xA8, 0xB0, 0xC1, 0xC2, 0xC4, 0xC8, 0xD0,
  0xE0, 0x1F, 0x2F, 0x37, 0x3B, 0x3D, 0x3E, 0x4F, 0x57, 0x5B, 0x5D, 0x5E, 0x67, 0x6B, 0x6D, 0x6E, 0x73]

/-- The XOR of the columns of the set bits of a number. -/
def xorColumns (v : Nat) : List Nat → Nat
  | [] => 0
  | c :: cs => (if v % 2 = 1 then c else 0) ^^^ xorColumns (v / 2) cs

/-- R112: the check byte of a data word. -/
def checkOf (v : Nat) : Nat := if v = 0 then 0 else xorColumns v eccColumns

/-- A data word with its check byte. -/
def encodeWord (v : Word) : Nat := v.toNat + checkOf v.toNat * 2 ^ 72

/-- R116: a poisoned word: any data, with the check byte XORed with 0x7F. -/
def poisonWord (v : Word) : Nat := v.toNat + (checkOf v.toNat ^^^ 0x7F) * 2 ^ 72

/-- The data bits of a stored word. -/
def dataOf (raw : Nat) : Word := BitVec.ofNat 72 raw

/-- R112: the syndrome of a stored word. -/
def syndrome (raw : Nat) : Nat := checkOf (raw % 2 ^ 72) ^^^ (raw / 2 ^ 72 % 256)

/-- R114: the classes of a syndrome. -/
inductive EccClass where
  | clean
  /-- Corrected: the data to deliver. -/
  | corrected (v : Word)
  | poison
  | uncorrectable
  deriving DecidableEq, Repr

/-- The place of a value in a list. -/
def placeOf (x : Nat) : List Nat → Option Nat
  | [] => none
  | y :: ys => if x = y then some 0 else (placeOf x ys).map (· + 1)

/-- R114: the class of a stored word. A syndrome equal to a check bit's column leaves the data as stored. -/
def classify (raw : Nat) : EccClass :=
  let s := syndrome raw
  if s = 0 then .clean
  else if s = 0x7F then .poison
  else if [1, 2, 4, 8, 16, 32, 64, 128].contains s then .corrected (dataOf raw)
  else match placeOf s eccColumns with
    | some k => .corrected (dataOf (raw ^^^ 2 ^ k))
    | none => .uncorrectable

end Sys2Proof.Machine
end

