-- ==== Sys2Proof/Config.lean ====
section
/-! DEFINITION. What the manual leaves open (free values: constants with no body, applied to a plain counter of the state
or to the operands they depend on) and what the fuses and straps of one part fix. Nothing can be proved about the value
of an opaque constant. -/

namespace Sys2Proof.Config

/-- A free 64-bit value for the k-th open value a run meets (NOTES.md, Assumptions, names each use). -/
opaque freeValue : Nat → BitVec 64

/-- A free value that is a function of what it depends on: the name of the open function and its operands. -/
opaque freeFun : Nat → List Nat → Nat

end Sys2Proof.Config
end

