-- ==== Sys2Proof/Machine/RegNames.lean ====
section
/-! DEFINITION. The named fields of the register map: for each field of the manual's register tables, the PF BAR0 byte
offset of its word (R487 gives the block bases), its low bit and its width. Instance indices are the manual's, in the
order it writes them. The docstring of a field names the rule whose table lists it. -/

namespace Sys2Proof.Machine

/-- A register field: the PF BAR0 byte offset of its word, its low bit, its width. -/
structure Fld where
  off : Nat
  lo : Nat
  w : Nat
  deriving DecidableEq, Repr

namespace Reg

/-- R44. -/
def PWR_PACE_CTL_ENABLE : Fld := ⟨0x301000, 0, 1⟩
/-- R44. -/
def PWR_PACE_CTL_BOOST_EN : Fld := ⟨0x301000, 1, 1⟩
/-- R44. -/
def PWR_PACE_SLACK_SLACK_LO : Fld := ⟨0x301004, 0, 16⟩
/-- R44. -/
def PWR_PACE_SLACK_SLACK_HI : Fld := ⟨0x301004, 16, 16⟩
/-- R44. -/
def PWR_PACE_TGT_MAX_TGT_MAX : Fld := ⟨0x301008, 0, 11⟩
/-- R44. -/
def PWR_PACE_STATUS_CONVERGED : Fld := ⟨0x30100c, 0, 1⟩
/-- R44. -/
def PWR_PACE_STATUS_SHORT : Fld := ⟨0x30100c, 1, 4⟩
/-- R44. -/
def PWR_PACE_STATUS_AT_CEIL : Fld := ⟨0x30100c, 5, 4⟩
/-- R44. -/
def PWR_PACE_STATUS_MON_FAULT : Fld := ⟨0x30100c, 9, 4⟩
/-- R44. -/
def PWR_PACE_STATUS_AVS_FAULT : Fld := ⟨0x30100c, 13, 4⟩
/-- R44. -/
def PWR_PACE_RAIL_CEILING (i : Nat) : Fld := ⟨0x301010 + i * 0x20, 0, 10⟩
/-- R44. -/
def PWR_PACE_RAIL_SETPOINT (i : Nat) : Fld := ⟨0x301014 + i * 0x20, 0, 10⟩
/-- R44. -/
def PWR_PACE_RAIL_PACE_MIN (i : Nat) : Fld := ⟨0x301018 + i * 0x20, 0, 11⟩
/-- R44. -/
def PWR_PACE_RAIL_MIN_MON (i : Nat) : Fld := ⟨0x301018 + i * 0x20, 16, 6⟩
/-- R44. -/
def PWR_PACE_RAIL_TARGET (i : Nat) : Fld := ⟨0x30101c + i * 0x20, 0, 11⟩
/-- R44. -/
def PWR_PACE_RAIL_VNEED (i : Nat) : Fld := ⟨0x301020 + i * 0x20, 0, 10⟩
/-- R44. -/
def PWR_PACE_RAIL_VNEED_MAX24 (i : Nat) : Fld := ⟨0x301020 + i * 0x20, 16, 10⟩
/-- R44. -/
def PWR_PACE_RAIL_RESERVE (i : Nat) : Fld := ⟨0x301024 + i * 0x20, 0, 10⟩
/-- R44. -/
def PWR_PACE_RAIL_MSLACK (i : Nat) : Fld := ⟨0x301028 + i * 0x20, 0, 16⟩
/-- R44. -/
def PWR_PACE_MON_READING (i : Nat) : Fld := ⟨0x301100 + i * 0x4, 0, 11⟩
/-- R44. -/
def PWR_PACE_MON_FAULT (i : Nat) : Fld := ⟨0x301100 + i * 0x4, 16, 1⟩
/-- R53. -/
def JFE_CAR_CTL (i : Nat) : Fld := ⟨0x130000 + i * 0x40, 0, 32⟩
/-- R53. -/
def JFE_CAR_CFG_FUNC (i : Nat) : Fld := ⟨0x130004 + i * 0x40, 0, 6⟩
/-- R53. -/
def JFE_CAR_CFG_RAT (i : Nat) : Fld := ⟨0x130004 + i * 0x40, 8, 2⟩
/-- R53. -/
def JFE_CAR_CFG_SCS (i : Nat) : Fld := ⟨0x130004 + i * 0x40, 12, 3⟩
/-- R53. -/
def JFE_CAR_BW_KHZ (i : Nat) : Fld := ⟨0x130008 + i * 0x40, 0, 17⟩
/-- R53. -/
def JFE_CAR_NANT_DL (i : Nat) : Fld := ⟨0x13000c + i * 0x40, 0, 7⟩
/-- R53. -/
def JFE_CAR_NANT_UL (i : Nat) : Fld := ⟨0x13000c + i * 0x40, 8, 7⟩
/-- R53. -/
def JFE_CAR_LAYERS_DL (i : Nat) : Fld := ⟨0x13000c + i * 0x40, 16, 5⟩
/-- R53. -/
def JFE_CAR_LAYERS_UL (i : Nat) : Fld := ⟨0x13000c + i * 0x40, 24, 4⟩
/-- R53. -/
def JFE_CAR_CELL_ID (i : Nat) : Fld := ⟨0x130010 + i * 0x40, 0, 16⟩
/-- R53. -/
def JFE_CAR_JOBS (i : Nat) : Fld := ⟨0x130014 + i * 0x40, 0, 32⟩
/-- R53. -/
def JFE_CAR_INFLIGHT (i : Nat) : Fld := ⟨0x130018 + i * 0x40, 0, 13⟩
/-- R53. -/
def JFE_CAR_ATTN_FAULT (i : Nat) : Fld := ⟨0x13001c + i * 0x40, 0, 1⟩
/-- R53. -/
def JFE_ENVELOPE_STREAMS_DL : Fld := ⟨0x100040, 0, 10⟩
/-- R53. -/
def JFE_ENVELOPE_STREAMS_UL : Fld := ⟨0x100040, 16, 10⟩
/-- R53. -/
def JFE_ENVELOPE_AMHZ_DL : Fld := ⟨0x100044, 0, 20⟩
/-- R53. -/
def JFE_ENVELOPE_AMHZ_UL : Fld := ⟨0x100048, 0, 20⟩
/-- R83. -/
def JFE_DB_CTL : Fld := ⟨0x100000, 0, 32⟩
/-- R83. -/
def JFE_DB_CFG_MODE : Fld := ⟨0x100004, 0, 1⟩
/-- R83. -/
def JFE_DB_CFG_QMASK : Fld := ⟨0x100004, 4, 4⟩
/-- R83. -/
def JFE_DB_POLL_NS : Fld := ⟨0x100008, 0, 20⟩
/-- R83. -/
def JFE_DB_SWEEP_US : Fld := ⟨0x10000c, 0, 20⟩
/-- R83. -/
def JFE_DB_ADDR_LO : Fld := ⟨0x100010, 5, 27⟩
/-- R83. -/
def JFE_DB_ADDR_HI : Fld := ⟨0x100014, 0, 21⟩
/-- R83. -/
def JFE_SCAN_ADDR_LO : Fld := ⟨0x100018, 10, 22⟩
/-- R83. -/
def JFE_SCAN_ADDR_HI : Fld := ⟨0x10001c, 0, 21⟩
/-- R83. -/
def JFE_CFG_RO_DATA : Fld := ⟨0x100020, 0, 1⟩
/-- R83. -/
def JFE_LIMIT_MAX_INFLIGHT : Fld := ⟨0x100024, 0, 13⟩
/-- R83. -/
def JFE_STATUS_INFLIGHT : Fld := ⟨0x100028, 0, 13⟩
/-- R83. -/
def JFE_DB_POLLS : Fld := ⟨0x100030, 0, 32⟩
/-- R83. -/
def JFE_DB_ATOMIC_ERR : Fld := ⟨0x100034, 0, 32⟩
/-- R83. -/
def JFE_DB_STRAY : Fld := ⟨0x100038, 0, 32⟩
/-- R83. -/
def JFE_FN_MAX_JOBS (i : Nat) : Fld := ⟨0x100400 + i * 0x10, 0, 13⟩
/-- R83. -/
def JFE_FN_INFLIGHT (i : Nat) : Fld := ⟨0x100404 + i * 0x10, 0, 13⟩
/-- R83. -/
def JFE_SQ_CTL (i : Nat) : Fld := ⟨0x110000 + i * 0x40, 0, 32⟩
/-- R83. -/
def JFE_SQ_CFG_FUNC (i : Nat) : Fld := ⟨0x110004 + i * 0x40, 0, 6⟩
/-- R83. -/
def JFE_SQ_CFG_SECURE (i : Nat) : Fld := ⟨0x110004 + i * 0x40, 6, 1⟩
/-- R83. -/
def JFE_SQ_CFG_LOG2SIZE (i : Nat) : Fld := ⟨0x110004 + i * 0x40, 8, 5⟩
/-- R83. -/
def JFE_SQ_CFG_CQ (i : Nat) : Fld := ⟨0x110004 + i * 0x40, 16, 8⟩
/-- R83. -/
def JFE_SQ_BASE (i : Nat) : Fld := ⟨0x110008 + i * 0x40, 12, 20⟩
/-- R83. -/
def JFE_SQ_BASE_HI (i : Nat) : Fld := ⟨0x11000c + i * 0x40, 0, 21⟩
/-- R83. -/
def JFE_SQ_PI_ADDR (i : Nat) : Fld := ⟨0x110010 + i * 0x40, 2, 30⟩
/-- R83. -/
def JFE_SQ_PI_ADDR_HI (i : Nat) : Fld := ⟨0x110014 + i * 0x40, 0, 21⟩
/-- R83. -/
def JFE_SQ_CI_ADDR (i : Nat) : Fld := ⟨0x110018 + i * 0x40, 2, 30⟩
/-- R83. -/
def JFE_SQ_CI_ADDR_HI (i : Nat) : Fld := ⟨0x11001c + i * 0x40, 0, 21⟩
/-- R83. -/
def JFE_SQ_PI_SEEN (i : Nat) : Fld := ⟨0x110020 + i * 0x40, 0, 32⟩
/-- R83. -/
def JFE_SQ_CI (i : Nat) : Fld := ⟨0x110024 + i * 0x40, 0, 32⟩
/-- R83. -/
def JFE_SQ_INFLIGHT (i : Nat) : Fld := ⟨0x110028 + i * 0x40, 0, 13⟩
/-- R83. -/
def JFE_SQ_ATTN_FAULT (i : Nat) : Fld := ⟨0x11002c + i * 0x40, 0, 1⟩
/-- R83. -/
def JFE_SQ_ATTN_DB_ERR (i : Nat) : Fld := ⟨0x11002c + i * 0x40, 1, 1⟩
/-- R83. -/
def JFE_CQ_CTL (i : Nat) : Fld := ⟨0x120000 + i * 0x40, 0, 32⟩
/-- R83. -/
def JFE_CQ_CFG_FUNC (i : Nat) : Fld := ⟨0x120004 + i * 0x40, 0, 6⟩
/-- R83. -/
def JFE_CQ_CFG_LOG2SIZE (i : Nat) : Fld := ⟨0x120004 + i * 0x40, 8, 5⟩
/-- R83. -/
def JFE_CQ_BASE (i : Nat) : Fld := ⟨0x120008 + i * 0x40, 12, 20⟩
/-- R83. -/
def JFE_CQ_BASE_HI (i : Nat) : Fld := ⟨0x12000c + i * 0x40, 0, 21⟩
/-- R83. -/
def JFE_CQ_CI_ADDR (i : Nat) : Fld := ⟨0x120010 + i * 0x40, 2, 30⟩
/-- R83. -/
def JFE_CQ_CI_ADDR_HI (i : Nat) : Fld := ⟨0x120014 + i * 0x40, 0, 21⟩
/-- R83. -/
def JFE_CQ_PI (i : Nat) : Fld := ⟨0x120018 + i * 0x40, 0, 32⟩
/-- R83. -/
def JFE_CQ_CI_SEEN (i : Nat) : Fld := ⟨0x12001c + i * 0x40, 0, 32⟩
/-- R83. -/
def JFE_CQ_STALLS (i : Nat) : Fld := ⟨0x120020 + i * 0x40, 0, 32⟩
/-- R83. -/
def JFE_CQ_ATTN_FAULT (i : Nat) : Fld := ⟨0x12002c + i * 0x40, 0, 1⟩
/-- R96. -/
def HBM_STATUS_READY : Fld := ⟨0xa00000, 0, 2⟩
/-- R96. -/
def HBM_STATUS_SELF_REFRESH : Fld := ⟨0xa00000, 2, 2⟩
/-- R96. -/
def HBM_STATUS_REFRESH_2X : Fld := ⟨0xa00000, 4, 2⟩
/-- R96. -/
def HBM_STATUS_SECURE_KEY : Fld := ⟨0xa00000, 6, 1⟩
/-- R96. -/
def HBM_STACK_STATE (i : Nat) : Fld := ⟨0xa01000 + i * 0x1000, 0, 3⟩
/-- R96. -/
def HBM_STACK_TRAIN_MS (i : Nat) : Fld := ⟨0xa01004 + i * 0x1000, 0, 16⟩
/-- R96. -/
def HBM_STACK_TRAININGS (i : Nat) : Fld := ⟨0xa01008 + i * 0x1000, 0, 32⟩
/-- R96. -/
def HBM_STACK_REPAIRS (i : Nat) : Fld := ⟨0xa0100c + i * 0x1000, 0, 16⟩
/-- R96. -/
def HBM_STACK_ATTN_TRAIN_FAIL (i : Nat) : Fld := ⟨0xa01010 + i * 0x1000, 0, 1⟩
/-- R96. -/
def HBM_STACK_ATTN_REPAIR (i : Nat) : Fld := ⟨0xa01010 + i * 0x1000, 1, 1⟩
/-- R96. -/
def HBM_STACK_ATTN_ONDIE (i : Nat) : Fld := ⟨0xa01010 + i * 0x1000, 2, 1⟩
/-- R96. -/
def HBM_STACK_PC_READ_GROUPS (i j : Nat) : Fld := ⟨0xa01100 + i * 0x1000 + j * 0x20, 0, 32⟩
/-- R96. -/
def HBM_STACK_PC_WRITE_GROUPS (i j : Nat) : Fld := ⟨0xa01104 + i * 0x1000 + j * 0x20, 0, 32⟩
/-- R96. -/
def HBM_STACK_PC_MERGES (i j : Nat) : Fld := ⟨0xa01108 + i * 0x1000 + j * 0x20, 0, 32⟩
/-- R96. -/
def HBM_STACK_PC_ONDIE_CORR (i j : Nat) : Fld := ⟨0xa0110c + i * 0x1000 + j * 0x20, 0, 16⟩
/-- R96. -/
def HBM_STACK_PC_REPAIRS_LEFT (i j : Nat) : Fld := ⟨0xa01110 + i * 0x1000 + j * 0x20, 0, 8⟩
/-- R98. -/
def GLB_MEMWIN_PAGE : Fld := ⟨0x100, 0, 31⟩
/-- R98. -/
def GLB_MEMWIN_BUSY : Fld := ⟨0x104, 0, 1⟩
/-- R110. -/
def DMV_ACTIVE_LO : Fld := ⟨0x1200000, 0, 32⟩
/-- R110. -/
def DMV_ACTIVE_HI : Fld := ⟨0x1200004, 0, 32⟩
/-- R110. -/
def DMV_HALTED_LO : Fld := ⟨0x1200008, 0, 32⟩
/-- R110. -/
def DMV_HALTED_HI : Fld := ⟨0x120000c, 0, 32⟩
/-- R110. -/
def DMV_CH_CTL (i : Nat) : Fld := ⟨0x1201000 + i * 0x40, 0, 32⟩
/-- R110. -/
def DMV_CH_CFG_FUNC (i : Nat) : Fld := ⟨0x1201004 + i * 0x40, 0, 6⟩
/-- R110. -/
def DMV_CH_CFG_SECURE (i : Nat) : Fld := ⟨0x1201004 + i * 0x40, 6, 1⟩
/-- R110. -/
def DMV_CH_QUEUED (i : Nat) : Fld := ⟨0x1201008 + i * 0x40, 0, 7⟩
/-- R110. -/
def DMV_CH_JOBS (i : Nat) : Fld := ⟨0x120100c + i * 0x40, 0, 32⟩
/-- R110. -/
def DMV_CH_HALT_ADDR_LO (i : Nat) : Fld := ⟨0x1201010 + i * 0x40, 0, 32⟩
/-- R110. -/
def DMV_CH_HALT_ADDR_HI (i : Nat) : Fld := ⟨0x1201014 + i * 0x40, 0, 24⟩
/-- R110. -/
def DMV_CH_HALT_TAG (i : Nat) : Fld := ⟨0x1201018 + i * 0x40, 0, 16⟩
/-- R110. -/
def DMV_CH_HALT_SQ (i : Nat) : Fld := ⟨0x1201018 + i * 0x40, 16, 8⟩
/-- R110. -/
def DMV_CH_WORDS (i : Nat) : Fld := ⟨0x120101c + i * 0x40, 0, 32⟩
/-- R110. -/
def DMV_CH_ATTN_FAULT (i : Nat) : Fld := ⟨0x1201020 + i * 0x40, 0, 1⟩
/-- R110. -/
def DMV_CH_ATTN_POISON (i : Nat) : Fld := ⟨0x1201020 + i * 0x40, 1, 1⟩
/-- R131. -/
def MEM_SCRUB_CFG_ONCHIP_H : Fld := ⟨0x900000, 0, 5⟩
/-- R131. -/
def MEM_SCRUB_CFG_HBM_H : Fld := ⟨0x900000, 8, 8⟩
/-- R131. -/
def MEM_SCRUB_STATUS_ONCHIP_PASSES : Fld := ⟨0x900004, 0, 16⟩
/-- R131. -/
def MEM_SCRUB_STATUS_HBM_PASSES : Fld := ⟨0x900004, 16, 16⟩
/-- R131. -/
def MEM_CORR_THRESH : Fld := ⟨0x900008, 0, 16⟩
/-- R131. -/
def MEM_SELFTEST_DONE : Fld := ⟨0x90000c, 0, 1⟩
/-- R131. -/
def MEM_SELFTEST_FAIL : Fld := ⟨0x90000c, 1, 1⟩
/-- R131. -/
def MEM_TOTAL_CORR : Fld := ⟨0x900010, 0, 32⟩
/-- R131. -/
def MEM_TOTAL_UNCORR : Fld := ⟨0x900014, 0, 32⟩
/-- R131. -/
def MEM_XPORT_CORR : Fld := ⟨0x900018, 0, 32⟩
/-- R131. -/
def MEM_XPORT_UNCORR : Fld := ⟨0x90001c, 0, 32⟩
/-- R131. -/
def MEM_ATTN_UNCORR : Fld := ⟨0x900020, 0, 1⟩
/-- R131. -/
def MEM_ATTN_WRITE_DROP : Fld := ⟨0x900020, 1, 1⟩
/-- R131. -/
def MEM_ATTN_HARD : Fld := ⟨0x900020, 2, 1⟩
/-- R131. -/
def MEM_ATTN_OVERFLOW : Fld := ⟨0x900020, 3, 1⟩
/-- R131. -/
def MEM_ATTN_XPORT : Fld := ⟨0x900020, 4, 1⟩
/-- R131. -/
def MEM_ATTN_LOG_WRAP : Fld := ⟨0x900020, 5, 1⟩
/-- R131. -/
def MEM_ULOG_HEAD : Fld := ⟨0x900024, 0, 4⟩
/-- R131. -/
def MEM_INJECT_ADDR_LO : Fld := ⟨0x900080, 0, 32⟩
/-- R131. -/
def MEM_INJECT_ADDR_HI : Fld := ⟨0x900084, 0, 24⟩
/-- R131. -/
def MEM_INJECT_MODE : Fld := ⟨0x900088, 0, 2⟩
/-- R131. -/
def MEM_INJECT_BIT_A : Fld := ⟨0x900088, 8, 7⟩
/-- R131. -/
def MEM_INJECT_BIT_B : Fld := ⟨0x900088, 16, 7⟩
/-- R131. -/
def MEM_INJECT_ARM : Fld := ⟨0x90008c, 0, 1⟩
/-- R131. -/
def MEM_INJECT_ARMED : Fld := ⟨0x90008c, 1, 1⟩
/-- R131. -/
def MEM_ULOG_ADDR_LO (i : Nat) : Fld := ⟨0x900100 + i * 0x20, 0, 32⟩
/-- R131. -/
def MEM_ULOG_ADDR_HI (i : Nat) : Fld := ⟨0x900104 + i * 0x20, 0, 24⟩
/-- R131. -/
def MEM_ULOG_CTRL (i : Nat) : Fld := ⟨0x900108 + i * 0x20, 0, 8⟩
/-- R131. -/
def MEM_ULOG_SYND (i : Nat) : Fld := ⟨0x900108 + i * 0x20, 8, 8⟩
/-- R131. -/
def MEM_ULOG_READER (i : Nat) : Fld := ⟨0x900108 + i * 0x20, 16, 4⟩
/-- R131. -/
def MEM_ULOG_SECURE (i : Nat) : Fld := ⟨0x900108 + i * 0x20, 24, 1⟩
/-- R131. -/
def MEM_ULOG_VALID (i : Nat) : Fld := ⟨0x900108 + i * 0x20, 31, 1⟩
/-- R131. -/
def MEM_ULOG_TIME (i : Nat) : Fld := ⟨0x90010c + i * 0x20, 0, 32⟩
/-- R131. -/
def MEM_ULOG_TIME_HI (i : Nat) : Fld := ⟨0x900110 + i * 0x20, 0, 32⟩
/-- R131. -/
def MEM_CTRL_CORR (i : Nat) : Fld := ⟨0x901000 + i * 0x40, 0, 32⟩
/-- R131. -/
def MEM_CTRL_CORR_HOUR (i : Nat) : Fld := ⟨0x901004 + i * 0x40, 0, 16⟩
/-- R131. -/
def MEM_CTRL_UNCORR (i : Nat) : Fld := ⟨0x901008 + i * 0x40, 0, 16⟩
/-- R131. -/
def MEM_CTRL_POISON_SEEN (i : Nat) : Fld := ⟨0x90100c + i * 0x40, 0, 16⟩
/-- R131. -/
def MEM_CTRL_TRK_USED (i : Nat) : Fld := ⟨0x901010 + i * 0x40, 0, 7⟩
/-- R131. -/
def MEM_CTRL_HARD (i : Nat) : Fld := ⟨0x901014 + i * 0x40, 0, 16⟩
/-- R131. -/
def MEM_CTRL_SPARES_LEFT (i : Nat) : Fld := ⟨0x901018 + i * 0x40, 0, 8⟩
/-- R131. -/
def MEM_CTRL_STATE (i : Nat) : Fld := ⟨0x90101c + i * 0x40, 0, 2⟩
/-- R170. -/
def ERG_CORE_CFG_WORLD (i j : Nat) : Fld := ⟨0xc00100 + i * 0x10000 + j * 0x80, 0, 1⟩
/-- R170. -/
def ERG_CORE_CFG_CX_EN (i j : Nat) : Fld := ⟨0xc00100 + i * 0x10000 + j * 0x80, 1, 3⟩
/-- R170. -/
def ERG_CORE_CFG_OFFLINE (i j : Nat) : Fld := ⟨0xc00100 + i * 0x10000 + j * 0x80, 4, 1⟩
/-- R170. -/
def ERG_CORE_TVEC (i j : Nat) : Fld := ⟨0xc00104 + i * 0x10000 + j * 0x80, 0, 13⟩
/-- R170. -/
def ERG_CORE_STATUS_STATE (i j : Nat) : Fld := ⟨0xc00108 + i * 0x10000 + j * 0x80, 0, 2⟩
/-- R170. -/
def ERG_CORE_STATUS_OUT_OF_SERVICE (i j : Nat) : Fld := ⟨0xc00108 + i * 0x10000 + j * 0x80, 2, 1⟩
/-- R170. -/
def ERG_CORE_STATUS_LAST_CAUSE (i j : Nat) : Fld := ⟨0xc00108 + i * 0x10000 + j * 0x80, 8, 8⟩
/-- R170. -/
def ERG_CORE_PC (i j : Nat) : Fld := ⟨0xc0010c + i * 0x10000 + j * 0x80, 0, 13⟩
/-- R170. -/
def ERG_CORE_TASK_ENTRY (i j : Nat) : Fld := ⟨0xc00110 + i * 0x10000 + j * 0x80, 0, 12⟩
/-- R170. -/
def ERG_CORE_TASK_VALID (i j : Nat) : Fld := ⟨0xc00110 + i * 0x10000 + j * 0x80, 31, 1⟩
/-- R170. -/
def ERG_CORE_BUNDLES (i j : Nat) : Fld := ⟨0xc00114 + i * 0x10000 + j * 0x80, 0, 32⟩
/-- R170. -/
def ERG_CORE_STALLS (i j : Nat) : Fld := ⟨0xc00118 + i * 0x10000 + j * 0x80, 0, 32⟩
/-- R170. -/
def ERG_CORE_SQUASHED (i j : Nat) : Fld := ⟨0xc0011c + i * 0x10000 + j * 0x80, 0, 32⟩
/-- R170. -/
def ERG_CORE_TRAPS (i j : Nat) : Fld := ⟨0xc00120 + i * 0x10000 + j * 0x80, 0, 16⟩
/-- R170. -/
def ERG_CORE_HALT_PC (i j : Nat) : Fld := ⟨0xc00124 + i * 0x10000 + j * 0x80, 0, 13⟩
/-- R170. -/
def ERG_CORE_HALT_CAUSE (i j : Nat) : Fld := ⟨0xc00124 + i * 0x10000 + j * 0x80, 16, 8⟩
/-- R170. -/
def ERG_CORE_ATTN_HALT (i j : Nat) : Fld := ⟨0xc00128 + i * 0x10000 + j * 0x80, 0, 1⟩
/-- R170. -/
def ERG_CORE_ATTN_STORE_FAULT (i j : Nat) : Fld := ⟨0xc00128 + i * 0x10000 + j * 0x80, 1, 1⟩
/-- R215. -/
def ERG_CX_STATUS_SB (i j : Nat) : Fld := ⟨0xc00500 + i * 0x10000 + j * 0x40, 0, 8⟩
/-- R215. -/
def ERG_CX_STATUS_LOCKED (i j : Nat) : Fld := ⟨0xc00500 + i * 0x10000 + j * 0x40, 8, 1⟩
/-- R215. -/
def ERG_CX_STATUS_COMPUTING (i j : Nat) : Fld := ⟨0xc00500 + i * 0x10000 + j * 0x40, 9, 1⟩
/-- R215. -/
def ERG_CX_STATUS_STAGED (i j : Nat) : Fld := ⟨0xc00500 + i * 0x10000 + j * 0x40, 16, 11⟩
/-- R215. -/
def ERG_CX_OPS (i j : Nat) : Fld := ⟨0xc00504 + i * 0x10000 + j * 0x40, 0, 32⟩
/-- R215. -/
def ERG_CX_STEPS (i j : Nat) : Fld := ⟨0xc00508 + i * 0x10000 + j * 0x40, 0, 32⟩
/-- R215. -/
def ERG_CX_DISCARDED (i j : Nat) : Fld := ⟨0xc0050c + i * 0x10000 + j * 0x40, 0, 32⟩
/-- R215. -/
def ERG_CX_LATE (i j : Nat) : Fld := ⟨0xc00510 + i * 0x10000 + j * 0x40, 0, 16⟩
/-- R215. -/
def ERG_CX_LAST_LATE_CODE (i j : Nat) : Fld := ⟨0xc00514 + i * 0x10000 + j * 0x40, 0, 8⟩
/-- R215. -/
def ERG_CX_LAST_LATE_TAG (i j : Nat) : Fld := ⟨0xc00514 + i * 0x10000 + j * 0x40, 8, 3⟩
/-- R215. -/
def ERG_CX_LAST_LATE_FN (i j : Nat) : Fld := ⟨0xc00514 + i * 0x10000 + j * 0x40, 16, 8⟩
/-- R215. -/
def ERG_CX_LAST_LATE_ADDR_LO (i j : Nat) : Fld := ⟨0xc00518 + i * 0x10000 + j * 0x40, 0, 32⟩
/-- R215. -/
def ERG_CX_LAST_LATE_ADDR_HI (i j : Nat) : Fld := ⟨0xc0051c + i * 0x10000 + j * 0x40, 0, 24⟩
/-- R215. -/
def ERG_CX_ATTN_LATE (i j : Nat) : Fld := ⟨0xc00520 + i * 0x10000 + j * 0x40, 0, 1⟩
/-- R233. -/
def TSU_CFG_HOLD_NS : Fld := ⟨0xb00000, 0, 16⟩
/-- R233. -/
def TSU_TICK_NS : Fld := ⟨0xb00004, 0, 20⟩
/-- R233. -/
def TSU_ABORT_TIMEOUT_US : Fld := ⟨0xb00008, 0, 10⟩
/-- R233. -/
def TSU_THROTTLE_MIN_PRIO : Fld := ⟨0xb0000c, 0, 6⟩
/-- R233. -/
def TSU_STANDBY_ERG : Fld := ⟨0xb00010, 0, 4⟩
/-- R233. -/
def TSU_STANDBY_AUTO : Fld := ⟨0xb00010, 8, 1⟩
/-- R233. -/
def TSU_RETIRE_ERG : Fld := ⟨0xb00014, 0, 4⟩
/-- R233. -/
def TSU_RETIRE_ABORT : Fld := ⟨0xb00014, 4, 1⟩
/-- R233. -/
def TSU_RETIRE_GO : Fld := ⟨0xb00014, 5, 1⟩
/-- R233. -/
def TSU_STATUS_FREE : Fld := ⟨0xb00018, 0, 13⟩
/-- R233. -/
def TSU_STATUS_RETIRED : Fld := ⟨0xb00018, 16, 13⟩
/-- R233. -/
def TSU_STATUS_RETIRING : Fld := ⟨0xb00018, 29, 1⟩
/-- R233. -/
def TSU_LOW_THRESH : Fld := ⟨0xb0001c, 0, 13⟩
/-- R233. -/
def TSU_ATTN_RETIRED : Fld := ⟨0xb00020, 0, 1⟩
/-- R233. -/
def TSU_ATTN_STANDBY_TAKEN : Fld := ⟨0xb00020, 1, 1⟩
/-- R233. -/
def TSU_ATTN_ABORT_FORCED : Fld := ⟨0xb00020, 2, 1⟩
/-- R233. -/
def TSU_ATTN_OVERRUN : Fld := ⟨0xb00020, 3, 1⟩
/-- R233. -/
def TSU_ATTN_RES_STATUS : Fld := ⟨0xb00020, 4, 1⟩
/-- R233. -/
def TSU_DISPATCHES : Fld := ⟨0xb00024, 0, 32⟩
/-- R233. -/
def TSU_STRAY_WAKES : Fld := ⟨0xb00028, 0, 32⟩
/-- R233. -/
def TSU_SHELF_COUNT (i : Nat) : Fld := ⟨0xb00100 + i * 0x4, 0, 13⟩
/-- R233. -/
def TSU_CARAVAN_COUNT (i : Nat) : Fld := ⟨0xb00200 + i * 0x10, 0, 13⟩
/-- R233. -/
def TSU_CARAVAN_HEAD_TIME (i : Nat) : Fld := ⟨0xb00208 + i * 0x10, 0, 32⟩
/-- R233. -/
def TSU_CARAVAN_HEAD_TIME_HI (i : Nat) : Fld := ⟨0xb0020c + i * 0x10, 0, 32⟩
/-- R233. -/
def TSU_PEEK_ENTRY : Fld := ⟨0xb01000, 0, 12⟩
/-- R233. -/
def TSU_PEEK_STATE : Fld := ⟨0xb01004, 0, 3⟩
/-- R233. -/
def TSU_PEEK_PRIORITY : Fld := ⟨0xb01004, 8, 6⟩
/-- R233. -/
def TSU_PEEK_RESIDENT : Fld := ⟨0xb01004, 14, 1⟩
/-- R233. -/
def TSU_PEEK_WORLD : Fld := ⟨0xb01004, 15, 1⟩
/-- R233. -/
def TSU_PEEK_FUNC : Fld := ⟨0xb01004, 16, 6⟩
/-- R233. -/
def TSU_PEEK_PENDING_WAKE : Fld := ⟨0xb01004, 22, 1⟩
/-- R233. -/
def TSU_PEEK_GEN : Fld := ⟨0xb01008, 0, 16⟩
/-- R233. -/
def TSU_PEEK_LAST_CORE : Fld := ⟨0xb01008, 16, 7⟩
/-- R233. -/
def TSU_PEEK_LAST_STATUS : Fld := ⟨0xb0100c, 0, 8⟩
/-- R233. -/
def TSU_PEEK_RUNS : Fld := ⟨0xb0100c, 16, 16⟩
/-- R234. -/
def ERG_CTL (i : Nat) : Fld := ⟨0xc00000 + i * 0x10000, 0, 32⟩
/-- R234. -/
def ERG_CFG_ALIAS (i : Nat) : Fld := ⟨0xc00004 + i * 0x10000, 0, 4⟩
/-- R234. -/
def ERG_STATUS_IDLE (i : Nat) : Fld := ⟨0xc00008 + i * 0x10000, 0, 8⟩
/-- R234. -/
def ERG_STATUS_HALTED (i : Nat) : Fld := ⟨0xc00008 + i * 0x10000, 8, 8⟩
/-- R234. -/
def ERG_STATUS_STANDBY (i : Nat) : Fld := ⟨0xc00008 + i * 0x10000, 16, 1⟩
/-- R234. -/
def ERG_STATUS_RETIRED (i : Nat) : Fld := ⟨0xc00008 + i * 0x10000, 17, 1⟩
/-- R234. -/
def ERG_STATUS_SELFTEST_FAIL (i : Nat) : Fld := ⟨0xc00008 + i * 0x10000, 18, 1⟩
/-- R234. -/
def ERG_ATTN_FAULT (i : Nat) : Fld := ⟨0xc0000c + i * 0x10000, 0, 1⟩
/-- R234. -/
def ERG_ATTN_RETIRED (i : Nat) : Fld := ⟨0xc0000c + i * 0x10000, 1, 1⟩
/-- R261. -/
def MXE_ACTIVE : Fld := ⟨0xe00000, 0, 4⟩
/-- R261. -/
def MXE_CTL (i : Nat) : Fld := ⟨0xe01000 + i * 0x40, 0, 32⟩
/-- R261. -/
def MXE_QUEUED (i : Nat) : Fld := ⟨0xe01004 + i * 0x40, 0, 7⟩
/-- R261. -/
def MXE_JOBS (i : Nat) : Fld := ⟨0xe01008 + i * 0x40, 0, 32⟩
/-- R261. -/
def MXE_STEPS (i : Nat) : Fld := ⟨0xe0100c + i * 0x40, 0, 32⟩
/-- R261. -/
def MXE_INSTANCES (i : Nat) : Fld := ⟨0xe01010 + i * 0x40, 0, 32⟩
/-- R261. -/
def MXE_NUMERIC (i : Nat) : Fld := ⟨0xe01014 + i * 0x40, 0, 16⟩
/-- R261. -/
def MXE_ATTN_FAULT (i : Nat) : Fld := ⟨0xe01018 + i * 0x40, 0, 1⟩
/-- R261. -/
def MXE_ATTN_POISON (i : Nat) : Fld := ⟨0xe01018 + i * 0x40, 1, 1⟩
/-- R261. -/
def MXE_ATTN_NUMERIC (i : Nat) : Fld := ⟨0xe01018 + i * 0x40, 2, 1⟩
/-- R262. -/
def XFM_ACTIVE : Fld := ⟨0xe40000, 0, 32⟩
/-- R262. -/
def XFM_CTL (i : Nat) : Fld := ⟨0xe41000 + i * 0x40, 0, 32⟩
/-- R262. -/
def XFM_QUEUED (i : Nat) : Fld := ⟨0xe41004 + i * 0x40, 0, 7⟩
/-- R262. -/
def XFM_JOBS (i : Nat) : Fld := ⟨0xe41008 + i * 0x40, 0, 32⟩
/-- R262. -/
def XFM_STEPS (i : Nat) : Fld := ⟨0xe4100c + i * 0x40, 0, 32⟩
/-- R262. -/
def XFM_SYMBOLS (i : Nat) : Fld := ⟨0xe41010 + i * 0x40, 0, 32⟩
/-- R262. -/
def XFM_SAT (i : Nat) : Fld := ⟨0xe41014 + i * 0x40, 0, 32⟩
/-- R262. -/
def XFM_ATTN_FAULT (i : Nat) : Fld := ⟨0xe41018 + i * 0x40, 0, 1⟩
/-- R262. -/
def XFM_ATTN_POISON (i : Nat) : Fld := ⟨0xe41018 + i * 0x40, 1, 1⟩
/-- R262. -/
def XFM_ATTN_NUMERIC (i : Nat) : Fld := ⟨0xe41018 + i * 0x40, 2, 1⟩
/-- R284. -/
def CODE_CTL : Fld := ⟨0xe80000, 0, 32⟩
/-- R284. -/
def CODE_QUEUED : Fld := ⟨0xe80004, 0, 9⟩
/-- R284. -/
def CODE_BUSY_LDEC : Fld := ⟨0xe80008, 0, 16⟩
/-- R284. -/
def CODE_BUSY_LENC : Fld := ⟨0xe80008, 16, 4⟩
/-- R284. -/
def CODE_BUSY_POLAR : Fld := ⟨0xe80008, 20, 4⟩
/-- R284. -/
def CODE_BUSY_TBCC : Fld := ⟨0xe80008, 24, 4⟩
/-- R284. -/
def CODE_BUSY_TURBO : Fld := ⟨0xe8000c, 0, 8⟩
/-- R284. -/
def CODE_JOBS : Fld := ⟨0xe80010, 0, 32⟩
/-- R284. -/
def CODE_CB_DECODED : Fld := ⟨0xe80014, 0, 32⟩
/-- R284. -/
def CODE_CB_FAILED : Fld := ⟨0xe80018, 0, 32⟩
/-- R284. -/
def CODE_ITERATIONS : Fld := ⟨0xe8001c, 0, 32⟩
/-- R284. -/
def CODE_MISMATCH : Fld := ⟨0xe80020, 0, 16⟩
/-- R284. -/
def CODE_ATTN_FAULT : Fld := ⟨0xe80024, 0, 1⟩
/-- R284. -/
def CODE_ATTN_POISON : Fld := ⟨0xe80024, 1, 1⟩
/-- R284. -/
def CODE_ATTN_MISMATCH : Fld := ⟨0xe80024, 2, 1⟩
/-- R317. -/
def BRX_CTL (i : Nat) : Fld := ⟨0xec0000 + i * 0x4000, 0, 32⟩
/-- R317. -/
def BRX_CFG_FUNC (i : Nat) : Fld := ⟨0xec0004 + i * 0x4000, 0, 6⟩
/-- R317. -/
def BRX_CFG_SECURE (i : Nat) : Fld := ⟨0xec0004 + i * 0x4000, 6, 1⟩
/-- R317. -/
def BRX_CFG_REP_LOG2 (i : Nat) : Fld := ⟨0xec0004 + i * 0x4000, 8, 5⟩
/-- R317. -/
def BRX_REP_BASE (i : Nat) : Fld := ⟨0xec0008 + i * 0x4000, 12, 20⟩
/-- R317. -/
def BRX_REP_BASE_HI (i : Nat) : Fld := ⟨0xec000c + i * 0x4000, 0, 24⟩
/-- R317. -/
def BRX_REP_CI_ADDR (i : Nat) : Fld := ⟨0xec0010 + i * 0x4000, 2, 30⟩
/-- R317. -/
def BRX_REP_CI_ADDR_HI (i : Nat) : Fld := ⟨0xec0014 + i * 0x4000, 0, 24⟩
/-- R317. -/
def BRX_CAP_BASE (i : Nat) : Fld := ⟨0xec0018 + i * 0x4000, 3, 29⟩
/-- R317. -/
def BRX_CAP_BASE_HI (i : Nat) : Fld := ⟨0xec001c + i * 0x4000, 0, 24⟩
/-- R317. -/
def BRX_CAP_STRIDE (i : Nat) : Fld := ⟨0xec0020 + i * 0x4000, 0, 24⟩
/-- R317. -/
def BRX_PREEMPT_MARGIN (i : Nat) : Fld := ⟨0xec0024 + i * 0x4000, 0, 10⟩
/-- R317. -/
def BRX_COLD_FLOOR (i : Nat) : Fld := ⟨0xec0028 + i * 0x4000, 0, 16⟩
/-- R317. -/
def BRX_HOLD_US (i : Nat) : Fld := ⟨0xec002c + i * 0x4000, 0, 16⟩
/-- R317. -/
def BRX_REP_PI (i : Nat) : Fld := ⟨0xec0030 + i * 0x4000, 0, 32⟩
/-- R317. -/
def BRX_REP_CI_SEEN (i : Nat) : Fld := ⟨0xec0034 + i * 0x4000, 0, 32⟩
/-- R317. -/
def BRX_REPORTS_LOST (i : Nat) : Fld := ⟨0xec0038 + i * 0x4000, 0, 32⟩
/-- R317. -/
def BRX_DETECTIONS (i : Nat) : Fld := ⟨0xec003c + i * 0x4000, 0, 32⟩
/-- R317. -/
def BRX_NO_CONTEXT (i : Nat) : Fld := ⟨0xec0040 + i * 0x4000, 0, 32⟩
/-- R317. -/
def BRX_PREEMPTED (i : Nat) : Fld := ⟨0xec0044 + i * 0x4000, 0, 32⟩
/-- R317. -/
def BRX_FALSE (i : Nat) : Fld := ⟨0xec0048 + i * 0x4000, 0, 32⟩
/-- R317. -/
def BRX_STALE (i : Nat) : Fld := ⟨0xec004c + i * 0x4000, 0, 16⟩
/-- R317. -/
def BRX_DROPPED (i : Nat) : Fld := ⟨0xec004c + i * 0x4000, 16, 16⟩
/-- R317. -/
def BRX_CTX_ACTIVE_LO (i : Nat) : Fld := ⟨0xec0050 + i * 0x4000, 0, 32⟩
/-- R317. -/
def BRX_CTX_ACTIVE_HI (i : Nat) : Fld := ⟨0xec0054 + i * 0x4000, 0, 32⟩
/-- R317. -/
def BRX_ATTN (i : Nat) : Fld := ⟨0xec0058 + i * 0x4000, 0, 4⟩
/-- R317. -/
def BRX_SLOT_CARRIER (i j : Nat) : Fld := ⟨0xec0400 + i * 0x4000 + j * 0x20, 0, 9⟩
/-- R317. -/
def BRX_SLOT_ENABLE (i j : Nat) : Fld := ⟨0xec0400 + i * 0x4000 + j * 0x20, 12, 1⟩
/-- R317. -/
def BRX_SLOT_INPUT (i j : Nat) : Fld := ⟨0xec0400 + i * 0x4000 + j * 0x20, 13, 1⟩
/-- R317. -/
def BRX_SLOT_FIRST_STREAM (i j : Nat) : Fld := ⟨0xec0404 + i * 0x4000 + j * 0x20, 0, 6⟩
/-- R317. -/
def BRX_SLOT_NANT (i j : Nat) : Fld := ⟨0xec0404 + i * 0x4000 + j * 0x20, 8, 7⟩
/-- R317. -/
def BRX_SLOT_CHAIN0 (i j : Nat) : Fld := ⟨0xec0408 + i * 0x4000 + j * 0x20, 0, 7⟩
/-- R317. -/
def BRX_SLOT_CAR (i j : Nat) : Fld := ⟨0xec0408 + i * 0x4000 + j * 0x20, 8, 2⟩
/-- R317. -/
def BRX_SLOT_GRID_SCS (i j : Nat) : Fld := ⟨0xec040c + i * 0x4000 + j * 0x20, 0, 4⟩
/-- R317. -/
def BRX_SLOT_GRID_NPRB (i j : Nat) : Fld := ⟨0xec040c + i * 0x4000 + j * 0x20, 16, 9⟩
/-- R317. -/
def BRX_SLOT_FLOOR (i j : Nat) : Fld := ⟨0xec0410 + i * 0x4000 + j * 0x20, 0, 16⟩
/-- R317. -/
def BRX_SLOT_VALID (i j : Nat) : Fld := ⟨0xec0410 + i * 0x4000 + j * 0x20, 31, 1⟩
/-- R317. -/
def BRX_CTX_STATE (i j : Nat) : Fld := ⟨0xec0800 + i * 0x4000 + j * 0x10, 0, 2⟩
/-- R317. -/
def BRX_CTX_SLOT (i j : Nat) : Fld := ⟨0xec0800 + i * 0x4000 + j * 0x10, 8, 5⟩
/-- R317. -/
def BRX_CTX_FMT (i j : Nat) : Fld := ⟨0xec0800 + i * 0x4000 + j * 0x10, 16, 3⟩
/-- R317. -/
def BRX_CTX_SEQ (i j : Nat) : Fld := ⟨0xec0800 + i * 0x4000 + j * 0x10, 24, 6⟩
/-- R317. -/
def BRX_CTX_GEN (i j : Nat) : Fld := ⟨0xec0804 + i * 0x4000 + j * 0x10, 0, 16⟩
/-- R317. -/
def BRX_CTX_METRIC (i j : Nat) : Fld := ⟨0xec0804 + i * 0x4000 + j * 0x10, 16, 16⟩
/-- R317. -/
def BRX_CTX_OPEN_TIME (i j : Nat) : Fld := ⟨0xec0808 + i * 0x4000 + j * 0x10, 0, 32⟩
/-- R317. -/
def BRX_CTX_OPEN_TIME_HI (i j : Nat) : Fld := ⟨0xec080c + i * 0x4000 + j * 0x10, 0, 32⟩
/-- R317. -/
def BRX_NF_LEVEL (i j : Nat) : Fld := ⟨0xec0c00 + i * 0x4000 + j * 0x4, 0, 16⟩
/-- R317. -/
def BRX_NF_COUNT (i j : Nat) : Fld := ⟨0xec0c00 + i * 0x4000 + j * 0x4, 16, 7⟩
/-- R317. -/
def BRX_NF_VALID (i j : Nat) : Fld := ⟨0xec0c00 + i * 0x4000 + j * 0x4, 31, 1⟩
/-- R317. -/
def BRX_FMT_ENABLE (i j : Nat) : Fld := ⟨0xec1000 + i * 0x4000 + j * 0x40, 0, 1⟩
/-- R317. -/
def BRX_FMT_KIND (i j : Nat) : Fld := ⟨0xec1000 + i * 0x4000 + j * 0x40, 1, 3⟩
/-- R317. -/
def BRX_FMT_FORMAT (i j : Nat) : Fld := ⟨0xec1000 + i * 0x4000 + j * 0x40, 4, 4⟩
/-- R317. -/
def BRX_FMT_SCS (i j : Nat) : Fld := ⟨0xec1000 + i * 0x4000 + j * 0x40, 8, 4⟩
/-- R317. -/
def BRX_FMT_RESTRICTED (i j : Nat) : Fld := ⟨0xec1000 + i * 0x4000 + j * 0x40, 12, 2⟩
/-- R317. -/
def BRX_FMT_PAYLOAD (i j : Nat) : Fld := ⟨0xec1000 + i * 0x4000 + j * 0x40, 14, 1⟩
/-- R317. -/
def BRX_FMT_FDM (i j : Nat) : Fld := ⟨0xec1000 + i * 0x4000 + j * 0x40, 16, 2⟩
/-- R317. -/
def BRX_FMT_ROOT (i j : Nat) : Fld := ⟨0xec1004 + i * 0x4000 + j * 0x40, 0, 11⟩
/-- R317. -/
def BRX_FMT_NCS (i j : Nat) : Fld := ⟨0xec1004 + i * 0x4000 + j * 0x40, 16, 12⟩
/-- R317. -/
def BRX_FMT_NPRE (i j : Nat) : Fld := ⟨0xec1008 + i * 0x4000 + j * 0x40, 0, 7⟩
/-- R317. -/
def BRX_FMT_FREQ_START (i j : Nat) : Fld := ⟨0xec1008 + i * 0x4000 + j * 0x40, 16, 9⟩
/-- R317. -/
def BRX_FMT_REP (i j : Nat) : Fld := ⟨0xec100c + i * 0x4000 + j * 0x40, 0, 8⟩
/-- R317. -/
def BRX_FMT_EARLY_REP (i j : Nat) : Fld := ⟨0xec100c + i * 0x4000 + j * 0x40, 16, 4⟩
/-- R317. -/
def BRX_FMT_FIRST (i j : Nat) : Fld := ⟨0xec1010 + i * 0x4000 + j * 0x40, 0, 32⟩
/-- R317. -/
def BRX_FMT_FIRST_HI (i j : Nat) : Fld := ⟨0xec1014 + i * 0x4000 + j * 0x40, 0, 32⟩
/-- R317. -/
def BRX_FMT_PERIOD_NS (i j : Nat) : Fld := ⟨0xec1018 + i * 0x4000 + j * 0x40, 0, 32⟩
/-- R317. -/
def BRX_FMT_SUB_NS (i j : Nat) : Fld := ⟨0xec101c + i * 0x4000 + j * 0x40, 0, 24⟩
/-- R317. -/
def BRX_FMT_OCC_MASK (i j : Nat) : Fld := ⟨0xec1020 + i * 0x4000 + j * 0x40, 0, 32⟩
/-- R317. -/
def BRX_FMT_THRESH (i j : Nat) : Fld := ⟨0xec1024 + i * 0x4000 + j * 0x40, 0, 10⟩
/-- R317. -/
def BRX_FMT_CONFIRM_THRESH (i j : Nat) : Fld := ⟨0xec1024 + i * 0x4000 + j * 0x40, 16, 10⟩
/-- R317. -/
def BRX_FMT_PL_PRB (i j : Nat) : Fld := ⟨0xec1028 + i * 0x4000 + j * 0x40, 0, 9⟩
/-- R317. -/
def BRX_FMT_PL_NPRB (i j : Nat) : Fld := ⟨0xec1028 + i * 0x4000 + j * 0x40, 9, 6⟩
/-- R317. -/
def BRX_FMT_PL_SYM0 (i j : Nat) : Fld := ⟨0xec1028 + i * 0x4000 + j * 0x40, 16, 4⟩
/-- R317. -/
def BRX_FMT_PL_NSYM (i j : Nat) : Fld := ⟨0xec1028 + i * 0x4000 + j * 0x40, 20, 4⟩
/-- R317. -/
def BRX_FMT_PL_SLOT (i j : Nat) : Fld := ⟨0xec1028 + i * 0x4000 + j * 0x40, 24, 8⟩
/-- R317. -/
def BRX_FMT_NID (i j : Nat) : Fld := ⟨0xec102c + i * 0x4000 + j * 0x40, 0, 16⟩
/-- R318. -/
def DFE_TX_CTL (i : Nat) : Fld := ⟨0xf00000 + i * 0x200, 0, 32⟩
/-- R318. -/
def DFE_RX_CTL (i : Nat) : Fld := ⟨0xf10000 + i * 0x200, 0, 32⟩
/-- R318. -/
def DFE_TX_CFG_FUNC (i : Nat) : Fld := ⟨0xf00004 + i * 0x200, 0, 6⟩
/-- R318. -/
def DFE_RX_CFG_FUNC (i : Nat) : Fld := ⟨0xf10004 + i * 0x200, 0, 6⟩
/-- R318. -/
def DFE_TX_CFG_SECURE (i : Nat) : Fld := ⟨0xf00004 + i * 0x200, 6, 1⟩
/-- R318. -/
def DFE_RX_CFG_SECURE (i : Nat) : Fld := ⟨0xf10004 + i * 0x200, 6, 1⟩
/-- R318. -/
def DFE_TX_CFG_PORT (i : Nat) : Fld := ⟨0xf00004 + i * 0x200, 8, 4⟩
/-- R318. -/
def DFE_RX_CFG_PORT (i : Nat) : Fld := ⟨0xf10004 + i * 0x200, 8, 4⟩
/-- R318. -/
def DFE_TX_CFG_MUTE_EN (i : Nat) : Fld := ⟨0xf00004 + i * 0x200, 12, 1⟩
/-- R318. -/
def DFE_TX_CFG_MASK_PROF (i : Nat) : Fld := ⟨0xf00004 + i * 0x200, 16, 4⟩
/-- R318. -/
def DFE_RX_CFG_AGC_EN (i : Nat) : Fld := ⟨0xf10004 + i * 0x200, 20, 1⟩
/-- R318. -/
def DFE_TX_FLOW (i : Nat) : Fld := ⟨0xf00008 + i * 0x200, 0, 16⟩
/-- R318. -/
def DFE_RX_FLOW (i : Nat) : Fld := ⟨0xf10008 + i * 0x200, 0, 16⟩
/-- R318. -/
def DFE_TX_GAIN (i : Nat) : Fld := ⟨0xf0000c + i * 0x200, 0, 8⟩
/-- R318. -/
def DFE_TX_START (i : Nat) : Fld := ⟨0xf00010 + i * 0x200, 0, 32⟩
/-- R318. -/
def DFE_RX_START (i : Nat) : Fld := ⟨0xf10010 + i * 0x200, 0, 32⟩
/-- R318. -/
def DFE_TX_START_HI (i : Nat) : Fld := ⟨0xf00014 + i * 0x200, 0, 32⟩
/-- R318. -/
def DFE_RX_START_HI (i : Nat) : Fld := ⟨0xf10014 + i * 0x200, 0, 32⟩
/-- R318. -/
def DFE_TX_ADVANCE_NS (i : Nat) : Fld := ⟨0xf00018 + i * 0x200, 0, 20⟩
/-- R318. -/
def DFE_RX_AGC_TARGET (i : Nat) : Fld := ⟨0xf10020 + i * 0x200, 0, 16⟩
/-- R318. -/
def DFE_RX_AGC_HYST (i : Nat) : Fld := ⟨0xf10020 + i * 0x200, 16, 16⟩
/-- R318. -/
def DFE_RX_AGC_WIN (i : Nat) : Fld := ⟨0xf10024 + i * 0x200, 0, 6⟩
/-- R318. -/
def DFE_RX_AGC_STEP_UP (i : Nat) : Fld := ⟨0xf10024 + i * 0x200, 8, 4⟩
/-- R318. -/
def DFE_RX_AGC_STEP_DN (i : Nat) : Fld := ⟨0xf10024 + i * 0x200, 12, 4⟩
/-- R318. -/
def DFE_RX_AGC_CLIP_DN (i : Nat) : Fld := ⟨0xf10024 + i * 0x200, 16, 4⟩
/-- R318. -/
def DFE_RX_AGC_INIT (i : Nat) : Fld := ⟨0xf10024 + i * 0x200, 24, 8⟩
/-- R318. -/
def DFE_TX_CAR_ENABLE (i j : Nat) : Fld := ⟨0xf00040 + i * 0x200 + j * 0x30, 0, 1⟩
/-- R318. -/
def DFE_RX_CAR_ENABLE (i j : Nat) : Fld := ⟨0xf10040 + i * 0x200 + j * 0x30, 0, 1⟩
/-- R318. -/
def DFE_TX_CAR_RATE (i j : Nat) : Fld := ⟨0xf00040 + i * 0x200 + j * 0x30, 1, 3⟩
/-- R318. -/
def DFE_RX_CAR_RATE (i j : Nat) : Fld := ⟨0xf10040 + i * 0x200 + j * 0x30, 1, 3⟩
/-- R318. -/
def DFE_TX_CAR_TAPS (i j : Nat) : Fld := ⟨0xf00040 + i * 0x200 + j * 0x30, 8, 7⟩
/-- R318. -/
def DFE_RX_CAR_TAPS (i j : Nat) : Fld := ⟨0xf10040 + i * 0x200 + j * 0x30, 8, 7⟩
/-- R318. -/
def DFE_TX_CAR_BANK (i j : Nat) : Fld := ⟨0xf00040 + i * 0x200 + j * 0x30, 16, 6⟩
/-- R318. -/
def DFE_RX_CAR_BANK (i j : Nat) : Fld := ⟨0xf10040 + i * 0x200 + j * 0x30, 16, 6⟩
/-- R318. -/
def DFE_TX_CAR_CARRIER (i j : Nat) : Fld := ⟨0xf00040 + i * 0x200 + j * 0x30, 23, 9⟩
/-- R318. -/
def DFE_RX_CAR_CARRIER (i j : Nat) : Fld := ⟨0xf10040 + i * 0x200 + j * 0x30, 23, 9⟩
/-- R318. -/
def DFE_TX_CAR_NCO (i j : Nat) : Fld := ⟨0xf00044 + i * 0x200 + j * 0x30, 0, 24⟩
/-- R318. -/
def DFE_RX_CAR_NCO (i j : Nat) : Fld := ⟨0xf10044 + i * 0x200 + j * 0x30, 0, 24⟩
/-- R318. -/
def DFE_TX_CAR_RING (i j : Nat) : Fld := ⟨0xf00048 + i * 0x200 + j * 0x30, 3, 29⟩
/-- R318. -/
def DFE_RX_CAR_RING (i j : Nat) : Fld := ⟨0xf10048 + i * 0x200 + j * 0x30, 3, 29⟩
/-- R318. -/
def DFE_TX_CAR_RING_HI (i j : Nat) : Fld := ⟨0xf0004c + i * 0x200 + j * 0x30, 0, 24⟩
/-- R318. -/
def DFE_RX_CAR_RING_HI (i j : Nat) : Fld := ⟨0xf1004c + i * 0x200 + j * 0x30, 0, 24⟩
/-- R318. -/
def DFE_TX_CAR_BLOCKS (i j : Nat) : Fld := ⟨0xf00050 + i * 0x200 + j * 0x30, 0, 15⟩
/-- R318. -/
def DFE_RX_CAR_BLOCKS (i j : Nat) : Fld := ⟨0xf10050 + i * 0x200 + j * 0x30, 0, 15⟩
/-- R318. -/
def DFE_TX_CAR_HDR (i j : Nat) : Fld := ⟨0xf00054 + i * 0x200 + j * 0x30, 3, 29⟩
/-- R318. -/
def DFE_RX_CAR_HDR (i j : Nat) : Fld := ⟨0xf10054 + i * 0x200 + j * 0x30, 3, 29⟩
/-- R318. -/
def DFE_TX_CAR_HDR_HI (i j : Nat) : Fld := ⟨0xf00058 + i * 0x200 + j * 0x30, 0, 24⟩
/-- R318. -/
def DFE_RX_CAR_HDR_HI (i j : Nat) : Fld := ⟨0xf10058 + i * 0x200 + j * 0x30, 0, 24⟩
/-- R318. -/
def DFE_TX_CAR_CONSUMED (i j : Nat) : Fld := ⟨0xf0005c + i * 0x200 + j * 0x30, 0, 32⟩
/-- R318. -/
def DFE_RX_CAR_CONSUMED (i j : Nat) : Fld := ⟨0xf1005c + i * 0x200 + j * 0x30, 0, 32⟩
/-- R318. -/
def DFE_TX_CAR_COMMITTED (i j : Nat) : Fld := ⟨0xf00060 + i * 0x200 + j * 0x30, 0, 32⟩
/-- R318. -/
def DFE_RX_CAR_COMMITTED (i j : Nat) : Fld := ⟨0xf10060 + i * 0x200 + j * 0x30, 0, 32⟩
/-- R318. -/
def DFE_TX_CAR_GAIN_NOW (i j : Nat) : Fld := ⟨0xf00064 + i * 0x200 + j * 0x30, 0, 8⟩
/-- R318. -/
def DFE_RX_CAR_GAIN_NOW (i j : Nat) : Fld := ⟨0xf10064 + i * 0x200 + j * 0x30, 0, 8⟩
/-- R318. -/
def DFE_TX_CAR_FROZEN (i j : Nat) : Fld := ⟨0xf00064 + i * 0x200 + j * 0x30, 8, 1⟩
/-- R318. -/
def DFE_RX_CAR_FROZEN (i j : Nat) : Fld := ⟨0xf10064 + i * 0x200 + j * 0x30, 8, 1⟩
/-- R318. -/
def DFE_TX_UNDERRUN (i : Nat) : Fld := ⟨0xf00100 + i * 0x200, 0, 32⟩
/-- R318. -/
def DFE_RX_UNDERRUN (i : Nat) : Fld := ⟨0xf10100 + i * 0x200, 0, 32⟩
/-- R318. -/
def DFE_TX_SAT (i : Nat) : Fld := ⟨0xf00104 + i * 0x200, 0, 32⟩
/-- R318. -/
def DFE_RX_SAT (i : Nat) : Fld := ⟨0xf10104 + i * 0x200, 0, 32⟩
/-- R318. -/
def DFE_TX_POISON (i : Nat) : Fld := ⟨0xf00108 + i * 0x200, 0, 32⟩
/-- R318. -/
def DFE_RX_POISON (i : Nat) : Fld := ⟨0xf10108 + i * 0x200, 0, 32⟩
/-- R318. -/
def DFE_TX_ATTN (i : Nat) : Fld := ⟨0xf0010c + i * 0x200, 0, 5⟩
/-- R318. -/
def DFE_RX_ATTN (i : Nat) : Fld := ⟨0xf1010c + i * 0x200, 0, 5⟩
/-- R318. -/
def DFE_TX_STATUS_MUTED (i : Nat) : Fld := ⟨0xf00110 + i * 0x200, 0, 1⟩
/-- R318. -/
def DFE_MON_AVG (i : Nat) : Fld := ⟨0xf20000 + i * 0x20, 0, 4⟩
/-- R318. -/
def DFE_MON_VIOL_N (i : Nat) : Fld := ⟨0xf20000 + i * 0x20, 8, 4⟩
/-- R318. -/
def DFE_MON_CUR_CHAIN (i : Nat) : Fld := ⟨0xf20004 + i * 0x20, 0, 7⟩
/-- R318. -/
def DFE_MON_VIOLATIONS (i : Nat) : Fld := ⟨0xf20008 + i * 0x20, 0, 32⟩
/-- R318. -/
def DFE_PROF_BAND_FIRST_BIN (i j : Nat) : Fld := ⟨0xf20400 + i * 0x40 + j * 0x8, 0, 12⟩
/-- R318. -/
def DFE_PROF_BAND_NBINS (i j : Nat) : Fld := ⟨0xf20400 + i * 0x40 + j * 0x8, 12, 13⟩
/-- R318. -/
def DFE_PROF_BAND_BAND_EN (i j : Nat) : Fld := ⟨0xf20400 + i * 0x40 + j * 0x8, 31, 1⟩
/-- R318. -/
def DFE_PROF_BAND_LIMIT (i j : Nat) : Fld := ⟨0xf20404 + i * 0x40 + j * 0x8, 0, 16⟩
/-- R318. -/
def DFE_MASK_REC_CHAIN : Fld := ⟨0xf21000, 0, 7⟩
/-- R318. -/
def DFE_MASK_REC_BAND : Fld := ⟨0xf21000, 8, 3⟩
/-- R318. -/
def DFE_MASK_REC_EXCESS : Fld := ⟨0xf21000, 16, 16⟩
/-- R318. -/
def DFE_MASK_REC_TIME : Fld := ⟨0xf21004, 0, 32⟩
/-- R318. -/
def DFE_MASK_REC_TIME_HI : Fld := ⟨0xf21008, 0, 32⟩
/-- R318. -/
def DFE_TX_ATTN_SUM (i : Nat) : Fld := ⟨0xf21010 + i * 0x4, 0, 32⟩
/-- R318. -/
def DFE_RX_ATTN_SUM (i : Nat) : Fld := ⟨0xf21020 + i * 0x4, 0, 32⟩
/-- R344. -/
def NOC_CFG_AGE_NS : Fld := ⟨0x800000, 0, 13⟩
/-- R344. -/
def NOC_SLACK_URG_C : Fld := ⟨0x800004, 0, 24⟩
/-- R344. -/
def NOC_EPOCH_CUR : Fld := ⟨0x800010, 0, 1⟩
/-- R344. -/
def NOC_EPOCH_CHECK_BUSY : Fld := ⟨0x800010, 1, 1⟩
/-- R344. -/
def NOC_EPOCH_CHECK_OK : Fld := ⟨0x800010, 2, 1⟩
/-- R344. -/
def NOC_EPOCH_FLIP_BUSY : Fld := ⟨0x800010, 3, 1⟩
/-- R344. -/
def NOC_EPOCH_CHECK_CAUSE : Fld := ⟨0x800010, 8, 4⟩
/-- R344. -/
def NOC_EPOCH_FAIL_ROUTER : Fld := ⟨0x800010, 16, 6⟩
/-- R344. -/
def NOC_EPOCH_FAIL_EP : Fld := ⟨0x800010, 24, 7⟩
/-- R344. -/
def NOC_EPOCH_CMD_CHECK : Fld := ⟨0x800014, 0, 1⟩
/-- R344. -/
def NOC_EPOCH_CMD_FLIP : Fld := ⟨0x800014, 1, 1⟩
/-- R344. -/
def NOC_DRAIN_COUNT (i : Nat) : Fld := ⟨0x800018 + i * 0x4, 0, 20⟩
/-- R344. -/
def NOC_DEV_T (i : Nat) : Fld := ⟨0x800020 + i * 0x4, 0, 8⟩
/-- R344. -/
def NOC_ATTN_CHECK_FAIL : Fld := ⟨0x800030, 0, 1⟩
/-- R344. -/
def NOC_ATTN_MISROUTE : Fld := ⟨0x800030, 1, 1⟩
/-- R344. -/
def NOC_ATTN_UNREACH : Fld := ⟨0x800030, 2, 1⟩
/-- R344. -/
def NOC_UNREACH : Fld := ⟨0x800034, 0, 32⟩
/-- R344. -/
def NOC_RT_T_E (i j k : Nat) : Fld := ⟨0x801000 + i * 0x80 + j * 0x40 + k * 0x4, 0, 24⟩
/-- R344. -/
def NOC_EP_STATE (i : Nat) : Fld := ⟨0x803000 + i * 0x10, 0, 3⟩
/-- R344. -/
def NOC_EP_FENCE_DROPS (i : Nat) : Fld := ⟨0x803004 + i * 0x10, 0, 32⟩
/-- R344. -/
def NOC_EP_FENCED_RSP (i : Nat) : Fld := ⟨0x803008 + i * 0x10, 0, 32⟩
/-- R344. -/
def NOC_EP_MISROUTE (i : Nat) : Fld := ⟨0x80300c + i * 0x10, 0, 16⟩
/-- R344. -/
def NOC_PROBE_CTL (i : Nat) : Fld := ⟨0x804000 + i * 0x80, 0, 32⟩
/-- R344. -/
def NOC_PROBE_CFG_ROUTER (i : Nat) : Fld := ⟨0x804004 + i * 0x80, 0, 6⟩
/-- R344. -/
def NOC_PROBE_CFG_PORT (i : Nat) : Fld := ⟨0x804004 + i * 0x80, 8, 3⟩
/-- R344. -/
def NOC_PROBE_CFG_VN_MASK (i : Nat) : Fld := ⟨0x804004 + i * 0x80, 12, 4⟩
/-- R344. -/
def NOC_PROBE_CFG_WORLD_SEL (i : Nat) : Fld := ⟨0x804004 + i * 0x80, 16, 2⟩
/-- R344. -/
def NOC_PROBE_CFG_URG_MIN (i : Nat) : Fld := ⟨0x804004 + i * 0x80, 20, 4⟩
/-- R344. -/
def NOC_PROBE_CFG_TRACE (i : Nat) : Fld := ⟨0x804004 + i * 0x80, 24, 1⟩
/-- R344. -/
def NOC_PROBE_CFG_STOP_FULL (i : Nat) : Fld := ⟨0x804004 + i * 0x80, 25, 1⟩
/-- R344. -/
def NOC_PROBE_CFG_SECURE (i : Nat) : Fld := ⟨0x804004 + i * 0x80, 26, 1⟩
/-- R344. -/
def NOC_PROBE_FILT_SRC_EP (i : Nat) : Fld := ⟨0x804008 + i * 0x80, 0, 7⟩
/-- R344. -/
def NOC_PROBE_FILT_SRC_MASK (i : Nat) : Fld := ⟨0x804008 + i * 0x80, 8, 7⟩
/-- R344. -/
def NOC_PROBE_FILT_DST_EP (i : Nat) : Fld := ⟨0x804008 + i * 0x80, 16, 7⟩
/-- R344. -/
def NOC_PROBE_FILT_DST_MASK (i : Nat) : Fld := ⟨0x804008 + i * 0x80, 24, 7⟩
/-- R344. -/
def NOC_PROBE_ADDR_MIN (i : Nat) : Fld := ⟨0x80400c + i * 0x80, 0, 32⟩
/-- R344. -/
def NOC_PROBE_ADDR_MIN_HI (i : Nat) : Fld := ⟨0x804010 + i * 0x80, 0, 24⟩
/-- R344. -/
def NOC_PROBE_ADDR_MAX (i : Nat) : Fld := ⟨0x804014 + i * 0x80, 0, 32⟩
/-- R344. -/
def NOC_PROBE_ADDR_MAX_HI (i : Nat) : Fld := ⟨0x804018 + i * 0x80, 0, 24⟩
/-- R344. -/
def NOC_PROBE_START (i : Nat) : Fld := ⟨0x80401c + i * 0x80, 0, 32⟩
/-- R344. -/
def NOC_PROBE_START_HI (i : Nat) : Fld := ⟨0x804020 + i * 0x80, 0, 32⟩
/-- R344. -/
def NOC_PROBE_STOP (i : Nat) : Fld := ⟨0x804024 + i * 0x80, 0, 32⟩
/-- R344. -/
def NOC_PROBE_STOP_HI (i : Nat) : Fld := ⟨0x804028 + i * 0x80, 0, 32⟩
/-- R344. -/
def NOC_PROBE_PACKETS (i : Nat) : Fld := ⟨0x80402c + i * 0x80, 0, 32⟩
/-- R344. -/
def NOC_PROBE_FLITS (i : Nat) : Fld := ⟨0x804030 + i * 0x80, 0, 32⟩
/-- R344. -/
def NOC_PROBE_WAIT (i : Nat) : Fld := ⟨0x804034 + i * 0x80, 0, 32⟩
/-- R344. -/
def NOC_PROBE_SEC_UNTRACED (i : Nat) : Fld := ⟨0x804038 + i * 0x80, 0, 32⟩
/-- R344. -/
def NOC_PROBE_TRACE_BASE (i : Nat) : Fld := ⟨0x80403c + i * 0x80, 5, 27⟩
/-- R344. -/
def NOC_PROBE_TRACE_BASE_HI (i : Nat) : Fld := ⟨0x804040 + i * 0x80, 0, 24⟩
/-- R344. -/
def NOC_PROBE_TRACE_LOG2 (i : Nat) : Fld := ⟨0x804044 + i * 0x80, 0, 5⟩
/-- R344. -/
def NOC_PROBE_TRACE_PTR (i : Nat) : Fld := ⟨0x804048 + i * 0x80, 0, 32⟩
/-- R344. -/
def NOC_PROBE_TRACE_DROPS (i : Nat) : Fld := ⟨0x80404c + i * 0x80, 0, 32⟩
/-- R344. -/
def NOC_PROBE_ATTN (i : Nat) : Fld := ⟨0x804050 + i * 0x80, 0, 3⟩
/-- R368. -/
def LANE_REF_STATUS : Fld := ⟨0x600000, 0, 3⟩
/-- R368. -/
def LANE_ATTN_SUM : Fld := ⟨0x600004, 0, 24⟩
/-- R368. -/
def LANE_ATTN_SUM_ETH : Fld := ⟨0x600008, 0, 16⟩
/-- R368. -/
def LANE_CTL (i : Nat) : Fld := ⟨0x601000 + i * 0x40, 0, 32⟩
/-- R368. -/
def LANE_CFG_TX_INVERT (i : Nat) : Fld := ⟨0x601004 + i * 0x40, 0, 1⟩
/-- R368. -/
def LANE_CFG_RX_INVERT (i : Nat) : Fld := ⟨0x601004 + i * 0x40, 1, 1⟩
/-- R368. -/
def LANE_CFG_TX_PRECODE (i : Nat) : Fld := ⟨0x601004 + i * 0x40, 2, 1⟩
/-- R368. -/
def LANE_CFG_RX_PRECODE (i : Nat) : Fld := ⟨0x601004 + i * 0x40, 3, 1⟩
/-- R368. -/
def LANE_CFG_TEST (i : Nat) : Fld := ⟨0x601004 + i * 0x40, 4, 3⟩
/-- R368. -/
def LANE_FFE_PRE2 (i : Nat) : Fld := ⟨0x601008 + i * 0x40, 0, 6⟩
/-- R368. -/
def LANE_FFE_PRE1 (i : Nat) : Fld := ⟨0x601008 + i * 0x40, 8, 6⟩
/-- R368. -/
def LANE_FFE_MAIN (i : Nat) : Fld := ⟨0x601008 + i * 0x40, 16, 7⟩
/-- R368. -/
def LANE_FFE_POST1 (i : Nat) : Fld := ⟨0x601008 + i * 0x40, 24, 6⟩
/-- R368. -/
def LANE_STATUS_TX_PWR (i : Nat) : Fld := ⟨0x60100c + i * 0x40, 0, 2⟩
/-- R368. -/
def LANE_STATUS_RX_PWR (i : Nat) : Fld := ⟨0x60100c + i * 0x40, 2, 2⟩
/-- R368. -/
def LANE_STATUS_SIGNAL (i : Nat) : Fld := ⟨0x60100c + i * 0x40, 4, 1⟩
/-- R368. -/
def LANE_STATUS_CDR_LOCK (i : Nat) : Fld := ⟨0x60100c + i * 0x40, 5, 1⟩
/-- R368. -/
def LANE_STATUS_MATCH (i : Nat) : Fld := ⟨0x60100c + i * 0x40, 6, 1⟩
/-- R368. -/
def LANE_STATUS_INVERTED (i : Nat) : Fld := ⟨0x60100c + i * 0x40, 7, 1⟩
/-- R368. -/
def LANE_STATUS_LANE_ID (i : Nat) : Fld := ⟨0x60100c + i * 0x40, 8, 3⟩
/-- R368. -/
def LANE_STATUS_PRBS_LOCK (i : Nat) : Fld := ⟨0x60100c + i * 0x40, 11, 1⟩
/-- R368. -/
def LANE_STATUS_SLIP (i : Nat) : Fld := ⟨0x60100c + i * 0x40, 16, 5⟩
/-- R368. -/
def LANE_STATUS_PRECODE (i : Nat) : Fld := ⟨0x60100c + i * 0x40, 21, 1⟩
/-- R368. -/
def LANE_SLIP_GO (i : Nat) : Fld := ⟨0x601010 + i * 0x40, 0, 1⟩
/-- R368. -/
def LANE_PRBS_ERR (i : Nat) : Fld := ⟨0x601014 + i * 0x40, 0, 32⟩
/-- R368. -/
def LANE_EYE_HEIGHT (i : Nat) : Fld := ⟨0x601018 + i * 0x40, 0, 8⟩
/-- R368. -/
def LANE_EYE_WIDTH (i : Nat) : Fld := ⟨0x601018 + i * 0x40, 8, 8⟩
/-- R368. -/
def LANE_ATTN_FAULT (i : Nat) : Fld := ⟨0x60101c + i * 0x40, 0, 1⟩
/-- R368. -/
def LANE_ATTN_LOS (i : Nat) : Fld := ⟨0x60101c + i * 0x40, 1, 1⟩
/-- R368. -/
def LANE_ATTN_PRBS_ERR (i : Nat) : Fld := ⟨0x60101c + i * 0x40, 2, 1⟩
/-- R369. -/
def ULD_CTL (i : Nat) : Fld := ⟨0x701000 + i * 0x400, 0, 32⟩
/-- R369. -/
def ULD_CFG_RATE (i : Nat) : Fld := ⟨0x701004 + i * 0x400, 0, 1⟩
/-- R369. -/
def ULD_CFG_WIDTH (i : Nat) : Fld := ⟨0x701004 + i * 0x400, 1, 2⟩
/-- R369. -/
def ULD_CFG_SLEEP_EN (i : Nat) : Fld := ⟨0x701004 + i * 0x400, 3, 1⟩
/-- R369. -/
def ULD_CFG_TIME_EN (i : Nat) : Fld := ⟨0x701004 + i * 0x400, 4, 1⟩
/-- R369. -/
def ULD_CFG_FORWARD_EN (i : Nat) : Fld := ⟨0x701004 + i * 0x400, 5, 1⟩
/-- R369. -/
def ULD_REPLAY_TIMEOUT_NS (i : Nat) : Fld := ⟨0x701008 + i * 0x400, 0, 16⟩
/-- R369. -/
def ULD_REPLAY_MAX (i : Nat) : Fld := ⟨0x701008 + i * 0x400, 16, 4⟩
/-- R369. -/
def ULD_IDLE_US (i : Nat) : Fld := ⟨0x701008 + i * 0x400, 24, 8⟩
/-- R369. -/
def ULD_TRAIN_MS (i : Nat) : Fld := ⟨0x70100c + i * 0x400, 0, 8⟩
/-- R369. -/
def ULD_RETRAIN_MS (i : Nat) : Fld := ⟨0x70100c + i * 0x400, 8, 8⟩
/-- R369. -/
def ULD_TIME_INTERVAL_US (i : Nat) : Fld := ⟨0x701010 + i * 0x400, 0, 16⟩
/-- R369. -/
def ULD_ASYM_PS (i : Nat) : Fld := ⟨0x701014 + i * 0x400, 0, 16⟩
/-- R369. -/
def ULD_STATE_TRAIN (i : Nat) : Fld := ⟨0x701018 + i * 0x400, 0, 4⟩
/-- R369. -/
def ULD_STATE_TX_SLEEP (i : Nat) : Fld := ⟨0x701018 + i * 0x400, 4, 1⟩
/-- R369. -/
def ULD_STATE_RX_SLEEP (i : Nat) : Fld := ⟨0x701018 + i * 0x400, 5, 1⟩
/-- R369. -/
def ULD_STATE_REVERSED (i : Nat) : Fld := ⟨0x701018 + i * 0x400, 6, 1⟩
/-- R369. -/
def ULD_STATE_PEER_ID (i : Nat) : Fld := ⟨0x701018 + i * 0x400, 8, 2⟩
/-- R369. -/
def ULD_STATE_PEER_PORT (i : Nat) : Fld := ⟨0x701018 + i * 0x400, 10, 2⟩
/-- R369. -/
def ULD_STATE_PEER_VALID (i : Nat) : Fld := ⟨0x701018 + i * 0x400, 12, 1⟩
/-- R369. -/
def ULD_REPLAYS (i : Nat) : Fld := ⟨0x701020 + i * 0x400, 0, 32⟩
/-- R369. -/
def ULD_CRC_ERRORS (i : Nat) : Fld := ⟨0x701024 + i * 0x400, 0, 32⟩
/-- R369. -/
def ULD_RETRAINS (i : Nat) : Fld := ⟨0x701028 + i * 0x400, 0, 16⟩
/-- R369. -/
def ULD_TX_FRAMES (i : Nat) : Fld := ⟨0x70102c + i * 0x400, 0, 32⟩
/-- R369. -/
def ULD_RX_FRAMES (i : Nat) : Fld := ⟨0x701030 + i * 0x400, 0, 32⟩
/-- R369. -/
def ULD_LATE_RSP (i : Nat) : Fld := ⟨0x701034 + i * 0x400, 0, 16⟩
/-- R369. -/
def ULD_MGMT_DROPS (i : Nat) : Fld := ⟨0x701034 + i * 0x400, 16, 16⟩
/-- R369. -/
def ULD_OUTSTANDING (i : Nat) : Fld := ⟨0x701038 + i * 0x400, 0, 13⟩
/-- R369. -/
def ULD_TIME_OFFSET (i : Nat) : Fld := ⟨0x701040 + i * 0x400, 0, 32⟩
/-- R369. -/
def ULD_TIME_OFFSET_HI (i : Nat) : Fld := ⟨0x701044 + i * 0x400, 0, 32⟩
/-- R369. -/
def ULD_TIME_DELAY (i : Nat) : Fld := ⟨0x701048 + i * 0x400, 0, 32⟩
/-- R369. -/
def ULD_TIME_VALID (i : Nat) : Fld := ⟨0x70104c + i * 0x400, 0, 1⟩
/-- R369. -/
def ULD_TIME_AT (i : Nat) : Fld := ⟨0x701050 + i * 0x400, 0, 32⟩
/-- R369. -/
def ULD_TIME_AT_HI (i : Nat) : Fld := ⟨0x701054 + i * 0x400, 0, 32⟩
/-- R369. -/
def ULD_ATTN_FAULT (i : Nat) : Fld := ⟨0x701060 + i * 0x400, 0, 1⟩
/-- R369. -/
def ULD_ATTN_RETRAIN (i : Nat) : Fld := ⟨0x701060 + i * 0x400, 1, 1⟩
/-- R369. -/
def ULD_ATTN_TOPOLOGY (i : Nat) : Fld := ⟨0x701060 + i * 0x400, 2, 1⟩
/-- R369. -/
def ULD_ATTN_LATE_RSP (i : Nat) : Fld := ⟨0x701060 + i * 0x400, 3, 1⟩
/-- R369. -/
def ULD_ATTN_WORLD (i : Nat) : Fld := ⟨0x701060 + i * 0x400, 4, 1⟩
/-- R401. -/
def TB_STATE_STATE : Fld := ⟨0x400000, 0, 3⟩
/-- R401. -/
def TB_STATE_TRACEABLE : Fld := ⟨0x400000, 3, 1⟩
/-- R401. -/
def TB_SNAP_GO : Fld := ⟨0x400004, 0, 1⟩
/-- R401. -/
def TB_SNAP_SHORT : Fld := ⟨0x400008, 0, 32⟩
/-- R401. -/
def TB_SNAP_SHORT_HI : Fld := ⟨0x40000c, 0, 32⟩
/-- R401. -/
def TB_SNAP_SEC : Fld := ⟨0x400010, 0, 32⟩
/-- R401. -/
def TB_SNAP_SEC_HI : Fld := ⟨0x400014, 0, 16⟩
/-- R401. -/
def TB_SNAP_FRAC : Fld := ⟨0x400014, 16, 16⟩
/-- R401. -/
def TB_SNAP_NS : Fld := ⟨0x400018, 0, 30⟩
/-- R401. -/
def TB_DPLL_SEL0 : Fld := ⟨0x400020, 0, 8⟩
/-- R401. -/
def TB_DPLL_SEL1 : Fld := ⟨0x400020, 8, 8⟩
/-- R401. -/
def TB_DPLL_SEL2 : Fld := ⟨0x400020, 16, 8⟩
/-- R401. -/
def TB_DPLL_REVERT : Fld := ⟨0x400020, 24, 1⟩
/-- R401. -/
def TB_DPLL_REF_25 : Fld := ⟨0x400020, 25, 1⟩
/-- R401. -/
def TB_DPLL_SYNCE_TX : Fld := ⟨0x400020, 26, 1⟩
/-- R401. -/
def TB_DPLL_ACTIVE : Fld := ⟨0x400024, 0, 8⟩
/-- R401. -/
def TB_DPLL_HOLD : Fld := ⟨0x400024, 8, 1⟩
/-- R401. -/
def TB_DPLL_VALID : Fld := ⟨0x400024, 9, 3⟩
/-- R401. -/
def TB_SERVO_CTL : Fld := ⟨0x400030, 0, 32⟩
/-- R401. -/
def TB_SERVO_SOURCE : Fld := ⟨0x400034, 0, 2⟩
/-- R401. -/
def TB_SERVO_PORT : Fld := ⟨0x400034, 4, 4⟩
/-- R401. -/
def TB_SERVO_EXT_TRACE : Fld := ⟨0x400034, 8, 1⟩
/-- R401. -/
def TB_SERVO_LOCK_NS : Fld := ⟨0x400038, 0, 16⟩
/-- R401. -/
def TB_SERVO_LOSS_MS : Fld := ⟨0x400038, 16, 16⟩
/-- R401. -/
def TB_SERVO_STEP_NS : Fld := ⟨0x40003c, 0, 24⟩
/-- R401. -/
def TB_SERVO_SLEW_PPB : Fld := ⟨0x400040, 0, 24⟩
/-- R401. -/
def TB_SERVO_MASTER_PORTS : Fld := ⟨0x400044, 0, 16⟩
/-- R401. -/
def TB_SERVO_OFFSET : Fld := ⟨0x400048, 0, 32⟩
/-- R401. -/
def TB_SERVO_OFFSET_HI : Fld := ⟨0x40004c, 0, 32⟩
/-- R401. -/
def TB_SERVO_FREQ : Fld := ⟨0x400050, 0, 32⟩
/-- R401. -/
def TB_SERVO_GM_CLASS : Fld := ⟨0x400054, 0, 8⟩
/-- R401. -/
def TB_HOST_MEAS_OFFSET : Fld := ⟨0x400060, 0, 32⟩
/-- R401. -/
def TB_HOST_MEAS_OFFSET_HI : Fld := ⟨0x400064, 0, 32⟩
/-- R401. -/
def TB_HOST_MEAS_AT : Fld := ⟨0x400068, 0, 32⟩
/-- R401. -/
def TB_HOST_MEAS_AT_HI : Fld := ⟨0x40006c, 0, 32⟩
/-- R401. -/
def TB_HOST_MEAS_COMMIT : Fld := ⟨0x400070, 0, 1⟩
/-- R401. -/
def TB_ADJ_FREQ : Fld := ⟨0x400080, 0, 32⟩
/-- R401. -/
def TB_ADJ_PHASE : Fld := ⟨0x400084, 0, 32⟩
/-- R401. -/
def TB_ADJ_PHASE_HI : Fld := ⟨0x400088, 0, 32⟩
/-- R401. -/
def TB_ADJ_GO : Fld := ⟨0x40008c, 0, 1⟩
/-- R401. -/
def TB_ADJ_SLEW : Fld := ⟨0x40008c, 1, 1⟩
/-- R401. -/
def TB_ADJ_SLEWING : Fld := ⟨0x40008c, 2, 1⟩
/-- R401. -/
def TB_SET_SEC : Fld := ⟨0x400090, 0, 32⟩
/-- R401. -/
def TB_SET_SEC_HI : Fld := ⟨0x400094, 0, 16⟩
/-- R401. -/
def TB_SET_NS : Fld := ⟨0x400098, 0, 30⟩
/-- R401. -/
def TB_SET_GO : Fld := ⟨0x40009c, 0, 1⟩
/-- R401. -/
def TB_PPS_OUT_EN : Fld := ⟨0x4000a0, 0, 1⟩
/-- R401. -/
def TB_PPS_OUT_MODE : Fld := ⟨0x4000a0, 1, 2⟩
/-- R401. -/
def TB_PPS_IN_EN : Fld := ⟨0x4000a0, 3, 1⟩
/-- R401. -/
def TB_PPS_IN_FALLING : Fld := ⟨0x4000a0, 4, 1⟩
/-- R401. -/
def TB_PPS_WIDTH_NS : Fld := ⟨0x4000a4, 0, 29⟩
/-- R401. -/
def TB_PPS_OUT_ADJ_PS : Fld := ⟨0x4000a8, 0, 16⟩
/-- R401. -/
def TB_PPS_IN_TIME : Fld := ⟨0x4000ac, 0, 32⟩
/-- R401. -/
def TB_PPS_IN_TIME_HI : Fld := ⟨0x4000b0, 0, 32⟩
/-- R401. -/
def TB_PPS_IN_COUNT : Fld := ⟨0x4000b4, 0, 32⟩
/-- R401. -/
def TB_COARSE_VALID : Fld := ⟨0x4000b8, 0, 1⟩
/-- R401. -/
def TB_COARSE_ELAPSED_S : Fld := ⟨0x4000bc, 0, 32⟩
/-- R401. -/
def TB_ATTN : Fld := ⟨0x4000c0, 0, 6⟩
/-- R401. -/
def TB_PTM_RESPONSES : Fld := ⟨0x4000c4, 0, 32⟩
/-- R401. -/
def TB_TIO_CTL (i : Nat) : Fld := ⟨0x401000 + i * 0x80, 0, 32⟩
/-- R401. -/
def TB_TIO_CFG_MODE (i : Nat) : Fld := ⟨0x401004 + i * 0x80, 0, 1⟩
/-- R401. -/
def TB_TIO_CFG_FALLING (i : Nat) : Fld := ⟨0x401004 + i * 0x80, 1, 1⟩
/-- R401. -/
def TB_TIO_CFG_IDLE_LEVEL (i : Nat) : Fld := ⟨0x401004 + i * 0x80, 2, 1⟩
/-- R401. -/
def TB_TIO_PERIOD_NS (i : Nat) : Fld := ⟨0x401008 + i * 0x80, 0, 30⟩
/-- R401. -/
def TB_TIO_START (i : Nat) : Fld := ⟨0x40100c + i * 0x80, 0, 32⟩
/-- R401. -/
def TB_TIO_START_HI (i : Nat) : Fld := ⟨0x401010 + i * 0x80, 0, 32⟩
/-- R401. -/
def TB_TIO_EDGE_OFS_NS (i j : Nat) : Fld := ⟨0x401020 + i * 0x80 + j * 0x4, 0, 30⟩
/-- R401. -/
def TB_TIO_EDGE_LEVEL (i j : Nat) : Fld := ⟨0x401020 + i * 0x80 + j * 0x4, 30, 1⟩
/-- R401. -/
def TB_TIO_EDGE_EN (i j : Nat) : Fld := ⟨0x401020 + i * 0x80 + j * 0x4, 31, 1⟩
/-- R401. -/
def TB_TIO_LAST (i : Nat) : Fld := ⟨0x401040 + i * 0x80, 0, 32⟩
/-- R401. -/
def TB_TIO_LAST_HI (i : Nat) : Fld := ⟨0x401044 + i * 0x80, 0, 32⟩
/-- R401. -/
def TB_TIO_COUNT (i : Nat) : Fld := ⟨0x401048 + i * 0x80, 0, 32⟩
/-- R402. -/
def ETH_QUAD_SPLIT (i : Nat) : Fld := ⟨0x500000 + i * 0x4, 0, 2⟩
/-- R402. -/
def ETH_QUAD_RATE (i : Nat) : Fld := ⟨0x500000 + i * 0x4, 2, 2⟩
/-- R402. -/
def ETH_QUAD_C2M (i : Nat) : Fld := ⟨0x500000 + i * 0x4, 4, 1⟩
/-- R402. -/
def ETH_PORT_CTL (i : Nat) : Fld := ⟨0x501000 + i * 0x100, 0, 32⟩
/-- R402. -/
def ETH_PORT_CFG_MAX_FRAME (i : Nat) : Fld := ⟨0x501004 + i * 0x100, 0, 14⟩
/-- R402. -/
def ETH_PORT_CFG_AN_EN (i : Nat) : Fld := ⟨0x501004 + i * 0x100, 16, 1⟩
/-- R402. -/
def ETH_PORT_CFG_MACSEC_EN (i : Nat) : Fld := ⟨0x501004 + i * 0x100, 17, 1⟩
/-- R402. -/
def ETH_PORT_CFG_TS_ALL (i : Nat) : Fld := ⟨0x501004 + i * 0x100, 18, 1⟩
/-- R402. -/
def ETH_PORT_CFG_PTP_TO_RING (i : Nat) : Fld := ⟨0x501004 + i * 0x100, 19, 1⟩
/-- R402. -/
def ETH_PORT_CFG_RX_RING_EN (i : Nat) : Fld := ⟨0x501004 + i * 0x100, 20, 1⟩
/-- R402. -/
def ETH_PORT_TS_TX_ADJ_PS (i : Nat) : Fld := ⟨0x501008 + i * 0x100, 0, 16⟩
/-- R402. -/
def ETH_PORT_TS_RX_ADJ_PS (i : Nat) : Fld := ⟨0x501008 + i * 0x100, 16, 16⟩
/-- R402. -/
def ETH_PORT_LATE_NS (i : Nat) : Fld := ⟨0x50100c + i * 0x100, 0, 20⟩
/-- R402. -/
def ETH_PORT_QUEUE_ASAP (i j : Nat) : Fld := ⟨0x501010 + i * 0x100 + j * 0x4, 0, 1⟩
/-- R402. -/
def ETH_PORT_QUEUE_POLICY (i j : Nat) : Fld := ⟨0x501010 + i * 0x100 + j * 0x4, 1, 1⟩
/-- R402. -/
def ETH_PORT_QUEUE_FRAMES (i j : Nat) : Fld := ⟨0x501010 + i * 0x100 + j * 0x4, 16, 11⟩
/-- R402. -/
def ETH_PORT_STATUS_LINK_UP (i : Nat) : Fld := ⟨0x501030 + i * 0x100, 0, 1⟩
/-- R402. -/
def ETH_PORT_STATUS_CAL_DONE (i : Nat) : Fld := ⟨0x501030 + i * 0x100, 1, 1⟩
/-- R402. -/
def ETH_PORT_STATUS_AN_DONE (i : Nat) : Fld := ⟨0x501030 + i * 0x100, 2, 1⟩
/-- R402. -/
def ETH_PORT_TX_FRAMES (i : Nat) : Fld := ⟨0x501034 + i * 0x100, 0, 32⟩
/-- R402. -/
def ETH_PORT_RX_FRAMES (i : Nat) : Fld := ⟨0x501038 + i * 0x100, 0, 32⟩
/-- R402. -/
def ETH_PORT_DEFERRED (i : Nat) : Fld := ⟨0x50103c + i * 0x100, 0, 32⟩
/-- R402. -/
def ETH_PORT_LATE_DROPS (i : Nat) : Fld := ⟨0x501040 + i * 0x100, 0, 32⟩
/-- R402. -/
def ETH_PORT_LATE_SENT (i : Nat) : Fld := ⟨0x501044 + i * 0x100, 0, 32⟩
/-- R402. -/
def ETH_PORT_DOWN_DROPS (i : Nat) : Fld := ⟨0x501048 + i * 0x100, 0, 32⟩
/-- R402. -/
def ETH_PORT_ABORT_DROPS (i : Nat) : Fld := ⟨0x50104c + i * 0x100, 0, 32⟩
/-- R402. -/
def ETH_PORT_RX_FCS_ERR (i : Nat) : Fld := ⟨0x501050 + i * 0x100, 0, 32⟩
/-- R402. -/
def ETH_PORT_RX_DROPS (i : Nat) : Fld := ⟨0x501054 + i * 0x100, 0, 32⟩
/-- R402. -/
def ETH_PORT_MACSEC_DROPS (i : Nat) : Fld := ⟨0x501058 + i * 0x100, 0, 32⟩
/-- R402. -/
def ETH_PORT_TXR_BASE (i : Nat) : Fld := ⟨0x501060 + i * 0x100, 12, 20⟩
/-- R402. -/
def ETH_PORT_TXR_BASE_HI (i : Nat) : Fld := ⟨0x501064 + i * 0x100, 0, 24⟩
/-- R402. -/
def ETH_PORT_TXR_PI_ADDR (i : Nat) : Fld := ⟨0x501068 + i * 0x100, 2, 30⟩
/-- R402. -/
def ETH_PORT_TXR_PI_ADDR_HI (i : Nat) : Fld := ⟨0x50106c + i * 0x100, 0, 24⟩
/-- R402. -/
def ETH_PORT_TXR_LOG2 (i : Nat) : Fld := ⟨0x501070 + i * 0x100, 0, 5⟩
/-- R402. -/
def ETH_PORT_TXR_CI (i : Nat) : Fld := ⟨0x501074 + i * 0x100, 0, 32⟩
/-- R402. -/
def ETH_PORT_RXR_BASE (i : Nat) : Fld := ⟨0x501078 + i * 0x100, 12, 20⟩
/-- R402. -/
def ETH_PORT_RXR_BASE_HI (i : Nat) : Fld := ⟨0x50107c + i * 0x100, 0, 24⟩
/-- R402. -/
def ETH_PORT_RXR_CI_ADDR (i : Nat) : Fld := ⟨0x501080 + i * 0x100, 2, 30⟩
/-- R402. -/
def ETH_PORT_RXR_CI_ADDR_HI (i : Nat) : Fld := ⟨0x501084 + i * 0x100, 0, 24⟩
/-- R402. -/
def ETH_PORT_RXR_LOG2 (i : Nat) : Fld := ⟨0x501088 + i * 0x100, 0, 5⟩
/-- R402. -/
def ETH_PORT_RXB_BASE (i : Nat) : Fld := ⟨0x50108c + i * 0x100, 12, 20⟩
/-- R402. -/
def ETH_PORT_RXB_BASE_HI (i : Nat) : Fld := ⟨0x501090 + i * 0x100, 0, 24⟩
/-- R402. -/
def ETH_PORT_RXR_PI (i : Nat) : Fld := ⟨0x501094 + i * 0x100, 0, 32⟩
/-- R402. -/
def ETH_PORT_POLL_NS (i : Nat) : Fld := ⟨0x501098 + i * 0x100, 0, 20⟩
/-- R402. -/
def ETH_PORT_ATTN (i : Nat) : Fld := ⟨0x5010a0 + i * 0x100, 0, 5⟩
/-- R402. -/
def ETH_TPL_LEN (i : Nat) : Fld := ⟨0x520000 + i * 0x100, 0, 7⟩
/-- R402. -/
def ETH_TPL_ECPRI_OFS (i : Nat) : Fld := ⟨0x520000 + i * 0x100, 8, 8⟩
/-- R402. -/
def ETH_TPL_SECT_OFS (i : Nat) : Fld := ⟨0x520000 + i * 0x100, 16, 8⟩
/-- R402. -/
def ETH_TPL_UDCOMP (i : Nat) : Fld := ⟨0x520000 + i * 0x100, 24, 1⟩
/-- R402. -/
def ETH_TPL_FUNC (i : Nat) : Fld := ⟨0x520000 + i * 0x100, 25, 6⟩
/-- R402. -/
def ETH_TPL_SECURE (i : Nat) : Fld := ⟨0x520000 + i * 0x100, 31, 1⟩
/-- R402. -/
def ETH_TPL_PATCH_OFS (i f : Nat) : Fld := ⟨0x520004 + i * 0x100, 8 * f, 8⟩
/-- R402. -/
def ETH_TPL_MASK01 (i : Nat) : Fld := ⟨0x520008 + i * 0x100, 0, 32⟩
/-- R402. -/
def ETH_TPL_MASK23 (i : Nat) : Fld := ⟨0x52000c + i * 0x100, 0, 32⟩
/-- R402. -/
def ETH_TPL_SEQ (i : Nat) : Fld := ⟨0x520010 + i * 0x100, 0, 8⟩
/-- R402. -/
def ETH_TPL_HDR (i j : Nat) : Fld := ⟨0x520080 + i * 0x100 + j * 0x4, 0, 32⟩
/-- R402. -/
def ETH_DFE_TX_TEMPLATE (i : Nat) : Fld := ⟨0x530000 + i * 0x4, 0, 8⟩
/-- R402. -/
def ETH_DFE_TX_QUEUE (i : Nat) : Fld := ⟨0x530000 + i * 0x4, 8, 3⟩
/-- R402. -/
def ETH_STEER_EN (i : Nat) : Fld := ⟨0x540000 + i * 0x40, 0, 1⟩
/-- R402. -/
def ETH_STEER_PORT (i : Nat) : Fld := ⟨0x540000 + i * 0x40, 1, 4⟩
/-- R402. -/
def ETH_STEER_TARGET (i : Nat) : Fld := ⟨0x540000 + i * 0x40, 5, 1⟩
/-- R402. -/
def ETH_STEER_UDCOMP (i : Nat) : Fld := ⟨0x540000 + i * 0x40, 6, 1⟩
/-- R402. -/
def ETH_STEER_SECURE (i : Nat) : Fld := ⟨0x540000 + i * 0x40, 7, 1⟩
/-- R402. -/
def ETH_STEER_PC_ID (i : Nat) : Fld := ⟨0x540000 + i * 0x40, 8, 16⟩
/-- R402. -/
def ETH_STEER_MU (i : Nat) : Fld := ⟨0x540004 + i * 0x40, 0, 3⟩
/-- R402. -/
def ETH_STEER_WIDTH (i : Nat) : Fld := ⟨0x540004 + i * 0x40, 4, 4⟩
/-- R402. -/
def ETH_STEER_NSLOT (i : Nat) : Fld := ⟨0x540004 + i * 0x40, 8, 8⟩
/-- R402. -/
def ETH_STEER_SLOT_BYTES (i : Nat) : Fld := ⟨0x540004 + i * 0x40, 16, 14⟩
/-- R402. -/
def ETH_STEER_BUF_BASE (i : Nat) : Fld := ⟨0x540008 + i * 0x40, 3, 29⟩
/-- R402. -/
def ETH_STEER_BUF_BASE_HI (i : Nat) : Fld := ⟨0x54000c + i * 0x40, 0, 24⟩
/-- R402. -/
def ETH_STEER_BRX (i : Nat) : Fld := ⟨0x540010 + i * 0x40, 0, 4⟩
/-- R402. -/
def ETH_STEER_SLOT (i : Nat) : Fld := ⟨0x540010 + i * 0x40, 4, 5⟩
/-- R402. -/
def ETH_STEER_ANT (i : Nat) : Fld := ⟨0x540010 + i * 0x40, 9, 6⟩
/-- R402. -/
def ETH_STEER_FRAMES (i : Nat) : Fld := ⟨0x540014 + i * 0x40, 0, 32⟩
/-- R402. -/
def ETH_STEER_SEQ_GAPS (i : Nat) : Fld := ⟨0x540018 + i * 0x40, 0, 32⟩
/-- R402. -/
def ETH_STEER_LATE (i : Nat) : Fld := ⟨0x54001c + i * 0x40, 0, 32⟩
/-- R402. -/
def ETH_STEER_BAD (i : Nat) : Fld := ⟨0x540020 + i * 0x40, 0, 32⟩
/-- R402. -/
def ETH_STEER_NEWEST (i : Nat) : Fld := ⟨0x540024 + i * 0x40, 0, 32⟩
/-- R435. -/
def SEC_STATUS_CABINET_OK : Fld := ⟨0x1000000, 0, 1⟩
/-- R435. -/
def SEC_STATUS_OWNER_LOCKED : Fld := ⟨0x1000000, 1, 1⟩
/-- R435. -/
def SEC_STATUS_DEBUG_NS : Fld := ⟨0x1000000, 2, 1⟩
/-- R435. -/
def SEC_STATUS_DEBUG_S : Fld := ⟨0x1000000, 3, 1⟩
/-- R435. -/
def SEC_STATUS_HBM_KEY_OK : Fld := ⟨0x1000000, 4, 1⟩
/-- R435. -/
def SEC_STATUS_LOADED : Fld := ⟨0x1000000, 8, 9⟩
/-- R435. -/
def SEC_FAULT_LIMIT_COUNT : Fld := ⟨0x1000004, 0, 4⟩
/-- R435. -/
def SEC_FAULT_LIMIT_WINDOW_MS : Fld := ⟨0x1000004, 16, 14⟩
/-- R435. -/
def SEC_REGION_CMD_KIND : Fld := ⟨0x1000008, 0, 2⟩
/-- R435. -/
def SEC_REGION_CMD_STACK : Fld := ⟨0x1000008, 2, 1⟩
/-- R435. -/
def SEC_REGION_CMD_INDEX : Fld := ⟨0x1000008, 4, 15⟩
/-- R435. -/
def SEC_REGION_CMD_WORLD : Fld := ⟨0x1000008, 20, 1⟩
/-- R435. -/
def SEC_REGION_CMD_GO : Fld := ⟨0x1000008, 31, 1⟩
/-- R435. -/
def SEC_REGION_STATUS_BUSY : Fld := ⟨0x100000c, 0, 1⟩
/-- R435. -/
def SEC_REGION_STATUS_BAD : Fld := ⟨0x100000c, 1, 1⟩
/-- R435. -/
def SEC_VIOL_ADDR : Fld := ⟨0x1000010, 0, 32⟩
/-- R435. -/
def SEC_VIOL_ADDR_HI : Fld := ⟨0x1000014, 0, 24⟩
/-- R435. -/
def SEC_VIOL_EP : Fld := ⟨0x1000018, 0, 7⟩
/-- R435. -/
def SEC_VIOL_FUNC : Fld := ⟨0x1000018, 8, 6⟩
/-- R435. -/
def SEC_VIOL_FUNC_VALID : Fld := ⟨0x1000018, 14, 1⟩
/-- R435. -/
def SEC_VIOL_WRITE : Fld := ⟨0x1000018, 15, 1⟩
/-- R435. -/
def SEC_VIOL_REG : Fld := ⟨0x1000018, 16, 1⟩
/-- R435. -/
def SEC_VIOL_VALID : Fld := ⟨0x1000018, 31, 1⟩
/-- R435. -/
def SEC_VIOL_TIME : Fld := ⟨0x100001c, 0, 32⟩
/-- R435. -/
def SEC_VIOL_TIME_HI : Fld := ⟨0x1000020, 0, 32⟩
/-- R435. -/
def SEC_VIOL_COUNT : Fld := ⟨0x1000024, 0, 32⟩
/-- R435. -/
def SEC_SVN_COMMIT_TYPE : Fld := ⟨0x1000028, 0, 2⟩
/-- R435. -/
def SEC_SVN_COMMIT_GO : Fld := ⟨0x1000028, 8, 1⟩
/-- R435. -/
def SEC_SVN_FUSED_SS : Fld := ⟨0x100002c, 0, 7⟩
/-- R435. -/
def SEC_SVN_FUSED_NS : Fld := ⟨0x100002c, 8, 7⟩
/-- R435. -/
def SEC_SVN_RUN_SS : Fld := ⟨0x100002c, 16, 7⟩
/-- R435. -/
def SEC_SVN_RUN_NS : Fld := ⟨0x100002c, 24, 7⟩
/-- R435. -/
def SEC_KEYSLOT_REVOKED : Fld := ⟨0x1000030, 0, 4⟩
/-- R435. -/
def SEC_DEBUG_CHALLENGE (i : Nat) : Fld := ⟨0x1000040 + i * 0x4, 0, 32⟩
/-- R435. -/
def SEC_DEBUG_NS_OPEN : Fld := ⟨0x1000060, 0, 1⟩
/-- R435. -/
def SEC_DEBUG_S_OPEN : Fld := ⟨0x1000060, 1, 1⟩
/-- R435. -/
def SEC_DEBUG_TOKEN_RESULT : Fld := ⟨0x1000060, 8, 8⟩
/-- R435. -/
def SEC_RGN_ERG (i : Nat) : Fld := ⟨0x1000100 + i * 0x4, 0, 32⟩
/-- R435. -/
def SEC_RGN_MESA (i : Nat) : Fld := ⟨0x1000110 + i * 0x4, 0, 32⟩
/-- R435. -/
def SEC_RGN_ACCEL : Fld := ⟨0x100011c, 0, 20⟩
/-- R435. -/
def SEC_QW_BASE (i : Nat) : Fld := ⟨0x1000200 + i * 0x20, 3, 29⟩
/-- R435. -/
def SEC_QW_LEN (i : Nat) : Fld := ⟨0x1000204 + i * 0x20, 0, 19⟩
/-- R435. -/
def SEC_QW_DESK (i : Nat) : Fld := ⟨0x1000208 + i * 0x20, 0, 6⟩
/-- R435. -/
def SEC_QW_WORLD (i : Nat) : Fld := ⟨0x1000208 + i * 0x20, 6, 1⟩
/-- R435. -/
def SEC_QW_EN (i : Nat) : Fld := ⟨0x1000208 + i * 0x20, 7, 1⟩
/-- R435. -/
def SEC_QW_STATE (i : Nat) : Fld := ⟨0x100020c + i * 0x20, 0, 2⟩
/-- R435. -/
def SEC_QW_TAG_FAILS (i : Nat) : Fld := ⟨0x1000210 + i * 0x20, 0, 32⟩
/-- R435. -/
def SEC_RGN_HBM (i j : Nat) : Fld := ⟨0x1001000 + i * 0x1000 + j * 0x4, 0, 32⟩
/-- R436. -/
def CIPH_DESK_GRANT (i j : Nat) : Fld := ⟨0x1100000 + i * 0x1000 + j * 0x4, 0, 32⟩
/-- R436. -/
def CIPH_DESK_JOBS (i : Nat) : Fld := ⟨0x1100020 + i * 0x1000, 0, 32⟩
/-- R436. -/
def CIPH_DESK_TAG_FAILS (i : Nat) : Fld := ⟨0x1100024 + i * 0x1000, 0, 16⟩
/-- R436. -/
def CIPH_DESK_FAULTS (i : Nat) : Fld := ⟨0x1100024 + i * 0x1000, 16, 16⟩
/-- R436. -/
def CIPH_DESK_WORLD_VIOLS (i : Nat) : Fld := ⟨0x1100028 + i * 0x1000, 0, 16⟩
/-- R436. -/
def CIPH_DESK_ATTN (i : Nat) : Fld := ⟨0x110002c + i * 0x1000, 0, 5⟩
/-- R436. -/
def CIPH_DESK_KCMD_OP (i : Nat) : Fld := ⟨0x1100100 + i * 0x1000, 0, 3⟩
/-- R436. -/
def CIPH_DESK_KCMD_DRAWER (i : Nat) : Fld := ⟨0x1100100 + i * 0x1000, 8, 8⟩
/-- R436. -/
def CIPH_DESK_KCMD_KEK (i : Nat) : Fld := ⟨0x1100100 + i * 0x1000, 16, 8⟩
/-- R436. -/
def CIPH_DESK_KCMD_KEK_ROOT (i : Nat) : Fld := ⟨0x1100100 + i * 0x1000, 24, 1⟩
/-- R436. -/
def CIPH_DESK_KCMD_KW_256 (i : Nat) : Fld := ⟨0x1100100 + i * 0x1000, 25, 1⟩
/-- R436. -/
def CIPH_DESK_KCMD_TARGET_DESK (i : Nat) : Fld := ⟨0x1100104 + i * 0x1000, 0, 6⟩
/-- R436. -/
def CIPH_DESK_KCMD_ADDR (i : Nat) : Fld := ⟨0x1100108 + i * 0x1000, 3, 29⟩
/-- R436. -/
def CIPH_DESK_KCMD_ADDR_HI (i : Nat) : Fld := ⟨0x110010c + i * 0x1000, 0, 24⟩
/-- R436. -/
def CIPH_DESK_KCMD_GO (i : Nat) : Fld := ⟨0x1100110 + i * 0x1000, 0, 1⟩
/-- R436. -/
def CIPH_DESK_KCMD_BUSY (i : Nat) : Fld := ⟨0x1100114 + i * 0x1000, 0, 1⟩
/-- R436. -/
def CIPH_DESK_KCMD_RESULT (i : Nat) : Fld := ⟨0x1100114 + i * 0x1000, 8, 8⟩
/-- R436. -/
def CIPH_DESK_KCMD_KEY_ID (i : Nat) : Fld := ⟨0x1100118 + i * 0x1000, 0, 32⟩
/-- R437. -/
def CIPH_CTL : Fld := ⟨0x1140000, 0, 32⟩
/-- R437. -/
def CIPH_QUEUED : Fld := ⟨0x1140004, 0, 9⟩
/-- R437. -/
def CIPH_BUSY_AES : Fld := ⟨0x1140008, 0, 16⟩
/-- R437. -/
def CIPH_BUSY_SNOW : Fld := ⟨0x1140008, 16, 4⟩
/-- R437. -/
def CIPH_BUSY_ZUC : Fld := ⟨0x1140008, 20, 4⟩
/-- R437. -/
def CIPH_HOLD_FREE : Fld := ⟨0x114000c, 0, 3⟩
/-- R437. -/
def CIPH_FAULTS : Fld := ⟨0x1140010, 0, 32⟩
/-- R437. -/
def CIPH_ATTN : Fld := ⟨0x1140014, 0, 3⟩
/-- R437. -/
def CIPH_DESK_ATTN_SUM_LO : Fld := ⟨0x1140018, 0, 32⟩
/-- R437. -/
def CIPH_DESK_ATTN_SUM_HI : Fld := ⟨0x114001c, 0, 32⟩
/-- R437. -/
def MS_SUITE (i : Nat) : Fld := ⟨0x1150000 + i * 0x400, 0, 2⟩
/-- R437. -/
def MS_TX_AN (i : Nat) : Fld := ⟨0x1150000 + i * 0x400, 4, 2⟩
/-- R437. -/
def MS_REPLAY_PROTECT (i : Nat) : Fld := ⟨0x1150000 + i * 0x400, 8, 1⟩
/-- R437. -/
def MS_SCI (i : Nat) : Fld := ⟨0x1150004 + i * 0x400, 0, 32⟩
/-- R437. -/
def MS_SCI_HI (i : Nat) : Fld := ⟨0x1150008 + i * 0x400, 0, 32⟩
/-- R437. -/
def MS_REPLAY_WINDOW (i : Nat) : Fld := ⟨0x115000c + i * 0x400, 0, 32⟩
/-- R437. -/
def MS_ATTN (i : Nat) : Fld := ⟨0x1150010 + i * 0x400, 0, 2⟩
/-- R437. -/
def MS_EXEMPT_ETYPE (i j : Nat) : Fld := ⟨0x1150020 + i * 0x400 + j * 0x4, 0, 16⟩
/-- R437. -/
def MS_EXEMPT_EN (i j : Nat) : Fld := ⟨0x1150020 + i * 0x400 + j * 0x4, 16, 1⟩
/-- R437. -/
def MS_RX_OK (i : Nat) : Fld := ⟨0x1150030 + i * 0x400, 0, 32⟩
/-- R437. -/
def MS_RX_ICV_FAIL (i : Nat) : Fld := ⟨0x1150034 + i * 0x400, 0, 32⟩
/-- R437. -/
def MS_RX_REPLAY (i : Nat) : Fld := ⟨0x1150038 + i * 0x400, 0, 32⟩
/-- R437. -/
def MS_RX_NO_SA (i : Nat) : Fld := ⟨0x115003c + i * 0x400, 0, 32⟩
/-- R465. -/
def PWR_REQ_TARGET : Fld := ⟨0x300000, 0, 3⟩
/-- R465. -/
def PWR_STATUS_STATE : Fld := ⟨0x300004, 0, 3⟩
/-- R465. -/
def PWR_STATUS_TARGET : Fld := ⟨0x300004, 4, 3⟩
/-- R465. -/
def PWR_STATUS_IN_PROGRESS : Fld := ⟨0x300004, 8, 1⟩
/-- R465. -/
def PWR_STATUS_PENDING : Fld := ⟨0x300004, 9, 1⟩
/-- R465. -/
def PWR_STATUS_HELD : Fld := ⟨0x300004, 10, 1⟩
/-- R465. -/
def PWR_STATUS_PENDING_TARGET : Fld := ⟨0x300004, 12, 3⟩
/-- R465. -/
def PWR_STATUS_REPLACED : Fld := ⟨0x300004, 16, 16⟩
/-- R465. -/
def PWR_STATUS2_MERGED : Fld := ⟨0x300008, 0, 16⟩
/-- R465. -/
def PWR_STATUS2_LAST_CAUSE : Fld := ⟨0x300008, 16, 3⟩
/-- R465. -/
def PWR_DRAIN_US : Fld := ⟨0x30000c, 0, 20⟩
/-- R465. -/
def PWR_WAKE_EN : Fld := ⟨0x300010, 0, 5⟩
/-- R465. -/
def PWR_WAKE_GPIO : Fld := ⟨0x300014, 0, 32⟩
/-- R465. -/
def PWR_WAKE_REC_SOURCE : Fld := ⟨0x300018, 0, 4⟩
/-- R465. -/
def PWR_WAKE_REC_LOST_EDGES : Fld := ⟨0x300018, 16, 16⟩
/-- R465. -/
def PWR_WAKE_REC_TIME : Fld := ⟨0x30001c, 0, 32⟩
/-- R465. -/
def PWR_WAKE_REC_TIME_HI : Fld := ⟨0x300020, 0, 32⟩
/-- R465. -/
def PWR_WAKE_TIMER_AT : Fld := ⟨0x300024, 0, 32⟩
/-- R465. -/
def PWR_WAKE_TIMER_AT_HI : Fld := ⟨0x300028, 0, 32⟩
/-- R465. -/
def PWR_WAKE_TIMER_EN : Fld := ⟨0x30002c, 0, 1⟩
/-- R465. -/
def PWR_SUPPLY_ON_BAK : Fld := ⟨0x300030, 0, 1⟩
/-- R465. -/
def PWR_SUPPLY_VAON_MAIN_OK : Fld := ⟨0x300030, 1, 1⟩
/-- R465. -/
def PWR_SUPPLY_VAON_BAK_OK : Fld := ⟨0x300030, 2, 1⟩
/-- R465. -/
def PWR_SUPPLY_PWR_GOOD : Fld := ⟨0x300030, 3, 1⟩
/-- R465. -/
def PWR_SUPPLY_BROWNOUT : Fld := ⟨0x300030, 4, 1⟩
/-- R465. -/
def PWR_SUPPLY_POWER_FAIL : Fld := ⟨0x300030, 5, 1⟩
/-- R465. -/
def PWR_SUPPLY_TRIP : Fld := ⟨0x300030, 6, 1⟩
/-- R465. -/
def PWR_CHG_EN : Fld := ⟨0x300034, 0, 1⟩
/-- R465. -/
def PWR_CHG_V27 : Fld := ⟨0x300034, 1, 1⟩
/-- R465. -/
def PWR_CHG_I_SET : Fld := ⟨0x300034, 4, 4⟩
/-- R465. -/
def PWR_CHG_TIMEOUT_S : Fld := ⟨0x300034, 8, 16⟩
/-- R465. -/
def PWR_CHG_STATUS_STATE : Fld := ⟨0x300038, 0, 2⟩
/-- R465. -/
def PWR_CHG_STATUS_CAUSE : Fld := ⟨0x300038, 2, 3⟩
/-- R465. -/
def PWR_THERM_HOTTEST : Fld := ⟨0x300040, 0, 16⟩
/-- R465. -/
def PWR_THERM_HOT_SENSOR : Fld := ⟨0x300040, 16, 5⟩
/-- R465. -/
def PWR_THERM_WARN : Fld := ⟨0x300040, 24, 1⟩
/-- R465. -/
def PWR_THERM_THROTTLE : Fld := ⟨0x300040, 25, 1⟩
/-- R465. -/
def PWR_THERM_CRIT : Fld := ⟨0x300040, 26, 1⟩
/-- R465. -/
def PWR_THERM_HBM_WARN : Fld := ⟨0x300040, 27, 1⟩
/-- R465. -/
def PWR_THERM_HBM_THROTTLE : Fld := ⟨0x300040, 28, 1⟩
/-- R465. -/
def PWR_THERM_HBM_CRIT : Fld := ⟨0x300040, 29, 1⟩
/-- R465. -/
def PWR_THERM_FIRST_ROUND : Fld := ⟨0x300040, 30, 1⟩
/-- R465. -/
def PWR_THERM_FUSE_OK : Fld := ⟨0x300040, 31, 1⟩
/-- R465. -/
def PWR_THERM_ROUNDS : Fld := ⟨0x300044, 0, 32⟩
/-- R465. -/
def PWR_THROTTLE_PRIO : Fld := ⟨0x300048, 0, 6⟩
/-- R465. -/
def PWR_ATTN : Fld := ⟨0x30004c, 0, 6⟩
/-- R465. -/
def PWR_DOM_REQ (i : Nat) : Fld := ⟨0x300100 + i * 0x10, 0, 2⟩
/-- R465. -/
def PWR_DOM_STATE (i : Nat) : Fld := ⟨0x300100 + i * 0x10, 4, 2⟩
/-- R465. -/
def PWR_DOM_BUSY (i : Nat) : Fld := ⟨0x300100 + i * 0x10, 8, 1⟩
/-- R465. -/
def PWR_CHEST_KEEP : Fld := ⟨0x300300, 0, 8⟩
/-- R465. -/
def PWR_CHEST_RETAIN_LOST : Fld := ⟨0x300300, 8, 8⟩
/-- R465. -/
def PWR_CHEST_MON_FLAG : Fld := ⟨0x300300, 16, 8⟩
/-- R465. -/
def PWR_CHEST_SIG_TAKEN : Fld := ⟨0x300300, 24, 8⟩
/-- R465. -/
def PWR_HK_VALUE (i : Nat) : Fld := ⟨0x300800 + i * 0x4, 0, 16⟩
/-- R465. -/
def PWR_HK_FAULT (i : Nat) : Fld := ⟨0x300800 + i * 0x4, 16, 1⟩
/-- R465. -/
def PWR_HK_MASK (i : Nat) : Fld := ⟨0x300800 + i * 0x4, 17, 1⟩
/-- R465. -/
def PWR_HK_CAUSE (i : Nat) : Fld := ⟨0x300800 + i * 0x4, 18, 2⟩
/-- R484. -/
def GLB_ID_REV : Fld := ⟨0x0, 0, 4⟩
/-- R484. -/
def GLB_ID_PART : Fld := ⟨0x0, 4, 16⟩
/-- R484. -/
def GLB_ID_DEVID : Fld := ⟨0x0, 20, 2⟩
/-- R484. -/
def GLB_BOOT_STAGE : Fld := ⟨0x4, 0, 4⟩
/-- R484. -/
def GLB_BOOT_SS_SOURCE : Fld := ⟨0x4, 4, 3⟩
/-- R484. -/
def GLB_BOOT_NS_SOURCE : Fld := ⟨0x4, 8, 3⟩
/-- R484. -/
def GLB_BOOT_ERROR : Fld := ⟨0x4, 16, 8⟩
/-- R484. -/
def GLB_RESET_CAUSE : Fld := ⟨0x8, 0, 4⟩
/-- R484. -/
def GLB_RESET_WARM : Fld := ⟨0x8, 8, 1⟩
/-- R484. -/
def GLB_READY_TIME : Fld := ⟨0xc, 0, 32⟩
/-- R484. -/
def GLB_READY_TIME_HI : Fld := ⟨0x10, 0, 32⟩
/-- R484. -/
def GLB_BOOT_HOST_LEN : Fld := ⟨0x20, 0, 23⟩
/-- R484. -/
def GLB_BOOT_HOST_GO : Fld := ⟨0x24, 0, 1⟩
/-- R484. -/
def GLB_BOOT_REJECT (i : Nat) : Fld := ⟨0x40 + i * 0x4, 0, 8⟩
/-- R484. -/
def GLB_CFG_REJECT_ADDR : Fld := ⟨0x80, 0, 26⟩
/-- R484. -/
def GLB_CFG_REJECT_FUNC : Fld := ⟨0x84, 0, 6⟩
/-- R484. -/
def GLB_CFG_REJECT_STEWARD : Fld := ⟨0x84, 6, 1⟩
/-- R484. -/
def GLB_CFG_REJECT_VALID : Fld := ⟨0x84, 31, 1⟩
/-- R484. -/
def GLB_CFG_REJECT_COUNT : Fld := ⟨0x88, 0, 32⟩
/-- R484. -/
def GLB_PCIE_SPEED : Fld := ⟨0x200, 0, 4⟩
/-- R484. -/
def GLB_PCIE_WIDTH : Fld := ⟨0x200, 4, 5⟩
/-- R484. -/
def GLB_PCIE_L12 : Fld := ⟨0x200, 9, 1⟩
/-- R484. -/
def GLB_PCIE_ATTN : Fld := ⟨0x204, 0, 2⟩
/-- R485. -/
def STW_MB_DATA (i j : Nat) : Fld := ⟨0x1300000 + i * 0x1000 + j * 0x4, 0, 32⟩
/-- R485. -/
def STW_MB_SEND (i : Nat) : Fld := ⟨0x1300100 + i * 0x1000, 0, 1⟩
/-- R485. -/
def STW_MB_BUSY (i : Nat) : Fld := ⟨0x1300104 + i * 0x1000, 0, 1⟩
/-- R485. -/
def STW_MB_DONE (i : Nat) : Fld := ⟨0x1300104 + i * 0x1000, 1, 1⟩
/-- R485. -/
def STW_MB_RESULT (i : Nat) : Fld := ⟨0x1300104 + i * 0x1000, 8, 8⟩
/-- R485. -/
def STW_MB_ATTN_DONE (i : Nat) : Fld := ⟨0x1300108 + i * 0x1000, 0, 1⟩
/-- R485. -/
def STW_WDOG_SS_MS : Fld := ⟨0x1302000, 0, 16⟩
/-- R485. -/
def STW_WDOG_NS_MS : Fld := ⟨0x1302000, 16, 16⟩
/-- R485. -/
def STW_STATE_SS_RUN : Fld := ⟨0x1302004, 0, 1⟩
/-- R485. -/
def STW_STATE_NS_RUN : Fld := ⟨0x1302004, 1, 1⟩
/-- R485. -/
def STW_STATE_NS_RESTARTS : Fld := ⟨0x1302004, 16, 16⟩
/-- R486. -/
def EVT_LOG_HEAD : Fld := ⟨0x200000, 0, 32⟩
/-- R486. -/
def EVT_LOG_DROPS : Fld := ⟨0x200004, 0, 32⟩
/-- R486. -/
def EVT_BAD_TARGET : Fld := ⟨0x200008, 0, 32⟩
/-- R486. -/
def EVT_LOG_SEL : Fld := ⟨0x200010, 0, 32⟩
/-- R486. -/
def EVT_LOG_ENTRY (i : Nat) : Fld := ⟨0x200014 + i * 0x4, 0, 32⟩
/-- R486. -/
def EVT_LOG_ENTRY_VALID : Fld := ⟨0x20002c, 0, 1⟩
/-- R486. -/
def EVT_LATCHED_SUM (i : Nat) : Fld := ⟨0x200040 + i * 0x4, 0, 32⟩
/-- R486. -/
def EVT_SRC_LIVE (i : Nat) : Fld := ⟨0x210000 + i * 0x10, 0, 1⟩
/-- R486. -/
def EVT_SRC_LATCHED (i : Nat) : Fld := ⟨0x210000 + i * 0x10, 1, 1⟩
/-- R486. -/
def EVT_SRC_EN (i : Nat) : Fld := ⟨0x210000 + i * 0x10, 2, 1⟩
/-- R486. -/
def EVT_SRC_WORLD (i : Nat) : Fld := ⟨0x210000 + i * 0x10, 3, 1⟩
/-- R486. -/
def EVT_SRC_TYPE (i : Nat) : Fld := ⟨0x210000 + i * 0x10, 4, 1⟩
/-- R486. -/
def EVT_SRC_LOG (i : Nat) : Fld := ⟨0x210000 + i * 0x10, 5, 1⟩
/-- R486. -/
def EVT_SRC_KIND (i : Nat) : Fld := ⟨0x210004 + i * 0x10, 0, 3⟩
/-- R486. -/
def EVT_SRC_FUNC (i : Nat) : Fld := ⟨0x210004 + i * 0x10, 8, 6⟩
/-- R486. -/
def EVT_SRC_VECTOR (i : Nat) : Fld := ⟨0x210004 + i * 0x10, 16, 11⟩
/-- R486. -/
def EVT_SRC_ENTRY (i : Nat) : Fld := ⟨0x210008 + i * 0x10, 0, 12⟩
/-- R486. -/
def EVT_SRC_COUNT (i : Nat) : Fld := ⟨0x21000c + i * 0x10, 0, 16⟩
/-- R486: the PF has its own block of vectors. -/
def EVT_VEC_MOD_NS (f v : Nat) : Fld := ⟨if f = 0 then 0x220000 + v * 4 else 0x222000 + (f - 1) * 0x100 + v * 4, 0, 20⟩
/-- R486. -/
def EVT_FN_MAP_SOURCE (i j : Nat) : Fld := ⟨0x230000 + i * 0x100 + j * 0x4, 0, 11⟩
/-- R486. -/
def EVT_FN_MAP_VALID (i j : Nat) : Fld := ⟨0x230000 + i * 0x100 + j * 0x4, 31, 1⟩
/-- R437. -/
def MS_TXSA_DRAWER (i j : Nat) : Fld := ⟨0x1150040 + i * 0x400 + j * 0x20, 0, 8⟩
/-- R437. -/
def MS_TXSA_EN (i j : Nat) : Fld := ⟨0x1150040 + i * 0x400 + j * 0x20, 8, 1⟩
/-- R437. -/
def MS_TXSA_PN (i j : Nat) : Fld := ⟨0x1150044 + i * 0x400 + j * 0x20, 0, 32⟩
/-- R437. -/
def MS_TXSA_PN_HI (i j : Nat) : Fld := ⟨0x1150048 + i * 0x400 + j * 0x20, 0, 32⟩
/-- R437. -/
def MS_TXSA_SSCI (i j : Nat) : Fld := ⟨0x115004c + i * 0x400 + j * 0x20, 0, 32⟩
/-- R437. -/
def MS_TXSA_SALT0 (i j : Nat) : Fld := ⟨0x1150050 + i * 0x400 + j * 0x20, 0, 32⟩
/-- R437. -/
def MS_TXSA_SALT1 (i j : Nat) : Fld := ⟨0x1150054 + i * 0x400 + j * 0x20, 0, 32⟩
/-- R437. -/
def MS_TXSA_SALT2 (i j : Nat) : Fld := ⟨0x1150058 + i * 0x400 + j * 0x20, 0, 32⟩
/-- R437. -/
def MS_RXSA_DRAWER (i j k : Nat) : Fld := ⟨0x1150120 + i * 0x400 + j * 0xc0 + k * 0x20, 0, 8⟩
/-- R437. -/
def MS_RXSA_EN (i j k : Nat) : Fld := ⟨0x1150120 + i * 0x400 + j * 0xc0 + k * 0x20, 8, 1⟩
/-- R437. -/
def MS_RXSA_PN (i j k : Nat) : Fld := ⟨0x1150124 + i * 0x400 + j * 0xc0 + k * 0x20, 0, 32⟩
/-- R437. -/
def MS_RXSA_PN_HI (i j k : Nat) : Fld := ⟨0x1150128 + i * 0x400 + j * 0xc0 + k * 0x20, 0, 32⟩
/-- R437. -/
def MS_RXSA_SSCI (i j k : Nat) : Fld := ⟨0x115012c + i * 0x400 + j * 0xc0 + k * 0x20, 0, 32⟩
/-- R437. -/
def MS_RXSA_SALT0 (i j k : Nat) : Fld := ⟨0x1150130 + i * 0x400 + j * 0xc0 + k * 0x20, 0, 32⟩
/-- R437. -/
def MS_RXSA_SALT1 (i j k : Nat) : Fld := ⟨0x1150134 + i * 0x400 + j * 0xc0 + k * 0x20, 0, 32⟩
/-- R437. -/
def MS_RXSA_SALT2 (i j k : Nat) : Fld := ⟨0x1150138 + i * 0x400 + j * 0xc0 + k * 0x20, 0, 32⟩
/-- R437. -/
def MS_RXSC_SCI (i j : Nat) : Fld := ⟨0x1150100 + i * 0x400 + j * 0xc0, 0, 32⟩
/-- R437. -/
def MS_RXSC_SCI_HI (i j : Nat) : Fld := ⟨0x1150104 + i * 0x400 + j * 0xc0, 0, 32⟩
/-- R437. -/
def MS_RXSC_EN (i j : Nat) : Fld := ⟨0x1150108 + i * 0x400 + j * 0xc0, 0, 1⟩
/-- R486. -/
def EVT_VEC_DEFERRED (f v : Nat) : Fld := ⟨if f = 0 then 0x220000 + v * 4 else 0x222000 + (f - 1) * 0x100 + v * 4, 31, 1⟩

end Reg

end Sys2Proof.Machine
end

