-- ==== Sys2Proof/Machine/RegMap.lean ====
section
/-! DEFINITION. The register map as data: for each word (or array of words) of the manual's register tables, its PF BAR0
offset, the array's strides, the control register of the function that owns its RWS fields, its reset value and its
fields with their access codes (R8, R10, R50). A word that no row lists is reserved (R11). -/

namespace Sys2Proof.Machine

/-- R8, with two additions: `ctl` marks a function control register (R50) and `row` a field whose write is a command of
its own in the table of operations, which a plain register write leaves alone. -/
inductive Access where
  | rw | ro | w1c | wo | rws | rwl | ctl | row
  deriving DecidableEq, Repr

/-- A field of a word: low bit, width, access code, and whether it is marked (S) (R10). -/
structure FieldSpec where
  lo : Nat
  w : Nat
  acc : Access
  sec : Bool
  deriving DecidableEq, Repr

/-- One index of an array of words: how many instances, the stride of the words, and the stride of the owning
function's control register. -/
structure Dim where
  count : Nat
  stride : Nat
  ownStride : Nat
  deriving DecidableEq, Repr

/-- A word or array of words of the map. `own` is the control register of the owning function of its RWS fields for
instance 0, or 0 where the word has no RWS field. -/
structure WordSpec where
  base : Nat
  dims : List Dim
  own : Nat
  reset : Nat
  fields : List FieldSpec
  deriving DecidableEq, Repr

namespace RegTable

/-- The register words of R484, part 0. -/
def wordsR484_0 : List WordSpec := [
  ⟨0x0, [], 0x0, 0x96122, [⟨0, 4, .ro, false⟩, ⟨4, 16, .ro, false⟩, ⟨20, 2, .ro, false⟩]⟩,
  ⟨0x4, [], 0x0, 0x0, [⟨0, 4, .ro, false⟩, ⟨4, 3, .ro, false⟩, ⟨8, 3, .ro, false⟩, ⟨16, 8, .ro, false⟩]⟩,
  ⟨0x8, [], 0x0, 0x0, [⟨0, 4, .ro, false⟩, ⟨8, 1, .row, true⟩]⟩,
  ⟨0xc, [], 0x0, 0x0, [⟨0, 32, .ro, false⟩]⟩,
  ⟨0x10, [], 0x0, 0x0, [⟨0, 32, .ro, false⟩]⟩,
  ⟨0x20, [], 0x0, 0x0, [⟨0, 23, .rw, false⟩]⟩,
  ⟨0x24, [], 0x0, 0x0, [⟨0, 1, .row, false⟩]⟩,
  ⟨0x40, [⟨4, 0x4, 0x0⟩], 0x0, 0x0, [⟨0, 8, .ro, false⟩]⟩,
  ⟨0x80, [], 0x0, 0x0, [⟨0, 26, .ro, false⟩]⟩,
  ⟨0x84, [], 0x0, 0x0, [⟨0, 6, .ro, false⟩, ⟨6, 1, .ro, false⟩, ⟨31, 1, .w1c, false⟩]⟩,
  ⟨0x88, [], 0x0, 0x0, [⟨0, 32, .ro, false⟩]⟩,
  ⟨0x200, [], 0x0, 0x0, [⟨0, 4, .ro, false⟩, ⟨4, 5, .ro, false⟩, ⟨9, 1, .ro, false⟩]⟩,
  ⟨0x204, [], 0x0, 0x0, [⟨0, 2, .w1c, false⟩]⟩]

/-- The register words of R98, part 0. -/
def wordsR98_0 : List WordSpec := [
  ⟨0x100, [], 0x0, 0x10, [⟨0, 31, .rw, false⟩]⟩,
  ⟨0x104, [], 0x0, 0x0, [⟨0, 1, .ro, false⟩]⟩]

/-- The register words of R83, part 0. -/
def wordsR83_0 : List WordSpec := [
  ⟨0x100000, [], 0x0, 0x0, [⟨0, 32, .ctl, false⟩]⟩,
  ⟨0x100004, [], 0x100000, 0xf0, [⟨0, 1, .rws, false⟩, ⟨4, 4, .rws, false⟩]⟩,
  ⟨0x100008, [], 0x100000, 0x3e8, [⟨0, 20, .rws, false⟩]⟩,
  ⟨0x10000c, [], 0x100000, 0x64, [⟨0, 20, .rws, false⟩]⟩,
  ⟨0x100010, [], 0x100000, 0x0, [⟨5, 27, .rws, false⟩]⟩,
  ⟨0x100014, [], 0x100000, 0x0, [⟨0, 21, .rws, false⟩]⟩,
  ⟨0x100018, [], 0x100000, 0x0, [⟨10, 22, .rws, false⟩]⟩,
  ⟨0x10001c, [], 0x100000, 0x0, [⟨0, 21, .rws, false⟩]⟩,
  ⟨0x100020, [], 0x0, 0x0, [⟨0, 1, .rw, false⟩]⟩,
  ⟨0x100024, [], 0x0, 0x1000, [⟨0, 13, .rw, false⟩]⟩,
  ⟨0x100028, [], 0x0, 0x0, [⟨0, 13, .ro, false⟩]⟩,
  ⟨0x100030, [], 0x0, 0x0, [⟨0, 32, .ro, false⟩]⟩,
  ⟨0x100034, [], 0x0, 0x0, [⟨0, 32, .ro, false⟩]⟩,
  ⟨0x100038, [], 0x0, 0x0, [⟨0, 32, .ro, false⟩]⟩,
  ⟨0x100400, [⟨64, 0x10, 0x0⟩], 0x0, 0x1000, [⟨0, 13, .rw, false⟩]⟩,
  ⟨0x100404, [⟨64, 0x10, 0x0⟩], 0x0, 0x0, [⟨0, 13, .ro, false⟩]⟩,
  ⟨0x110000, [⟨256, 0x40, 0x0⟩], 0x0, 0x0, [⟨0, 32, .ctl, false⟩]⟩,
  ⟨0x110004, [⟨256, 0x40, 0x40⟩], 0x110000, 0x0, [⟨0, 6, .rws, false⟩, ⟨6, 1, .rws, true⟩, ⟨8, 5, .rws, false⟩, ⟨16, 8, .rws, false⟩]⟩,
  ⟨0x110008, [⟨256, 0x40, 0x40⟩], 0x110000, 0x0, [⟨12, 20, .rws, false⟩]⟩,
  ⟨0x11000c, [⟨256, 0x40, 0x40⟩], 0x110000, 0x0, [⟨0, 21, .rws, false⟩]⟩,
  ⟨0x110010, [⟨256, 0x40, 0x40⟩], 0x110000, 0x0, [⟨2, 30, .rws, false⟩]⟩,
  ⟨0x110014, [⟨256, 0x40, 0x40⟩], 0x110000, 0x0, [⟨0, 21, .rws, false⟩]⟩,
  ⟨0x110018, [⟨256, 0x40, 0x40⟩], 0x110000, 0x0, [⟨2, 30, .rws, false⟩]⟩,
  ⟨0x11001c, [⟨256, 0x40, 0x40⟩], 0x110000, 0x0, [⟨0, 21, .rws, false⟩]⟩,
  ⟨0x110020, [⟨256, 0x40, 0x0⟩], 0x0, 0x0, [⟨0, 32, .ro, false⟩]⟩,
  ⟨0x110024, [⟨256, 0x40, 0x40⟩], 0x110000, 0x0, [⟨0, 32, .rws, false⟩]⟩,
  ⟨0x110028, [⟨256, 0x40, 0x0⟩], 0x0, 0x0, [⟨0, 13, .ro, false⟩]⟩,
  ⟨0x11002c, [⟨256, 0x40, 0x0⟩], 0x0, 0x0, [⟨0, 1, .w1c, false⟩, ⟨1, 1, .w1c, false⟩]⟩,
  ⟨0x120000, [⟨256, 0x40, 0x0⟩], 0x0, 0x0, [⟨0, 32, .ctl, false⟩]⟩,
  ⟨0x120004, [⟨256, 0x40, 0x40⟩], 0x120000, 0x0, [⟨0, 6, .rws, false⟩, ⟨8, 5, .rws, false⟩]⟩]

/-- The register words of R83, part 1. -/
def wordsR83_1 : List WordSpec := [
  ⟨0x120008, [⟨256, 0x40, 0x40⟩], 0x120000, 0x0, [⟨12, 20, .rws, false⟩]⟩,
  ⟨0x12000c, [⟨256, 0x40, 0x40⟩], 0x120000, 0x0, [⟨0, 21, .rws, false⟩]⟩,
  ⟨0x120010, [⟨256, 0x40, 0x40⟩], 0x120000, 0x0, [⟨2, 30, .rws, false⟩]⟩,
  ⟨0x120014, [⟨256, 0x40, 0x40⟩], 0x120000, 0x0, [⟨0, 21, .rws, false⟩]⟩,
  ⟨0x120018, [⟨256, 0x40, 0x40⟩], 0x120000, 0x0, [⟨0, 32, .rws, false⟩]⟩,
  ⟨0x12001c, [⟨256, 0x40, 0x0⟩], 0x0, 0x0, [⟨0, 32, .ro, false⟩]⟩,
  ⟨0x120020, [⟨256, 0x40, 0x0⟩], 0x0, 0x0, [⟨0, 32, .ro, false⟩]⟩,
  ⟨0x12002c, [⟨256, 0x40, 0x0⟩], 0x0, 0x0, [⟨0, 1, .w1c, false⟩]⟩]

/-- The register words of R53, part 0. -/
def wordsR53_0 : List WordSpec := [
  ⟨0x100040, [], 0x0, 0x0, [⟨0, 10, .ro, false⟩, ⟨16, 10, .ro, false⟩]⟩,
  ⟨0x100044, [], 0x0, 0x0, [⟨0, 20, .ro, false⟩]⟩,
  ⟨0x100048, [], 0x0, 0x0, [⟨0, 20, .ro, false⟩]⟩,
  ⟨0x130000, [⟨384, 0x40, 0x0⟩], 0x0, 0x0, [⟨0, 32, .ctl, false⟩]⟩,
  ⟨0x130004, [⟨384, 0x40, 0x40⟩], 0x130000, 0x0, [⟨0, 6, .rws, false⟩, ⟨8, 2, .rws, false⟩, ⟨12, 3, .rws, false⟩]⟩,
  ⟨0x130008, [⟨384, 0x40, 0x40⟩], 0x130000, 0x0, [⟨0, 17, .rws, false⟩]⟩,
  ⟨0x13000c, [⟨384, 0x40, 0x40⟩], 0x130000, 0x0, [⟨0, 7, .rws, false⟩, ⟨8, 7, .rws, false⟩, ⟨16, 5, .rws, false⟩, ⟨24, 4, .rws, false⟩]⟩,
  ⟨0x130010, [⟨384, 0x40, 0x40⟩], 0x130000, 0x0, [⟨0, 16, .rws, false⟩]⟩,
  ⟨0x130014, [⟨384, 0x40, 0x0⟩], 0x0, 0x0, [⟨0, 32, .ro, false⟩]⟩,
  ⟨0x130018, [⟨384, 0x40, 0x0⟩], 0x0, 0x0, [⟨0, 13, .ro, false⟩]⟩,
  ⟨0x13001c, [⟨384, 0x40, 0x0⟩], 0x0, 0x0, [⟨0, 1, .w1c, false⟩]⟩]

/-- The register words of R486, part 0. -/
def wordsR486_0 : List WordSpec := [
  ⟨0x200000, [], 0x0, 0x0, [⟨0, 32, .ro, false⟩]⟩,
  ⟨0x200004, [], 0x0, 0x0, [⟨0, 32, .ro, false⟩]⟩,
  ⟨0x200008, [], 0x0, 0x0, [⟨0, 32, .ro, false⟩]⟩,
  ⟨0x200010, [], 0x0, 0x0, [⟨0, 32, .row, false⟩]⟩,
  ⟨0x200014, [⟨6, 0x4, 0x0⟩], 0x0, 0x0, [⟨0, 32, .ro, false⟩]⟩,
  ⟨0x20002c, [], 0x0, 0x0, [⟨0, 1, .ro, false⟩]⟩,
  ⟨0x200040, [⟨64, 0x4, 0x0⟩], 0x0, 0x0, [⟨0, 32, .ro, false⟩]⟩,
  ⟨0x210000, [⟨2048, 0x10, 0x0⟩], 0x0, 0x0, [⟨0, 1, .ro, false⟩, ⟨1, 1, .row, false⟩, ⟨2, 1, .rw, false⟩]⟩,
  ⟨0x210000, [⟨2048, 0x10, 0x0⟩], 0x0, 0x0, [⟨3, 1, .ro, false⟩, ⟨4, 1, .ro, false⟩, ⟨5, 1, .rw, false⟩]⟩,
  ⟨0x210004, [⟨2048, 0x10, 0x0⟩], 0x0, 0x0, [⟨0, 3, .rw, false⟩, ⟨8, 6, .rw, false⟩, ⟨16, 11, .rw, false⟩]⟩,
  ⟨0x210008, [⟨2048, 0x10, 0x0⟩], 0x0, 0x0, [⟨0, 12, .rw, false⟩]⟩,
  ⟨0x21000c, [⟨2048, 0x10, 0x0⟩], 0x0, 0x0, [⟨0, 16, .ro, false⟩]⟩,
  ⟨0x220000, [⟨2048, 0x4, 0x0⟩], 0x0, 0x0, [⟨0, 20, .rw, false⟩, ⟨31, 1, .ro, false⟩]⟩,
  ⟨0x222000, [⟨63, 0x100, 0x0⟩, ⟨64, 0x4, 0x0⟩], 0x0, 0x0, [⟨0, 20, .rw, false⟩, ⟨31, 1, .ro, false⟩]⟩,
  ⟨0x230000, [⟨64, 0x100, 0x0⟩, ⟨64, 0x4, 0x0⟩], 0x0, 0x0, [⟨0, 11, .rw, false⟩, ⟨31, 1, .rw, false⟩]⟩]

/-- The register words of R465, part 0. -/
def wordsR465_0 : List WordSpec := [
  ⟨0x300000, [], 0x0, 0x0, [⟨0, 3, .row, false⟩]⟩,
  ⟨0x300004, [], 0x0, 0x0, [⟨0, 3, .ro, false⟩, ⟨4, 3, .ro, false⟩, ⟨8, 1, .ro, false⟩, ⟨9, 1, .ro, false⟩, ⟨10, 1, .ro, false⟩, ⟨12, 3, .ro, false⟩, ⟨16, 16, .ro, false⟩]⟩,
  ⟨0x300008, [], 0x0, 0x0, [⟨0, 16, .ro, false⟩, ⟨16, 3, .ro, false⟩]⟩,
  ⟨0x30000c, [], 0x0, 0x3e8, [⟨0, 20, .rw, false⟩]⟩,
  ⟨0x300010, [], 0x0, 0x3, [⟨0, 5, .rw, false⟩]⟩,
  ⟨0x300014, [], 0x0, 0x0, [⟨0, 32, .rw, false⟩]⟩,
  ⟨0x300018, [], 0x0, 0x0, [⟨0, 4, .ro, false⟩, ⟨16, 16, .ro, false⟩]⟩,
  ⟨0x30001c, [], 0x0, 0x0, [⟨0, 32, .ro, false⟩]⟩,
  ⟨0x300020, [], 0x0, 0x0, [⟨0, 32, .ro, false⟩]⟩,
  ⟨0x300024, [], 0x0, 0x0, [⟨0, 32, .rw, false⟩]⟩,
  ⟨0x300028, [], 0x0, 0x0, [⟨0, 32, .rw, false⟩]⟩,
  ⟨0x30002c, [], 0x0, 0x0, [⟨0, 1, .rw, false⟩]⟩,
  ⟨0x300030, [], 0x0, 0x0, [⟨0, 1, .ro, false⟩, ⟨1, 1, .ro, false⟩, ⟨2, 1, .ro, false⟩, ⟨3, 1, .ro, false⟩, ⟨4, 1, .w1c, false⟩, ⟨5, 1, .w1c, false⟩, ⟨6, 1, .w1c, false⟩]⟩,
  ⟨0x300034, [], 0x0, 0x25810, [⟨0, 1, .rw, false⟩, ⟨1, 1, .rw, false⟩, ⟨4, 4, .rw, false⟩, ⟨8, 16, .rw, false⟩]⟩,
  ⟨0x300038, [], 0x0, 0x0, [⟨0, 2, .ro, false⟩, ⟨2, 3, .ro, false⟩]⟩,
  ⟨0x300040, [], 0x0, 0x0, [⟨0, 16, .ro, false⟩, ⟨16, 5, .ro, false⟩, ⟨24, 1, .ro, false⟩, ⟨25, 1, .ro, false⟩, ⟨26, 1, .ro, false⟩, ⟨27, 1, .ro, false⟩, ⟨28, 1, .ro, false⟩, ⟨29, 1, .ro, false⟩, ⟨30, 1, .ro, false⟩, ⟨31, 1, .ro, false⟩]⟩,
  ⟨0x300044, [], 0x0, 0x0, [⟨0, 32, .ro, false⟩]⟩,
  ⟨0x300048, [], 0x0, 0x20, [⟨0, 6, .rw, false⟩]⟩,
  ⟨0x30004c, [], 0x0, 0x0, [⟨0, 6, .w1c, false⟩]⟩,
  ⟨0x300100, [⟨24, 0x10, 0x0⟩], 0x0, 0x0, [⟨0, 2, .row, false⟩]⟩,
  ⟨0x300100, [⟨24, 0x10, 0x0⟩], 0x0, 0x0, [⟨4, 2, .ro, false⟩, ⟨8, 1, .ro, false⟩]⟩,
  ⟨0x300300, [], 0x0, 0x0, [⟨0, 8, .rw, false⟩, ⟨8, 8, .w1c, false⟩, ⟨16, 8, .ro, false⟩, ⟨24, 8, .ro, false⟩]⟩,
  ⟨0x300800, [⟨64, 0x4, 0x0⟩], 0x0, 0x0, [⟨0, 16, .ro, false⟩]⟩,
  ⟨0x300800, [⟨64, 0x4, 0x0⟩], 0x0, 0x0, [⟨16, 1, .ro, false⟩, ⟨17, 1, .rw, true⟩, ⟨18, 2, .ro, false⟩]⟩]

/-- The register words of R44, part 0. -/
def wordsR44_0 : List WordSpec := [
  ⟨0x301000, [], 0x0, 0x3, [⟨0, 1, .rw, true⟩, ⟨1, 1, .rw, true⟩]⟩,
  ⟨0x301004, [], 0x0, 0x3e800c8, [⟨0, 16, .rw, true⟩, ⟨16, 16, .rw, true⟩]⟩,
  ⟨0x301008, [], 0x0, 0x400, [⟨0, 11, .rw, true⟩]⟩,
  ⟨0x30100c, [], 0x0, 0x1e0, [⟨0, 1, .ro, false⟩, ⟨1, 4, .ro, false⟩, ⟨5, 4, .ro, false⟩, ⟨9, 4, .ro, false⟩, ⟨13, 4, .ro, false⟩]⟩,
  ⟨0x301010, [⟨4, 0x20, 0x0⟩], 0x0, 0x352, [⟨0, 10, .rw, true⟩]⟩,
  ⟨0x301014, [⟨4, 0x20, 0x0⟩], 0x0, 0x352, [⟨0, 10, .ro, false⟩]⟩,
  ⟨0x301018, [⟨4, 0x20, 0x0⟩], 0x0, 0x0, [⟨0, 11, .ro, false⟩, ⟨16, 6, .ro, false⟩]⟩,
  ⟨0x30101c, [⟨4, 0x20, 0x0⟩], 0x0, 0x37b, [⟨0, 11, .ro, false⟩]⟩,
  ⟨0x301020, [⟨4, 0x20, 0x0⟩], 0x0, 0x352, [⟨0, 10, .ro, false⟩, ⟨16, 10, .ro, false⟩]⟩,
  ⟨0x301024, [⟨4, 0x20, 0x0⟩], 0x0, 0x0, [⟨0, 10, .ro, false⟩]⟩,
  ⟨0x301028, [⟨4, 0x20, 0x0⟩], 0x0, 0xffff, [⟨0, 16, .ro, false⟩]⟩,
  ⟨0x301100, [⟨64, 0x4, 0x0⟩], 0x0, 0x0, [⟨0, 11, .ro, false⟩, ⟨16, 1, .ro, false⟩]⟩]

/-- The register words of R401, part 0. -/
def wordsR401_0 : List WordSpec := [
  ⟨0x400000, [], 0x0, 0x0, [⟨0, 3, .ro, false⟩, ⟨3, 1, .ro, false⟩]⟩,
  ⟨0x400004, [], 0x0, 0x0, [⟨0, 1, .row, false⟩]⟩,
  ⟨0x400008, [], 0x0, 0x0, [⟨0, 32, .ro, false⟩]⟩,
  ⟨0x40000c, [], 0x0, 0x0, [⟨0, 32, .ro, false⟩]⟩,
  ⟨0x400010, [], 0x0, 0x0, [⟨0, 32, .ro, false⟩]⟩,
  ⟨0x400014, [], 0x0, 0x0, [⟨0, 16, .ro, false⟩, ⟨16, 16, .ro, false⟩]⟩,
  ⟨0x400018, [], 0x0, 0x0, [⟨0, 30, .ro, false⟩]⟩,
  ⟨0x400020, [], 0x0, 0x1000201, [⟨0, 8, .rw, false⟩, ⟨8, 8, .rw, false⟩, ⟨16, 8, .rw, false⟩, ⟨24, 1, .rw, false⟩, ⟨25, 1, .rw, false⟩, ⟨26, 1, .row, false⟩]⟩,
  ⟨0x400024, [], 0x0, 0x0, [⟨0, 8, .ro, false⟩, ⟨8, 1, .ro, false⟩, ⟨9, 3, .ro, false⟩]⟩,
  ⟨0x400030, [], 0x0, 0x0, [⟨0, 32, .ctl, false⟩]⟩,
  ⟨0x400034, [], 0x400030, 0x0, [⟨0, 2, .rws, false⟩, ⟨4, 4, .rws, false⟩, ⟨8, 1, .rw, false⟩]⟩,
  ⟨0x400038, [], 0x400030, 0xbb80014, [⟨0, 16, .rws, false⟩, ⟨16, 16, .rws, false⟩]⟩,
  ⟨0x40003c, [], 0x400030, 0x3e8, [⟨0, 24, .rws, false⟩]⟩,
  ⟨0x400040, [], 0x400030, 0x2710, [⟨0, 24, .rws, false⟩]⟩,
  ⟨0x400044, [], 0x400030, 0x0, [⟨0, 16, .rws, false⟩]⟩,
  ⟨0x400048, [], 0x0, 0x0, [⟨0, 32, .ro, false⟩]⟩,
  ⟨0x40004c, [], 0x0, 0x0, [⟨0, 32, .ro, false⟩]⟩,
  ⟨0x400050, [], 0x0, 0x0, [⟨0, 32, .ro, false⟩]⟩,
  ⟨0x400054, [], 0x0, 0xff, [⟨0, 8, .ro, false⟩]⟩,
  ⟨0x400060, [], 0x0, 0x0, [⟨0, 32, .rw, false⟩]⟩,
  ⟨0x400064, [], 0x0, 0x0, [⟨0, 32, .rw, false⟩]⟩,
  ⟨0x400068, [], 0x0, 0x0, [⟨0, 32, .rw, false⟩]⟩,
  ⟨0x40006c, [], 0x0, 0x0, [⟨0, 32, .rw, false⟩]⟩,
  ⟨0x400070, [], 0x0, 0x0, [⟨0, 1, .row, false⟩]⟩,
  ⟨0x400080, [], 0x0, 0x0, [⟨0, 32, .row, false⟩]⟩,
  ⟨0x400084, [], 0x400030, 0x0, [⟨0, 32, .rws, false⟩]⟩,
  ⟨0x400088, [], 0x400030, 0x0, [⟨0, 32, .rws, false⟩]⟩,
  ⟨0x40008c, [], 0x0, 0x0, [⟨0, 1, .row, false⟩, ⟨1, 1, .row, false⟩, ⟨2, 1, .ro, false⟩]⟩,
  ⟨0x400090, [], 0x400030, 0x0, [⟨0, 32, .rws, false⟩]⟩,
  ⟨0x400094, [], 0x400030, 0x0, [⟨0, 16, .rws, false⟩]⟩]

/-- The register words of R401, part 1. -/
def wordsR401_1 : List WordSpec := [
  ⟨0x400098, [], 0x400030, 0x0, [⟨0, 30, .rws, false⟩]⟩,
  ⟨0x40009c, [], 0x0, 0x0, [⟨0, 1, .row, false⟩]⟩,
  ⟨0x4000a0, [], 0x0, 0x0, [⟨0, 1, .rw, false⟩, ⟨1, 2, .rw, false⟩, ⟨3, 1, .rw, false⟩, ⟨4, 1, .rw, false⟩]⟩,
  ⟨0x4000a4, [], 0x0, 0xf4240, [⟨0, 29, .rw, false⟩]⟩,
  ⟨0x4000a8, [], 0x0, 0x0, [⟨0, 16, .rw, false⟩]⟩,
  ⟨0x4000ac, [], 0x0, 0x0, [⟨0, 32, .ro, false⟩]⟩,
  ⟨0x4000b0, [], 0x0, 0x0, [⟨0, 32, .ro, false⟩]⟩,
  ⟨0x4000b4, [], 0x0, 0x0, [⟨0, 32, .ro, false⟩]⟩,
  ⟨0x4000b8, [], 0x0, 0x0, [⟨0, 1, .ro, false⟩]⟩,
  ⟨0x4000bc, [], 0x0, 0x0, [⟨0, 32, .ro, false⟩]⟩,
  ⟨0x4000c0, [], 0x0, 0x0, [⟨0, 6, .w1c, false⟩]⟩,
  ⟨0x4000c4, [], 0x0, 0x0, [⟨0, 32, .ro, false⟩]⟩,
  ⟨0x401000, [⟨16, 0x80, 0x0⟩], 0x0, 0x0, [⟨0, 32, .ctl, false⟩]⟩,
  ⟨0x401004, [⟨16, 0x80, 0x80⟩], 0x401000, 0x0, [⟨0, 1, .rws, false⟩, ⟨1, 1, .rws, false⟩, ⟨2, 1, .rws, false⟩]⟩,
  ⟨0x401008, [⟨16, 0x80, 0x80⟩], 0x401000, 0x0, [⟨0, 30, .rws, false⟩]⟩,
  ⟨0x40100c, [⟨16, 0x80, 0x80⟩], 0x401000, 0x0, [⟨0, 32, .rws, false⟩]⟩,
  ⟨0x401010, [⟨16, 0x80, 0x80⟩], 0x401000, 0x0, [⟨0, 32, .rws, false⟩]⟩,
  ⟨0x401020, [⟨16, 0x80, 0x80⟩, ⟨8, 0x4, 0x0⟩], 0x401000, 0x0, [⟨0, 30, .rws, false⟩, ⟨30, 1, .rws, false⟩, ⟨31, 1, .rws, false⟩]⟩,
  ⟨0x401040, [⟨16, 0x80, 0x0⟩], 0x0, 0x0, [⟨0, 32, .ro, false⟩]⟩,
  ⟨0x401044, [⟨16, 0x80, 0x0⟩], 0x0, 0x0, [⟨0, 32, .ro, false⟩]⟩,
  ⟨0x401048, [⟨16, 0x80, 0x0⟩], 0x0, 0x0, [⟨0, 32, .ro, false⟩]⟩]

/-- The register words of R402, part 0. -/
def wordsR402_0 : List WordSpec := [
  ⟨0x500000, [⟨4, 0x4, 0x0⟩], 0x0, 0x0, [⟨0, 2, .row, false⟩, ⟨2, 2, .row, false⟩, ⟨4, 1, .row, false⟩]⟩,
  ⟨0x501000, [⟨16, 0x100, 0x0⟩], 0x0, 0x0, [⟨0, 32, .ctl, false⟩]⟩,
  ⟨0x501004, [⟨16, 0x100, 0x100⟩], 0x501000, 0x12400, [⟨0, 14, .rws, false⟩, ⟨16, 1, .rws, false⟩, ⟨17, 1, .rws, false⟩, ⟨18, 1, .rws, false⟩, ⟨19, 1, .rws, false⟩, ⟨20, 1, .rws, false⟩]⟩,
  ⟨0x501008, [⟨16, 0x100, 0x0⟩], 0x0, 0x0, [⟨0, 16, .rw, false⟩, ⟨16, 16, .rw, false⟩]⟩,
  ⟨0x50100c, [⟨16, 0x100, 0x0⟩], 0x0, 0x3e8, [⟨0, 20, .rw, false⟩]⟩,
  ⟨0x501010, [⟨16, 0x100, 0x100⟩, ⟨8, 0x4, 0x0⟩], 0x501000, 0x0, [⟨0, 1, .rws, false⟩, ⟨1, 1, .rws, false⟩, ⟨16, 11, .ro, false⟩]⟩,
  ⟨0x501030, [⟨16, 0x100, 0x0⟩], 0x0, 0x0, [⟨0, 1, .ro, false⟩, ⟨1, 1, .ro, false⟩, ⟨2, 1, .ro, false⟩]⟩,
  ⟨0x501034, [⟨16, 0x100, 0x0⟩], 0x0, 0x0, [⟨0, 32, .ro, false⟩]⟩,
  ⟨0x501038, [⟨16, 0x100, 0x0⟩], 0x0, 0x0, [⟨0, 32, .ro, false⟩]⟩,
  ⟨0x50103c, [⟨16, 0x100, 0x0⟩], 0x0, 0x0, [⟨0, 32, .ro, false⟩]⟩,
  ⟨0x501040, [⟨16, 0x100, 0x0⟩], 0x0, 0x0, [⟨0, 32, .ro, false⟩]⟩,
  ⟨0x501044, [⟨16, 0x100, 0x0⟩], 0x0, 0x0, [⟨0, 32, .ro, false⟩]⟩,
  ⟨0x501048, [⟨16, 0x100, 0x0⟩], 0x0, 0x0, [⟨0, 32, .ro, false⟩]⟩,
  ⟨0x50104c, [⟨16, 0x100, 0x0⟩], 0x0, 0x0, [⟨0, 32, .ro, false⟩]⟩,
  ⟨0x501050, [⟨16, 0x100, 0x0⟩], 0x0, 0x0, [⟨0, 32, .ro, false⟩]⟩,
  ⟨0x501054, [⟨16, 0x100, 0x0⟩], 0x0, 0x0, [⟨0, 32, .ro, false⟩]⟩,
  ⟨0x501058, [⟨16, 0x100, 0x0⟩], 0x0, 0x0, [⟨0, 32, .ro, false⟩]⟩,
  ⟨0x501060, [⟨16, 0x100, 0x100⟩], 0x501000, 0x0, [⟨12, 20, .rws, false⟩]⟩,
  ⟨0x501064, [⟨16, 0x100, 0x100⟩], 0x501000, 0x0, [⟨0, 24, .rws, false⟩]⟩,
  ⟨0x501068, [⟨16, 0x100, 0x100⟩], 0x501000, 0x0, [⟨2, 30, .rws, false⟩]⟩,
  ⟨0x50106c, [⟨16, 0x100, 0x100⟩], 0x501000, 0x0, [⟨0, 24, .rws, false⟩]⟩,
  ⟨0x501070, [⟨16, 0x100, 0x100⟩], 0x501000, 0x0, [⟨0, 5, .rws, false⟩]⟩,
  ⟨0x501074, [⟨16, 0x100, 0x0⟩], 0x0, 0x0, [⟨0, 32, .ro, false⟩]⟩,
  ⟨0x501078, [⟨16, 0x100, 0x100⟩], 0x501000, 0x0, [⟨12, 20, .rws, false⟩]⟩,
  ⟨0x50107c, [⟨16, 0x100, 0x100⟩], 0x501000, 0x0, [⟨0, 24, .rws, false⟩]⟩,
  ⟨0x501080, [⟨16, 0x100, 0x100⟩], 0x501000, 0x0, [⟨2, 30, .rws, false⟩]⟩,
  ⟨0x501084, [⟨16, 0x100, 0x100⟩], 0x501000, 0x0, [⟨0, 24, .rws, false⟩]⟩,
  ⟨0x501088, [⟨16, 0x100, 0x100⟩], 0x501000, 0x0, [⟨0, 5, .rws, false⟩]⟩,
  ⟨0x50108c, [⟨16, 0x100, 0x100⟩], 0x501000, 0x0, [⟨12, 20, .rws, false⟩]⟩,
  ⟨0x501090, [⟨16, 0x100, 0x100⟩], 0x501000, 0x0, [⟨0, 24, .rws, false⟩]⟩]

/-- The register words of R402, part 1. -/
def wordsR402_1 : List WordSpec := [
  ⟨0x501094, [⟨16, 0x100, 0x0⟩], 0x0, 0x0, [⟨0, 32, .ro, false⟩]⟩,
  ⟨0x501098, [⟨16, 0x100, 0x100⟩], 0x501000, 0x3e8, [⟨0, 20, .rws, false⟩]⟩,
  ⟨0x5010a0, [⟨16, 0x100, 0x0⟩], 0x0, 0x0, [⟨0, 5, .w1c, false⟩]⟩,
  ⟨0x520000, [⟨256, 0x100, 0x0⟩], 0x0, 0xffff00, [⟨0, 7, .rw, false⟩, ⟨8, 8, .rw, false⟩, ⟨16, 8, .rw, false⟩, ⟨24, 1, .rw, false⟩, ⟨25, 6, .rw, false⟩]⟩,
  ⟨0x520000, [⟨256, 0x100, 0x0⟩], 0x0, 0x0, [⟨31, 1, .rw, true⟩]⟩,
  ⟨0x520004, [⟨256, 0x100, 0x0⟩], 0x0, 0xffffffff, [⟨0, 8, .rw, false⟩, ⟨8, 8, .rw, false⟩, ⟨16, 8, .rw, false⟩, ⟨24, 8, .rw, false⟩]⟩,
  ⟨0x520008, [⟨256, 0x100, 0x0⟩], 0x0, 0x0, [⟨0, 32, .rw, false⟩]⟩,
  ⟨0x52000c, [⟨256, 0x100, 0x0⟩], 0x0, 0x0, [⟨0, 32, .rw, false⟩]⟩,
  ⟨0x520010, [⟨256, 0x100, 0x0⟩], 0x0, 0x0, [⟨0, 8, .ro, false⟩]⟩,
  ⟨0x520080, [⟨256, 0x100, 0x0⟩, ⟨32, 0x4, 0x0⟩], 0x0, 0x0, [⟨0, 32, .rw, false⟩]⟩,
  ⟨0x530000, [⟨128, 0x4, 0x0⟩], 0x0, 0x0, [⟨0, 8, .rw, false⟩, ⟨8, 3, .rw, false⟩]⟩,
  ⟨0x540000, [⟨1024, 0x40, 0x0⟩], 0x0, 0x0, [⟨0, 1, .rw, false⟩, ⟨1, 4, .rw, false⟩, ⟨5, 1, .rw, false⟩, ⟨6, 1, .rw, false⟩, ⟨7, 1, .rw, true⟩, ⟨8, 16, .rw, false⟩]⟩,
  ⟨0x540004, [⟨1024, 0x40, 0x0⟩], 0x0, 0x0, [⟨0, 3, .rw, false⟩, ⟨4, 4, .rw, false⟩, ⟨8, 8, .rw, false⟩, ⟨16, 14, .rw, false⟩]⟩,
  ⟨0x540008, [⟨1024, 0x40, 0x0⟩], 0x0, 0x0, [⟨3, 29, .rw, false⟩]⟩,
  ⟨0x54000c, [⟨1024, 0x40, 0x0⟩], 0x0, 0x0, [⟨0, 24, .rw, false⟩]⟩,
  ⟨0x540010, [⟨1024, 0x40, 0x0⟩], 0x0, 0x0, [⟨0, 4, .rw, false⟩, ⟨4, 5, .rw, false⟩, ⟨9, 6, .rw, false⟩]⟩,
  ⟨0x540014, [⟨1024, 0x40, 0x0⟩], 0x0, 0x0, [⟨0, 32, .ro, false⟩]⟩,
  ⟨0x540018, [⟨1024, 0x40, 0x0⟩], 0x0, 0x0, [⟨0, 32, .ro, false⟩]⟩,
  ⟨0x54001c, [⟨1024, 0x40, 0x0⟩], 0x0, 0x0, [⟨0, 32, .ro, false⟩]⟩,
  ⟨0x540020, [⟨1024, 0x40, 0x0⟩], 0x0, 0x0, [⟨0, 32, .ro, false⟩]⟩,
  ⟨0x540024, [⟨1024, 0x40, 0x0⟩], 0x0, 0x0, [⟨0, 32, .ro, false⟩]⟩]

/-- The register words of R368, part 0. -/
def wordsR368_0 : List WordSpec := [
  ⟨0x600000, [], 0x0, 0x0, [⟨0, 3, .ro, false⟩]⟩,
  ⟨0x600004, [], 0x0, 0x0, [⟨0, 24, .ro, false⟩]⟩,
  ⟨0x600008, [], 0x0, 0x0, [⟨0, 16, .ro, false⟩]⟩,
  ⟨0x601000, [⟨56, 0x40, 0x0⟩], 0x0, 0x0, [⟨0, 32, .ctl, false⟩]⟩,
  ⟨0x601004, [⟨56, 0x40, 0x40⟩], 0x601000, 0x8, [⟨0, 1, .rws, false⟩, ⟨1, 1, .rw, false⟩, ⟨2, 1, .rws, false⟩, ⟨3, 1, .rws, false⟩, ⟨4, 3, .rws, false⟩]⟩,
  ⟨0x601008, [⟨56, 0x40, 0x40⟩], 0x601000, 0x3a343a00, [⟨0, 6, .rws, false⟩, ⟨8, 6, .rws, false⟩, ⟨16, 7, .rws, false⟩, ⟨24, 6, .rws, false⟩]⟩,
  ⟨0x60100c, [⟨56, 0x40, 0x0⟩], 0x0, 0x0, [⟨0, 2, .ro, false⟩, ⟨2, 2, .ro, false⟩, ⟨4, 1, .ro, false⟩, ⟨5, 1, .ro, false⟩, ⟨6, 1, .ro, false⟩, ⟨7, 1, .ro, false⟩, ⟨8, 3, .ro, false⟩, ⟨11, 1, .ro, false⟩, ⟨16, 5, .ro, false⟩, ⟨21, 1, .ro, false⟩]⟩,
  ⟨0x601010, [⟨56, 0x40, 0x0⟩], 0x0, 0x0, [⟨0, 1, .row, false⟩]⟩,
  ⟨0x601014, [⟨56, 0x40, 0x0⟩], 0x0, 0x0, [⟨0, 32, .ro, false⟩]⟩,
  ⟨0x601018, [⟨56, 0x40, 0x0⟩], 0x0, 0x0, [⟨0, 8, .ro, false⟩, ⟨8, 8, .ro, false⟩]⟩,
  ⟨0x60101c, [⟨56, 0x40, 0x0⟩], 0x0, 0x0, [⟨0, 1, .w1c, false⟩, ⟨1, 1, .w1c, false⟩, ⟨2, 1, .w1c, false⟩]⟩]

/-- The register words of R369, part 0. -/
def wordsR369_0 : List WordSpec := [
  ⟨0x701000, [⟨3, 0x400, 0x0⟩], 0x0, 0x0, [⟨0, 32, .ctl, false⟩]⟩,
  ⟨0x701004, [⟨3, 0x400, 0x400⟩], 0x701000, 0x0, [⟨0, 1, .rws, false⟩, ⟨1, 2, .rws, false⟩, ⟨3, 1, .rw, false⟩, ⟨4, 1, .rws, false⟩, ⟨5, 1, .rws, true⟩]⟩,
  ⟨0x701008, [⟨3, 0x400, 0x400⟩], 0x701000, 0xa041f40, [⟨0, 16, .rws, false⟩, ⟨16, 4, .rws, false⟩, ⟨24, 8, .rw, false⟩]⟩,
  ⟨0x70100c, [⟨3, 0x400, 0x400⟩], 0x701000, 0xa14, [⟨0, 8, .rws, false⟩, ⟨8, 8, .rws, false⟩]⟩,
  ⟨0x701010, [⟨3, 0x400, 0x400⟩], 0x701000, 0x7d, [⟨0, 16, .rws, false⟩]⟩,
  ⟨0x701014, [⟨3, 0x400, 0x0⟩], 0x0, 0x0, [⟨0, 16, .rw, false⟩]⟩,
  ⟨0x701018, [⟨3, 0x400, 0x0⟩], 0x0, 0x0, [⟨0, 4, .ro, false⟩, ⟨4, 1, .ro, false⟩, ⟨5, 1, .ro, false⟩, ⟨6, 1, .ro, false⟩, ⟨8, 2, .ro, false⟩, ⟨10, 2, .ro, false⟩, ⟨12, 1, .ro, false⟩]⟩,
  ⟨0x701020, [⟨3, 0x400, 0x0⟩], 0x0, 0x0, [⟨0, 32, .ro, false⟩]⟩,
  ⟨0x701024, [⟨3, 0x400, 0x0⟩], 0x0, 0x0, [⟨0, 32, .ro, false⟩]⟩,
  ⟨0x701028, [⟨3, 0x400, 0x0⟩], 0x0, 0x0, [⟨0, 16, .ro, false⟩]⟩,
  ⟨0x70102c, [⟨3, 0x400, 0x0⟩], 0x0, 0x0, [⟨0, 32, .ro, false⟩]⟩,
  ⟨0x701030, [⟨3, 0x400, 0x0⟩], 0x0, 0x0, [⟨0, 32, .ro, false⟩]⟩,
  ⟨0x701034, [⟨3, 0x400, 0x0⟩], 0x0, 0x0, [⟨0, 16, .ro, false⟩, ⟨16, 16, .ro, false⟩]⟩,
  ⟨0x701038, [⟨3, 0x400, 0x0⟩], 0x0, 0x0, [⟨0, 13, .ro, false⟩]⟩,
  ⟨0x701040, [⟨3, 0x400, 0x0⟩], 0x0, 0x0, [⟨0, 32, .ro, false⟩]⟩,
  ⟨0x701044, [⟨3, 0x400, 0x0⟩], 0x0, 0x0, [⟨0, 32, .ro, false⟩]⟩,
  ⟨0x701048, [⟨3, 0x400, 0x0⟩], 0x0, 0x0, [⟨0, 32, .ro, false⟩]⟩,
  ⟨0x70104c, [⟨3, 0x400, 0x0⟩], 0x0, 0x0, [⟨0, 1, .ro, false⟩]⟩,
  ⟨0x701050, [⟨3, 0x400, 0x0⟩], 0x0, 0x0, [⟨0, 32, .ro, false⟩]⟩,
  ⟨0x701054, [⟨3, 0x400, 0x0⟩], 0x0, 0x0, [⟨0, 32, .ro, false⟩]⟩,
  ⟨0x701060, [⟨3, 0x400, 0x0⟩], 0x0, 0x0, [⟨0, 1, .w1c, false⟩, ⟨1, 1, .w1c, false⟩, ⟨2, 1, .w1c, false⟩, ⟨3, 1, .w1c, false⟩, ⟨4, 1, .w1c, false⟩]⟩]

/-- The register words of R344, part 0. -/
def wordsR344_0 : List WordSpec := [
  ⟨0x800000, [], 0x0, 0x100, [⟨0, 13, .rw, false⟩]⟩,
  ⟨0x800004, [], 0x0, 0xa86421, [⟨0, 24, .rw, false⟩]⟩,
  ⟨0x800010, [], 0x0, 0x0, [⟨0, 1, .ro, false⟩, ⟨1, 1, .ro, false⟩, ⟨2, 1, .ro, false⟩, ⟨3, 1, .ro, false⟩, ⟨8, 4, .ro, false⟩, ⟨16, 6, .ro, false⟩, ⟨24, 7, .ro, false⟩]⟩,
  ⟨0x800014, [], 0x0, 0x0, [⟨0, 1, .row, true⟩, ⟨1, 1, .row, true⟩]⟩,
  ⟨0x800018, [⟨2, 0x4, 0x0⟩], 0x0, 0x0, [⟨0, 20, .ro, false⟩]⟩,
  ⟨0x800020, [⟨2, 0x4, 0x0⟩], 0x0, 0x0, [⟨0, 8, .rw, true⟩]⟩,
  ⟨0x800030, [], 0x0, 0x0, [⟨0, 1, .w1c, false⟩, ⟨1, 1, .w1c, false⟩, ⟨2, 1, .w1c, false⟩]⟩,
  ⟨0x800034, [], 0x0, 0x0, [⟨0, 32, .ro, false⟩]⟩,
  ⟨0x801000, [⟨48, 0x80, 0x0⟩, ⟨2, 0x40, 0x0⟩, ⟨12, 0x4, 0x0⟩], 0x0, 0x0, [⟨0, 24, .rw, true⟩]⟩,
  ⟨0x803000, [⟨96, 0x10, 0x0⟩], 0x0, 0x0, [⟨0, 3, .ro, false⟩]⟩,
  ⟨0x803004, [⟨96, 0x10, 0x0⟩], 0x0, 0x0, [⟨0, 32, .ro, false⟩]⟩,
  ⟨0x803008, [⟨96, 0x10, 0x0⟩], 0x0, 0x0, [⟨0, 32, .ro, false⟩]⟩,
  ⟨0x80300c, [⟨96, 0x10, 0x0⟩], 0x0, 0x0, [⟨0, 16, .ro, false⟩]⟩,
  ⟨0x804000, [⟨16, 0x80, 0x0⟩], 0x0, 0x0, [⟨0, 32, .ctl, false⟩]⟩,
  ⟨0x804004, [⟨16, 0x80, 0x80⟩], 0x804000, 0x0, [⟨0, 6, .rws, false⟩, ⟨8, 3, .rws, false⟩, ⟨12, 4, .rws, false⟩, ⟨16, 2, .rws, false⟩, ⟨20, 4, .rws, false⟩, ⟨24, 1, .rws, false⟩, ⟨25, 1, .rws, false⟩, ⟨26, 1, .rws, true⟩]⟩,
  ⟨0x804008, [⟨16, 0x80, 0x80⟩], 0x804000, 0x0, [⟨0, 7, .rws, false⟩, ⟨8, 7, .rws, false⟩, ⟨16, 7, .rws, false⟩, ⟨24, 7, .rws, false⟩]⟩,
  ⟨0x80400c, [⟨16, 0x80, 0x80⟩], 0x804000, 0x0, [⟨0, 32, .rws, false⟩]⟩,
  ⟨0x804010, [⟨16, 0x80, 0x80⟩], 0x804000, 0x0, [⟨0, 24, .rws, false⟩]⟩,
  ⟨0x804014, [⟨16, 0x80, 0x80⟩], 0x804000, 0x0, [⟨0, 32, .rws, false⟩]⟩,
  ⟨0x804018, [⟨16, 0x80, 0x80⟩], 0x804000, 0x0, [⟨0, 24, .rws, false⟩]⟩,
  ⟨0x80401c, [⟨16, 0x80, 0x80⟩], 0x804000, 0x0, [⟨0, 32, .rws, false⟩]⟩,
  ⟨0x804020, [⟨16, 0x80, 0x80⟩], 0x804000, 0x0, [⟨0, 32, .rws, false⟩]⟩,
  ⟨0x804024, [⟨16, 0x80, 0x80⟩], 0x804000, 0x0, [⟨0, 32, .rws, false⟩]⟩,
  ⟨0x804028, [⟨16, 0x80, 0x80⟩], 0x804000, 0x0, [⟨0, 32, .rws, false⟩]⟩,
  ⟨0x80402c, [⟨16, 0x80, 0x0⟩], 0x0, 0x0, [⟨0, 32, .ro, false⟩]⟩,
  ⟨0x804030, [⟨16, 0x80, 0x0⟩], 0x0, 0x0, [⟨0, 32, .ro, false⟩]⟩,
  ⟨0x804034, [⟨16, 0x80, 0x0⟩], 0x0, 0x0, [⟨0, 32, .ro, false⟩]⟩,
  ⟨0x804038, [⟨16, 0x80, 0x0⟩], 0x0, 0x0, [⟨0, 32, .ro, false⟩]⟩,
  ⟨0x80403c, [⟨16, 0x80, 0x80⟩], 0x804000, 0x0, [⟨5, 27, .rws, false⟩]⟩,
  ⟨0x804040, [⟨16, 0x80, 0x80⟩], 0x804000, 0x0, [⟨0, 24, .rws, false⟩]⟩]

/-- The register words of R344, part 1. -/
def wordsR344_1 : List WordSpec := [
  ⟨0x804044, [⟨16, 0x80, 0x80⟩], 0x804000, 0x4, [⟨0, 5, .rws, false⟩]⟩,
  ⟨0x804048, [⟨16, 0x80, 0x0⟩], 0x0, 0x0, [⟨0, 32, .ro, false⟩]⟩,
  ⟨0x80404c, [⟨16, 0x80, 0x0⟩], 0x0, 0x0, [⟨0, 32, .ro, false⟩]⟩,
  ⟨0x804050, [⟨16, 0x80, 0x0⟩], 0x0, 0x0, [⟨0, 3, .w1c, false⟩]⟩]

/-- The register words of R131, part 0. -/
def wordsR131_0 : List WordSpec := [
  ⟨0x900000, [], 0x0, 0x1801, [⟨0, 5, .rw, false⟩, ⟨8, 8, .rw, false⟩]⟩,
  ⟨0x900004, [], 0x0, 0x0, [⟨0, 16, .ro, false⟩, ⟨16, 16, .ro, false⟩]⟩,
  ⟨0x900008, [], 0x0, 0x10, [⟨0, 16, .rw, false⟩]⟩,
  ⟨0x90000c, [], 0x0, 0x0, [⟨0, 1, .ro, false⟩, ⟨1, 1, .ro, false⟩]⟩,
  ⟨0x900010, [], 0x0, 0x0, [⟨0, 32, .ro, false⟩]⟩,
  ⟨0x900014, [], 0x0, 0x0, [⟨0, 32, .ro, false⟩]⟩,
  ⟨0x900018, [], 0x0, 0x0, [⟨0, 32, .ro, false⟩]⟩,
  ⟨0x90001c, [], 0x0, 0x0, [⟨0, 32, .ro, false⟩]⟩,
  ⟨0x900020, [], 0x0, 0x0, [⟨0, 1, .w1c, false⟩, ⟨1, 1, .w1c, false⟩, ⟨2, 1, .w1c, false⟩, ⟨3, 1, .w1c, false⟩, ⟨4, 1, .w1c, false⟩, ⟨5, 1, .w1c, false⟩]⟩,
  ⟨0x900024, [], 0x0, 0x0, [⟨0, 4, .ro, false⟩]⟩,
  ⟨0x900080, [], 0x0, 0x0, [⟨0, 32, .rw, true⟩]⟩,
  ⟨0x900084, [], 0x0, 0x0, [⟨0, 24, .rw, true⟩]⟩,
  ⟨0x900088, [], 0x0, 0x0, [⟨0, 2, .rw, true⟩, ⟨8, 7, .rw, true⟩, ⟨16, 7, .rw, true⟩]⟩,
  ⟨0x90008c, [], 0x0, 0x0, [⟨0, 1, .row, true⟩, ⟨1, 1, .ro, true⟩]⟩,
  ⟨0x900100, [⟨16, 0x20, 0x0⟩], 0x0, 0x0, [⟨0, 32, .ro, false⟩]⟩,
  ⟨0x900104, [⟨16, 0x20, 0x0⟩], 0x0, 0x0, [⟨0, 24, .ro, false⟩]⟩,
  ⟨0x900108, [⟨16, 0x20, 0x0⟩], 0x0, 0x0, [⟨0, 8, .ro, false⟩, ⟨8, 8, .ro, false⟩, ⟨16, 4, .ro, false⟩, ⟨24, 1, .ro, false⟩, ⟨31, 1, .w1c, false⟩]⟩,
  ⟨0x90010c, [⟨16, 0x20, 0x0⟩], 0x0, 0x0, [⟨0, 32, .ro, false⟩]⟩,
  ⟨0x900110, [⟨16, 0x20, 0x0⟩], 0x0, 0x0, [⟨0, 32, .ro, false⟩]⟩,
  ⟨0x901000, [⟨197, 0x40, 0x0⟩], 0x0, 0x0, [⟨0, 32, .ro, false⟩]⟩,
  ⟨0x901004, [⟨197, 0x40, 0x0⟩], 0x0, 0x0, [⟨0, 16, .ro, false⟩]⟩,
  ⟨0x901008, [⟨197, 0x40, 0x0⟩], 0x0, 0x0, [⟨0, 16, .ro, false⟩]⟩,
  ⟨0x90100c, [⟨197, 0x40, 0x0⟩], 0x0, 0x0, [⟨0, 16, .ro, false⟩]⟩,
  ⟨0x901010, [⟨197, 0x40, 0x0⟩], 0x0, 0x0, [⟨0, 7, .ro, false⟩]⟩,
  ⟨0x901014, [⟨197, 0x40, 0x0⟩], 0x0, 0x0, [⟨0, 16, .ro, false⟩]⟩,
  ⟨0x901018, [⟨197, 0x40, 0x0⟩], 0x0, 0x4, [⟨0, 8, .ro, false⟩]⟩,
  ⟨0x90101c, [⟨197, 0x40, 0x0⟩], 0x0, 0x0, [⟨0, 2, .ro, false⟩]⟩]

/-- The register words of R96, part 0. -/
def wordsR96_0 : List WordSpec := [
  ⟨0xa00000, [], 0x0, 0x0, [⟨0, 2, .ro, false⟩, ⟨2, 2, .ro, false⟩, ⟨4, 2, .ro, false⟩, ⟨6, 1, .ro, false⟩]⟩,
  ⟨0xa01000, [⟨2, 0x1000, 0x0⟩], 0x0, 0x0, [⟨0, 3, .ro, false⟩]⟩,
  ⟨0xa01004, [⟨2, 0x1000, 0x0⟩], 0x0, 0x0, [⟨0, 16, .ro, false⟩]⟩,
  ⟨0xa01008, [⟨2, 0x1000, 0x0⟩], 0x0, 0x0, [⟨0, 32, .ro, false⟩]⟩,
  ⟨0xa0100c, [⟨2, 0x1000, 0x0⟩], 0x0, 0x0, [⟨0, 16, .ro, false⟩]⟩,
  ⟨0xa01010, [⟨2, 0x1000, 0x0⟩], 0x0, 0x0, [⟨0, 1, .w1c, false⟩, ⟨1, 1, .w1c, false⟩, ⟨2, 1, .w1c, false⟩]⟩,
  ⟨0xa01100, [⟨2, 0x1000, 0x0⟩, ⟨32, 0x20, 0x0⟩], 0x0, 0x0, [⟨0, 32, .ro, false⟩]⟩,
  ⟨0xa01104, [⟨2, 0x1000, 0x0⟩, ⟨32, 0x20, 0x0⟩], 0x0, 0x0, [⟨0, 32, .ro, false⟩]⟩,
  ⟨0xa01108, [⟨2, 0x1000, 0x0⟩, ⟨32, 0x20, 0x0⟩], 0x0, 0x0, [⟨0, 32, .ro, false⟩]⟩,
  ⟨0xa0110c, [⟨2, 0x1000, 0x0⟩, ⟨32, 0x20, 0x0⟩], 0x0, 0x0, [⟨0, 16, .ro, false⟩]⟩,
  ⟨0xa01110, [⟨2, 0x1000, 0x0⟩, ⟨32, 0x20, 0x0⟩], 0x0, 0x0, [⟨0, 8, .ro, false⟩]⟩]

/-- The register words of R233, part 0. -/
def wordsR233_0 : List WordSpec := [
  ⟨0xb00000, [], 0x0, 0x7d0, [⟨0, 16, .rw, false⟩]⟩,
  ⟨0xb00004, [], 0x0, 0x3d09, [⟨0, 20, .rw, false⟩]⟩,
  ⟨0xb00008, [], 0x0, 0xa, [⟨0, 10, .rw, false⟩]⟩,
  ⟨0xb0000c, [], 0x0, 0x20, [⟨0, 6, .rw, false⟩]⟩,
  ⟨0xb00010, [], 0x0, 0x10c, [⟨0, 4, .row, true⟩, ⟨8, 1, .rw, true⟩]⟩,
  ⟨0xb00014, [], 0x0, 0x0, [⟨0, 4, .row, true⟩, ⟨4, 1, .row, true⟩, ⟨5, 1, .row, true⟩]⟩,
  ⟨0xb00018, [], 0x0, 0x1000, [⟨0, 13, .ro, false⟩, ⟨16, 13, .ro, false⟩, ⟨29, 1, .ro, false⟩]⟩,
  ⟨0xb0001c, [], 0x0, 0x40, [⟨0, 13, .rw, false⟩]⟩,
  ⟨0xb00020, [], 0x0, 0x0, [⟨0, 1, .w1c, false⟩, ⟨1, 1, .w1c, false⟩, ⟨2, 1, .w1c, false⟩, ⟨3, 1, .w1c, false⟩, ⟨4, 1, .w1c, false⟩]⟩,
  ⟨0xb00024, [], 0x0, 0x0, [⟨0, 32, .ro, false⟩]⟩,
  ⟨0xb00028, [], 0x0, 0x0, [⟨0, 32, .ro, false⟩]⟩,
  ⟨0xb00100, [⟨64, 0x4, 0x0⟩], 0x0, 0x0, [⟨0, 13, .ro, false⟩]⟩,
  ⟨0xb00200, [⟨8, 0x10, 0x0⟩], 0x0, 0x0, [⟨0, 13, .ro, false⟩]⟩,
  ⟨0xb00208, [⟨8, 0x10, 0x0⟩], 0x0, 0x0, [⟨0, 32, .ro, false⟩]⟩,
  ⟨0xb0020c, [⟨8, 0x10, 0x0⟩], 0x0, 0x0, [⟨0, 32, .ro, false⟩]⟩,
  ⟨0xb01000, [], 0x0, 0x0, [⟨0, 12, .rw, false⟩]⟩,
  ⟨0xb01004, [], 0x0, 0x0, [⟨0, 3, .ro, false⟩, ⟨8, 6, .ro, false⟩, ⟨14, 1, .ro, false⟩, ⟨15, 1, .ro, false⟩, ⟨16, 6, .ro, false⟩, ⟨22, 1, .ro, false⟩]⟩,
  ⟨0xb01008, [], 0x0, 0x7f0000, [⟨0, 16, .ro, false⟩, ⟨16, 7, .ro, false⟩]⟩,
  ⟨0xb0100c, [], 0x0, 0x0, [⟨0, 8, .ro, false⟩, ⟨16, 16, .ro, false⟩]⟩]

/-- The register words of R234, part 0. -/
def wordsR234_0 : List WordSpec := [
  ⟨0xc00000, [⟨13, 0x10000, 0x0⟩], 0x0, 0x0, [⟨0, 32, .ctl, false⟩]⟩,
  ⟨0xc00004, [⟨13, 0x10000, 0x0⟩], 0x0, 0x0, [⟨0, 4, .ro, false⟩]⟩,
  ⟨0xc00008, [⟨13, 0x10000, 0x0⟩], 0x0, 0xff, [⟨0, 8, .ro, false⟩, ⟨8, 8, .ro, false⟩, ⟨16, 1, .ro, false⟩, ⟨17, 1, .ro, false⟩, ⟨18, 1, .ro, false⟩]⟩,
  ⟨0xc0000c, [⟨13, 0x10000, 0x0⟩], 0x0, 0x0, [⟨0, 1, .w1c, false⟩, ⟨1, 1, .w1c, false⟩]⟩]

/-- The register words of R170, part 0. -/
def wordsR170_0 : List WordSpec := [
  ⟨0xc00100, [⟨13, 0x10000, 0x10000⟩, ⟨8, 0x80, 0x0⟩], 0xc00000, 0x0, [⟨0, 1, .row, true⟩, ⟨1, 3, .rws, false⟩, ⟨4, 1, .rws, false⟩]⟩,
  ⟨0xc00104, [⟨13, 0x10000, 0x10000⟩, ⟨8, 0x80, 0x0⟩], 0xc00000, 0x0, [⟨0, 13, .rws, false⟩]⟩,
  ⟨0xc00108, [⟨13, 0x10000, 0x0⟩, ⟨8, 0x80, 0x0⟩], 0x0, 0x0, [⟨0, 2, .ro, false⟩, ⟨2, 1, .ro, false⟩, ⟨8, 8, .ro, false⟩]⟩,
  ⟨0xc0010c, [⟨13, 0x10000, 0x0⟩, ⟨8, 0x80, 0x0⟩], 0x0, 0x0, [⟨0, 13, .ro, false⟩]⟩,
  ⟨0xc00110, [⟨13, 0x10000, 0x0⟩, ⟨8, 0x80, 0x0⟩], 0x0, 0x0, [⟨0, 12, .ro, false⟩, ⟨31, 1, .ro, false⟩]⟩,
  ⟨0xc00114, [⟨13, 0x10000, 0x0⟩, ⟨8, 0x80, 0x0⟩], 0x0, 0x0, [⟨0, 32, .ro, false⟩]⟩,
  ⟨0xc00118, [⟨13, 0x10000, 0x0⟩, ⟨8, 0x80, 0x0⟩], 0x0, 0x0, [⟨0, 32, .ro, false⟩]⟩,
  ⟨0xc0011c, [⟨13, 0x10000, 0x0⟩, ⟨8, 0x80, 0x0⟩], 0x0, 0x0, [⟨0, 32, .ro, false⟩]⟩,
  ⟨0xc00120, [⟨13, 0x10000, 0x0⟩, ⟨8, 0x80, 0x0⟩], 0x0, 0x0, [⟨0, 16, .ro, false⟩]⟩,
  ⟨0xc00124, [⟨13, 0x10000, 0x0⟩, ⟨8, 0x80, 0x0⟩], 0x0, 0x0, [⟨0, 13, .ro, false⟩, ⟨16, 8, .ro, false⟩]⟩,
  ⟨0xc00128, [⟨13, 0x10000, 0x0⟩, ⟨8, 0x80, 0x0⟩], 0x0, 0x0, [⟨0, 1, .w1c, false⟩, ⟨1, 1, .w1c, false⟩]⟩]

/-- The register words of R215, part 0. -/
def wordsR215_0 : List WordSpec := [
  ⟨0xc00500, [⟨13, 0x10000, 0x0⟩, ⟨8, 0x40, 0x0⟩], 0x0, 0x0, [⟨0, 8, .ro, false⟩, ⟨8, 1, .ro, false⟩, ⟨9, 1, .ro, false⟩, ⟨16, 11, .ro, false⟩]⟩,
  ⟨0xc00504, [⟨13, 0x10000, 0x0⟩, ⟨8, 0x40, 0x0⟩], 0x0, 0x0, [⟨0, 32, .ro, false⟩]⟩,
  ⟨0xc00508, [⟨13, 0x10000, 0x0⟩, ⟨8, 0x40, 0x0⟩], 0x0, 0x0, [⟨0, 32, .ro, false⟩]⟩,
  ⟨0xc0050c, [⟨13, 0x10000, 0x0⟩, ⟨8, 0x40, 0x0⟩], 0x0, 0x0, [⟨0, 32, .ro, false⟩]⟩,
  ⟨0xc00510, [⟨13, 0x10000, 0x0⟩, ⟨8, 0x40, 0x0⟩], 0x0, 0x0, [⟨0, 16, .ro, false⟩]⟩,
  ⟨0xc00514, [⟨13, 0x10000, 0x0⟩, ⟨8, 0x40, 0x0⟩], 0x0, 0x0, [⟨0, 8, .ro, false⟩, ⟨8, 3, .ro, false⟩, ⟨16, 8, .ro, false⟩]⟩,
  ⟨0xc00518, [⟨13, 0x10000, 0x0⟩, ⟨8, 0x40, 0x0⟩], 0x0, 0x0, [⟨0, 32, .ro, false⟩]⟩,
  ⟨0xc0051c, [⟨13, 0x10000, 0x0⟩, ⟨8, 0x40, 0x0⟩], 0x0, 0x0, [⟨0, 24, .ro, false⟩]⟩,
  ⟨0xc00520, [⟨13, 0x10000, 0x0⟩, ⟨8, 0x40, 0x0⟩], 0x0, 0x0, [⟨0, 1, .w1c, false⟩]⟩]

/-- The register words of R261, part 0. -/
def wordsR261_0 : List WordSpec := [
  ⟨0xe00000, [], 0x0, 0x0, [⟨0, 4, .ro, false⟩]⟩,
  ⟨0xe01000, [⟨4, 0x40, 0x0⟩], 0x0, 0x0, [⟨0, 32, .ctl, false⟩]⟩,
  ⟨0xe01004, [⟨4, 0x40, 0x0⟩], 0x0, 0x0, [⟨0, 7, .ro, false⟩]⟩,
  ⟨0xe01008, [⟨4, 0x40, 0x0⟩], 0x0, 0x0, [⟨0, 32, .ro, false⟩]⟩,
  ⟨0xe0100c, [⟨4, 0x40, 0x0⟩], 0x0, 0x0, [⟨0, 32, .ro, false⟩]⟩,
  ⟨0xe01010, [⟨4, 0x40, 0x0⟩], 0x0, 0x0, [⟨0, 32, .ro, false⟩]⟩,
  ⟨0xe01014, [⟨4, 0x40, 0x0⟩], 0x0, 0x0, [⟨0, 16, .ro, false⟩]⟩,
  ⟨0xe01018, [⟨4, 0x40, 0x0⟩], 0x0, 0x0, [⟨0, 1, .w1c, false⟩, ⟨1, 1, .w1c, false⟩, ⟨2, 1, .w1c, false⟩]⟩]

/-- The register words of R262, part 0. -/
def wordsR262_0 : List WordSpec := [
  ⟨0xe40000, [], 0x0, 0x0, [⟨0, 32, .ro, false⟩]⟩,
  ⟨0xe41000, [⟨32, 0x40, 0x0⟩], 0x0, 0x0, [⟨0, 32, .ctl, false⟩]⟩,
  ⟨0xe41004, [⟨32, 0x40, 0x0⟩], 0x0, 0x0, [⟨0, 7, .ro, false⟩]⟩,
  ⟨0xe41008, [⟨32, 0x40, 0x0⟩], 0x0, 0x0, [⟨0, 32, .ro, false⟩]⟩,
  ⟨0xe4100c, [⟨32, 0x40, 0x0⟩], 0x0, 0x0, [⟨0, 32, .ro, false⟩]⟩,
  ⟨0xe41010, [⟨32, 0x40, 0x0⟩], 0x0, 0x0, [⟨0, 32, .ro, false⟩]⟩,
  ⟨0xe41014, [⟨32, 0x40, 0x0⟩], 0x0, 0x0, [⟨0, 32, .ro, false⟩]⟩,
  ⟨0xe41018, [⟨32, 0x40, 0x0⟩], 0x0, 0x0, [⟨0, 1, .w1c, false⟩, ⟨1, 1, .w1c, false⟩, ⟨2, 1, .w1c, false⟩]⟩]

/-- The register words of R284, part 0. -/
def wordsR284_0 : List WordSpec := [
  ⟨0xe80000, [], 0x0, 0x0, [⟨0, 32, .ctl, false⟩]⟩,
  ⟨0xe80004, [], 0x0, 0x0, [⟨0, 9, .ro, false⟩]⟩,
  ⟨0xe80008, [], 0x0, 0x0, [⟨0, 16, .ro, false⟩, ⟨16, 4, .ro, false⟩, ⟨20, 4, .ro, false⟩, ⟨24, 4, .ro, false⟩]⟩,
  ⟨0xe8000c, [], 0x0, 0x0, [⟨0, 8, .ro, false⟩]⟩,
  ⟨0xe80010, [], 0x0, 0x0, [⟨0, 32, .ro, false⟩]⟩,
  ⟨0xe80014, [], 0x0, 0x0, [⟨0, 32, .ro, false⟩]⟩,
  ⟨0xe80018, [], 0x0, 0x0, [⟨0, 32, .ro, false⟩]⟩,
  ⟨0xe8001c, [], 0x0, 0x0, [⟨0, 32, .ro, false⟩]⟩,
  ⟨0xe80020, [], 0x0, 0x0, [⟨0, 16, .ro, false⟩]⟩,
  ⟨0xe80024, [], 0x0, 0x0, [⟨0, 1, .w1c, false⟩, ⟨1, 1, .w1c, false⟩, ⟨2, 1, .w1c, false⟩]⟩]

/-- The register words of R317, part 0. -/
def wordsR317_0 : List WordSpec := [
  ⟨0xec0000, [⟨16, 0x4000, 0x0⟩], 0x0, 0x0, [⟨0, 32, .ctl, false⟩]⟩,
  ⟨0xec0004, [⟨16, 0x4000, 0x4000⟩], 0xec0000, 0x0, [⟨0, 6, .rws, false⟩, ⟨6, 1, .rws, true⟩, ⟨8, 5, .rws, false⟩]⟩,
  ⟨0xec0008, [⟨16, 0x4000, 0x4000⟩], 0xec0000, 0x0, [⟨12, 20, .rws, false⟩]⟩,
  ⟨0xec000c, [⟨16, 0x4000, 0x4000⟩], 0xec0000, 0x0, [⟨0, 24, .rws, false⟩]⟩,
  ⟨0xec0010, [⟨16, 0x4000, 0x4000⟩], 0xec0000, 0x0, [⟨2, 30, .rws, false⟩]⟩,
  ⟨0xec0014, [⟨16, 0x4000, 0x4000⟩], 0xec0000, 0x0, [⟨0, 24, .rws, false⟩]⟩,
  ⟨0xec0018, [⟨16, 0x4000, 0x4000⟩], 0xec0000, 0x0, [⟨3, 29, .rws, false⟩]⟩,
  ⟨0xec001c, [⟨16, 0x4000, 0x4000⟩], 0xec0000, 0x0, [⟨0, 24, .rws, false⟩]⟩,
  ⟨0xec0020, [⟨16, 0x4000, 0x4000⟩], 0xec0000, 0x0, [⟨0, 24, .rws, false⟩]⟩,
  ⟨0xec0024, [⟨16, 0x4000, 0x0⟩], 0x0, 0x1e, [⟨0, 10, .rw, false⟩]⟩,
  ⟨0xec0028, [⟨16, 0x4000, 0x0⟩], 0x0, 0xfc7c, [⟨0, 16, .rw, false⟩]⟩,
  ⟨0xec002c, [⟨16, 0x4000, 0x0⟩], 0x0, 0x2710, [⟨0, 16, .rw, false⟩]⟩,
  ⟨0xec0030, [⟨16, 0x4000, 0x0⟩], 0x0, 0x0, [⟨0, 32, .ro, false⟩]⟩,
  ⟨0xec0034, [⟨16, 0x4000, 0x0⟩], 0x0, 0x0, [⟨0, 32, .ro, false⟩]⟩,
  ⟨0xec0038, [⟨16, 0x4000, 0x0⟩], 0x0, 0x0, [⟨0, 32, .ro, false⟩]⟩,
  ⟨0xec003c, [⟨16, 0x4000, 0x0⟩], 0x0, 0x0, [⟨0, 32, .ro, false⟩]⟩,
  ⟨0xec0040, [⟨16, 0x4000, 0x0⟩], 0x0, 0x0, [⟨0, 32, .ro, false⟩]⟩,
  ⟨0xec0044, [⟨16, 0x4000, 0x0⟩], 0x0, 0x0, [⟨0, 32, .ro, false⟩]⟩,
  ⟨0xec0048, [⟨16, 0x4000, 0x0⟩], 0x0, 0x0, [⟨0, 32, .ro, false⟩]⟩,
  ⟨0xec004c, [⟨16, 0x4000, 0x0⟩], 0x0, 0x0, [⟨0, 16, .ro, false⟩, ⟨16, 16, .ro, false⟩]⟩,
  ⟨0xec0050, [⟨16, 0x4000, 0x0⟩], 0x0, 0x0, [⟨0, 32, .ro, false⟩]⟩,
  ⟨0xec0054, [⟨16, 0x4000, 0x0⟩], 0x0, 0x0, [⟨0, 32, .ro, false⟩]⟩,
  ⟨0xec0058, [⟨16, 0x4000, 0x0⟩], 0x0, 0x0, [⟨0, 4, .w1c, false⟩]⟩,
  ⟨0xec0400, [⟨16, 0x4000, 0x4000⟩, ⟨24, 0x20, 0x0⟩], 0xec0000, 0x0, [⟨0, 9, .rws, false⟩, ⟨12, 1, .rws, false⟩, ⟨13, 1, .rws, false⟩]⟩,
  ⟨0xec0404, [⟨16, 0x4000, 0x4000⟩, ⟨24, 0x20, 0x0⟩], 0xec0000, 0x0, [⟨0, 6, .rws, false⟩, ⟨8, 7, .rws, false⟩]⟩,
  ⟨0xec0408, [⟨16, 0x4000, 0x4000⟩, ⟨24, 0x20, 0x0⟩], 0xec0000, 0x0, [⟨0, 7, .rws, false⟩, ⟨8, 2, .rws, false⟩]⟩,
  ⟨0xec040c, [⟨16, 0x4000, 0x4000⟩, ⟨24, 0x20, 0x0⟩], 0xec0000, 0x0, [⟨0, 4, .rws, false⟩, ⟨16, 9, .rws, false⟩]⟩,
  ⟨0xec0410, [⟨16, 0x4000, 0x0⟩, ⟨24, 0x20, 0x0⟩], 0x0, 0x0, [⟨0, 16, .ro, false⟩, ⟨31, 1, .ro, false⟩]⟩,
  ⟨0xec0800, [⟨16, 0x4000, 0x0⟩, ⟨64, 0x10, 0x0⟩], 0x0, 0x0, [⟨0, 2, .ro, false⟩, ⟨8, 5, .ro, false⟩, ⟨16, 3, .ro, false⟩, ⟨24, 6, .ro, false⟩]⟩,
  ⟨0xec0804, [⟨16, 0x4000, 0x0⟩, ⟨64, 0x10, 0x0⟩], 0x0, 0x0, [⟨0, 16, .ro, false⟩, ⟨16, 16, .ro, false⟩]⟩]

/-- The register words of R317, part 1. -/
def wordsR317_1 : List WordSpec := [
  ⟨0xec0808, [⟨16, 0x4000, 0x0⟩, ⟨64, 0x10, 0x0⟩], 0x0, 0x0, [⟨0, 32, .ro, false⟩]⟩,
  ⟨0xec080c, [⟨16, 0x4000, 0x0⟩, ⟨64, 0x10, 0x0⟩], 0x0, 0x0, [⟨0, 32, .ro, false⟩]⟩,
  ⟨0xec0c00, [⟨16, 0x4000, 0x0⟩, ⟨64, 0x4, 0x0⟩], 0x0, 0x0, [⟨0, 16, .ro, false⟩, ⟨16, 7, .ro, false⟩, ⟨31, 1, .ro, false⟩]⟩,
  ⟨0xec1000, [⟨16, 0x4000, 0x4000⟩, ⟨192, 0x40, 0x0⟩], 0xec0000, 0x0, [⟨0, 1, .rws, false⟩, ⟨1, 3, .rws, false⟩, ⟨4, 4, .rws, false⟩, ⟨8, 4, .rws, false⟩, ⟨12, 2, .rws, false⟩, ⟨14, 1, .rws, false⟩, ⟨16, 2, .rws, false⟩]⟩,
  ⟨0xec1004, [⟨16, 0x4000, 0x4000⟩, ⟨192, 0x40, 0x0⟩], 0xec0000, 0x0, [⟨0, 11, .rws, false⟩, ⟨16, 12, .rws, false⟩]⟩,
  ⟨0xec1008, [⟨16, 0x4000, 0x4000⟩, ⟨192, 0x40, 0x0⟩], 0xec0000, 0x0, [⟨0, 7, .rws, false⟩, ⟨16, 9, .rws, false⟩]⟩,
  ⟨0xec100c, [⟨16, 0x4000, 0x4000⟩, ⟨192, 0x40, 0x0⟩], 0xec0000, 0x1, [⟨0, 8, .rws, false⟩, ⟨16, 4, .rws, false⟩]⟩,
  ⟨0xec1010, [⟨16, 0x4000, 0x4000⟩, ⟨192, 0x40, 0x0⟩], 0xec0000, 0x0, [⟨0, 32, .rws, false⟩]⟩,
  ⟨0xec1014, [⟨16, 0x4000, 0x4000⟩, ⟨192, 0x40, 0x0⟩], 0xec0000, 0x0, [⟨0, 32, .rws, false⟩]⟩,
  ⟨0xec1018, [⟨16, 0x4000, 0x4000⟩, ⟨192, 0x40, 0x0⟩], 0xec0000, 0x0, [⟨0, 32, .rws, false⟩]⟩,
  ⟨0xec101c, [⟨16, 0x4000, 0x4000⟩, ⟨192, 0x40, 0x0⟩], 0xec0000, 0x0, [⟨0, 24, .rws, false⟩]⟩,
  ⟨0xec1020, [⟨16, 0x4000, 0x4000⟩, ⟨192, 0x40, 0x0⟩], 0xec0000, 0x0, [⟨0, 32, .rws, false⟩]⟩,
  ⟨0xec1024, [⟨16, 0x4000, 0x4000⟩, ⟨192, 0x40, 0x0⟩], 0xec0000, 0x820064, [⟨0, 10, .rws, false⟩, ⟨16, 10, .rws, false⟩]⟩,
  ⟨0xec1028, [⟨16, 0x4000, 0x4000⟩, ⟨192, 0x40, 0x0⟩], 0xec0000, 0x0, [⟨0, 9, .rws, false⟩, ⟨9, 6, .rws, false⟩, ⟨16, 4, .rws, false⟩, ⟨20, 4, .rws, false⟩, ⟨24, 8, .rws, false⟩]⟩,
  ⟨0xec102c, [⟨16, 0x4000, 0x4000⟩, ⟨192, 0x40, 0x0⟩], 0xec0000, 0x0, [⟨0, 16, .rws, false⟩]⟩]

/-- The register words of R318, part 0. -/
def wordsR318_0 : List WordSpec := [
  ⟨0xf00000, [⟨128, 0x200, 0x0⟩], 0x0, 0x0, [⟨0, 32, .ctl, false⟩]⟩,
  ⟨0xf00004, [⟨128, 0x200, 0x200⟩], 0xf00000, 0xf0000, [⟨0, 6, .rws, false⟩, ⟨6, 1, .rws, true⟩, ⟨8, 4, .rws, false⟩, ⟨12, 1, .rw, false⟩, ⟨16, 4, .rws, false⟩]⟩,
  ⟨0xf00008, [⟨128, 0x200, 0x200⟩], 0xf00000, 0x0, [⟨0, 16, .rws, false⟩]⟩,
  ⟨0xf0000c, [⟨128, 0x200, 0x0⟩], 0x0, 0x60, [⟨0, 8, .rw, false⟩]⟩,
  ⟨0xf00010, [⟨128, 0x200, 0x200⟩], 0xf00000, 0x0, [⟨0, 32, .rws, false⟩]⟩,
  ⟨0xf00014, [⟨128, 0x200, 0x200⟩], 0xf00000, 0x0, [⟨0, 32, .rws, false⟩]⟩,
  ⟨0xf00018, [⟨128, 0x200, 0x200⟩], 0xf00000, 0x0, [⟨0, 20, .rws, false⟩]⟩,
  ⟨0xf00040, [⟨128, 0x200, 0x200⟩, ⟨4, 0x30, 0x0⟩], 0xf00000, 0x0, [⟨0, 1, .rws, false⟩, ⟨1, 3, .rws, false⟩, ⟨8, 7, .rws, false⟩, ⟨16, 6, .rws, false⟩, ⟨23, 9, .rws, false⟩]⟩,
  ⟨0xf00044, [⟨128, 0x200, 0x200⟩, ⟨4, 0x30, 0x0⟩], 0xf00000, 0x0, [⟨0, 24, .rws, false⟩]⟩,
  ⟨0xf00048, [⟨128, 0x200, 0x200⟩, ⟨4, 0x30, 0x0⟩], 0xf00000, 0x0, [⟨3, 29, .rws, false⟩]⟩,
  ⟨0xf0004c, [⟨128, 0x200, 0x200⟩, ⟨4, 0x30, 0x0⟩], 0xf00000, 0x0, [⟨0, 24, .rws, false⟩]⟩,
  ⟨0xf00050, [⟨128, 0x200, 0x200⟩, ⟨4, 0x30, 0x0⟩], 0xf00000, 0x0, [⟨0, 15, .rws, false⟩]⟩,
  ⟨0xf00054, [⟨128, 0x200, 0x200⟩, ⟨4, 0x30, 0x0⟩], 0xf00000, 0x0, [⟨3, 29, .rws, false⟩]⟩,
  ⟨0xf00058, [⟨128, 0x200, 0x200⟩, ⟨4, 0x30, 0x0⟩], 0xf00000, 0x0, [⟨0, 24, .rws, false⟩]⟩,
  ⟨0xf0005c, [⟨128, 0x200, 0x0⟩, ⟨4, 0x30, 0x0⟩], 0x0, 0x0, [⟨0, 32, .ro, false⟩]⟩,
  ⟨0xf00060, [⟨128, 0x200, 0x0⟩, ⟨4, 0x30, 0x0⟩], 0x0, 0x0, [⟨0, 32, .ro, false⟩]⟩,
  ⟨0xf00064, [⟨128, 0x200, 0x0⟩, ⟨4, 0x30, 0x0⟩], 0x0, 0x60, [⟨0, 8, .ro, false⟩, ⟨8, 1, .ro, false⟩]⟩,
  ⟨0xf00100, [⟨128, 0x200, 0x0⟩], 0x0, 0x0, [⟨0, 32, .ro, false⟩]⟩,
  ⟨0xf00104, [⟨128, 0x200, 0x0⟩], 0x0, 0x0, [⟨0, 32, .ro, false⟩]⟩,
  ⟨0xf00108, [⟨128, 0x200, 0x0⟩], 0x0, 0x0, [⟨0, 32, .ro, false⟩]⟩,
  ⟨0xf0010c, [⟨128, 0x200, 0x0⟩], 0x0, 0x0, [⟨0, 5, .w1c, false⟩]⟩,
  ⟨0xf00110, [⟨128, 0x200, 0x0⟩], 0x0, 0x0, [⟨0, 1, .ro, false⟩]⟩,
  ⟨0xf10000, [⟨128, 0x200, 0x0⟩], 0x0, 0x0, [⟨0, 32, .ctl, false⟩]⟩,
  ⟨0xf10004, [⟨128, 0x200, 0x200⟩], 0xf10000, 0x100000, [⟨0, 6, .rws, false⟩, ⟨6, 1, .rws, true⟩, ⟨8, 4, .rws, false⟩, ⟨20, 1, .rws, false⟩]⟩,
  ⟨0xf10008, [⟨128, 0x200, 0x200⟩], 0xf10000, 0x0, [⟨0, 16, .rws, false⟩]⟩,
  ⟨0xf10010, [⟨128, 0x200, 0x200⟩], 0xf10000, 0x0, [⟨0, 32, .rws, false⟩]⟩,
  ⟨0xf10014, [⟨128, 0x200, 0x200⟩], 0xf10000, 0x0, [⟨0, 32, .rws, false⟩]⟩,
  ⟨0xf10020, [⟨128, 0x200, 0x200⟩], 0xf10000, 0xaff6a, [⟨0, 16, .rws, false⟩, ⟨16, 16, .rws, false⟩]⟩,
  ⟨0xf10024, [⟨128, 0x200, 0x200⟩], 0xf10000, 0x60082104, [⟨0, 6, .rws, false⟩, ⟨8, 4, .rws, false⟩, ⟨12, 4, .rws, false⟩, ⟨16, 4, .rws, false⟩, ⟨24, 8, .rws, false⟩]⟩,
  ⟨0xf10040, [⟨128, 0x200, 0x200⟩, ⟨4, 0x30, 0x0⟩], 0xf10000, 0x0, [⟨0, 1, .rws, false⟩, ⟨1, 3, .rws, false⟩, ⟨8, 7, .rws, false⟩, ⟨16, 6, .rws, false⟩, ⟨23, 9, .rws, false⟩]⟩]

/-- The register words of R318, part 1. -/
def wordsR318_1 : List WordSpec := [
  ⟨0xf10044, [⟨128, 0x200, 0x200⟩, ⟨4, 0x30, 0x0⟩], 0xf10000, 0x0, [⟨0, 24, .rws, false⟩]⟩,
  ⟨0xf10048, [⟨128, 0x200, 0x200⟩, ⟨4, 0x30, 0x0⟩], 0xf10000, 0x0, [⟨3, 29, .rws, false⟩]⟩,
  ⟨0xf1004c, [⟨128, 0x200, 0x200⟩, ⟨4, 0x30, 0x0⟩], 0xf10000, 0x0, [⟨0, 24, .rws, false⟩]⟩,
  ⟨0xf10050, [⟨128, 0x200, 0x200⟩, ⟨4, 0x30, 0x0⟩], 0xf10000, 0x0, [⟨0, 15, .rws, false⟩]⟩,
  ⟨0xf10054, [⟨128, 0x200, 0x200⟩, ⟨4, 0x30, 0x0⟩], 0xf10000, 0x0, [⟨3, 29, .rws, false⟩]⟩,
  ⟨0xf10058, [⟨128, 0x200, 0x200⟩, ⟨4, 0x30, 0x0⟩], 0xf10000, 0x0, [⟨0, 24, .rws, false⟩]⟩,
  ⟨0xf1005c, [⟨128, 0x200, 0x0⟩, ⟨4, 0x30, 0x0⟩], 0x0, 0x0, [⟨0, 32, .ro, false⟩]⟩,
  ⟨0xf10060, [⟨128, 0x200, 0x0⟩, ⟨4, 0x30, 0x0⟩], 0x0, 0x0, [⟨0, 32, .ro, false⟩]⟩,
  ⟨0xf10064, [⟨128, 0x200, 0x0⟩, ⟨4, 0x30, 0x0⟩], 0x0, 0x60, [⟨0, 8, .ro, false⟩, ⟨8, 1, .ro, false⟩]⟩,
  ⟨0xf10100, [⟨128, 0x200, 0x0⟩], 0x0, 0x0, [⟨0, 32, .ro, false⟩]⟩,
  ⟨0xf10104, [⟨128, 0x200, 0x0⟩], 0x0, 0x0, [⟨0, 32, .ro, false⟩]⟩,
  ⟨0xf10108, [⟨128, 0x200, 0x0⟩], 0x0, 0x0, [⟨0, 32, .ro, false⟩]⟩,
  ⟨0xf1010c, [⟨128, 0x200, 0x0⟩], 0x0, 0x0, [⟨0, 5, .w1c, false⟩]⟩,
  ⟨0xf20000, [⟨8, 0x20, 0x0⟩], 0x0, 0x104, [⟨0, 4, .rw, false⟩, ⟨8, 4, .rw, false⟩]⟩,
  ⟨0xf20004, [⟨8, 0x20, 0x0⟩], 0x0, 0x0, [⟨0, 7, .ro, false⟩]⟩,
  ⟨0xf20008, [⟨8, 0x20, 0x0⟩], 0x0, 0x0, [⟨0, 32, .ro, false⟩]⟩,
  ⟨0xf20400, [⟨15, 0x40, 0x0⟩, ⟨8, 0x8, 0x0⟩], 0x0, 0x0, [⟨0, 12, .rw, false⟩, ⟨12, 13, .rw, false⟩, ⟨31, 1, .rw, false⟩]⟩,
  ⟨0xf20404, [⟨15, 0x40, 0x0⟩, ⟨8, 0x8, 0x0⟩], 0x0, 0x0, [⟨0, 16, .rw, false⟩]⟩,
  ⟨0xf21000, [], 0x0, 0x0, [⟨0, 7, .ro, false⟩, ⟨8, 3, .ro, false⟩, ⟨16, 16, .ro, false⟩]⟩,
  ⟨0xf21004, [], 0x0, 0x0, [⟨0, 32, .ro, false⟩]⟩,
  ⟨0xf21008, [], 0x0, 0x0, [⟨0, 32, .ro, false⟩]⟩,
  ⟨0xf21010, [⟨4, 0x4, 0x0⟩], 0x0, 0x0, [⟨0, 32, .ro, false⟩]⟩,
  ⟨0xf21020, [⟨4, 0x4, 0x0⟩], 0x0, 0x0, [⟨0, 32, .ro, false⟩]⟩]

/-- The register words of R435, part 0. -/
def wordsR435_0 : List WordSpec := [
  ⟨0x1000000, [], 0x0, 0x0, [⟨0, 1, .ro, true⟩, ⟨1, 1, .ro, true⟩, ⟨2, 1, .ro, true⟩, ⟨3, 1, .ro, true⟩, ⟨4, 1, .ro, true⟩, ⟨8, 9, .ro, true⟩]⟩,
  ⟨0x1000004, [], 0x0, 0x3e80004, [⟨0, 4, .rw, true⟩, ⟨16, 14, .rw, true⟩]⟩,
  ⟨0x1000008, [], 0x0, 0x0, [⟨0, 2, .rw, true⟩, ⟨2, 1, .rw, true⟩, ⟨4, 15, .rw, true⟩, ⟨20, 1, .rw, true⟩, ⟨31, 1, .row, true⟩]⟩,
  ⟨0x100000c, [], 0x0, 0x0, [⟨0, 1, .ro, true⟩, ⟨1, 1, .ro, true⟩]⟩,
  ⟨0x1000010, [], 0x0, 0x0, [⟨0, 32, .ro, true⟩]⟩,
  ⟨0x1000014, [], 0x0, 0x0, [⟨0, 24, .ro, true⟩]⟩,
  ⟨0x1000018, [], 0x0, 0x0, [⟨0, 7, .ro, true⟩, ⟨8, 6, .ro, true⟩, ⟨14, 1, .ro, true⟩, ⟨15, 1, .ro, true⟩, ⟨16, 1, .ro, true⟩, ⟨31, 1, .w1c, true⟩]⟩,
  ⟨0x100001c, [], 0x0, 0x0, [⟨0, 32, .ro, true⟩]⟩,
  ⟨0x1000020, [], 0x0, 0x0, [⟨0, 32, .ro, true⟩]⟩,
  ⟨0x1000024, [], 0x0, 0x0, [⟨0, 32, .ro, true⟩]⟩,
  ⟨0x1000028, [], 0x0, 0x0, [⟨0, 2, .rw, true⟩, ⟨8, 1, .row, true⟩]⟩,
  ⟨0x100002c, [], 0x0, 0x0, [⟨0, 7, .ro, true⟩, ⟨8, 7, .ro, true⟩, ⟨16, 7, .ro, true⟩, ⟨24, 7, .ro, true⟩]⟩,
  ⟨0x1000030, [], 0x0, 0x0, [⟨0, 4, .ro, true⟩]⟩,
  ⟨0x1000040, [⟨8, 0x4, 0x0⟩], 0x0, 0x0, [⟨0, 32, .ro, true⟩]⟩,
  ⟨0x1000060, [], 0x0, 0x0, [⟨0, 1, .ro, true⟩, ⟨1, 1, .ro, true⟩, ⟨8, 8, .ro, true⟩]⟩,
  ⟨0x1000100, [⟨4, 0x4, 0x0⟩], 0x0, 0x0, [⟨0, 32, .ro, true⟩]⟩,
  ⟨0x1000110, [⟨3, 0x4, 0x0⟩], 0x0, 0x0, [⟨0, 32, .ro, true⟩]⟩,
  ⟨0x100011c, [], 0x0, 0x0, [⟨0, 20, .ro, true⟩]⟩,
  ⟨0x1000200, [⟨16, 0x20, 0x0⟩], 0x0, 0x0, [⟨3, 29, .rw, true⟩]⟩,
  ⟨0x1000204, [⟨16, 0x20, 0x0⟩], 0x0, 0x0, [⟨0, 19, .rw, true⟩]⟩,
  ⟨0x1000208, [⟨16, 0x20, 0x0⟩], 0x0, 0x0, [⟨0, 6, .rw, true⟩, ⟨6, 1, .rw, true⟩, ⟨7, 1, .row, true⟩]⟩,
  ⟨0x100020c, [⟨16, 0x20, 0x0⟩], 0x0, 0x0, [⟨0, 2, .ro, true⟩]⟩,
  ⟨0x1000210, [⟨16, 0x20, 0x0⟩], 0x0, 0x0, [⟨0, 32, .ro, true⟩]⟩,
  ⟨0x1001000, [⟨2, 0x1000, 0x0⟩, ⟨615, 0x4, 0x0⟩], 0x0, 0x0, [⟨0, 32, .ro, true⟩]⟩]

/-- The register words of R436, part 0. -/
def wordsR436_0 : List WordSpec := [
  ⟨0x1100000, [⟨64, 0x1000, 0x0⟩, ⟨8, 0x4, 0x0⟩], 0x0, 0x0, [⟨0, 32, .ro, false⟩]⟩,
  ⟨0x1100020, [⟨64, 0x1000, 0x0⟩], 0x0, 0x0, [⟨0, 32, .ro, false⟩]⟩,
  ⟨0x1100024, [⟨64, 0x1000, 0x0⟩], 0x0, 0x0, [⟨0, 16, .ro, false⟩, ⟨16, 16, .ro, false⟩]⟩,
  ⟨0x1100028, [⟨64, 0x1000, 0x0⟩], 0x0, 0x0, [⟨0, 16, .ro, false⟩]⟩,
  ⟨0x110002c, [⟨64, 0x1000, 0x0⟩], 0x0, 0x0, [⟨0, 5, .w1c, false⟩]⟩,
  ⟨0x1100100, [⟨64, 0x1000, 0x0⟩], 0x0, 0x0, [⟨0, 3, .rw, false⟩, ⟨8, 8, .rw, false⟩, ⟨16, 8, .rw, false⟩, ⟨24, 1, .rw, false⟩, ⟨25, 1, .rw, false⟩]⟩,
  ⟨0x1100104, [⟨64, 0x1000, 0x0⟩], 0x0, 0x0, [⟨0, 6, .rw, false⟩]⟩,
  ⟨0x1100108, [⟨64, 0x1000, 0x0⟩], 0x0, 0x0, [⟨3, 29, .rw, false⟩]⟩,
  ⟨0x110010c, [⟨64, 0x1000, 0x0⟩], 0x0, 0x0, [⟨0, 24, .rw, false⟩]⟩,
  ⟨0x1100110, [⟨64, 0x1000, 0x0⟩], 0x0, 0x0, [⟨0, 1, .row, false⟩]⟩,
  ⟨0x1100114, [⟨64, 0x1000, 0x0⟩], 0x0, 0x0, [⟨0, 1, .ro, false⟩, ⟨8, 8, .ro, false⟩]⟩,
  ⟨0x1100118, [⟨64, 0x1000, 0x0⟩], 0x0, 0x0, [⟨0, 32, .ro, false⟩]⟩]

/-- The register words of R437, part 0. -/
def wordsR437_0 : List WordSpec := [
  ⟨0x1140000, [], 0x0, 0x0, [⟨0, 32, .ctl, false⟩]⟩,
  ⟨0x1140004, [], 0x0, 0x0, [⟨0, 9, .ro, false⟩]⟩,
  ⟨0x1140008, [], 0x0, 0x0, [⟨0, 16, .ro, false⟩, ⟨16, 4, .ro, false⟩, ⟨20, 4, .ro, false⟩]⟩,
  ⟨0x114000c, [], 0x0, 0x6, [⟨0, 3, .ro, false⟩]⟩,
  ⟨0x1140010, [], 0x0, 0x0, [⟨0, 32, .ro, false⟩]⟩,
  ⟨0x1140014, [], 0x0, 0x0, [⟨0, 3, .w1c, false⟩]⟩,
  ⟨0x1140018, [], 0x0, 0x0, [⟨0, 32, .ro, false⟩]⟩,
  ⟨0x114001c, [], 0x0, 0x0, [⟨0, 32, .ro, false⟩]⟩,
  ⟨0x1150000, [⟨16, 0x400, 0x100⟩], 0x501000, 0x0, [⟨0, 2, .rws, false⟩, ⟨4, 2, .rw, false⟩, ⟨8, 1, .rws, false⟩]⟩,
  ⟨0x1150004, [⟨16, 0x400, 0x100⟩], 0x501000, 0x0, [⟨0, 32, .rws, false⟩]⟩,
  ⟨0x1150008, [⟨16, 0x400, 0x100⟩], 0x501000, 0x0, [⟨0, 32, .rws, false⟩]⟩,
  ⟨0x115000c, [⟨16, 0x400, 0x100⟩], 0x501000, 0x0, [⟨0, 32, .rws, false⟩]⟩,
  ⟨0x1150010, [⟨16, 0x400, 0x0⟩], 0x0, 0x0, [⟨0, 2, .w1c, false⟩]⟩,
  ⟨0x1150020, [⟨16, 0x400, 0x100⟩, ⟨4, 0x4, 0x0⟩], 0x501000, 0x0, [⟨0, 16, .rws, false⟩, ⟨16, 1, .rws, false⟩]⟩,
  ⟨0x1150030, [⟨16, 0x400, 0x0⟩], 0x0, 0x0, [⟨0, 32, .ro, false⟩]⟩,
  ⟨0x1150034, [⟨16, 0x400, 0x0⟩], 0x0, 0x0, [⟨0, 32, .ro, false⟩]⟩,
  ⟨0x1150038, [⟨16, 0x400, 0x0⟩], 0x0, 0x0, [⟨0, 32, .ro, false⟩]⟩,
  ⟨0x115003c, [⟨16, 0x400, 0x0⟩], 0x0, 0x0, [⟨0, 32, .ro, false⟩]⟩,
  ⟨0x1150040, [⟨16, 0x400, 0x0⟩, ⟨4, 0x20, 0x0⟩], 0x0, 0x0, [⟨0, 8, .rw, false⟩, ⟨8, 1, .rw, false⟩]⟩,
  ⟨0x1150044, [⟨16, 0x400, 0x0⟩, ⟨4, 0x20, 0x0⟩], 0x0, 0x1, [⟨0, 32, .rw, false⟩]⟩,
  ⟨0x1150048, [⟨16, 0x400, 0x0⟩, ⟨4, 0x20, 0x0⟩], 0x0, 0x0, [⟨0, 32, .rw, false⟩]⟩,
  ⟨0x115004c, [⟨16, 0x400, 0x0⟩, ⟨4, 0x20, 0x0⟩], 0x0, 0x0, [⟨0, 32, .rw, false⟩]⟩,
  ⟨0x1150050, [⟨16, 0x400, 0x0⟩, ⟨4, 0x20, 0x0⟩], 0x0, 0x0, [⟨0, 32, .rw, false⟩]⟩,
  ⟨0x1150054, [⟨16, 0x400, 0x0⟩, ⟨4, 0x20, 0x0⟩], 0x0, 0x0, [⟨0, 32, .rw, false⟩]⟩,
  ⟨0x1150058, [⟨16, 0x400, 0x0⟩, ⟨4, 0x20, 0x0⟩], 0x0, 0x0, [⟨0, 32, .rw, false⟩]⟩,
  ⟨0x1150100, [⟨16, 0x400, 0x100⟩, ⟨4, 0xc0, 0x0⟩], 0x501000, 0x0, [⟨0, 32, .rws, false⟩]⟩,
  ⟨0x1150104, [⟨16, 0x400, 0x100⟩, ⟨4, 0xc0, 0x0⟩], 0x501000, 0x0, [⟨0, 32, .rws, false⟩]⟩,
  ⟨0x1150108, [⟨16, 0x400, 0x100⟩, ⟨4, 0xc0, 0x0⟩], 0x501000, 0x0, [⟨0, 1, .rws, false⟩]⟩,
  ⟨0x1150120, [⟨16, 0x400, 0x0⟩, ⟨4, 0xc0, 0x0⟩, ⟨4, 0x20, 0x0⟩], 0x0, 0x0, [⟨0, 8, .rw, false⟩, ⟨8, 1, .rw, false⟩]⟩,
  ⟨0x1150124, [⟨16, 0x400, 0x0⟩, ⟨4, 0xc0, 0x0⟩, ⟨4, 0x20, 0x0⟩], 0x0, 0x1, [⟨0, 32, .rw, false⟩]⟩]

/-- The register words of R437, part 1. -/
def wordsR437_1 : List WordSpec := [
  ⟨0x1150128, [⟨16, 0x400, 0x0⟩, ⟨4, 0xc0, 0x0⟩, ⟨4, 0x20, 0x0⟩], 0x0, 0x0, [⟨0, 32, .rw, false⟩]⟩,
  ⟨0x115012c, [⟨16, 0x400, 0x0⟩, ⟨4, 0xc0, 0x0⟩, ⟨4, 0x20, 0x0⟩], 0x0, 0x0, [⟨0, 32, .rw, false⟩]⟩,
  ⟨0x1150130, [⟨16, 0x400, 0x0⟩, ⟨4, 0xc0, 0x0⟩, ⟨4, 0x20, 0x0⟩], 0x0, 0x0, [⟨0, 32, .rw, false⟩]⟩,
  ⟨0x1150134, [⟨16, 0x400, 0x0⟩, ⟨4, 0xc0, 0x0⟩, ⟨4, 0x20, 0x0⟩], 0x0, 0x0, [⟨0, 32, .rw, false⟩]⟩,
  ⟨0x1150138, [⟨16, 0x400, 0x0⟩, ⟨4, 0xc0, 0x0⟩, ⟨4, 0x20, 0x0⟩], 0x0, 0x0, [⟨0, 32, .rw, false⟩]⟩]

/-- The register words of R110, part 0. -/
def wordsR110_0 : List WordSpec := [
  ⟨0x1200000, [], 0x0, 0x0, [⟨0, 32, .ro, false⟩]⟩,
  ⟨0x1200004, [], 0x0, 0x0, [⟨0, 32, .ro, false⟩]⟩,
  ⟨0x1200008, [], 0x0, 0x0, [⟨0, 32, .ro, false⟩]⟩,
  ⟨0x120000c, [], 0x0, 0x0, [⟨0, 32, .ro, false⟩]⟩,
  ⟨0x1201000, [⟨64, 0x40, 0x0⟩], 0x0, 0x0, [⟨0, 32, .ctl, false⟩]⟩,
  ⟨0x1201004, [⟨64, 0x40, 0x40⟩], 0x1201000, 0x0, [⟨0, 6, .rws, false⟩, ⟨6, 1, .rws, true⟩]⟩,
  ⟨0x1201008, [⟨64, 0x40, 0x0⟩], 0x0, 0x0, [⟨0, 7, .ro, false⟩]⟩,
  ⟨0x120100c, [⟨64, 0x40, 0x0⟩], 0x0, 0x0, [⟨0, 32, .ro, false⟩]⟩,
  ⟨0x1201010, [⟨64, 0x40, 0x0⟩], 0x0, 0x0, [⟨0, 32, .ro, false⟩]⟩,
  ⟨0x1201014, [⟨64, 0x40, 0x0⟩], 0x0, 0x0, [⟨0, 24, .ro, false⟩]⟩,
  ⟨0x1201018, [⟨64, 0x40, 0x0⟩], 0x0, 0x0, [⟨0, 16, .ro, false⟩, ⟨16, 8, .ro, false⟩]⟩,
  ⟨0x120101c, [⟨64, 0x40, 0x0⟩], 0x0, 0x0, [⟨0, 32, .ro, false⟩]⟩,
  ⟨0x1201020, [⟨64, 0x40, 0x0⟩], 0x0, 0x0, [⟨0, 1, .w1c, false⟩, ⟨1, 1, .w1c, false⟩]⟩]

/-- The register words of R485, part 0. -/
def wordsR485_0 : List WordSpec := [
  ⟨0x1300000, [⟨2, 0x1000, 0x0⟩, ⟨64, 0x4, 0x0⟩], 0x0, 0x0, [⟨0, 32, .rw, false⟩]⟩,
  ⟨0x1300100, [⟨2, 0x1000, 0x0⟩], 0x0, 0x0, [⟨0, 1, .row, false⟩]⟩,
  ⟨0x1300104, [⟨2, 0x1000, 0x0⟩], 0x0, 0x0, [⟨0, 1, .ro, false⟩, ⟨1, 1, .ro, false⟩, ⟨8, 8, .ro, false⟩]⟩,
  ⟨0x1300108, [⟨2, 0x1000, 0x0⟩], 0x0, 0x0, [⟨0, 1, .w1c, false⟩]⟩,
  ⟨0x1302000, [], 0x0, 0x3e803e8, [⟨0, 16, .rw, true⟩, ⟨16, 16, .rw, true⟩]⟩,
  ⟨0x1302004, [], 0x0, 0x0, [⟨0, 1, .ro, false⟩, ⟨1, 1, .ro, false⟩, ⟨16, 16, .ro, false⟩]⟩]

/-- Every word of the map. -/
def words : List WordSpec :=
  wordsR484_0 ++ wordsR98_0 ++ wordsR83_0 ++ wordsR83_1 ++ wordsR53_0 ++ wordsR486_0 ++ wordsR465_0 ++ wordsR44_0 ++ wordsR401_0 ++ wordsR401_1 ++ wordsR402_0 ++ wordsR402_1 ++ wordsR368_0 ++ wordsR369_0 ++ wordsR344_0 ++ wordsR344_1 ++ wordsR131_0 ++ wordsR96_0 ++ wordsR233_0 ++ wordsR234_0 ++ wordsR170_0 ++ wordsR215_0 ++ wordsR261_0 ++ wordsR262_0 ++ wordsR284_0 ++ wordsR317_0 ++ wordsR317_1 ++ wordsR318_0 ++ wordsR318_1 ++ wordsR435_0 ++ wordsR436_0 ++ wordsR437_0 ++ wordsR437_1 ++ wordsR110_0 ++ wordsR485_0

/-- The words whose reset value the tables give as a number other than zero: base, (count, stride) of each index, value. -/
def nonzeroReset : List (Nat × List (Nat × Nat) × Nat) := [
  (0x0, [], 0x96122),
  (0x100, [], 0x10),
  (0x100004, [], 0xf0),
  (0x100008, [], 0x3e8),
  (0x10000c, [], 0x64),
  (0x100024, [], 0x1000),
  (0x100400, [(64, 0x10)], 0x1000),
  (0x30000c, [], 0x3e8),
  (0x300010, [], 0x3),
  (0x300034, [], 0x25810),
  (0x300048, [], 0x20),
  (0x301000, [], 0x3),
  (0x301004, [], 0x3e800c8),
  (0x301008, [], 0x400),
  (0x30100c, [], 0x1e0),
  (0x301010, [(4, 0x20)], 0x352),
  (0x301014, [(4, 0x20)], 0x352),
  (0x30101c, [(4, 0x20)], 0x37b),
  (0x301020, [(4, 0x20)], 0x352),
  (0x301028, [(4, 0x20)], 0xffff),
  (0x400020, [], 0x1000201),
  (0x400038, [], 0xbb80014),
  (0x40003c, [], 0x3e8),
  (0x400040, [], 0x2710),
  (0x400054, [], 0xff),
  (0x4000a4, [], 0xf4240),
  (0x501004, [(16, 0x100)], 0x12400),
  (0x50100c, [(16, 0x100)], 0x3e8),
  (0x501098, [(16, 0x100)], 0x3e8),
  (0x520000, [(256, 0x100)], 0xffff00),
  (0x520004, [(256, 0x100)], 0xffffffff),
  (0x601004, [(56, 0x40)], 0x8),
  (0x601008, [(56, 0x40)], 0x3a343a00),
  (0x701008, [(3, 0x400)], 0xa041f40),
  (0x70100c, [(3, 0x400)], 0xa14),
  (0x701010, [(3, 0x400)], 0x7d),
  (0x800000, [], 0x100),
  (0x800004, [], 0xa86421),
  (0x804044, [(16, 0x80)], 0x4),
  (0x900000, [], 0x1801)] ++ [
  (0x900008, [], 0x10),
  (0x901018, [(197, 0x40)], 0x4),
  (0xb00000, [], 0x7d0),
  (0xb00004, [], 0x3d09),
  (0xb00008, [], 0xa),
  (0xb0000c, [], 0x20),
  (0xb00010, [], 0x10c),
  (0xb00018, [], 0x1000),
  (0xb0001c, [], 0x40),
  (0xb01008, [], 0x7f0000),
  (0xc00008, [(13, 0x10000)], 0xff),
  (0xec0024, [(16, 0x4000)], 0x1e),
  (0xec0028, [(16, 0x4000)], 0xfc7c),
  (0xec002c, [(16, 0x4000)], 0x2710),
  (0xec100c, [(16, 0x4000), (192, 0x40)], 0x1),
  (0xec1024, [(16, 0x4000), (192, 0x40)], 0x820064),
  (0xf00004, [(128, 0x200)], 0xf0000),
  (0xf0000c, [(128, 0x200)], 0x60),
  (0xf00064, [(128, 0x200), (4, 0x30)], 0x60),
  (0xf10004, [(128, 0x200)], 0x100000),
  (0xf10020, [(128, 0x200)], 0xaff6a),
  (0xf10024, [(128, 0x200)], 0x60082104),
  (0xf10064, [(128, 0x200), (4, 0x30)], 0x60),
  (0xf20000, [(8, 0x20)], 0x104),
  (0x1000004, [], 0x3e80004),
  (0x114000c, [], 0x6),
  (0x1150044, [(16, 0x400), (4, 0x20)], 0x1),
  (0x1150124, [(16, 0x400), (4, 0xc0), (4, 0x20)], 0x1),
  (0x1302000, [], 0x3e803e8)]

/-- The instance indices of a word of an array, from the distance to the array's base; none where no instance lies
there. -/
def indices : List Dim → Nat → Option (List Nat)
  | [], r => if r = 0 then some [] else none
  | d :: ds, r =>
    let i := r / d.stride
    if i < d.count then (indices ds (r - i * d.stride)).map (i :: ·) else none

/-- The distance from the owner of instance 0 to the owner of an instance. -/
def ownOffset : List Dim → List Nat → Nat
  | d :: ds, i :: is => i * d.ownStride + ownOffset ds is
  | _, _ => 0

/-- The row and instance that hold a word offset: its specification and the control register of the function that owns
its RWS fields. None for a reserved offset (R11). -/
def findWord (off : Nat) : List WordSpec → Option (WordSpec × Nat)
  | [] => none
  | s :: ss =>
    if s.base ≤ off then
      match indices s.dims (off - s.base) with
      | some is => some (s, s.own + ownOffset s.dims is)
      | none => findWord off ss
    else findWord off ss

/-- Does a word offset belong to an array given as base and (count, stride) pairs? -/
def inArray : List (Nat × Nat) → Nat → Bool
  | [], r => r == 0
  | (n, st) :: ds, r => decide (r / st < n) && inArray ds (r - (r / st) * st)

/-- The reset value of a word, from the rows that give a number other than zero. -/
def tableReset (off : Nat) : List (Nat × List (Nat × Nat) × Nat) → Nat
  | [] => 0
  | (b, ds, v) :: rest => if b ≤ off ∧ inArray ds (off - b) = true then v else tableReset off rest

/-- R321: the routers' slots that hold an endpoint. -/
def emptySlots : List Nat :=
  [85, 87, 89, 91, 93, 95, 65, 69, 75, 79, 49, 55, 57, 63, 33, 39, 41, 47, 17, 20, 21, 26, 27, 31,
   0, 1, 2, 3, 5, 7, 9, 11, 13, 14, 15]

/-- R321: does slot e hold an endpoint? -/
def occupied (e : Nat) : Bool := decide (e < 96) && !emptySlots.contains e

/-- R333: the dimension-order route of router i = 8y + x towards endpoint e: x first, then y, then eject; 7 for an empty
slot. -/
def dimensionOrder (i e : Nat) : Nat :=
  let x := i % 8; let y := i / 8; let ex := (e / 2) % 8; let ey := e / 16
  if !occupied e then 7
  else if x < ex then 2 else if ex < x then 3 else if y < ey then 4 else if ey < y then 5 else e % 2

/-- R333: a word of T[0]: eight endpoints of three bits. -/
def routeWord (i j : Nat) : Nat :=
  (upFrom 0 8).foldl (fun a n => a + dimensionOrder i (8 * j + n) * 8 ^ n) 0

/-- R333: NOC_DEV.T[0] of a device with this ID: device d by port (d − own − 1) mod 4, and 3 for the device itself. -/
def deviceTable (own : Nat) : Nat :=
  (upFrom 0 4).foldl (fun a d => a + (if d = own then 3 else (d + 7 - own) % 4) * 4 ^ d) 0

/-- The event sources that are levels; every other source is an edge (R45, R53, R82, R111, R132, R171, R235, R263, R285,
R319, R345, R370, R403, R438, R466, R483). -/
def isLevel (n : Nat) : Bool :=
  (decide (n < 0x340) && n % 8 == 0) || (decide (0x440 ≤ n) && decide (n < 0x580)) ||
  (decide (0x5C0 ≤ n) && decide (n < 0x5E5)) || (decide (0x5F8 ≤ n) && decide (n ≤ 0x609)) ||
  [0x610, 0x611, 0x612].contains n || (decide (0x630 ≤ n) && decide (n ≤ 0x63E)) || n == 0x640 ||
  (decide (0x650 ≤ n) && decide (n < 0x660)) || n == 0x6C0 || (decide (0x6C4 ≤ n) && decide (n < 0x6C7)) ||
  (decide (0x6E0 ≤ n) && decide (n < 0x6F0)) || [0x701, 0x741, 0x783, 0x785, 0x786, 0x789].contains n ||
  (decide (0x7C0 ≤ n) && decide (n ≤ 0x7C5)) || (decide (0x7CB ≤ n) && decide (n ≤ 0x7CE)) || n == 0x7E4

/-- The sources whose world is fixed secure by their chapters (R345, R438). -/
def fixedSecure (n : Nat) : Bool := [0x641, 0x642, 0x7E0, 0x7E1, 0x7E2, 0x7E3].contains n

/-- R475, R476, R486: word +0x00 of EVT_SRC[n] at reset: TYPE, the world of a source of fixed world, and LOG. -/
def sourceReset (n : Nat) : Nat :=
  b2n (fixedSecure n) * 8 + b2n (isLevel n) * 16 + b2n (decide (0x780 ≤ n)) * 32

/-- The reset value of a word of the map: the tables' numbers, and the values the tables give by a rule (R234, R333,
R344, R131, R486). -/
def reset (off : Nat) : Nat :=
  if 0xC00000 ≤ off ∧ off < 0xCD0000 ∧ off % 0x10000 = 4 then (off - 0xC00000) / 0x10000
  else if 0xC00000 ≤ off ∧ off < 0xCD0000 ∧ off % 0x10000 = 8 then
    0xFF + (if (off - 0xC00000) / 0x10000 = 12 then 0x10000 else 0)
  else if 0x801000 ≤ off ∧ off < 0x802800 then
    (let r := off - 0x801000
     if r % 0x40 < 0x30 then (if (r / 0x40) % 2 = 0 then routeWord (r / 0x80) ((r % 0x40) / 4) else 0xFFFFFF) else 0)
  else if off = 0x800020 then deviceTable 0
  else if off = 0x800024 then 0xFF
  else if 0x803000 ≤ off ∧ off < 0x803600 ∧ off % 0x10 = 0 then
    (if occupied ((off - 0x803000) / 0x10) then 0 else 7)
  else if 0x901000 ≤ off ∧ off < 0x901000 + 197 * 0x40 ∧ off % 0x40 = 0x18 then
    (let n := (off - 0x901000) / 0x40
     if 195 ≤ n then 0 else if 117 ≤ n ∧ n ≤ 156 then 8 else 4)
  else if 0x210000 ≤ off ∧ off < 0x218000 ∧ off % 0x10 = 0 then sourceReset ((off - 0x210000) / 0x10)
  else tableReset off nonzeroReset

end RegTable

/-- What a word of the register file holds at reset. -/
def regReset (off : Nat) : Reg32 := BitVec.ofNat 32 (RegTable.reset off)

end Sys2Proof.Machine
end

