-- ==== Sys2Proof/Machine/State.lean ====
section
/-! DEFINITION. The state of the device as plain data: every register, memory, queue, buffer and pin the manual gives it,
the queue of waiting commands, and the state right after power-on reset. A register-visible field has its home in `regs`;
the structures below hold what no register shows, and what registers derive. -/

namespace Sys2Proof.Machine

/-- Why a step stops with a fault. -/
inductive Fault where
  /-- An operand of the command has a shape that no such command can have (WellFormed refuses it): raised by exec for a
  command that WellFormed refuses. Safe: the device never sees such a command. -/
  | malformedCommand
  deriving DecidableEq, Repr

/-- Why a command is refused. -/
inductive Refusal where
  /-- No meaning has been written for the command: raised by an arm of exec. Safe: the model says nothing about it. -/
  | notModelled (mnemonic : String)
  deriving DecidableEq, Repr

/-- Where a job stands between the read of its descriptor and the write of its record (R64, R67–R72). -/
inductive Phase where
  /-- Fetched and checked, not yet started. -/
  | held
  /-- Started (R64), and not yet in a queue of its block. -/
  | started
  /-- In the queue of its engine or channel. -/
  | queued
  /-- Executing. -/
  | running
  /-- Ended; the JFE has not yet taken the end. -/
  | ended
  /-- The JFE has taken the end and the record waits for room in its CQ (R74). -/
  | taken
  deriving DecidableEq, Repr

/-- A job in flight (R68): its ring, its descriptor as 512 bits (byte k in bits [8k+7:8k]), and where it stands. `unit`
and `seq` give the queue it entered and its place in the order of entry; `status`, `result` (RESULT bytes 4–19 of the
record, little-endian) and `time` are its end; `targets` are the jobs a CANCEL waits for (R76); `named` says
that it passed check 4 of R65 with a carrier context (R53). `verdict`, `uncorr` and `poison` are what the answers to its
packets have brought so far: the status that stops it (R340), an uncorrectable word, and poison (R119). `params` are the parameter words an engine read as
the job began (R242). -/
structure Job where
  id : Nat
  sq : Nat
  desc : BitVec 512
  phase : Phase
  unit : Nat
  seq : Nat
  status : Nat
  result : BitVec 128
  time : ShortTime
  targets : List Nat
  named : Bool
  verdict : Option Nat
  uncorr : Bool
  poison : Bool
  params : List Word
  deriving DecidableEq, Repr

/-- What the device sends out over PCIe, oldest first in `Dev.out`. -/
inductive Out where
  /-- A 64-bit AtomicOp Swap of zero at an IOVA, as the PF (R59). -/
  | swap (iova : Nat)
  /-- A memory read of n bytes as function f. -/
  | read (f iova n : Nat)
  /-- A memory write as function f; ro is the Relaxed Ordering bit (R46). -/
  | write (f iova : Nat) (bytes : List Byte) (ro : Bool)
  /-- A completion record, one 32-byte write (R72). -/
  | record (f iova : Nat) (rec : BitVec 256)
  /-- An MSI-X message of vector v of function f (R477). -/
  | message (f v : Nat) (addr : BitVec 64) (data : BitVec 32)
  /-- What a read through the memory window returns (R98). -/
  | window (off : Nat) (bytes : List Byte)
  /-- A PTM Response or ResponseD with the PTM Master Time in ns (R387). -/
  | ptm (time : Nat)
  deriving DecidableEq, Repr

/-- The job front end: what its registers do not show. -/
structure JfeState where
  /-- Jobs in flight, in order of fetch. -/
  jobs : List Job
  /-- The number the next fetched job takes. -/
  nextJob : Nat
  /-- The place the next job to enter a queue takes. -/
  nextSeq : Nat
  /-- Rings flagged for the next poll (R60). -/
  flagged : List Nat
  /-- Bitmap words whose Swap is outstanding (R59). -/
  swaps : List Nat
  /-- Rings whose producer-count read is outstanding. -/
  countReads : List Nat
  /-- Is the read of the producer-count array outstanding (R62)? -/
  scanRead : Bool
  /-- Descriptor reads outstanding: ring, first count, number. -/
  fetches : List (Nat × Nat × Nat)
  /-- The ring the JFE fetched from last (R68). -/
  lastRing : Nat
  /-- SQs of which a producer count has been read since they entered RUN (R56), rising. -/
  known : List Nat
  /-- CQs whose consumer-count read is outstanding (R74). -/
  ciReads : List Nat
  /-- The cached consumer count of each CQ (R57, R74); 0 where none is listed. -/
  cached : List (Nat × BitVec 32)
  /-- CQs in a stretch in which reads have left them full (R74). -/
  stalled : List Nat
  /-- The order in which ends were taken, for records that wait: job numbers. -/
  waiting : List Nat
  /-- Bus Master Enable of function f in bit f (R56, R80). -/
  busMaster : BitVec 64
  deriving DecidableEq, Repr

/-- One occurrence of an event source that has not yet reached the event fabric (R474): source, world. -/
structure Occurrence where
  source : Nat
  world : Bool
  deriving DecidableEq, Repr

/-- An MSI-X table entry (R477): message address, data and mask bit. -/
structure Vector where
  addr : BitVec 64
  data : BitVec 32
  masked : Bool
  deriving DecidableEq, Repr

/-- The event fabric: what its registers do not show. Vectors are keyed by 4096 f + v. -/
structure EvtState where
  /-- Occurrences on their way, oldest first. -/
  queue : List Occurrence
  /-- Level sources whose LIVE is 1, rising. -/
  live : List Nat
  /-- The event log of the oasis domain (R481), oldest first: SEQ and the 24 bytes. -/
  log : List (BitVec 192)
  /-- Short time of the last entry an occurrence wrote, if any (R476). -/
  lastLog : Option ShortTime
  /-- The MSI-X tables. -/
  table : List (Nat × Vector)
  /-- Functions whose MSI-X is enabled, and whose Function Mask is set, in bit f. -/
  enabled : BitVec 64
  fnMask : BitVec 64
  /-- Vectors whose PBA pending bit is set, rising keys. -/
  pba : List Nat
  /-- When a vector last sent a message. -/
  lastSent : List (Nat × ShortTime)
  /-- Deliveries to the stewards' interrupt inputs (R474), oldest first: true for the secure one, and the source. -/
  toSteward : List (Bool × Nat)
  deriving DecidableEq, Repr

/-- R123: an entry of a repeat-correct tracker: word key, stage (true: WRITTEN), time of the last correction. -/
structure Track where
  word : Nat
  written : Bool
  time : ShortTime
  deriving DecidableEq, Repr

/-- The memory system: what its registers do not show. -/
structure MemState where
  /-- Tracker entries of each controller, by controller number. -/
  trackers : List (Nat × List Track)
  /-- SRAM rows redirected to spare rows: controller, bank, row (R124). -/
  remapped : List (Nat × Nat × Nat)
  /-- Soft repairs in progress: stack, pseudo-channel, and the word whose DRAM row is repaired (R125). -/
  repairs : List (Nat × Nat × Nat)
  /-- The next word of the on-chip scrubber and the next group of the HBM scrubber (R126), and the interval of each
  pass under way. -/
  scrubWord : Nat
  scrubGroup : Nat
  scrubHours : Nat × Nat
  /-- Corrections of each controller in the running hour (R131). -/
  hourCount : List (Nat × Nat)
  deriving DecidableEq, Repr

/-- The pace loop: what its registers do not show. One entry per rail where a list is named so. -/
structure PaceState where
  /-- Rail: consecutive updates with slack above SLACK_HI (R35 order 2b). -/
  slackHigh : List Nat
  /-- Rail: was there a LATE completion since the last update? -/
  late : List Bool
  /-- Consecutive updates with every rail in its band, and rail: consecutive updates out of its band (R40). -/
  inBand : Nat
  outBand : List Nat
  /-- Monitor: consecutive updates more than 256 units from the mean (R33). -/
  deviant : List (Nat × Nat)
  /-- Monitors whose domain has been ON for the whole of the latest window, rising. -/
  taking : List Nat
  /-- Domains that have not been ON for the whole of the window under way, rising (R33). -/
  broken : List Nat
  /-- Has a first window ended since the fabric was released (R40)? -/
  windowed : Bool
  /-- Rail: the times and values of VNEED of the past 24 h (R41). -/
  history : List (Nat × List (ShortTime × Nat))
  /-- Short time at which the loop began, if it has. -/
  began : Option ShortTime
  /-- Do 24 h of history exist (R44)? -/
  day : Bool
  deriving DecidableEq, Repr

/-- The power controller: what its registers do not show. -/
structure PowerState where
  /-- Chest banks in RETAIN, bank 32 + k in bit k (R447, R454). -/
  retain : BitVec 8
  /-- Has an entry to a low state stopped the JFE and the TSU (R449 step 1)? -/
  paused : Bool
  /-- Do they resume only after the next housekeeping round (R450)? -/
  awaitRound : Bool
  /-- When step 1 of the entry under way was taken (R449), if it has jobs to drain. -/
  drainFrom : Option ShortTime
  /-- The causes of the transition in progress and of the pending one, coded as PWR_STATUS2.LAST_CAUSE. -/
  cause : Nat
  pendCause : Nat
  /-- The wake code of the pending request and when it was taken (R453), if it is for ACTIVE. -/
  pendCode : Option (Nat × ShortTime)
  /-- Level wake sources (R451): WAKE_N low, and the PCIe link leaving L1.2. -/
  wakeLow : Bool
  linkWake : Bool
  /-- The state a domain that is BUSY moves to, by domain (R444). -/
  domTarget : List (Nat × Nat)
  /-- The chest signatures of the oasis domain, with the worlds of the bank's two granules, and the sticky flags of the retention
  monitors, by bank less 32 (R430, R454). -/
  sigs : List (Nat × BitVec 64 × BitVec 2)
  flags : BitVec 8
  /-- Is THERMTRIP_N driven low (R463)? -/
  tripLow : Bool
  /-- When charging began (R457). -/
  charging : Option ShortTime
  /-- The readings of the temperature channels 0–34 in the last rounds, newest first, at most 1,000 (R459). -/
  rounds : List (List (Option Int))
  /-- Consecutive rounds in which the junction, and the hottest HBM sensor, read below what clears their THROTTLE (R461). -/
  coolRounds : Nat
  hbmCoolRounds : Nat
  deriving DecidableEq, Repr

/-- Resets and boot: what the registers do not show (R467–R471, R496). -/
structure BootState where
  /-- Are the main supplies up, so that the device is released? -/
  powered : Bool
  /-- Is PERST_N high, and has it been high since release? -/
  perst : Bool
  seenHigh : Bool
  /-- The boot that is due or under way: true for a cold one. -/
  due : Option Bool
  /-- The reset cause of that boot (R482). -/
  cause : Nat
  /-- Has a tamper or supply glitch still to be reported (R438)? -/
  tamper : Bool
  /-- What the boot under way found outside the device, while it waits for a host image (R471). -/
  input : Option BootInput
  deriving DecidableEq, Repr

/-- A packet held in a router (R332): router 8y + x and the input link it came by: 4c + k for link k of channel c
(+x, −x, +y, −y), 16 + 4s + k for link k of slot s. -/
structure Held where
  pkt : Packet
  router : Nat
  inLink : Nat
  deriving DecidableEq, Repr

/-- A request or posted write of an endpoint that still lacks its answer (R328): endpoint, tag, whether posted, address. -/
structure Unanswered where
  ep : Nat
  tag : Nat
  posted : Bool
  addr : Nat
  deriving DecidableEq, Repr

/-- The network on chip: what its registers do not show. -/
structure NocState where
  /-- Packets held in routers, oldest first. -/
  held : List Held
  /-- The input link last granted for each output: key 64 router + 8 port + link. -/
  granted : List (Nat × Nat)
  /-- Packets ejected at their slot that their block has not yet taken, oldest first. -/
  arrived : List Packet
  /-- Slots that have not yet switched to the current epoch (R336). -/
  unswitched : List Nat
  /-- Has a flip left a former epoch whose draining is still to be reported (R336)? -/
  draining : Bool
  /-- Requests and posted writes without their answer. -/
  waiting : List Unanswered
  /-- The words last delivered to a tag of an endpoint: key 1024 ep + tag (R118). -/
  delivered : List (Nat × List Ext)
  /-- DRAINED messages on their way to the power controller, by slot (R337). -/
  toPower : List Nat
  /-- Slots the power controller knows to be drained. -/
  drained : List Nat
  /-- The power-controller message last delivered to a slot (R324). -/
  powerSeen : List (Nat × BitVec 56)
  deriving DecidableEq, Repr

/-- R136: the level of a core. -/
inductive Level where
  | tk | ns | ss
  deriving DecidableEq, Repr

/-- The architectural state of a core (R133). Register files are sparse maps that read zero where nothing is listed: `v` by
physical register number, `acc` by 32 a + lane, `p` for P[1..7], `seg` for SEG[1..3]. `hold` lists the lanes (32 a + lane)
that hold a saturated value (R143). -/
structure Arch where
  s : List (Nat × BitVec 36)
  a : List (Nat × BitVec 32)
  v : List (Nat × BitVec 576)
  acc : List (Nat × BitVec 48)
  p : List (Nat × BitVec 32)
  cbBase : List (Nat × BitVec 32)
  cbLen : List (Nat × BitVec 32)
  trips : BitVec 32
  pass : BitVec 32
  stg : BitVec 3
  rot : BitVec 5
  tsnap : BitVec 64
  seg : List (Nat × BitVec 24)
  accMode : BitVec 8
  accSt : BitVec 17
  mode : BitVec 2
  hold : List Nat
  pc : BitVec 13
  level : Level
  trapPc : BitVec 13
  trapCause : BitVec 8
  trapInfo : BitVec 17
  trapAddr : BitVec 56
  trapLevel : BitVec 2
  scratch : List (Nat × BitVec 36)
  deriving DecidableEq, Repr

/-- R161: a trap cause met: code, DETAIL, TAG, BUNDLE_FAULT and TRAP_ADDR. -/
structure Trap where
  code : Nat
  detail : Nat
  tag : Nat
  bundleFault : Nat
  addr : Nat
  deriving DecidableEq, Repr

/-- One word's share of a store or of staged results: the word's internal byte address, the value, whether it is a narrow
write of the byte view, and its mask of samples or bytes; `whole` marks a whole word. -/
structure StoreWord where
  addr : Nat
  value : Word
  byteView : Bool
  mask : Nat
  whole : Bool
  deriving DecidableEq, Repr

/-- What a load does with the words it reads (R184): n words into V[r] under lanes (`v`, physical number), a sample, a complex
sample or bytes into S, or four bytes into A. -/
inductive LoadInto where
  | v (phys : Nat) (lanes : BitVec 32)
  | sample (r k : Nat)
  | complex (r k : Nat)
  | bytes (r lo n : Nat) (sgn : Bool)
  | addr (r lo : Nat)
  deriving DecidableEq, Repr

/-- A load beyond own data memory that has not returned (R158): its words' internal addresses with their places in the
register, where they go, and the address of the access. -/
structure PendingLoad where
  words : List (Nat × Nat)
  into : LoadInto
  access : Nat
  deriving DecidableEq, Repr

/-- R201: a coprocessor operation of a core, from CXISSUE to its end. -/
structure CxOp where
  tag : Nat
  fn : Nat
  block : Nat
  /-- Has it begun computing? -/
  begun : Bool
  /-- The ranges it writes, as (first word address, words), known once it has begun. -/
  ranges : List (Nat × Nat)
  /-- Staged words of C, whether they are poison, and the record with its address, if one is allowed. -/
  staged : List (Nat × Word)
  poisoned : Bool
  record : Option (Nat × Word)
  /-- The late error with the address concerned, and whether it has been reported (R205). -/
  err : Option (Nat × Nat)
  reported : Bool
  /-- Has its record been accepted, so that only its report is due? -/
  ended : Bool
  deriving DecidableEq, Repr

/-- The bundle a core is executing: the working copy of its registers, how many operations it has had, what they write
(R138), the target of a taken branch, the traps met, flags newly set, its store, load and coprocessor issue, and whether
its last operation has been executed. -/
structure Bundle where
  next : Arch
  count : Nat
  writes : List Nat
  branch : Option (BitVec 13)
  traps : List Trap
  tovf : Bool
  sovf : Bool
  /-- The bits of ACCST that the bundle clears; `next.accSt` holds those it sets (R144). -/
  clear : BitVec 17
  syscall : Bool
  signal : Bool
  fence : Bool
  /-- Does the commit take a time snapshot (R188), put half of short time (true: the upper) into S[k], or put the address of the
  next bundle into S[31] (R189)? -/
  snap : Bool
  timeTo : Option (Nat × Bool)
  link : Bool
  tend : Option (BitVec 8)
  lock : Option Bool
  store : List StoreWord
  load : Option PendingLoad
  cx : Option CxOp
  ready : Bool
  stalls : Nat
  deriving DecidableEq, Repr

/-- A core: what its registers on the host side do not show. -/
structure Core where
  arch : Arch
  bundle : Option Bundle
  /-- Stores committed and not yet accepted, oldest first (R160), and whether MFENCE holds younger accesses. -/
  buffer : List (List StoreWord)
  fence : Bool
  /-- Stores accepted with an error that has not been raised: status and address. -/
  storeErrs : List (Nat × Nat)
  /-- Asynchronous traps held (R163): ABORT, STORE_FAULT and CX_LATE, each with MORE. -/
  abort : Option (Trap × Bool)
  fault : Option (Trap × Bool)
  late : Option (Trap × Bool)
  /-- The status of a committed TEND whose end is not yet reported (R168). -/
  ending : Option (BitVec 8)
  /-- Is an abort request on its way (R169), and has the end been forced (R228)? -/
  asked : Bool
  forced : Bool
  /-- The function of the task on the core (R148). -/
  func : Nat
  /-- Scoreboard, lock and operations of the coprocessor (R201, R211). -/
  sb : BitVec 8
  lock : Bool
  ops : List CxOp
  deriving DecidableEq, Repr

/-- R229: the states of a task entry. -/
inductive TaskState where
  | free | delayed | ready | running | aborting | waiting
  deriving DecidableEq, Repr

/-- A task entry (R216). `job` is the job of a job task, `freeJobs` the TASK_FREEs that wait for the end of the run, `arrived`
and `place` give its arrival on its shelf or list, `stage` its hold stage (R224), `timed` the wake time that began the
run, `wake` the next scheduled wake, `core` the core it runs on, `since` when its abort was requested, and `abortAs` the
status of an aborted run. -/
structure Task where
  state : TaskState
  gen : BitVec 16
  func : Nat
  world : Bool
  prio : Nat
  startPc : BitVec 13
  mask : BitVec 13
  param : BitVec 56
  arg : BitVec 64
  lastCore : Option Nat
  resident : Bool
  period : Nat
  wake : ShortTime
  timed : ShortTime
  pendingWake : Bool
  lastStatus : BitVec 8
  runs : BitVec 16
  deadline : Option ShortTime
  job : Option Nat
  freeJobs : List Nat
  arrived : ShortTime
  place : Nat
  stage : Nat
  core : Option Nat
  since : ShortTime
  abortAs : Nat
  deriving DecidableEq, Repr

/-- The task scheduler: what its registers do not show. -/
structure TsuState where
  /-- Task entries, by number; an unlisted one is FREE and was never allocated. -/
  tasks : List (Nat × Task)
  /-- The next place in the order of arrivals. -/
  nextPlace : Nat
  /-- The erg being retired, and whether by abort (R232). -/
  retiring : Option (Nat × Bool)
  deriving DecidableEq, Repr

/-- R364: a transaction that a ULD slot has sent over its link. -/
structure Tracked where
  pkt : Packet
  deriving DecidableEq, Repr

/-- What a port sends over its link. -/
inductive Line where
  /-- DATA: SEQ and the flit (R356). -/
  | data (seq : Nat) (flit : Flit)
  /-- TIME: TSEQ, RSEQ, T_PREV_TX and T_RSEQ_RX (R366). -/
  | time (tseq rseq : BitVec 8) (prevTx rseqRx : BitVec 96)
  | sleep | train | bye
  /-- FENCE and UNFENCE of R339. -/
  | fence | unfence
  deriving DecidableEq, Repr

/-- An Uldom port: what its registers do not show. Lists of eight are by credit class (R360). -/
structure LinkPort where
  /-- Everything sent over the link, oldest first. -/
  sentLine : List Line
  /-- SEQ of the next DATA frame, and the frames an ACK has not covered (R359). -/
  nextSeq : Nat
  replay : List (Nat × Flit)
  /-- Packets that wait for credit, replay room or the link: hop class and packet. -/
  queue : List (Bool × Packet)
  /-- Flits sent in each class, modulo 4,096; the peer's limits; its freed counts. -/
  sent : List Nat
  limits : List Nat
  freedPeer : List Nat
  /-- Flits freed here in each class, modulo 4,096. -/
  freed : List Nat
  /-- The SEQ of the last DATA frame accepted, and NAK in the frames sent. -/
  lastSeq : Nat
  nak : Bool
  /-- Packets of which not every flit has arrived: class, flits still to come, packet so far. -/
  partials : List (Nat × Nat × Packet)
  /-- The ACK that last covered a frame, when it last advanced, the start of the last replay from it, and how many. -/
  acked : Nat
  ackTime : ShortTime
  lastReplay : Option ShortTime
  replayCount : Nat
  /-- Transactions sent over the link that await their answer (R364). -/
  tracked : List Tracked
  /-- Was ACTIVE reached since RUN, and is the port in or after RETRAIN (R362)? -/
  wasActive : Bool
  retraining : Bool
  /-- Good TRAIN frames with READY received in EXCHANGE. -/
  goodTrain : Nat
  /-- Consecutive bad markers by lane. -/
  badMarkers : List Nat
  /-- When RUN or RETRAIN was entered. -/
  since : ShortTime
  /-- Time transfer (R366): TSEQ of the next frame, the crossing times of frames sent, the last frame received and its
  arrival. -/
  tseq : BitVec 8
  crossings : List (Nat × BitVec 96)
  rseq : BitVec 8
  arrival : Option (BitVec 96)
  deriving DecidableEq, Repr

/-- What a coding unit has computed for an instance (R272–R276): its output bits, most significant first, whether it failed,
its iterations, whether the syndrome holds, whether the soft buffer did not fit, its layers and P_hi, the soft buffer to
write back as header and values, the rank and metric of a short block, and the status of a lost input. -/
structure CodeOut where
  bits : List Bool
  fail : Bool
  iter : Nat
  syndrome : Bool
  mismatch : Bool
  layers : Nat
  pHi : Nat
  soft : Option (Nat × List Int)
  path : Nat
  metric : Nat
  lost : Option Nat
  deriving DecidableEq, Repr

/-- A busy coding unit (R264): its number, its job and instance, and what it has computed. -/
structure CodeUnit where
  unit : Nat
  job : Nat
  inst : Nat
  out : Option CodeOut
  deriving DecidableEq, Repr

/-- A coding job that has begun (R265): its next instance, how many have ended, and what its RESULT counts (R282); `blocks`
holds the output bits of its instances that have ended. -/
structure CodeRun where
  job : Nat
  next : Nat
  done : Nat
  fails : Nat
  firstFail : Nat
  iterMax : Nat
  iterTotal : Nat
  layersMax : Nat
  mismatches : Nat
  poisons : Nat
  passed : Nat
  bitsOut : Nat
  blocks : List (Nat × List Bool)
  uncorr : Bool
  poison : Bool
  stop : Option Nat
  deriving DecidableEq, Repr

/-- The channel coding complex: what its registers do not show. -/
structure CodeState where
  units : List CodeUnit
  runs : List CodeRun
  deriving DecidableEq, Repr

/-- A burst-receiver context: what its registers do not show (R293–R302). `seq` is the index reported, `occasion` the start of its
occasion, `ready` the event time of its PAYLOAD_READY, and `ended` that of its last END (R297). -/
structure BrxCtx where
  seq : BitVec 8
  freq : BitVec 16
  timing : BitVec 32
  drift : BitVec 16
  occasion : ShortTime
  ready : ShortTime
  ended : Option ShortTime
  deriving DecidableEq, Repr

/-- Resource elements delivered to a receiver slot by port steering (R287, R398): receiver, slot, antenna, symbol number, PRB, and
the six words of the PRB. -/
structure FdPrb where
  brx : Nat
  slot : Nat
  ant : Nat
  symbol : Nat
  prb : Nat
  words : List Word
  deriving DecidableEq, Repr

/-- The burst receivers: what their registers do not show. -/
structure BrxState where
  /-- Contexts, key 64 b + k. -/
  ctxs : List (Nat × BrxCtx)
  /-- Reports dropped since the last one written (R300), by receiver. -/
  lost : List (Nat × Nat)
  /-- When the receiver entered RUN (R289, R299). -/
  runAt : List (Nat × ShortTime)
  /-- Occasions in which a slot made a detection, key 24 b + slot: start and end (R303). -/
  detected : List (Nat × ShortTime × ShortTime)
  /-- The last 64 measured powers of each stream, key 64 b + i, newest first, in units of 2^-64 of full scale (R304). -/
  floors : List (Nat × List Nat)
  /-- Resource elements delivered to FD slots. -/
  fd : List FdPrb
  deriving DecidableEq, Repr

/-- The DFE chains: what their registers do not show. -/
structure DfeState where
  /-- Coefficient banks (R310). -/
  coefs : List (Nat × List Word)
  /-- Blocks done by carrier slot k of TX chain t (key 4 t + k) and RX chain r (key 512 + 4 r + k) since RUN. -/
  blocks : List (Nat × Nat)
  /-- Blocks of the AGC window under way (R315), key 4 r + k. -/
  window : List (Nat × Nat)
  /-- Consecutive evaluated dwells that showed a violation, by TX chain (R312). -/
  violations : List (Nat × Nat)
  /-- Composite samples an RX chain has received: first index and number (R313, R394). -/
  got : List (Nat × List (Nat × Nat))
  /-- Composite frames a TX chain has built since RUN (R394). -/
  framed : List (Nat × Nat)
  /-- The blocks an RX carrier slot had completed when its chain began to drain (R313), key 4 r + k. -/
  drainAt : List (Nat × Nat)
  deriving DecidableEq, Repr

/-- A frame in a launch-time queue (R391): its queue, its bytes from the destination address without FCS, its launch time, the TX
chain it comes from, and, for a frame of the TX ring, its ring count, TS_REQ and the PTP offset of ONE_STEP (R395). -/
structure TxFrame where
  queue : Nat
  bytes : List Byte
  launch : ShortTime
  chain : Option Nat
  ring : Option Nat
  tsReq : Bool
  oneStep : Option Nat
  deriving DecidableEq, Repr

/-- An Ethernet port: what its registers do not show. -/
structure EthPort where
  /-- Frames queued, in order of entry. -/
  frames : List TxFrame
  /-- Everything sent, oldest first: the departure and the bytes without FCS. -/
  wire : List (ShortTime × List Byte)
  /-- The consumer count of the RX ring last read (R399). -/
  rxCi : Nat
  deriving DecidableEq, Repr

/-- The Ethernet ports: what their registers do not show. -/
structure EthState where
  /-- Ports by number; an unlisted one is as after reset. -/
  ports : List (Nat × EthPort)
  /-- The last SEQ_ID an enabled steering entry saw, if any. -/
  seqs : List (Nat × Nat)
  /-- The PRBs written to a symbol slot, key 256 i + slot, since it was taken for its symbol: the symbol and the number (R398). -/
  taken : List (Nat × Nat × Nat)
  /-- Has steering entry i seen a symbol since it was enabled? Those that have, rising. -/
  seen : List Nat
  /-- Frames handed to the steward (R397 rule 3), oldest first: port, time-stamp, bytes. -/
  toSteward : List (Nat × ShortTime × List Byte)
  deriving DecidableEq, Repr

/-- A timed output pin (R386): the period and the edge of it that come next, and the level: none while the pin is high
impedance (R498). -/
structure TioPin where
  period : Nat
  edge : Nat
  level : Option Bool
  deriving DecidableEq, Repr

/-- The timebase island: what its registers do not show. -/
structure TimeState where
  /-- The time counter, short time, and the 32 bits of fraction below it (R371). -/
  short : ShortTime
  frac : BitVec 32
  /-- The copy of short time that fabric blocks see (R29). -/
  cast : ShortTime
  /-- Full time in units of 2^-16 ns. -/
  full : Nat
  /-- The part of a host slew still to be applied, in units of 2^-48 ns, and whether it is negative (R378). -/
  slew : Nat
  slewNeg : Bool
  /-- The codes of the valid references (R374), rising. -/
  refs : List Nat
  /-- Consecutive updates within LOCK_NS, and beyond 4 × LOCK_NS (R376). -/
  near : Nat
  far : Nat
  /-- Has the servo stepped in this ACQUIRING (R377)? -/
  stepped : Bool
  /-- The time of the last accepted measurement, and of the last correction the steward wrote (R377). -/
  measured : ShortTime
  corrected : ShortTime
  /-- F over the LOCKED state: the time and value of each update, newest first (R377). -/
  freqs : List (ShortTime × Int)
  /-- The level of PPS_OUT, none while it is high impedance (R498), the end of the pulse under way (R384), and the last second
  whose boundary was passed. -/
  ppsOut : Option Bool
  ppsEnd : ShortTime
  ppsSecond : Nat
  /-- The last edge of PPS_IN in the second under way (R385). -/
  ppsIn : Option ShortTime
  /-- Intervals that phase steps have skipped (R373). -/
  skips : List (ShortTime × ShortTime)
  /-- Timed pins (R386), by number. -/
  pins : List (Nat × TioPin)
  /-- The coarse counter of the oasis domain (R379): 2^-15 s units, and whether it runs alone. -/
  coarse : Nat
  coarseAlone : Bool
  deriving DecidableEq, Repr

/-- A drawer of the cabinet (R407). The key has its first byte in bits [7:0]; a 128-bit key leaves bits [255:128] zero. -/
structure Drawer where
  loaded : Bool
  cls : Nat
  usage : BitVec 6
  secure : Bool
  keyId : BitVec 32
  key : BitVec 256
  uses : Nat
  grants : BitVec 64
  deriving DecidableEq, Repr

/-- A cipher job between its admission and its end (R412): the drawers it names with the keys they held, and, once it has
started, the units of its passes in order (R419), whether it holds a hold slot (R424) and the quarantine window it has sealed
(R426). -/
structure CiphJob where
  job : Nat
  keys : List (Nat × BitVec 256)
  units : List Nat
  slot : Bool
  window : Option Nat
  deriving DecidableEq, Repr

/-- A change of a granule's world under way (R405): the register offset and bit of the granule, its first word and words, and the new
world. -/
structure RegionChange where
  off : Nat
  bit : Nat
  first : Nat
  words : Nat
  world : Bool
  deriving DecidableEq, Repr

/-- Worlds, keys and the cipher engine: what their registers do not show. -/
structure SecState where
  drawers : List (Nat × Drawer)
  /-- Does the oasis domain hold the root and blob keys (R409), and the HBM controller its key (R429)? -/
  rootKey : Bool
  hbmKey : Bool
  /-- Is the blob key the one derived under the label "DEBUG" (R433)? -/
  debugKey : Bool
  /-- Fuses: OWNER_LOCKED, the SVN counters of the secure and the non-secure steward, revoked key slots. -/
  ownerLocked : Bool
  svnSs : Nat
  svnNs : Nat
  revoked : BitVec 4
  region : Option RegionChange
  /-- Key commands whose end is due, by desk: RESULT, and the KEY_ID of a LOAD. -/
  kcmds : List (Nat × Nat × Option Nat)
  /-- Cipher jobs admitted and not ended. -/
  jobs : List CiphJob
  /-- Short times of the mismatches in the counting window (R422). -/
  faults : List ShortTime
  deriving DecidableEq, Repr

/-- The device. -/
structure Dev where
  /-- Memory bytes: key 16 w + j is byte j of word w's 80 bits, w a word address (byte address / 8); j = 0–7 are data
  bits [63:0], j = 8 is data bits [71:64], j = 9 the check byte (R84, R112). -/
  mem : List Host.Cell
  /-- Register words, by PF BAR0 offset (R487). -/
  regs : List (Nat × Reg32)
  /-- Locked RWL fields: word offset and low bit (R8). -/
  locked : List (Nat × Nat)
  /-- Everything sent over PCIe, oldest first. -/
  out : List Out
  jfe : JfeState
  evt : EvtState
  ram : MemState
  pace : PaceState
  power : PowerState
  boot : BootState
  noc : NocState
  /-- Cores by number; an unlisted one is as after reset. -/
  cores : List (Nat × Core)
  tsu : TsuState
  /-- Uldom ports by number; an unlisted one is as after reset. -/
  links : List (Nat × LinkPort)
  code : CodeState
  brx : BrxState
  dfe : DfeState
  eth : EthState
  sec : SecState
  time : TimeState
  /-- The number of free values drawn so far (the model's own field). -/
  free : Nat
  deriving DecidableEq, Repr

/-- The machine: the device and the commands that wait, first in, first out. -/
structure State where
  pending : List Instr
  dev : Dev
  deriving DecidableEq, Repr

/-- The JFE after reset (R81). -/
def JfeState.reset : JfeState :=
  { jobs := [], nextJob := 0, nextSeq := 0, flagged := [], swaps := [], countReads := [], scanRead := false,
    fetches := [], lastRing := 255, known := [], ciReads := [], cached := [], stalled := [], waiting := [], busMaster := 0 }

/-- The event fabric after power-on. -/
def EvtState.reset : EvtState :=
  { queue := [], live := [], log := [], lastLog := none, table := [], enabled := 0, fnMask := 0, pba := [],
    lastSent := [], toSteward := [] }

/-- The memory system after power-on. -/
def MemState.reset : MemState :=
  { trackers := [], remapped := [], repairs := [], scrubWord := 0, scrubGroup := 0, scrubHours := (1, 24),
    hourCount := [] }

/-- The pace loop after release (R40). -/
def PaceState.reset : PaceState :=
  { slackHigh := [0, 0, 0, 0], late := [false, false, false, false], inBand := 0, outBand := [0, 0, 0, 0],
    deviant := [], taking := [], broken := [], windowed := false, history := [], began := none, day := false }

/-- The power controller at power-on. -/
def PowerState.reset : PowerState :=
  { retain := 0, paused := false, awaitRound := false, drainFrom := none, cause := 0, pendCause := 0, pendCode := none,
    wakeLow := false, linkWake := false, domTarget := [], sigs := [], flags := 0, tripLow := false, charging := none,
    rounds := [], coolRounds := 0, hbmCoolRounds := 0 }

/-- Before power comes: PERST_N low, no boot due. -/
def BootState.reset : BootState :=
  { powered := false, perst := false, seenHigh := false, due := none, cause := 0, tamper := false, input := none }

/-- A core's registers at reset. -/
def Arch.reset : Arch :=
  { s := [], a := [], v := [], acc := [], p := [], cbBase := [], cbLen := [], trips := 0, pass := 0, stg := 0, rot := 0,
    tsnap := 0, seg := [], accMode := 0, accSt := 0, mode := 0, hold := [], pc := 0, level := .tk, trapPc := 0,
    trapCause := 0, trapInfo := 0, trapAddr := 0, trapLevel := 0, scratch := [] }

/-- A core at reset. -/
def Core.reset : Core :=
  { arch := Arch.reset, bundle := none, buffer := [], fence := false, storeErrs := [], abort := none, fault := none,
    late := none, ending := none, asked := false, forced := false, func := 0, sb := 0, lock := false, ops := [] }

/-- A task entry that is FREE and was never allocated. -/
def Task.reset : Task :=
  { state := .free, gen := 0, func := 0, world := false, prio := 0, startPc := 0, mask := 0, param := 0, arg := 0,
    lastCore := none, resident := false, period := 0, wake := 0, timed := 0, pendingWake := false, lastStatus := 0,
    runs := 0, deadline := none, job := none, freeJobs := [], arrived := 0, place := 0, stage := 3, core := none,
    since := 0, abortAs := 0 }

/-- The network after reset. -/
def NocState.reset : NocState :=
  { held := [], granted := [], arrived := [], unswitched := [], draining := false, waiting := [], delivered := [],
    toPower := [], drained := [], powerSeen := [] }

/-- An Uldom port after reset. -/
def LinkPort.reset : LinkPort :=
  { sentLine := [], nextSeq := 0, replay := [], queue := [], sent := [0, 0, 0, 0, 0, 0, 0, 0],
    limits := [0, 0, 0, 0, 0, 0, 0, 0], freedPeer := [0, 0, 0, 0, 0, 0, 0, 0], freed := [0, 0, 0, 0, 0, 0, 0, 0],
    lastSeq := 4095, nak := false, partials := [], acked := 4095, ackTime := 0, lastReplay := none, replayCount := 0,
    tracked := [], wasActive := false, retraining := false, goodTrain := 0, badMarkers := [0, 0, 0, 0, 0, 0, 0, 0],
    since := 0, tseq := 0, crossings := [], rseq := 0, arrival := none }

/-- The timebase at power-on: short time starts at 0 (R468). -/
def TimeState.reset : TimeState :=
  { short := 0, frac := 0, cast := 0, full := 0, slew := 0, slewNeg := false, refs := [], near := 0, far := 0, stepped := false,
    measured := 0, corrected := 0, freqs := [], ppsOut := none, ppsEnd := 0, ppsSecond := 0, ppsIn := none, skips := [],
    pins := [], coarse := 0, coarseAlone := false }

/-- An Ethernet port after reset. -/
def EthPort.reset : EthPort := { frames := [], wire := [], rxCi := 0 }

/-- The device right after power-on reset, before its boot sequence: every register word at its reset value, no memory
byte written, no job, no event. -/
def Dev.reset : Dev :=
  { mem := [], regs := [], locked := [], out := [], jfe := JfeState.reset, evt := EvtState.reset,
    ram := MemState.reset, pace := PaceState.reset, power := PowerState.reset,
    boot := BootState.reset, noc := NocState.reset,
    cores := [], tsu := { tasks := [], nextPlace := 0, retiring := none },
    links := [], code := { units := [], runs := [] },
    brx := { ctxs := [], lost := [], runAt := [], detected := [], floors := [], fd := [] },
    dfe := { coefs := [], blocks := [], window := [], violations := [], got := [], framed := [], drainAt := [] },
    eth := { ports := [], seqs := [], taken := [], seen := [], toSteward := [] },
    sec := { drawers := [], rootKey := false, hbmKey := false, debugKey := false, ownerLocked := false, svnSs := 0, svnNs := 0, revoked := 0, region := none,
             kcmds := [], jobs := [], faults := [] },
    time := TimeState.reset, free := 0 }

/-- The machine right after reset: no command waits. -/
def State.reset : State := { pending := [], dev := Dev.reset }

end Sys2Proof.Machine
end

