-- ==== Sys2Proof/Machine/Ops.lean ====
section
/-! DEFINITION. The named operations every block shares: the register file, time, what goes out, function control
(R50, R51), level and edge events at their source (R473), rejected writes (R8) and world violations (R406). -/

namespace Sys2Proof

open Sys2Proof.Machine

/-- The control register of a function (R50), as a field of 32 bits. -/
def Fn.ctl : Fn → Fld
  | .sq n => Reg.JFE_SQ_CTL n
  | .cq m => Reg.JFE_CQ_CTL m
  | .car c => Reg.JFE_CAR_CTL c
  | .poller => Reg.JFE_DB_CTL
  | .dmv ch => Reg.DMV_CH_CTL ch
  | .erg e => Reg.ERG_CTL e
  | .mxe m => Reg.MXE_CTL m
  | .xfm u => Reg.XFM_CTL u
  | .code => Reg.CODE_CTL
  | .ciph => Reg.CIPH_CTL
  | .brx b => Reg.BRX_CTL b
  | .dfeTx t => Reg.DFE_TX_CTL t
  | .dfeRx t => Reg.DFE_RX_CTL t
  | .probe p => Reg.NOC_PROBE_CTL p
  | .lane l => Reg.LANE_CTL l
  | .uld p => Reg.ULD_CTL p
  | .tio i => Reg.TB_TIO_CTL i
  | .servo => Reg.TB_SERVO_CTL
  | .eth n => Reg.ETH_PORT_CTL n

/-- R50: the STATE field of a function. -/
def Fn.state (fn : Fn) : Fld := ⟨fn.ctl.off, 4, 2⟩
/-- R50: the ABORT field of a function. -/
def Fn.abort (fn : Fn) : Fld := ⟨fn.ctl.off, 6, 1⟩
/-- R50: the FAULT field of a function. -/
def Fn.fault (fn : Fn) : Fld := ⟨fn.ctl.off, 8, 8⟩

/-- The attention bit a function's fault or failed start check sets, and the level event that bit belongs to (R45–R483).
The doorbell poller, timed I/O pins and the servo have no such bit. -/
def Fn.attn : Fn → Option (Fld × Nat)
  | .sq n => some (Reg.JFE_SQ_ATTN_FAULT n, 0x440 + n)
  | .cq m => some (Reg.JFE_CQ_ATTN_FAULT m, 0x440 + m)
  | .car c => some (Reg.JFE_CAR_ATTN_FAULT c, 0x612)
  | .poller => none
  | .dmv ch => some (Reg.DMV_CH_ATTN_FAULT ch, 0x540 + ch)
  | .erg e => some (Reg.ERG_ATTN_FAULT e, 0x630 + e)
  | .mxe m => some (Reg.MXE_ATTN_FAULT m, 0x5C0 + m)
  | .xfm u => some (Reg.XFM_ATTN_FAULT u, 0x5C4 + u)
  | .code => some (Reg.CODE_ATTN_FAULT, 0x5E4)
  | .ciph => some (⟨Reg.CIPH_ATTN.off, 0, 1⟩, 0x610)
  | .brx b => some (⟨(Reg.BRX_ATTN b).off, 0, 1⟩, 0x5F8 + b)
  | .dfeTx t => some (⟨(Reg.DFE_TX_ATTN t).off, 0, 1⟩, 0x608)
  | .dfeRx t => some (⟨(Reg.DFE_RX_ATTN t).off, 0, 1⟩, 0x609)
  | .probe p => some (⟨(Reg.NOC_PROBE_ATTN p).off, 0, 1⟩, 0x650 + p)
  | .lane l => some (Reg.LANE_ATTN_FAULT l, 0x6C0)
  | .uld p => some (Reg.ULD_ATTN_FAULT p, 0x6C4 + p)
  | .tio _ => none
  | .servo => none
  | .eth n => some (⟨(Reg.ETH_PORT_ATTN n).off, 0, 1⟩, 0x6E0 + n)

end Sys2Proof

namespace Sys2Proof.Machine

/-- A command's meaning as an outcome: the device changes as `f` says, and the queue stays. -/
def State.onDev (s : State) (f : Dev → Dev) : Host.Outcome State Fault Refusal := .next { s with dev := f s.dev }

/-- The same for a command some of whose operands can have a shape no such command has. -/
def State.onDevIf (s : State) (ok : Bool) (f : Dev → Dev) : Host.Outcome State Fault Refusal :=
  if ok then s.onDev f else .fault .malformedCommand

/-- A register word. -/
def Dev.word (d : Dev) (off : Nat) : Reg32 := lookup regReset d.regs off

/-- A register word written whole. -/
def Dev.setWord (d : Dev) (off : Nat) (v : Reg32) : Dev := { d with regs := update regReset d.regs off v }

/-- The value of a register field. -/
def Dev.get (d : Dev) (f : Fld) : Nat := bitsOf (d.word f.off).toNat f.lo f.w

/-- A register field set to a value, modulo its width. -/
def Dev.set (d : Dev) (f : Fld) (v : Nat) : Dev :=
  d.setWord f.off (BitVec.ofNat 32 (putBits (d.word f.off).toNat f.lo f.w v))

/-- Is a one-bit field 1? -/
def Dev.on (d : Dev) (f : Fld) : Bool := d.get f == 1

/-- A counter advanced by n, wrapping in its field. -/
def Dev.add (d : Dev) (f : Fld) (n : Nat) : Dev := d.set f (d.get f + n)

/-- A counter advanced by one, wrapping in its field. -/
def Dev.bump (d : Dev) (f : Fld) : Dev := d.add f 1

/-- A 64-bit value in a word and the next, low word first. -/
def Dev.get64 (d : Dev) (f : Fld) : Nat := (d.word f.off).toNat + (d.word (f.off + 4)).toNat * 2 ^ 32

/-- The two words of a 64-bit value set, low word first. -/
def Dev.set64 (d : Dev) (f : Fld) (v : Nat) : Dev :=
  (d.setWord f.off (BitVec.ofNat 32 v)).setWord (f.off + 4) (BitVec.ofNat 32 (v / 2 ^ 32))

/-- Bit k of a field set. -/
def Dev.setBit (d : Dev) (f : Fld) (k : Nat) : Dev := d.set f (putBits (d.get f) k 1 1)

/-- Bit k of a field cleared. -/
def Dev.clearBit (d : Dev) (f : Fld) (k : Nat) : Dev := d.set f (putBits (d.get f) k 1 0)

/-- Bit k of a field. -/
def Dev.bit (d : Dev) (f : Fld) (k : Nat) : Bool := bitOf (d.get f) k

/-- Short time as fabric blocks see it (R29). -/
def Dev.now (d : Dev) : ShortTime := d.time.cast

/-- Has a short-time target been reached for a fabric block (R6, R29)? -/
def Dev.due (d : Dev) (target : ShortTime) : Bool := reached target d.now

/-- Something goes out over PCIe. -/
def Dev.send (d : Dev) (o : Out) : Dev := { d with out := d.out ++ [o] }

/-- The next free value, and the device with it drawn. -/
def Dev.draw (d : Dev) : BitVec 64 × Dev := (Config.freeValue d.free, { d with free := d.free + 1 })

/-- Apply an update for each element of a list, in order. -/
def Dev.each {α : Type} (d : Dev) (xs : List α) (f : Dev → α → Dev) : Dev := xs.foldl f d

/-- An update made only if a condition holds. -/
def Dev.iff (d : Dev) (c : Bool) (f : Dev → Dev) : Dev := if c then f d else d

/-- Has the boot reached READY (R469)? -/
def Dev.ready (d : Dev) : Bool := d.get Reg.GLB_BOOT_STAGE == 8

/-- R50: STATE STOPPED. -/
def Dev.stopped (d : Dev) (fn : Fn) : Bool := d.get fn.state == 0
/-- R50: STATE RUN. -/
def Dev.running (d : Dev) (fn : Fn) : Bool := d.get fn.state == 1
/-- R50: STATE STOPPING. -/
def Dev.stopping (d : Dev) (fn : Fn) : Bool := d.get fn.state == 2

/-- Is a word of the register file other than zero? -/
def Dev.any (d : Dev) (off : Nat) : Bool := d.word off != 0

/-- The world of an event source at an occurrence (R475): that of the core, receiver or probe it belongs to, secure for the
sources their chapters make secure, non-secure for the rest. -/
def Dev.sourceWorld (d : Dev) (n : Nat) : Bool :=
  if n < 0x340 then d.on (Reg.ERG_CORE_CFG_WORLD (n / 64) (n / 8 % 8))
  else if 0x5E8 ≤ n ∧ n < 0x5F8 then d.on (Reg.BRX_CFG_SECURE (n - 0x5E8))
  else if 0x5F8 ≤ n ∧ n < 0x608 then d.on (Reg.BRX_CFG_SECURE (n - 0x5F8))
  else if 0x650 ≤ n ∧ n < 0x660 then d.on (Reg.NOC_PROBE_CFG_SECURE (n - 0x650))
  else RegTable.fixedSecure n

/-- The number of FREE task entries (TSU_STATUS.FREE). -/
def Dev.freeEntries (d : Dev) : Nat := 4096 - (d.tsu.tasks.filter (fun x => x.2.state != .free)).length

/-- The present condition of a level source (R45, R53, R82, R111, R132, R171, R235, R263, R285, R319, R345, R370, R403,
R438, R466, R483); false for an edge source. -/
def Dev.levelOn (d : Dev) (n : Nat) : Bool :=
  if n < 0x340 then n % 8 == 0 && d.get (Reg.ERG_CORE_STATUS_STATE (n / 64) (n / 8 % 8)) == 3
  else if 0x440 ≤ n ∧ n < 0x540 then
    d.any (Reg.JFE_SQ_ATTN_FAULT (n - 0x440)).off || d.any (Reg.JFE_CQ_ATTN_FAULT (n - 0x440)).off
  else if 0x540 ≤ n ∧ n < 0x580 then d.any (Reg.DMV_CH_ATTN_FAULT (n - 0x540)).off
  else if 0x5C0 ≤ n ∧ n < 0x5C4 then d.any (Reg.MXE_ATTN_FAULT (n - 0x5C0)).off
  else if 0x5C4 ≤ n ∧ n < 0x5E4 then d.any (Reg.XFM_ATTN_FAULT (n - 0x5C4)).off
  else if n = 0x5E4 then d.any Reg.CODE_ATTN_FAULT.off
  else if 0x5F8 ≤ n ∧ n < 0x608 then d.any (Reg.BRX_ATTN (n - 0x5F8)).off
  else if n = 0x608 then (upFrom 0 128).any (fun t => d.any (Reg.DFE_TX_ATTN t).off)
  else if n = 0x609 then (upFrom 0 128).any (fun t => d.any (Reg.DFE_RX_ATTN t).off)
  else if n = 0x610 then d.any Reg.CIPH_ATTN.off || (upFrom 0 16).any (fun p => d.any (Reg.MS_ATTN p).off)
  else if n = 0x611 then (upFrom 0 64).any (fun f => d.any (Reg.CIPH_DESK_ATTN f).off)
  else if n = 0x612 then (upFrom 0 384).any (fun c => d.any (Reg.JFE_CAR_ATTN_FAULT c).off)
  else if 0x630 ≤ n ∧ n < 0x63D then d.any (Reg.ERG_ATTN_FAULT (n - 0x630)).off
  else if n = 0x63D then d.any Reg.TSU_ATTN_RETIRED.off
  else if n = 0x63E then decide (d.freeEntries < d.get Reg.TSU_LOW_THRESH)
  else if n = 0x640 then d.any Reg.NOC_ATTN_CHECK_FAIL.off
  else if 0x650 ≤ n ∧ n < 0x660 then d.any (Reg.NOC_PROBE_ATTN (n - 0x650)).off
  else if n = 0x6C0 then (upFrom 16 40).any (fun l => d.any (Reg.LANE_ATTN_FAULT l).off)
  else if 0x6C4 ≤ n ∧ n < 0x6C7 then d.any (Reg.ULD_ATTN_FAULT (n - 0x6C4)).off
  else if 0x6E0 ≤ n ∧ n < 0x6F0 then d.any (Reg.ETH_PORT_ATTN (n - 0x6E0)).off
  else if n = 0x701 then d.any Reg.GLB_PCIE_ATTN.off
  else if n = 0x741 then d.any Reg.TB_ATTN.off
  else if n = 0x783 then (upFrom 0 197).any (fun k => d.get (Reg.MEM_CTRL_STATE k) == 2)
  else if n = 0x785 then d.on Reg.MEM_SELFTEST_FAIL
  else if n = 0x786 then
    (upFrom 0 197).any (fun k => decide (d.get (Reg.MEM_CTRL_CORR_HOUR k) > d.get Reg.MEM_CORR_THRESH))
  else if n = 0x789 then (upFrom 0 2).any (fun k => d.any (Reg.HBM_STACK_ATTN_TRAIN_FAIL k).off)
  else if 0x7C0 ≤ n ∧ n < 0x7C4 then d.bit Reg.PWR_PACE_STATUS_SHORT (n - 0x7C0)
  else if n = 0x7C4 then d.get Reg.PWR_PACE_STATUS_MON_FAULT != 0
  else if n = 0x7C5 then
    d.pace.day && (upFrom 0 4).any (fun r => decide (d.get (Reg.PWR_PACE_RAIL_RESERVE r) < 10))
  else if n = 0x7CB then d.on Reg.PWR_THERM_WARN || d.on Reg.PWR_THERM_HBM_WARN
  else if n = 0x7CC then d.on Reg.PWR_THERM_THROTTLE || d.on Reg.PWR_THERM_HBM_THROTTLE
  else if n = 0x7CD then d.on Reg.PWR_THERM_CRIT || d.on Reg.PWR_THERM_HBM_CRIT
  else if n = 0x7CE then d.any Reg.PWR_ATTN.off
  else if n = 0x7E4 then d.on Reg.SEC_DEBUG_NS_OPEN || d.on Reg.SEC_DEBUG_S_OPEN
  else false

/-- An occurrence of source n of the given world sets out for the event fabric (R473, R474). -/
def Dev.raiseWorld (d : Dev) (n : Nat) (w : Bool) : Dev :=
  { d with evt := { d.evt with queue := d.evt.queue ++ [⟨n, w⟩] } }

/-- An occurrence of source n, of the source's own world (R475). -/
def Dev.raise (d : Dev) (n : Nat) : Dev := d.raiseWorld n (d.sourceWorld n)

/-- A number put into a rising list once. -/
def insertOnce (k : Nat) : List Nat → List Nat
  | [] => [k]
  | x :: xs => if k < x then k :: x :: xs else if k = x then x :: xs else x :: insertOnce k xs

/-- Bring LIVE of a level source up to date; its rise is an occurrence (R473). -/
def Dev.relevel (d : Dev) (n : Nat) : Dev :=
  let was := d.evt.live.contains n
  if d.levelOn n then
    if was then d else ({ d with evt := { d.evt with live := insertOnce n d.evt.live } }).raise n
  else if was then { d with evt := { d.evt with live := d.evt.live.filter (· != n) } } else d

/-- Set an attention bit and bring its level source up to date. -/
def Dev.attend (d : Dev) (f : Fld) (n : Nat) : Dev := (d.set f 1).relevel n

/-- The attention of a function: its ATTN bit, if it has one. -/
def Dev.fnAttend (d : Dev) (fn : Fn) : Dev :=
  match fn.attn with
  | some (f, n) => d.attend f n
  | none => d

/-- A rejected write (R8, R51): counted, recorded if no record is held, and CFG_REJECT raised (R483, R484). -/
def Dev.cfgReject (d : Dev) (who : Accessor) (off : Nat) : Dev :=
  let d1 := d.bump Reg.GLB_CFG_REJECT_COUNT
  let d2 :=
    if d1.on Reg.GLB_CFG_REJECT_VALID then d1
    else
      let (f, st) : Nat × Nat := match who with
        | .func f => (f.val, 0)
        | .secure => (0, 1)
        | .steward => (0, 1)
      (((d1.set Reg.GLB_CFG_REJECT_ADDR off).set Reg.GLB_CFG_REJECT_FUNC f).set Reg.GLB_CFG_REJECT_STEWARD st).set
        Reg.GLB_CFG_REJECT_VALID 1
  d2.raise 0x702

/-- A world violation (R406): counted, recorded if no record is held, WORLD_VIOL raised, and counted by the desk of the
violating function when it is known. -/
def Dev.worldViolation (d : Dev) (ep : Nat) (func : Option Nat) (addr : Nat) (write reg : Bool) : Dev :=
  let d1 := d.bump Reg.SEC_VIOL_COUNT
  let d2 :=
    if d1.on Reg.SEC_VIOL_VALID then d1
    else
      let d := (d1.set Reg.SEC_VIOL_ADDR addr).set Reg.SEC_VIOL_ADDR_HI (addr / 2 ^ 32)
      let d := (d.set Reg.SEC_VIOL_EP ep).set Reg.SEC_VIOL_FUNC (func.getD 0)
      let d := (d.set Reg.SEC_VIOL_FUNC_VALID (b2n func.isSome)).set Reg.SEC_VIOL_WRITE (b2n write)
      let d := (d.set Reg.SEC_VIOL_REG (b2n reg)).set64 Reg.SEC_VIOL_TIME d.now.toNat
      d.set Reg.SEC_VIOL_VALID 1
  let d3 := d2.raise 0x7E0
  match func with
  | some f => (d3.bump (Reg.CIPH_DESK_WORLD_VIOLS f)).attend ⟨(Reg.CIPH_DESK_ATTN f).off, 3, 1⟩ 0x611
  | none => d3

/-- R10, R406: a violation by a register write: the endpoint and the function of the accessor, the PF BAR0 offset. -/
def Dev.regViolation (d : Dev) (who : Accessor) (off : Nat) : Dev :=
  match who with
  | .func f => d.worldViolation 80 (some f.val) off true true
  | .secure => d
  | .steward => d.worldViolation 88 none off true true

/-- R47, R48: does an accessor reach the registers outside a VF's own views? -/
def wholeMap : Accessor → Bool
  | .func f => f.val == 0
  | _ => true

/-- R446, R467, R469: is a register access of an accessor to a PF BAR0 offset answered in the present state of the device? A host
finds no link in OFF and BACKUP and while PERST_N is low; in DORMANT it reaches the PWR block, and before READY the GLB block and the
memory window. The stewards rest in DORMANT, OFF and BACKUP. -/
def Dev.served (d : Dev) (who : Accessor) (off : Nat) : Bool :=
  let st := d.get Reg.PWR_STATUS_STATE
  d.boot.powered &&
  match who with
  | .func _ =>
    d.boot.perst && decide (st < 3) &&
      (st != 2 || (decide (0x300000 ≤ off) && decide (off < 0x400000))) &&
      (d.ready || decide (off < 0x100000) || decide (0x2000000 ≤ off))
  | _ => decide (st < 2)

/-- Does an accessor reach the register word at a PF BAR0 offset? -/
def Dev.reaches (d : Dev) (who : Accessor) (off : Nat) : Bool := wholeMap who && d.served who off

/-- The effect of a write to a word of the PF's map, if the accessor reaches it. -/
def Dev.mapped (d : Dev) (who : Accessor) (off : Nat) (f : Dev → Dev) : Dev := if d.reaches who off then f d else d

/-- R10: the effect of a write to an (S) field of the word at `off`: the secure world's, or a violation. -/
def Dev.secureOnly (d : Dev) (who : Accessor) (off : Nat) (f : Dev → Dev) : Dev :=
  if !d.reaches who off then d
  else match who with
    | .secure => f d
    | _ => d.regViolation who off

/-- A function enters RUN: FAULT clears (R51). -/
def Dev.enterRun (d : Dev) (fn : Fn) : Dev := ((d.set fn.fault 0).set fn.abort 0).set fn.state 1

/-- A function enters STOPPING, as a drain or as an abort (R51). -/
def Dev.enterStopping (d : Dev) (fn : Fn) (abort : Bool) : Dev :=
  (d.set fn.state 2).set fn.abort (b2n abort)

/-- A function becomes STOPPED (R51). -/
def Dev.enterStopped (d : Dev) (fn : Fn) : Dev := (d.set fn.state 0).set fn.abort 0

/-- A start check fails (R51): STOPPED, FAULT takes the code, attention. -/
def Dev.startFails (d : Dev) (fn : Fn) (code : Nat) : Dev := (d.set fn.fault code).fnAttend fn

/-- A function fault in RUN (R51): FAULT is set, the function stops by draining or aborting, attention. -/
def Dev.fnFault (d : Dev) (fn : Fn) (code : Nat) (abort : Bool) : Dev :=
  if d.running fn then ((d.set fn.fault code).enterStopping fn abort).fnAttend fn else d

end Sys2Proof.Machine
end

