-- ==== Sys2Proof/Machine/Mem.lean ====
section
/-! DEFINITION. Memory: the address map (R88–R91), controllers, banks and rows (R122), worlds (R97), the checks every
request meets (R90, R97, R129, R338), single words and runs of words read and written, narrow writes (R86), error
handling (R117–R125) and injection (R131). -/

namespace Sys2Proof.Machine

/-- What an unlisted byte of memory reads as (R113, R130). -/
def memDefault (_k : Nat) : Byte := 0

/-- The canonical form of memory: keys strictly rising, no byte listed that reads as an unlisted one does. -/
def Memory.wf (m : List Host.Cell) : Bool := canonical memDefault m

/-- Ten bytes of memory from a key, as a number. -/
def rawBytes (m : List Host.Cell) (k : Nat) : Nat → Nat
  | 0 => 0
  | n + 1 => (lookup memDefault m k).toNat + 256 * rawBytes m (k + 1) n

/-- A number written as n bytes of memory from a key. -/
def putBytes (m : List Host.Cell) (k v : Nat) : Nat → List Host.Cell
  | 0 => m
  | n + 1 => putBytes (update memDefault m k (BitVec.ofNat 8 v)) (k + 1) (v / 256) n

/-- The 80 stored bits of word w. -/
def Dev.raw (d : Dev) (w : Nat) : Nat := rawBytes d.mem (16 * w) 10

/-- The 80 bits of word w stored. -/
def Dev.setRaw (d : Dev) (w v : Nat) : Dev := { d with mem := putBytes d.mem (16 * w) v 10 }

/-- The ID of this device (R88, R353). -/
def Dev.ownId (d : Dev) : Nat := d.get Reg.GLB_ID_DEVID

/-- R88: the 56-bit internal address of a local device byte address. -/
def Dev.internal (d : Dev) (b : Nat) : Nat := b + d.ownId * 2 ^ 54

/-- The regions of the address map (R89). -/
inductive Region where
  | core (c : Nat) (instr : Bool)
  | erg (e : Nat)
  | mesa (b : Nat)
  | mxe (m : Nat)
  | xfm (u : Nat)
  | code
  | brxDfe
  | hbm (s : Nat)
  deriving DecidableEq, Repr

/-- The base of HBM stack s (R89). -/
def hbmBase (s : Nat) : Nat := 0x1000000000 * (s + 1)

/-- R89: the region of a device byte address, none where it is unmapped. -/
def regionOf (b : Nat) : Option Region :=
  if b < 104 * 0x40000 then some (.core (b / 0x40000) (decide (0x30000 ≤ b % 0x40000)))
  else if 0x10000000 ≤ b ∧ b < 0x10000000 + 13 * 0x400000 then some (.erg ((b - 0x10000000) / 0x400000))
  else if 0x20000000 ≤ b ∧ b < 0x20000000 + 40 * 0x100000 then some (.mesa ((b - 0x20000000) / 0x100000))
  else if 0x30000000 ≤ b ∧ b < 0x30400000 then some (.mxe ((b - 0x30000000) / 0x100000))
  else if 0x30400000 ≤ b ∧ b < 0x30700000 then some (.xfm ((b - 0x30400000) / 0x18000))
  else if 0x30700000 ≤ b ∧ b < 0x30900000 then some .code
  else if 0x30900000 ≤ b ∧ b < 0x30A00000 then some .brxDfe
  else if hbmBase 0 ≤ b ∧ b < hbmBase 0 + 0x4CCCCCC00 then some (.hbm 0)
  else if hbmBase 1 ≤ b ∧ b < hbmBase 1 + 0x4CCCCCC00 then some (.hbm 1)
  else none

/-- R122: the controller of a region. -/
def Region.ctrl : Region → Nat
  | .core c _ => c
  | .erg e => 104 + e
  | .mesa b => 117 + b
  | .mxe m => 157 + m
  | .xfm u => 161 + u
  | .code => 193
  | .brxDfe => 194
  | .hbm s => 195 + s

/-- R89: the bank of word w of a region: data memory has banks 0–7 and instruction memory bank 8 of the same
controller. -/
def Region.bank (r : Region) (w : Nat) : Nat :=
  match r with
  | .core _ true => 8
  | .core _ false => w / 4 % 8
  | .erg _ => w / 8 % 16
  | .mesa _ => 0
  | .mxe _ => w / 4 % 8
  | .xfm _ => w / 4 % 4
  | .code => w / 4 % 16
  | .brxDfe => w / 4 % 8
  | .hbm _ => 0

/-- How many words stand between a bank's access groups: the words of one turn over all banks (R89), and the words of one
bank in a row of such a turn. -/
def Region.turn : Region → Nat × Nat
  | .core _ true => (4, 4)
  | .core _ false => (32, 4)
  | .erg _ => (128, 8)
  | .mesa _ => (4, 4)
  | .mxe _ => (32, 4)
  | .xfm _ => (16, 4)
  | .code => (64, 4)
  | .brxDfe => (32, 4)
  | .hbm _ => (4, 4)

/-- The first word of a region. -/
def Region.firstWord : Region → Nat
  | .core c i => (c * 0x40000 + if i then 0x30000 else 0) / 8
  | .erg e => (0x10000000 + e * 0x400000) / 8
  | .mesa b => (0x20000000 + b * 0x100000) / 8
  | .mxe m => (0x30000000 + m * 0x100000) / 8
  | .xfm u => (0x30400000 + u * 0x18000) / 8
  | .code => 0x30700000 / 8
  | .brxDfe => 0x30900000 / 8
  | .hbm s => hbmBase s / 8

/-- The words a region holds (R89). -/
def Region.words : Region → Nat
  | .core _ true => 8192
  | .core _ false => 24576
  | .erg _ => 524288
  | .mesa _ => 131072
  | .mxe _ => 131072
  | .xfm _ => 12288
  | .code => 262144
  | .brxDfe => 131072
  | .hbm _ => 2576980352

/-- The place of word w among the words of its bank, in ascending order. -/
def Region.placeInBank (r : Region) (w : Nat) : Nat :=
  let (n, k) := r.turn
  let o := w - r.firstWord
  o / n * k + o % k

/-- R122: the physical row of word w: 64 words of one bank. -/
def Region.row (r : Region) (w : Nat) : Nat := r.placeInBank w / 64

/-- The words of physical row `row` of bank `bank` (R122). -/
def Region.rowWords (r : Region) (bank row : Nat) : List Nat :=
  let (n, k) := r.turn
  (upFrom (64 * row) 64).map (fun p => r.firstWord + p / k * n + (if r.turn.1 = k then 0 else bank * k) + p % k)

/-- R122: the spare rows of each bank. -/
def Region.spares : Region → Nat
  | .mesa _ => 8
  | _ => 4

/-- The banks of a controller. -/
def Region.banks : Region → Nat
  | .core _ _ => 9
  | .erg _ => 16
  | .mesa _ => 1
  | .mxe _ => 8
  | .xfm _ => 4
  | .code => 16
  | .brxDfe => 8
  | .hbm _ => 1

/-- R321: the endpoint of ERG[e]. -/
def ergEndpoint (e : Nat) : Nat := [66, 76, 50, 54, 56, 60, 34, 38, 40, 44, 18, 28, 6].getD e 6

/-- R321: the endpoint of MESA[g]. -/
def mesaEndpoint (g : Nat) : Nat := [68, 74, 52, 53, 58, 59, 36, 37, 42, 43].getD g 68

/-- R321: the endpoint of slot A of MXE[m]. -/
def mxeEndpoint (m : Nat) : Nat := [70, 72, 22, 24].getD m 70

/-- R321: the endpoint of XFM[g]. -/
def xfmEndpoint (g : Nat) : Nat := [67, 77, 51, 61, 35, 45, 19, 29].getD g 67

/-- R321: the endpoint of HBM stack s, pseudo-channels 8q to 8q + 7. -/
def hbmEndpoint (s q : Nat) : Nat := (if s = 0 then 64 else 78) - 16 * q

/-- R93: the pseudo-channel of word w of stack s. -/
def hbmChannel (s w : Nat) : Nat := (w - hbmBase s / 8) / 32 % 32

/-- R321: the endpoint of ULD[p]. -/
def uldEndpoint (p : Nat) : Nat := [4, 10, 12].getD p 4

/-- R322: the slot through which a word of a region is reached. -/
def Region.endpoint (r : Region) (w : Nat) : Nat :=
  match r with
  | .core c _ => ergEndpoint (c / 8)
  | .erg e => ergEndpoint e
  | .mesa b => mesaEndpoint (b / 4)
  | .mxe m => mxeEndpoint m + w / 4 % 8 / 4
  | .xfm u => xfmEndpoint (u / 4)
  | .code => 8
  | .brxDfe => 83
  | .hbm s => hbmEndpoint s (hbmChannel s w / 8)

/-- R97: the granule register bit of a region's word: word offset of the register and bit, for granules of the region
tables. -/
def Region.granule (r : Region) (w : Nat) : Option (Fld × Nat) :=
  match r with
  | .core _ _ => none
  | .erg _ => let g := (w * 8 - 0x10000000) / 0x80000; some (Reg.SEC_RGN_ERG (g / 32), g % 32)
  | .mesa _ => let g := (w * 8 - 0x20000000) / 0x80000; some (Reg.SEC_RGN_MESA (g / 32), g % 32)
  | .hbm s => let g := (w * 8 - hbmBase s) / 0x100000; some (Reg.SEC_RGN_HBM s (g / 32), g % 32)
  | _ => let g := (w * 8 - 0x30000000) / 0x80000; some (Reg.SEC_RGN_ACCEL, g % 32)

/-- R97: is a word of a region in the secure world? -/
def Dev.secureWord (d : Dev) (r : Region) (w : Nat) : Bool :=
  match r.granule w with
  | some (f, k) => d.bit f k
  | none =>
    match r with
    | .core c _ => d.on (Reg.ERG_CORE_CFG_WORLD (c / 8) (c % 8))
    | _ => false

/-- Who makes a request: its world, the endpoint and function a violation names (R406), and the reader code of the
uncorrectable log (R131: 0 fetch, 1 load, 2 coprocessor, 3 data mover, 4 engine, 5 scrubber, 6 narrow write, 7 window,
8 transport). `own` marks a core's access to its own local memory, which does not cross the network; `win` is one more
than the quarantine window whose job makes the request, 0 for none (R426). -/
structure Req where
  world : Bool
  ep : Nat
  func : Option Nat
  reader : Nat
  own : Bool
  win : Nat
  deriving DecidableEq, Repr

/-- What a read gives its reader: data, a poisoned word (R116), a fresh uncorrectable word (R117), or a refusal with a
status code of R78. -/
inductive Got where
  | data (v : Word)
  | poison
  | uncorrectable
  | err (status : Nat)
  deriving DecidableEq, Repr

/-- Status codes of R78 that a memory answers with. -/
def stUNCORR : Nat := 0x04
def stWORLD : Nat := 0x06
def stFENCED : Nat := 0x07
def stCONFIG : Nat := 0x0A
def stLINK : Nat := 0x10

/-- R338: does a slot refuse traffic (FENCING, DRAINED or ABSENT)? -/
def Dev.slotFenced (d : Dev) (e : Nat) : Bool :=
  let s := d.get (Reg.NOC_EP_STATE e); s == 1 || s == 2 || s == 3

/-- R129: is a controller out of service after its self-test? -/
def Dev.outOfService (d : Dev) (n : Nat) : Bool := d.get (Reg.MEM_CTRL_STATE n) == 1

/-- A memory event raised with the world of the word concerned (R132). -/
def Dev.memEvent (d : Dev) (n : Nat) (secure : Bool) : Dev := d.raiseWorld n secure

/-- R131: an entry of the uncorrectable log, at its head. -/
def Dev.logUncorr (d : Dev) (w ctrl synd reader : Nat) (secure : Bool) : Dev :=
  let k := d.get Reg.MEM_ULOG_HEAD
  let d := if d.on (Reg.MEM_ULOG_VALID k) then d.set Reg.MEM_ATTN_LOG_WRAP 1 else d
  let a := d.internal (8 * w)
  let d := (d.set (Reg.MEM_ULOG_ADDR_LO k) a).set (Reg.MEM_ULOG_ADDR_HI k) (a / 2 ^ 32)
  let d := (d.set (Reg.MEM_ULOG_CTRL k) ctrl).set (Reg.MEM_ULOG_SYND k) synd
  let d := (d.set (Reg.MEM_ULOG_READER k) reader).set (Reg.MEM_ULOG_SECURE k) (b2n secure)
  let d := (d.set64 (Reg.MEM_ULOG_TIME k) d.now.toNat).set (Reg.MEM_ULOG_VALID k) 1
  d.set Reg.MEM_ULOG_HEAD (k + 1)

/-- R117: a fresh uncorrectable word: rewritten as poison, logged, counted, MEM_UNCORR raised. -/
def Dev.detectUncorr (d : Dev) (r : Region) (w reader : Nat) : Dev :=
  let raw := d.raw w
  let sec := d.secureWord r w
  let d := (d.setRaw w (poisonWord (dataOf raw))).logUncorr w r.ctrl (syndrome raw) reader sec
  let d := (d.bump Reg.MEM_TOTAL_UNCORR).bump (Reg.MEM_CTRL_UNCORR r.ctrl)
  (d.set Reg.MEM_ATTN_UNCORR 1).memEvent 0x780 sec

/-- The tracker of a controller. -/
def Dev.tracker (d : Dev) (n : Nat) : List Track := lookup (fun _ => []) d.ram.trackers n

/-- The tracker of a controller replaced; TRK_USED follows (R131). -/
def Dev.setTracker (d : Dev) (n : Nat) (ts : List Track) : Dev :=
  ({ d with ram := { d.ram with trackers := update (fun _ => []) d.ram.trackers n ts } }).set
    (Reg.MEM_CTRL_TRK_USED n) ts.length

/-- R123: room for a new entry: a full tracker gives up the entry with the oldest last correction. The second part says
whether one was given up. -/
def makeRoom (now : ShortTime) (ts : List Track) : List Track × Bool :=
  if ts.length < 64 then (ts, false)
  else
    let oldest := ts.foldl (fun a t => max a ((now - t.time).toNat)) 0
    match ts.find? (fun t => (now - t.time).toNat == oldest) with
    | some t => (ts.erase t, true)
    | none => (ts, false)

/-- Spare rows in use in a bank of a controller. -/
def Dev.sparesUsed (d : Dev) (ctrl bank : Nat) : Nat :=
  (d.ram.remapped.filter (fun x => x.1 == ctrl && x.2.1 == bank)).length

/-- R131: SPARES_LEFT of an SRAM controller: the lowest count over its banks. -/
def Dev.sparesLeft (d : Dev) (r : Region) : Nat :=
  minD r.spares ((upFrom 0 r.banks).map (fun b => r.spares - d.sparesUsed r.ctrl b))

/-- A stored word with a correctable error corrected in place; any other word stays. -/
def Dev.correctInPlace (d : Dev) (w : Nat) : Dev :=
  match classify (d.raw w) with
  | .corrected v => d.setRaw w (encodeWord v)
  | _ => d

/-- R124, R125: a hard fault at word w. SRAM: the row is copied, each word corrected, into a free spare row, or the
spare rows are exhausted. HBM: a soft post-package repair of the word's DRAM row begins if a resource is left. -/
def Dev.hardFault (d : Dev) (r : Region) (w : Nat) : Dev :=
  let n := r.ctrl
  let sec := d.secureWord r w
  let d := (d.bump (Reg.MEM_CTRL_HARD n)).set Reg.MEM_ATTN_HARD 1
  match r with
  | .hbm s =>
    let pc := hbmChannel s w
    if d.get (Reg.HBM_STACK_PC_REPAIRS_LEFT s pc) = 0 then (d.set (Reg.MEM_CTRL_STATE n) 2).relevel 0x783
    else
      { d with ram := { d.ram with repairs := d.ram.repairs ++ [(s, pc, w)] } }
  | _ =>
    let bank := r.bank w
    if d.sparesUsed n bank < r.spares then
      let d := (r.rowWords bank (r.row w)).foldl Dev.correctInPlace d
      let d := { d with ram := { d.ram with remapped := d.ram.remapped ++ [(n, bank, r.row w)] } }
      (d.set (Reg.MEM_CTRL_SPARES_LEFT n) (d.sparesLeft r)).memEvent 0x782 sec
    else (d.set (Reg.MEM_CTRL_STATE n) 2).relevel 0x783

/-- R123: one correction of word w, found by a reader or by the scrubber: counted (R131) and tracked. -/
def Dev.trackCorrection (d : Dev) (r : Region) (w : Nat) (scrub : Bool) : Dev :=
  let n := r.ctrl
  let now := d.now
  let d := (d.bump Reg.MEM_TOTAL_CORR).bump (Reg.MEM_CTRL_CORR n)
  let hc := update (fun _ => 0) d.ram.hourCount n (lookup (fun _ => 0) d.ram.hourCount n + 1)
  let d := { d with ram := { d.ram with hourCount := hc } }
  let ts := d.tracker n
  match ts.find? (fun t => t.word == w) with
  | some t =>
    if t.written then (d.setTracker n (ts.erase t)).hardFault r w
    else (d.setTracker n (⟨w, true, now⟩ :: ts.erase t)).correctInPlace w
  | none =>
    let (ts, gaveUp) := makeRoom now ts
    let d := d.setTracker n (⟨w, scrub, now⟩ :: ts)
    let d := if gaveUp then (d.set Reg.MEM_ATTN_OVERFLOW 1).memEvent 0x784 (d.secureWord r w) else d
    if scrub then d.correctInPlace w else d

/-- R123: a full-word write by a requester moves the word's entry from SEEN to WRITTEN. -/
def Dev.trackWrite (d : Dev) (r : Region) (w : Nat) : Dev :=
  let ts := d.tracker r.ctrl
  match ts.find? (fun t => t.word == w) with
  | some t => if t.written then d else d.setTracker r.ctrl (ts.map (fun x => if x.word == w then { x with written := true } else x))
  | none => d

/-- R131: the damage an armed injection does to a word as it is stored; it is then no longer armed. -/
def Dev.inject (d : Dev) (w raw : Nat) : Dev × Nat :=
  if d.on Reg.MEM_INJECT_ARMED && d.get64 Reg.MEM_INJECT_ADDR_LO / 8 == d.internal (8 * w) / 8 then
    let a := d.get Reg.MEM_INJECT_BIT_A
    let b := d.get Reg.MEM_INJECT_BIT_B
    let flip (v k : Nat) : Nat := if k < 80 then v ^^^ 2 ^ k else v
    let raw' := match d.get Reg.MEM_INJECT_MODE with
      | 1 => flip raw a
      | 2 => flip (flip raw a) b
      | 3 => poisonWord (dataOf raw)
      | _ => raw
    (d.set Reg.MEM_INJECT_ARMED 0, raw')
  else (d, raw)

/-- R426: does byte address b lie in a sealed quarantine window other than the requester's own? -/
def Dev.sealedAgainst (d : Dev) (win b : Nat) : Bool :=
  (upFrom 0 16).any (fun i =>
    d.get (Reg.SEC_QW_STATE i) == 2 && win != i + 1 &&
    decide (8 * d.get (Reg.SEC_QW_BASE i) ≤ b) &&
    decide (b < 8 * d.get (Reg.SEC_QW_BASE i) + 8 * d.get (Reg.SEC_QW_LEN i)))

/-- The word of the region at a byte address is refused to a request before it reaches memory (R90, R97, R338, R426):
the status, and the violation recorded. None where the request goes on. -/
def Dev.refuse (d : Dev) (q : Req) (r : Region) (w : Nat) (write : Bool) : Option (Dev × Nat) :=
  let e := r.endpoint w
  if !q.own && d.slotFenced e then some (d.bump (Reg.NOC_EP_FENCED_RSP e), stFENCED)
  else if (!q.world && d.secureWord r w) || d.sealedAgainst q.win (8 * w) then some (d.worldViolation q.ep q.func (d.internal (8 * w)) write false, stWORLD)
  else none

/-- R429: the words of word w's group that share an XTS block with it, itself among them: the group's 32 words of 72 bits
fill 18 blocks of 128 bits. -/
def xtsMates (base w : Nat) : List Nat :=
  let i := (w - base) % 32
  let g := w - i
  ((upFrom 0 32).filter (fun j =>
    decide (72 * j / 128 ≤ (72 * i + 71) / 128) && decide (72 * i / 128 ≤ (72 * j + 71) / 128))).map (g + ·)

/-- R114: is a stored word poisoned or uncorrectable? -/
def badRaw (raw : Nat) : Bool :=
  match classify raw with
  | .poison => true
  | .uncorrectable => true
  | _ => false

/-- R117: a word met by a reader that is uncorrectable is detected; any other word stays. -/
def Dev.detectIfUncorr (d : Dev) (r : Region) (reader w : Nat) : Dev :=
  match classify (d.raw w) with
  | .uncorrectable => d.detectUncorr r w reader
  | _ => d

/-- R429: reading a word of a secure HBM group: every bad word that shares a block with it is detected, and every word
that shares a block with a bad word is rewritten as poison. Says whether the word itself is lost. -/
def Dev.spreadXts (d : Dev) (r : Region) (w reader : Nat) : Dev × Bool :=
  match r with
  | .hbm _ =>
    if d.secureWord r w then
      let bad := (xtsMates r.firstWord w).filter (fun x => badRaw (d.raw x))
      if bad.isEmpty then (d, false)
      else
        let d := bad.foldl (fun d x => d.detectIfUncorr r reader x) d
        let lost := bad.foldl (fun a x => a ++ xtsMates r.firstWord x) []
        (lost.foldl (fun d x => d.setRaw x (poisonWord (dataOf (d.raw x)))) d, true)
    else (d, false)
  | _ => (d, false)

/-- A word of memory delivered to a reader by its controller (R114, R117, R123, R129, R429). -/
def Dev.fetchWord (d : Dev) (r : Region) (w reader : Nat) : Dev × Got :=
  let fresh := match classify (d.raw w) with
    | .uncorrectable => true
    | _ => false
  let (d, lost) := d.spreadXts r w reader
  if d.outOfService r.ctrl then (d, .poison)
  else if lost then (d, if fresh then .uncorrectable else .poison)
  else match classify (d.raw w) with
    | .clean => (d, .data (dataOf (d.raw w)))
    | .corrected v => (d.trackCorrection r w false, .data v)
    | .poison => (d, .poison)
    | .uncorrectable => (d.detectUncorr r w reader, .uncorrectable)

/-- R252: a transform unit's buffer counts as unmapped unless the unit is STOPPED. -/
def Dev.readable (d : Dev) (r : Region) : Bool :=
  match r with
  | .xfm u => d.stopped (.xfm (Fin.ofNat 32 u))
  | _ => true

/-- R150: instruction memory takes writes only while its erg is STOPPED; at any other time it counts as unmapped. -/
def Dev.writable (d : Dev) (r : Region) : Bool :=
  match r with
  | .core c true => d.stopped (.erg (Fin.ofNat 13 (c / 8)))
  | _ => d.readable r

/-- A request to read the word at a device byte address (R87, R90). -/
def Dev.readWord (d : Dev) (q : Req) (b : Nat) : Dev × Got :=
  match regionOf b with
  | none => (d, .err stCONFIG)
  | some r =>
    if !d.readable r then (d, .err stCONFIG)
    else match d.refuse q r (b / 8) false with
    | some (d, st) => (d, .err st)
    | none => d.fetchWord r (b / 8) q.reader

/-- R129: a write refused by memory that is out of service. -/
def Dev.writeRefused (d : Dev) (r : Region) (w : Nat) : Dev :=
  (d.set Reg.MEM_ATTN_WRITE_DROP 1).memEvent 0x781 (d.secureWord r w)

/-- A whole word stored by a requester (R86, R123, R131): the stored bits are given with their check byte. -/
def Dev.storeRaw (d : Dev) (r : Region) (w raw : Nat) : Dev :=
  let (d, raw) := d.inject w raw
  (d.setRaw w raw).trackWrite r w

/-- What a write answers: nothing wrong, or a status of R78. -/
abbrev Ack := Option Nat

/-- A request to write the 80 bits of a word at a device byte address (R86, R90, R97, R129). -/
def Dev.writeRaw (d : Dev) (q : Req) (b raw : Nat) : Dev × Ack :=
  match regionOf b with
  | none => (d, some stCONFIG)
  | some r =>
    if !d.writable r then (d, some stCONFIG)
    else match d.refuse q r (b / 8) true with
    | some (d, st) => (d, some st)
    | none =>
      if d.outOfService r.ctrl then (d.writeRefused r (b / 8), some stUNCORR)
      else (d.storeRaw r (b / 8) raw, none)

/-- A word of data written. -/
def Dev.writeWord (d : Dev) (q : Req) (b : Nat) (v : Word) : Dev × Ack := d.writeRaw q b (encodeWord v)

/-- A word written as poison (R107, R120); its data bits are zero. -/
def Dev.writePoison (d : Dev) (q : Req) (b : Nat) : Dev × Ack := d.writeRaw q b (poisonWord 0)

/-- R118: a word received with check bits: corrected, or stored as poison and logged. -/
def Dev.receiveRaw (d : Dev) (b raw : Nat) : Dev × Nat :=
  match classify raw with
  | .clean => (d, raw)
  | .poison => (d, raw)
  | .corrected v => (d.bump Reg.MEM_XPORT_CORR, encodeWord v)
  | .uncorrectable =>
    match regionOf b with
    | none => (d, poisonWord (dataOf raw))
    | some r =>
      let sec := d.secureWord r (b / 8)
      let d := (d.bump Reg.MEM_XPORT_UNCORR).logUncorr (b / 8) r.ctrl (syndrome raw) 8 sec
      ((d.set Reg.MEM_ATTN_XPORT 1).memEvent 0x787 sec, poisonWord (dataOf raw))

/-- The bits of a word that a narrow write replaces (R86): samples in `mask` [3:0], or bytes in `mask` [7:0] of the byte
view. -/
def maskBits (byteView : Bool) (mask : Nat) : Nat :=
  if byteView then (upFrom 0 8).foldl (fun a j => if bitOf mask j then a + 255 * 256 ^ j else a) 0
  else (upFrom 0 4).foldl (fun a j => if bitOf mask j then a + 262143 * 262144 ^ j else a) 0

/-- R85, R86: an old word with the masked part of a new one; a byte-view write clears bits [71:64]. -/
def mergeWord (old new : Word) (byteView : Bool) (mask : Nat) : Word :=
  let m : Word := BitVec.ofNat 72 (maskBits byteView mask)
  let v := (old &&& ~~~m) ||| (new &&& m)
  if byteView then v &&& BitVec.ofNat 72 (2 ^ 64 - 1) else v

/-- A narrow write (R86): a read-modify-write; one that meets poison or an uncorrectable word is discarded. -/
def Dev.writeNarrow (d : Dev) (q : Req) (b : Nat) (v : Word) (byteView : Bool) (mask : Nat) : Dev × Ack :=
  match regionOf b with
  | none => (d, some stCONFIG)
  | some r =>
    let w := b / 8
    if !d.writable r then (d, some stCONFIG)
    else match d.refuse q r w true with
    | some (d, st) => (d, some st)
    | none =>
      if d.outOfService r.ctrl then (d.writeRefused r w, some stUNCORR)
      else match d.fetchWord r w 6 with
        | (d, .data old) => ((d.setRaw w (encodeWord (mergeWord old v byteView mask))).trackWrite r w, none)
        | (d, _) => ((d.set Reg.MEM_ATTN_WRITE_DROP 1).memEvent 0x781 (d.secureWord r w), none)

/-- R88: where a 56-bit internal address leads. -/
inductive Target where
  | mem (b : Nat)
  | host (iova : Nat)
  | remote (dev b : Nat)
  | unmapped
  deriving DecidableEq, Repr

/-- R88, R90, R91: the target of an internal address. -/
def Dev.target (d : Dev) (a : Nat) : Target :=
  let dv := a / 2 ^ 54 % 4
  if bitOf a 53 then (if dv = d.ownId then .host (a % 2 ^ 53) else .unmapped)
  else if dv = d.ownId then (if (regionOf (a % 2 ^ 53)).isSome then .mem (a % 2 ^ 53) else .unmapped)
  else .remote dv (a % 2 ^ 53)

/-- R93: the group of a device word of HBM: stack and group. -/
def hbmGroup (w : Nat) : Option (Nat × Nat) :=
  match regionOf (8 * w) with
  | some (.hbm s) => some (s, (w - hbmBase s / 8) / 32)
  | _ => none

/-- R94: the bursts of a group that a set of its words (bit i of `mask`: word i) covers in part: burst k holds group bits
[512k+511:512k], word i bits [80i+79:80i]. -/
def partBursts (mask : Nat) : Nat :=
  ((upFrom 0 5).filter (fun k =>
    let inside := (upFrom 0 32).filter (fun i => decide (512 * k < 80 * i + 80) && decide (80 * i < 512 * k + 512))
    inside.any (fun i => bitOf mask i) && !inside.all (fun i => bitOf mask i))).length

/-- R96: a group read is counted. -/
def Dev.countRead (d : Dev) (g : Nat × Nat) : Dev := d.bump (Reg.HBM_STACK_PC_READ_GROUPS g.1 (g.2 % 32))

/-- R94, R96: a group written is counted, and the merges of its partly covered bursts. -/
def Dev.countWrite (d : Dev) (g : Nat × Nat) (mask : Nat) : Dev :=
  (d.bump (Reg.HBM_STACK_PC_WRITE_GROUPS g.1 (g.2 % 32))).add (Reg.HBM_STACK_PC_MERGES g.1 (g.2 % 32)) (partBursts mask)

end Sys2Proof.Machine
end

