-- ==== Sys2Proof/Machine/Operands.lean ====
section
/-! DEFINITION. Operands of the Pemer core: its register files with rotation (R133, R134, R152), lanes and predicates (R139),
addresses and circular units (R148, R149, R151, R183). -/

namespace Sys2Proof.Machine

/-- S[i]. -/
def Arch.rS (x : Arch) (i : Nat) : BitVec 36 := lookup (fun _ => 0) x.s i
/-- A[i]. -/
def Arch.rA (x : Arch) (i : Nat) : BitVec 32 := lookup (fun _ => 0) x.a i
/-- P[i]; P[0] reads all ones (R133). -/
def Arch.rP (x : Arch) (i : Nat) : BitVec 32 := if i = 0 then BitVec.allOnes 32 else lookup (fun _ => 0) x.p i
/-- R152: the physical register of the name V[r]. -/
def Arch.phys (x : Arch) (r : Nat) : Nat := if r < 32 then r else 32 + (r + 32 - x.rot.toNat) % 32
/-- V[r]. -/
def Arch.rV (x : Arch) (r : Nat) : BitVec 576 := lookup (fun _ => 0) x.v (x.phys r)
/-- Lane i of ACC[a]. -/
def Arch.rAcc (x : Arch) (a i : Nat) : Int := (lookup (fun _ => (0 : BitVec 48)) x.acc (32 * a + i)).toInt

/-- S[i] written. -/
def Arch.wS (x : Arch) (i : Nat) (v : BitVec 36) : Arch := { x with s := update (fun _ => 0) x.s i v }
/-- A[i] written. -/
def Arch.wA (x : Arch) (i : Nat) (v : BitVec 32) : Arch := { x with a := update (fun _ => 0) x.a i v }
/-- P[i] written; writes to P[0] are ignored (R133). -/
def Arch.wP (x : Arch) (i : Nat) (v : BitVec 32) : Arch := if i = 0 then x else { x with p := update (fun _ => 0) x.p i v }
/-- A physical V register written. -/
def Arch.wV (x : Arch) (phys : Nat) (v : BitVec 576) : Arch := { x with v := update (fun _ => 0) x.v phys v }
/-- Lane i of ACC[a] written, wrapped to 48 bits. -/
def Arch.wAcc (x : Arch) (a i : Nat) (v : Int) : Arch :=
  { x with acc := update (fun _ => 0) x.acc (32 * a + i) (BitVec.ofInt 48 v) }

/-- R134: sample lane i of a vector. -/
def laneOf (v : BitVec 576) (i : Nat) : Int := (v.extractLsb' (18 * i) 18).toInt
/-- R134: word w of a vector. -/
def wordOf (v : BitVec 576) (w : Nat) : Word := v.extractLsb' (72 * w) 72
/-- A vector of 32 lanes, each wrapped to 18 bits, as a number. -/
def packLanes (f : Nat → Int) (i : Nat) : Nat → Nat
  | 0 => 0
  | n + 1 => wrapTo 18 (f i) + 2 ^ 18 * packLanes f (i + 1) n
/-- A vector of 32 lanes, each wrapped to 18 bits. -/
def ofLanes (f : Nat → Int) : BitVec 576 := BitVec.ofNat 576 (packLanes f 0 32)

/-- R139: is sample lane i selected? -/
def laneOn (p : BitVec 32) (i : Nat) : Bool := p.getLsbD i
/-- R139: is the complex lane of sample lane i selected, by its bit 2j? -/
def pairOn (p : BitVec 32) (i : Nat) : Bool := p.getLsbD (i / 2 * 2)

/-- The names of registers as a bundle's writes are compared (R138): S from 0, A from 32, physical V from 64, ACC from 128, P
from 136, system registers from 160. -/
def nameS (i : Nat) : Nat := i
def nameA (i : Nat) : Nat := 32 + i
def nameV (phys : Nat) : Nat := 64 + phys
def nameAcc (a : Nat) : Nat := 128 + a
def nameP (i : Nat) : Nat := 136 + i
def nameSys (n : Nat) : Nat := 160 + n

/-- R149: sign extension of an n-bit value to 36 bits. -/
def sext36 (n v : Nat) : BitVec 36 := BitVec.ofInt 36 (signed v n)

/-- R133, R149: SEG[g] of a device; SEG[0] is fixed. -/
def Arch.rSeg (x : Arch) (own g : Nat) : Nat := if g = 0 then own * 2 ^ 22 else (lookup (fun _ => (0 : BitVec 24)) x.seg g).toNat

/-- R151: the offset of A[n] in circular unit k. -/
def Arch.circOffset (x : Arch) (n k : Nat) : Nat := (x.rA n - lookup (fun _ => 0) x.cbBase k).toNat
/-- CB_LEN[k]. -/
def Arch.circLen (x : Arch) (k : Nat) : Nat := (lookup (fun _ => (0 : BitVec 32)) x.cbLen k).toNat

/-- R183: the scaled immediate of an access of a size. -/
def Addr.scaled (m : Addr) (size : Nat) : Int := m.imm.toInt * (size : Int)

/-- R148: an internal address of an offset. -/
def Arch.internalOf (x : Arch) (own : Nat) (m : Addr) (off : Nat) : Nat := x.rSeg own m.g.val * 2 ^ 32 + off % 2 ^ 32

/-- R151, R183: does a circular access lie out of its range? -/
def Arch.circBad (x : Arch) (m : Addr) : Bool :=
  match m.circ with
  | some k => decide (x.circLen k.val ≤ x.circOffset m.n.val k.val)
  | none => false

/-- R148, R151, R183: the internal address of word (or unit) i of an access of a size. -/
def Arch.accessAddr (x : Arch) (own : Nat) (m : Addr) (size i : Nat) : Nat :=
  match m.circ with
  | some k =>
    let base := (lookup (fun _ => (0 : BitVec 32)) x.cbBase k.val).toNat
    x.internalOf own m (base + (x.circOffset m.n.val k.val + 8 * i) % max 1 (x.circLen k.val))
  | none =>
    let a := (x.rA m.n.val).toNat
    let o := if m.pm then (a : Int) else a + Addr.scaled m size
    x.internalOf own m (wrapTo 32 (o + 8 * i))

/-- R151, R183: A[n] after a post-modify. -/
def Arch.postModified (x : Arch) (m : Addr) (size : Nat) : BitVec 32 :=
  match m.circ with
  | some k =>
    let len := max 1 (x.circLen k.val)
    lookup (fun _ => 0) x.cbBase k.val + BitVec.ofInt 32 (((x.circOffset m.n.val k.val : Int) + Addr.scaled m size) % (len : Int))
  | none => x.rA m.n.val + BitVec.ofInt 32 (Addr.scaled m size)

/-- The shift of an extraction (R145, R181). -/
def Arch.shift (x : Arch) (s : Shift) : Nat :=
  match s with
  | .imm s => s.val
  | .reg k => (x.rS k.val).toNat % 32

end Sys2Proof.Machine
end

