-- ==== Sys2Proof/Machine/Flags.lean ====
section
/-! DEFINITION. The arithmetic of the Pemer core with its flags: accumulator modes (R143), sticky flags (R144), extraction
(R145), saturation, headroom (R147). -/

namespace Sys2Proof.Machine

/-- R144, R145: XSAT set. -/
def Arch.setXsat (x : Arch) : Arch := { x with accSt := x.accSt ||| BitVec.ofNat 17 (2 ^ 16) }

/-- R143: is ACC[a] in SAT mode? -/
def Arch.sat (x : Arch) (a : Nat) : Bool := x.accMode.getLsbD a

/-- R143: one lane of ACC[a] takes the exact sum of its old value and `sum`, under the mode `sat`; `x` is the working copy.
The flags newly set follow: TOVF, then SOVF. -/
def accumulate (sat : Bool) (a i : Nat) (sum : Int) (acc : Arch × Bool × Bool) : Arch × Bool × Bool :=
  let (x, t, o) := acc
  let v := x.rAcc a i + sum
  let key := 32 * a + i
  if sat then
    if x.hold.contains key then (x, t, o)
    else if fits 48 v then (x.wAcc a i v, t, o)
    else
      let y := x.wAcc a i (satTo 48 v)
      ({ y with hold := key :: y.hold, accSt := y.accSt ||| BitVec.ofNat 17 (2 ^ (8 + a)) }, t, true)
  else
    let y := { x.wAcc a i v with hold := x.hold.filter (· != key) }
    if fits 48 v then (y, t, o) else ({ y with accSt := y.accSt ||| BitVec.ofNat 17 (2 ^ a) }, true, o)

/-- R143, R181: a lane set, which ends a SAT hold and sets no flag. -/
def Arch.setLane (x : Arch) (a i : Nat) (v : Int) : Arch :=
  let y := x.wAcc a i v
  { y with hold := y.hold.filter (· != 32 * a + i) }

/-- R145: a value limited to a sample, and whether the limit changed it. -/
def limit18 (v : Int) : Int × Bool := (satTo 18 v, !fits 18 v)

/-- R145: an extraction with shift s. -/
def extraction (l : Int) (s : Nat) : Int × Bool := limit18 (roundShift l s)

/-- R147: the headroom of a value of width n. -/
def headroom (n : Nat) (v : Int) : Nat :=
  let m : Nat := if v < 0 then (-v - 1).toNat else v.toNat
  if m = 0 then n - 1 else n - 1 - (Nat.log2 m + 1)

/-- R147: the smallest headroom over the selected lanes. -/
def blockExponent (n : Nat) (p : BitVec 32) (f : Nat → Int) : Nat :=
  minD (n - 1) (((upFrom 0 32).filter (laneOn p)).map (fun i => headroom n (f i)))

end Sys2Proof.Machine
end

