-- ==== Sys2Proof/Machine/Jobs.lean ====
section
/-! DEFINITION. Jobs: the descriptor's fields (R64), a job's end (R67, R70, R121), and the words a job reads and writes
wherever they lie (R88, R90, R118, R340). -/

namespace Sys2Proof.Machine

/-- Bits of a descriptor: `w` bits from bit `lo` of byte `k`. -/
def Job.bits (j : Job) (k lo w : Nat) : Nat := bitsOf j.desc.toNat (8 * k + lo) w
/-- Bytes of a descriptor, little-endian. -/
def Job.bytes (j : Job) (k n : Nat) : Nat := j.bits k 0 (8 * n)

/-- R64: OPCODE. -/
def Job.opcode (j : Job) : Nat := j.bytes 0 1
/-- R64: ORDERED. -/
def Job.ordered (j : Job) : Bool := j.bits 1 0 1 == 1
/-- R64: FENCE. -/
def Job.fence (j : Job) : Bool := j.bits 1 1 1 == 1
/-- R64: COMPLETION_EVENT. -/
def Job.completionEvent (j : Job) : Bool := j.bits 1 2 1 == 1
/-- R64: NO_DEADLINE. -/
def Job.noDeadline (j : Job) : Bool := j.bits 1 3 1 == 1
/-- R64: JOB_TAG. -/
def Job.tag (j : Job) : Nat := j.bytes 2 2
/-- R64: DESK. -/
def Job.desk (j : Job) : Nat := j.bits 4 0 6
/-- R64: WORLD, true for secure. -/
def Job.world (j : Job) : Bool := j.bits 4 6 1 == 1
/-- R64: PRIORITY. -/
def Job.priority (j : Job) : Nat := j.bits 5 0 6
/-- R64: CARRIER. -/
def Job.carrier (j : Job) : Nat := j.bytes 6 2
/-- R64: DEADLINE. -/
def Job.deadline (j : Job) : ShortTime := BitVec.ofNat 64 (j.bytes 16 8)
/-- R64: NOT_BEFORE. -/
def Job.notBefore (j : Job) : ShortTime := BitVec.ofNat 64 (j.bytes 24 8)

/-- R68: NOP and CANCEL do not count towards the limits. -/
def Job.counts (j : Job) : Bool := !(j.opcode == 0 || j.opcode == 1)

/-- The function of the ring a job came from (R54). -/
def Dev.jobFunc (d : Dev) (j : Job) : Nat := d.get (Reg.JFE_SQ_CFG_FUNC j.sq)

/-- The job of a number, if it is in flight. -/
def Dev.job (d : Dev) (id : Nat) : Option Job := d.jfe.jobs.find? (fun j => j.id == id)

/-- The jobs in flight replaced. -/
def Dev.setJobs (d : Dev) (js : List Job) : Dev := { d with jfe := { d.jfe with jobs := js } }

/-- One job in flight changed. -/
def Dev.setJob (d : Dev) (j : Job) : Dev := d.setJobs (d.jfe.jobs.map (fun x => if x.id == j.id then j else x))

/-- A job leaves flight. -/
def Dev.dropJob (d : Dev) (id : Nat) : Dev :=
  let js := d.jfe.jobs.filter (fun x => x.id != id)
  let ws := d.jfe.waiting.filter (· != id)
  { d with jfe := { d.jfe with jobs := js, waiting := ws } }

/-- Status codes of R78. -/
def stOK : Nat := 0x00
def stLATE : Nat := 0x01
def stCANCELLED : Nat := 0x02
def stABORTED : Nat := 0x03
def stPOISONED : Nat := 0x05
def stTAGFAIL : Nat := 0x08
def stCIPHERFAULT : Nat := 0x09
def stTHROTTLED : Nat := 0x0B
def stNUMERIC : Nat := 0x0C
def stPREEMPTED : Nat := 0x0D
def stLENGTH : Nat := 0x0E
def stDECODEFAIL : Nat := 0x0F
def stPOWER : Nat := 0x11

/-- Has a job not yet come to its end? -/
def Job.open_ (j : Job) : Bool :=
  match j.phase with
  | .ended => false
  | .taken => false
  | _ => true

/-- The rails a job counts for (R34), other than rail 3, which counts all work: jobs of the engines, the data movers and
CIPH count for rail 2. Task jobs are counted by the TSU through their tasks. -/
def Job.onRail2 (j : Job) : Bool := decide (0x10 ≤ j.opcode) && decide (j.opcode < 0xB0)

/-- The mark of a LATE completion on the rails of a job (R35). -/
def Dev.markLate (d : Dev) (j : Job) : Dev :=
  let l := d.pace.late.set 3 true
  { d with pace := { d.pace with late := if j.onRail2 then l.set 2 true else l } }

/-- A job comes to its end now, with a status and the 16 RESULT bytes (R67, R70): OK turns into LATE when its deadline has
passed, unless it has none or is a CANCEL. -/
def Dev.endJob (d : Dev) (j : Job) (status result : Nat) : Dev :=
  let late := status == stOK && !j.noDeadline && j.opcode != 1 && decide (timeDiff j.deadline d.now < 0)
  let d := if late then d.markLate j else d
  d.setJob { j with phase := .ended, status := if late then stLATE else status, result := BitVec.ofNat 128 result,
                    time := d.now }

/-- R340, R121: the running state of a job's accesses: the device, the answers from outside still to come, the status that
stops the job, whether it met a fresh uncorrectable word, the address of the first one it read, and whether it met
poison. -/
structure Io where
  dev : Dev
  ext : List Ext
  stop : Option Nat
  uncorr : Bool
  badAt : Option Nat
  poison : Bool
  /-- The HBM group of the last word read, and the group being written with the words of it written so far (R96). -/
  lastRead : Option (Nat × Nat)
  writing : Option ((Nat × Nat) × Nat)
  deriving DecidableEq, Repr

/-- A job's accesses begin, under an answer that one of its packets has already had (R340). -/
def Io.start (d : Dev) (j : Job) (ext : List Ext) : Io :=
  { dev := d, ext := ext, stop := j.verdict, uncorr := j.uncorr, badAt := none, poison := j.poison, lastRead := none,
    writing := none }

/-- R96: a word read is taken into the counts of groups: a run of words within one group counts once. -/
def Io.noteRead (s : Io) (w : Nat) : Io :=
  match hbmGroup w with
  | none => s
  | some g => if s.lastRead = some g then s else { s with dev := s.dev.countRead g, lastRead := some g }

/-- The group being written is counted. -/
def Io.endWrite (s : Io) : Io :=
  match s.writing with
  | none => s
  | some (g, m) => { s with dev := s.dev.countWrite g m, writing := none }

/-- R94, R96: a word written is taken into the group being written. -/
def Io.noteWrite (s : Io) (w : Nat) : Io :=
  match hbmGroup w with
  | none => s
  | some g =>
    let k := 2 ^ ((w - hbmBase g.1 / 8) % 32)
    match s.writing with
    | some (h, m) => if h = g then { s with writing := some (g, m ||| k) } else { s.endWrite with writing := some (g, k) }
    | none => { s with writing := some (g, k) }

/-- The device after a job's accesses. -/
def Io.done (s : Io) : Dev := s.endWrite.dev

/-- The next answer from outside the device; LINK when none comes (R19). -/
def Io.nextExt (s : Io) : Io × Ext :=
  match s.ext with
  | [] => (s, .err stLINK)
  | e :: es => ({ s with ext := es }, e)

/-- R340: the first answer of this kind decides the status, and the job issues no further packet. -/
def Io.halt (s : Io) (status : Nat) : Io :=
  match s.stop with
  | some _ => s
  | none => { s with stop := some status }

/-- The function a request is made as. -/
def Req.asFunc (q : Req) : Nat := q.func.getD 0

/-- A job reads the word at an internal address: its data (zero where the read is refused), and whether the word is lost
(poisoned or uncorrectable). A host word is 8 bytes; an error or poison of the host's supplies poison (R118), as does a
read that cannot be issued since Bus Master Enable is clear. A secure request never reaches another device (R355). -/
def Io.read (s : Io) (q : Req) (a : Nat) : Io × Word × Bool :=
  if s.stop.isSome then (s, 0, false)
  else match s.dev.target a with
    | .unmapped => (s.halt stCONFIG, 0, false)
    | .mem b =>
      let s := s.noteRead (b / 8)
      match s.dev.readWord q b with
      | (d, .data v) => ({ s with dev := d }, v, false)
      | (d, .poison) => ({ s with dev := d, poison := true }, 0, true)
      | (d, .uncorrectable) =>
        ({ s with dev := d, uncorr := true, badAt := match s.badAt with | some x => some x | none => some a }, 0, true)
      | (d, .err st) => (({ s with dev := d }).halt st, 0, false)
    | .host iova =>
      if s.dev.jfe.busMaster.getLsbD q.asFunc then
        let (s, e) := ({ s with dev := s.dev.send (.read q.asFunc iova 8) }).nextExt
        match e with
        | .word v => (s, v &&& BitVec.ofNat 72 (2 ^ 64 - 1), false)
        | _ => ({ s with poison := true }, 0, true)
      else ({ s with poison := true }, 0, true)
    | .remote _ _ =>
      if q.world then (s.halt stWORLD, 0, false)
      else
        let (s, e) := s.nextExt
        match e with
        | .word v => (s, v, false)
        | .poison => ({ s with poison := true }, 0, true)
        | .err st => (s.halt st, 0, false)

/-- The outcome of a write to memory taken into a job's accesses: a refusal by memory out of service lets the job go on and
makes it UNCORRECTABLE (R129, R340); any other status stops it. Says whether the word was written. -/
def Io.took (s : Io) (r : Dev × Ack) : Io × Bool :=
  match r with
  | (d, none) => ({ s with dev := d }, true)
  | (d, some st) => if st = stUNCORR then ({ s with dev := d, uncorr := true }, false)
                    else (({ s with dev := d }).halt st, false)

/-- A write that goes to another device: accepted or refused as its answer says. -/
def Io.writeRemote (s : Io) (q : Req) : Io × Bool :=
  if q.world then (s.halt stWORLD, false)
  else
    let (s, e) := s.nextExt
    match e with
    | .err st => if st = stUNCORR then ({ s with uncorr := true }, false) else (s.halt st, false)
    | _ => (s, true)

/-- A job writes a whole word at an internal address, or poison. The host gets the 8 bytes of bits [63:0], zero for poison
(R102, R107, R118). Says whether the word was written. -/
def Io.write (s : Io) (q : Req) (a : Nat) (v : Word) (poison : Bool) : Io × Bool :=
  if s.stop.isSome then (s, false)
  else match s.dev.target a with
    | .unmapped => (s.halt stCONFIG, false)
    | .mem b =>
      let s := s.noteWrite (b / 8)
      s.took (if poison then s.dev.writePoison q b else s.dev.writeWord q b v)
    | .host iova =>
      if s.dev.jfe.busMaster.getLsbD q.asFunc then
        ({ s with dev := s.dev.send (.write q.asFunc iova (leBytes (if poison then 0 else v.toNat) 8)
            (s.dev.on Reg.JFE_CFG_RO_DATA)) }, true)
      else (s, false)
    | .remote _ _ => s.writeRemote q

/-- Bytes read from an internal address, byte by byte through the words that hold them (R84), with a mark on the bytes of
a lost word. The words are each read once. -/
def Io.readBytes (s : Io) (q : Req) (a n : Nat) : Io × List Byte × Bool :=
  match s.dev.target a with
  | .host iova =>
    -- a run of host bytes is delivered in words of 8 bytes from its first byte
    let step (acc : Io × List Byte × Bool) (k : Nat) : Io × List Byte × Bool :=
      let (s, bs, lost) := acc
      let (s, v, l) := s.read q (a - a % 2 ^ 53 + (iova + 8 * k) % 2 ^ 53)
      (s, bs ++ leBytes v.toNat 8, lost || l)
    let (s, bs, lost) := (upFrom 0 ((n + 7) / 8)).foldl step (s, [], false)
    (s, bs.take n, lost)
  | _ =>
    let first := a / 8
    let step (acc : Io × List Byte × Bool) (w : Nat) : Io × List Byte × Bool :=
      let (s, bs, lost) := acc
      let (s, v, l) := s.read q (8 * w)
      (s, bs ++ leBytes v.toNat 8, lost || l)
    let (s, bs, lost) := (upFrom first ((a + n + 7) / 8 - first)).foldl step (s, [], false)
    (s, (bs.drop (a % 8)).take n, lost)

/-- One word's share of a run of bytes written through the byte view: a whole word where the run covers it, a narrow write
otherwise (R85, R86). -/
def Io.writeShare (s : Io) (q : Req) (w lo : Nat) (bs : List Byte) (poison : Bool) : Io × Bool :=
  if s.stop.isSome then (s, false)
  else if bs.length = 8 then s.write q (8 * w) (BitVec.ofNat 72 (ofLE bs)) poison
  else match s.dev.target (8 * w) with
    | .unmapped => (s.halt stCONFIG, false)
    | .mem b =>
      let s := s.noteWrite (b / 8)
      if poison then s.took (s.dev.writePoison q b)
      else s.took (s.dev.writeNarrow q b (BitVec.ofNat 72 (ofLE bs * 256 ^ lo)) true
        ((upFrom lo bs.length).foldl (fun a j => a + 2 ^ j) 0))
    | .host _ => (s, false)
    | .remote _ _ => s.writeRemote q

/-- The words a run of n bytes from byte address a touches: word, first byte in it, how many bytes. -/
def shares (a : Nat) : Nat → Nat → List (Nat × Nat × Nat)
  | 0, _ => []
  | fuel + 1, n =>
    if n = 0 then []
    else
      let lo := a % 8
      let k := min n (8 - lo)
      (a / 8, lo, k) :: shares (a + k) fuel (n - k)

/-- Bytes written at an internal address through the byte view (R85), or one host write. A word written as poison is
written whole. -/
def Io.writeBytes (s : Io) (q : Req) (a : Nat) (bs : List Byte) (poison : Bool) : Io × Bool :=
  if s.stop.isSome then (s, false)
  else match s.dev.target a with
    | .host iova =>
      if s.dev.jfe.busMaster.getLsbD q.asFunc then
        ({ s with dev := s.dev.send (.write q.asFunc iova (if poison then bs.map (fun _ => 0) else bs)
            (s.dev.on Reg.JFE_CFG_RO_DATA)) }, true)
      else (s, false)
    | _ =>
      let step (acc : Io × Bool × Nat) (x : Nat × Nat × Nat) : Io × Bool × Nat :=
        let (s, ok, k) := acc
        let (s, o) := s.writeShare q x.1 x.2.1 ((bs.drop k).take x.2.2) poison
        (s, ok && o, k + x.2.2)
      let (s, ok, _) := (shares a (bs.length / 8 + 2) bs.length).foldl step (s, true, 0)
      (s, ok)

/-- R121, R340: the status of a job from its accesses and what its own work found: a refusal first, then UNCORRECTABLE,
then POISONED, then the work's own status. -/
def Io.status (s : Io) (own : Nat) : Nat :=
  match s.stop with
  | some st => st
  | none => if s.uncorr then stUNCORR else if s.poison then stPOISONED else own

/-- R65 check order: the first failing check of a list decides. -/
def firstFail : List (Option Nat) → Option Nat
  | [] => none
  | some st :: _ => some st
  | none :: cs => firstFail cs

/-- A check as a possible failure. -/
def failIf (c : Bool) (st : Nat) : Option Nat := if c then some st else none

/-- Does a run of n bytes at an internal address lie wholly in one region row of R89 (mesa rows may cross banks), or
wholly in the host window (R102)? -/
def Dev.rowPlaced (d : Dev) (a n : Nat) (hostOk : Bool) : Bool :=
  if bitOf a 53 then hostOk && a / 2 ^ 54 % 4 == d.ownId && decide (a % 2 ^ 53 + n ≤ 2 ^ 53)
  else
    match regionOf (a % 2 ^ 53), regionOf (a % 2 ^ 53 + n - 1) with
    | some (.mesa _), some (.mesa _) => true
    | some r, some r' => r == r'
    | _, _ => false

/-- The endpoint of data-mover channel ch: the channels reach the network at DMV[0] and DMV[1] (R321, R406). -/
def dmvEndpoint (ch : Nat) : Nat := if ch < 32 then 92 else 94

end Sys2Proof.Machine
end

