-- ==== Sys2Proof/Machine/Pemer.lean ====
section
/-! DEFINITION. The Pemer core: bundles, commit, traps (R137–R139, R156–R169). The operations of the slots stand in files of
their own. -/

namespace Sys2Proof.Machine

/-- Core c. -/
def Dev.core (d : Dev) (c : Nat) : Core := lookup (fun _ => Core.reset) d.cores c
/-- Core c changed. -/
def Dev.setCore (d : Dev) (c : Nat) (x : Core) : Dev := { d with cores := update (fun _ => Core.reset) d.cores c x }
/-- Core c changed by a function. -/
def Dev.onCore (d : Dev) (c : Nat) (f : Core → Core) : Dev := d.setCore c (f (d.core c))

/-- STATUS.STATE of core c (R170). -/
def coreState (c : Nat) : Fld := Reg.ERG_CORE_STATUS_STATE (c / 8) (c % 8)
/-- R135: is core c secure? -/
def Dev.coreSecure (d : Dev) (c : Nat) : Bool := d.on (Reg.ERG_CORE_CFG_WORLD (c / 8) (c % 8))
/-- R136: the supervisor level of core c. -/
def Dev.supervisor (d : Dev) (c : Nat) : Level := if d.coreSecure c then .ss else .ns
/-- R187: the number of a level in TRAP_LEVEL. -/
def levelCode (l : Level) : Nat :=
  match l with
  | .tk => 0
  | .ns => 1
  | .ss => 2
/-- R187: the level of a number in TRAP_LEVEL. -/
def levelOf (n : Nat) : Level := if n = 1 then .ns else if n = 2 then .ss else .tk

/-- An event of core c (R171). -/
def Dev.coreEvent (d : Dev) (c k : Nat) : Dev := d.raise (8 * c + k)

/-- The task entry of a number. -/
def Dev.task (d : Dev) (n : Nat) : Task := lookup (fun _ => Task.reset) d.tsu.tasks n

/-- The task entry on core c (R170). -/
def Dev.coreTask (d : Dev) (c : Nat) : Option Nat :=
  if d.on (Reg.ERG_CORE_TASK_VALID (c / 8) (c % 8)) then some (d.get (Reg.ERG_CORE_TASK_ENTRY (c / 8) (c % 8))) else none

/-- R148, R406: the function of the task on core c. -/
def Dev.coreFunc (d : Dev) (c : Nat) : Nat := (d.core c).func

/-- R135, R406: a request of core c. -/
def Dev.coreReq (d : Dev) (c reader : Nat) (own : Bool) : Req :=
  { world := d.coreSecure c, ep := ergEndpoint (c / 8), func := some (d.coreFunc c), reader := reader, own := own, win := 0 }

/-- A trap with no detail. -/
def trapOf (code addr : Nat) : Trap := { code := code, detail := 0, tag := 0, bundleFault := 0, addr := addr }

/-- R161: TRAP_INFO. -/
def trapInfo (t : Trap) (more after : Bool) : BitVec 17 :=
  BitVec.ofNat 17 (t.detail % 256 + t.tag % 8 * 2 ^ 8 + t.bundleFault % 8 * 2 ^ 12 + b2n more * 2 ^ 15 + b2n after * 2 ^ 16)

/-- R165: a double fault halts core c. -/
def Dev.haltCore (d : Dev) (c : Nat) (t : Trap) (pc : BitVec 13) : Dev :=
  let e := c / 8
  let k := c % 8
  let d := d.onCore c (fun x => { x with bundle := none })
  let d := (d.set (Reg.ERG_CORE_HALT_PC e k) pc.toNat).set (Reg.ERG_CORE_HALT_CAUSE e k) t.code
  let d := (d.set (coreState c) 3).set (Reg.ERG_CORE_ATTN_HALT e k) 1
  d.relevel (8 * c)

/-- R162: core c enters its trap handler. -/
def Dev.enterTrap (d : Dev) (c : Nat) (t : Trap) (pc : BitVec 13) (more after : Bool) : Dev :=
  let e := c / 8
  let k := c % 8
  let sup := d.supervisor c
  let vec := d.get (Reg.ERG_CORE_TVEC e k)
  let d := d.onCore c (fun x =>
    { x with bundle := none,
             arch := { x.arch with trapPc := pc, trapCause := BitVec.ofNat 8 t.code, trapInfo := trapInfo t more after,
                                   trapAddr := BitVec.ofNat 56 t.addr,
                                   trapLevel := BitVec.ofNat 2 (levelCode x.arch.level),
                                   level := sup, pc := BitVec.ofNat 13 vec } })
  let d := ((d.set (coreState c) 2).bump (Reg.ERG_CORE_TRAPS e k)).set (Reg.ERG_CORE_STATUS_LAST_CAUSE e k) t.code
  d.coreEvent c 3

/-- R162, R165: a precise or after trap of core c. -/
def Dev.takeTrap (d : Dev) (c : Nat) (t : Trap) (pc : BitVec 13) (after : Bool) : Dev :=
  if (d.core c).arch.level = .tk then d.enterTrap c t pc false after else d.haltCore c t pc

/-- R163: at a bundle boundary at TK, core c takes the first asynchronous trap held, in the order ABORT, STORE_FAULT,
CX_LATE. -/
def Dev.takeAsync (d : Dev) (c : Nat) : Dev :=
  let x := d.core c
  if x.arch.level = .tk ∧ d.get (coreState c) = 1 ∧ x.ending = none ∧ x.forced = false then
    match x.abort, x.fault, x.late with
    | some (t, more), _, _ => (d.setCore c { x with abort := none }).enterTrap c t x.arch.pc more true
    | none, some (t, more), _ => (d.setCore c { x with fault := none }).enterTrap c t x.arch.pc more true
    | none, none, some (t, more) => (d.setCore c { x with late := none }).enterTrap c t x.arch.pc more true
    | none, none, none => d
  else d

/-- The same for a core that stands at a bundle boundary. -/
def Dev.takeAsyncIdle (d : Dev) (c : Nat) : Dev := if (d.core c).bundle.isNone then d.takeAsync c else d

/-- An asynchronous trap of a cause arrives: held, or MORE of the one held (R163). -/
def holdTrap (held : Option (Trap × Bool)) (t : Trap) : Option (Trap × Bool) :=
  match held with
  | none => some (t, false)
  | some (u, _) => some (u, true)

/-- Is a number in a list more than once? -/
def hasRepeat : List Nat → Bool
  | [] => false
  | x :: xs => xs.contains x || hasRepeat xs

/-- R164: the trap of lowest code. -/
def lowestTrap : List Trap → Option Trap
  | [] => none
  | t :: ts => match lowestTrap ts with
    | some u => some (if u.code < t.code then u else t)
    | none => some t

/-- R138, R161: the precise traps of a bundle: those its operations met, and ILLEGAL for two operations that write one
register. -/
def Bundle.precise (b : Bundle) : Option Trap :=
  lowestTrap (if hasRepeat b.writes then { trapOf 0x01 0 with detail := 7, bundleFault := 1 } :: b.traps else b.traps)

/-- R144, R161, R164: the after trap of a bundle. -/
def Bundle.after (b : Bundle) : Option Trap :=
  if b.tovf && b.next.mode.getLsbD 0 then some (trapOf 0x10 0)
  else if b.sovf && b.next.mode.getLsbD 1 then some (trapOf 0x11 0)
  else if b.syscall then some (trapOf 0x12 0)
  else none

/-- R172: the address of the bundle after a bundle of n operations. -/
def nextPc (pc : BitVec 13) (n : Nat) : BitVec 13 := pc + BitVec.ofNat 13 (n / 2 + 1)

/-- R204, R207: the coprocessor issue of a bundle that does not commit is discarded. -/
def Dev.dropIssue (d : Dev) (c : Nat) (b : Bundle) : Dev :=
  match b.cx with
  | none => d
  | some o =>
    (d.onCore c (fun x => { x with sb := x.sb &&& ~~~(BitVec.ofNat 8 (2 ^ o.tag)) })).bump (Reg.ERG_CX_DISCARDED (c / 8) (c % 8))

/-- R207: the traps of a coprocessor issue at the commit of its bundle. -/
def Dev.issueTraps (d : Dev) (c : Nat) (b : Bundle) : List Trap :=
  match b.cx with
  | none => []
  | some o =>
    let x := d.core c
    let en := d.get (Reg.ERG_CORE_CFG_CX_EN (c / 8) (c % 8))
    let bit := match x.arch.level with
      | .ss => 0
      | .ns => 1
      | .tk => 2
    (if o.block % 8 != 0 then [trapOf 0x06 o.block] else []) ++ (if !x.lock then [trapOf 0x09 0] else []) ++
      (if !bitOf en bit then [trapOf 0x0A 0] else [])

/-- R168, R210: may a TEND bundle commit: no scoreboard bit set, no coprocessor error unreported, every store accepted, no
asynchronous trap held? -/
def Core.mayEnd (x : Core) : Bool :=
  x.sb == 0 && x.ops.isEmpty && x.buffer.isEmpty && x.storeErrs.isEmpty && x.abort.isNone && x.fault.isNone && x.late.isNone

/-- R160: may the store of a bundle enter the buffer? -/
def Core.mayStore (x : Core) (b : Bundle) : Bool := b.store.isEmpty || decide (x.buffer.length < 16)

/-- What a commit itself writes: flags (R144), the time snapshot and short time (R188), and the return address (R189). -/
def Bundle.finish (b : Bundle) (old : Arch) (now : ShortTime) : Arch :=
  let x := { b.next with pc := b.branch.getD (nextPc old.pc b.count), accSt := (old.accSt &&& ~~~b.clear) ||| b.next.accSt }
  let x := if b.snap then { x with tsnap := now } else x
  let x := match b.timeTo with
    | some (k, hi) => x.wS k (BitVec.ofNat 36 (now.toNat / (if hi then 2 ^ 32 else 1) % 2 ^ 32))
    | none => x
  if b.link then x.wS 31 (BitVec.ofNat 36 (nextPc old.pc b.count).toNat) else x

/-- R156: the commit of a bundle of core c that met no precise trap. -/
def Dev.commitEffects (d : Dev) (c : Nat) (b : Bundle) : Dev :=
  let x := d.core c
  let old := x.arch.pc
  let pc := b.branch.getD (nextPc old b.count)
  let e := c / 8
  let k := c % 8
  let x1 : Core :=
    { x with arch := b.finish x.arch d.now, bundle := none,
             buffer := if b.store.isEmpty then x.buffer else x.buffer ++ [b.store],
             fence := x.fence || (b.fence && !x.buffer.isEmpty),
             ending := b.tend, lock := b.lock.getD x.lock,
             ops := match b.cx with | some o => x.ops ++ [o] | none => x.ops }
  let d := ((d.setCore c x1).bump (Reg.ERG_CORE_BUNDLES e k)).set (Reg.ERG_CORE_PC e k) old.toNat
  let d := d.add (Reg.ERG_CORE_STALLS e k) b.stalls
  let d := if x1.arch.level = .tk then d.set (coreState c) 1 else d.set (coreState c) 2
  let d := d.iff b.signal (fun d => d.coreEvent c 4)
  match b.after with
  | some t => d.takeTrap c t pc true
  | none => d.takeAsync c

/-- R156, R164: core c tries to commit its bundle once all of its operations have completed; a store waits for room in the
buffer, and TEND for its conditions. -/
def Dev.tryCommit (d : Dev) (c : Nat) : Dev :=
  let x := d.core c
  match x.bundle with
  | none => d
  | some b =>
    if !b.ready || b.load.isSome then d
    else match lowestTrap (d.issueTraps c b ++ (b.precise.toList)) with
      | some t => (d.dropIssue c b).takeTrap c t x.arch.pc false
      | none =>
        if b.tend.isSome && !x.mayEnd then
          (if x.arch.level = .tk && (x.abort.isSome || x.fault.isSome || x.late.isSome) then
            ((d.dropIssue c b).setCore c { x with bundle := none }).takeAsync c
           else d)
        else if !x.mayStore b then d
        else d.commitEffects c b

/-- Does core c execute bundles: a task at TK or in its handler, with no end to report? -/
def Dev.executes (d : Dev) (c : Nat) : Bool :=
  let s := d.get (coreState c)
  (s == 1 || s == 2) && (d.core c).ending.isNone && !(d.core c).forced

/-- A bundle that begins. -/
def Bundle.start (x : Arch) : Bundle :=
  { next := { x with accSt := 0 }, count := 0, writes := [], branch := none, traps := [], tovf := false, sovf := false,
    clear := 0, snap := false, timeTo := none, link := false, syscall := false, signal := false, fence := false, tend := none, lock := none, store := [], load := none, cx := none, ready := false,
    stalls := 0 }

/-- The bundle core c is executing, or one that begins. -/
def Core.current (x : Core) : Bundle := x.bundle.getD (Bundle.start x.arch)

/-- R137, R138: an operation of the bundle of core b.core: it reads the registers as they stood before the bundle and writes
the working copy; the last operation of the bundle lets it commit. A core that executes nothing, or whose bundle already
has its last operation, takes no operation; nor does one that must wait (no answer of `f`). -/
def Dev.opWith (d : Dev) (b : Bnd) (f : Dev → Core → Bundle → Option (Dev × Bundle)) : Dev :=
  let c := b.core.val
  let x := d.core c
  let cur := x.current
  if d.executes c && !cur.ready then
    match f d x cur with
    | none => d
    | some (d, n) =>
      (d.onCore c (fun x => { x with
        bundle := some { n with count := cur.count + 1, ready := b.last, stalls := b.stalls } })).tryCommit c
  else d

/-- An operation that neither waits nor touches anything but the core's registers. -/
def Dev.op (d : Dev) (b : Bnd) (f : Arch → Bundle → Bundle) : Dev :=
  d.opWith b (fun d x bu => some (d, f x.arch bu))

/-- Registers a bundle writes. -/
def Bundle.note (b : Bundle) (names : List Nat) : Bundle := { b with writes := b.writes ++ names }

/-- The working copy of a bundle changed. -/
def Bundle.withNext (b : Bundle) (f : Arch → Arch) : Bundle := { b with next := f b.next }

/-- R139: a scalar operation executes when bit 0 of its predicate is 1. -/
def Bundle.scalar (b : Bundle) (bnd : Bnd) (x : Arch) (names : List Nat) (f : Arch → Arch) : Bundle :=
  let b := b.note names
  if laneOn (x.rP bnd.pred.val) 0 then { b with next := f b.next } else b

/-- R139: a vector operation gives V[r] new values in the selected lanes; `on` says which they are. -/
def Bundle.vector (b : Bundle) (x : Arch) (r : Nat) (on : Nat → Bool) (f : Nat → Int) : Bundle :=
  let p := x.phys r
  let old := x.rV r
  (b.note [nameV p]).withNext (fun y => y.wV p (ofLanes (fun i => if on i then f i else laneOf old i)))

/-- XSAT set if a limit changed a selected lane (R145). -/
def Bundle.xsat (b : Bundle) (on : Nat → Bool) (f : Nat → Bool) : Bundle :=
  if (upFrom 0 32).any (fun i => on i && f i) then b.withNext Arch.setXsat else b

/-- A precise trap met. -/
def Bundle.trap (b : Bundle) (t : Trap) : Bundle := { b with traps := b.traps ++ [t] }

end Sys2Proof.Machine
end

