-- ==== Sys2Proof/Machine/Scalar.lean ====
section
/-! DEFINITION. The SCALAR slot (R186–R188): scalar, address and predicate arithmetic, LOOPSET (R153) and the system
registers. -/

namespace Sys2Proof.Machine

/-- S[k] takes a value. -/
def Dev.toS (d : Dev) (b : Bnd) (k : Fin 32) (f : Arch → BitVec 36) : Dev :=
  d.op b (fun x bu => bu.scalar b x [nameS k.val] (fun y => y.wS k.val (f x)))
/-- A[k] takes a value. -/
def Dev.toA (d : Dev) (b : Bnd) (k : Fin 16) (f : Arch → BitVec 32) : Dev :=
  d.op b (fun x bu => bu.scalar b x [nameA k.val] (fun y => y.wA k.val (f x)))
/-- P[k] takes a value. -/
def Dev.toP (d : Dev) (b : Bnd) (k : Fin 8) (f : Arch → BitVec 32) : Dev :=
  d.op b (fun x bu => bu.scalar b x [nameP k.val] (fun y => y.wP k.val (f x)))
/-- P[k] takes the answer of a compare in all its bits. -/
def Dev.toFlag (d : Dev) (b : Bnd) (k : Fin 8) (f : Arch → Bool) : Dev :=
  d.toP b k (fun x => if f x then BitVec.allOnes 32 else 0)

/-- R186: a count of a register shift. -/
def shiftCount (v : BitVec 36) : Nat := v.toNat % 64

/-- ADD. -/
def execOpAdd (b : Bnd) (k x y : Fin 32) (s : State) : Host.Outcome State Fault Refusal :=
  s.onDev (fun d => d.toS b k (fun r => r.rS x.val + r.rS y.val))
/-- SUB. -/
def execOpSub (b : Bnd) (k x y : Fin 32) (s : State) : Host.Outcome State Fault Refusal :=
  s.onDev (fun d => d.toS b k (fun r => r.rS x.val - r.rS y.val))
/-- MUL: the low 36 bits of the product. -/
def execOpMul (b : Bnd) (k x y : Fin 32) (s : State) : Host.Outcome State Fault Refusal :=
  s.onDev (fun d => d.toS b k (fun r => r.rS x.val * r.rS y.val))
/-- MIN. -/
def execOpMin (b : Bnd) (k x y : Fin 32) (s : State) : Host.Outcome State Fault Refusal :=
  s.onDev (fun d => d.toS b k (fun r => if (r.rS x.val).slt (r.rS y.val) then r.rS x.val else r.rS y.val))
/-- MAX. -/
def execOpMax (b : Bnd) (k x y : Fin 32) (s : State) : Host.Outcome State Fault Refusal :=
  s.onDev (fun d => d.toS b k (fun r => if (r.rS x.val).slt (r.rS y.val) then r.rS y.val else r.rS x.val))
/-- AND. -/
def execOpAnd (b : Bnd) (k x y : Fin 32) (s : State) : Host.Outcome State Fault Refusal :=
  s.onDev (fun d => d.toS b k (fun r => r.rS x.val &&& r.rS y.val))
/-- OR. -/
def execOpOr (b : Bnd) (k x y : Fin 32) (s : State) : Host.Outcome State Fault Refusal :=
  s.onDev (fun d => d.toS b k (fun r => r.rS x.val ||| r.rS y.val))
/-- XOR. -/
def execOpXor (b : Bnd) (k x y : Fin 32) (s : State) : Host.Outcome State Fault Refusal :=
  s.onDev (fun d => d.toS b k (fun r => r.rS x.val ^^^ r.rS y.val))
/-- SHL. -/
def execOpShl (b : Bnd) (k x y : Fin 32) (s : State) : Host.Outcome State Fault Refusal :=
  s.onDev (fun d => d.toS b k (fun r => r.rS x.val <<< shiftCount (r.rS y.val)))
/-- SHR. -/
def execOpShr (b : Bnd) (k x y : Fin 32) (s : State) : Host.Outcome State Fault Refusal :=
  s.onDev (fun d => d.toS b k (fun r => r.rS x.val >>> shiftCount (r.rS y.val)))
/-- SHRA: truncating. -/
def execOpShra (b : Bnd) (k x y : Fin 32) (s : State) : Host.Outcome State Fault Refusal :=
  s.onDev (fun d => d.toS b k (fun r => (r.rS x.val).sshiftRight (shiftCount (r.rS y.val))))
/-- ADDI. -/
def execOpAddi (b : Bnd) (k x : Fin 32) (imm : BitVec 34) (s : State) : Host.Outcome State Fault Refusal :=
  s.onDev (fun d => d.toS b k (fun r => r.rS x.val + imm.signExtend 36))
/-- MOVI. -/
def execOpMovi (b : Bnd) (k : Fin 32) (imm : BitVec 34) (s : State) : Host.Outcome State Fault Refusal :=
  s.onDev (fun d => d.toS b k (fun _ => imm.signExtend 36))
/-- SHLI. -/
def execOpShli (b : Bnd) (k x : Fin 32) (n : Fin 36) (s : State) : Host.Outcome State Fault Refusal :=
  s.onDev (fun d => d.toS b k (fun r => r.rS x.val <<< n.val))
/-- SHRI. -/
def execOpShri (b : Bnd) (k x : Fin 32) (n : Fin 36) (s : State) : Host.Outcome State Fault Refusal :=
  s.onDev (fun d => d.toS b k (fun r => r.rS x.val >>> n.val))
/-- SHRAI: truncating. -/
def execOpShrai (b : Bnd) (k x : Fin 32) (n : Fin 36) (s : State) : Host.Outcome State Fault Refusal :=
  s.onDev (fun d => d.toS b k (fun r => (r.rS x.val).sshiftRight n.val))
/-- CMPEQ. -/
def execOpCmpeq (b : Bnd) (p : Fin 8) (x y : Fin 32) (s : State) : Host.Outcome State Fault Refusal :=
  s.onDev (fun d => d.toFlag b p (fun r => r.rS x.val == r.rS y.val))
/-- CMPLT. -/
def execOpCmplt (b : Bnd) (p : Fin 8) (x y : Fin 32) (s : State) : Host.Outcome State Fault Refusal :=
  s.onDev (fun d => d.toFlag b p (fun r => (r.rS x.val).slt (r.rS y.val)))
/-- CMPLTU. -/
def execOpCmpltu (b : Bnd) (p : Fin 8) (x y : Fin 32) (s : State) : Host.Outcome State Fault Refusal :=
  s.onDev (fun d => d.toFlag b p (fun r => (r.rS x.val).ult (r.rS y.val)))
/-- CMPEQI. -/
def execOpCmpeqi (b : Bnd) (p : Fin 8) (x : Fin 32) (imm : BitVec 34) (s : State) : Host.Outcome State Fault Refusal :=
  s.onDev (fun d => d.toFlag b p (fun r => r.rS x.val == imm.signExtend 36))
/-- AADD. -/
def execOpAadd (b : Bnd) (k n : Fin 16) (y : Fin 32) (s : State) : Host.Outcome State Fault Refusal :=
  s.onDev (fun d => d.toA b k (fun r => r.rA n.val + (r.rS y.val).setWidth 32))
/-- AADDI. -/
def execOpAaddi (b : Bnd) (k n : Fin 16) (imm : BitVec 32) (s : State) : Host.Outcome State Fault Refusal :=
  s.onDev (fun d => d.toA b k (fun r => r.rA n.val + imm))
/-- AMOVI. -/
def execOpAmovi (b : Bnd) (k : Fin 16) (imm : BitVec 32) (s : State) : Host.Outcome State Fault Refusal :=
  s.onDev (fun d => d.toA b k (fun _ => imm))
/-- AMOV. -/
def execOpAmov (b : Bnd) (n : Fin 16) (x : Fin 32) (s : State) : Host.Outcome State Fault Refusal :=
  s.onDev (fun d => d.toA b n (fun r => (r.rS x.val).setWidth 32))
/-- AGET. -/
def execOpAget (b : Bnd) (n : Fin 16) (k : Fin 32) (s : State) : Host.Outcome State Fault Refusal :=
  s.onDev (fun d => d.toS b k (fun r => (r.rA n.val).setWidth 36))
/-- PAND. -/
def execOpPand (b : Bnd) (k x y : Fin 8) (s : State) : Host.Outcome State Fault Refusal :=
  s.onDev (fun d => d.toP b k (fun r => r.rP x.val &&& r.rP y.val))
/-- POR. -/
def execOpPor (b : Bnd) (k x y : Fin 8) (s : State) : Host.Outcome State Fault Refusal :=
  s.onDev (fun d => d.toP b k (fun r => r.rP x.val ||| r.rP y.val))
/-- PXOR. -/
def execOpPxor (b : Bnd) (k x y : Fin 8) (s : State) : Host.Outcome State Fault Refusal :=
  s.onDev (fun d => d.toP b k (fun r => r.rP x.val ^^^ r.rP y.val))
/-- PANDN. -/
def execOpPandn (b : Bnd) (k x y : Fin 8) (s : State) : Host.Outcome State Fault Refusal :=
  s.onDev (fun d => d.toP b k (fun r => r.rP x.val &&& ~~~r.rP y.val))
/-- PMOVS. -/
def execOpPmovs (b : Bnd) (p : Fin 8) (x : Fin 32) (s : State) : Host.Outcome State Fault Refusal :=
  s.onDev (fun d => d.toP b p (fun r => (r.rS x.val).setWidth 32))
/-- PGETS. -/
def execOpPgets (b : Bnd) (p : Fin 8) (k : Fin 32) (s : State) : Host.Outcome State Fault Refusal :=
  s.onDev (fun d => d.toS b k (fun r => (r.rP p.val).setWidth 36))

/-- R153: is stage j active in the present pass? -/
def Arch.stageOn (x : Arch) (j : Nat) : Bool :=
  decide (j < x.stg.toNat) && decide (j ≤ x.pass.toNat) && decide (x.pass.toNat - j < x.trips.toNat)

/-- R153: the stage predicates P[4..7] for the present TRIPS, STG and PASS. -/
def Arch.setStages (x : Arch) : Arch :=
  let put (y : Arch) (j : Nat) : Arch := y.wP (4 + j) (if x.stageOn j then BitVec.allOnes 32 else 0)
  put (put (put (put x 0) 1) 2) 3

/-- The registers LOOPSET and LOOPM name beside PASS: the stage predicates. -/
def stageNames : List Nat := [nameP 4, nameP 5, nameP 6, nameP 7]

/-- The count of LOOPSET. -/
def Arch.count (x : Arch) (n : Count) : BitVec 32 :=
  match n with
  | .reg a => (x.rS a.val).setWidth 32
  | .imm v => v

/-- LOOPSET (R153) with stages + 1 stages. -/
def execOpLoopset (b : Bnd) (stages : Fin 4) (n : Count) (s : State) : Host.Outcome State Fault Refusal :=
  s.onDev (fun d => d.op b (fun x bu =>
    bu.scalar b x ([nameSys 8, nameSys 9, nameSys 11] ++ stageNames) (fun y =>
      ({ y with trips := x.count n, pass := 0, stg := BitVec.ofNat 3 (stages.val + 1) }).setStages)))

/-- An operation of the SCALAR slot that has no meaning: ILLEGAL (R176). -/
def illegalScalar : Trap := { trapOf 0x01 0 with detail := 4 }

/-- R187: the value MFSR reads, for the registers whose value does not change within a bundle; none where the number is
unassigned. -/
def Dev.sysRead (d : Dev) (c : Nat) (x : Core) (n : Nat) : Option Nat :=
  let r := x.arch
  if n < 4 then some (lookup (fun _ => (0 : BitVec 32)) r.cbBase n).toNat
  else if n < 8 then some (lookup (fun _ => (0 : BitVec 32)) r.cbLen (n - 4)).toNat
  else match n with
    | 0x08 => some r.trips.toNat
    | 0x09 => some r.pass.toNat
    | 0x0A => some r.rot.toNat
    | 0x0B => some r.stg.toNat
    | 0x0C => some (r.rSeg d.ownId 0)
    | 0x0D => some (r.rSeg d.ownId 1)
    | 0x0E => some (r.rSeg d.ownId 2)
    | 0x0F => some (r.rSeg d.ownId 3)
    | 0x10 => some r.accMode.toNat
    | 0x11 => some r.accSt.toNat
    | 0x12 => some r.mode.toNat
    | 0x13 => some x.sb.toNat
    | 0x18 => some c
    | 0x19 => some (d.now.toNat % 2 ^ 32)
    | 0x1A => some (d.now.toNat / 2 ^ 32)
    | 0x1B => some (r.tsnap.toNat % 2 ^ 32)
    | 0x1C => some (r.tsnap.toNat / 2 ^ 32)
    | 0x20 => some r.trapPc.toNat
    | 0x21 => some r.trapCause.toNat
    | 0x22 => some r.trapInfo.toNat
    | 0x23 => some (r.trapAddr.toNat % 2 ^ 32)
    | 0x24 => some (r.trapAddr.toNat / 2 ^ 32)
    | 0x25 => some r.trapLevel.toNat
    | _ => if 0x28 ≤ n ∧ n < 0x2C then some (lookup (fun _ => (0 : BitVec 36)) r.scratch (n - 0x28)).toNat else none

/-- MFSR (R187, R188): TIME_LO and TIME_HI are read at commit. -/
def execOpMfsr (b : Bnd) (k : Fin 32) (sys : BitVec 8) (s : State) : Host.Outcome State Fault Refusal :=
  s.onDev (fun d => d.opWith b (fun d core bu =>
    let n := sys.toNat
    match d.sysRead b.core.val core n with
    | none => some (d, bu.trap illegalScalar)
    | some v =>
      let bu := bu.note [nameS k.val]
      if !laneOn (core.arch.rP b.pred.val) 0 then some (d, bu)
      else if 0x25 ≤ n ∧ core.arch.level = .tk then some (d, bu.trap (trapOf 0x02 0))
      else if n = 0x19 ∨ n = 0x1A then some (d, { bu with timeTo := some (k.val, n == 0x1A) })
      else some (d, bu.withNext (fun y => y.wS k.val (BitVec.ofNat 36 v)))))

/-- R187: can MTSR name the register? -/
def sysWritable (n : Nat) : Bool :=
  decide (n ≤ 0x0B) || (decide (0x0D ≤ n) && decide (n ≤ 0x12)) || n == 0x1B || (decide (0x20 ≤ n) && decide (n ≤ 0x25)) ||
    (decide (0x28 ≤ n) && decide (n ≤ 0x2B))

/-- R144, R187: a bundle that writes a system register. -/
def Bundle.sysWrite (b : Bundle) (n : Nat) (v : BitVec 36) : Bundle :=
  let w := v.setWidth 32
  let seg (k : Nat) : Bundle := b.withNext (fun y => { y with seg := update (fun _ => 0) y.seg k (v.setWidth 24) })
  if n < 4 then b.withNext (fun y => { y with cbBase := update (fun _ => 0) y.cbBase n w })
  else if n < 8 then b.withNext (fun y => { y with cbLen := update (fun _ => 0) y.cbLen (n - 4) w })
  else match n with
    | 0x08 => b.withNext (fun y => { y with trips := w })
    | 0x09 => b.withNext (fun y => { y with pass := w })
    | 0x0A => b.withNext (fun y => { y with rot := v.setWidth 5 })
    | 0x0B =>
      let t := v.toNat % 8
      b.withNext (fun y => { y with stg := BitVec.ofNat 3 (if 1 ≤ t ∧ t ≤ 4 then t else 4) })
    | 0x0D => seg 1
    | 0x0E => seg 2
    | 0x0F => seg 3
    | 0x10 => b.withNext (fun y => { y with accMode := v.setWidth 8 })
    | 0x11 => { b with clear := v.setWidth 17 }
    | 0x12 => b.withNext (fun y => { y with mode := v.setWidth 2 })
    | 0x1B => { b with snap := true }
    | 0x20 => b.withNext (fun y => { y with trapPc := v.setWidth 13 })
    | 0x21 => b.withNext (fun y => { y with trapCause := v.setWidth 8 })
    | 0x22 => b.withNext (fun y => { y with trapInfo := v.setWidth 17 })
    | 0x23 => b.withNext (fun y => { y with trapAddr := (y.trapAddr.extractLsb' 32 24 ++ w).setWidth 56 })
    | 0x24 => b.withNext (fun y => { y with trapAddr := (v.setWidth 24 ++ y.trapAddr.extractLsb' 0 32).setWidth 56 })
    | 0x25 => b.withNext (fun y => { y with trapLevel := if v.toNat % 4 = 3 then 0 else v.setWidth 2 })
    | _ => b.withNext (fun y => { y with scratch := update (fun _ => 0) y.scratch (n - 0x28) v })

/-- MTSR (R144, R187, R188). -/
def execOpMtsr (b : Bnd) (k : Fin 32) (sys : BitVec 8) (s : State) : Host.Outcome State Fault Refusal :=
  s.onDev (fun d => d.op b (fun x bu =>
    let n := sys.toNat
    if !sysWritable n then bu.trap illegalScalar
    else
      let bu := bu.note [nameSys n]
      if !laneOn (x.rP b.pred.val) 0 then bu
      else if 0x20 ≤ n ∧ x.level = .tk then bu.trap (trapOf 0x02 0)
      else bu.sysWrite n (x.rS k.val)))

end Sys2Proof.Machine
end

