-- ==== Sys2Proof/Machine/Branch.lean ====
section
/-! DEFINITION. The BR slot (R153, R166, R168, R189), bundles that cannot be executed (R174, R176) or fetched (R161), and the
resolution of branches (R157). -/

namespace Sys2Proof.Machine

/-- A bundle branches if bit 0 of the operation's predicate is 1. -/
def Bundle.branchTo (bu : Bundle) (b : Bnd) (x : Arch) (t : BitVec 13) (link : Bool) : Bundle :=
  if laneOn (x.rP b.pred.val) 0 then { bu with branch := some t, link := link } else bu

/-- BRA; HINT only sets the prediction (R154). -/
def execOpBra (b : Bnd) (_hint : Bool) (target : BitVec 13) (s : State) : Host.Outcome State Fault Refusal :=
  s.onDev (fun d => d.op b (fun x bu => bu.branchTo b x target false))

/-- CALL. -/
def execOpCall (b : Bnd) (_hint : Bool) (target : BitVec 13) (s : State) : Host.Outcome State Fault Refusal :=
  s.onDev (fun d => d.op b (fun x bu => (bu.note [nameS 31]).branchTo b x target true))

/-- BRI. -/
def execOpBri (b : Bnd) (k : Fin 32) (s : State) : Host.Outcome State Fault Refusal :=
  s.onDev (fun d => d.op b (fun x bu => bu.branchTo b x ((x.rS k.val).setWidth 13) false))

/-- LOOP (R153). -/
def execOpLoop (b : Bnd) (target : BitVec 13) (s : State) : Host.Outcome State Fault Refusal :=
  s.onDev (fun d => d.op b (fun x bu =>
    let p := x.pass + 1
    let bu := (bu.note [nameSys 9]).withNext (fun y => { y with pass := p })
    if p < x.trips then { bu with branch := some target } else bu))

/-- LOOPM (R153). -/
def execOpLoopm (b : Bnd) (target : BitVec 13) (s : State) : Host.Outcome State Fault Refusal :=
  s.onDev (fun d => d.op b (fun x bu =>
    let p := x.pass + 1
    let stages := ({ x with pass := p }).stageOn
    let bu := (bu.note ([nameSys 9, nameSys 10] ++ stageNames)).withNext (fun y =>
      (upFrom 0 4).foldl (fun y j => y.wP (4 + j) (if stages j then BitVec.allOnes 32 else 0))
        { y with pass := p, rot := x.rot + 1 })
    if 0 < x.trips ∧ p.toNat < x.trips.toNat + x.stg.toNat - 1 then { bu with branch := some target } else bu))

/-- TEND (R168). -/
def execOpTend (b : Bnd) (status : BitVec 8) (s : State) : Host.Outcome State Fault Refusal :=
  s.onDev (fun d => d.op b (fun x bu => if laneOn (x.rP b.pred.val) 0 then { bu with tend := some status } else bu))

/-- SYSCALL. -/
def execOpSyscall (b : Bnd) (s : State) : Host.Outcome State Fault Refusal :=
  s.onDev (fun d => d.op b (fun x bu => if laneOn (x.rP b.pred.val) 0 then { bu with syscall := true } else bu))

/-- BREAK. -/
def execOpBreak (b : Bnd) (s : State) : Host.Outcome State Fault Refusal :=
  s.onDev (fun d => d.op b (fun x bu => if laneOn (x.rP b.pred.val) 0 then bu.trap (trapOf 0x0C 0) else bu))

/-- RTE (R136, R166). -/
def execOpRte (b : Bnd) (s : State) : Host.Outcome State Fault Refusal :=
  s.onDev (fun d => d.op b (fun x bu =>
    if x.level = .tk then bu.trap (trapOf 0x02 0)
    else { bu.withNext (fun y => { y with level := levelOf x.trapLevel.toNat }) with branch := some x.trapPc }))

/-- SIGNAL. -/
def execOpSignal (b : Bnd) (s : State) : Host.Outcome State Fault Refusal :=
  s.onDev (fun d => d.op b (fun x bu => if laneOn (x.rP b.pred.val) 0 then { bu with signal := true } else bu))

/-- BRANCH_RESOLVE (R157): bundles are executed here in the order in which they commit, so a resolution only counts the
bundles that a misprediction squashed. -/
def execBranchResolve (c : Fin 104) (mispredicted : Bool) (squashed : Fin 17) (s : State) :
    Host.Outcome State Fault Refusal :=
  s.onDev (fun d => if mispredicted && d.executes c.val then
    d.add (Reg.ERG_CORE_SQUASHED (c.val / 8) (c.val % 8)) squashed.val else d)

/-- FETCH_ERROR: word k of the bundle at PC is uncorrectable or poisoned (R119, R161). -/
def Dev.fetchError (d : Dev) (c k : Nat) : Dev :=
  let x := d.core c
  if d.executes c && x.bundle.isNone then
    let a := c * 0x40000 + 0x30000 + 8 * ((x.arch.pc.toNat + k) % 8192)
    let t (detail : Nat) : Trap := { trapOf 0x03 (d.internal a) with detail := detail }
    match d.readWord (d.coreReq c 0 true) a with
    | (d, .poison) => d.takeTrap c (t 1) x.arch.pc false
    | (d, .uncorrectable) => d.takeTrap c (t 0) x.arch.pc false
    | (d, _) => d
  else d

/-- FETCH_ERROR. -/
def execFetchError (c : Fin 104) (k : Fin 4) (s : State) : Host.Outcome State Fault Refusal :=
  s.onDev (fun d => d.fetchError c.val k.val)

end Sys2Proof.Machine
end

