-- ==== Sys2Proof/Machine/CxParam.lean ====
section
/-! DEFINITION. The words a core's loads and its coprocessor read under the store buffer (R160, R208), and the parameter
block of the coprocessor (R193–R196). -/

namespace Sys2Proof.Machine

/-- The shares of buffered stores that touch the word at an internal address, oldest first. -/
def Core.pendingTo (x : Core) (a : Nat) : List StoreWord := x.buffer.flatten.filter (fun w => w.addr == a)

/-- R160, R185: a word as a store's share leaves it. -/
def StoreWord.apply (w : StoreWord) (old : Word) : Word :=
  if w.whole then w.value else mergeWord old w.value w.byteView w.mask

/-- The shares from the last one that replaces the whole word; all of them where none does. -/
def fromLastWhole : List StoreWord → List StoreWord
  | [] => []
  | w :: ws => if ws.any (·.whole) then fromLastWhole ws else w :: ws

/-- R160, R208: a word of memory as it will stand once the core's buffered stores are accepted. A word that a store replaces is
not read. -/
def Dev.readUnder (d : Dev) (c : Nat) (q : Req) (a : Nat) : Dev × Got :=
  let ws := fromLastWhole ((d.core c).pendingTo a)
  match ws with
  | w :: rest => if w.whole then (d, .data (rest.foldl (fun v s => s.apply v) w.value))
                 else match d.readWord q (a % 2 ^ 53) with
                   | (d, .data v) => (d, .data (ws.foldl (fun v s => s.apply v) v))
                   | r => r
  | [] => d.readWord q (a % 2 ^ 53)

/-- The same without the effects of a read: the stored data bits. -/
def Dev.peekUnder (d : Dev) (c : Nat) (a : Nat) : Word :=
  (fromLastWhole ((d.core c).pendingTo a)).foldl (fun v s => s.apply v) (dataOf (d.raw (a % 2 ^ 53 / 8)))

/-- Is an internal address in core c's own data memory? -/
def Dev.inOwnData (d : Dev) (c a : Nat) : Bool :=
  d.target a == .mem (a % 2 ^ 53) && regionOf (a % 2 ^ 53) == some (.core c false)

/-- R196: may the coprocessor of core c use the word at an internal address? -/
def Dev.cxReach (d : Dev) (c a : Nat) : Bool :=
  decide (a / 2 ^ 54 = d.ownId) && !bitOf a 53 &&
    match regionOf (a % 2 ^ 53) with
    | some (.core k false) => k == c
    | some (.erg e) => e == c / 8
    | some (.mesa _) => true
    | _ => false

/-- R195: the parameter block. -/
structure CxParam where
  aAddr : Nat
  aExp : Int
  bAddr : Nat
  bExp : Int
  cAddr : Nat
  aStride : Nat
  bStride : Nat
  cStride : Nat
  d0 : Nat
  d1 : Nat
  d2 : Nat
  conjA : Bool
  conjB : Bool
  upper : Bool
  shift : Nat
  resAddr : Nat
  reserved : Bool
  deriving DecidableEq, Repr

/-- R195: a parameter block from its six words. `reserved` says that a reserved bit is not zero. -/
def cxParam (ws : List Word) : CxParam :=
  let w (k : Nat) := (ws.getD k 0).toNat
  { aAddr := bitsOf (w 0) 0 56, aExp := signed (bitsOf (w 0) 56 8) 8, bAddr := bitsOf (w 1) 0 56,
    bExp := signed (bitsOf (w 1) 56 8) 8, cAddr := bitsOf (w 2) 0 56, aStride := bitsOf (w 3) 0 16,
    bStride := bitsOf (w 3) 16 16, cStride := bitsOf (w 3) 32 16, d0 := bitsOf (w 4) 0 6, d1 := bitsOf (w 4) 8 6,
    d2 := bitsOf (w 4) 16 6, conjA := bitOf (w 4) 24, conjB := bitOf (w 4) 25, upper := bitOf (w 4) 26,
    shift := bitsOf (w 4) 32 8, resAddr := bitsOf (w 5) 0 56,
    reserved := bitsOf (w 2) 56 8 != 0 || bitsOf (w 3) 48 16 != 0 || bitsOf (w 4) 6 2 != 0 || bitsOf (w 4) 14 2 != 0 ||
      bitsOf (w 4) 22 2 != 0 || bitsOf (w 4) 27 5 != 0 || bitsOf (w 4) 40 24 != 0 || bitsOf (w 5) 56 8 != 0 }

/-- R193: rows and columns of A as stored. -/
def CxParam.aShape (p : CxParam) (fn : Nat) : Nat × Nat :=
  if fn = 1 then (if p.conjA then (p.d2 + 1, p.d0 + 1) else (p.d0 + 1, p.d2 + 1))
  else if fn = 2 then (p.d2 + 1, p.d1 + 1)
  else if fn = 3 then (p.d1 + 1, p.d1 + 1)
  else (p.d0 + 1, p.d0 + 1)

/-- R193: rows and columns of B as stored, (0, 0) where there is none. -/
def CxParam.bShape (p : CxParam) (fn : Nat) : Nat × Nat :=
  if fn = 1 then (if p.conjB then (p.d1 + 1, p.d2 + 1) else (p.d2 + 1, p.d1 + 1))
  else if fn = 4 then (p.d0 + 1, p.d1 + 1)
  else (0, 0)

/-- R193: rows and columns of C. -/
def CxParam.cShape (p : CxParam) (fn : Nat) : Nat × Nat :=
  if fn = 1 then (p.d0 + 1, p.d1 + 1) else if fn = 4 then (p.d0 + 1, p.d1 + 1) else (p.d1 + 1, p.d1 + 1)

/-- R194: the rows of a matrix as (first word's internal address, words). -/
def matrixRows (base stride : Nat) (shape : Nat × Nat) : List (Nat × Nat) :=
  (upFrom 0 shape.1).map (fun r => (base + 8 * (r * stride), (shape.2 + 1) / 2))

/-- The internal addresses of the words of a list of ranges. -/
def rangeWords (rs : List (Nat × Nat)) : List Nat := (rs.map (fun r => (upFrom 0 r.2).map (fun k => r.1 + 8 * k))).flatten

/-- R201, R209: what an operation writes: its rows of C and its result record. -/
def CxParam.writes (p : CxParam) (fn : Nat) : List (Nat × Nat) :=
  matrixRows p.cAddr p.cStride (p.cShape fn) ++ [(p.resAddr, 1)]

/-- R193, R194, R195: are the fields of a parameter block sound for an operation? -/
def CxParam.sound (p : CxParam) (fn : Nat) : Bool :=
  let dims := p.d0 < 32 && p.d1 < 32 && p.d2 < 32
  let autoOnly := p.shift == 0xFF
  let mulShift := p.shift == 0xFF || decide (p.shift < 32)
  let room (t : Nat) (s : Nat × Nat) : Bool := decide ((s.2 + 1) / 2 ≤ t)
  let own :=
    if fn = 1 then !p.upper && mulShift && room p.bStride (p.bShape 1)
    else if fn = 2 then p.d0 == 0 && p.bAddr == 0 && !p.conjA && !p.conjB && !p.upper && mulShift
    else if fn = 3 then p.d0 == 0 && p.d2 == 0 && p.bAddr == 0 && !p.conjA && !p.conjB && !p.upper && autoOnly
    else p.d2 == 0 && !p.conjA && !p.conjB && autoOnly && room p.bStride (p.bShape 4)
  !p.reserved && dims && own && room p.aStride (p.aShape fn) && room p.cStride (p.cShape fn)

/-- R209: what an operation writes, from its parameter block as the core's stores will leave it. -/
def Dev.cxWrites (d : Dev) (c : Nat) (o : CxOp) : List (Nat × Nat) :=
  if o.begun then o.ranges
  else if (upFrom 0 6).all (fun k => d.cxReach c (o.block + 8 * k)) then
    let p := cxParam ((upFrom 0 6).map (fun k => d.peekUnder c (o.block + 8 * k)))
    if p.sound o.fn then p.writes o.fn else [(p.resAddr, 1)]
  else []

/-- R209: do words of a load of core c overlap what an outstanding operation writes? -/
def Dev.cxHolds (d : Dev) (c : Nat) (words : List Nat) : Bool :=
  (d.core c).ops.any (fun o => !o.ended && (d.cxWrites c o).any (fun r =>
    words.any (fun a => decide (r.1 ≤ a) && decide (a < r.1 + 8 * r.2))))

end Sys2Proof.Machine
end

