-- ==== Sys2Proof/Machine/Mac.lean ====
section
/-! DEFINITION. The MAC slot (R181): complex and real multiply-accumulate, extraction, block exponent and accumulator
moves. -/

namespace Sys2Proof.Machine

/-- The real or imaginary part of lane i of the complex product x·y: lane 2j real, lane 2j + 1 imaginary. -/
def prodC (x y : Nat → Int) (i : Nat) : Int :=
  let r := i / 2 * 2
  if i % 2 = 0 then x r * y r - x (r + 1) * y (r + 1) else x r * y (r + 1) + x (r + 1) * y r

/-- The same of x·conj(y). -/
def prodJ (x y : Nat → Int) (i : Nat) : Int :=
  let r := i / 2 * 2
  if i % 2 = 0 then x r * y r + x (r + 1) * y (r + 1) else x (r + 1) * y r - x r * y (r + 1)

/-- Lanes of V[r]. -/
def Arch.lanes (x : Arch) (r : Fin 64) (i : Nat) : Int := laneOf (x.rV r.val) i
/-- S[k].lo and S[k].hi as samples. -/
def Arch.lo (x : Arch) (k : Fin 32) : Int := ((x.rS k.val).extractLsb' 0 18).toInt
def Arch.hi (x : Arch) (k : Fin 32) : Int := ((x.rS k.val).extractLsb' 18 18).toInt
/-- The complex scalar of S[k] in every complex lane. -/
def Arch.cplx (x : Arch) (k : Fin 32) (i : Nat) : Int := if i % 2 = 0 then x.lo k else x.hi k

/-- The lanes an operation works on under its predicate: complex lanes by bit 2j (R139). -/
def Arch.selected (x : Arch) (b : Bnd) (cplx : Bool) (i : Nat) : Bool :=
  if cplx then pairOn (x.rP b.pred.val) i else laneOn (x.rP b.pred.val) i

/-- R142, R143: a multiply-accumulate into ACC[a] of the sums `f`. -/
def Dev.mac (d : Dev) (b : Bnd) (a : Fin 8) (cplx : Bool) (f : Arch → Nat → Int) : Dev :=
  d.op b (fun x bu =>
    let on := (upFrom 0 32).filter (x.selected b cplx)
    let (y, t, o) := on.foldl (fun s i => accumulate (x.sat a.val) a.val i (f x i) s) (bu.next, bu.tovf, bu.sovf)
    { bu.note [nameAcc a.val] with next := y, tovf := t, sovf := o })

/-- R181: a form that sets the lanes of ACC[a]. -/
def Dev.macSet (d : Dev) (b : Bnd) (a : Fin 8) (cplx : Bool) (f : Arch → Nat → Int) : Dev :=
  d.op b (fun x bu =>
    let on := (upFrom 0 32).filter (x.selected b cplx)
    (bu.note [nameAcc a.val]).withNext (fun y => on.foldl (fun y i => y.setLane a.val i (f x i)) y))

/-- CMAC. -/
def execOpCmac (b : Bnd) (a : Fin 8) (x y : Fin 64) (s : State) : Host.Outcome State Fault Refusal :=
  s.onDev (fun d => d.mac b a true (fun r => prodC (r.lanes x) (r.lanes y)))
/-- CMACN. -/
def execOpCmacn (b : Bnd) (a : Fin 8) (x y : Fin 64) (s : State) : Host.Outcome State Fault Refusal :=
  s.onDev (fun d => d.mac b a true (fun r i => -prodC (r.lanes x) (r.lanes y) i))
/-- CMACZ. -/
def execOpCmacz (b : Bnd) (a : Fin 8) (x y : Fin 64) (s : State) : Host.Outcome State Fault Refusal :=
  s.onDev (fun d => d.macSet b a true (fun r => prodC (r.lanes x) (r.lanes y)))
/-- CMACJ. -/
def execOpCmacj (b : Bnd) (a : Fin 8) (x y : Fin 64) (s : State) : Host.Outcome State Fault Refusal :=
  s.onDev (fun d => d.mac b a true (fun r => prodJ (r.lanes x) (r.lanes y)))
/-- CMACJN. -/
def execOpCmacjn (b : Bnd) (a : Fin 8) (x y : Fin 64) (s : State) : Host.Outcome State Fault Refusal :=
  s.onDev (fun d => d.mac b a true (fun r i => -prodJ (r.lanes x) (r.lanes y) i))
/-- CMACJZ. -/
def execOpCmacjz (b : Bnd) (a : Fin 8) (x y : Fin 64) (s : State) : Host.Outcome State Fault Refusal :=
  s.onDev (fun d => d.macSet b a true (fun r => prodJ (r.lanes x) (r.lanes y)))
/-- CMACS. -/
def execOpCmacs (b : Bnd) (a : Fin 8) (x : Fin 64) (k : Fin 32) (s : State) : Host.Outcome State Fault Refusal :=
  s.onDev (fun d => d.mac b a true (fun r => prodC (r.lanes x) (r.cplx k)))
/-- CMACSJ. -/
def execOpCmacsj (b : Bnd) (a : Fin 8) (x : Fin 64) (k : Fin 32) (s : State) : Host.Outcome State Fault Refusal :=
  s.onDev (fun d => d.mac b a true (fun r => prodJ (r.lanes x) (r.cplx k)))

/-- The sum of the two products of a real form. -/
def prodR (x y z w : Nat → Int) (i : Nat) : Int := x i * y i + z i * w i

/-- RMAC. -/
def execOpRmac (b : Bnd) (a : Fin 8) (x y z w : Fin 64) (s : State) : Host.Outcome State Fault Refusal :=
  s.onDev (fun d => d.mac b a false (fun r => prodR (r.lanes x) (r.lanes y) (r.lanes z) (r.lanes w)))
/-- RMACN. -/
def execOpRmacn (b : Bnd) (a : Fin 8) (x y z w : Fin 64) (s : State) : Host.Outcome State Fault Refusal :=
  s.onDev (fun d => d.mac b a false (fun r i => -prodR (r.lanes x) (r.lanes y) (r.lanes z) (r.lanes w) i))
/-- RMACZ. -/
def execOpRmacz (b : Bnd) (a : Fin 8) (x y z w : Fin 64) (s : State) : Host.Outcome State Fault Refusal :=
  s.onDev (fun d => d.macSet b a false (fun r => prodR (r.lanes x) (r.lanes y) (r.lanes z) (r.lanes w)))
/-- RMAC1. -/
def execOpRmac1 (b : Bnd) (a : Fin 8) (x y : Fin 64) (s : State) : Host.Outcome State Fault Refusal :=
  s.onDev (fun d => d.mac b a false (fun r i => r.lanes x i * r.lanes y i))
/-- RMAC1Z. -/
def execOpRmac1z (b : Bnd) (a : Fin 8) (x y : Fin 64) (s : State) : Host.Outcome State Fault Refusal :=
  s.onDev (fun d => d.macSet b a false (fun r i => r.lanes x i * r.lanes y i))
/-- RMACS. -/
def execOpRmacs (b : Bnd) (a : Fin 8) (x z : Fin 64) (k : Fin 32) (s : State) : Host.Outcome State Fault Refusal :=
  s.onDev (fun d => d.mac b a false (fun r => prodR (r.lanes x) (fun _ => r.lo k) (r.lanes z) (fun _ => r.hi k)))
/-- RMACSZ. -/
def execOpRmacsz (b : Bnd) (a : Fin 8) (x z : Fin 64) (k : Fin 32) (s : State) : Host.Outcome State Fault Refusal :=
  s.onDev (fun d => d.macSet b a false (fun r => prodR (r.lanes x) (fun _ => r.lo k) (r.lanes z) (fun _ => r.hi k)))

/-- The lane i ⊕ 1. -/
def pairLane (i : Nat) : Nat := if i % 2 = 0 then i + 1 else i - 1

/-- RMACP. -/
def execOpRmacp (b : Bnd) (a : Fin 8) (x y : Fin 64) (s : State) : Host.Outcome State Fault Refusal :=
  s.onDev (fun d => d.mac b a false (fun r => prodR (r.lanes x) (r.lanes y) (fun i => r.lanes x (pairLane i))
    (fun i => r.lanes y (pairLane i))))

/-- EXT (R145). -/
def execOpExt (b : Bnd) (a : Fin 8) (v : Fin 64) (sh : Shift) (s : State) : Host.Outcome State Fault Refusal :=
  s.onDev (fun d => d.op b (fun x bu =>
    let e (i : Nat) := extraction (x.rAcc a.val i) (x.shift sh)
    (bu.vector x v.val (x.selected b false) (fun i => (e i).1)).xsat (x.selected b false) (fun i => (e i).2)))

/-- BEXPA (R147). -/
def execOpBexpa (b : Bnd) (a : Fin 8) (k : Fin 32) (s : State) : Host.Outcome State Fault Refusal :=
  s.onDev (fun d => d.op b (fun x bu =>
    (bu.note [nameS k.val]).withNext (fun y =>
      y.wS k.val (BitVec.ofNat 36 (blockExponent 48 (x.rP b.pred.val) (x.rAcc a.val))))))

/-- ACCCLR. -/
def execOpAccclr (b : Bnd) (a : Fin 8) (s : State) : Host.Outcome State Fault Refusal :=
  s.onDev (fun d => d.macSet b a false (fun _ _ => 0))

/-- The part of an accumulator lane that PART names: its low bit and width. -/
def accPart (part : Fin 3) : Nat × Nat := (18 * part.val, if part.val = 2 then 12 else 18)

/-- ACCGET. -/
def execOpAccget (b : Bnd) (a : Fin 8) (v : Fin 64) (part : Fin 3) (s : State) : Host.Outcome State Fault Refusal :=
  s.onDev (fun d => d.op b (fun x bu =>
    let (lo, w) := accPart part
    bu.vector x v.val (x.selected b false) (fun i => signed (wrapTo 48 (x.rAcc a.val i) / 2 ^ lo) w)))

/-- ACCPUT. -/
def execOpAccput (b : Bnd) (a : Fin 8) (v : Fin 64) (part : Fin 3) (s : State) : Host.Outcome State Fault Refusal :=
  s.onDev (fun d => d.macSet b a false (fun x i =>
    let (lo, w) := accPart part
    signed (putBits (wrapTo 48 (x.rAcc a.val i)) lo w (wrapTo 18 (x.lanes v i))) 48))

/-- ACCSET; a shift of 31 leaves the lanes unchanged. -/
def execOpAccset (b : Bnd) (a : Fin 8) (v : Fin 64) (sh : Shift) (s : State) : Host.Outcome State Fault Refusal :=
  s.onDev (fun d => d.op b (fun x bu =>
    if x.shift sh = 31 then bu.note [nameAcc a.val]
    else
      let on := (upFrom 0 32).filter (x.selected b false)
      (bu.note [nameAcc a.val]).withNext (fun y =>
        on.foldl (fun y i => y.setLane a.val i (x.lanes v i * (2 ^ x.shift sh : Nat))) y)))

end Sys2Proof.Machine
end

