-- ==== Sys2Proof/Machine/Lsu.lean ====
section
/-! DEFINITION. Loads and stores of the Pemer core (R148–R151, R158–R160, R183–R185), and MFENCE. -/

namespace Sys2Proof.Machine

/-- One value of a register after a load's words: word places with their values. -/
def LoadInto.apply (t : LoadInto) (vals : List (Nat × Word)) (x : Arch) : Arch :=
  let first : Nat := (vals.headD (0, 0)).2.toNat
  match t with
  | .v phys lanes =>
    let old : BitVec 576 := lookup (fun _ => 0) x.v phys
    x.wV phys (ofLanes (fun i =>
      match if laneOn lanes i then vals.find? (fun p => p.1 == i / 4) else none with
      | some p => sampleOf p.2 (i % 4)
      | none => laneOf old i))
  | .sample r k => x.wS r (sext36 18 (first / 2 ^ (18 * k)))
  | .complex r k => x.wS r (BitVec.ofNat 36 (first / 2 ^ (36 * k)))
  | .bytes r lo n sgn =>
    let v := bitsOf first (8 * lo) (8 * n)
    x.wS r (if sgn then sext36 (8 * n) v else BitVec.ofNat 36 v)
  | .addr r lo => x.wA r (BitVec.ofNat 32 (bitsOf first (8 * lo) 32))

/-- The register a load writes (R138). -/
def LoadInto.name (t : LoadInto) : Nat :=
  match t with
  | .v phys _ => nameV phys
  | .sample r _ => nameS r
  | .complex r _ => nameS r
  | .bytes r _ _ _ => nameS r
  | .addr r _ => nameA r

/-- R148–R151: the precise traps of an access whose unit i lies at the address `at i`: a circular range first, then
alignment, and an unmapped address or instruction memory (R90, R150). -/
def Dev.accessTraps (d : Dev) (x : Arch) (m : Addr) (size : Nat) (units : List Nat) : List Trap :=
  if x.circBad m then [trapOf 0x08 (x.rA m.n.val).toNat]
  else
    let a := x.accessAddr d.ownId m size 0
    let bad (i : Nat) : Bool :=
      let w := x.accessAddr d.ownId m size i
      d.target w == .unmapped ||
        match regionOf (w % 2 ^ 53) with
        | some (.core _ true) => !bitOf w 53
        | _ => false
    (if units.any bad then [trapOf 0x05 a] else []) ++ (if a % size != 0 then [trapOf 0x06 a] else [])

/-- R183: the post-modify of an access. -/
def Bundle.postModify (b : Bundle) (x : Arch) (m : Addr) (size : Nat) (doIt : Bool) : Bundle :=
  if m.pm then
    let b := b.note [nameA m.n.val]
    if doIt then b.withNext (fun y => y.wA m.n.val (x.postModified m size)) else b
  else b

/-- The trap of what a load's word brought (R118, R119, R161). -/
def loadTrap (g : Got) (access word : Nat) : Option Trap :=
  match g with
  | .data _ => none
  | .poison => some { trapOf 0x04 word with detail := 1 }
  | .uncorrectable => some (trapOf 0x04 word)
  | .err st => some (if st = stWORLD then trapOf 0x07 access else if st = stCONFIG then trapOf 0x05 access
                     else { trapOf 0x0B access with detail := st })

/-- Words read at once by core c, with the traps they bring; all are in its own data memory or covered by stores (R158,
R160). -/
def Dev.readNow (d : Dev) (c : Nat) (access : Nat) (words : List (Nat × Nat)) : Dev × List (Nat × Word) × List Trap :=
  words.foldl (fun (s : Dev × List (Nat × Word) × List Trap) w =>
    match s.1.readUnder c (s.1.coreReq c 1 true) w.1 with
    | (d, .data v) => (d, s.2.1 ++ [(w.2, v)], s.2.2)
    | (d, g) => (d, s.2.1, s.2.2 ++ (loadTrap g access w.1).toList)) (d, [], [])

/-- R160: does one buffered store, the youngest that touches any of the words, replace them all whole? -/
def Core.covered (x : Core) (words : List Nat) : Bool :=
  match x.buffer.reverse.find? (fun st => st.any (fun w => words.contains w.addr)) with
  | some st => words.all (fun a => st.any (fun w => w.addr == a && w.whole))
  | none => false

/-- A load of core b.core of n words (or of the one word of a narrow access), into a register; `active` says which words it
reads. Own data memory and words covered by one buffered store answer at once; any other load waits for its return. -/
def Dev.loadOp (d : Dev) (b : Bnd) (m : Addr) (size n : Nat) (vec : Bool) (into : Arch → Nat → LoadInto) : Dev :=
  d.opWith b (fun d core bu =>
    let c := b.core.val
    let x := core.arch
    let p := x.rP b.pred.val
    let units := (upFrom 0 n).filter (fun i =>
      if vec then (upFrom 0 4).any (fun k => laneOn p (4 * i + k)) else laneOn p 0)
    let a := x.accessAddr d.ownId m size 0
    let t := into x (a % 8)
    let bu := (bu.note [t.name]).postModify x m size (vec || laneOn p 0)
    let words := units.map (fun i => (x.accessAddr d.ownId m size i / 8 * 8, i))
    let addrs := words.map (·.1)
    if units.isEmpty then some (d, bu)
    else
      let traps := d.accessTraps x m size units
      if !traps.isEmpty then some (d, { bu with traps := bu.traps ++ traps })
      else
        let own := m.g.val == 0 && addrs.all (d.inOwnData c)
        let touched := core.buffer.any (fun st => st.any (fun w => addrs.contains w.addr))
        if core.fence || (own && d.cxHolds c addrs) || (touched && !core.covered addrs) then none
        else if own || touched then
          let (d, vals, traps) := d.readNow c a words
          some (d, if traps.isEmpty then bu.withNext (t.apply vals) else { bu with traps := bu.traps ++ traps })
        else
          let f := d.coreFunc c
          let d := d.each addrs (fun d w =>
            if bitOf w 53 && d.jfe.busMaster.getLsbD f then d.send (.read f (w % 2 ^ 53) 8) else d)
          some (d, { bu with load := some { words := words, into := t, access := a } }))

/-- LDV1. -/
def execOpLdv1 (b : Bnd) (r : Fin 64) (m : Addr) (s : State) : Host.Outcome State Fault Refusal :=
  s.onDev (fun d => d.loadOp b m 8 1 true (fun x _ => .v (x.phys r.val) (x.rP b.pred.val)))
/-- LDV2. -/
def execOpLdv2 (b : Bnd) (r : Fin 64) (m : Addr) (s : State) : Host.Outcome State Fault Refusal :=
  s.onDev (fun d => d.loadOp b m 8 2 true (fun x _ => .v (x.phys r.val) (x.rP b.pred.val)))
/-- LDV4. -/
def execOpLdv4 (b : Bnd) (r : Fin 64) (m : Addr) (s : State) : Host.Outcome State Fault Refusal :=
  s.onDev (fun d => d.loadOp b m 8 4 true (fun x _ => .v (x.phys r.val) (x.rP b.pred.val)))
/-- LDV8. -/
def execOpLdv8 (b : Bnd) (r : Fin 64) (m : Addr) (s : State) : Host.Outcome State Fault Refusal :=
  s.onDev (fun d => d.loadOp b m 8 8 true (fun x _ => .v (x.phys r.val) (x.rP b.pred.val)))
/-- LDS0. -/
def execOpLds0 (b : Bnd) (r : Fin 32) (m : Addr) (s : State) : Host.Outcome State Fault Refusal :=
  s.onDev (fun d => d.loadOp b m 8 1 false (fun _ _ => .sample r.val 0))
/-- LDS1. -/
def execOpLds1 (b : Bnd) (r : Fin 32) (m : Addr) (s : State) : Host.Outcome State Fault Refusal :=
  s.onDev (fun d => d.loadOp b m 8 1 false (fun _ _ => .sample r.val 1))
/-- LDS2. -/
def execOpLds2 (b : Bnd) (r : Fin 32) (m : Addr) (s : State) : Host.Outcome State Fault Refusal :=
  s.onDev (fun d => d.loadOp b m 8 1 false (fun _ _ => .sample r.val 2))
/-- LDS3. -/
def execOpLds3 (b : Bnd) (r : Fin 32) (m : Addr) (s : State) : Host.Outcome State Fault Refusal :=
  s.onDev (fun d => d.loadOp b m 8 1 false (fun _ _ => .sample r.val 3))
/-- LDC0. -/
def execOpLdc0 (b : Bnd) (r : Fin 32) (m : Addr) (s : State) : Host.Outcome State Fault Refusal :=
  s.onDev (fun d => d.loadOp b m 8 1 false (fun _ _ => .complex r.val 0))
/-- LDC1. -/
def execOpLdc1 (b : Bnd) (r : Fin 32) (m : Addr) (s : State) : Host.Outcome State Fault Refusal :=
  s.onDev (fun d => d.loadOp b m 8 1 false (fun _ _ => .complex r.val 1))
/-- LDBU. -/
def execOpLdbu (b : Bnd) (r : Fin 32) (m : Addr) (s : State) : Host.Outcome State Fault Refusal :=
  s.onDev (fun d => d.loadOp b m 1 1 false (fun _ lo => .bytes r.val lo 1 false))
/-- LDBS. -/
def execOpLdbs (b : Bnd) (r : Fin 32) (m : Addr) (s : State) : Host.Outcome State Fault Refusal :=
  s.onDev (fun d => d.loadOp b m 1 1 false (fun _ lo => .bytes r.val lo 1 true))
/-- LDHU. -/
def execOpLdhu (b : Bnd) (r : Fin 32) (m : Addr) (s : State) : Host.Outcome State Fault Refusal :=
  s.onDev (fun d => d.loadOp b m 2 1 false (fun _ lo => .bytes r.val lo 2 false))
/-- LDHS. -/
def execOpLdhs (b : Bnd) (r : Fin 32) (m : Addr) (s : State) : Host.Outcome State Fault Refusal :=
  s.onDev (fun d => d.loadOp b m 2 1 false (fun _ lo => .bytes r.val lo 2 true))
/-- LDQU. -/
def execOpLdqu (b : Bnd) (r : Fin 32) (m : Addr) (s : State) : Host.Outcome State Fault Refusal :=
  s.onDev (fun d => d.loadOp b m 4 1 false (fun _ lo => .bytes r.val lo 4 false))
/-- LDQS. -/
def execOpLdqs (b : Bnd) (r : Fin 32) (m : Addr) (s : State) : Host.Outcome State Fault Refusal :=
  s.onDev (fun d => d.loadOp b m 4 1 false (fun _ lo => .bytes r.val lo 4 true))
/-- LDA. -/
def execOpLda (b : Bnd) (r : Fin 16) (m : Addr) (s : State) : Host.Outcome State Fault Refusal :=
  s.onDev (fun d => d.loadOp b m 4 1 false (fun _ lo => .addr r.val lo))

/-- One word of a load beyond own data memory: what it brings (R90, R91, R118, R159). -/
def Dev.loadOuter (d : Dev) (c a : Nat) (ext : List Ext) : Dev × Got × List Ext :=
  let q := d.coreReq c 1 false
  match d.target a with
  | .unmapped => (d, .err stCONFIG, ext)
  | .mem b => let (d, g) := d.readWord q b; (d, g, ext)
  | .host _ =>
    if d.jfe.busMaster.getLsbD (d.coreFunc c) then
      match ext with
      | .word v :: es => (d, .data (v &&& BitVec.ofNat 72 (2 ^ 64 - 1)), es)
      | _ :: es => (d, .poison, es)
      | [] => (d, .poison, [])
    else (d, .poison, ext)
  | .remote _ _ =>
    if q.world then (d, .err stWORLD, ext)
    else match ext with
      | .word v :: es => (d, .data v, es)
      | .poison :: es => (d, .poison, es)
      | .err st :: es => (d, .err st, es)
      | [] => (d, .err stLINK, [])

/-- LOAD_RETURN: the words of a load beyond own data memory come back (R118, R158, R159). -/
def Dev.loadReturn (d : Dev) (c : Nat) (ext : List Ext) : Dev :=
  match (d.core c).bundle with
  | none => d
  | some bu =>
    match bu.load with
    | none => d
    | some l =>
      let step (s : Dev × List (Nat × Word) × List Trap × List Ext) (w : Nat × Nat) :
          Dev × List (Nat × Word) × List Trap × List Ext :=
        let (d, vals, traps, ext) := s
        match d.loadOuter c w.1 ext with
        | (d, .data v, es) => (d, vals ++ [(w.2, v)], traps, es)
        | (d, g, es) => (d, vals, traps ++ (loadTrap g l.access w.1).toList, es)
      let (d, vals, traps, _) := l.words.foldl step (d, [], [], ext)
      let bu := { bu with load := none }
      let bu := if traps.isEmpty then bu.withNext (l.into.apply vals) else { bu with traps := bu.traps ++ traps }
      (d.onCore c (fun x => { x with bundle := some bu })).tryCommit c

/-- LOAD_RETURN. -/
def execLoadReturn (c : Fin 104) (ext : List Ext) (s : State) : Host.Outcome State Fault Refusal :=
  s.onDev (fun d => d.loadReturn c.val ext)

/-- A store of core b.core of n units: the shares of its words, once its address has passed (R139, R148–R151, R185). -/
def Dev.storeOp (d : Dev) (b : Bnd) (m : Addr) (size n : Nat) (vec : Bool) (share : Arch → Nat → Nat → StoreWord) : Dev :=
  d.opWith b (fun d core bu =>
    let x := core.arch
    let p := x.rP b.pred.val
    let units := (upFrom 0 n).filter (fun i =>
      if vec then (upFrom 0 4).any (fun k => laneOn p (4 * i + k)) else laneOn p 0)
    let bu := bu.postModify x m size (vec || laneOn p 0)
    if units.isEmpty then some (d, bu)
    else
      let traps := d.accessTraps x m size units
      if !traps.isEmpty then some (d, { bu with traps := bu.traps ++ traps })
      else if core.fence then none
      else some (d, { bu with store := units.map (fun i => share x (x.accessAddr d.ownId m size i) i) }))

/-- R139: the share of word i of V[r] under a predicate. -/
def vectorShare (r : Fin 64) (p : Arch → BitVec 32) (x : Arch) (a i : Nat) : StoreWord :=
  let mask := bitsOf (p x).toNat (4 * i) 4
  { addr := a / 8 * 8, value := wordOf (x.rV r.val) i, byteView := false, mask := mask, whole := mask == 15 }

/-- STV1. -/
def execOpStv1 (b : Bnd) (r : Fin 64) (m : Addr) (s : State) : Host.Outcome State Fault Refusal :=
  s.onDev (fun d => d.storeOp b m 8 1 true (vectorShare r (fun x => x.rP b.pred.val)))
/-- STV2. -/
def execOpStv2 (b : Bnd) (r : Fin 64) (m : Addr) (s : State) : Host.Outcome State Fault Refusal :=
  s.onDev (fun d => d.storeOp b m 8 2 true (vectorShare r (fun x => x.rP b.pred.val)))
/-- STV4. -/
def execOpStv4 (b : Bnd) (r : Fin 64) (m : Addr) (s : State) : Host.Outcome State Fault Refusal :=
  s.onDev (fun d => d.storeOp b m 8 4 true (vectorShare r (fun x => x.rP b.pred.val)))
/-- STV8. -/
def execOpStv8 (b : Bnd) (r : Fin 64) (m : Addr) (s : State) : Host.Outcome State Fault Refusal :=
  s.onDev (fun d => d.storeOp b m 8 8 true (vectorShare r (fun x => x.rP b.pred.val)))

/-- The share of samples of S[r]: `n` samples from sample k. -/
def sampleShare (r : Fin 32) (k n : Nat) (x : Arch) (a _i : Nat) : StoreWord :=
  { addr := a / 8 * 8, value := BitVec.ofNat 72 ((x.rS r.val).toNat % 2 ^ (18 * n) * 2 ^ (18 * k)), byteView := false,
    mask := (2 ^ n - 1) * 2 ^ k, whole := false }

/-- STS0. -/
def execOpSts0 (b : Bnd) (r : Fin 32) (m : Addr) (s : State) : Host.Outcome State Fault Refusal :=
  s.onDev (fun d => d.storeOp b m 8 1 false (sampleShare r 0 1))
/-- STS1. -/
def execOpSts1 (b : Bnd) (r : Fin 32) (m : Addr) (s : State) : Host.Outcome State Fault Refusal :=
  s.onDev (fun d => d.storeOp b m 8 1 false (sampleShare r 1 1))
/-- STS2. -/
def execOpSts2 (b : Bnd) (r : Fin 32) (m : Addr) (s : State) : Host.Outcome State Fault Refusal :=
  s.onDev (fun d => d.storeOp b m 8 1 false (sampleShare r 2 1))
/-- STS3. -/
def execOpSts3 (b : Bnd) (r : Fin 32) (m : Addr) (s : State) : Host.Outcome State Fault Refusal :=
  s.onDev (fun d => d.storeOp b m 8 1 false (sampleShare r 3 1))
/-- STC0. -/
def execOpStc0 (b : Bnd) (r : Fin 32) (m : Addr) (s : State) : Host.Outcome State Fault Refusal :=
  s.onDev (fun d => d.storeOp b m 8 1 false (sampleShare r 0 2))
/-- STC1. -/
def execOpStc1 (b : Bnd) (r : Fin 32) (m : Addr) (s : State) : Host.Outcome State Fault Refusal :=
  s.onDev (fun d => d.storeOp b m 8 1 false (sampleShare r 2 2))

/-- The share of n bytes of a value, at the byte address of the access. -/
def byteShare (v : Arch → Nat) (n : Nat) (x : Arch) (a _i : Nat) : StoreWord :=
  { addr := a / 8 * 8, value := BitVec.ofNat 72 (v x % 256 ^ n * 256 ^ (a % 8)), byteView := true,
    mask := (2 ^ n - 1) * 2 ^ (a % 8), whole := false }

/-- STB. -/
def execOpStb (b : Bnd) (r : Fin 32) (m : Addr) (s : State) : Host.Outcome State Fault Refusal :=
  s.onDev (fun d => d.storeOp b m 1 1 false (byteShare (fun x => (x.rS r.val).toNat) 1))
/-- STH. -/
def execOpSth (b : Bnd) (r : Fin 32) (m : Addr) (s : State) : Host.Outcome State Fault Refusal :=
  s.onDev (fun d => d.storeOp b m 2 1 false (byteShare (fun x => (x.rS r.val).toNat) 2))
/-- STQ. -/
def execOpStq (b : Bnd) (r : Fin 32) (m : Addr) (s : State) : Host.Outcome State Fault Refusal :=
  s.onDev (fun d => d.storeOp b m 4 1 false (byteShare (fun x => (x.rS r.val).toNat) 4))
/-- STA. -/
def execOpSta (b : Bnd) (r : Fin 16) (m : Addr) (s : State) : Host.Outcome State Fault Refusal :=
  s.onDev (fun d => d.storeOp b m 4 1 false (byteShare (fun x => (x.rA r.val).toNat) 4))

/-- MFENCE (R160 item 4): it holds younger accesses until every older store has been accepted. -/
def execOpMfence (b : Bnd) (s : State) : Host.Outcome State Fault Refusal :=
  s.onDev (fun d => d.op b (fun _ bu => { bu with fence := true }))

/-- R161: a store's error held as a report; the first part is its status. -/
def Dev.storeErr (d : Dev) (c st a : Nat) : Dev := d.onCore c (fun x => { x with storeErrs := x.storeErrs ++ [(st, a)] })

/-- One word's share of a store reaches its memory, or `ext` answers it from outside. A host word goes out as its eight bytes,
or as the bytes a narrow store touches. -/
def Dev.storeShare (d : Dev) (c : Nat) (w : StoreWord) (ext : Option Ext) : Dev × Ack :=
  let own := d.inOwnData c w.addr
  let q := d.coreReq c 1 own
  match d.target w.addr with
  | .unmapped => (d, some stCONFIG)
  | .mem b => if w.whole then d.writeWord q b w.value else d.writeNarrow q b w.value w.byteView w.mask
  | .host iova =>
    let f := d.coreFunc c
    if d.jfe.busMaster.getLsbD f then
      let m := if w.byteView then w.mask else (upFrom 0 8).foldl (fun a j =>
        if bitsOf (maskBits false w.mask) (8 * j) 8 != 0 then a + 2 ^ j else a) 0
      let js := (upFrom 0 8).filter (bitOf m)
      let lo := js.headD 0
      match ext with
      | some (.err st) => (d, some st)
      | _ => (d.send (.write f (iova + lo) (sliceBytes (leBytes w.value.toNat 8) lo js.length) false), none)
    else (d, some stLINK)
  | .remote _ _ =>
    if q.world then (d, some stWORLD)
    else match ext with
      | some (.err st) => (d, some st)
      | some _ => (d, none)
      | none => (d, some stLINK)

/-- R161: the words of a store are written, or, if one of them is refused, none is: the first refusal's status and address, and
what the refusals themselves leave. -/
def Dev.storeAll (d : Dev) (c : Nat) (st : List StoreWord) (ext : List Ext) : Dev × Option (Nat × Nat) :=
  let parts := st.zipIdx
  let refused := parts.filter (fun p => (d.storeShare c p.1 ext[p.2]?).2.isSome)
  let go (ps : List (StoreWord × Nat)) : Dev := ps.foldl (fun d p => (d.storeShare c p.1 ext[p.2]?).1) d
  match refused with
  | [] => (go parts, none)
  | p :: _ => (go refused, (d.storeShare c p.1 ext[p.2]?).2.map (fun t => (t, p.1.addr)))

/-- The controllers a buffered store goes to; one number for everything beyond this device's memory (R122). -/
def Dev.storeCtrls (d : Dev) (st : List StoreWord) : List Nat :=
  st.map (fun w => match d.target w.addr with
    | .mem b => match regionOf b with
      | some r => r.ctrl
      | none => 997
    | .host _ => 998
    | .remote v _ => 1000 + v
    | .unmapped => 999)

/-- A core tries to go on once a store has left: the fence ends with the last one, and a waiting bundle may commit. -/
def Dev.afterStore (d : Dev) (c : Nat) : Dev :=
  (d.onCore c (fun x => if x.buffer.isEmpty then { x with fence := false } else x)).tryCommit c

/-- STORE_ACCEPTED: buffered store k of core c is accepted if no older store goes to a controller of its own (R160 items 2
and 3); a status other than acceptance is kept for STORE_FAULT, with the first word that met it. -/
def Dev.storeAccepted (d : Dev) (c k : Nat) (ext : List Ext) : Dev :=
  let x := d.core c
  match x.buffer[k]? with
  | none => d
  | some st =>
    let mine := d.storeCtrls st
    if (x.buffer.take k).any (fun o => (d.storeCtrls o).any mine.contains) then d
    else
      let d := d.setCore c { x with buffer := x.buffer.eraseIdx k }
      let (d, bad) := d.storeAll c st ext
      let d := match bad with
        | some (stt, a) => d.storeErr c stt a
        | none => d
      d.afterStore c

/-- STORE_ACCEPTED. -/
def execStoreAccepted (c : Fin 104) (k : Fin 16) (ext : List Ext) (s : State) : Host.Outcome State Fault Refusal :=
  s.onDev (fun d => d.storeAccepted c.val k.val ext)


/-- STORE_FAULT: the oldest store error of core c is reported (R161, R163, R170, R171). -/
def Dev.storeFault (d : Dev) (c : Nat) : Dev :=
  let x := d.core c
  match x.storeErrs with
  | [] => d
  | (st, a) :: rest =>
    let halted := !(d.get (coreState c) == 1 || d.get (coreState c) == 2)
    let t : Trap := { trapOf 0x19 a with detail := st }
    let d := d.setCore c { x with storeErrs := rest, fault := if halted then x.fault else holdTrap x.fault t }
    let d := (d.set (Reg.ERG_CORE_ATTN_STORE_FAULT (c / 8) (c % 8)) 1).coreEvent c 1
    (d.tryCommit c).takeAsyncIdle c

/-- STORE_FAULT. -/
def execStoreFault (c : Fin 104) (s : State) : Host.Outcome State Fault Refusal := s.onDev (fun d => d.storeFault c.val)

end Sys2Proof.Machine
end

