-- ==== Sys2Proof/Machine/PemerCode.lean ====
section
/-! DEFINITION. The encoding of bundles (R172–R177), as far as it tells a legal bundle from an illegal one, and the command
ILLEGAL_BUNDLE. -/

namespace Sys2Proof.Machine

/-- What an operation's row asks beyond its format (R176): nothing; PRED 0; a lane shift count; a PART; no immediate on a
circular access without post-modify; a scalar shift count; LOOPSET; the number of MFSR or MTSR; FN. -/
inductive Extra where
  | none | unpredicated | laneShift | part | circular | shift | loopset | mfsr | mtsr | fn
  deriving DecidableEq, Repr

/-- A row of an opcode map: OPC, the bits of [26:0] that its format does not mark 0, and what else it asks. -/
structure OpRow where
  opc : Nat
  mask : Nat
  extra : Extra
  deriving DecidableEq, Repr

/-- Rows of one format. -/
def rowsOf (opcs : List Nat) (mask : Nat) (e : Extra) : List OpRow := opcs.map (fun o => ⟨o, mask, e⟩)

/-- R181: the MAC map. -/
def macMap : List OpRow :=
  rowsOf [0x01, 0x02, 0x03, 0x04, 0x05, 0x06, 0x13, 0x14, 0x17] 0x7FFF000 .none ++
  rowsOf [0x07, 0x08] 0x7FC001F .none ++ rowsOf [0x10, 0x11, 0x12] 0x7FFFFFF .none ++
  rowsOf [0x15, 0x16] 0x7FFF01F .none ++ rowsOf [0x20, 0x2B] 0x7FFF000 .none ++ rowsOf [0x21] 0x700001F .none ++
  rowsOf [0x28] 0x7000000 .none ++ rowsOf [0x29, 0x2A] 0x7FF0000 .part

/-- R182: the VALU map. -/
def valuMap : List OpRow :=
  rowsOf [0x01, 0x02, 0x03, 0x04, 0x08, 0x09, 0x0A, 0x10, 0x11, 0x12, 0x32] 0x7FFFE00 .none ++
  rowsOf [0x05, 0x06, 0x07, 0x13, 0x20, 0x21, 0x22, 0x30] 0x7FF8000 .none ++
  rowsOf [0x18, 0x19, 0x1A, 0x1B] 0x7FF81FF .laneShift ++ rowsOf [0x28, 0x29, 0x2A] 0x71FFE00 .none ++
  rowsOf [0x31] 0x7FFFFC0 .none ++ rowsOf [0x33] 0x7E001FF .none ++ rowsOf [0x34, 0x35] 0x7E0001F .none ++
  rowsOf [0x36] 0x7E03E1F .none ++ rowsOf [0x37] 0x3FFBE00 .none ++ rowsOf [0x38] 0x3FF8000 .none

/-- R184: the LD map. -/
def ldMap : List OpRow :=
  rowsOf [0x01, 0x02, 0x03, 0x04] 0x7FFFFFF .circular ++
  rowsOf [0x08, 0x09, 0x0A, 0x0B, 0x0C, 0x0D, 0x10, 0x11, 0x12, 0x13, 0x14, 0x15] 0x3FFFFFF .circular ++
  rowsOf [0x18] 0x1FFFFFF .circular

/-- R185: the ST map. -/
def stMap : List OpRow :=
  rowsOf [0x01, 0x02, 0x03, 0x04] 0x7FFFFFF .circular ++
  rowsOf [0x08, 0x09, 0x0A, 0x0B, 0x0C, 0x0D, 0x10, 0x12, 0x14] 0x3FFFFFF .circular ++
  rowsOf [0x18] 0x1FFFFFF .circular ++ rowsOf [0x20] 0 .unpredicated

/-- R186: the SCALAR map. -/
def scalarMap : List OpRow :=
  rowsOf [0x01, 0x02, 0x03, 0x04, 0x05, 0x06, 0x07, 0x08, 0x09, 0x0A, 0x0B] 0x7FFF000 .none ++
  rowsOf [0x10] 0x7FE0FFF .none ++ rowsOf [0x11] 0x7C00FFF .none ++ rowsOf [0x12, 0x13, 0x14] 0x7FE0FFF .shift ++
  rowsOf [0x18, 0x19, 0x1A] 0x73FF000 .none ++ rowsOf [0x1B] 0x73E0FFF .none ++ rowsOf [0x20] 0x7F9F000 .none ++
  rowsOf [0x21] 0x7F80FFF .none ++ rowsOf [0x22] 0x7800FFF .none ++ rowsOf [0x23, 0x24] 0x7FC0000 .none ++
  rowsOf [0x28, 0x29, 0x2A, 0x2B] 0x7FC0000 .none ++ rowsOf [0x2C, 0x2D] 0x77C0000 .none ++
  rowsOf [0x30] 0x7FFEFFF .loopset ++ rowsOf [0x38] 0x7C000FF .mfsr ++ rowsOf [0x39] 0x7C000FF .mtsr

/-- R189: the BR map. -/
def brMap : List OpRow :=
  rowsOf [0x01, 0x02] 0x4001FFF .none ++ rowsOf [0x03] 0x3E0000 .none ++ rowsOf [0x04, 0x05] 0x1FFF .unpredicated ++
  rowsOf [0x08] 0xFF .none ++ rowsOf [0x09, 0x0A, 0x0C] 0 .none ++ rowsOf [0x0B] 0 .unpredicated

/-- R191: the CX map. -/
def cxMap : List OpRow :=
  rowsOf [0x01] 0x7FFFC00 .fn ++ rowsOf [0x02] 0xFF .none ++ rowsOf [0x03] 0x7000000 .none ++ rowsOf [0x04] 0 .none

/-- R176: the map of a slot. -/
def slotMap (slot : Nat) : List OpRow := ([macMap, valuMap, ldMap, stMap, scalarMap, brMap, cxMap].getD slot [])

/-- R187: can MFSR name the register? -/
def sysReadable (n : Nat) : Bool :=
  decide (n ≤ 0x13) || (decide (0x18 ≤ n) && decide (n ≤ 0x1C)) || (decide (0x20 ≤ n) && decide (n ≤ 0x25)) ||
    (decide (0x28 ≤ n) && decide (n ≤ 0x2B))

/-- R175, R176: does an operation syllable keep what its row asks? `ext` is EXT where it takes one. -/
def Extra.kept (e : Extra) (v : Nat) (ext : Option Nat) : Bool :=
  match e with
  | .none => true
  | .unpredicated => bitsOf v 27 3 == 0
  | .laneShift => decide (bitsOf v 0 9 ≤ 17)
  | .part => bitsOf v 16 2 != 3
  | .circular => !bitOf v 14 || bitOf v 11 || (bitsOf v 0 11 == 0 && ext.isNone)
  | .shift => decide (bitsOf v 0 12 ≤ 35)
  | .loopset => decide (1 ≤ bitsOf v 18 8) && decide (bitsOf v 18 8 ≤ 4) && (!bitOf v 26 || bitsOf v 13 5 == 0)
  | .mfsr => sysReadable (bitsOf v 0 8)
  | .mtsr => sysWritable (bitsOf v 0 8)
  | .fn => decide (1 ≤ bitsOf v 10 8) && decide (bitsOf v 10 8 ≤ 4)

/-- R176: is an operation syllable of a slot legal? -/
def opLegal (slot v : Nat) (ext : Option Nat) : Bool :=
  match (slotMap slot).find? (fun r => r.opc == bitsOf v 30 6) with
  | none => false
  | some r => (bitsOf v 0 27 &&& r.mask) == bitsOf v 0 27 && r.extra.kept v ext

/-- R175: may the operation of a slot take EXT? -/
def takesExt (slot v : Nat) : Bool :=
  let o := bitsOf v 30 6
  if slot = 4 then [0x10, 0x11, 0x1B, 0x21, 0x22].contains o || (o == 0x30 && bitOf v 26)
  else if slot = 2 ∨ slot = 3 then decide (1 ≤ o) && decide (o ≤ 0x18) && (!bitOf v 14 || bitOf v 11)
  else slot == 1 && o == 0x33

/-- R138: the registers an operation syllable names as written, V registers by physical number. -/
def destNames (x : Arch) (slot v : Nat) : List Nat :=
  let o := bitsOf v 30 6
  let f (lo w : Nat) : Nat := bitsOf v lo w
  let pm : List Nat := if bitOf v 11 then [nameA (f 17 4)] else []
  match slot with
  | 0 => if o = 0x20 ∨ o = 0x29 then [nameV (x.phys (f 18 6))] else if o = 0x21 then [nameS (f 0 5)] else [nameAcc (f 24 3)]
  | 1 => if o = 0x37 ∨ o = 0x38 then [nameS (f 21 5)] else if o = 0x28 ∨ o = 0x29 ∨ o = 0x2A then [nameP (f 24 3)]
         else [nameV (x.phys (f 21 6))]
  | 2 => (if o ≤ 4 then nameV (x.phys (f 21 6)) else if o = 0x18 then nameA (f 21 4) else nameS (f 21 5)) :: pm
  | 3 => if o = 0x20 then [] else pm
  | 4 =>
    if o < 0x18 ∨ o = 0x38 then [nameS (f 22 5)]
    else if o < 0x20 ∨ (0x28 ≤ o ∧ o ≤ 0x2C) then [nameP (f 24 3)]
    else if o < 0x24 then [nameA (f 23 4)]
    else if o = 0x24 ∨ o = 0x2D then [nameS (f 18 5)]
    else if o = 0x30 then [nameSys 8, nameSys 9, nameSys 11] ++ stageNames
    else [nameSys (f 0 8)]
  | 5 => if o = 2 then [nameS 31] else if o = 4 then [nameSys 9] else if o = 5 then [nameSys 9, nameSys 10] ++ stageNames
         else []
  | _ => if o = 3 then [nameP (f 24 3)] else []

/-- R172: syllable i of a bundle's words. -/
def syllable (ws : List Word) (i : Nat) : Nat := bitsOf (ws.getD (i / 2) 0).toNat (36 * (i % 2)) 36

/-- R172: the slots a header fills, ascending. -/
def slotsOf (h : Nat) : List Nat := (upFrom 0 7).filter (fun s => bitOf h s)

/-- R138, R174–R176: DETAIL and BUNDLE_FAULT of an illegal bundle. -/
def bundleFault (x : Arch) (ws : List Word) : Option (Nat × Nat) :=
  let h := syllable ws 0
  let slots := slotsOf h
  let n := slots.length
  let ops := slots.zipIdx.map (fun p => (p.1, syllable ws (p.2 + 1)))
  let es := bitsOf h 9 3
  let ext := bitsOf h 12 22
  if bitsOf h 34 2 != 2 || bitsOf h 7 2 != n / 2 || (n % 2 == 0 && syllable ws (n + 1) != 0) then some (7, 2)
  else if es = 7 ∧ ext ≠ 0 then some (7, 3)
  else if es ≠ 7 ∧ !(ops.any (fun p => p.1 == es && takesExt es p.2 && (es != 1 || decide (ext < 512)))) then some (7, 3)
  else match ops.find? (fun p => !opLegal p.1 p.2 (if p.1 = es then some ext else none)) with
    | some p => some (p.1, 0)
    | none => if hasRepeat (ops.map (fun p => destNames x p.1 p.2)).flatten then some (7, 1) else none

/-- The four words of instruction memory from PC, as the core's fetch reads them, if none is lost (R150, R172). -/
def Dev.fetchBundle (d : Dev) (c : Nat) (pc : BitVec 13) : Dev × Option (List Word) :=
  (upFrom 0 4).foldl (fun (s : Dev × Option (List Word)) k =>
    match s.2 with
    | none => s
    | some ws =>
      let len := bitsOf (ws.getD 0 0).toNat 7 2
      if k ≠ 0 ∧ len < k then s
      else match s.1.readWord (s.1.coreReq c 0 true) (c * 0x40000 + 0x30000 + 8 * ((pc.toNat + k) % 8192)) with
        | (d, .data v) => (d, some (ws ++ [v]))
        | (d, _) => (d, none)) (d, some [])

/-- ILLEGAL_BUNDLE: the bundle at PC traps if it is illegal (R161, R174, R176). -/
def Dev.illegalBundle (d : Dev) (c : Nat) : Dev :=
  let x := d.core c
  if d.executes c && x.bundle.isNone then
    match d.fetchBundle c x.arch.pc with
    | (d, some ws) =>
      match bundleFault x.arch ws with
      | some (detail, bf) => d.takeTrap c { trapOf 0x01 0 with detail := detail, bundleFault := bf } x.arch.pc false
      | none => d
    | (d, none) => d
  else d

/-- ILLEGAL_BUNDLE. -/
def execIllegalBundle (c : Fin 104) (s : State) : Host.Outcome State Fault Refusal :=
  s.onDev (fun d => d.illegalBundle c.val)

end Sys2Proof.Machine
end

