-- ==== Sys2Proof/Machine/Mx.lean ====
section
/-! DEFINITION. Complex matrices of the coprocessor and the matrix engines: their layout (R194), exact products with one
shift (R198, R243), and factors and solves (R199, R238, R245). The reference model that fixes the last bits of factors and
solves is not in the manual: a result is the exact one, rounded, plus a free deviation within the bound of R245, and wholly
free where the manual gives no bound. -/

namespace Sys2Proof.Machine

/-- A complex number of integers. -/
structure Cx where
  re : Int
  im : Int
  deriving DecidableEq, Repr

/-- Zero. -/
def Cx.zero : Cx := ⟨0, 0⟩
/-- A product. -/
def Cx.mul (x y : Cx) : Cx := ⟨x.re * y.re - x.im * y.im, x.re * y.im + x.im * y.re⟩
/-- A sum. -/
def Cx.add (x y : Cx) : Cx := ⟨x.re + y.re, x.im + y.im⟩
/-- The conjugate. -/
def Cx.conj (x : Cx) : Cx := ⟨x.re, -x.im⟩

/-- A matrix: its rows. -/
abbrev Mat := List (List Cx)

/-- R84: complex sample j of a word. -/
def complexOf (v : Word) (j : Nat) : Cx := ⟨sampleOf v (2 * j), sampleOf v (2 * j + 1)⟩

/-- R194: a row of n complex samples from its words. -/
def rowOfWords (ws : List Word) (n : Nat) : List Cx := ((ws.map (fun v => [complexOf v 0, complexOf v 1])).flatten).take n

/-- R194: the words of a row; the unused half of an odd row's last word is zero. -/
def wordsOfRow : List Cx → List Word
  | [] => []
  | [x] => [wordOfSamples [x.re, x.im]]
  | x :: y :: r => wordOfSamples [x.re, x.im, y.re, y.im] :: wordsOfRow r

/-- The conjugate transpose of a matrix of n columns. -/
def hermitian (m : Mat) (n : Nat) : Mat := (upFrom 0 n).map (fun c => m.map (fun r => (r.getD c Cx.zero).conj))

/-- The exact product of a matrix and one of n columns. -/
def matMul (a b : Mat) (n : Nat) : Mat :=
  let cols := (upFrom 0 n).map (fun c => b.map (fun r => r.getD c Cx.zero))
  a.map (fun r => cols.map (fun col => (r.zipWith Cx.mul col).foldl Cx.add Cx.zero))

/-- R147: the smallest headroom over the accumulator lanes of a matrix. -/
def matHeadroom (m : Mat) : Nat := minD 47 (m.flatten.map (fun x => min (headroom 48 x.re) (headroom 48 x.im)))

/-- R198, R243: the shift of a result: automatic for 0xFF. -/
def pickShift (shift : Nat) (m : Mat) : Nat := if shift = 0xFF then 30 - matHeadroom m else shift

/-- R145: every element extracted with one shift, and whether a limit changed one. -/
def extractMat (m : Mat) (s : Nat) : Mat × Bool :=
  (m.map (fun r => r.map (fun x => ⟨(extraction x.re s).1, (extraction x.im s).1⟩)),
   m.any (fun r => r.any (fun x => (extraction x.re s).2 || (extraction x.im s).2)))

/-- R195, R246: is a block exponent one that eight bits can hold? -/
def expFits (e : Int) : Bool := decide (-128 ≤ e) && decide (e ≤ 127)

/-- A power of two. -/
def pow2 (e : Int) : Rat := if 0 ≤ e then ((2 ^ e.toNat : Nat) : Rat) else 1 / ((2 ^ (-e).toNat : Nat) : Rat)

/-- A complex number of rationals. -/
structure Crat where
  re : Rat
  im : Rat
  deriving DecidableEq, Repr

/-- Zero and one. -/
def Crat.zero : Crat := ⟨0, 0⟩
def Crat.one : Crat := ⟨1, 0⟩
/-- A difference. -/
def Crat.sub (x y : Crat) : Crat := ⟨x.re - y.re, x.im - y.im⟩
/-- A product. -/
def Crat.mul (x y : Crat) : Crat := ⟨x.re * y.re - x.im * y.im, x.re * y.im + x.im * y.re⟩
/-- The conjugate. -/
def Crat.conj (x : Crat) : Crat := ⟨x.re, -x.im⟩
/-- The squared magnitude. -/
def Crat.sq (x : Crat) : Rat := x.re * x.re + x.im * x.im
/-- A quotient. -/
def Crat.div (x y : Crat) : Crat := let p := x.mul y.conj; ⟨p.re / y.sq, p.im / y.sq⟩
/-- A quotient by a real number. -/
def Crat.over (x : Crat) (r : Rat) : Crat := ⟨x.re / r, x.im / r⟩

/-- R195: the value of a mantissa at a block exponent. -/
def Cx.value (x : Cx) (e : Int) : Crat := ⟨x.re * pow2 (e - 17), x.im * pow2 (e - 17)⟩

/-- The lower triangle of a Hermitian matrix, its diagonal real (R199, R245). -/
def lowerHermitian (m : Mat) (e : Int) : List (List Crat) :=
  m.zipIdx.map (fun r => (r.1.take (r.2 + 1)).zipIdx.map (fun x =>
    let v := x.1.value e
    if x.2 = r.2 then ⟨v.re, 0⟩ else v))

/-- The exact elimination of a Hermitian matrix: each column's pivot with what stands below it. It ends at a pivot of zero. -/
def eliminate : Nat → List (List Crat) → List (Rat × List Crat)
  | 0, _ => []
  | _, [] => []
  | n + 1, r :: rs =>
    let d := (r.headD Crat.zero).re
    let vs := rs.map (fun x => x.headD Crat.zero)
    if d = 0 then [(d, vs)]
    else
      (d, vs) :: eliminate n (rs.zipIdx.map (fun x => (x.1.drop 1).zipIdx.map (fun y =>
        y.1.sub (((vs.getD x.2 Crat.zero).mul (vs.getD y.2 Crat.zero).conj).over d))))

/-- An element num / √under of an exact result; `fixed` marks one that is zero by the form of the result, real or imaginary
part apart. -/
structure Surd where
  num : Crat
  under : Rat
  fixedRe : Bool
  fixedIm : Bool
  deriving DecidableEq, Repr

/-- An element with no root. -/
def Crat.plain (x : Crat) : Surd := ⟨x, 1, false, false⟩
/-- A zero by form. -/
def Surd.zero : Surd := ⟨Crat.zero, 1, true, true⟩

/-- The least integer whose square is at least a natural number. -/
def sqrtUp (z : Nat) : Nat := let s := Nat.sqrt z; if s * s = z then s else s + 1

/-- floor(t / √b + 1/2) for b > 0. -/
def roundSurd (t b : Rat) : Int :=
  if b = 1 then (t + 1 / 2).floor
  else
    let r := 4 * t * t / b
    if 0 ≤ t then (((Nat.sqrt r.floor.toNat : Nat) : Int) + 1) / 2
    else -(((sqrtUp r.ceil.toNat : Nat) : Int) / 2)

/-- The mantissas of an element at a block exponent, rounded half up. -/
def Surd.at (x : Surd) (e : Int) : Cx :=
  ⟨roundSurd (x.num.re * pow2 (17 - e)) x.under, roundSurd (x.num.im * pow2 (17 - e)) x.under⟩

/-- The least of `n` exponents from `e` at which every mantissa lies within the limits of a sample widened by `slack`. -/
def leastExp (els : List Surd) (slack e : Int) : Nat → Option Int
  | 0 => none
  | n + 1 =>
    let ok (v : Int) : Bool := decide (-131072 - slack ≤ v) && decide (v ≤ 131071 + slack)
    if els.all (fun x => let y := x.at e; ok y.re && ok y.im) then some e else leastExp els slack (e + 1) n

/-- The outcome of a factorisation or solve: a failed pivot's column, no exponent that serves, or mantissas with their
exponent. -/
inductive Solved where
  | failed (col : Nat)
  | noExp
  | ok (c : Mat) (e : Int)
  deriving DecidableEq, Repr

/-- What the open arithmetic of R245 depends on: the kind of operation and its operands. -/
def solveKey (kind : List Nat) (ops : List Mat) (exps : List Int) : List Nat :=
  kind ++ exps.map (wrapTo 8) ++ (ops.map (fun m => (m.flatten.map (fun x => [wrapTo 18 x.re, wrapTo 18 x.im])).flatten)).flatten

/-- R245: an exact result as the engine writes it: within `tol` of it at an exponent the rule allows. -/
def Solved.near (key : List Nat) (tol : Nat) (x : List (List Surd)) : Solved :=
  let els := x.flatten
  if els.all (fun s => s.num == Crat.zero) then .ok (x.map (fun r => r.map (fun _ => Cx.zero))) 0
  else
    match leastExp els tol (-128) 256 with
    | none => .noExp
    | some lo =>
      let hi := leastExp els (-(tol : Int)) (-128) 256
      let span := ((hi.getD 128) - lo).toNat + 1
      let e := lo + (Config.freeFun 1 key % span : Nat)
      if 127 < e then .noExp
      else
        let dev (r c p : Nat) : Int := ((Config.freeFun 2 (key ++ [r, c, p]) % (2 * tol + 1) : Nat) : Int) - (tol : Int)
        .ok (x.zipIdx.map (fun r => r.1.zipIdx.map (fun y =>
          let q := y.1.at e
          ⟨if y.1.fixedRe then q.re else satTo 18 (q.re + dev r.2 y.2 0),
           if y.1.fixedIm then q.im else satTo 18 (q.im + dev r.2 y.2 1)⟩))) e

/-- R245: a result to which the manual gives no bound: free mantissas and exponent, or no exponent, but the zeros of its form
stand. -/
def Solved.open_ (key : List Nat) (x : List (List (Bool × Bool))) : Solved :=
  let k := Config.freeFun 3 key % 257
  if k = 256 then .noExp
  else
    let v (r c p : Nat) : Int := signed (Config.freeFun 4 (key ++ [r, c, p])) 18
    .ok (x.zipIdx.map (fun r => r.1.zipIdx.map (fun y =>
      ⟨if y.1.1 then 0 else v r.2 y.2 0, if y.1.2 then 0 else v r.2 y.2 1⟩))) ((k : Int) - 128)

/-- The zeros by form of an exact result. -/
def formOf (x : List (List Surd)) : List (List (Bool × Bool)) := x.map (fun r => r.map (fun s => (s.fixedRe, s.fixedIm)))

/-- R245: the first column whose pivot fails the test: the pivot of column 0 is an element of the input and exact; where an
exact pivot lies below Dmax × 2^−10, whether that column or a later one fails is open. `fails` is the test, `small` the
bound below which the manual says nothing. -/
def pivotVerdict (key : List Nat) (n : Nat) (pivots : List Rat) (fails small : Rat → Bool) : Option Nat × Bool :=
  match pivots with
  | [] => (none, false)
  | p :: _ =>
    if fails p then (some 0, false)
    else match (pivots.zipIdx).find? (fun x => small x.1) with
      | none => (none, false)
      | some x =>
        let from_ := max 1 x.2
        let k := from_ + Config.freeFun 5 key % (n - from_ + 1)
        if k < n then (some k, true) else (none, true)

/-- The largest of a list of rationals, at least 0. -/
def maxRat : List Rat → Rat
  | [] => 0
  | x :: xs => max x (maxRat xs)

/-- Dmax of a Hermitian matrix (R245). -/
def diagMax (rows : List (List Crat)) : Rat := maxRat (rows.map (fun r => |(r.getLastD Crat.zero).re|))

/-- R238: the factor of a Hermitian matrix of n rows: Cholesky, or the unit lower factor with D on the diagonal. -/
def factorResult (ldl : Bool) (n : Nat) (cols : List (Rat × List Crat)) : List (List Surd) :=
  (upFrom 0 n).map (fun i => (upFrom 0 n).map (fun j =>
    match cols[j]? with
    | none => Surd.zero
    | some (d, vs) =>
      if i < j then Surd.zero
      else if i = j then ⟨⟨d, 0⟩, if ldl then 1 else d, false, true⟩
      else
        let v := vs.getD (i - j - 1) Crat.zero
        if ldl then (v.over d).plain else ⟨v, d, false, false⟩))

/-- The zeros by form of a factor. -/
def factorForm (n : Nat) : List (List (Bool × Bool)) :=
  (upFrom 0 n).map (fun i => (upFrom 0 n).map (fun j => (decide (i < j), decide (i ≤ j))))

/-- R245: the tests of a factorisation: Cholesky asks for a positive pivot, LDL for its magnitude. -/
def factorTests (ldl : Bool) (dmax : Rat) : (Rat → Bool) × (Rat → Bool) :=
  let mag (p : Rat) : Rat := if ldl then |p| else p
  ((fun p => decide (mag p ≤ 0) || decide (mag p < dmax * pow2 (-24))), (fun p => decide (mag p < dmax * pow2 (-10))))

/-- R199, R245: MX_CHOL of a Hermitian matrix of n rows. -/
def solveChol (ldl : Bool) (a : Mat) (n : Nat) (aExp : Int) : Solved :=
  let key := solveKey [0x13, b2n ldl, n] [a] [aExp]
  let rows := lowerHermitian a aExp
  let cols := eliminate n rows
  let (fails, small) := factorTests ldl (diagMax rows)
  match pivotVerdict key n (cols.map (·.1)) fails small with
  | (some k, _) => .failed k
  | (none, true) => Solved.open_ key (factorForm n)
  | (none, false) => Solved.near key 4 (factorResult ldl n cols)

/-- Forward substitution: row by row, X with L·X = B; `diag` is what the rows are divided by. -/
def forwardSolve (l : List (List Crat)) (diag : List Crat) (b : List (List Crat)) : List (List Crat) :=
  (b.zipIdx).foldl (fun xs r =>
    let li := l.getD r.2 []
    let row := r.1.zipIdx.map (fun y =>
      ((xs.zipIdx.foldl (fun acc x => acc.sub ((li.getD x.2 Crat.zero).mul (x.1.getD y.2 Crat.zero))) y.1).div
        (diag.getD r.2 Crat.one)))
    xs ++ [row]) []

/-- Backward substitution: X with L^H·X = B. -/
def backwardSolve (l : List (List Crat)) (diag : List Crat) (b : List (List Crat)) (n : Nat) : List (List Crat) :=
  (b.zipIdx.reverse).foldl (fun xs r =>
    let row := r.1.zipIdx.map (fun y =>
      ((xs.zipIdx.foldl (fun acc x =>
        acc.sub (((l.getD (r.2 + 1 + x.2) []).getD r.2 Crat.zero).conj.mul (x.1.getD y.2 Crat.zero))) y.1).div
        (diag.getD r.2 Crat.one).conj))
    row :: xs) ([] : List (List Crat)) |>.take n

/-- A matrix of values at an exponent. -/
def valuesOf (m : Mat) (e : Int) : List (List Crat) := m.map (fun r => r.map (fun x => x.value e))

/-- R199, R238, R245: MX_TRSM of a factor of n rows against a right-hand side already in the form op(B). -/
def solveTrsm (ldl upper : Bool) (a b : Mat) (n : Nat) (aExp bExp : Int) : Solved :=
  let key := solveKey [0x14, b2n ldl, b2n upper, n] [a, b] [aExp, bExp]
  let l := valuesOf a aExp
  let rhs := valuesOf b bExp
  let raw := l.zipIdx.map (fun r => r.1.getD r.2 Crat.zero)
  let diag := if ldl then (if upper then raw.map (fun _ => Crat.one) else raw.map (fun x => ⟨x.re, 0⟩)) else raw
  let sq := diag.map Crat.sq
  let dmax := maxRat sq
  match sq.zipIdx.find? (fun x => decide (x.1 = 0) || decide (x.1 < dmax * pow2 (-48))) with
  | some x => .failed x.2
  | none =>
    let ones := raw.map (fun _ => Crat.one)
    let x :=
      if upper then backwardSolve l diag rhs n
      else if ldl then (forwardSolve l ones rhs).zipIdx.map (fun r => r.1.map (fun y => y.div (diag.getD r.2 Crat.one)))
      else forwardSolve l diag rhs
    let s := x.map (fun r => r.map Crat.plain)
    if sq.any (fun v => decide (v < dmax * pow2 (-20))) then Solved.open_ key (formOf s) else Solved.near key 4 s

/-- R238, R245: MX_POSV of a Hermitian matrix of n rows and a right-hand side in the form op(B). -/
def solvePosv (ldl : Bool) (a b : Mat) (n : Nat) (aExp bExp : Int) : Solved :=
  let key := solveKey [0x15, b2n ldl, n] [a, b] [aExp, bExp]
  let rows := lowerHermitian a aExp
  let cols := eliminate n rows
  let (fails, small) := factorTests ldl (diagMax rows)
  let open_ := b.map (fun r => r.map (fun _ => (false, false)))
  match pivotVerdict key n (cols.map (·.1)) fails small with
  | (some k, _) => .failed k
  | (none, true) => Solved.open_ key open_
  | (none, false) =>
    let l := (upFrom 0 n).map (fun i => (upFrom 0 i).map (fun j =>
      match cols[j]? with
      | some (d, vs) => (vs.getD (i - j - 1) Crat.zero).over d
      | none => Crat.zero))
    let ones := (upFrom 0 n).map (fun _ => Crat.one)
    let y := (forwardSolve l ones (valuesOf b bExp)).zipIdx.map (fun r =>
      r.1.map (fun v => v.over ((cols.getD r.2 (1, [])).1)))
    Solved.near key 8 ((backwardSolve l ones y n).map (fun r => r.map Crat.plain))

end Sys2Proof.Machine
end

