-- ==== Sys2Proof/Machine/Coproc.lean ====
section
/-! DEFINITION. The matrix coprocessor (R192–R215): issue, wait and lock operations of the CX slot, and the beginning, late
errors and end of its operations. -/

namespace Sys2Proof.Machine

/-- The CX registers of core c. -/
def cxLate (c : Nat) : Fld := Reg.ERG_CX_LATE (c / 8) (c % 8)

/-- CXISSUE of an operation under a tag, its parameter block at (SEG[g] << 32) | A[n]. It waits for its tag's SB bit, then
sets it (R201, R203); its checks come at commit (R207). -/
def Dev.cxIssue (d : Dev) (b : Bnd) (fn : Nat) (tag : Fin 8) (n : Fin 16) (g : Fin 4) : Dev :=
  d.opWith b (fun d core bu =>
    if !laneOn (core.arch.rP b.pred.val) 0 then some (d, bu)
    else if core.sb.getLsbD tag.val then none
    else
      let block := core.arch.rSeg d.ownId g.val * 2 ^ 32 + (core.arch.rA n.val).toNat
      let o : CxOp := { tag := tag.val, fn := fn, block := block, begun := false, ranges := [], staged := [],
                        poisoned := false, record := none, err := none, reported := false, ended := false }
      some (d.onCore b.core.val (fun x => { x with sb := x.sb ||| BitVec.ofNat 8 (2 ^ tag.val) }), { bu with cx := some o }))

/-- CMM. -/
def execOpCmm (b : Bnd) (tag : Fin 8) (n : Fin 16) (g : Fin 4) (s : State) : Host.Outcome State Fault Refusal :=
  s.onDev (fun d => d.cxIssue b 1 tag n g)
/-- GRAM. -/
def execOpGram (b : Bnd) (tag : Fin 8) (n : Fin 16) (g : Fin 4) (s : State) : Host.Outcome State Fault Refusal :=
  s.onDev (fun d => d.cxIssue b 2 tag n g)
/-- CHOL. -/
def execOpChol (b : Bnd) (tag : Fin 8) (n : Fin 16) (g : Fin 4) (s : State) : Host.Outcome State Fault Refusal :=
  s.onDev (fun d => d.cxIssue b 3 tag n g)
/-- TRSM. -/
def execOpTrsm (b : Bnd) (tag : Fin 8) (n : Fin 16) (g : Fin 4) (s : State) : Host.Outcome State Fault Refusal :=
  s.onDev (fun d => d.cxIssue b 4 tag n g)

/-- CXWAIT (R191). -/
def execOpCxwait (b : Bnd) (mask : BitVec 8) (s : State) : Host.Outcome State Fault Refusal :=
  s.onDev (fun d => d.opWith b (fun d core bu =>
    if laneOn (core.arch.rP b.pred.val) 0 && core.sb &&& mask != 0 then none else some (d, bu)))

/-- R136, R191: is the coprocessor enabled at the level of core c? -/
def Dev.cxEnabled (d : Dev) (c : Nat) (l : Level) : Bool :=
  let k := match l with
    | .ss => 0
    | .ns => 1
    | .tk => 2
  bitOf (d.get (Reg.ERG_CORE_CFG_CX_EN (c / 8) (c % 8))) k

/-- CXLOCK (R211). -/
def execOpCxlock (b : Bnd) (p : Fin 8) (s : State) : Host.Outcome State Fault Refusal :=
  s.onDev (fun d => d.opWith b (fun d core bu =>
    let bu := bu.note [nameP p.val]
    if !laneOn (core.arch.rP b.pred.val) 0 then some (d, bu)
    else
      let got := core.lock || d.cxEnabled b.core.val core.arch.level
      let bu := bu.withNext (fun y => y.wP p.val (if got then BitVec.allOnes 32 else 0))
      some (d, if got then { bu with lock := some true } else bu)))

/-- CXUNLOCK (R191, R211). -/
def execOpCxunlock (b : Bnd) (s : State) : Host.Outcome State Fault Refusal :=
  s.onDev (fun d => d.op b (fun x bu => if laneOn (x.rP b.pred.val) 0 then { bu with lock := some false } else bu))

/-- Words read by an operation, with the first word refused for its world, found uncorrectable and found poisoned. A word
refused for another reason counts as poisoned. -/
structure CxRead where
  dev : Dev
  words : List Word
  world : Option Nat
  uncorr : Option Nat
  poison : Option Nat
  deriving DecidableEq, Repr

/-- The first of two possible places. -/
def firstOf (a : Option Nat) (b : Nat) : Option Nat :=
  match a with
  | some x => some x
  | none => some b

/-- One word read (R119, R208); a lost word is used with its stored bits. -/
def CxRead.word (r : CxRead) (c a : Nat) : CxRead :=
  let old := r.dev.peekUnder c a
  let (d, g) := r.dev.readUnder c (r.dev.coreReq c 2 (r.dev.inOwnData c a)) a
  match g with
  | .data v => { r with dev := d, words := r.words ++ [v] }
  | .uncorrectable => { r with dev := d, words := r.words ++ [old], uncorr := firstOf r.uncorr a }
  | .poison => { r with dev := d, words := r.words ++ [old], poison := firstOf r.poison a }
  | .err st =>
    if st = stWORLD then { r with dev := d, words := r.words ++ [0], world := firstOf r.world a }
    else { r with dev := d, words := r.words ++ [0], poison := firstOf r.poison a }

/-- Words read in order. -/
def CxRead.all (r : CxRead) (c : Nat) (as : List Nat) : CxRead := as.foldl (fun r a => r.word c a) r

/-- A matrix from the words read of it. -/
def matOfWords (ws : List Word) (shape : Nat × Nat) : Mat :=
  let w := (shape.2 + 1) / 2
  (upFrom 0 shape.1).map (fun r => rowOfWords ((ws.drop (r * w)).take w) shape.2)

/-- What an operation's arithmetic gives: C if it is written, its exponent, the shift, the code of R205 and the failed
column. -/
structure CxResult where
  c : Option Mat
  exp : Int
  shift : Nat
  code : Nat
  col : Nat
  deriving DecidableEq, Repr

/-- R198: the outcome of CMM and GRAM from the exact product. -/
def cxScaled (p : CxParam) (exps : Int) (m : Mat) : CxResult :=
  let s := pickShift p.shift m
  let e := exps + s - 17
  let (c, lim) := extractMat m s
  if !expFits e then { c := none, exp := 0, shift := s, code := 3, col := 0 }
  else { c := some c, exp := e, shift := s, code := if lim && p.shift != 0xFF then 3 else 0, col := 0 }

/-- R199: the outcome of CHOL and TRSM. -/
def cxSolved (r : Solved) : CxResult :=
  match r with
  | .failed k => { c := none, exp := 0, shift := 0, code := 2, col := k }
  | .noExp => { c := none, exp := 0, shift := 0, code := 3, col := 0 }
  | .ok c e => { c := some c, exp := e, shift := 0, code := 0, col := 0 }

/-- R193, R198, R199: an operation on its matrices. -/
def cxCompute (fn : Nat) (p : CxParam) (a b : Mat) : CxResult :=
  if fn = 1 then
    let x := if p.conjA then hermitian a (p.d0 + 1) else a
    let y := if p.conjB then hermitian b (p.d2 + 1) else b
    cxScaled p (p.aExp + p.bExp) (matMul x y (p.d1 + 1))
  else if fn = 2 then cxScaled p (2 * p.aExp) (matMul (hermitian a (p.d1 + 1)) a (p.d1 + 1))
  else if fn = 3 then cxSolved (solveChol false a (p.d1 + 1) p.aExp)
  else cxSolved (solveTrsm false p.upper a b (p.d0 + 1) p.aExp p.bExp)

/-- R200: a result record. -/
def cxRecord (o : CxOp) (code : Nat) (exp : Int) (shift col : Nat) : Word :=
  BitVec.ofNat 72 (code + wrapTo 8 exp * 2 ^ 8 + shift % 32 * 2 ^ 16 + o.fn * 2 ^ 24 + o.tag * 2 ^ 32 + col % 64 * 2 ^ 40)

/-- R214: the most compute steps of an operation. -/
def cxSteps (fn : Nat) (p : CxParam) : Nat :=
  let n := p.d1 + 1
  let up16 (k : Nat) : Nat := (k + 15) / 16
  if fn = 1 then (p.d0 + 1) * (p.d2 + 1) * up16 n
  else if fn = 2 then n * (p.d2 + 1) * up16 n
  else if fn = 3 then 20 * n + up16 n * n * (n + 1) / 2
  else let m := p.d0 + 1; 20 * m + up16 n * m * (m + 1) / 2

/-- Do ranges of words overlap? -/
def rangesMeet (xs ys : List (Nat × Nat)) : Bool :=
  xs.any (fun x => ys.any (fun y => decide (x.1 < y.1 + 8 * y.2) && decide (y.1 < x.1 + 8 * x.2)))

/-- R208: must the operation wait for a buffered store to a word outside the core's own data memory? -/
def Dev.cxWaitsStore (d : Dev) (c : Nat) (as : List Nat) : Bool :=
  as.any (fun a => !d.inOwnData c a && !((d.core c).pendingTo a).isEmpty)

/-- R205: the first word of a list that lies in the other world, for a non-secure core. -/
def Dev.cxForeign (d : Dev) (c : Nat) (as : List Nat) : Option Nat :=
  if d.coreSecure c then none
  else as.find? (fun a => match regionOf (a % 2 ^ 53) with
    | some r => d.secureWord r (a % 2 ^ 53 / 8)
    | none => false)

/-- An operation of core c changed. -/
def Dev.setCxOp (d : Dev) (c : Nat) (o : CxOp) : Dev :=
  d.onCore c (fun x => { x with ops := x.ops.map (fun y => if y.tag == o.tag && !y.ended then o else y) })

/-- Words staged by the operations of core c (R202). -/
def Core.stagedWords (x : Core) : Nat :=
  ((x.ops.filter (fun o => o.begun && !o.ended)).map (fun o => o.staged.length + b2n o.record.isSome)).sum

/-- The result of an operation whose operands have been read: what it stages, and its error (R198–R205). -/
def CxRead.finish (r : CxRead) (c : Nat) (o : CxOp) (p : CxParam) (resOk : Bool) (a b : Mat) : Dev :=
  let rows := matrixRows p.cAddr p.cStride (p.cShape o.fn)
  let put (m : Mat) : List (Nat × Word) :=
    (m.zip rows).map (fun x => (wordsOfRow x.1).zipIdx.map (fun y => (x.2.1 + 8 * y.2, y.1))) |>.flatten
  let (k, d) := r.dev.draw
  let d := d.add (Reg.ERG_CX_STEPS (c / 8) (c % 8)) (k.toNat % (cxSteps o.fn p + 1))
  let res := cxCompute o.fn p a b
  let rec_ (w : Word) : Option (Nat × Word) := if resOk then some (p.resAddr, w) else none
  match r.world with
  | some w =>
    d.setCxOp c { o with begun := true, ranges := p.writes o.fn, record := rec_ (cxRecord o 6 0 0 0), err := some (6, w) }
  | none =>
    match (match r.uncorr with
      | some w => some (4, w)
      | none => r.poison.map (fun w => (5, w)) : Option (Nat × Nat)) with
    | some (code, w) =>
      let (v, d) := d.draw
      let shift := if o.fn ≤ 2 then (if p.shift = 0xFF then v.toNat / 256 % 32 else p.shift) else 0
      d.setCxOp c { o with begun := true, ranges := p.writes o.fn,
                           staged := (rangeWords rows).map (fun x => (x, 0)), poisoned := true,
                           record := rec_ (cxRecord o code (v.toNat % 256 : Nat) shift 0), err := some (code, w) }
    | none =>
      d.setCxOp c { o with begun := true, ranges := p.writes o.fn,
                           staged := match res.c with | some m => put m | none => [],
                           record := rec_ (cxRecord o res.code res.exp res.shift res.col),
                           err := if res.code = 0 then none else some (res.code, o.block) }

/-- COPROCESSOR_OP_BEGIN: the oldest operation of core c that has not begun reads its parameter block and operands and
computes, unless it has to wait (R196, R197, R201, R202, R205, R208). -/
def Dev.cxBegin (d : Dev) (c : Nat) : Dev :=
  let x := d.core c
  match x.ops.find? (fun o => !o.begun) with
  | none => d
  | some o =>
    let older := x.ops.filter (fun y => y.begun && !y.ended)
    let ranges := (older.map (·.ranges)).flatten
    let block := (upFrom 0 6).map (fun k => o.block + 8 * k)
    let failed (d : Dev) (code w : Nat) (p : Option CxParam) : Dev :=
      d.setCxOp c { o with begun := true, err := some (code, w),
                           ranges := match p with | some q => [(q.resAddr, 1)] | none => [],
                           record := p.map (fun q => (q.resAddr, cxRecord o code 0 0 0)) }
    if !block.all (d.cxReach c) then failed d 1 o.block none
    else match d.cxForeign c block with
    | some w => failed d 6 w none
    | none =>
      if rangesMeet [(o.block, 6)] ranges || d.cxWaitsStore c block || decide (2 ≤ older.length) then d
      else
        let r := ({ dev := d, words := [], world := none, uncorr := none, poison := none } : CxRead).all c block
        let p := cxParam r.words
        let resOk := p.resAddr % 8 == 0 && d.cxReach c p.resAddr
        let keep := if resOk then some p else none
        let aRows := matrixRows p.aAddr p.aStride (p.aShape o.fn)
        let bRows := matrixRows p.bAddr p.bStride (p.bShape o.fn)
        let cRows := matrixRows p.cAddr p.cStride (p.cShape o.fn)
        let aligned := p.aAddr % 8 == 0 && p.bAddr % 8 == 0 && p.cAddr % 8 == 0
        let aWords := rangeWords aRows
        let bWords := rangeWords bRows
        let cWords := rangeWords cRows
        if !(p.sound o.fn && aligned && resOk && (aWords ++ bWords ++ cWords).all (d.cxReach c)) then
          failed r.dev 1 o.block keep
        else match d.cxForeign c (aWords ++ bWords ++ cWords ++ [p.resAddr]) with
        | some w => failed r.dev 6 w (if (d.cxForeign c [p.resAddr]).isSome then none else keep)
        | none =>
          if rangesMeet (aRows ++ bRows) ranges || d.cxWaitsStore c (aWords ++ bWords) ||
              decide (1024 < x.stagedWords + cWords.length + 1) then d
          else
            let r := ({ r with words := [] }).all c aWords
            let a := matOfWords r.words (p.aShape o.fn)
            let r := ({ r with words := [] }).all c bWords
            r.finish c o p resOk a (matOfWords r.words (p.bShape o.fn))

/-- COPROCESSOR_OP_BEGIN. -/
def execCoprocessorOpBegin (c : Fin 104) (s : State) : Host.Outcome State Fault Refusal := s.onDev (fun d => d.cxBegin c.val)

/-- R206: an operation of core c ends: SB clears and OPS counts it; its error may still have to be reported. -/
def Dev.cxEnds (d : Dev) (c : Nat) (o : CxOp) : Dev :=
  let keep := o.err.isSome && !o.reported
  let d := d.onCore c (fun x =>
    { x with sb := x.sb &&& ~~~(BitVec.ofNat 8 (2 ^ o.tag)),
             ops := if keep then x.ops.map (fun y => if y.tag == o.tag && !y.ended then { o with ended := true } else y)
                    else x.ops.filter (fun y => !(y.tag == o.tag && !y.ended)) })
  d.bump (Reg.ERG_CX_OPS (c / 8) (c % 8))

/-- COPROCESSOR_OP_END: the oldest operation that has begun writes its words of C and then its record (R194, R200, R202,
R206). -/
def Dev.cxEnd (d : Dev) (c : Nat) : Dev :=
  match (d.core c).ops.find? (fun o => !o.ended) with
  | none => d
  | some o =>
    match o.record with
    | none => d
    | some (ra, rv) =>
      if !o.begun then d
      else
        let put (d : Dev) (a : Nat) (v : Word) (poison : Bool) : Dev :=
          let q := d.coreReq c 2 (d.inOwnData c a)
          (if poison then d.writePoison q (a % 2 ^ 53) else d.writeWord q (a % 2 ^ 53) v).1
        let d := o.staged.foldl (fun d x => put d x.1 x.2 o.poisoned) d
        ((put d ra rv false).cxEnds c o).tryCommit c

/-- COPROCESSOR_OP_END. -/
def execCoprocessorOpEnd (c : Fin 104) (s : State) : Host.Outcome State Fault Refusal := s.onDev (fun d => d.cxEnd c.val)

/-- CX_LATE: the oldest unreported error of core c's operations is reported (R205, R212, R215). -/
def Dev.cxReport (d : Dev) (c : Nat) : Dev :=
  let e := c / 8
  let k := c % 8
  let x := d.core c
  match x.ops.find? (fun o => o.err.isSome && !o.reported) with
  | none => d
  | some o =>
    let (code, w) := o.err.getD (0, 0)
    let t : Trap := { trapOf 0x1A 0 with detail := code, tag := o.tag }
    let halted := !(d.get (coreState c) == 1 || d.get (coreState c) == 2)
    let d := (d.bump (cxLate c)).set (Reg.ERG_CX_LAST_LATE_CODE e k) code
    let d := (d.set (Reg.ERG_CX_LAST_LATE_TAG e k) o.tag).set (Reg.ERG_CX_LAST_LATE_FN e k) o.fn
    let d := (d.set (Reg.ERG_CX_LAST_LATE_ADDR_LO e k) w).set (Reg.ERG_CX_LAST_LATE_ADDR_HI e k) (w / 2 ^ 32)
    let d := (d.set (Reg.ERG_CX_ATTN_LATE e k) 1).coreEvent c 2
    let d := d.onCore c (fun x =>
      { x with late := if halted then x.late else holdTrap x.late t,
               ops := if o.ended then x.ops.filter (fun y => !(y == o))
                      else x.ops.map (fun y => if y == o then { o with reported := true } else y) })
    let d := if o.record.isNone && !o.ended then d.cxEnds c { o with reported := true } else d
    (d.tryCommit c).takeAsyncIdle c

/-- CX_LATE. -/
def execCxLate (c : Fin 104) (s : State) : Host.Outcome State Fault Refusal := s.onDev (fun d => d.cxReport c.val)

end Sys2Proof.Machine
end

