-- ==== Sys2Proof/Machine/Movers.lean ====
section
/-! DEFINITION. The data movers (R99–R111): the checks of their descriptors, the start of a channel's next job, and the
copy, convert and fill jobs. DMV_TX_FRAME stands with the Ethernet ports. -/

namespace Sys2Proof.Machine

/-- R103: CHANNEL. -/
def Job.dmvChannel (j : Job) : Nat := j.bits 32 0 6
/-- R103: FORMAT. -/
def Job.dmvFormat (j : Job) : Nat := j.bits 33 0 3
/-- R103: DIR, true to pack. -/
def Job.dmvPack (j : Job) : Bool := j.bits 33 3 1 == 1
/-- R103: WIDTH. -/
def Job.dmvWidth (j : Job) : Nat := j.bits 34 0 4
/-- R103: COUNT. -/
def Job.dmvCount (j : Job) : Nat := j.bits 36 0 21
/-- R103: SRC. -/
def Job.dmvSrc (j : Job) : Nat := j.bits 40 0 56
/-- R103: DST. -/
def Job.dmvDst (j : Job) : Nat := j.bits 48 0 56
/-- R103: ROWS. -/
def Job.dmvRows (j : Job) : Nat := j.bytes 56 2
/-- R103: SRC_STRIDE. -/
def Job.dmvSrcStride (j : Job) : Nat := j.bytes 58 3
/-- R103: DST_STRIDE. -/
def Job.dmvDstStride (j : Job) : Nat := j.bytes 61 3
/-- R103: PATTERN of a fill. -/
def Job.dmvPattern (j : Job) : Word := BitVec.ofNat 72 (j.bytes 40 8 + j.bytes 33 1 * 2 ^ 64)

/-- R103: the bytes of a unit on the packed side. -/
def dmvPackedBytes (format width : Nat) : Nat := if format = 0 then 9 else if format = 1 then 8 else bfpBytes width

/-- R103: the words of a unit. -/
def dmvUnitWords (format : Nat) : Nat := if format = 2 then 6 else 1

/-- R102: does the word side or the packed side of a job keep the placement, alignment and stride rules? `wordSide` asks for
device memory when `hostOk` is false; a device side of words needs multiples of 8. -/
def Dev.dmvSide (d : Dev) (a stride rows n : Nat) (aligned hostOk : Bool) : Bool :=
  (bitOf a 53 || !aligned || (a % 8 == 0 && stride % 8 == 0)) &&
  (upFrom 0 rows).all (fun r => d.rowPlaced (a + r * stride) n hostOk)

/-- R102 check 1: a reserved field is not zero or a field holds an encoding its table does not define. -/
def Job.dmvBadField (j : Job) : Bool :=
  let common := j.bits 32 6 2 != 0 || (j.opcode != 0xA3 && j.bits 36 21 11 != 0) || j.bits 48 56 8 != 0 && j.opcode != 0xA3
  if j.opcode = 0xA0 then common || j.bytes 33 3 != 0 || j.bits 40 56 8 != 0
  else if j.opcode = 0xA1 then
    common || j.bits 33 4 4 != 0 || decide (2 < j.dmvFormat) || j.bits 34 4 4 != 0 || j.bytes 35 1 != 0 ||
      j.bits 40 56 8 != 0 ||
      (if j.dmvFormat = 2 then !([8, 9, 12, 14].contains j.dmvWidth) else j.dmvWidth != 0)
  else if j.opcode = 0xA2 then common || j.bytes 34 2 != 0 || j.bytes 58 3 != 0
  else common || j.bits 33 7 1 != 0 || j.bits 34 4 4 != 0 || !([0, 8, 9, 12, 14].contains j.dmvWidth) ||
    j.bytes 38 2 != 0 || j.bits 40 56 8 != 0

/-- R99: the job may not use its channel: a VF names a channel its function does not own, or a secure job a channel that
may not run secure jobs. -/
def Dev.dmvForeign (d : Dev) (j : Job) : Bool :=
  let f := d.jobFunc j
  (f != 0 && d.get (Reg.DMV_CH_CFG_FUNC j.dmvChannel) != f) || (j.world && !d.on (Reg.DMV_CH_CFG_SECURE j.dmvChannel))

/-- R102 check 4 for COPY, CONVERT and FILL. -/
def Dev.dmvPlaced (d : Dev) (j : Job) : Bool :=
  let n := j.dmvCount
  let rows := j.dmvRows
  let src (len : Nat) (al host : Bool) := d.dmvSide j.dmvSrc j.dmvSrcStride rows len al host
  let dst (len : Nat) (al host : Bool) := d.dmvSide j.dmvDst j.dmvDstStride rows len al host
  if j.opcode = 0xA0 then src (8 * n) true true && dst (8 * n) true true
  else if j.opcode = 0xA2 then dst (8 * n) true true
  else
    let wl := 8 * n * dmvUnitWords j.dmvFormat
    let pl := n * dmvPackedBytes j.dmvFormat j.dmvWidth
    if j.dmvPack then src wl true false && dst pl false true else src pl false true && dst wl true false

/-- Check 5 of R65 for COPY, CONVERT and FILL (R102). -/
def Dev.dmvCheck (d : Dev) (j : Job) : Option Nat :=
  firstFail [
    failIf j.dmvBadField stCONFIG,
    failIf (d.dmvForeign j) stWORLD,
    failIf (decide (j.dmvCount = 0) || decide (1048576 < j.dmvCount) || decide (j.dmvRows = 0)) stLENGTH,
    failIf (!d.dmvPlaced j) stCONFIG]

/-- R101: is a channel halted: not in RUN, with FAULT 0x01? -/
def Dev.dmvHalted (d : Dev) (ch : Nat) : Bool :=
  let c := (d.word (Reg.DMV_CH_CTL ch).off).toNat
  bitsOf c 4 2 != 1 && bitsOf c 8 8 == 1

/-- R443: is a power domain ON? STATE 0 of PWR_DOM[d]. -/
def Dev.domainOn (d : Dev) (k : Nat) : Bool := d.get (Reg.PWR_DOM_STATE k) == 0

/-- The jobs of a class of opcodes at a unit. -/
def Dev.atUnit (d : Dev) (lo hi unit : Nat) (p : Phase) : List Job :=
  d.jfe.jobs.filter (fun j => decide (lo ≤ j.opcode) && decide (j.opcode < hi) && j.unit == unit && j.phase == p)

/-- The job of least place in a queue. -/
def firstInQueue : List Job → Option Job
  | [] => none
  | j :: js => match firstInQueue js with
    | some k => some (if k.seq < j.seq then k else j)
    | none => some j

/-- R100: a channel begins its next queued job once the previous one has ended: in RUN or draining, not halted, with its
domain ON. -/
def dmvJobStart (ch : Nat) (d : Dev) : Dev :=
  if (d.running (.dmv (Fin.ofNat 64 ch)) || d.stopping (.dmv (Fin.ofNat 64 ch))) && !d.dmvHalted ch && d.domainOn 18 &&
      (d.atUnit 0xA0 0xB0 ch .running).isEmpty then
    match firstInQueue (d.atUnit 0xA0 0xB0 ch .queued) with
    | some j => d.setJob { j with phase := .running }
    | none => d
  else d

/-- The request a data-mover job makes (R406). -/
def Dev.dmvReq (d : Dev) (j : Job) : Req :=
  { world := j.world, ep := dmvEndpoint j.unit, func := some (d.jobFunc j), reader := 3, own := false, win := 0 }

/-- The progress of a data-mover job (R107, R108). -/
structure DmvRun where
  io : Io
  units : Nat
  poisoned : Nat
  expMin : Nat
  expMax : Nat
  words : Nat
  deriving DecidableEq, Repr

/-- Does the job issue no further packet: a refusal (R340), or a read that halts the channel (R101)? -/
def DmvRun.over (r : DmvRun) : Bool := r.io.stop.isSome || r.io.badAt.isSome

/-- One word copied (R103, R107). -/
def DmvRun.copyWord (q : Req) (r : DmvRun) (src dst : Nat) : DmvRun :=
  if r.over then r
  else
    let (io, v, lost) := r.io.read q src
    let r := { r with io := io }
    if r.over then r
    else
      let (io, ok) := r.io.write q dst v lost
      { r with io := io, units := r.units + b2n ok, poisoned := r.poisoned + b2n (ok && lost), words := r.words + b2n ok }

/-- One word of a fill written. -/
def DmvRun.fillWord (q : Req) (v : Word) (r : DmvRun) (dst : Nat) : DmvRun :=
  if r.over then r
  else
    let (io, ok) := r.io.write q dst v false
    { r with io := io, units := r.units + b2n ok, words := r.words + b2n ok }

/-- The words of a unit read, with a mark if any is lost. -/
def Io.readWords (s : Io) (q : Req) (a n : Nat) : Io × List Word × Bool :=
  (upFrom 0 n).foldl (fun acc k =>
    let (s, ws, lost) := acc
    let (s, v, l) := s.read q (a + 8 * k)
    (s, ws ++ [v], lost || l)) (s, [], false)

/-- One unit expanded from the packed side to words (R105, R106, R107). -/
def DmvRun.expandUnit (q : Req) (format width : Nat) (r : DmvRun) (src dst : Nat) : DmvRun :=
  if r.over then r
  else
    let (io, bs, lost) := r.io.readBytes q src (dmvPackedBytes format width)
    let r := { r with io := io }
    if r.over then r
    else
      let ws := if format = 0 then [expand72 bs] else if format = 1 then [expandS16 bs] else expandPrb bs width
      let (io, ok, _) := ws.foldl (fun (acc : Io × Bool × Nat) v =>
        let (io, ok, k) := acc
        let (io, o) := io.write q (dst + 8 * k) v lost
        (io, ok && o, k + 1)) (r.io, true, 0)
      { r with io := io, units := r.units + b2n ok, poisoned := r.poisoned + b2n (ok && lost),
               words := r.words + (if ok then ws.length else 0) }

/-- One unit packed: the run, its bytes and whether it draws on a lost word; nothing once the job is over. -/
def DmvRun.packUnit (q : Req) (format width : Nat) (r : DmvRun) (src : Nat) : DmvRun × List Byte × Bool :=
  if r.over then (r, [], false)
  else
    let (io, ws, lost) := r.io.readWords q src (dmvUnitWords format)
    let r := { r with io := io }
    if r.over then (r, [], false)
    else if format = 2 then
      let (e, bs) := packPrb ws width
      ({ r with expMin := if lost then r.expMin else min r.expMin e, expMax := if lost then r.expMax else max r.expMax e },
        bs, lost)
    else (r, (if format = 0 then pack72 (ws.headD 0) else packS16 (ws.headD 0)), lost)

/-- The packed bytes of a row written: each word of device memory that draws on a lost unit is poisoned whole, and the
host gets zero bytes in place of such units (R107). -/
def Io.writePacked (s : Io) (q : Req) (a : Nat) (bs : List (Byte × Bool)) : Io × Nat :=
  match s.dev.target a with
  | .host _ =>
    let (s, ok) := s.writeBytes q a (bs.map (fun x => if x.2 then 0 else x.1)) false
    (s, if ok then bs.length else 0)
  | _ =>
    let (s, n, _) := (shares a (bs.length / 8 + 2) bs.length).foldl (fun (acc : Io × Nat × Nat) x =>
      let (s, n, k) := acc
      let part := (bs.drop k).take x.2.2
      let (s, ok) := s.writeShare q x.1 x.2.1 (part.map (·.1)) (part.any (·.2))
      (s, n + (if ok then x.2.2 else 0), k + x.2.2)) (s, 0, 0)
    (s, n)

/-- One row packed (R103). -/
def DmvRun.packRow (q : Req) (format width count : Nat) (r : DmvRun) (src dst : Nat) : DmvRun :=
  if r.over then r
  else
    let step (acc : DmvRun × List (Byte × Bool) × Nat) (k : Nat) : DmvRun × List (Byte × Bool) × Nat :=
      let (r, out, lostUnits) := acc
      let (r, bs, lost) := r.packUnit q format width (src + 8 * dmvUnitWords format * k)
      (r, out ++ bs.map (·, lost), lostUnits + b2n lost)
    let (r, out, lostUnits) := (upFrom 0 count).foldl step (r, [], 0)
    let stop := r.io.stop
    let (io, n) := ({ r.io with stop := none }).writePacked q dst out
    let io := { io with stop := match stop with | some st => some st | none => io.stop }
    let done := n / dmvPackedBytes format width
    { r with io := io, units := r.units + done, poisoned := r.poisoned + min lostUnits done,
             words := r.words + done * dmvUnitWords format }

/-- The run of a data-mover job that has not begun. -/
def DmvRun.start (d : Dev) (j : Job) (ext : List Ext) : DmvRun :=
  { io := Io.start d j ext, units := 0, poisoned := 0, expMin := 16, expMax := 0, words := 0 }

/-- Rows of a job, in order. -/
def DmvRun.rows (r : DmvRun) (n : Nat) (f : DmvRun → Nat → DmvRun) : DmvRun := (upFrom 0 n).foldl f r

/-- R108: the RESULT bytes of a data-mover job. -/
def dmvResult (units poisoned expMin expMax frameLen : Nat) : Nat :=
  units + poisoned * 2 ^ 32 + expMin * 2 ^ 64 + expMax * 2 ^ 72 + frameLen * 2 ^ 80

/-- R101: a halt after an uncorrectable read: the channel takes FAULT 0x01, records the word and the job, and stops by
holding. -/
def Dev.dmvHalt (d : Dev) (j : Job) (addr : Nat) : Dev :=
  let ch := j.unit
  let fn := Fn.dmv (Fin.ofNat 64 ch)
  let d := ((d.set fn.fault 1).enterStopping fn false).fnAttend fn
  let d := (d.set (Reg.DMV_CH_HALT_ADDR_LO ch) addr).set (Reg.DMV_CH_HALT_ADDR_HI ch) (addr / 2 ^ 32)
  (d.set (Reg.DMV_CH_HALT_TAG ch) j.tag).set (Reg.DMV_CH_HALT_SQ ch) j.sq

/-- The end of a data-mover job: the channel's word counter, a halt if a read was uncorrectable, the attention of a
poisoned job, and the job's status and RESULT (R101, R107, R108, R121). -/
def Dev.dmvEnd (r : DmvRun) (j : Job) (frameLen own : Nat) : Dev :=
  let d := (r.io.done.add (Reg.DMV_CH_WORDS j.unit) r.words).bump (Reg.DMV_CH_JOBS j.unit)
  let st := r.io.status own
  let d := match r.io.badAt with
    | some a => d.dmvHalt j a
    | none => d
  let d := if st = stPOISONED then d.attend (Reg.DMV_CH_ATTN_POISON j.unit) (0x540 + j.unit) else d
  d.endJob j st (dmvResult r.units r.poisoned (if r.expMin = 16 then 0 else r.expMin) r.expMax frameLen)

/-- A job of an opcode that is executing. -/
def Dev.executing (d : Dev) (id opcode : Nat) : Option Job :=
  match d.job id with
  | some j => if j.phase = .running ∧ j.opcode = opcode then some j else none
  | none => none

/-- R103: DMV_COPY. -/
def dmvCopy (id : Nat) (ext : List Ext) (d : Dev) : Dev :=
  match d.executing id 0xA0 with
  | none => d
  | some j =>
    let q := d.dmvReq j
    Dev.dmvEnd ((DmvRun.start d j ext).rows j.dmvRows (fun r i =>
      (upFrom 0 j.dmvCount).foldl (fun r k =>
        r.copyWord q (j.dmvSrc + i * j.dmvSrcStride + 8 * k) (j.dmvDst + i * j.dmvDstStride + 8 * k)) r)) j 0 stOK

/-- R103, R105, R106: DMV_CONVERT. -/
def dmvConvert (id : Nat) (ext : List Ext) (d : Dev) : Dev :=
  match d.executing id 0xA1 with
  | none => d
  | some j =>
    let q := d.dmvReq j
    let f := j.dmvFormat
    let w := j.dmvWidth
    let pb := dmvPackedBytes f w
    Dev.dmvEnd ((DmvRun.start d j ext).rows j.dmvRows (fun r i =>
      let src := j.dmvSrc + i * j.dmvSrcStride
      let dst := j.dmvDst + i * j.dmvDstStride
      if j.dmvPack then r.packRow q f w j.dmvCount src dst
      else (upFrom 0 j.dmvCount).foldl (fun r k => r.expandUnit q f w (src + pb * k) (dst + 8 * dmvUnitWords f * k)) r))
      j 0 stOK

/-- R103: DMV_FILL. -/
def dmvFill (id : Nat) (ext : List Ext) (d : Dev) : Dev :=
  match d.executing id 0xA2 with
  | none => d
  | some j =>
    let q := d.dmvReq j
    Dev.dmvEnd ((DmvRun.start d j ext).rows j.dmvRows (fun r i =>
      (upFrom 0 j.dmvCount).foldl (fun r k => r.fillWord q j.dmvPattern (j.dmvDst + i * j.dmvDstStride + 8 * k)) r)) j 0 stOK

/-- DMV_JOB_START (R100). -/
def execDmvJobStart (ch : Fin 64) (s : State) : Host.Outcome State Fault Refusal := s.onDev (dmvJobStart ch.val)
/-- DMV_COPY (R102). -/
def execDmvCopy (job : Nat) (ext : List Ext) (s : State) : Host.Outcome State Fault Refusal := s.onDev (dmvCopy job ext)
/-- DMV_CONVERT (R105). -/
def execDmvConvert (job : Nat) (ext : List Ext) (s : State) : Host.Outcome State Fault Refusal :=
  s.onDev (dmvConvert job ext)
/-- DMV_FILL (R102). -/
def execDmvFill (job : Nat) (ext : List Ext) (s : State) : Host.Outcome State Fault Refusal := s.onDev (dmvFill job ext)

end Sys2Proof.Machine
end

