-- ==== Sys2Proof/Machine/Tasks.lean ====
section
/-! DEFINITION. The task scheduler (R216–R235): entries, shelves and caravan lists, dispatch, ends, cancels and aborts, and the
retirement of ergs. -/

namespace Sys2Proof.Machine

/-- R217: fields of the task descriptors. -/
def Job.startPc (j : Job) : Nat := j.bits 32 0 13
def Job.ergMask (j : Job) : Nat := j.bits 34 0 13
def Job.hintCore (j : Job) : Nat := j.bits 36 0 7
def Job.resident (j : Job) : Bool := j.bits 36 7 1 == 1
def Job.taskParam (j : Job) : Nat := j.bits 40 0 56
def Job.taskArg (j : Job) : Nat := j.bytes 48 8
def Job.periodNs (j : Job) : Nat := j.bytes 56 4
def Job.entry (j : Job) : Nat := j.bits 32 0 12
def Job.entryGen (j : Job) : Nat := j.bytes 34 2
def Job.freeAbort (j : Job) : Bool := j.bits 36 0 1 == 1

/-- An erg as a function. -/
def ergFn (e : Nat) : Fn := .erg (Fin.ofNat 13 e)

/-- R231: may a task of a mask run on erg e? -/
def Dev.maskNames (d : Dev) (mask e : Nat) : Bool := mask == 0 || bitOf mask (d.get (Reg.ERG_CFG_ALIAS e))

/-- R217, R218: check 5 of R65 for the task jobs. -/
def Dev.taskCheck (d : Dev) (j : Job) : Option Nat :=
  if j.opcode = 0xB0 then
    let bad := j.bits 33 5 3 != 0 || j.bits 35 5 3 != 0 || j.bytes 37 3 != 0 || j.bytes 47 1 != 0 || j.bytes 60 4 != 0 ||
      (decide (104 ≤ j.hintCore) && decide (j.hintCore ≤ 126)) || (j.periodNs != 0 && !j.resident) ||
      !(upFrom 0 13).any (fun e => d.maskNames j.ergMask e &&
        (upFrom 0 8).any (fun k => d.on (Reg.ERG_CORE_CFG_WORLD e k) == j.world))
    failIf bad stCONFIG
  else
    let t := d.task j.entry
    let reserved := j.bits 33 4 4 != 0 || j.bits 36 1 7 != 0 || j.bytes 37 27 != 0 || (j.opcode == 0xB1 && j.freeAbort)
    firstFail [
      failIf (reserved || t.state == .free || !t.resident || t.gen.toNat != j.entryGen) stCONFIG,
      failIf (d.jobFunc j != t.func) stWORLD]

/-- A task entry changed. -/
def Dev.setTask (d : Dev) (n : Nat) (t : Task) : Dev :=
  { d with tsu := { d.tsu with tasks := update (fun _ => Task.reset) d.tsu.tasks n t } }

/-- The next place in the order of arrivals. -/
def Dev.takePlace (d : Dev) : Nat × Dev := (d.tsu.nextPlace, { d with tsu := { d.tsu with nextPlace := d.tsu.nextPlace + 1 } })

/-- R223: can core c run the task at all? -/
def Dev.canRun (d : Dev) (c : Nat) (t : Task) : Bool :=
  let e := c / 8
  let k := c % 8
  d.running (ergFn e) && d.maskNames t.mask.toNat e && d.on (Reg.ERG_CORE_CFG_WORLD e k) == t.world &&
    !d.on (Reg.ERG_CORE_CFG_OFFLINE e k) && !d.on (Reg.ERG_CORE_STATUS_OUT_OF_SERVICE e k) && d.get (coreState c) != 3

/-- R224: the length of a hold stage. -/
def Dev.holdTime (d : Dev) : Nat := d.get Reg.TSU_CFG_HOLD_NS * 2 ^ 16

/-- R220, R224, R225: a task goes to the tail of its shelf; it keeps a last core only if that core can run it. -/
def Dev.toShelf (d : Dev) (n : Nat) : Dev :=
  let t := d.task n
  let last := match t.lastCore with
    | some c => if d.canRun c t then some c else none
    | none => none
  let (p, d) := d.takePlace
  d.setTask n { t with state := .ready, lastCore := last, arrived := d.now, place := p,
                       stage := if last.isNone || d.holdTime == 0 then 3 else 1 }

/-- R221: a task waits for its wake time on its caravan list. -/
def Dev.toCaravan (d : Dev) (n : Nat) (wake : ShortTime) : Dev :=
  let (p, d) := d.takePlace
  d.setTask n { d.task n with state := .delayed, wake := wake, place := p }

/-- The entry becomes FREE; its generation stays (R216). -/
def Dev.freeTask (d : Dev) (n : Nat) : Dev :=
  let t := d.task n
  let d := d.setTask n { Task.reset with gen := t.gen }
  let d := t.freeJobs.foldl (fun d id => match d.job id with
    | some j => if j.open_ then d.endJob j stOK 0 else d
    | none => d) d
  d.relevel 0x63E

/-- R226: RESULT of a TASK_RUN. -/
def taskResult (n gen raw core out : Nat) : Nat := n + gen * 2 ^ 16 + raw * 2 ^ 32 + core * 2 ^ 40 + out * 2 ^ 64

/-- R35: a LATE completion of the task on core c marks its rail. -/
def Dev.markTaskLate (d : Dev) (id : Nat) (core : Option Nat) : Dev :=
  match d.job id, core with
  | some j, some c =>
    if j.status = stLATE then
      { d with pace := { d.pace with late := d.pace.late.set (if c < 56 then 0 else 1) true } }
    else d
  | _, _ => d

/-- The job of a job task ends. -/
def Dev.endTaskJob (d : Dev) (n status raw out : Nat) : Dev :=
  let t := d.task n
  match t.job with
  | some id => match d.job id with
    | some j =>
      if j.open_ then
        (d.endJob j status (taskResult n t.gen.toNat raw (t.core.getD 0xFF) out)).markTaskLate id t.core
      else d
    | none => d
  | none => d

/-- The first queued job of an opcode, in the order of admission. -/
def Dev.firstOf (d : Dev) (opcode : Nat) : Option Job :=
  firstInQueue (d.jfe.jobs.filter (fun j => j.opcode == opcode && j.phase == .queued))

/-- TASK_RUN (R217, R222, R229): the first admitted TASK_RUN takes a free entry. -/
def taskRun (id n : Nat) (d : Dev) : Dev :=
  match d.firstOf 0xB0 with
  | none => d
  | some j =>
    let t := d.task n
    if j.id ≠ id ∨ t.state ≠ .free then d
    else
      let nb := j.notBefore
      let t' : Task :=
        { Task.reset with state := .waiting, gen := t.gen + 1, func := d.jobFunc j, world := j.world, prio := j.priority,
                          startPc := BitVec.ofNat 13 j.startPc, mask := BitVec.ofNat 13 j.ergMask,
                          param := BitVec.ofNat 56 j.taskParam, arg := BitVec.ofNat 64 j.taskArg,
                          lastCore := if j.hintCore < 104 then some j.hintCore else none, resident := j.resident,
                          period := j.periodNs, deadline := if j.noDeadline then none else some j.deadline,
                          job := if j.resident then none else some id }
      let d := (d.setTask n t').relevel 0x63E
      if j.resident then
        let d := if nb ≠ 0 then d.toCaravan n nb else if j.periodNs ≠ 0 then d.toCaravan n d.now else d
        let d := d.setTask n { d.task n with deadline := none }
        d.endJob j stOK (taskResult n t'.gen.toNat 0 0xFF 0)
      else
        let d := d.setJob { j with phase := .running, unit := n }
        if nb = 0 ∨ d.due nb then d.toShelf n else d.toCaravan n nb

/-- R229: a wake of a resident entry, from a job or an event; one of a free entry is stray. -/
def Dev.wakeTask (d : Dev) (n : Nat) : Dev :=
  let t := d.task n
  match t.state with
  | .free => d.bump Reg.TSU_STRAY_WAKES
  | .delayed => if t.resident then (d.setTask n { t with timed := 0 }).toShelf n else d.bump Reg.TSU_STRAY_WAKES
  | .waiting => if t.resident then (d.setTask n { t with timed := 0 }).toShelf n else d.bump Reg.TSU_STRAY_WAKES
  | _ => if t.resident then d.setTask n { t with pendingWake := true } else d.bump Reg.TSU_STRAY_WAKES

/-- R229: a wake from an event of a world. -/
def Dev.eventWake (d : Dev) (n : Nat) (world : Bool) : Dev :=
  if (d.task n).state ≠ .free ∧ (d.task n).world = world then d.wakeTask n else d.bump Reg.TSU_STRAY_WAKES

/-- A queued job of an opcode. -/
def Dev.queuedTask (d : Dev) (id opcode : Nat) : Option Job :=
  match d.job id with
  | some j => if j.phase = .queued ∧ j.opcode = opcode then some j else none
  | none => none

/-- TASK_WAKE (R229): an entry that has been given to another task since the job was checked counts as free. -/
def taskWake (id : Nat) (d : Dev) : Dev :=
  match d.queuedTask id 0xB1 with
  | none => d
  | some j =>
    let t := d.task j.entry
    let d := if t.gen.toNat = j.entryGen then d.wakeTask j.entry else d.bump Reg.TSU_STRAY_WAKES
    d.endJob j stOK 0

/-- R227: does a cancel of generation g take effect on entry n? -/
def Dev.cancelTakes (d : Dev) (n g : Nat) : Bool :=
  (d.task n).state != .free && decide (0 ≤ signed (g + 2 ^ 16 - (d.task n).gen.toNat) 16)

/-- R228, R229: an effective cancel of entry n, which leaves a status: a waiting task goes; a running one is asked to
abort. -/
def Dev.cancelTask (d : Dev) (n status : Nat) : Dev :=
  let t := d.task n
  match t.state with
  | .free => d
  | .running =>
    let d := d.setTask n { t with state := .aborting, since := d.now, abortAs := status }
    match t.core with
    | some c => d.onCore c (fun x => { x with asked := true })
    | none => d
  | .aborting => d
  | _ => (d.endTaskJob n status 0 0).freeTask n

/-- TASK_FREE (R227, R229). -/
def taskFree (id : Nat) (d : Dev) : Dev :=
  match d.queuedTask id 0xB2 with
  | none => d
  | some j =>
    let n := j.entry
    let t := d.task n
    if !d.cancelTakes n j.entryGen then d.endJob j stOK 0
    else if t.state = .running ∨ t.state = .aborting then
      let d := d.setJob { j with phase := .running, unit := n }
      let d := d.setTask n { t with freeJobs := t.freeJobs ++ [id] }
      if j.freeAbort && t.state == .running then d.cancelTask n stABORTED else d
    else (d.setTask n { t with freeJobs := [id] }).freeTask n

/-- R221: the order in which a tick moves the tasks of a list: wake time, then arrival. -/
def laterThan (now : ShortTime) (a b : Task) : Bool :=
  let x := timeDiff a.wake now
  let y := timeDiff b.wake now
  decide (x < y) || (decide (x = y) && decide (a.place < b.place))

/-- Entries put in the order of R221. -/
def sortTasks (now : ShortTime) : List (Nat × Task) → List (Nat × Task)
  | [] => []
  | t :: ts =>
    let rest := sortTasks now ts
    rest.takeWhile (fun u => laterThan now u.2 t.2) ++ t :: rest.dropWhile (fun u => laterThan now u.2 t.2)

/-- TSU_TICK (R221): every delayed task whose wake time is reached goes to its shelf, list 7 first, in every device state (R449). -/
def tsuTick (d : Dev) : Dev :=
  let due := d.tsu.tasks.filter (fun t => t.2.state == .delayed && d.due t.2.wake)
  let order := ([7, 6, 5, 4, 3, 2, 1, 0].map (fun l => sortTasks d.now (due.filter (fun t => t.2.prio / 8 == l)))).flatten
  d.each order (fun d t => (d.setTask t.1 { t.2 with timed := if t.2.resident then t.2.wake else 0 }).toShelf t.1)

/-- AFFINITY_HOLD_END (R224): a READY task passes the end of its hold stage. -/
def affinityHoldEnd (n : Nat) (d : Dev) : Dev :=
  let t := d.task n
  if t.state = .ready ∧ t.stage < 3 ∧ d.due (t.arrived + BitVec.ofNat 64 (t.stage * d.holdTime)) then
    d.setTask n { t with stage := t.stage + 1 }
  else d

/-- R223: is core c IDLE, with nothing left of its last task? -/
def Dev.coreIdle (d : Dev) (c : Nat) : Bool :=
  let x := d.core c
  d.get (coreState c) == 0 && !d.on (Reg.ERG_CORE_TASK_VALID (c / 8) (c % 8)) && x.buffer.isEmpty && x.ops.isEmpty

/-- R224: may core c take the task in its present stage? -/
def Task.takeable (t : Task) (c : Nat) : Bool :=
  match t.lastCore with
  | none => true
  | some l => if t.stage = 1 then c == l else if t.stage = 2 then c / 8 == l / 8 else true

/-- R224: the core a task is given to. -/
def Dev.chooseCore (d : Dev) (t : Task) : Option Nat :=
  let ok (c : Nat) : Bool := d.coreIdle c && d.canRun c t && t.takeable c
  let last := t.lastCore.toList
  (last ++ (last.map (fun l => upFrom (l / 8 * 8) 8)).flatten ++ upFrom 0 104).find? ok

/-- READY tasks in the order of the shelves (R220). -/
def Dev.shelves (d : Dev) : List (Nat × Task) :=
  let ready := d.tsu.tasks.filter (fun t => t.2.state == .ready)
  ((upFrom 0 64).reverse.map (fun s =>
    (ready.filter (fun t => t.2.prio == s)).mergeSort (fun a b => decide (a.2.place ≤ b.2.place)))).flatten

/-- R167, R219: the registers of a core at dispatch. -/
def Arch.dispatch (x : Arch) (n : Nat) (t : Task) : Arch :=
  let y : Arch := { Arch.reset with trapPc := x.trapPc, trapCause := x.trapCause, trapInfo := x.trapInfo,
                                    trapAddr := x.trapAddr, trapLevel := x.trapLevel, scratch := x.scratch,
                                    pc := t.startPc, level := .tk }
  let y := y.wS 0 (BitVec.ofNat 36 (n + t.gen.toNat * 2 ^ 12 + b2n t.resident * 2 ^ 28))
  let y := (y.wS 1 (t.arg.setWidth 36)).wS 2 (BitVec.ofNat 36 (t.arg.toNat / 2 ^ 36))
  let y := (y.wS 3 (t.timed.setWidth 36)).wA 1 (t.param.setWidth 32)
  { y with seg := update (fun _ => 0) y.seg 1 (BitVec.ofNat 24 (t.param.toNat / 2 ^ 32)) }

/-- R167, R224, R229: a task starts on a core. -/
def Dev.dispatch (d : Dev) (n c : Nat) : Dev :=
  let t := d.task n
  let e := c / 8
  let k := c % 8
  let d := d.setTask n { t with state := .running, lastCore := some c, core := some c }
  let d := d.onCore c (fun x =>
    { Core.reset with arch := x.arch.dispatch n t, func := t.func, storeErrs := x.storeErrs })
  let d := ((d.set (coreState c) 1).set (Reg.ERG_CORE_TASK_ENTRY e k) n).set (Reg.ERG_CORE_TASK_VALID e k) 1
  d.bump Reg.TSU_DISPATCHES

/-- TASK_DISPATCH (R220, R223, R224): the first task in shelf order that an idle core may take starts on the core chosen for it.
No dispatch is made while a power entry has stopped the scheduler (R449). -/
def taskDispatch (d : Dev) : Dev :=
  if d.power.paused then d
  else match d.shelves.find? (fun t => (d.chooseCore t.2).isSome) with
    | none => d
    | some (n, t) => match d.chooseCore t with
      | some c => d.dispatch n c
      | none => d

/-- R226: the record status of TEND's status. -/
def tendStatus (s : Nat) : Nat := if [0x00, 0x04, 0x05, 0x0C, 0x0E, 0x0F].contains s then s else stCONFIG

/-- A TSU attention bit sets. -/
def Dev.tsuAttend (d : Dev) (f : Fld) : Dev := d.attend f 0x63D

/-- R226, R229: a resident run ends normally. -/
def Dev.residentEnds (d : Dev) (n status : Nat) : Dev :=
  let t := d.task n
  let d := d.iff (status != 0) (fun d => d.tsuAttend Reg.TSU_ATTN_RES_STATUS)
  let t := { t with lastStatus := BitVec.ofNat 8 status, runs := t.runs + 1, core := none }
  let d := d.setTask n t
  if !t.freeJobs.isEmpty then d.freeTask n
  else if t.pendingWake then (d.setTask n { t with pendingWake := false, timed := 0 }).toShelf n
  else if t.period ≠ 0 then
    let w := t.wake + BitVec.ofNat 64 (t.period * 2 ^ 16)
    if d.due w then ((d.setTask n { t with wake := w, timed := w }).toShelf n).tsuAttend Reg.TSU_ATTN_OVERRUN
    else d.toCaravan n w
  else d.setTask n { t with state := .waiting }

/-- R226, R228, R229: the task on core c ends, with TEND's status if it executed one. -/
def Dev.taskOver (d : Dev) (n : Nat) (tend : Option Nat) (out : Nat) : Dev :=
  let t := d.task n
  match t.state with
  | .running =>
    if t.resident then d.residentEnds n (tend.getD 0)
    else (d.endTaskJob n (tendStatus (tend.getD 0)) (tend.getD 0) out).freeTask n
  | .aborting =>
    if t.resident then
      if t.freeJobs.isEmpty then
        d.setTask n { t with state := .waiting, core := none, pendingWake := false,
                             lastStatus := if t.abortAs = stPOWER then 0x11 else 0x03 }
      else d.freeTask n
    else (d.endTaskJob n t.abortAs (tend.getD 0) (if tend.isSome then out else 0)).freeTask n
  | _ => d

/-- The core is without a task: IDLE, or still HALTED (R165, R168, R228). -/
def Dev.coreOff (d : Dev) (c : Nat) : Dev :=
  let d := d.onCore c (fun x => { x with bundle := none, ending := none, asked := false, forced := false, lock := false, sb := 0,
                                         ops := [], fence := false, abort := none, fault := none, late := none,
                                         arch := { x.arch with level := .tk } })
  let d := d.set (Reg.ERG_CORE_TASK_VALID (c / 8) (c % 8)) 0
  if d.get (coreState c) = 3 then d else d.set (coreState c) 0

/-- R168, R228: may core c report its task's end: a committed TEND or a forced end, or a HALTED core whose task is being
aborted, with its stores accepted and its coprocessor done? -/
def Dev.mayReport (d : Dev) (c : Nat) : Bool :=
  let x := d.core c
  let aborting := match d.coreTask c with
    | some n => (d.task n).state == .aborting || (d.task n).core != some c
    | none => false
  d.on (Reg.ERG_CORE_TASK_VALID (c / 8) (c % 8)) && x.buffer.isEmpty && x.ops.isEmpty &&
    (x.ending.isSome || x.forced || (d.get (coreState c) == 3 && aborting))

/-- TASK_END (R226). -/
def taskEnd (c : Nat) (d : Dev) : Dev :=
  if !d.mayReport c then d
  else
    let x := d.core c
    let tend := x.ending.map (·.toNat)
    let out := (x.arch.rS 1).toNat % 2 ^ 32
    let n := d.get (Reg.ERG_CORE_TASK_ENTRY (c / 8) (c % 8))
    let d := d.coreOff c
    if (d.task n).core = some c then d.taskOver n tend out else d

/-- R169: ABORT_REQUEST. -/
def abortRequest (c : Nat) (d : Dev) : Dev :=
  let x := d.core c
  if !x.asked then d
  else
    let d := d.setCore c { x with asked := false }
    if d.executes c then
      ((d.onCore c (fun x => { x with abort := holdTrap x.abort (trapOf 0x18 0) })).tryCommit c).takeAsyncIdle c
    else d

/-- R212: every coprocessor operation of core c is discarded. -/
def Dev.cxDiscard (d : Dev) (c : Nat) : Dev :=
  let x := d.core c
  let n := (x.ops.filter (fun o => !o.ended)).length + (match x.bundle with
    | some b => b2n b.cx.isSome
    | none => 0)
  (d.setCore c { x with ops := [], sb := 0, lock := false }).add (Reg.ERG_CX_DISCARDED (c / 8) (c % 8)) n

/-- R228: the end of the task on core c is forced; a HALTED core is not. -/
def Dev.forceEnd (d : Dev) (c : Nat) : Dev :=
  if d.get (coreState c) = 3 ∨ d.get (coreState c) = 0 then d
  else
    let d := (d.cxDiscard c).onCore c (fun x =>
      { x with bundle := none, forced := true, ending := none, asked := false, abort := none, fault := none, late := none })
    d.tsuAttend Reg.TSU_ATTN_ABORT_FORCED

/-- ABORT_TIMEOUT (R228). -/
def abortTimeout (c : Nat) (d : Dev) : Dev :=
  match d.coreTask c with
  | none => d
  | some n =>
    let t := d.task n
    if t.state = .aborting ∧ t.core = some c ∧ (d.core c).forced = false ∧
        d.due (t.since + BitVec.ofNat 64 (d.get Reg.TSU_ABORT_TIMEOUT_US * 1000 * 2 ^ 16)) then d.forceEnd c
    else d

/-- R225: erg e can take no task: the last core of every task that named one of its cores is cleared, and a READY one moves
to stage 3. -/
def Dev.dropAffinity (d : Dev) (e : Nat) : Dev :=
  let named := d.tsu.tasks.filter (fun t => match t.2.lastCore with
    | some c => c / 8 == e
    | none => false)
  d.each named (fun d t => d.setTask t.1 { t.2 with lastCore := none, stage := 3 })

/-- The cores of erg e. -/
def ergCores (e : Nat) : List Nat := upFrom (8 * e) 8

/-- R230: is a task on a core of erg e? -/
def Dev.ergBusy (d : Dev) (e : Nat) : Bool := (ergCores e).any (fun c => d.on (Reg.ERG_CORE_TASK_VALID (c / 8) (c % 8)))

/-- R212, R228, R230: the work of erg e is aborted at once: coprocessor operations are discarded, tasks end with a status, and
running cores are forced. -/
def Dev.ergAbort (d : Dev) (e status : Nat) : Dev :=
  d.each (ergCores e) (fun d c =>
    let d := match d.coreTask c with
      | some n => if (d.task n).core = some c then d.cancelTask n status else d
      | none => d
    (d.cxDiscard c).forceEnd c)

/-- R230: erg e enters RUN: every core starts again as IDLE. -/
def Dev.ergStarts (d : Dev) (e : Nat) : Dev :=
  d.each (ergCores e) (fun d c => ((d.cxDiscard c).coreOff c).set (coreState c) 0)

/-- R230: the start check of erg e. -/
def Dev.ergCheck (d : Dev) (e : Nat) : Option Nat :=
  if d.on (Reg.ERG_STATUS_RETIRED e) then some 1 else if d.get Reg.TSU_STANDBY_ERG = e then some 2 else none

/-- The retirement under way. -/
def Dev.setRetiring (d : Dev) (r : Option (Nat × Bool)) : Dev := { d with tsu := { d.tsu with retiring := r } }

/-- RETIRE (R232, R233): a write of TSU_RETIRE with GO. -/
def retire (who : Accessor) (e : Nat) (abort : Bool) (d : Dev) : Dev :=
  d.secureOnly who 0xB00014 (fun d =>
    if 13 ≤ e ∨ d.get Reg.TSU_STANDBY_ERG = e ∨ d.on (Reg.ERG_STATUS_RETIRED e) = true ∨ d.tsu.retiring.isSome = true then
      d.cfgReject who 0xB00014
    else
      let d := (d.setRetiring (some (e, abort))).dropAffinity e
      let d := if d.stopped (ergFn e) then d else d.enterStopping (ergFn e) abort
      if abort then d.ergAbort e stABORTED else d)

/-- The cells of memory from key lo to hi − 1 replaced by those `by_` keys further on. -/
def copyCells (m : List Host.Cell) (src dst len : Nat) : List Host.Cell :=
  let part := m.filter (fun c => decide (src ≤ c.1) && decide (c.1 < src + len))
  let rest := m.filter (fun c => !(decide (dst ≤ c.1) && decide (c.1 < dst + len)))
  part.foldl (fun m c => update memDefault m (c.1 - src + dst) c.2) rest

/-- The cells of memory from a key on removed: they read zero with valid check bits (R130). -/
def zeroCells (m : List Host.Cell) (lo len : Nat) : List Host.Cell :=
  m.filter (fun c => !(decide (lo ≤ c.1) && decide (c.1 < lo + len)))

/-- R405: the memories of core c are filled with zero. -/
def Dev.zeroCore (d : Dev) (c : Nat) : Dev := { d with mem := zeroCells d.mem (16 * (c * 0x8000)) (16 * 0x8000) }

/-- R232 step 4: standby erg s takes the place of erg e. -/
def Dev.takeStandby (d : Dev) (e s : Nat) : Dev :=
  let d := d.each (upFrom 0 8) (fun d k =>
    let from_ := 8 * e + k
    let to_ := 8 * s + k
    let d := if d.on (Reg.ERG_CORE_CFG_WORLD e k) == d.on (Reg.ERG_CORE_CFG_WORLD s k) then d else d.zeroCore to_
    let d := d.setWord (Reg.ERG_CORE_CFG_WORLD s k).off (d.word (Reg.ERG_CORE_CFG_WORLD e k).off)
    let d := d.set (Reg.ERG_CORE_TVEC s k) (d.get (Reg.ERG_CORE_TVEC e k))
    { d with mem := copyCells d.mem (16 * (from_ * 0x8000 + 0x6000)) (16 * (to_ * 0x8000 + 0x6000)) (16 * 8192) })
  let d := (d.set (Reg.ERG_CFG_ALIAS s) (d.get (Reg.ERG_CFG_ALIAS e))).set Reg.TSU_STANDBY_ERG 15
  let d := ((d.set (Reg.ERG_STATUS_STANDBY s) 0).enterRun (ergFn s)).ergStarts s
  d.tsuAttend Reg.TSU_ATTN_STANDBY_TAKEN

/-- R232 step 3: erg e is retired. -/
def Dev.ergRetired (d : Dev) (e : Nat) : Dev :=
  let d := (d.setRetiring none).enterStopped (ergFn e)
  let d := (d.set (Reg.ERG_STATUS_RETIRED e) 1).attend (Reg.ERG_ATTN_RETIRED e) (0x630 + e)
  d.tsuAttend Reg.TSU_ATTN_RETIRED

/-- R232 step 4, if a standby erg is to take over. -/
def Dev.standbySteps (d : Dev) (e : Nat) : Dev :=
  let s := d.get Reg.TSU_STANDBY_ERG
  if d.on Reg.TSU_STANDBY_AUTO && decide (s < 13) then d.takeStandby e s else d

/-- RETIREMENT_DRAINED (R232 steps 3 and 4). -/
def retirementDrained (d : Dev) : Dev :=
  match d.tsu.retiring with
  | none => d
  | some r => if d.ergBusy r.1 then d else (d.ergRetired r.1).standbySteps r.1

/-- TSU_STANDBY_WRITE (R232, R233). -/
def tsuStandbyWrite (who : Accessor) (e : Nat) (auto : Bool) (d : Dev) : Dev :=
  d.secureOnly who 0xB00010 (fun d =>
    let d := d.set Reg.TSU_STANDBY_AUTO (b2n auto)
    let known := decide (e < 13) || e == 15
    let stopped := e == 15 || d.stopped (ergFn e)
    let broken := e != 15 && d.on (Reg.ERG_STATUS_RETIRED e) && d.on (Reg.ERG_STATUS_SELFTEST_FAIL e)
    if !known || !stopped || broken then d.cfgReject who 0xB00010
    else
      let d := d.set Reg.TSU_STANDBY_ERG e
      let d := d.each (upFrom 0 13) (fun d k => d.set (Reg.ERG_STATUS_STANDBY k) (b2n (k == e)))
      if e = 15 then d else d.set (Reg.ERG_STATUS_RETIRED e) 0)

/-- TASK_DISPATCH. -/
def execTaskDispatch (s : State) : Host.Outcome State Fault Refusal := s.onDev taskDispatch
/-- TASK_END. -/
def execTaskEnd (c : Fin 104) (s : State) : Host.Outcome State Fault Refusal := s.onDev (taskEnd c.val)
/-- TASK_RUN: `entry` is the free entry the scheduler allocates. -/
def execTaskRun (job : Nat) (entry : Fin 4096) (s : State) : Host.Outcome State Fault Refusal :=
  s.onDev (taskRun job entry.val)
/-- TASK_WAKE. -/
def execTaskWake (job : Nat) (s : State) : Host.Outcome State Fault Refusal := s.onDev (taskWake job)
/-- TASK_FREE. -/
def execTaskFree (job : Nat) (s : State) : Host.Outcome State Fault Refusal := s.onDev (taskFree job)
/-- TSU_TICK. -/
def execTsuTick (s : State) : Host.Outcome State Fault Refusal := s.onDev tsuTick
/-- AFFINITY_HOLD_END. -/
def execAffinityHoldEnd (entry : Fin 4096) (s : State) : Host.Outcome State Fault Refusal :=
  s.onDev (affinityHoldEnd entry.val)
/-- ABORT_REQUEST. -/
def execAbortRequest (c : Fin 104) (s : State) : Host.Outcome State Fault Refusal := s.onDev (abortRequest c.val)
/-- ABORT_TIMEOUT. -/
def execAbortTimeout (c : Fin 104) (s : State) : Host.Outcome State Fault Refusal := s.onDev (abortTimeout c.val)
/-- RETIRE. -/
def execRetire (who : Accessor) (erg : Fin 16) (abort : Bool) (s : State) : Host.Outcome State Fault Refusal :=
  s.onDev (retire who erg.val abort)
/-- RETIREMENT_DRAINED. -/
def execRetirementDrained (s : State) : Host.Outcome State Fault Refusal := s.onDev retirementDrained
/-- TSU_STANDBY_WRITE. -/
def execTsuStandbyWrite (who : Accessor) (erg : Fin 16) (auto : Bool) (s : State) : Host.Outcome State Fault Refusal :=
  s.onDev (tsuStandbyWrite who erg.val auto)

end Sys2Proof.Machine
end

