-- ==== Sys2Proof/Machine/Engine.lean ====
section
/-! DEFINITION. What the engines share: the addresses they accept (R241), the start of a queued job (R237, R252), the
reading and writing of matrices and runs of words, the world check of an instance (R248), and the end of a job. -/

namespace Sys2Proof.Machine

/-- R241: the spans of on-chip memory outside the transform buffers, and of HBM, as device byte addresses. -/
def engineSpans : List (Nat × Nat) :=
  [(0, 104 * 0x40000), (0x10000000, 0x10000000 + 13 * 0x400000), (0x20000000, 0x20000000 + 40 * 0x100000),
   (0x30000000, 0x30400000), (0x30700000, 0x30A00000), (hbmBase 0, hbmBase 0 + 0x4CCCCCC00),
   (hbmBase 1, hbmBase 1 + 0x4CCCCCC00)]

/-- R241: does a run of n words at an internal address lie where an engine may reach it: aligned, local, not in the host
window, every word in one span? -/
def Dev.engineRun (d : Dev) (a n : Nat) : Bool :=
  a % 8 == 0 && a / 2 ^ 54 == d.ownId && !bitOf a 53 &&
    engineSpans.any (fun s => decide (s.1 ≤ a % 2 ^ 53) && decide (a % 2 ^ 53 + 8 * n ≤ s.2))

/-- R97, R426: is the word at an internal address closed to a request? -/
def Dev.closedTo (d : Dev) (q : Req) (a : Nat) : Bool :=
  match regionOf (a % 2 ^ 53) with
  | some r => (!q.world && d.secureWord r (a % 2 ^ 53 / 8)) || d.sealedAgainst q.win (a % 2 ^ 53)
  | none => false

/-- R248: the ranges of an instance are checked against the regions before it is read: the first word closed to the
request ends the job with WORLD. -/
def Io.checkWorld (s : Io) (q : Req) (reads writes : List Nat) : Io :=
  if s.stop.isSome then s
  else match reads.find? (s.dev.closedTo q) with
    | some a => ({ s with dev := s.dev.worldViolation q.ep q.func a false false }).halt stWORLD
    | none =>
      match writes.find? (s.dev.closedTo q) with
      | some a => ({ s with dev := s.dev.worldViolation q.ep q.func a true false }).halt stWORLD
      | none => s

/-- The words of a matrix row by row: base, rows, words a row, row stride in words. -/
def gridWords (a rows n stride : Nat) : List Nat :=
  ((upFrom 0 rows).map (fun r => (upFrom 0 n).map (fun k => a + 8 * (r * stride + k)))).flatten

/-- Words at the addresses of a list. -/
def Io.readAll (s : Io) (q : Req) (as : List Nat) : Io × List Word :=
  as.foldl (fun acc a => let (s, v, _) := acc.1.read q a; (s, acc.2 ++ [v])) (s, [])

/-- Words written at addresses, or poison to each of them. -/
def Io.writeAll (s : Io) (q : Req) (xs : List (Nat × Word)) (poison : Bool) : Io :=
  xs.foldl (fun s x => (s.write q x.1 x.2 poison).1) s

/-- Some samples of a word of device memory written (R86), or the whole word as poison. -/
def Io.writeSamples (s : Io) (q : Req) (a : Nat) (v : Word) (mask : Nat) (poison : Bool) : Io :=
  if s.stop.isSome then s
  else if mask = 15 ∨ poison then (s.write q a v poison).1
  else match s.dev.target a with
    | .mem b =>
      let s := s.noteWrite (b / 8)
      (s.took (s.dev.writeNarrow q b v false mask)).1
    | _ => s.halt stCONFIG

/-- An instance begins with no lost word met (R120). -/
def Io.fresh (s : Io) : Io := { s with uncorr := false, poison := false }

/-- R120, R121: what the instance's inputs have met: UNCORRECTABLE, POISONED or nothing. -/
def Io.lost (s : Io) : Option Nat := if s.uncorr then some stUNCORR else if s.poison then some stPOISONED else none

/-- The marks of the job before the instance taken together with the instance's. -/
def Io.joinMarks (s old : Io) : Io := { s with uncorr := s.uncorr || old.uncorr, poison := s.poison || old.poison }

/-- May a function take up queued work: in RUN, or draining (R51)? -/
def Dev.serves (d : Dev) (fn : Fn) : Bool := d.running fn || (d.stopping fn && !d.on fn.abort)

/-- R237, R252: a unit's next job, once the one before has ended and if its domain is ON. -/
def Dev.nextJob (d : Dev) (lo hi unit domain : Nat) (fn : Fn) : Option Job :=
  if d.serves fn && d.domainOn domain && (d.atUnit lo hi unit .running).isEmpty then
    firstInQueue (d.atUnit lo hi unit .queued)
  else none

/-- R239, R254: the unit that a job naming any unit takes: of those in RUN the one with the fewest queued jobs, the lowest
number on a tie. -/
def Dev.leastQueued (d : Dev) (lo hi n : Nat) (fn : Nat → Fn) : Option Nat :=
  let len (u : Nat) : Nat := (d.atUnit lo hi u .queued).length
  ((upFrom 0 n).filter (fun u => d.running (fn u))).foldl (fun best u =>
    match best with
    | none => some u
    | some b => some (if len u < len b then u else b)) none

/-- A free number of steps, at most n. -/
def Dev.drawUpTo (d : Dev) (n : Nat) : Nat × Dev := (d.draw.1.toNat % (n + 1), d.draw.2)

/-- R84: the low 64 bits of a word, its byte view. -/
def byteViewOf (v : Word) : Nat := v.toNat % 2 ^ 64

/-- An eight-bit signed field. -/
def int8 (v : Nat) : Int := signed v 8

/-- The extremes of exponents, 0 if there are none (R249, R259). -/
def expMin : List Int → Int
  | [] => 0
  | x :: xs => xs.foldl min x
/-- The greatest. -/
def expMax : List Int → Int
  | [] => 0
  | x :: xs => xs.foldl max x

end Sys2Proof.Machine
end

