-- ==== Sys2Proof/Machine/Level.lean ====
section
/-! DEFINITION. Levels in 0.1 dB of ratios of powers (R290, R304, R311, R315), exact: a level is found by comparing 200th
powers with powers of ten, so no logarithm is rounded. -/

namespace Sys2Proof.Machine

/-- Is 200 log10(n / q) below m? -/
def logBelow (n q : Nat) (m : Int) : Bool :=
  if m < 0 then decide (n ^ 200 * 10 ^ (-m).toNat < q ^ 200) else decide (n ^ 200 < 10 ^ m.toNat * q ^ 200)

/-- Bisection for the least L with 100 log10(n / q) below L + 1/2, between lo (not so) and hi (so). -/
def bisectLevel (n q : Nat) : Nat → Int → Int → Int
  | 0, _, hi => hi
  | k + 1, lo, hi =>
    if hi - lo ≤ 1 then hi
    else
      let mid := (lo + hi) / 2
      if logBelow n q (2 * mid + 1) then bisectLevel n q k lo mid else bisectLevel n q k mid hi

/-- 100 log10(n / q), 10 log10 in units of 0.1 dB, rounded half up, for ratios within 1,600 dB of 1. -/
def level10 (n q : Nat) : Int := bisectLevel n q 20 (-16384) 16384

/-- Full scale of a power handed in from the sample paths: 0 dBFS. -/
def fullScale : Nat := 2 ^ 64

end Sys2Proof.Machine
end

