-- ==== Sys2Proof/Machine/Burst.lean ====
section
/-! DEFINITION. The burst receivers (R286–R305): start checks, detections and contexts, payload captures, reports, releases, and the
noise floor. The search itself works on samples that the manual does not fix bit by bit, so what it finds (peaks and powers) is an
operand of the commands. -/

namespace Sys2Proof.Machine

/-- The function of receiver b. -/
def brxFn (b : Nat) : Fn := .brx (Fin.ofNat 16 b)

/-- The number of a format entry among the 192 of its receiver (R317). -/
def fmtNo (slot fmt : Nat) : Nat := 8 * slot + fmt

/-- An address of 56 bits in a field pair: bits [31:k] of the low word and [23:0] of the next (R317, R318, R402). -/
def Dev.addr56 (d : Dev) (off k : Nat) : Nat :=
  (d.word off).toNat / 2 ^ k * 2 ^ k + (d.word (off + 4)).toNat % 2 ^ 24 * 2 ^ 32

/-- Nanoseconds as short time. -/
def nsTime (n : Nat) : ShortTime := BitVec.ofNat 64 (n * 65536)

/-- The requests of receiver b: its function and world (R295, R406). -/
def Dev.brxReq (d : Dev) (b : Nat) : Req :=
  { world := d.on (Reg.BRX_CFG_SECURE b), ep := 83, func := some (d.get (Reg.BRX_CFG_FUNC b)), reader := 4, own := false, win := 0 }

/-- Accesses of a block that is no job. -/
def Io.ofBlock (d : Dev) (ext : List Ext) : Io :=
  { dev := d, ext := ext, stop := none, uncorr := false, badAt := none, poison := false, lastRead := none, writing := none }

/-- A job of an opcode that waits for its block. -/
def Dev.queuedJob (d : Dev) (id opcode : Nat) : Option Job :=
  match d.job id with
  | some j => if j.phase = .queued ∧ j.opcode = opcode then some j else none
  | none => none

/-- A free word of 72 bits. -/
def Dev.drawWord (d : Dev) : Word × Dev :=
  let (x, d) := d.draw
  let (y, d) := d.draw
  (BitVec.ofNat 72 (x.toNat + y.toNat % 256 * 2 ^ 64), d)

/-- The receivers' own data replaced. -/
def Dev.onBrx (d : Dev) (f : BrxState → BrxState) : Dev := { d with brx := f d.brx }

/-- A context that was never opened. -/
def BrxCtx.reset : BrxCtx := { seq := 0, freq := 0, timing := 0, drift := 0, occasion := 0, ready := 0, ended := none }

/-- What the registers do not show of context k of receiver b. -/
def Dev.brxCtx (d : Dev) (b k : Nat) : BrxCtx := lookup (fun _ => BrxCtx.reset) d.brx.ctxs (64 * b + k)

/-- Context k of receiver b replaced. -/
def Dev.setBrxCtx (d : Dev) (b k : Nat) (c : BrxCtx) : Dev :=
  d.onBrx (fun x => { x with ctxs := update (fun _ => BrxCtx.reset) x.ctxs (64 * b + k) c })

/-! ### Start checks -/

/-- R288: sequence repetitions of each preamble; 0 for a combination the table does not give. -/
def formatReps (kind format : Nat) : Nat :=
  match kind with
  | 0 => [1, 2, 4, 4].getD format 0
  | 1 => [2, 4, 6, 2, 4, 6, 12, 1, 4].getD format 0
  | 2 => [1, 1, 2, 2, 1].getD format 0
  | 3 => [4, 4, 6].getD format 0
  | 4 => [1].getD format 0
  | _ => 0

/-- R288: does the table give this combination of KIND, FORMAT, SCS, REP and PAYLOAD? -/
def formatOk (kind format scs rep payload : Nat) : Bool :=
  formatReps kind format != 0 &&
  match kind with
  | 0 => scs == (if format = 3 then 1 else 0) && rep == 1
  | 1 => decide (2 ≤ scs) && decide (scs ≤ 5) && rep == 1
  | 2 => scs == (if format = 4 then 7 else 0) && decide (1 ≤ rep) && decide (rep ≤ 128) && payload == 0
  | 3 => scs == (if format = 2 then 0 else 6) && decide (1 ≤ rep) && decide (rep ≤ 128) && payload == 0
  | _ => decide (2 ≤ scs) && decide (scs ≤ 5) && rep == 1 && payload == 1

/-- R288: EARLY_REP is 0 or less than the format's repetitions; a CG_DMRS entry has none. -/
def earlyOk (kind format early : Nat) : Bool := early == 0 || (kind != 4 && decide (early < formatReps kind format))

/-- R288, R295: are the fields of enabled entry e of a slot of receiver b in range? -/
def Dev.entryOk (d : Dev) (b slot e : Nat) : Bool :=
  let kind := d.get (Reg.BRX_FMT_KIND b e)
  let format := d.get (Reg.BRX_FMT_FORMAT b e)
  let payload := d.get (Reg.BRX_FMT_PAYLOAD b e)
  let npre := d.get (Reg.BRX_FMT_NPRE b e)
  let nprb := d.get (Reg.BRX_FMT_PL_NPRB b e)
  let nsym := d.get (Reg.BRX_FMT_PL_NSYM b e)
  formatOk kind format (d.get (Reg.BRX_FMT_SCS b e)) (d.get (Reg.BRX_FMT_REP b e)) payload &&
  earlyOk kind format (d.get (Reg.BRX_FMT_EARLY_REP b e)) &&
  decide (1 ≤ npre) && decide (npre ≤ 64) && d.get (Reg.BRX_FMT_RESTRICTED b e) != 3 &&
  (payload == 0 ||
    (decide (d.get (Reg.BRX_FMT_PL_PRB b e) + nprb ≤ d.get (Reg.BRX_SLOT_GRID_NPRB b slot)) &&
     decide (d.get (Reg.BRX_SLOT_NANT b slot) * nsym * (1 + 6 * nprb) ≤ d.get (Reg.BRX_CAP_STRIDE b))))

/-- The enabled slots of receiver b. -/
def Dev.brxSlots (d : Dev) (b : Nat) : List Nat := (upFrom 0 24).filter (fun s => d.on (Reg.BRX_SLOT_ENABLE b s))

/-- R286: is an enabled slot in range: its streams, its chains, its entries? -/
def Dev.slotOk (d : Dev) (b s : Nat) : Bool :=
  let nant := d.get (Reg.BRX_SLOT_NANT b s)
  decide (d.get (Reg.BRX_SLOT_CARRIER b s) < 384) && decide (1 ≤ nant) && decide (nant ≤ 64) &&
  decide (d.get (Reg.BRX_SLOT_FIRST_STREAM b s) + nant ≤ 64) &&
  (d.on (Reg.BRX_SLOT_INPUT b s) || decide (d.get (Reg.BRX_SLOT_CHAIN0 b s) + nant ≤ 128)) &&
  (upFrom 0 8).all (fun f => !d.on (Reg.BRX_FMT_ENABLE b (fmtNo s f)) || d.entryOk b s (fmtNo s f))

/-- R286: do the streams of two slots overlap? -/
def Dev.slotsClash (d : Dev) (b s t : Nat) : Bool :=
  let a := d.get (Reg.BRX_SLOT_FIRST_STREAM b s)
  let c := d.get (Reg.BRX_SLOT_FIRST_STREAM b t)
  s != t && decide (a < c + d.get (Reg.BRX_SLOT_NANT b t)) && decide (c < a + d.get (Reg.BRX_SLOT_NANT b s))

/-- R286: check BADCFG. -/
def Dev.brxConfigOk (d : Dev) (b : Nat) : Bool :=
  let slots := d.brxSlots b
  let lg := d.get (Reg.BRX_CFG_REP_LOG2 b)
  decide (4 ≤ lg) && decide (lg ≤ 16) && slots.all (d.slotOk b) && slots.all (fun s => slots.all (fun t => !d.slotsClash b s t))

/-- R286: check CARRIER of a slot. -/
def Dev.slotCarrierOk (d : Dev) (b s : Nat) : Bool :=
  d.running (.car (Fin.ofNat 384 (d.get (Reg.BRX_SLOT_CARRIER b s)))) &&
  (d.on (Reg.BRX_SLOT_INPUT b s) ||
    (upFrom (d.get (Reg.BRX_SLOT_CHAIN0 b s)) (d.get (Reg.BRX_SLOT_NANT b s))).all (fun r =>
      d.running (.dfeRx (Fin.ofNat 128 r)) && d.on (Reg.DFE_RX_CFG_SECURE r) == d.on (Reg.BRX_CFG_SECURE b)))

/-- R286: the RUN start checks of receiver b. -/
def Dev.brxCheck (d : Dev) (b : Nat) : Option Nat :=
  if !d.brxConfigOk b then some 1
  else if !(d.brxSlots b).all (d.slotCarrierOk b) then some 2
  else if !d.jfe.busMaster.getLsbD (d.get (Reg.BRX_CFG_FUNC b)) then some 3
  else if d.outOfService 194 then some 0x20
  else none

/-- Receiver b enters RUN: search starts at the next occasion (R299). -/
def Dev.brxStarts (d : Dev) (b : Nat) : Dev :=
  d.onBrx (fun x => { x with runAt := update (fun _ => 0) x.runAt b d.now })

/-! ### Reports -/

/-- R301: a report without LOST and PHASE. -/
structure Report where
  kind : Nat
  flags : Nat
  cause : Nat
  status : Nat
  ctx : Nat
  slot : Nat
  fmt : Nat
  seq : Nat
  metric : Int
  gen : Nat
  freq : Nat
  timing : Nat
  drift : Nat
  time : ShortTime
  deriving DecidableEq, Repr

/-- R301: the bytes of a report. -/
def Report.encode (r : Report) (lost phase : Nat) : Nat :=
  r.kind + (r.flags + r.cause * 32) * 2 ^ 8 + r.status % 256 * 2 ^ 16 + r.ctx * 2 ^ 24 + (r.slot + r.fmt * 32) * 2 ^ 32 +
    r.seq * 2 ^ 40 + wrapTo 16 r.metric * 2 ^ 48 + r.gen % 2 ^ 16 * 2 ^ 64 + r.freq * 2 ^ 80 + r.timing * 2 ^ 96 +
    r.drift * 2 ^ 128 + lost * 2 ^ 144 + r.time.toNat * 2 ^ 160 + phase * 2 ^ 255

/-- R300: has the report ring of receiver b room by the consumer count last read? -/
def Dev.brxRoom (d : Dev) (b : Nat) : Bool :=
  decide ((d.get (Reg.BRX_REP_PI b) + 2 ^ 32 - d.get (Reg.BRX_REP_CI_SEEN b)) % 2 ^ 32 < 2 ^ d.get (Reg.BRX_CFG_REP_LOG2 b))

/-- R300: a ring that appears full has its consumer count read; an answer that is lost leaves the count as it was. -/
def Io.brxReadCi (s : Io) (b : Nat) : Io :=
  if s.dev.brxRoom b then s
  else
    let (s, bs, lost) := s.readBytes (s.dev.brxReq b) (s.dev.addr56 (Reg.BRX_REP_CI_ADDR b).off 2) 4
    if lost || s.stop.isSome then s else { s with dev := s.dev.set (Reg.BRX_REP_CI_SEEN b) (ofLE bs) }

/-- R300: a report is dropped. -/
def Dev.reportLost (d : Dev) (b : Nat) : Dev :=
  let n := lookup (fun _ => 0) d.brx.lost b
  let d := d.onBrx (fun x => { x with lost := update (fun _ => 0) x.lost b (min 255 (n + 1)) })
  (d.bump (Reg.BRX_REPORTS_LOST b)).attend ⟨(Reg.BRX_ATTN b).off, 1, 1⟩ (0x5F8 + b)

/-- A 32-byte record of a ring at an internal address: one write (R72). -/
def Io.putRecord (s : Io) (q : Req) (a v : Nat) : Io :=
  match s.dev.target a with
  | .host iova =>
    if s.dev.jfe.busMaster.getLsbD q.asFunc then { s with dev := s.dev.send (.record q.asFunc iova (BitVec.ofNat 256 v)) } else s
  | _ => (s.writeBytes q a (leBytes v 32) false).1

/-- R300, R71: a report is written to the ring of receiver b, or lost. Each report's accesses stand for themselves. -/
def Io.report (s : Io) (b : Nat) (r : Report) : Io :=
  let s := ({ s with stop := none } : Io).brxReadCi b
  let d := s.dev
  if !d.brxRoom b then { s with dev := d.reportLost b }
  else
    let pi := d.get (Reg.BRX_REP_PI b)
    let lg := d.get (Reg.BRX_CFG_REP_LOG2 b)
    let v := r.encode (lookup (fun _ => 0) d.brx.lost b) ((pi / 2 ^ lg + 1) % 2)
    let s := ({ s with stop := none } : Io).putRecord (d.brxReq b) (d.addr56 (Reg.BRX_REP_BASE b).off 12 + 32 * (pi % 2 ^ lg)) v
    let d := (s.dev.bump (Reg.BRX_REP_PI b)).onBrx (fun x => { x with lost := update (fun _ => 0) x.lost b 0 })
    { s with dev := d.raise (0x5E8 + b) }

/-- A report of context k of receiver b. -/
def Dev.ctxReport (d : Dev) (b k kind flags cause status : Nat) (time : ShortTime) : Report :=
  let c := d.brxCtx b k
  { kind := kind, flags := flags, cause := cause, status := status, ctx := k, slot := d.get (Reg.BRX_CTX_SLOT b k),
    fmt := d.get (Reg.BRX_CTX_FMT b k), seq := c.seq.toNat, metric := signed (d.get (Reg.BRX_CTX_METRIC b k)) 16,
    gen := d.get (Reg.BRX_CTX_GEN b k), freq := c.freq.toNat, timing := c.timing.toNat, drift := c.drift.toNat, time := time }

/-! ### The AGC freeze (R298, R315) -/

/-- Carrier slots of RX chains that a TD slot of receiver b uses: chain and slot. -/
def Dev.slotChains (d : Dev) (b slot : Nat) : List Nat :=
  if d.on (Reg.BRX_SLOT_INPUT b slot) then []
  else upFrom (d.get (Reg.BRX_SLOT_CHAIN0 b slot)) (d.get (Reg.BRX_SLOT_NANT b slot))

/-- The AGC of a TD slot is frozen. -/
def Dev.freeze (d : Dev) (b slot : Nat) : Dev :=
  d.each (d.slotChains b slot) (fun d r => d.set (Reg.DFE_RX_CAR_FROZEN r (d.get (Reg.BRX_SLOT_CAR b slot))) 1)

/-- The contexts of receiver b that are not FREE. -/
def Dev.brxActive (d : Dev) (b : Nat) : List Nat := (upFrom 0 64).filter (fun k => d.get (Reg.BRX_CTX_STATE b k) != 0)

/-- The AGC of a slot thaws once no context of it is left; its windows restart (R315). -/
def Dev.thaw (d : Dev) (b slot : Nat) : Dev :=
  if (d.brxActive b).any (fun k => d.get (Reg.BRX_CTX_SLOT b k) == slot) then d
  else
    d.each (d.slotChains b slot) (fun d r =>
      let c := d.get (Reg.BRX_SLOT_CAR b slot)
      let d := d.set (Reg.DFE_RX_CAR_FROZEN r c) 0
      { d with dfe := { d.dfe with window := update (fun _ => 0) d.dfe.window (4 * r + c) 0 } })

/-! ### Ends of contexts -/

/-- R298: context k ends with a cause and a status: its END report, and it is FREE. -/
def Io.endCtx (s : Io) (b k cause status : Nat) (fls : Bool) (time : ShortTime) : Io :=
  let s := s.report b (s.dev.ctxReport b k 4 (if fls then 8 else 0) cause status time)
  let d := s.dev
  let slot := d.get (Reg.BRX_CTX_SLOT b k)
  let d := (d.set (Reg.BRX_CTX_STATE b k) 0).setBrxCtx b k { d.brxCtx b k with ended := some time }
  let d := d.iff fls (fun d => d.bump (Reg.BRX_FALSE b))
  { s with dev := d.thaw b slot }

/-- R302: contexts of receiver b in the order of reports of one event time: SLOT, FORMAT, METRIC downward, SEQ. -/
def Dev.ctxBefore (d : Dev) (b k l : Nat) : Bool :=
  let key (k : Nat) : Nat := (d.get (Reg.BRX_CTX_SLOT b k) * 8 + d.get (Reg.BRX_CTX_FMT b k)) * 2 ^ 24 +
    (32768 - signed (d.get (Reg.BRX_CTX_METRIC b k)) 16).toNat * 256 + (d.brxCtx b k).seq.toNat
  decide (key k ≤ key l)

/-- An element put into a list before the first it may precede. -/
def insertBy {α : Type} (before : α → α → Bool) (x : α) : List α → List α
  | [] => [x]
  | y :: ys => if before x y then x :: y :: ys else y :: insertBy before x ys

/-- A list in order; equal elements keep their places. -/
def sortBy {α : Type} (before : α → α → Bool) (xs : List α) : List α := xs.foldr (insertBy before) []

/-- R298: STOP_ABORT of receiver b: every context ends ABORTED, and so does every quiet window. -/
def Dev.brxAbort (d : Dev) (b : Nat) (ext : List Ext) : Dev :=
  let ks := sortBy (d.ctxBefore b) (d.brxActive b)
  let d := (ks.foldl (fun s k => s.endCtx b k 4 stABORTED false d.now) (Io.ofBlock d ext)).done
  d.each (d.jfe.jobs.filter (fun j => j.opcode == 0x61 && j.phase == .running && j.bits 32 0 4 == b)) (fun d j =>
    d.endJob j stABORTED 0)

/-- May receiver b become STOPPED (R299)? -/
def Dev.brxIdle (d : Dev) (b : Nat) : Bool :=
  (d.brxActive b).isEmpty && !d.jfe.jobs.any (fun j => j.opcode == 0x61 && j.phase == .running && j.bits 32 0 4 == b)

/-! ### The noise floor (R303, R304) -/

/-- The measured powers of stream i. -/
def Dev.streamPowers (d : Dev) (b i : Nat) : List Nat := lookup (fun _ => []) d.brx.floors (64 * b + i)

/-- R304: a level of a mean power; where the mean is zero the manual states none and the value is open. -/
def floorLevel (sum n : Nat) : Nat :=
  if sum = 0 ∨ n = 0 then Config.freeFun 17 [] % 2 ^ 16 else wrapTo 16 (level10 sum (n * fullScale))

/-- R303, R304: one more measured power of stream i. -/
def Dev.addPower (d : Dev) (b i p : Nat) : Dev :=
  let ps := (p :: d.streamPowers b i).take 64
  let d := d.onBrx (fun x => { x with floors := update (fun _ => []) x.floors (64 * b + i) ps })
  let d := (d.set (Reg.BRX_NF_COUNT b i) ps.length).set (Reg.BRX_NF_VALID b i) (b2n (decide (64 ≤ ps.length)))
  d.set (Reg.BRX_NF_LEVEL b i) (floorLevel ps.sum ps.length)

/-- R304: COUNT of the streams of a slot returns to zero. -/
def Dev.clearFloors (d : Dev) (b slot : Nat) : Dev :=
  d.each (upFrom (d.get (Reg.BRX_SLOT_FIRST_STREAM b slot)) (d.get (Reg.BRX_SLOT_NANT b slot))) (fun d i =>
    if i < 64 then
      let d := d.onBrx (fun x => { x with floors := update (fun _ => []) x.floors (64 * b + i) [] })
      (d.set (Reg.BRX_NF_COUNT b i) 0).set (Reg.BRX_NF_VALID b i) 0
    else d)

/-- R304: the streams of a slot. -/
def Dev.slotStreams (d : Dev) (b slot : Nat) : List Nat :=
  (upFrom (d.get (Reg.BRX_SLOT_FIRST_STREAM b slot)) (d.get (Reg.BRX_SLOT_NANT b slot))).filter (fun i => decide (i < 64))

/-- R304: is the floor of a slot VALID? -/
def Dev.slotValid (d : Dev) (b slot : Nat) : Bool :=
  let is := d.slotStreams b slot
  !is.isEmpty && is.all (fun i => d.on (Reg.BRX_NF_VALID b i))

/-- R304: the mean of the powers of a slot's streams, as a sum and a divisor. Each stream's power is the mean of those it has. -/
def Dev.slotPower (d : Dev) (b slot : Nat) : Nat × Nat :=
  let is := (d.slotStreams b slot).filter (fun i => !(d.streamPowers b i).isEmpty)
  -- the common divisor 64! / … is avoided: with n ≤ 64 powers each, the least common multiple of 1 … 64 divides every n
  let m := (upFrom 1 64).foldl Nat.lcm 1
  ((is.map (fun i => (d.streamPowers b i).sum * (m / (d.streamPowers b i).length))).sum, is.length * m)

/-- R304: SLOT.FLOOR and SLOT.VALID of a slot. -/
def Dev.slotFloor (d : Dev) (b slot : Nat) : Nat × Bool :=
  let p := d.slotPower b slot
  (if p.2 = 0 then 0 else floorLevel p.1 p.2, d.slotValid b slot)

/-! ### Detections (R290–R293) -/

/-- R290: METRIC of a correlation power per antenna over the carrier floor, and COLD. -/
def Dev.metricOf (d : Dev) (b slot power : Nat) : Int × Bool :=
  let lim (x : Int) : Int := max (-32767) (min 32767 x)
  let cold := !d.slotValid b slot
  let p := d.slotPower b slot
  let m : Int :=
    if power = 0 then -32767
    else if cold then level10 power fullScale - signed (d.get (Reg.BRX_COLD_FLOOR b)) 16
    else if p.1 = 0 then 32767
    else level10 (power * p.2) p.1
  (lim m, cold)

/-- A detection: METRIC, COLD, COLLISION and its peak. -/
structure Detection where
  metric : Int
  cold : Bool
  collision : Bool
  peak : Peak
  deriving DecidableEq, Repr

/-- R291, R302: the detections of an occasion in report order: those at least THRESH, up to 4 of an index, the strongest first. -/
def Dev.detections (d : Dev) (b slot e : Nat) (peaks : List Peak) : List Detection :=
  let all := (peaks.map (fun p => let m := d.metricOf b slot p.power; (⟨m.1, m.2, false, p⟩ : Detection))).filter
    (fun x => decide ((d.get (Reg.BRX_FMT_THRESH b e) : Int) ≤ x.metric))
  let before (x y : Detection) : Bool := decide (y.metric < x.metric) || (x.metric == y.metric && decide (x.peak.seq ≤ y.peak.seq))
  let sorted := sortBy before all
  let mark (x : Detection) : Detection := { x with collision := decide (1 < (all.filter (fun y => y.peak.seq == x.peak.seq)).length) }
  sorted.foldl (fun acc x =>
    if (acc.filter (fun y => y.peak.seq == x.peak.seq)).length < 4 then acc ++ [mark x] else acc) []

/-- R293 rule 1, R297: the lowest-numbered FREE context that ended before the detection. -/
def Dev.freeCtx (d : Dev) (b : Nat) (time : ShortTime) : Option Nat :=
  (upFrom 0 64).find? (fun k => d.get (Reg.BRX_CTX_STATE b k) == 0 && match (d.brxCtx b k).ended with
    | some t => decide (timeDiff time t > 0)
    | none => true)

/-- R293 rule 2: of the OPEN and CONFIRMED contexts the one of lowest METRIC, the lowest-numbered on a tie. -/
def Dev.weakest (d : Dev) (b : Nat) : Option Nat :=
  let metric (k : Nat) : Int := signed (d.get (Reg.BRX_CTX_METRIC b k)) 16
  ((upFrom 0 64).filter (fun k => let st := d.get (Reg.BRX_CTX_STATE b k); st == 1 || st == 2)).foldl (fun best k =>
    match best with
    | none => some k
    | some l => some (if metric k < metric l then k else l)) none

/-- The flags of a DETECT (R301). -/
def Detection.flags (x : Detection) (noCtx preemptor : Bool) : Nat :=
  b2n x.collision + b2n noCtx * 2 + b2n x.cold * 4 + b2n preemptor * 16

/-- The DETECT of a detection without a context. -/
def Detection.bare (x : Detection) (slot fmt : Nat) (noCtx : Bool) (time : ShortTime) : Report :=
  { kind := 1, flags := x.flags noCtx false, cause := 0, status := 0, ctx := 0xFF, slot := slot, fmt := fmt, seq := x.peak.seq.toNat,
    metric := x.metric, gen := 0, freq := x.peak.freq.toNat, timing := x.peak.timing.toNat, drift := x.peak.drift.toNat, time := time }

/-- R298: the registers of context k as a detection opens it. -/
def Dev.openCtxRegs (d : Dev) (b k slot fmt : Nat) (x : Detection) (time : ShortTime) : Dev :=
  let early := d.get (Reg.BRX_FMT_EARLY_REP b (fmtNo slot fmt)) != 0
  let d := ((d.set (Reg.BRX_CTX_STATE b k) (if early then 1 else 2)).set (Reg.BRX_CTX_SLOT b k) slot).set (Reg.BRX_CTX_FMT b k) fmt
  let d := ((d.set (Reg.BRX_CTX_SEQ b k) x.peak.seq.toNat).bump (Reg.BRX_CTX_GEN b k)).set (Reg.BRX_CTX_METRIC b k) (wrapTo 16 x.metric)
  d.set64 (Reg.BRX_CTX_OPEN_TIME b k) time.toNat

/-- R293, R298: a detection opens context k. -/
def Io.openCtx (s : Io) (b k slot fmt : Nat) (x : Detection) (preempts : Bool) (occasion time : ShortTime) : Io :=
  let d := s.dev.openCtxRegs b k slot fmt x time
  let d := d.setBrxCtx b k { d.brxCtx b k with seq := x.peak.seq, freq := x.peak.freq, timing := x.peak.timing,
                                               drift := x.peak.drift, occasion := occasion }
  let s := { s with dev := d.freeze b slot }
  s.report b { d.ctxReport b k 1 0 0 0 time with flags := x.flags false preempts }

/-- R293: the outcome of one detection. -/
def Io.detect (b slot fmt : Nat) (occasion time : ShortTime) (s : Io) (x : Detection) : Io :=
  let d := s.dev.bump (Reg.BRX_DETECTIONS b)
  let s := { s with dev := d }
  if !d.on (Reg.BRX_FMT_PAYLOAD b (fmtNo slot fmt)) then s.report b (x.bare slot fmt false time)
  else match d.freeCtx b time with
    | some k => s.openCtx b k slot fmt x false occasion time
    | none =>
      let refused : Io := ({ s with dev := (d.bump (Reg.BRX_NO_CONTEXT b)).attend ⟨(Reg.BRX_ATTN b).off, 2, 1⟩ (0x5F8 + b) } : Io).report b
        (x.bare slot fmt true time)
      match d.weakest b with
      | some k =>
        if signed (d.get (Reg.BRX_CTX_METRIC b k)) 16 + (d.get (Reg.BRX_PREEMPT_MARGIN b) : Int) ≤ x.metric then
          let s := s.endCtx b k 3 stPREEMPTED false time
          ({ s with dev := s.dev.bump (Reg.BRX_PREEMPTED b) } : Io).openCtx b k slot fmt x true occasion time
        else refused
      | none => refused

/-- R289: the start of occasion k, j of an entry. -/
def Dev.occasionStart (d : Dev) (b e k j : Nat) : ShortTime :=
  BitVec.ofNat 64 (d.get64 (Reg.BRX_FMT_FIRST b e) + (k * d.get (Reg.BRX_FMT_PERIOD_NS b e) + j * d.get (Reg.BRX_FMT_SUB_NS b e)) * 65536)

/-- R289, R292, R299, R373: does receiver b search occasion k, j (frequency position f) of an entry? -/
def Dev.searches (d : Dev) (b slot e k j f : Nat) : Bool :=
  d.running (brxFn b) && d.domainOn 16 && d.on (Reg.BRX_SLOT_ENABLE b slot) && d.on (Reg.BRX_FMT_ENABLE b e) &&
    d.bit (Reg.BRX_FMT_OCC_MASK b e) j && decide (f < 2 ^ d.get (Reg.BRX_FMT_FDM b e)) &&
    decide (timeDiff (d.occasionStart b e k j) (lookup (fun _ => 0) d.brx.runAt b) ≥ 0) &&
    !d.time.skips.any (fun x => decide (timeDiff (d.occasionStart b e k j) x.1 > 0) && decide (timeDiff x.2 (d.occasionStart b e k j) > 0))

/-- R290–R293: the search of an occasion ends. `time` is the event time of its detections, `until_` the end of its last sample. -/
def occasionEnd (b slot fmt k j f : Nat) (time until_ : ShortTime) (peaks : List Peak) (ext : List Ext) (d : Dev) : Dev :=
  let e := fmtNo slot fmt
  if !d.searches b slot e k j f then d
  else
    let start := d.occasionStart b e k j
    let found := d.detections b slot e peaks
    let d := if found.length ≤ 64 then d else d.add (Reg.BRX_DROPPED b) (found.length - 64)
    let d := if found.isEmpty then d else d.onBrx (fun x => { x with detected := x.detected ++ [(24 * b + slot, start, until_)] })
    ((found.take 64).foldl (Io.detect b slot fmt start time) (Io.ofBlock d ext)).done

/-- R294: an OPEN context at full preamble length. -/
def fullLengthConfirm (b k power : Nat) (time : ShortTime) (ext : List Ext) (d : Dev) : Dev :=
  if d.get (Reg.BRX_CTX_STATE b k) ≠ 1 then d
  else
    let slot := d.get (Reg.BRX_CTX_SLOT b k)
    let m := (d.metricOf b slot power).1
    let d := d.set (Reg.BRX_CTX_METRIC b k) (wrapTo 16 m)
    if (d.get (Reg.BRX_FMT_CONFIRM_THRESH b (fmtNo slot (d.get (Reg.BRX_CTX_FMT b k)))) : Int) ≤ m then
      let d := d.set (Reg.BRX_CTX_STATE b k) 2
      ((Io.ofBlock d ext).report b (d.ctxReport b k 2 0 0 0 time)).done
    else ((Io.ofBlock d ext).endCtx b k 1 stDECODEFAIL true time).done

/-! ### Payload capture (R295) -/

/-- The words of an FD row: as delivered, at EXP 0. A PRB that was not delivered is open. -/
def Io.fdRow (s : Io) (b slot ant symbol prb0 nprb : Nat) : Io × List Word :=
  (upFrom prb0 nprb).foldl (fun acc p =>
    match acc.1.dev.brx.fd.find? (fun x => x.brx == b && x.slot == slot && x.ant == ant && x.symbol == symbol && x.prb == p) with
    | some x => (acc.1, acc.2 ++ x.words)
    | none =>
      (upFrom 0 6).foldl (fun acc _ => let (v, d) := acc.1.dev.drawWord; ({ acc.1 with dev := d }, acc.2 ++ [v])) acc) (s, [0])

/-- The words of a TD row: its exponent, SAT and samples are open. -/
def Io.tdRow (s : Io) (nprb : Nat) : Io × List Word :=
  let (h, d) := s.dev.draw
  (upFrom 0 (6 * nprb)).foldl (fun acc _ => let (v, d) := acc.1.dev.drawWord; ({ acc.1 with dev := d }, acc.2 ++ [v]))
    ({ s with dev := d }, [BitVec.ofNat 72 (h.toNat % 512)])

/-- One row of a capture written at word address a. -/
def Io.captureRow (q : Req) (a : Nat) (s : Io) (row : List Word) : Io :=
  (row.foldl (fun (acc : Io × Nat) v => ((acc.1.write q (8 * acc.2) v false).1, acc.2 + 1)) (s, a)).1

/-- Every row of the capture of context k written into its slot. -/
def Io.capture (s : Io) (b k symbol : Nat) : Io :=
  let d := s.dev
  let slot := d.get (Reg.BRX_CTX_SLOT b k)
  let e := fmtNo slot (d.get (Reg.BRX_CTX_FMT b k))
  let nsym := d.get (Reg.BRX_FMT_PL_NSYM b e)
  let nprb := d.get (Reg.BRX_FMT_PL_NPRB b e)
  let base := d.addr56 (Reg.BRX_CAP_BASE b).off 3 / 8 + k * d.get (Reg.BRX_CAP_STRIDE b)
  (upFrom 0 (d.get (Reg.BRX_SLOT_NANT b slot) * nsym)).foldl (fun s row =>
    let (s, ws) := if d.on (Reg.BRX_SLOT_INPUT b slot)
      then s.fdRow b slot (row / nsym) (symbol + row % nsym) (d.get (Reg.BRX_FMT_PL_PRB b e)) nprb
      else s.tdRow nprb
    s.captureRow (d.brxReq b) (base + row * (1 + 6 * nprb)) ws) s

/-- R295, R298: the capture of CONFIRMED context k is accepted, or a write of it fails. `symbol` is the number (R398) of the first
symbol captured of an FD slot, `time` the end of the payload occasion's last sample. -/
def captureAccepted (b k symbol : Nat) (time : ShortTime) (ext : List Ext) (d : Dev) : Dev :=
  if d.get (Reg.BRX_CTX_STATE b k) ≠ 2 ∨ d.stopped (brxFn b) = true then d
  else
    let s := (Io.ofBlock d ext).capture b k symbol
    match s.stop with
    | some st =>
      let (t, d) := s.dev.draw
      (({ s with dev := d, stop := none } : Io).endCtx b k 5 st false t).done
    | none =>
      let d := (s.dev.set (Reg.BRX_CTX_STATE b k) 3).setBrxCtx b k { s.dev.brxCtx b k with ready := time }
      (({ s with dev := d } : Io).report b (d.ctxReport b k 3 0 0 0 time)).done

/-! ### Releases, hold timeouts and quiet windows -/

/-- Check 5 of R65 for BRX_RELEASE and BRX_QUIET (R296, R303). -/
def Dev.brxJobCheck (d : Dev) (j : Job) : Option Nat :=
  let b := j.bits 32 0 4
  let f := d.jobFunc j
  let release := j.opcode == 0x60
  let badRelease := j.bits 32 4 4 != 0 || j.bits 33 6 2 != 0 || j.bits 36 1 7 != 0 || j.bytes 37 27 != 0
  let badQuiet := j.bits 32 4 4 != 0 || j.bits 33 5 3 != 0 || j.bytes 34 2 != 0 || j.bytes 48 16 != 0 ||
    decide (24 ≤ j.bits 33 0 5) || !d.on (Reg.BRX_SLOT_ENABLE b (j.bits 33 0 5)) ||
    decide (j.bytes 36 4 = 0) || decide (10000000 < j.bytes 36 4)
  firstFail [
    failIf (if release then badRelease else badQuiet) stCONFIG,
    failIf (d.stopped (brxFn b)) stCONFIG,
    failIf (j.world != d.on (Reg.BRX_CFG_SECURE b) || (f != 0 && d.get (Reg.BRX_CFG_FUNC b) != f)) stWORLD]

/-- R296, R298: the end that a release gives context k by its state: status and FALSE; none if it changes nothing. -/
def Dev.releaseEnd (d : Dev) (b k gen : Nat) (crcOk : Bool) : Option (Nat × Bool) :=
  let st := d.get (Reg.BRX_CTX_STATE b k)
  if st = 0 ∨ d.get (Reg.BRX_CTX_GEN b k) ≠ gen then none
  else if st = 3 then some (if crcOk then (stOK, false) else (stDECODEFAIL, true))
  else some (stCANCELLED, false)

/-- R296: BRX_RELEASE, at its admission stamp. -/
def brxRelease (id : Nat) (ext : List Ext) (d : Dev) : Dev :=
  match d.queuedJob id 0x60 with
  | none => d
  | some j =>
    let b := j.bits 32 0 4
    let k := j.bits 33 0 6
    match d.releaseEnd b k (j.bytes 34 2) (j.bits 36 0 1 == 1) with
    | none => (d.bump (Reg.BRX_STALE b)).endJob j stOK 0
    | some (st, fls) => ((Io.ofBlock d ext).endCtx b k 0 st fls j.time).done.endJob j stOK 1

/-- R298: a READY context not released within HOLD_US ends LATE. -/
def holdTimeout (b k : Nat) (ext : List Ext) (d : Dev) : Dev :=
  let t := (d.brxCtx b k).ready + nsTime (1000 * d.get (Reg.BRX_HOLD_US b))
  if d.get (Reg.BRX_CTX_STATE b k) = 3 ∧ d.due t = true then
    ((Io.ofBlock d ext).endCtx b k 2 stLATE false t).done.attend ⟨(Reg.BRX_ATTN b).off, 3, 1⟩ (0x5F8 + b)
  else d

/-- R303: a quiet window is taken up by its receiver. -/
def brxQuiet (id : Nat) (d : Dev) : Dev :=
  match d.queuedJob id 0x61 with
  | some j => d.setJob { j with phase := .running }
  | none => d

/-- R307: samples of a carrier of rate 122.88 MHz / 2^rate with air times START + n × T in [from_, to_), as counted offsets from
START in short time: T is 1,600,000 × 2^rate / 3 units. -/
def samplesIn (rate : Nat) (from_ to_ : Int) : Nat :=
  let p : Int := 1600000 * (2 ^ rate : Nat)
  let before (x : Int) : Int := if x ≤ 0 then 0 else (3 * x + p - 1) / p
  (before to_ - before from_).toNat

/-- R303: the window of a quiet job that counts: its start, no earlier than the admission, and its end. -/
def Job.quietWindow (j : Job) : ShortTime × ShortTime :=
  let start : ShortTime := BitVec.ofNat 64 (j.bytes 40 8)
  let stop := start + nsTime (j.bytes 36 4)
  (if timeDiff j.time start > 0 then j.time else start, stop)

/-- R303: is a quiet window long enough? A TD slot needs 1,024 samples, an FD slot one whole symbol. -/
def Dev.quietLong (d : Dev) (b slot : Nat) (w : ShortTime × ShortTime) (symbols : Nat) : Bool :=
  if d.on (Reg.BRX_SLOT_INPUT b slot) then decide (1 ≤ symbols)
  else
    let r := d.get (Reg.BRX_SLOT_CHAIN0 b slot)
    let start : ShortTime := BitVec.ofNat 64 (d.get64 (Reg.DFE_RX_START r))
    decide (1024 ≤ samplesIn (d.get (Reg.DFE_RX_CAR_RATE r (d.get (Reg.BRX_SLOT_CAR b slot)))) (timeDiff w.1 start) (timeDiff w.2 start))

/-- R303: does a quiet window overlap an occasion in which the slot made a detection? -/
def Dev.quietSpoilt (d : Dev) (b slot : Nat) (w : ShortTime × ShortTime) : Bool :=
  d.brx.detected.any (fun x => x.1 == 24 * b + slot && decide (timeDiff x.2.1 w.2 < 0) && decide (timeDiff w.1 x.2.2 < 0))

/-- R303: a quiet window ends. `powers` are the measured powers of the slot's antennas, `symbols` the symbols of an FD slot that lie
wholly within the window. -/
def quietWindowEnd (id symbols : Nat) (powers : List Nat) (d : Dev) : Dev :=
  match d.executing id 0x61 with
  | none => d
  | some j =>
    let b := j.bits 32 0 4
    let slot := j.bits 33 0 5
    let w := j.quietWindow
    if !d.due w.2 then d
    else if !d.quietLong b slot w symbols then d.endJob j stOK 0x200
    else if d.quietSpoilt b slot w then d.endJob j stOK 0x100
    else
      let ps := powers.take (d.get (Reg.BRX_SLOT_NANT b slot))
      let first := d.get (Reg.BRX_SLOT_FIRST_STREAM b slot)
      let (d, _) := ps.foldl (fun (acc : Dev × Nat) p => (acc.1.addPower b acc.2 p, acc.2 + 1)) (d, first)
      d.endJob j stOK ps.length

/-- OCCASION_END (R290). -/
def execOccasionEnd (b : Fin 16) (slot : Fin 24) (fmt : Fin 8) (k : Nat) (j : Fin 32) (f : Fin 8) (at_ until_ : ShortTime)
    (peaks : List Peak) (ext : List Ext) (s : State) : Host.Outcome State Fault Refusal :=
  s.onDev (occasionEnd b.val slot.val fmt.val k j.val f.val at_ until_ peaks ext)
/-- FULL_LENGTH_CONFIRM (R294). -/
def execFullLengthConfirm (b : Fin 16) (k : Fin 64) (power : Nat) (at_ : ShortTime) (ext : List Ext) (s : State) :
    Host.Outcome State Fault Refusal := s.onDev (fullLengthConfirm b.val k.val power at_ ext)
/-- CAPTURE_ACCEPTED (R295). -/
def execCaptureAccepted (b : Fin 16) (k : Fin 64) (symbol : Nat) (at_ : ShortTime) (ext : List Ext) (s : State) :
    Host.Outcome State Fault Refusal := s.onDev (captureAccepted b.val k.val symbol at_ ext)
/-- BRX_RELEASE (R296). -/
def execBrxRelease (job : Nat) (ext : List Ext) (s : State) : Host.Outcome State Fault Refusal := s.onDev (brxRelease job ext)
/-- HOLD_TIMEOUT (R298). -/
def execHoldTimeout (b : Fin 16) (k : Fin 64) (ext : List Ext) (s : State) : Host.Outcome State Fault Refusal :=
  s.onDev (holdTimeout b.val k.val ext)
/-- BRX_QUIET (R303). -/
def execBrxQuiet (job : Nat) (s : State) : Host.Outcome State Fault Refusal := s.onDev (brxQuiet job)
/-- QUIET_WINDOW_END (R303). -/
def execQuietWindowEnd (job symbols : Nat) (powers : List Nat) (s : State) : Host.Outcome State Fault Refusal :=
  s.onDev (quietWindowEnd job symbols powers)

end Sys2Proof.Machine
end

