-- ==== Sys2Proof/Machine/Aes.lean ====
section
/-! DEFINITION. The algorithms of R415 on lists of bytes (numbers below 256): AES-128 and AES-256 with CTR, CMAC, GCM and the key
wraps KW and KWP, from the standards the manual names (FIPS 197, SP 800-38A/B/D/F, RFC 3394; PRESUMED). -/

namespace Sys2Proof.Machine

/-- Multiplication by x in GF(2^8). -/
def xtime (a : Nat) : Nat := if a < 128 then 2 * a else (2 * a) ^^^ 0x11B

/-- The product in GF(2^8), over the low n bits of b. -/
def gmul (a b : Nat) : Nat → Nat
  | 0 => 0
  | n + 1 => (if b % 2 = 1 then a else 0) ^^^ gmul (xtime a) (b / 2) n

/-- FIPS 197's table of the S-box, as a number of 256 bytes: byte a is the value for a. -/
def aesTable : Nat :=
  0x16bb54b00f2d99416842e6bf0d89a18cdf2855cee9871e9b948ed9691198f8e19e1dc186b95735610ef6034866b53e708a8bbd4b1f74dde8c6b4a61c2e2578ba08ae7a65eaf4566ca94ed58d6d37c8e779e4959162acd3c25c2406490a3a32e0db0b5ede14b8ee4688902a22dc4f816073195d643d7ea7c41744975fec130ccdd2f3ff1021dab6bcf5389d928f40a351a89f3c507f02f94585334d43fbaaefd0cf584c4a39becb6a5bb1fc20ed00d153842fe329b3d63b52a05a6e1b1a2c830975b227ebe28012079a059618c323c7041531d871f1e5a534ccf73f362693fdb7c072a49cafa2d4adf04759fa7dc982ca76abd7fe2b670130c56f6bf27b777c63

/-- The table of the inverse S-box, in the same form. -/
def aesInvTable : Nat :=
  0x7d0c2155631469e126d677ba7e042b17619953833cbbebc8b0f52aae4d3be0a0ef9cc9939f7ae52d0d4ab519a97f51605fec8027591012b131c7078833a8dd1ff45acd78fec0db9a2079d2c64b3e56fc1bbe18aa0e62b76f89c5291d711af1476edf751ce837f9e28535ade72274ac9673e6b4f0cecff297eadc674f4111913a6b8a130103bdafc1020f3fca8f1e2cd00645b3b80558e4f70ad3bc8c00abd890849d8da75746155edab9edfd5048706c92b6655dcc5ca4d41698688664f6f87225d18b6d49a25b76b224d92866a12e084ec3fa420b954cee3d23c2a632947b54cbe9dec444438e3487ff2f9b8239e37cfbd7f3819ea340bf38a53630d56a0952

/-- The S-box of AES. -/
def aesSub (a : Nat) : Nat := (aesTable >>> (8 * a)) % 256

/-- The inverse S-box. -/
def aesInvSub (a : Nat) : Nat := (aesInvTable >>> (8 * a)) % 256

/-- Two lists of bytes combined by exclusive or, as far as the shorter. -/
def xorBytes (a b : List Nat) : List Nat := List.zipWith (· ^^^ ·) a b

/-- A list extended with zeros to a length. -/
def padTo (n : Nat) (a : List Nat) : List Nat := a ++ List.replicate (n - a.length) 0

/-- Rows of the state shifted left by their number; byte 4 c + r is row r of column c. -/
def shiftRows (s : List Nat) : List Nat := (upFrom 0 16).map (fun i => s.getD ((i % 4) + 4 * ((i / 4 + i % 4) % 4)) 0)

/-- The inverse of shiftRows. -/
def invShiftRows (s : List Nat) : List Nat := (upFrom 0 16).map (fun i => s.getD ((i % 4) + 4 * ((i / 4 + 4 - i % 4) % 4)) 0)

/-- Columns multiplied by the circulant of four coefficients below 16. -/
def mixWith (m : List Nat) (s : List Nat) : List Nat :=
  (upFrom 0 16).map (fun i =>
    (upFrom 0 4).foldl (fun acc k => acc ^^^ gmul (s.getD (4 * (i / 4) + k) 0) (m.getD ((k + 4 - i % 4) % 4) 0) 4) 0)

/-- The words of the key schedule after word i − 1, until n words stand. -/
def keyWords (nk : Nat) : Nat → List (List Nat) → List (List Nat)
  | 0, ws => ws
  | n + 1, ws =>
    let i := ws.length
    let t := ws.getD (i - 1) []
    let rc := (upFrom 1 (i / nk - 1)).foldl (fun a _ => xtime a) 1
    let t := if i % nk = 0 then xorBytes ((t.drop 1 ++ t.take 1).map aesSub) [rc, 0, 0, 0]
      else if 6 < nk ∧ i % nk = 4 then t.map aesSub else t
    keyWords nk n (ws ++ [xorBytes (ws.getD (i - nk) []) t])

/-- The round keys of a key of 16 or 32 bytes. -/
def roundKeys (key : List Nat) : List (List Nat) :=
  let nk := key.length / 4
  let ws := keyWords nk (4 * (nk + 7) - nk) ((upFrom 0 nk).map (fun i => (key.drop (4 * i)).take 4))
  (upFrom 0 (nk + 7)).map (fun r => ((ws.drop (4 * r)).take 4).flatten)

/-- AES encryption of a block under round keys. -/
def aesRounds (ks : List (List Nat)) (b : List Nat) : List Nat :=
  let nr := ks.length - 1
  let s := (upFrom 1 (nr - 1)).foldl (fun s r => xorBytes (mixWith [2, 3, 1, 1] (shiftRows (s.map aesSub))) (ks.getD r []))
    (xorBytes b (ks.getD 0 []))
  xorBytes (shiftRows (s.map aesSub)) (ks.getD nr [])

/-- AES decryption of a block under round keys. -/
def aesInvRounds (ks : List (List Nat)) (b : List Nat) : List Nat :=
  let nr := ks.length - 1
  let s := (upFrom 1 (nr - 1)).foldl (fun s r =>
      mixWith [14, 11, 13, 9] (xorBytes ((invShiftRows s).map aesInvSub) (ks.getD (nr - r) [])))
    (xorBytes b (ks.getD nr []))
  xorBytes ((invShiftRows s).map aesInvSub) (ks.getD 0 [])

/-- FIPS 197: AES of a block under a key of 16 or 32 bytes. -/
def aes (key block : List Nat) : List Nat := aesRounds (roundKeys key) block

/-- Bytes, most significant first, as a number. -/
def beNat (b : List Nat) : Nat := b.foldl (fun a x => 256 * a + x) 0

/-- A number as n bytes, most significant first. -/
def natBe (v n : Nat) : List Nat := (upFrom 0 n).map (fun i => v / 256 ^ (n - 1 - i) % 256)

/-- Blocks of 16 bytes, the last as short as it comes; `n` bounds them. -/
def blocks16 : Nat → List Nat → List (List Nat)
  | 0, _ => []
  | n + 1, b => if b.isEmpty then [] else b.take 16 :: blocks16 n (b.drop 16)

/-- CTR: the keystream over data from an initial counter block whose low `w` bits count. -/
def ctrBlocks (ks : List (List Nat)) (w : Nat) : Nat → List (List Nat) → List Nat
  | _, [] => []
  | c, b :: bs => xorBytes b (aesRounds ks (natBe c 16)) ++ ctrBlocks ks w (c / 2 ^ w * 2 ^ w + (c + 1) % 2 ^ w) bs

/-- SP 800-38A: CTR, incrementing the low w bits of the counter block. -/
def aesCtr (key iv : List Nat) (w : Nat) (data : List Nat) : List Nat :=
  ctrBlocks (roundKeys key) w (beNat iv) (blocks16 (data.length / 16 + 1) data)

/-- Doubling of SP 800-38B. -/
def cmacDouble (v : Nat) : Nat := if v < 2 ^ 127 then 2 * v else ((2 * v) % 2 ^ 128) ^^^ 0x87

/-- SP 800-38B: the 16 bytes of AES-CMAC. -/
def aesCmac (key msg : List Nat) : List Nat :=
  let ks := roundKeys key
  let k1 := cmacDouble (beNat (aesRounds ks (List.replicate 16 0)))
  let bs := blocks16 (msg.length / 16 + 1) msg
  let last := bs.getLastD []
  let fin := if last.length = 16 then xorBytes last (natBe k1 16) else xorBytes (padTo 16 (last ++ [0x80])) (natBe (cmacDouble k1) 16)
  let x := (bs.dropLast).foldl (fun x b => aesRounds ks (xorBytes x b)) (List.replicate 16 0)
  aesRounds ks (xorBytes x fin)

/-- The product of SP 800-38D in GF(2^128), over the top n bits of x still to come. -/
def ghMul (x : Nat) : Nat → Nat → Nat → Nat
  | 0, _, z => z
  | n + 1, v, z => ghMul x n (if v % 2 = 1 then (v / 2) ^^^ (0xE1 * 2 ^ 120) else v / 2) (if x / 2 ^ n % 2 = 1 then z ^^^ v else z)

/-- GHASH of a list of blocks. -/
def ghash (h : Nat) (bs : List Nat) : Nat := bs.foldl (fun y b => ghMul (y ^^^ b) 128 h 0) 0

/-- SP 800-38D: the 16-byte tag of GCM over AAD and ciphertext, for a 96-bit IV. -/
def gcmTag (key iv aad ct : List Nat) : List Nat :=
  let ks := roundKeys key
  let h := beNat (aesRounds ks (List.replicate 16 0))
  let words (b : List Nat) : List Nat := (blocks16 (b.length / 16 + 1) b).map (fun x => beNat (padTo 16 x))
  let s := ghash h (words aad ++ words ct ++ [aad.length * 8 * 2 ^ 64 + ct.length * 8])
  xorBytes (natBe s 16) (aesRounds ks (iv.take 12 ++ [0, 0, 0, 1]))

/-- SP 800-38D: GCM's keystream over data. -/
def gcmCipher (key iv data : List Nat) : List Nat := aesCtr key (iv.take 12 ++ [0, 0, 0, 2]) 32 data

/-- One unwrapping step of RFC 3394: A, then the registers R[1..n] of 8 bytes. -/
def unwrapStep (ks : List (List Nat)) (n : Nat) (st : List Nat × List (List Nat)) (t : Nat) : List Nat × List (List Nat) :=
  let i := (t - 1) % n
  let b := aesInvRounds ks (xorBytes st.1 (natBe t 8) ++ st.2.getD i [])
  (b.take 8, st.2.set i (b.drop 8))

/-- One wrapping step of RFC 3394. -/
def wrapStep (ks : List (List Nat)) (n : Nat) (st : List Nat × List (List Nat)) (t : Nat) : List Nat × List (List Nat) :=
  let i := (t - 1) % n
  let b := aesRounds ks (st.1 ++ st.2.getD i [])
  (xorBytes (b.take 8) (natBe t 8), st.2.set i (b.drop 8))

/-- The registers of 8 bytes of a text. -/
def octets8 (b : List Nat) : List (List Nat) := (upFrom 0 (b.length / 8)).map (fun i => (b.drop (8 * i)).take 8)

/-- RFC 3394: the integrity value and the text unwrapped from a ciphertext. -/
def kwUnwrapRaw (key ct : List Nat) : List Nat × List Nat :=
  let ks := roundKeys key
  let rs := octets8 (ct.drop 8)
  let n := rs.length
  let r := ((upFrom 1 (6 * n)).reverse).foldl (unwrapStep ks n) (ct.take 8, rs)
  (r.1, r.2.flatten)

/-- RFC 3394: a text wrapped under an integrity value. -/
def kwWrapRaw (key iv pt : List Nat) : List Nat :=
  let ks := roundKeys key
  let rs := octets8 pt
  let n := rs.length
  let r := (upFrom 1 (6 * n)).foldl (wrapStep ks n) (iv, rs)
  r.1 ++ r.2.flatten

/-- RFC 3394 (KW): the text, if the integrity value is right. -/
def kwUnwrap (key ct : List Nat) : Option (List Nat) :=
  let r := kwUnwrapRaw key ct
  if r.1 = List.replicate 8 0xA6 then some r.2 else none

/-- SP 800-38F (KWP) for a text whose length is a multiple of 8 and at least 16: the text, if the integrity value is right. -/
def kwpUnwrap (key ct : List Nat) : Option (List Nat) :=
  let r := kwUnwrapRaw key ct
  if r.1 = [0xA6, 0x59, 0x59, 0xA6] ++ natBe r.2.length 4 then some r.2 else none

/-- SP 800-38F (KWP): wrapping of such a text. -/
def kwpWrap (key pt : List Nat) : List Nat := kwWrapRaw key ([0xA6, 0x59, 0x59, 0xA6] ++ natBe pt.length 4) pt

/-- Bytes as numbers. -/
def toNats (b : List Byte) : List Nat := b.map (·.toNat)
/-- Numbers as bytes. -/
def ofNats (b : List Nat) : List Byte := b.map (BitVec.ofNat 8)

end Sys2Proof.Machine
end

