-- ==== Sys2Proof/Machine/Snow.lean ====
section
/-! DEFINITION. The 3GPP algorithms of R415 on lists of bytes (numbers below 256): 128-NEA1 and 128-NIA1 over SNOW 3G, 128-NEA2 and 128-NIA2
over AES, and 128-NEA3 and 128-NIA3 over ZUC, from the standard the manual names (TS 33.401 with its specifications of SNOW 3G and ZUC;
PRESUMED). Words are 32 bits. -/

namespace Sys2Proof.Machine

/-- The sum of two words. -/
def add32 (a b : Nat) : Nat := (a + b) % 2 ^ 32

/-- A number below 2^w rotated left by k. -/
def rotLeft (w x k : Nat) : Nat := (x * 2 ^ k) % 2 ^ w + x / 2 ^ (w - k)

/-- Byte k of a word, 0 the most significant. -/
def byteOf (w k : Nat) : Nat := w / 256 ^ (3 - k) % 256

/-- Entry x of a table of 256 bytes written as a number, entry 0 in its low byte. -/
def tableAt (t x : Nat) : Nat := (t >>> (8 * x)) % 256

/-- The words of a list of bytes, most significant byte first. -/
def wordsBe : List Nat → List Nat
  | a :: b :: c :: d :: r => beNat [a, b, c, d] :: wordsBe r
  | _ => []

/-! ### SNOW 3G -/

/-- SNOW 3G: the S-box SQ. -/
def snowTable : Nat :=
  0x86f0d0096ca81990a3959e1ec977e1563a10183e9bc03b98de1233ec72fb99ad2b34766126ab91741659c42adaf96fdf9c87b114e79dc80438e00b546bafc7d9bd2d5805a17ca594d327fd602c357563531f3f8bbfa7d6798cf717b7eaf6ce0600a032816697d5f23df3b8f1390c3c03dcf80af562b68a50fc0d7ed1a91c9aeb5a5bff927a69234ec51a551d52080fbcfa96363722314543cfe68ffe93e5b08df421714d6dbbc6bacd41b4134268a283644c209fc3be7fc27b44ddefb34601cad489aa51c10e4b072947022ea68580b2b91b154ae3acd25728112f40edcce9d8e265845e5fe88870786a5d4f49488ee4db82b57dcb6eeea4305caed767732425

/-- SNOW 3G: a byte times x, reduced by c. -/
def mulX (c v : Nat) : Nat := if v < 128 then 2 * v else ((2 * v) % 256) ^^^ c

/-- A byte times x to the power n. -/
def mulXPow (c v : Nat) : Nat → Nat
  | 0 => v
  | n + 1 => mulXPow c (mulX c v) n

/-- The 32-bit S-boxes S1 (the table of AES, 0x1B) and S2 (SQ, 0x69). -/
def snowBox (table c w : Nat) : Nat :=
  let t (k : Nat) : Nat := tableAt table (byteOf w k)
  let r (k : Nat) : Nat := mulX c (t k) ^^^ t ((k + 1) % 4) ^^^ t ((k + 2) % 4) ^^^ mulX c (t ((k + 3) % 4)) ^^^ t ((k + 3) % 4)
  beNat [r 0, r 1, r 2, r 3]

/-- Multiplication and division by alpha of a byte, as words. -/
def mulAlpha (c : Nat) : Nat := beNat ([23, 245, 48, 239].map (mulXPow 0xA9 c))
/-- Division. -/
def divAlpha (c : Nat) : Nat := beNat ([16, 39, 6, 64].map (mulXPow 0xA9 c))

/-- The shift register s0 to s15 and the registers R1 to R3. -/
structure Snow where
  s : List Nat
  r1 : Nat
  r2 : Nat
  r3 : Nat

/-- The finite state machine clocked: its word, and the new state. -/
def Snow.fsm (x : Snow) : Nat × Snow :=
  (add32 (x.s.getD 15 0) x.r1 ^^^ x.r2,
    { x with r1 := add32 x.r2 (x.r3 ^^^ x.s.getD 5 0), r2 := snowBox aesTable 0x1B x.r1, r3 := snowBox snowTable 0x69 x.r2 })

/-- The shift register clocked with a word f. -/
def Snow.shift (x : Snow) (f : Nat) : Snow :=
  let s0 := x.s.getD 0 0
  let s11 := x.s.getD 11 0
  { x with s := x.s.drop 1 ++ [(s0 * 256) % 2 ^ 32 ^^^ mulAlpha (s0 / 2 ^ 24) ^^^ x.s.getD 2 0 ^^^ s11 / 256 ^^^ divAlpha (s11 % 256) ^^^ f] }

/-- One clock of the initialisation. -/
def Snow.initStep (x : Snow) : Snow := x.fsm.2.shift x.fsm.1

/-- One clock of the generation: the keystream word, and the new state. -/
def Snow.next (x : Snow) : Nat × Snow := (x.fsm.1 ^^^ x.s.getD 0 0, x.fsm.2.shift 0)

/-- The state loaded with a key of four words, k3 first, and an IV, IV0 first. -/
def Snow.load (key iv : List Nat) : Snow :=
  let k (i : Nat) : Nat := key.getD (3 - i) 0
  let v (i : Nat) : Nat := iv.getD i 0
  let n (i : Nat) : Nat := k i ^^^ 0xFFFFFFFF
  { s := [n 0, n 1, n 2, n 3, k 0, k 1, k 2, k 3, n 0, n 1 ^^^ v 3, n 2 ^^^ v 2, n 3, k 0 ^^^ v 1, k 1, k 2, k 3 ^^^ v 0], r1 := 0, r2 := 0, r3 := 0 }

/-- n words of keystream. -/
def snowWords (key iv : List Nat) (n : Nat) : List Nat :=
  let x := (upFrom 0 32).foldl (fun x _ => x.initStep) (Snow.load key iv)
  ((upFrom 0 n).foldl (fun (a : List Nat × Snow) _ => (a.1 ++ [a.2.next.1], a.2.next.2)) ([], x.fsm.2.shift 0)).1

/-- 128-NIA1: a product in GF(2^64), the second factor's bits from the top. -/
def mul64 (v p : Nat) : Nat :=
  (upFrom 0 64).foldl (fun r i =>
    (if r < 2 ^ 63 then 2 * r else ((2 * r) % 2 ^ 64) ^^^ 0x1B) ^^^ (if p / 2 ^ (63 - i) % 2 = 1 then v else 0)) 0

/-- The blocks of 8 bytes of a message, the last one filled with zeros, as numbers. -/
def blocks8 (msg : List Nat) : List Nat := (upFrom 0 ((msg.length + 7) / 8)).map (fun i => beNat (padTo 8 ((msg.drop (8 * i)).take 8)))

/-- 128-NIA1 with the words of FRESH (BEARER in its top five bits): the MAC as a word. -/
def snowMac (key : List Nat) (count fresh dir : Nat) (msg : List Nat) : Nat :=
  let z := snowWords (wordsBe key) [fresh ^^^ (dir * 2 ^ 15), count ^^^ (dir * 2 ^ 31), fresh, count] 5
  let p := z.getD 0 0 * 2 ^ 32 + z.getD 1 0
  let q := z.getD 2 0 * 2 ^ 32 + z.getD 3 0
  mul64 ((blocks8 msg).foldl (fun e m => mul64 (e ^^^ m) p) 0 ^^^ (8 * msg.length)) q / 2 ^ 32 ^^^ z.getD 4 0

/-! ### ZUC -/

/-- ZUC: the S-box S0. -/
def zucTable0 : Nat :=
  0x603478eedf197a45f4a0b381db1a278d65a9e8a1b770ea300c3f05256b77838e0fe2c440d63d1571629e6850d236faf6f19f93c26ca244e667e7022abeab860e23aa9c74f512754259ec5c646611dcd05de9e5e1f29418c0fba3b08a889526bcfe104ca66179413552972b0bf07ebf075696c3c7893ccc7c2813220af737b4b1c82f6f803ad7878f9adec9eb46da4b3badd3012eaed8ff8c1f2492a817d5164a1c58ba5f4951820da45a7f4f315eefe39b55062114bb2cf3c557edcfa7b27d7638d4206339fdbdb5c66943731ef8c1cdac6e298b4885b6dd91d9cee499844e4d900353081dfc2db8a56a9daf32f91b7bcb6db9099854d1043300e0ca475b723e

/-- ZUC: the S-box S1. -/
def zucTable1 : Nat :=
  0xf2e20312afac25b0d78a592f9b85be64280465321fd3ca7b6c603df37c98b188340e7eba0a0733c4359231411e546a5a21ffe774f7802c1bec186be651eaefa3dec3794a02f0cca06fb40fedcec791d0e495b85090159978385fa22458bdb6018949cde01cb99d82ab9e835e75a5374de9d1e8971d6e462df4fc0dcb2eaef1ada9db5d8f934be54e8e19b2613f70b7ee09087367307dd523fb1714a15cd8532beb7a8dd6fedf9a4fbca4579cd24c847f87d4f569bb5227f6cfc1c936061120dd4862fa0bdcbf662205b36dc02a56b53ae143398ba7c676103e45d9819668264442f8f9407216a8e300131aa60c94c58c77fdaa295bda3c9f8647c83b7163c255

/-- ZUC: the constants of the key loading. -/
def zucD : List Nat := [0x44D7, 0x26BC, 0x626B, 0x135E, 0x5789, 0x35E2, 0x7135, 0x09AF, 0x4D78, 0x2F13, 0x6BC4, 0x1AF1, 0x5E26, 0x3C4D, 0x789A, 0x47AC]

/-- A sum modulo 2^31 − 1. -/
def add31 (a b : Nat) : Nat := (a + b) % 2 ^ 31 + (a + b) / 2 ^ 31

/-- The linear transforms L1 and L2, by the rotations they combine. -/
def zucMix (rs : List Nat) (x : Nat) : Nat := rs.foldl (fun a k => a ^^^ rotLeft 32 x k) x

/-- The 32-bit S-box. -/
def zucBox (x : Nat) : Nat :=
  beNat [tableAt zucTable0 (byteOf x 0), tableAt zucTable1 (byteOf x 1), tableAt zucTable0 (byteOf x 2), tableAt zucTable1 (byteOf x 3)]

/-- The shift register of 31-bit cells s0 to s15 and the registers R1 and R2. -/
structure Zuc where
  s : List Nat
  r1 : Nat
  r2 : Nat

/-- Bit reorganisation: the upper half of one cell over the lower half of another. -/
def Zuc.half (x : Zuc) (hi lo : Nat) : Nat := (x.s.getD hi 0 / 2 ^ 15) * 2 ^ 16 + x.s.getD lo 0 % 2 ^ 16
/-- The lower half of one cell over the upper half of another. -/
def Zuc.cross (x : Zuc) (lo hi : Nat) : Nat := (x.s.getD lo 0 % 2 ^ 16) * 2 ^ 16 + x.s.getD hi 0 / 2 ^ 15

/-- The nonlinear function F: its word, and the new registers. -/
def Zuc.f (x : Zuc) : Nat × Zuc :=
  let w1 := add32 x.r1 (x.cross 11 9)
  let w2 := x.r2 ^^^ x.cross 7 5
  (add32 (x.half 15 14 ^^^ x.r1) x.r2,
    { x with r1 := zucBox (zucMix [2, 10, 18, 24] ((w1 % 2 ^ 16) * 2 ^ 16 + w2 / 2 ^ 16)),
             r2 := zucBox (zucMix [8, 14, 22, 30] ((w2 % 2 ^ 16) * 2 ^ 16 + w1 / 2 ^ 16)) })

/-- The shift register clocked with a word u. -/
def Zuc.shift (x : Zuc) (u : Nat) : Zuc :=
  let c (i k : Nat) : Nat := rotLeft 31 (x.s.getD i 0) k
  let v := [c 0 8, c 4 20, c 10 21, c 13 17, c 15 15, u].foldl add31 (x.s.getD 0 0)
  { x with s := x.s.drop 1 ++ [if v = 0 then 2 ^ 31 - 1 else v] }

/-- n words of keystream for a key and an IV of 16 bytes. -/
def zucWords (key iv : List Nat) (n : Nat) : List Nat :=
  let x : Zuc := { s := (upFrom 0 16).map (fun i => key.getD i 0 * 2 ^ 23 + zucD.getD i 0 * 2 ^ 8 + iv.getD i 0), r1 := 0, r2 := 0 }
  let x := (upFrom 0 32).foldl (fun (x : Zuc) _ => x.f.2.shift (x.f.1 / 2)) x
  ((upFrom 0 n).foldl (fun (a : List Nat × Zuc) _ => (a.1 ++ [a.2.f.1 ^^^ a.2.cross 2 0], a.2.f.2.shift 0)) ([], x.f.2.shift 0)).1

/-- 128-NIA3: the 32 bits of keystream from bit i. -/
def zucWindow (z : List Nat) (i : Nat) : Nat := ((z.getD (i / 32) 0 * 2 ^ 32 + z.getD (i / 32 + 1) 0) / 2 ^ (32 - i % 32)) % 2 ^ 32

/-- 128-NIA3: the MAC as a word. -/
def zucMac (key : List Nat) (count bearer dir : Nat) (msg : List Nat) : Nat :=
  let c := natBe count 4
  let iv := c ++ [bearer * 8, 0, 0, 0] ++ [c.getD 0 0 ^^^ (dir * 128)] ++ c.drop 1 ++ [bearer * 8, 0, dir * 128, 0]
  let bits := 8 * msg.length
  let n := (bits + 31) / 32 + 2
  let z := zucWords key iv n
  let t := (upFrom 0 bits).foldl (fun t i => if msg.getD (i / 8) 0 / 2 ^ (7 - i % 8) % 2 = 1 then t ^^^ zucWindow z i else t) 0
  t ^^^ zucWindow z bits ^^^ z.getD (n - 1) 0

/-! ### The algorithms of R416 -/

/-- A payload combined with the bytes of keystream words. -/
def streamed (z data : List Nat) : List Nat :=
  let ks := (z.map (fun w => natBe w 4)).flatten
  (upFrom 0 data.length).map (fun i => data.getD i 0 ^^^ ks.getD i 0)

/-- A 3GPP ciphering algorithm (R416): 0 NEA0, 1 to 3 128-NEA1 to 128-NEA3, over whole bytes. -/
def neaCipher (alg : Nat) (key : List Nat) (count bearer dir : Nat) (data : List Nat) : List Nat :=
  let n := (data.length + 3) / 4
  match alg with
  | 0 => data
  | 1 =>
    let v := bearer * 2 ^ 27 + dir * 2 ^ 26
    streamed (snowWords (wordsBe key) [v, count, v, count] n) data
  | 2 => aesCtr key (natBe (count * 2 ^ 32 + (bearer * 2 + dir) * 2 ^ 26) 8 ++ List.replicate 8 0) 64 data
  | _ =>
    let half := natBe count 4 ++ [bearer * 8 + dir * 4, 0, 0, 0]
    streamed (zucWords key (half ++ half) n) data

/-- A 3GPP integrity algorithm: the 4 bytes of MAC-I (R416). -/
def niaMac (alg : Nat) (key : List Nat) (count bearer dir : Nat) (msg : List Nat) : List Nat :=
  match alg with
  | 0 => [0, 0, 0, 0]
  | 1 => natBe (snowMac key count (bearer * 2 ^ 27) dir msg) 4
  | 2 => (aesCmac key (natBe (count * 2 ^ 32 + (bearer * 2 + dir) * 2 ^ 26) 8 ++ msg)).take 4
  | _ => natBe (zucMac key count bearer dir msg) 4

end Sys2Proof.Machine
end

