-- ==== Sys2Proof/Machine/Cabinet.lean ====
section
/-! DEFINITION. The cabinet (R407, R412), the end of cipher jobs (R420, R426), zeroisation (R413) and mismatches of duplicated
datapaths (R421, R422). -/

namespace Sys2Proof.Machine

/-- An EMPTY drawer. -/
def Drawer.empty : Drawer :=
  { loaded := false, cls := 0, usage := 0, secure := false, keyId := 0, key := 0, uses := 0, grants := 0 }

/-- The security data replaced. -/
def Dev.onSec (d : Dev) (f : SecState → SecState) : Dev := { d with sec := f d.sec }

/-- Drawer i. -/
def Dev.drawer (d : Dev) (i : Nat) : Drawer := lookup (fun _ => Drawer.empty) d.sec.drawers i

/-- Drawer i replaced; SEC_STATUS.LOADED follows. -/
def Dev.setDrawer (d : Dev) (i : Nat) (x : Drawer) : Dev :=
  let d := d.onSec (fun s => { s with drawers := update (fun _ => Drawer.empty) s.drawers i x })
  d.set Reg.SEC_STATUS_LOADED (d.sec.drawers.filter (fun y => y.2.loaded)).length

/-- R437: the SAs of port n: drawer and EN of the transmit SAs, then of the receive SAs. -/
def Dev.portSas (d : Dev) (n : Nat) : List (Nat × Bool) :=
  (upFrom 0 4).map (fun a => (d.get (Reg.MS_TXSA_DRAWER n a), d.on (Reg.MS_TXSA_EN n a))) ++
  (upFrom 0 16).map (fun k => (d.get (Reg.MS_RXSA_DRAWER n (k / 4) (k % 4)), d.on (Reg.MS_RXSA_EN n (k / 4) (k % 4))))

/-- R412: is drawer i in use: counted by a job, or bound to an enabled SA of a port in RUN? -/
def Dev.drawerInUse (d : Dev) (i : Nat) : Bool :=
  (d.drawer i).uses != 0 ||
    (upFrom 0 16).any (fun n => d.running (.eth (Fin.ofNat 16 n)) && (d.portSas n).any (fun x => x.2 && x.1 == i))

/-- R417: DRAWER. -/
def Job.drawer (j : Job) : Nat := j.bytes 32 1
/-- R417: DRAWER2. -/
def Job.drawer2 (j : Job) : Nat := j.bytes 33 1
/-- R417: C_ALG. -/
def Job.cAlg (j : Job) : Nat := j.bits 34 0 2
/-- R417: I_ALG. -/
def Job.iAlg (j : Job) : Nat := j.bits 34 2 2
/-- R417: DIR, true for 1. -/
def Job.cDir (j : Job) : Bool := j.bits 34 4 1 == 1
/-- R417: TAG_LEN. -/
def Job.tagLen (j : Job) : Nat := j.bits 35 0 5
/-- R417: LEN. -/
def Job.cLen (j : Job) : Nat := j.bytes 36 3
/-- R417: QWIN. -/
def Job.qwin (j : Job) : Nat := j.bits 39 0 5
/-- R417: AAD_LEN. -/
def Job.aadLen (j : Job) : Nat := j.bytes 40 2
/-- R417: SRC. -/
def Job.cSrc (j : Job) : Nat := j.bits 48 0 56
/-- R417: DST. -/
def Job.cDst (j : Job) : Nat := j.bits 56 0 56

/-- R416: is it a cipher job? -/
def Job.isCipher (j : Job) : Bool := decide (0x80 ≤ j.opcode) && decide (j.opcode ≤ 0x85)

/-- R416, R417: the drawers a cipher job names. NEA0 and NIA0 use no key, but DRAWER is named all the same. -/
def Job.drawers (j : Job) : List Nat :=
  if j.opcode = 0x85 ∧ j.iAlg ≠ 0 then [j.drawer, j.drawer2] else [j.drawer]

/-- The cipher job of a number, if it is admitted and not ended. -/
def Dev.ciphJob (d : Dev) (id : Nat) : Option CiphJob := d.sec.jobs.find? (fun x => x.job == id)

/-- A drawer's use count lowered (R412). -/
def Dev.unuse (d : Dev) (i : Nat) : Dev := let x := d.drawer i; d.setDrawer i { x with uses := x.uses - 1 }

/-- R412, R426: a cipher job leaves the engine: use counts, hold slot and window. -/
def Dev.ciphLeave (d : Dev) (id : Nat) : Dev :=
  match d.ciphJob id with
  | none => d
  | some c =>
    let d := (d.each (c.keys.map (·.1)) Dev.unuse).onSec (fun s => { s with jobs := s.jobs.filter (fun x => x.job != id) })
    match c.window with
    | some w => d.set (Reg.SEC_QW_STATE w) (if d.on (Reg.SEC_QW_EN w) then 1 else 0)
    | none => d

/-- An attention bit of desk f. -/
def Dev.deskAttend (d : Dev) (f bit : Nat) : Dev := d.attend ⟨(Reg.CIPH_DESK_ATTN f).off, bit, 1⟩ 0x611

/-- R420, R426, R436: a cipher job ends with a status; its desk counts it. -/
def Dev.ciphEnd (d : Dev) (j : Job) (status result : Nat) : Dev :=
  let f := j.desk
  let d := match d.ciphJob j.id with
    | some c => match c.window with
      | some w => if status = stTAGFAIL then d.bump (Reg.SEC_QW_TAG_FAILS w) else d
      | none => d
    | none => d
  let d := (d.ciphLeave j.id).bump (Reg.CIPH_DESK_JOBS f)
  let d := d.iff (status == stTAGFAIL) (fun d => (d.bump (Reg.CIPH_DESK_TAG_FAILS f)).deskAttend f 0)
  let d := d.iff (status == stCIPHERFAULT) (fun d =>
    (d.attend ⟨Reg.CIPH_ATTN.off, 1, 1⟩ 0x610).deskAttend f 1)
  d.endJob j status result

/-- R413: drawers are zeroised: EMPTY, without grants, and every job in flight that names one ends CIPHER_FAULT. The desks granted
one of them see ZEROISED. -/
def Dev.zeroise (d : Dev) (which : Nat → Bool) : Dev :=
  let hit := d.jfe.jobs.filter (fun j => j.isCipher && j.open_ && j.drawers.any which)
  let desks := (upFrom 0 64).filter (fun f => d.sec.drawers.any (fun x => which x.1 && x.2.grants.getLsbD f))
  let d := d.each hit (fun d j => d.ciphEnd j stCIPHERFAULT 0)
  let d := d.onSec (fun s => { s with drawers := s.drawers.filter (fun x => !which x.1) })
  let d := d.set Reg.SEC_STATUS_LOADED (d.sec.drawers.filter (fun y => y.2.loaded)).length
  d.each desks (fun d f => d.deskAttend f 2)

/-- R422: mismatches within the last WINDOW_MS, this one among them. -/
def Dev.recentFaults (d : Dev) : List ShortTime :=
  (d.now :: d.sec.faults).filter (fun t =>
    decide (timeDiff d.now t ≤ ((d.get Reg.SEC_FAULT_LIMIT_WINDOW_MS * 1000000 * 65536 : Nat) : Int)))

/-- R421, R422: a mismatch: counted, for the desk concerned if there is one; at the limit the drawers in use are zeroised and the
window starts again. -/
def Dev.mismatch (d : Dev) (desk : Option Nat) : Dev :=
  let d := d.bump Reg.CIPH_FAULTS
  let d := match desk with
    | some f => d.bump (Reg.CIPH_DESK_FAULTS f)
    | none => d
  let ts := d.recentFaults
  if d.get Reg.SEC_FAULT_LIMIT_COUNT ≤ ts.length then
    let d := (d.onSec (fun s => { s with faults := [] })).zeroise d.drawerInUse
    (d.attend ⟨Reg.CIPH_ATTN.off, 2, 1⟩ 0x610).raise 0x7E2
  else d.onSec (fun s => { s with faults := ts })

/-- A key of a drawer as bytes: 16 for classes 1 and 3, 32 for the others. -/
def Drawer.bytes (x : Drawer) : List Nat := toNats (leBytes x.key.toNat (if x.cls = 1 ∨ x.cls = 3 then 16 else 32))

end Sys2Proof.Machine
end

