-- ==== Sys2Proof/Machine/Macsec.lean ====
section
/-! DEFINITION. The MACsec stage of an Ethernet port (R427, R428): protection of a frame that departs and verification of a frame that
is received. Frame fields and the GCM parameters are those of IEEE 802.1AE, which the manual names (PRESUMED). -/

namespace Sys2Proof.Machine

/-- The EtherType of a frame. -/
def etherType (bs : List Byte) : Nat := ofBE (sliceBytes bs 12 2)

/-- R427: is the frame's EtherType exempt at port n? -/
def Dev.msExempt (d : Dev) (n : Nat) (bs : List Byte) : Bool :=
  (upFrom 0 4).any (fun e => d.on (Reg.MS_EXEMPT_EN n e) && d.get (Reg.MS_EXEMPT_ETYPE n e) == etherType bs)

/-- R407, R413, R427: the key of drawer i for the suite of port n, if the drawer may serve it. -/
def Dev.msKey (d : Dev) (n i : Nat) : Option (List Nat) :=
  let x := d.drawer i
  if x.loaded && x.cls == 1 + d.get (Reg.MS_SUITE n) % 2 && x.usage.getLsbD 4 && !x.secure then some x.bytes else none

/-- Is the suite of port n an XPN suite? -/
def Dev.msXpn (d : Dev) (n : Nat) : Bool := decide (2 ≤ d.get (Reg.MS_SUITE n))

/-- The 96-bit IV: SCI and PN, or, for XPN, SSCI and the 64-bit PN with SALT. -/
def msIv (xpn : Bool) (sci pn ssci salt : Nat) : List Nat :=
  if xpn then xorBytes (natBe ssci 4 ++ natBe pn 8) (natBe salt 12) else natBe sci 8 ++ natBe (pn % 2 ^ 32) 4

/-- SALT of an SA whose first word is at `off`: 96 bits, the low word first. -/
def Dev.msSalt (d : Dev) (off : Nat) : Nat :=
  (d.word off).toNat + (d.word (off + 4)).toNat * 2 ^ 32 + (d.word (off + 8)).toNat * 2 ^ 64

/-- R427: a frame is dropped by the MACsec stage. -/
def Dev.msDrop (d : Dev) (n : Nat) : Dev :=
  (d.bump (Reg.ETH_PORT_MACSEC_DROPS n)).attend ⟨(Reg.ETH_PORT_ATTN n).off, 4, 1⟩ (0x6E0 + n)

/-- R428: the highest packet number of a suite. -/
def msLimit (xpn : Bool) : Nat := if xpn then 2 ^ 64 - 1 else 2 ^ 32 - 1

/-- An MS.ATTN bit. -/
def Dev.msAttend (d : Dev) (n bit : Nat) : Dev := d.attend ⟨(Reg.MS_ATTN n).off, bit, 1⟩ 0x610

/-- R428: transmit SA a of port n takes its next packet number. -/
def Dev.msNextPn (d : Dev) (n a : Nat) : Dev :=
  let pn := d.get64 (Reg.MS_TXSA_PN n a)
  let q := 3 * msLimit (d.msXpn n) / 4
  let d := d.set64 (Reg.MS_TXSA_PN n a) (pn + 1)
  if pn ≤ q ∧ q < pn + 1 then d.msAttend n 0 else d

/-- R427: the bytes of a protected frame: addresses, SecTAG with SCI, the encrypted rest, ICV. -/
def msSeal (key iv sci : List Nat) (an pn : Nat) (bs : List Nat) : List Nat :=
  let rest := bs.drop 12
  let tag := [0x88, 0xE5, 0x2C + an, if rest.length < 48 then rest.length else 0] ++ natBe (pn % 2 ^ 32) 4 ++ sci
  let aad := bs.take 12 ++ tag
  let ct := gcmCipher key iv rest
  aad ++ ct ++ gcmTag key iv aad ct

/-- R427, R428: a departing frame of port n is protected, or dropped: none. -/
def Dev.msSend (d : Dev) (n : Nat) (bs : List Byte) (mismatch : Bool) : Dev × Option (List Byte) :=
  if !d.on (Reg.ETH_PORT_CFG_MACSEC_EN n) || d.msExempt n bs then (d, some bs)
  else
    let a := d.get (Reg.MS_TX_AN n)
    let pn := d.get64 (Reg.MS_TXSA_PN n a)
    match d.msKey n (d.get (Reg.MS_TXSA_DRAWER n a)) with
    | none => (d.msDrop n, none)
    | some key =>
      if !d.on (Reg.MS_TXSA_EN n a) then (d.msDrop n, none)
      else if msLimit (d.msXpn n) ≤ pn then ((d.msAttend n 1).msDrop n, none)
      else
        let sci := d.get64 (Reg.MS_SCI n)
        let iv := msIv (d.msXpn n) sci pn (d.get (Reg.MS_TXSA_SSCI n a)) (d.msSalt (Reg.MS_TXSA_SALT0 n a).off)
        let d := d.msNextPn n a
        if mismatch then ((d.mismatch none).msDrop n, none)
        else (d, some (ofNats (msSeal key iv (natBe sci 8) a pn (toNats bs))))

/-- The receive SC of port n with an SCI, if it is enabled. -/
def Dev.msSc (d : Dev) (n sci : Nat) : Option Nat :=
  (upFrom 0 4).find? (fun c => d.on (Reg.MS_RXSC_EN n c) && d.get64 (Reg.MS_RXSC_SCI n c) == sci)

/-- The 64-bit packet number of a received frame of an XPN suite, from the lowest acceptable one. -/
def recoverPn (low pn : Nat) : Nat :=
  let hi := low / 2 ^ 32
  if pn < 2 ^ 31 ∧ 2 ^ 31 ≤ low % 2 ^ 32 then (hi + 1) * 2 ^ 32 + pn else hi * 2 ^ 32 + pn

/-- R427: an accepted packet number moves LOWEST_PN of a receive SA with the replay window. -/
def Dev.msAdvance (d : Dev) (n c a pn : Nat) : Dev :=
  let low := d.get64 (Reg.MS_RXSA_PN n c a)
  d.set64 (Reg.MS_RXSA_PN n c a) (max low (pn + 1 - d.get (Reg.MS_REPLAY_WINDOW n)))

/-- R427: the plaintext of a protected frame, if its ICV is right: encrypted (E and C set) or only authenticated. -/
def msOpen (key iv : List Nat) (bs : List Nat) : Option (List Nat) :=
  let body := bs.drop 28
  let ct := body.take (body.length - 16)
  let icv := body.drop (body.length - 16)
  let ec := bs.getD 14 0 / 4 % 4
  if body.length < 16 then none
  else if ec = 3 then
    if gcmTag key iv (bs.take 28) ct = icv then some (bs.take 12 ++ gcmCipher key iv ct) else none
  else if ec = 0 then if gcmTag key iv (bs.take 28 ++ ct) [] = icv then some (bs.take 12 ++ ct) else none
  else none

/-- R427: a received frame of port n is verified, or dropped: none. The second part says whether it was protected. -/
def Dev.msReceive (d : Dev) (n : Nat) (bs : List Byte) (mismatch : Bool) : Dev × Option (List Byte) × Bool :=
  if !d.on (Reg.ETH_PORT_CFG_MACSEC_EN n) || d.msExempt n bs then (d, some bs, false)
  else
    let x := toNats bs
    let tci := x.getD 14 0
    let an := tci % 4
    let noSa := ((d.bump (Reg.MS_RX_NO_SA n)).msDrop n, (none : Option (List Byte)), true)
    if etherType bs ≠ 0x88E5 ∨ tci / 128 ≠ 0 ∨ tci / 32 % 2 = 0 then (d.msDrop n, none, true)
    else match d.msSc n (beNat ((x.drop 20).take 8)) with
      | none => noSa
      | some c =>
        match d.msKey n (d.get (Reg.MS_RXSA_DRAWER n c an)) with
        | none => noSa
        | some key =>
          if !d.on (Reg.MS_RXSA_EN n c an) then noSa
          else
            let low := d.get64 (Reg.MS_RXSA_PN n c an)
            let pn32 := beNat ((x.drop 16).take 4)
            let pn := if d.msXpn n then recoverPn low pn32 else pn32
            if d.on (Reg.MS_REPLAY_PROTECT n) && decide (pn < low) then ((d.bump (Reg.MS_RX_REPLAY n)).msDrop n, none, true)
            else if mismatch then ((d.mismatch none).msDrop n, none, true)
            else
              let iv := msIv (d.msXpn n) (beNat ((x.drop 20).take 8)) pn (d.get (Reg.MS_RXSA_SSCI n c an))
                (d.msSalt (Reg.MS_RXSA_SALT0 n c an).off)
              match msOpen key iv x with
              | none => ((d.bump (Reg.MS_RX_ICV_FAIL n)).msDrop n, none, true)
              | some pt => ((d.bump (Reg.MS_RX_OK n)).msAdvance n c an pn, some (ofNats pt), true)

end Sys2Proof.Machine
end

