-- ==== Sys2Proof/Machine/Eth.lean ====
section
/-! DEFINITION. The Ethernet ports, transmit side: port configuration (R388), start checks (R390), launch-time queues (R391), frames
from templates (R393, R104), departures (R392, R396) and the TX ring (R395). -/

namespace Sys2Proof.Machine

/-- The function of port n. -/
def ethFn (n : Nat) : Fn := .eth (Fin.ofNat 16 n)

/-- The Ethernet ports' own data replaced. -/
def Dev.onEth (d : Dev) (f : EthState → EthState) : Dev := { d with eth := f d.eth }

/-- What the registers of port n do not show. -/
def Dev.port (d : Dev) (n : Nat) : EthPort := lookup (fun _ => EthPort.reset) d.eth.ports n

/-- The same, changed. -/
def Dev.onPort (d : Dev) (n : Nat) (f : EthPort → EthPort) : Dev :=
  d.onEth (fun e => { e with ports := update (fun _ => EthPort.reset) e.ports n (f (d.port n)) })

/-- R388: the lanes of port n in the present configuration of its quad; 0 if n is not the first lane of a port. -/
def Dev.portLanes (d : Dev) (n : Nat) : Nat :=
  match d.get (Reg.ETH_QUAD_SPLIT (n / 4)) with
  | 0 => 1
  | 1 => if n % 2 = 0 then 2 else 0
  | 2 => if n % 4 = 0 then 4 else 0
  | _ => 0

/-- R388, R390: are the fields of port n in range? RATE 2 needs one lane. -/
def Dev.ethConfigOk (d : Dev) (n : Nat) : Bool :=
  let rate := d.get (Reg.ETH_QUAD_RATE (n / 4))
  let mf := d.get (Reg.ETH_PORT_CFG_MAX_FRAME n)
  let lg (f : Fld) : Bool := decide (4 ≤ d.get f) && decide (d.get f ≤ 12)
  (rate != 3) && (rate != 2 || d.get (Reg.ETH_QUAD_SPLIT (n / 4)) == 0) && decide (64 ≤ mf) && decide (mf ≤ 9216) &&
    lg (Reg.ETH_PORT_TXR_LOG2 n) && (!d.on (Reg.ETH_PORT_CFG_RX_RING_EN n) || lg (Reg.ETH_PORT_RXR_LOG2 n))

/-- R390: the RUN start checks of port n. -/
def Dev.ethCheck (d : Dev) (n : Nat) : Option Nat :=
  let lanes := upFrom (16 + n) (d.portLanes n)
  if !d.ethConfigOk n then some 1
  else if !d.jfe.busMaster.getLsbD 0 then some 3
  else if !lanes.all (fun l => d.running (.lane (Fin.ofNat 56 l)) && d.get (Reg.LANE_CFG_TEST l) == 0) then some 5
  else if d.portLanes n = 0 then some 6
  else none

/-- An attention bit of port n. -/
def Dev.ethAttend (d : Dev) (n bit : Nat) : Dev := d.attend ⟨(Reg.ETH_PORT_ATTN n).off, bit, 1⟩ (0x6E0 + n)

/-- The requests of a port: the PF's, non-secure (R390, R404). -/
def ethReq : Req := { world := false, ep := 82, func := some 0, reader := 4, own := false, win := 0 }

/-- R391: the frames of a queue. -/
def Dev.queueLen (d : Dev) (n q : Nat) : Nat := ((d.port n).frames.filter (fun f => f.queue == q)).length

/-- R391: has queue q of port n, and its frame buffer, room for a frame? -/
def Dev.frameRoom (d : Dev) (n q len : Nat) : Bool :=
  decide (d.queueLen n q < 1024) &&
    decide ((((d.port n).frames.map (fun f => f.bytes.length)).sum) + len ≤ d.portLanes n * 2 ^ 20)

/-- QUEUE[q].FRAMES follows the queue. -/
def Dev.showQueue (d : Dev) (n q : Nat) : Dev := d.set (Reg.ETH_PORT_QUEUE_FRAMES n q) (d.queueLen n q)

/-- A frame enters its queue. -/
def Dev.enqueue (d : Dev) (n : Nat) (f : TxFrame) : Dev :=
  (d.onPort n (fun p => { p with frames := p.frames ++ [f] })).showQueue n f.queue

/-- R389, R104: the bytes a frame of a port takes beyond its own: FCS, and SecTAG with ICV. -/
def Dev.frameExtra (d : Dev) (n : Nat) : Nat := 4 + (if d.on (Reg.ETH_PORT_CFG_MACSEC_EN n) then 32 else 0)

/-! ### Frames from templates (R393) -/

/-- The header bytes of template t. -/
def Dev.tplHeader (d : Dev) (t : Nat) : List Byte :=
  (((upFrom 0 32).map (fun w => leBytes (d.get (Reg.ETH_TPL_HDR t w)) 4)).flatten).take (d.get (Reg.ETH_TPL_LEN t))

/-- R393 step 2: patch field f applied. -/
def Dev.tplPatch (d : Dev) (t patch : Nat) (bs : List Byte) (f : Nat) : List Byte :=
  let o := d.get (Reg.ETH_TPL_PATCH_OFS t f)
  if o = 0xFF then bs
  else
    let m := bitsOf (d.get (if f < 2 then Reg.ETH_TPL_MASK01 t else Reg.ETH_TPL_MASK23 t)) (16 * (f % 2)) 16
    let old := ofBE (sliceBytes bs o 2)
    patchBytes bs o (beBytes ((old &&& (0xFFFF ^^^ m)) ||| (bitsOf patch (16 * f) 16 &&& m)) 2)

/-- R393 step 3: eCPRI payload size and SEQ_ID, in a frame with `body` bytes after the header. -/
def Dev.tplEcpri (d : Dev) (t body : Nat) (bs : List Byte) : List Byte :=
  let o := d.get (Reg.ETH_TPL_ECPRI_OFS t)
  if o = 0xFF then bs
  else
    let bs := patchBytes bs (o + 2) (beBytes (bs.length + body - (o + 4)) 2)
    patchBytes bs (o + 6) [BitVec.ofNat 8 (d.get (Reg.ETH_TPL_SEQ t)), 0x80]

/-- R393 step 4: numPrbu, and udCompHdr with UDCOMP. -/
def Dev.tplSection (d : Dev) (t count width : Nat) (bs : List Byte) : List Byte :=
  let o := d.get (Reg.ETH_TPL_SECT_OFS t)
  if o = 0xFF then bs
  else
    let bs := patchBytes bs (o + 3) [if 255 < count then 0 else BitVec.ofNat 8 count]
    if d.on (Reg.ETH_TPL_UDCOMP t) then patchBytes bs (o + 4) [if width = 0 then 0 else BitVec.ofNat 8 (16 * width + 1)] else bs

/-- R393: the header of a frame with `body` bytes to follow, and the template's sequence counter advanced. -/
def Dev.tplBuild (d : Dev) (t patch count width body : Nat) : Dev × List Byte :=
  let bs := (upFrom 0 4).foldl (d.tplPatch t patch) (d.tplHeader t)
  let bs := d.tplSection t count width (d.tplEcpri t body bs)
  (if d.get (Reg.ETH_TPL_ECPRI_OFS t) = 0xFF then d else d.bump (Reg.ETH_TPL_SEQ t), bs)

/-! ### DMV_TX_FRAME (R104) -/

/-- R104: PORT. -/
def Job.txPort (j : Job) : Nat := j.bits 33 0 4
/-- R104: QUEUE. -/
def Job.txQueue (j : Job) : Nat := j.bits 33 4 3
/-- R104: TEMPLATE. -/
def Job.txTemplate (j : Job) : Nat := j.bytes 35 1
/-- R104: COUNT. -/
def Job.txCount (j : Job) : Nat := j.bytes 36 2

/-- Check 5 of R65 for DMV_TX_FRAME (R102, R104). -/
def Dev.txFrameCheck (d : Dev) (j : Job) : Option Nat :=
  let n := j.txCount
  firstFail [
    failIf j.dmvBadField stCONFIG,
    failIf (d.dmvForeign j) stWORLD,
    failIf (decide (n = 0) || decide (273 < n)) stLENGTH,
    failIf (!d.dmvSide j.dmvSrc 0 1 (48 * n) true false || d.portLanes j.txPort == 0) stCONFIG]

/-- R393: may a job use a template? -/
def Dev.tplServes (d : Dev) (t : Nat) (func : Nat) (world : Bool) : Bool :=
  d.get (Reg.ETH_TPL_FUNC t) == func && d.on (Reg.ETH_TPL_SECURE t) == world

/-- R104, R107: one PRB packed: its bytes, zero in place of a unit that draws on a lost word. -/
def DmvRun.packPrbBytes (q : Req) (width : Nat) (acc : DmvRun × List Byte × Nat) (src : Nat) : DmvRun × List Byte × Nat :=
  let (r, out, bad) := acc
  if width = 0 then
    let (r, bs, lost) := (upFrom 0 6).foldl (fun (acc : DmvRun × List Byte × Bool) k =>
      let (r, bs, lost) := acc
      let (r, b, l) := r.packUnit q 1 0 (src + 8 * k)
      (r, bs ++ (if l then b.map (fun _ => 0) else b), lost || l)) (r, [], false)
    (r, out ++ bs, bad + b2n lost)
  else
    let (r, bs, lost) := r.packUnit q 2 width src
    (r, out ++ (if lost then bs.map (fun _ => 0) else bs), bad + b2n lost)

/-- The payload of a frame is packed: the run, its bytes, and the units that were lost. -/
def Dev.packFrame (d : Dev) (j : Job) : DmvRun × List Byte × Nat :=
  (upFrom 0 j.txCount).foldl (fun acc k => DmvRun.packPrbBytes (d.dmvReq j) j.dmvWidth acc (j.dmvSrc + 48 * k))
    (DmvRun.start d j [], [], 0)

/-- R104: the frame of a run that ended well enters its queue; a frame too long, or a template of another function or world, ends
the job instead. -/
def Dev.txFrameEnd (r : DmvRun) (j : Job) (payload : List Byte) (bad : Nat) : Dev :=
  let r := { r with units := j.txCount, poisoned := bad, words := 6 * j.txCount }
  let d := r.io.dev
  let (d, hdr) := d.tplBuild j.txTemplate (j.bytes 56 8) j.txCount j.dmvWidth payload.length
  let f : TxFrame := { queue := j.txQueue, bytes := hdr ++ payload, launch := BitVec.ofNat 64 (j.bytes 48 8), chain := none,
                       ring := none, tsReq := false, oneStep := none }
  Dev.dmvEnd { r with io := { r.io with dev := d.enqueue j.txPort f } } j f.bytes.length stOK

/-- R104: DMV_TX_FRAME. A job whose queue or buffer is full waits. -/
def dmvTxFrame (id : Nat) (d : Dev) : Dev :=
  match d.executing id 0xA3 with
  | none => d
  | some j =>
    let t := j.txTemplate
    let len := d.get (Reg.ETH_TPL_LEN t) + j.txCount * dmvPackedBytes (if j.dmvWidth = 0 then 1 else 2) j.dmvWidth *
      (if j.dmvWidth = 0 then 6 else 1)
    if !d.tplServes t (d.jobFunc j) j.world then Dev.dmvEnd { DmvRun.start d j [] with io := (Io.start d j []).halt stWORLD } j 0 stOK
    else if d.get (Reg.ETH_PORT_CFG_MAX_FRAME j.txPort) < len + d.frameExtra j.txPort then
      Dev.dmvEnd (DmvRun.start d j []) j 0 stLENGTH
    else if !d.frameRoom j.txPort j.txQueue len then d
    else
      let (r, bs, bad) := d.packFrame j
      if r.over then Dev.dmvEnd { r with units := 0, words := 0 } j 0 stOK else Dev.txFrameEnd r j bs bad

/-! ### Departures (R392, R396) -/

/-- Picoseconds, signed, in units of 2^-16 ns, rounded half up. -/
def psTime (ps : Int) : ShortTime := BitVec.ofInt 64 ((2 * 8192 * ps + 125) / 250)

/-- R380: the transmit time-stamp of a frame that crosses the balls of port n at a time. -/
def Dev.txStamp (d : Dev) (n : Nat) (t : ShortTime) : ShortTime := t + psTime (signed (d.get (Reg.ETH_PORT_TS_TX_ADJ_PS n)) 16)

/-- The size of full time: 2^48 seconds. -/
def fullSize : Nat := 2 ^ 48 * 1000000000 * 65536

/-- Full time at a short time near the present (R371). -/
def Dev.fullAt (d : Dev) (t : ShortTime) : Nat := (((d.time.full : Int) + timeDiff t d.time.short) % (fullSize : Int)).toNat

/-- R376: TRACEABLE holds exactly in LOCKED. -/
def Dev.traceable (d : Dev) : Bool := d.get Reg.TB_STATE_STATE == 2

/-- R396: originTimestamp and correctionField of a one-step Sync with its PTP header at an offset. -/
def oneStepInsert (full : Nat) (o : Nat) (bs : List Byte) : List Byte :=
  let ns := full / 65536
  let bs := patchBytes bs (o + 34) (beBytes (ns / 1000000000) 6 ++ beBytes (ns % 1000000000) 4)
  patchBytes bs (o + 8) (beBytes ((ofBE (sliceBytes bs (o + 8) 8) + full % 65536) % 2 ^ 64) 8)

/-- The address of descriptor k of the TX ring of port n. -/
def Dev.txrSlot (d : Dev) (n k : Nat) : Nat :=
  d.addr56 (Reg.ETH_PORT_TXR_BASE n).off 12 + 32 * (k % 2 ^ d.get (Reg.ETH_PORT_TXR_LOG2 n))

/-- R395: the completion of ring entry k: bytes 16–31 of its descriptor in one write. -/
def Io.txrComplete (s : Io) (n k : Nat) (time : ShortTime) (status : Nat) (flags : Nat) : Io :=
  let phase := (k / 2 ^ s.dev.get (Reg.ETH_PORT_TXR_LOG2 n) + 1) % 2
  let bs := leBytes time.toNat 8 ++ leBytes (status + flags * 256) 7 ++ [BitVec.ofNat 8 (phase * 128)]
  (({ s with stop := none } : Io).writeBytes ethReq (s.dev.txrSlot n k + 16) bs false).1

/-- The ring entry of a frame completes, if it has one. -/
def Io.frameOver (s : Io) (n : Nat) (f : TxFrame) (time : ShortTime) (status flags : Nat) : Io :=
  match f.ring with
  | some k => s.txrComplete n k time status flags
  | none => s

/-- R392: has the head of queue q reached its turn at a time? -/
def Dev.headReady (d : Dev) (n q : Nat) (t : ShortTime) : Option TxFrame :=
  match (d.port n).frames.find? (fun f => f.queue == q) with
  | some f => if d.on (Reg.ETH_PORT_QUEUE_ASAP n q) || reached f.launch t then some f else none
  | none => none

/-- A frame leaves its queue: the first of that queue. -/
def Dev.dequeue (d : Dev) (n : Nat) (f : TxFrame) : Dev :=
  (d.onPort n (fun p => { p with frames := p.frames.eraseP (fun x => x.queue == f.queue) })).showQueue n f.queue

/-- R396: a frame departs: PTP insertion, MACsec, the wire; a frame MACsec drops is sent nowhere and its ring entry completes. -/
def Io.depart (s : Io) (n : Nat) (f : TxFrame) (t : ShortTime) (late mismatch : Bool) : Io :=
  let d := s.dev
  let stamp := d.txStamp n t
  let bs := match f.oneStep with
    | some o => oneStepInsert (d.fullAt stamp) o f.bytes
    | none => f.bytes
  let (d, out) := d.msSend n bs mismatch
  let d := match out with
    | some w => (d.onPort n (fun p => { p with wire := p.wire ++ [(t, w)] })).bump (Reg.ETH_PORT_TX_FRAMES n)
    | none => d
  let flags := b2n (f.tsReq && d.traceable) + b2n late * 2
  ({ s with dev := d } : Io).frameOver n f (if f.tsReq then stamp else 0) stOK flags

/-- R392: lateness of a frame in units of short time; none in an ASAP queue. -/
def Dev.lateness (d : Dev) (n : Nat) (f : TxFrame) (stamp : ShortTime) : Int :=
  if d.on (Reg.ETH_PORT_QUEUE_ASAP n f.queue) then 0 else timeDiff stamp f.launch

/-- R392: what becomes of a frame whose turn has come. -/
def Io.launch (s : Io) (n : Nat) (f : TxFrame) (t : ShortTime) (mismatch : Bool) : Io :=
  let d := s.dev.dequeue n f
  let late := d.lateness n f (d.txStamp n t)
  let limit : Int := (d.get (Reg.ETH_PORT_LATE_NS n) * 65536 : Nat)
  if !d.on (Reg.ETH_PORT_STATUS_LINK_UP n) then
    ({ s with dev := d.bump (Reg.ETH_PORT_DOWN_DROPS n) } : Io).frameOver n f 0 stLINK 0
  else if late ≤ 0 then ({ s with dev := d } : Io).depart n f t false mismatch
  else if late ≤ limit then ({ s with dev := d.bump (Reg.ETH_PORT_DEFERRED n) } : Io).depart n f t false mismatch
  else
    let d := d.ethAttend n 2
    if d.get (Reg.ETH_PORT_QUEUE_POLICY n f.queue) = 0 then
      ({ s with dev := d.bump (Reg.ETH_PORT_LATE_DROPS n) } : Io).frameOver n f 0 stLATE 0
    else ({ s with dev := d.bump (Reg.ETH_PORT_LATE_SENT n) } : Io).depart n f t true mismatch

/-- R392: among the frames that have reached their turn, that of the lowest queue number goes. `t` is the instant it would cross
the balls. -/
def frameLaunch (n : Nat) (t : ShortTime) (mismatch : Bool) (ext : List Ext) (d : Dev) : Dev :=
  if d.stopped (ethFn n) || d.on (ethFn n).abort then d
  else match (upFrom 0 8).findSome? (fun q => d.headReady n q (d.txStamp n t)) with
    | some f => ((Io.ofBlock d ext).launch n f t mismatch).done
    | none => d

/-- R390: STOP_ABORT of port n: queued frames are discarded and their ring entries complete ABORTED. -/
def Dev.ethAbort (d : Dev) (n : Nat) (ext : List Ext) : Dev :=
  let fs := (d.port n).frames
  let d := (d.onPort n (fun p => { p with frames := [] })).add (Reg.ETH_PORT_ABORT_DROPS n) fs.length
  let d := d.each (upFrom 0 8) (fun d q => d.showQueue n q)
  (fs.foldl (fun s f => s.frameOver n f 0 stABORTED 0) (Io.ofBlock d ext)).done

/-! ### The TX ring (R395) -/

/-- R396: is the frame at the PTP offset a Sync? -/
def isSync (bs : List Byte) (o : Nat) : Bool := decide (o < bs.length) && (bs.getD o 0).toNat % 16 == 0

/-- R395: a descriptor fetched and its frame read: the frame enters its queue or the entry completes at once. -/
def Io.takeDescriptor (s : Io) (n k v : Nat) : Io :=
  let addr := bitsOf v 0 56
  let len := bitsOf v 64 16
  let q := bitsOf v 80 3
  let ts := bitOf v 83
  let one := bitOf v 84
  let o := bitsOf v 88 8
  let d := s.dev
  if d.get (Reg.ETH_PORT_CFG_MAX_FRAME n) < len + d.frameExtra n ∨ len = 0 then s.txrComplete n k 0 stLENGTH 0
  else
    let (s, bs, lost) := ({ s with stop := none } : Io).readBytes ethReq addr len
    if s.stop.isSome then s.txrComplete n k 0 stCONFIG 0
    else if lost then s.txrComplete n k 0 stPOISONED 0
    else if one && !isSync bs o then s.txrComplete n k 0 stCONFIG 0
    else
      let f : TxFrame := { queue := q, bytes := bs, launch := BitVec.ofNat 64 (bitsOf v 128 64), chain := none, ring := some k,
                           tsReq := ts, oneStep := if one then some o else none }
      { s with dev := s.dev.enqueue n f }

/-- R391, R395: the next descriptor, if its queue has room; a descriptor that cannot be read ends the poll. The second part says
whether to go on. -/
def Io.nextDescriptor (n : Nat) (acc : Io × Bool) : Io × Bool :=
  let (s, go) := acc
  if !go then acc
  else
    let k := s.dev.get (Reg.ETH_PORT_TXR_CI n)
    let (s, bs, lost) := ({ s with stop := none } : Io).readBytes ethReq (s.dev.txrSlot n k) 32
    let v := ofLE bs
    if lost || s.stop.isSome then (s, false)
    else if !s.dev.frameRoom n (bitsOf v 80 3) (bitsOf v 64 16) then (s, false)
    else (({ s with dev := s.dev.bump (Reg.ETH_PORT_TXR_CI n) } : Io).takeDescriptor n k v, true)

/-- R395: a poll of the TX ring of port n, if the port is in RUN: the producer count, and the descriptors up to it. A count more than
the ring ahead is not accepted. -/
def txRingPoll (n : Nat) (ext : List Ext) (d : Dev) : Dev :=
  if !d.running (ethFn n) then d
  else
    let (s, bs, lost) := (Io.ofBlock d ext).readBytes ethReq (d.addr56 (Reg.ETH_PORT_TXR_PI_ADDR n).off 2) 4
    let work := (ofLE bs + 2 ^ 32 - d.get (Reg.ETH_PORT_TXR_CI n)) % 2 ^ 32
    if lost || s.stop.isSome || decide (2 ^ d.get (Reg.ETH_PORT_TXR_LOG2 n) < work) then s.done
    else ((upFrom 0 work).foldl (fun acc _ => Io.nextDescriptor n acc) (s, true)).1.done

/-! ### Links -/

/-- R381, R390: port n acquires its link. -/
def linkUp (n : Nat) (an : Bool) (d : Dev) : Dev :=
  if d.stopped (ethFn n) then d
  else ((d.set (Reg.ETH_PORT_STATUS_LINK_UP n) 1).set (Reg.ETH_PORT_STATUS_CAL_DONE n) 1).set (Reg.ETH_PORT_STATUS_AN_DONE n)
    (b2n (an && d.on (Reg.ETH_PORT_CFG_AN_EN n)))

/-- The link bits of port n clear. -/
def Dev.linkBitsOff (d : Dev) (n : Nat) : Dev :=
  ((d.set (Reg.ETH_PORT_STATUS_LINK_UP n) 0).set (Reg.ETH_PORT_STATUS_CAL_DONE n) 0).set (Reg.ETH_PORT_STATUS_AN_DONE n) 0

/-- R390: port n loses its link. -/
def linkDown (n : Nat) (d : Dev) : Dev :=
  if d.stopped (ethFn n) || !d.on (Reg.ETH_PORT_STATUS_LINK_UP n) then d else (d.linkBitsOff n).ethAttend n 1

/-- DMV_TX_FRAME (R104). -/
def execDmvTxFrame (job : Nat) (s : State) : Host.Outcome State Fault Refusal := s.onDev (dmvTxFrame job)
/-- FRAME_LAUNCH (R392). -/
def execFrameLaunch (n : Fin 16) (at_ : ShortTime) (mismatch : Bool) (ext : List Ext) (s : State) :
    Host.Outcome State Fault Refusal := s.onDev (frameLaunch n.val at_ mismatch ext)
/-- TX_RING_POLL (R395). -/
def execTxRingPoll (n : Fin 16) (ext : List Ext) (s : State) : Host.Outcome State Fault Refusal := s.onDev (txRingPoll n.val ext)
/-- LINK_UP (R390): `an` says whether auto-negotiation completed. -/
def execLinkUp (n : Fin 16) (an : Bool) (s : State) : Host.Outcome State Fault Refusal := s.onDev (linkUp n.val an)
/-- LINK_DOWN (R390). -/
def execLinkDown (n : Fin 16) (s : State) : Host.Outcome State Fault Refusal := s.onDev (linkDown n.val)

end Sys2Proof.Machine
end

