-- ==== Sys2Proof/Machine/Dfe.lean ====
section
/-! DEFINITION. The DFE chains (R306–R316): start checks, commits and coefficient banks, the fetch of transmit blocks and the composite
frames (R394), receive blocks, the AGC, and the spectral mask monitors. Composite samples, and samples after the half-band stages, are
not fixed bit by bit by the manual: they are open values. -/

namespace Sys2Proof.Machine

/-- The function of TX chain t. -/
def dfeTxFn (t : Nat) : Fn := .dfeTx (Fin.ofNat 128 t)
/-- The function of RX chain r. -/
def dfeRxFn (r : Nat) : Fn := .dfeRx (Fin.ofNat 128 r)

/-- The chains' own data replaced. -/
def Dev.onDfe (d : Dev) (f : DfeState → DfeState) : Dev := { d with dfe := f d.dfe }

/-- Blocks done since RUN, by key. -/
def Dev.dfeBlocks (d : Dev) (key : Nat) : Nat := lookup (fun _ => 0) d.dfe.blocks key

/-- Blocks done, set. -/
def Dev.setDfeBlocks (d : Dev) (key n : Nat) : Dev :=
  d.onDfe (fun x => { x with blocks := update (fun _ => 0) x.blocks key n })

/-- R307: n composite samples at 122.88 MHz, as short time rounded half up. -/
def compositeTime (n : Nat) : Nat := (2 * n * 1600000 + 3) / 6

/-- R307: the start of block j at RATE, as short time from START. -/
def blockTime (rate j : Nat) : Nat := compositeTime (j * 1024 * 2 ^ rate)

/-! ### Start checks (R306, R394) -/

/-- A carrier slot as both kinds of chain configure it: ENABLE, RATE, TAPS, CARRIER, NCO, BLOCKS. -/
structure CarSlot where
  enable : Bool
  rate : Nat
  taps : Nat
  carrier : Nat
  nco : Int
  blocks : Nat
  bank : Nat
  deriving DecidableEq, Repr

/-- Carrier slot k of the chain whose registers lie at `base` (R318). -/
def Dev.carSlot (d : Dev) (base k : Nat) : CarSlot :=
  let o := base + 0x40 + k * 0x30
  { enable := d.on ⟨o, 0, 1⟩, rate := d.get ⟨o, 1, 3⟩, taps := d.get ⟨o, 8, 7⟩, carrier := d.get ⟨o, 23, 9⟩,
    nco := signed (d.get ⟨o + 4, 0, 24⟩) 24, blocks := d.get ⟨o + 0x10, 0, 15⟩, bank := d.get ⟨o, 16, 6⟩ }

/-- The registers of TX chain t (R318). -/
def dfeTxBase (t : Nat) : Nat := 0xF00000 + t * 0x200
/-- The registers of RX chain r. -/
def dfeRxBase (r : Nat) : Nat := 0xF10000 + r * 0x200

/-- The enabled carrier slots of a chain. -/
def Dev.carSlots (d : Dev) (base : Nat) : List CarSlot := ((upFrom 0 4).map (d.carSlot base)).filter (fun c => c.enable)

/-- R306: is an enabled carrier slot in range, its bandwidth at most 0.82 of its rate, its channel within ±61.44 MHz? -/
def Dev.carSlotOk (d : Dev) (c : CarSlot) : Bool :=
  decide (c.rate ≤ 6) && decide (1 ≤ c.taps) && decide (c.carrier < 384) && decide (2 ≤ c.blocks) && decide (c.blocks ≤ 16384) &&
  decide (d.get (Reg.JFE_CAR_BW_KHZ c.carrier) * 100 * 2 ^ c.rate ≤ 82 * 122880) &&
  decide (c.nco.natAbs * 2 ^ (c.rate + 1) + 2 ^ 24 ≤ 2 ^ 24 * 2 ^ c.rate)

/-- R306: check BADCFG of the carrier slots. -/
def Dev.carSlotsOk (d : Dev) (base : Nat) : Bool :=
  let cs := d.carSlots base
  cs.all d.carSlotOk && decide ((cs.map (fun c => d.get (Reg.JFE_CAR_BW_KHZ c.carrier))).sum ≤ 100000)

/-- R306: the checks after BADCFG, for a chain with an owner and a port. -/
def Dev.dfeCheckRest (d : Dev) (base owner port : Nat) : Option Nat :=
  if !(d.carSlots base).all (fun c => d.running (.car (Fin.ofNat 384 c.carrier))) then some 2
  else if !d.jfe.busMaster.getLsbD owner then some 3
  else if d.portLanes port = 0 then some 4
  else if d.outOfService 194 then some 0x20
  else none

/-- R306, R394: the RUN start checks of TX chain t. -/
def Dev.dfeTxCheck (d : Dev) (t : Nat) : Option Nat :=
  if !d.carSlotsOk (dfeTxBase t) ||
      !d.tplServes (d.get (Reg.ETH_DFE_TX_TEMPLATE t)) (d.get (Reg.DFE_TX_CFG_FUNC t)) (d.on (Reg.DFE_TX_CFG_SECURE t)) then some 1
  else d.dfeCheckRest (dfeTxBase t) (d.get (Reg.DFE_TX_CFG_FUNC t)) (d.get (Reg.DFE_TX_CFG_PORT t))

/-- R306: the RUN start checks of RX chain r. -/
def Dev.dfeRxCheck (d : Dev) (r : Nat) : Option Nat :=
  if !d.carSlotsOk (dfeRxBase r) || d.get (Reg.DFE_RX_AGC_WIN r) == 0 then some 1
  else d.dfeCheckRest (dfeRxBase r) (d.get (Reg.DFE_RX_CFG_FUNC r)) (d.get (Reg.DFE_RX_CFG_PORT r))

/-- TX chain t enters RUN: its counts start from block 0 of START. -/
def Dev.dfeTxStarts (d : Dev) (t : Nat) : Dev :=
  let d := d.onDfe (fun x => { x with framed := update (fun _ => 0) x.framed t 0, violations := update (fun _ => 0) x.violations t 0 })
  d.each (upFrom 0 4) (fun d k =>
    ((d.setDfeBlocks (4 * t + k) 0).set (Reg.DFE_TX_CAR_CONSUMED t k) 0).set (Reg.DFE_TX_CAR_COMMITTED t k) 0)

/-- RX chain r enters RUN: its counts start from block 0 of START, its gains at INIT (R315). -/
def Dev.dfeRxStarts (d : Dev) (r : Nat) : Dev :=
  let d := d.onDfe (fun x => { x with got := update (fun _ => []) x.got r [] })
  d.each (upFrom 0 4) (fun d k =>
    let d := (d.setDfeBlocks (512 + 4 * r + k) 0).set (Reg.DFE_RX_CAR_CONSUMED r k) 0
    let d := d.onDfe (fun x => { x with window := update (fun _ => 0) x.window (4 * r + k) 0,
                                        drainAt := update (fun _ => 0) x.drainAt (4 * r + k) 0 })
    d.set (Reg.DFE_RX_CAR_GAIN_NOW r k) (d.get (Reg.DFE_RX_AGC_INIT r)))

/-- R313: RX chain r begins to drain: each slot completes its present block. -/
def Dev.dfeRxDrains (d : Dev) (r : Nat) : Dev :=
  d.each (upFrom 0 4) (fun d k =>
    d.onDfe (fun x => { x with drainAt := update (fun _ => 0) x.drainAt (4 * r + k) (lookup (fun _ => 0) x.blocks (512 + 4 * r + k)) }))

/-- R53, R286, R306: a carrier context leaves RUN: the receivers and chains in RUN that serve it stop as by STOP_DRAIN. -/
def Dev.carrierLeaves (d : Dev) (c : Nat) : Dev :=
  let d := d.each (upFrom 0 16) (fun d b =>
    if (d.brxSlots b).any (fun s => d.get (Reg.BRX_SLOT_CARRIER b s) == c) then d.fnFault (brxFn b) 2 false else d)
  let d := d.each (upFrom 0 128) (fun d t =>
    if (d.carSlots (dfeTxBase t)).any (fun x => x.carrier == c) then d.fnFault (dfeTxFn t) 2 false else d)
  d.each (upFrom 0 128) (fun d r =>
    if d.running (dfeRxFn r) && (d.carSlots (dfeRxBase r)).any (fun x => x.carrier == c)
    then (d.fnFault (dfeRxFn r) 2 false).dfeRxDrains r else d)

/-! ### Jobs (R308, R310) -/

/-- A count of 32 bits minus another, signed. -/
def countAhead (a b : Nat) : Int := signed ((a + 2 ^ 32 - b % 2 ^ 32) % 2 ^ 32) 32

/-- R308: the checks of DFE_TX_COMMIT that depend on the counts. -/
def Dev.commitCounts (d : Dev) (t k count : Nat) : Option Nat :=
  firstFail [
    failIf (decide (countAhead count (d.get (Reg.DFE_TX_CAR_COMMITTED t k)) < 0)) stCONFIG,
    failIf (decide (countAhead count (d.get (Reg.DFE_TX_CAR_CONSUMED t k)) > (d.get (Reg.DFE_TX_CAR_BLOCKS t k) : Int))) stLENGTH]

/-- Check 5 of R65 for DFE_TX_COMMIT (R308). -/
def Dev.commitCheck (d : Dev) (j : Job) : Option Nat :=
  let t := j.bits 32 0 7
  let k := j.bits 33 0 2
  let f := d.jobFunc j
  firstFail [
    failIf (j.bits 32 7 1 != 0 || j.bits 33 2 6 != 0 || j.bytes 34 2 != 0 || j.bytes 40 24 != 0) stCONFIG,
    failIf (d.stopped (dfeTxFn t) || !d.on (Reg.DFE_TX_CAR_ENABLE t k)) stCONFIG,
    failIf (decide (countAhead (j.bytes 36 4) (d.get (Reg.DFE_TX_CAR_COMMITTED t k)) < 0)) stCONFIG,
    failIf (j.world != d.on (Reg.DFE_TX_CFG_SECURE t) || (f != 0 && d.get (Reg.DFE_TX_CFG_FUNC t) != f)) stWORLD,
    d.commitCounts t k (j.bytes 36 4)]

/-- R308: RESULT of a commit. -/
def Dev.commitResult (d : Dev) (t k : Nat) : Nat :=
  d.get (Reg.DFE_TX_CAR_CONSUMED t k) + d.get (Reg.DFE_TX_UNDERRUN t) * 2 ^ 32

/-- DFE_TX_COMMIT: the counts are judged again at the update. -/
def dfeTxCommit (id : Nat) (d : Dev) : Dev :=
  match d.queuedJob id 0x70 with
  | none => d
  | some j =>
    let t := j.bits 32 0 7
    let k := j.bits 33 0 2
    match d.commitCounts t k (j.bytes 36 4) with
    | some st => d.endJob j st 0
    | none => let d := d.set (Reg.DFE_TX_CAR_COMMITTED t k) (j.bytes 36 4); d.endJob j stOK (d.commitResult t k)

/-- R310: does a chain that is not STOPPED name the bank? -/
def Dev.bankInUse (d : Dev) (bank : Nat) : Bool :=
  (upFrom 0 128).any (fun t =>
    (!d.stopped (dfeTxFn t) && (d.carSlots (dfeTxBase t)).any (fun c => c.bank == bank)) ||
    (!d.stopped (dfeRxFn t) && (d.carSlots (dfeRxBase t)).any (fun c => c.bank == bank)))

/-- Check 5 of R65 for DFE_LOAD_COEF (R310). -/
def Dev.coefCheck (d : Dev) (j : Job) : Option Nat :=
  firstFail [
    failIf (d.jobFunc j != 0) stWORLD,
    failIf (j.bits 32 6 2 != 0 || j.bytes 33 7 != 0 || j.bits 40 56 8 != 0 || j.bytes 48 16 != 0) stCONFIG,
    failIf (!(j.bits 40 0 56 % 8 == 0 && d.rowPlaced (j.bits 40 0 56) 256 false)) stCONFIG,
    failIf (d.bankInUse (j.bits 32 0 6)) stCONFIG]

/-- The request of a job of the chains and receivers (R406). -/
def Dev.dfeReq (d : Dev) (j : Job) : Req :=
  { world := j.world, ep := 83, func := some (d.jobFunc j), reader := 4, own := false, win := 0 }

/-- DFE_LOAD_COEF. -/
def dfeLoadCoef (id : Nat) (d : Dev) : Dev :=
  match d.queuedJob id 0x71 with
  | none => d
  | some j =>
    if d.bankInUse (j.bits 32 0 6) then d.endJob j stCONFIG 0
    else
      let (s, ws) := (Io.start d j []).readAll (d.dfeReq j) ((upFrom 0 32).map (fun i => j.bits 40 0 56 + 8 * i))
      let st := s.status stOK
      let d := s.done
      let d := if st = stOK then d.onDfe (fun x => { x with coefs := update (fun _ => List.replicate 32 0) x.coefs (j.bits 32 0 6) ws })
        else d
      d.endJob j st 0

/-! ### Transmit blocks and frames (R308, R309, R394) -/

/-- R308: F_j of slot k of TX chain t. -/
def Dev.fetchTime (d : Dev) (t k j : Nat) : ShortTime :=
  BitVec.ofInt 64 ((d.get64 (Reg.DFE_TX_START t) : Int) + (blockTime (d.get (Reg.DFE_TX_CAR_RATE t k)) j : Int) -
    (((d.get (Reg.DFE_TX_ADVANCE_NS t) + 25000) * 65536 : Nat) : Int))

/-- An attention bit of TX chain t. -/
def Dev.dfeTxAttend (d : Dev) (t bit : Nat) : Dev := d.attend ⟨(Reg.DFE_TX_ATTN t).off, bit, 1⟩ 0x608
/-- An attention bit of RX chain r. -/
def Dev.dfeRxAttend (d : Dev) (r bit : Nat) : Dev := d.attend ⟨(Reg.DFE_RX_ATTN r).off, bit, 1⟩ 0x609

/-- 4 n bytes of open sample values. -/
def Dev.drawBytes (d : Dev) : Nat → Dev × List Byte
  | 0 => (d, [])
  | n + 1 =>
    let (x, d) := d.draw
    let (d, bs) := d.drawBytes n
    (d, leBytes x.toNat 4 ++ bs)

/-- R394: composite frame f of TX chain t: template header with FLOW, the index of its first sample, 1,024 composite samples, which
are zero while the chain is muted. -/
def Dev.compositeFrame (d : Dev) (t f : Nat) : Dev × TxFrame :=
  let tp := d.get (Reg.ETH_DFE_TX_TEMPLATE t)
  let o := d.get (Reg.ETH_TPL_ECPRI_OFS tp)
  let hdr := d.tplEcpri tp (8 + 4096) (d.tplHeader tp)
  let hdr := if o = 0xFF then hdr else patchBytes hdr (o + 4) (beBytes (d.get (Reg.DFE_TX_FLOW t)) 2)
  let d := if o = 0xFF then d else d.bump (Reg.ETH_TPL_SEQ tp)
  let (d, bs) := if d.on (Reg.DFE_TX_STATUS_MUTED t) then (d, List.replicate 4096 0) else d.drawBytes 1024
  let launch := BitVec.ofInt 64 ((d.get64 (Reg.DFE_TX_START t) : Int) + (compositeTime (1024 * f) : Int) -
    ((d.get (Reg.DFE_TX_ADVANCE_NS t) * 65536 : Nat) : Int))
  (d, { queue := d.get (Reg.ETH_DFE_TX_QUEUE t), bytes := hdr ++ beBytes (1024 * f) 8 ++ bs, launch := launch, chain := some t,
        ring := none, tsReq := false, oneStep := none })

/-- R394, R391: the composite frames of TX chain t whose blocks have all been fetched, as far as its queue has room. -/
def Dev.buildFrames (d : Dev) (t : Nat) : Nat → Dev
  | 0 => d
  | n + 1 =>
    let ks := (upFrom 0 4).filter (fun k => d.on (Reg.DFE_TX_CAR_ENABLE t k))
    let limit := minD (2 ^ 64) (ks.map (fun k => d.dfeBlocks (4 * t + k) * 2 ^ d.get (Reg.DFE_TX_CAR_RATE t k)))
    let f := lookup (fun _ => 0) d.dfe.framed t
    let port := d.get (Reg.DFE_TX_CFG_PORT t)
    if ks.isEmpty || decide (limit ≤ f) || !d.frameRoom port (d.get (Reg.ETH_DFE_TX_QUEUE t)) 4300 then d
    else
      let (d, fr) := d.compositeFrame t f
      let d := (d.enqueue port fr).onDfe (fun x => { x with framed := update (fun _ => 0) x.framed t (f + 1) })
      d.buildFrames t n

/-- The request of a chain (R316, R406). -/
def chainReq (func : Nat) (world : Bool) : Req :=
  { world := world, ep := 83, func := some func, reader := 4, own := false, win := 0 }

/-- R308: is block j of slot k of TX chain t committed? -/
def Dev.committed (d : Dev) (t k j : Nat) : Bool :=
  decide (0 < countAhead (d.get (Reg.DFE_TX_CAR_COMMITTED t k)) (j % 2 ^ 32))

/-- R308: block j is read from its ring: is any word lost? -/
def Dev.readBlock (d : Dev) (t k j : Nat) (ext : List Ext) : Dev × Bool :=
  let a := d.addr56 (Reg.DFE_TX_CAR_RING t k).off 3 + j % d.get (Reg.DFE_TX_CAR_BLOCKS t k) * 4096
  let q := chainReq (d.get (Reg.DFE_TX_CFG_FUNC t)) (d.on (Reg.DFE_TX_CFG_SECURE t))
  let (s, _) := (Io.ofBlock d ext).readAll q ((upFrom 0 512).map (fun i => a + 8 * i))
  (s.done, s.uncorr || s.poison || s.stop.isSome)

/-- R308, R310: what a fetch counts: a block that was not committed or not in time, or one that is lost, is sent as zeros. The
samples limited on the way are open. -/
def Dev.countFetch (d : Dev) (t k j : Nat) (ext : List Ext) : Dev :=
  if !d.committed t k j || d.due (d.fetchTime t k (j + 1)) then (d.bump (Reg.DFE_TX_UNDERRUN t)).dfeTxAttend t 1
  else
    let (d, lost) := d.readBlock t k j ext
    let d := if lost then (d.bump (Reg.DFE_TX_POISON t)).dfeTxAttend t 3 else d
    let (sat, d) := d.drawUpTo 2048
    if sat = 0 then d else (d.add (Reg.DFE_TX_SAT t) sat).dfeTxAttend t 2

/-- R308: TX chain t fetches the next block of slot k at its F_j. A draining chain fetches committed blocks only (R309). -/
def txBlockFetch (t k : Nat) (ext : List Ext) (d : Dev) : Dev :=
  let j := d.dfeBlocks (4 * t + k)
  let fn := dfeTxFn t
  let works := d.running fn || (d.stopping fn && !d.on fn.abort && d.committed t k j)
  if !works || !d.domainOn 16 || !d.on (Reg.DFE_TX_CAR_ENABLE t k) || !d.due (d.fetchTime t k j) then d
  else
    let d := d.countFetch t k j ext
    let d := (d.setDfeBlocks (4 * t + k) (j + 1)).set (Reg.DFE_TX_CAR_CONSUMED t k) (j + 1)
    d.buildFrames t 256

/-- R309: may a stopping TX chain become STOPPED: an abort, or a drain with no committed block left? -/
def Dev.dfeTxIdle (d : Dev) (t : Nat) : Bool :=
  d.on (dfeTxFn t).abort || (upFrom 0 4).all (fun k => !d.on (Reg.DFE_TX_CAR_ENABLE t k) || !d.committed t k (d.dfeBlocks (4 * t + k)))

/-- R309: STOP_ABORT of TX chain t: frames from the next block boundary on are not sent. -/
def Dev.dfeTxAbort (d : Dev) (t : Nat) : Dev :=
  let port := d.get (Reg.DFE_TX_CFG_PORT t)
  let ks := (upFrom 0 4).filter (fun k => d.on (Reg.DFE_TX_CAR_ENABLE t k))
  let first : ShortTime := BitVec.ofInt 64 ((d.get64 (Reg.DFE_TX_START t) : Int) - ((d.get (Reg.DFE_TX_ADVANCE_NS t) * 65536 : Nat) : Int))
  let rate := minD 6 (ks.map (fun k => d.get (Reg.DFE_TX_CAR_RATE t k)))
  let gone := (timeDiff d.now first).toNat * 3 / (1024 * 1600000 * 2 ^ rate)
  let boundary := first + BitVec.ofNat 64 (blockTime rate (gone + 1))
  let d := d.onPort port (fun p => { p with frames := p.frames.filter (fun f => f.chain != some t || decide (timeDiff f.launch boundary < 0)) })
  d.each (upFrom 0 8) (fun d q => d.showQueue port q)

/-! ### Receive blocks (R313–R316) -/

/-- R313: has RX chain r received every composite sample of a range? -/
def coveredBy (got : List (Nat × Nat)) : Nat → Nat → Nat → Bool
  | 0, _, _ => false
  | n + 1, a, b =>
    if b ≤ a then true
    else match got.find? (fun x => decide (x.1 ≤ a) && decide (a < x.1 + x.2)) with
      | some x => coveredBy got n (x.1 + x.2) b
      | none => false

/-- R313: does block j of slot k of RX chain r lack samples? -/
def Dev.blockMissing (d : Dev) (r k j : Nat) : Bool :=
  let n := 1024 * 2 ^ d.get (Reg.DFE_RX_CAR_RATE r k)
  let got := lookup (fun _ => []) d.dfe.got r
  !coveredBy got (got.length + 1) (j * n) ((j + 1) * n)

/-- The writes of a block: 512 open samples words, then its header (R313, R314). Says whether a write failed. -/
def Dev.writeBlock (d : Dev) (r k j : Nat) (hdr : Nat) (ext : List Ext) : Dev × Bool :=
  let n := d.get (Reg.DFE_RX_CAR_BLOCKS r k)
  let q := chainReq (d.get (Reg.DFE_RX_CFG_FUNC r)) (d.on (Reg.DFE_RX_CFG_SECURE r))
  let a := d.addr56 (Reg.DFE_RX_CAR_RING r k).off 3 + j % n * 4096
  let s := (upFrom 0 512).foldl (fun (s : Io) i =>
    let (v, d) := s.dev.drawWord
    (({ s with dev := d } : Io).write q (a + 8 * i) v false).1) (Io.ofBlock d ext)
  let (s, _) := s.writeBytes q (d.addr56 (Reg.DFE_RX_CAR_HDR r k).off 3 + 16 * (j % n)) (leBytes hdr 16) false
  (s.done, s.stop.isSome)

/-- R314: the header of block j. -/
def Dev.blockHeader (d : Dev) (r k j : Nat) (missing : Bool) (sat : Nat) : Nat :=
  let t := (d.get64 (Reg.DFE_RX_START r) + blockTime (d.get (Reg.DFE_RX_CAR_RATE r k)) j) % 2 ^ 64
  t + d.get (Reg.DFE_RX_CAR_GAIN_NOW r k) * 2 ^ 64 +
    (d.get (Reg.DFE_RX_CAR_FROZEN r k) + b2n missing * 2 + b2n (decide (0 < sat)) * 4) * 2 ^ 72 + min sat 65535 * 2 ^ 80 +
    j % 2 ^ 32 * 2 ^ 96

/-- R315: the gain code changed by a step, limited to 0–255. -/
def Dev.stepGain (d : Dev) (r k : Nat) (up down : Nat) : Dev :=
  d.set (Reg.DFE_RX_CAR_GAIN_NOW r k) (min 255 (d.get (Reg.DFE_RX_CAR_GAIN_NOW r k) + up - down))

/-- R315: may the AGC of a carrier slot move? -/
def Dev.agcMoves (d : Dev) (r k : Nat) : Bool := d.on (Reg.DFE_RX_CFG_AGC_EN r) && !d.on (Reg.DFE_RX_CAR_FROZEN r k)

/-- The blocks of the AGC window under way. -/
def Dev.setWindow (d : Dev) (r k n : Nat) : Dev := d.onDfe (fun x => { x with window := update (fun _ => 0) x.window (4 * r + k) n })

/-- R315: the AGC at a block boundary: a block in which the gain stage limited lowers the code and restarts the window. -/
def Dev.agcBlock (d : Dev) (r k : Nat) (clipped : Bool) : Dev :=
  if !d.agcMoves r k then d
  else if clipped then (d.stepGain r k 0 (d.get (Reg.DFE_RX_AGC_CLIP_DN r))).setWindow r k 0
  else d.setWindow r k (lookup (fun _ => 0) d.dfe.window (4 * r + k) + 1)

/-- What a completed block counts (R313, R318). -/
def Dev.countBlock (d : Dev) (r k j : Nat) (missing : Bool) (sat : Nat) : Dev :=
  let d := if missing then (d.bump (Reg.DFE_RX_UNDERRUN r)).dfeRxAttend r 1 else d
  let d := if sat = 0 then d else (d.add (Reg.DFE_RX_SAT r) sat).dfeRxAttend r 2
  (d.setDfeBlocks (512 + 4 * r + k) (j + 1)).set (Reg.DFE_RX_CAR_CONSUMED r k) (j + 1)

/-- R313, R316: RX chain r completes the next block of slot k once its last sample's air time is reached. A write that fails stops
the chain as by STOP_ABORT, with FAULT 0x01. -/
def rxBlockComplete (r k : Nat) (ext : List Ext) (d : Dev) : Dev :=
  let j := d.dfeBlocks (512 + 4 * r + k)
  let fn := dfeRxFn r
  let works := d.running fn ||
    (d.stopping fn && !d.on fn.abort && decide (j ≤ lookup (fun _ => 0) d.dfe.drainAt (4 * r + k)))
  let until_ : ShortTime := BitVec.ofNat 64 (d.get64 (Reg.DFE_RX_START r) + blockTime (d.get (Reg.DFE_RX_CAR_RATE r k)) (j + 1))
  if !works || !d.domainOn 16 || !d.on (Reg.DFE_RX_CAR_ENABLE r k) || !d.due until_ then d
  else
    let missing := d.blockMissing r k j
    let (sat, d) := d.drawUpTo 65536
    let (x, d) := d.draw
    let (d, failed) := d.writeBlock r k j (d.blockHeader r k j missing sat) ext
    if failed then d.fnFault fn 1 true
    else (d.countBlock r k j missing sat).agcBlock r k (decide (0 < sat) && x.getLsbD 0)

/-- R313: may a stopping RX chain become STOPPED? -/
def Dev.dfeRxIdle (d : Dev) (r : Nat) : Bool :=
  d.on (dfeRxFn r).abort || (upFrom 0 4).all (fun k => !d.on (Reg.DFE_RX_CAR_ENABLE r k) ||
    decide (lookup (fun _ => 0) d.dfe.drainAt (4 * r + k) < d.dfeBlocks (512 + 4 * r + k)))

/-- R315: is the input power, in units of 2^-64 of full scale, plus the gain of a code above a level in 0.1 dB? The gain is
(code − 96) / 4 dB. -/
def powerAbove (power code : Nat) (level : Int) : Bool :=
  let m : Int := 2 * level - 5 * ((code : Int) - 96)
  -- power / 2^64 > 10^(m / 200)
  if m < 0 then decide (fullScale ^ 200 < power ^ 200 * 10 ^ (-m).toNat) else decide (fullScale ^ 200 * 10 ^ m.toNat < power ^ 200)

/-- R315: the same, below a level. -/
def powerBelow (power code : Nat) (level : Int) : Bool := logBelow power fullScale (2 * level - 5 * ((code : Int) - 96))

/-- R315: an AGC window of WIN blocks ends: the mean input power moves the code. -/
def agcWindowEnd (r k power : Nat) (d : Dev) : Dev :=
  let win := d.get (Reg.DFE_RX_AGC_WIN r)
  if d.stopped (dfeRxFn r) || !d.agcMoves r k || decide (lookup (fun _ => 0) d.dfe.window (4 * r + k) < win) then d
  else
    let target := signed (d.get (Reg.DFE_RX_AGC_TARGET r)) 16
    let hyst : Int := d.get (Reg.DFE_RX_AGC_HYST r)
    let code := d.get (Reg.DFE_RX_CAR_GAIN_NOW r k)
    let d := d.setWindow r k 0
    if powerAbove power code (target + hyst) then d.stepGain r k 0 (d.get (Reg.DFE_RX_AGC_STEP_DN r))
    else if powerBelow power code (target - hyst) then d.stepGain r k (d.get (Reg.DFE_RX_AGC_STEP_UP r)) 0
    else d

/-! ### Spectral mask monitors (R311, R312) -/

/-- R311: may a monitor dwell on TX chain t? -/
def Dev.maskWatches (d : Dev) (t : Nat) : Bool :=
  d.running (dfeTxFn t) && !d.on (Reg.DFE_TX_STATUS_MUTED t) && d.get (Reg.DFE_TX_CFG_MASK_PROF t) != 15

/-- R311: the chain monitor m dwells on: the first it may, in ascending order from CUR_CHAIN on and round. -/
def Dev.maskChain (d : Dev) (m from_ : Nat) : Option Nat :=
  ((upFrom 0 16).map (fun i => 16 * m + (from_ + i) % 16)).find? d.maskWatches

/-- The powers of a band: bins FIRST_BIN to FIRST_BIN + NBINS − 1 of the spectrum, whose first entry is bin −2,048. -/
def Dev.bandPowers (d : Dev) (p j : Nat) (spectrum : List Nat) : List Nat :=
  let first := signed (d.get (Reg.DFE_PROF_BAND_FIRST_BIN p j)) 12
  (spectrum.drop (first + 2048).toNat).take (d.get (Reg.DFE_PROF_BAND_NBINS p j))

/-- R311: is band j violated: its highest bin over REF + LIMIT, REF being sum / n? -/
def overLimit (top sum n : Nat) (limit : Int) : Bool :=
  if limit < 0 then decide (sum ^ 100 < (top * n) ^ 100 * 10 ^ (-limit).toNat) else decide (sum ^ 100 * 10 ^ limit.toNat < (top * n) ^ 100)

/-- R311: the violated bands of a dwell on chain t, with their excess in 0.1 dB; none where the dwell is not evaluated. -/
def Dev.maskDwell (d : Dev) (t : Nat) (spectrum : List Nat) : Option (List (Nat × Int)) :=
  let p := d.get (Reg.DFE_TX_CFG_MASK_PROF t)
  let ref := d.bandPowers p 0 spectrum
  let sum := ref.sum
  let n := ref.length
  if n = 0 ∨ sum * 10 ^ 8 < n * fullScale then none
  else some ((upFrom 1 7).filterMap (fun j =>
    let top := (d.bandPowers p j spectrum).foldl max 0
    let limit := signed (d.get (Reg.DFE_PROF_BAND_LIMIT p j)) 16
    if d.on (Reg.DFE_PROF_BAND_BAND_EN p j) && overLimit top sum n limit then some (j, level10 (top * n) sum - limit) else none))

/-- R312: the band with the largest excess, the lowest on a tie. -/
def worstBand : List (Nat × Int) → Option (Nat × Int)
  | [] => none
  | x :: xs => match worstBand xs with
    | some y => some (if x.2 < y.2 then y else x)
    | none => some x

/-- R312: the frames of a muted chain that wait carry zeros. -/
def Dev.silence (d : Dev) (t : Nat) : Dev :=
  d.onPort (d.get (Reg.DFE_TX_CFG_PORT t)) (fun p => { p with frames := p.frames.map (fun f =>
    if f.chain = some t then { f with bytes := f.bytes.take (f.bytes.length - 4096) ++ List.replicate 4096 0 } else f) })

/-- R312: a mask violation of chain t: recorded, attended, raised, and the chain is muted if MUTE_EN is set. -/
def Dev.maskHit (d : Dev) (t : Nat) (worst : Nat × Int) : Dev :=
  let d := ((d.set Reg.DFE_MASK_REC_CHAIN t).set Reg.DFE_MASK_REC_BAND worst.1).set Reg.DFE_MASK_REC_EXCESS (wrapTo 16 worst.2)
  let d := ((d.set64 Reg.DFE_MASK_REC_TIME d.now.toNat).dfeTxAttend t 4).raise 0x60A
  if d.on (Reg.DFE_TX_CFG_MUTE_EN t) then (d.set (Reg.DFE_TX_STATUS_MUTED t) 1).silence t else d

/-- The consecutive dwells in violation of chain t. -/
def Dev.setViolations (d : Dev) (t n : Nat) : Dev := d.onDfe (fun x => { x with violations := update (fun _ => 0) x.violations t n })

/-- R311, R312: an evaluated dwell on chain t by monitor m. -/
def Dev.maskJudge (d : Dev) (m t : Nat) (bands : List (Nat × Int)) : Dev :=
  match worstBand bands with
  | none => d.setViolations t 0
  | some w =>
    let n := lookup (fun _ => 0) d.dfe.violations t + 1
    let d := d.bump (Reg.DFE_MON_VIOLATIONS m)
    if d.get (Reg.DFE_MON_VIOL_N m) ≤ n then (d.setViolations t 0).maskHit t w else d.setViolations t n

/-- R311: a dwell of monitor m ends. `spectrum` holds the averaged powers of the 4,096 bins in units of 2^-64 of full scale, from bin
−2,048 up. -/
def maskDwellEnd (m : Nat) (spectrum : List Nat) (d : Dev) : Dev :=
  match d.maskChain m (d.get (Reg.DFE_MON_CUR_CHAIN m) % 16) with
  | none => d
  | some t =>
    let d := match d.maskDwell t spectrum with
      | some bands => d.maskJudge m t bands
      | none => d
    d.set (Reg.DFE_MON_CUR_CHAIN m) ((d.maskChain m (t % 16 + 1)).getD t)

/-- R312: ATTN.MASK of chain t is cleared by a write, and MUTED with it. -/
def Dev.clearMask (d : Dev) (t : Nat) : Dev :=
  ((d.set ⟨(Reg.DFE_TX_ATTN t).off, 4, 1⟩ 0).set (Reg.DFE_TX_STATUS_MUTED t) 0).relevel 0x608

/-- DFE_TX_COMMIT (R308). -/
def execDfeTxCommit (job : Nat) (s : State) : Host.Outcome State Fault Refusal := s.onDev (dfeTxCommit job)
/-- DFE_LOAD_COEF (R310). -/
def execDfeLoadCoef (job : Nat) (s : State) : Host.Outcome State Fault Refusal := s.onDev (dfeLoadCoef job)
/-- TX_BLOCK_FETCH (R308). -/
def execTxBlockFetch (t : Fin 128) (k : Fin 4) (ext : List Ext) (s : State) : Host.Outcome State Fault Refusal :=
  s.onDev (txBlockFetch t.val k.val ext)
/-- RX_BLOCK_COMPLETE (R313). -/
def execRxBlockComplete (r : Fin 128) (k : Fin 4) (ext : List Ext) (s : State) : Host.Outcome State Fault Refusal :=
  s.onDev (rxBlockComplete r.val k.val ext)
/-- AGC_WINDOW_END (R315): `power` is the mean input power before gain. -/
def execAgcWindowEnd (r : Fin 128) (k : Fin 4) (power : Nat) (s : State) : Host.Outcome State Fault Refusal :=
  s.onDev (agcWindowEnd r.val k.val power)
/-- MASK_DWELL_END (R311). A spectrum has 4,096 bins. -/
def execMaskDwellEnd (m : Fin 8) (spectrum : List Nat) (s : State) : Host.Outcome State Fault Refusal :=
  s.onDevIf (spectrum.length == 4096) (maskDwellEnd m.val spectrum)
/-- ATTN_MASK_CLEAR (R312). -/
def execAttnMaskClear (who : Accessor) (t : Fin 128) (s : State) : Host.Outcome State Fault Refusal :=
  s.onDev (fun d => d.mapped who (Reg.DFE_TX_ATTN t.val).off (fun d => d.clearMask t.val))

end Sys2Proof.Machine
end

