-- ==== Sys2Proof/Machine/EthRx.lean ====
section
/-! DEFINITION. The Ethernet ports, receive side: the checks of a received frame, its classification (R397), samples for RX chains
(R394), steering (R398), the RX ring (R399), and the writes that configure quads and steering (R388, R402). The layouts of eCPRI and
O-RAN headers are those of the named standards (PRESUMED). -/

namespace Sys2Proof.Machine

/-- R397: the place of a frame's EtherType after up to two VLAN tags. -/
def typeAt (bs : List Byte) : Nat :=
  let tag (k : Nat) : Bool := let t := ofBE (sliceBytes bs k 2); t == 0x8100 || t == 0x88A8
  if tag 12 then (if tag 16 then 20 else 16) else 12

/-- A received frame past the FCS and MACsec checks: its bytes, its crossing, and whether it was protected. -/
structure RxFrame where
  bytes : List Byte
  time : ShortTime
  protected_ : Bool
  deriving DecidableEq, Repr

/-- The EtherType of a received frame. -/
def RxFrame.etype (f : RxFrame) : Nat := ofBE (sliceBytes f.bytes (typeAt f.bytes) 2)
/-- What follows the EtherType. -/
def RxFrame.body (f : RxFrame) : List Byte := f.bytes.drop (typeAt f.bytes + 2)
/-- eCPRI: is the frame an eCPRI message that is not concatenated? -/
def RxFrame.ecpri (f : RxFrame) : Bool := f.etype == 0xAEFE && (f.body.headD 0).toNat % 2 == 0
/-- eCPRI: the message type. -/
def RxFrame.msgType (f : RxFrame) : Nat := (f.body.getD 1 0).toNat
/-- eCPRI: PC_ID. -/
def RxFrame.pcId (f : RxFrame) : Nat := ofBE (sliceBytes f.body 4 2)
/-- eCPRI: the payload as far as the frame holds it: after PC_ID and SEQ_ID. -/
def RxFrame.payload (f : RxFrame) : List Byte := (f.body.drop 8).take (ofBE (sliceBytes f.body 2 2) - 4)
/-- R396, R397: is the frame a PTP event message? -/
def RxFrame.ptpEvent (f : RxFrame) : Bool := f.etype == 0x88F7 && decide ((f.body.headD 0).toNat % 16 < 4)
/-- R397: is the frame an eCPRI message of type 0 that rules 1 and 2 may take? -/
def RxFrame.iqData (f : RxFrame) : Bool := f.ecpri && f.msgType == 0

/-- R397: is the frame time-stamped at port n? -/
def Dev.stamps (d : Dev) (n : Nat) (f : RxFrame) : Bool := f.ptpEvent || d.on (Reg.ETH_PORT_CFG_TS_ALL n)

/-- R380, R397: the time-stamp a frame carries, zero for none. -/
def Dev.rxStamp (d : Dev) (n : Nat) (f : RxFrame) : ShortTime :=
  if d.stamps n f then f.time + psTime (signed (d.get (Reg.ETH_PORT_TS_RX_ADJ_PS n)) 16) else 0

/-- R380: TRACEABLE of a frame's time-stamp. -/
def Dev.rxTraceable (d : Dev) (n : Nat) (f : RxFrame) : Nat := b2n (d.stamps n f && d.traceable)

/-- A frame of port n is discarded (R397 rule 5). -/
def Dev.rxDrop (d : Dev) (n : Nat) : Dev := d.bump (Reg.ETH_PORT_RX_DROPS n)

/-! ### RX chains (R394) -/

/-- R397 rule 1: the RX chain that takes a frame: the lowest-numbered one. -/
def Dev.chainFor (d : Dev) (n : Nat) (f : RxFrame) : Option Nat :=
  if f.iqData then
    (upFrom 0 128).find? (fun r => d.running (dfeRxFn r) && d.get (Reg.DFE_RX_CFG_PORT r) == n && d.get (Reg.DFE_RX_FLOW r) == f.pcId)
  else none

/-- R394: the first index that some carrier slot of RX chain r still takes. -/
def Dev.nextIndex (d : Dev) (r : Nat) : Nat :=
  let ks := (upFrom 0 4).filter (fun k => d.on (Reg.DFE_RX_CAR_ENABLE r k))
  match ks.map (fun k => d.dfeBlocks (512 + 4 * r + k) * 1024 * 2 ^ d.get (Reg.DFE_RX_CAR_RATE r k)) with
  | [] => 0
  | x :: xs => minD x xs

/-- R394: composite samples for RX chain r: 1 to 2,048 of them from TIME_INDEX on; those whose blocks are all written are dropped. -/
def Dev.chainSamples (d : Dev) (n r : Nat) (f : RxFrame) : Dev :=
  let m := ofBE (f.payload.take 8)
  let count := (f.payload.length - 8) / 4
  if count = 0 ∨ 2048 < count then d.rxDrop n
  else
    let low := d.nextIndex r
    let d := if m < low then d.rxDrop n else d
    let first := max m low
    if m + count ≤ first then d
    else d.onDfe (fun x => { x with got := update (fun _ => []) x.got r (lookup (fun _ => []) x.got r ++ [(first, m + count - first)]) })

/-! ### Steering (R398) -/

/-- R397 rule 2, R402: the steering entry that takes a frame: the lowest-numbered one. -/
def Dev.steerFor (d : Dev) (n : Nat) (f : RxFrame) : Option Nat :=
  if f.iqData then
    (upFrom 0 1024).find? (fun i => d.on (Reg.ETH_STEER_EN i) && d.get (Reg.ETH_STEER_PORT i) == n && d.get (Reg.ETH_STEER_PC_ID i) == f.pcId)
  else none

/-- The steering data replaced. -/
def Dev.steerSeen (d : Dev) (i : Nat) : Dev := d.onEth (fun e => { e with seen := insertOnce i e.seen })

/-- R398: the symbol number of an O-RAN header for MU. -/
def symbolNumber (hdr : List Byte) (mu : Nat) : Nat :=
  let v := ofBE (sliceBytes hdr 2 2)
  ((((hdr.getD 1 0).toNat * 10 + v / 4096) * 2 ^ mu + v / 64 % 64) * 14 + v % 64)

/-- R398: the period of symbol numbers. -/
def symbolPeriod (mu : Nat) : Nat := 256 * 10 * 2 ^ mu * 14

/-- R398: how far s lies behind the newest symbol of entry i; 0 where it is not behind. -/
def Dev.steerBehind (d : Dev) (i s : Nat) : Nat :=
  let p := symbolPeriod (d.get (Reg.ETH_STEER_MU i))
  if !d.eth.seen.contains i then 0
  else
    let k := (d.get (Reg.ETH_STEER_NEWEST i) + p - s % p) % p
    if 2 * k ≤ p then k else 0

/-- NEWEST follows the symbols seen. -/
def Dev.steerNewest (d : Dev) (i s : Nat) : Dev :=
  let p := symbolPeriod (d.get (Reg.ETH_STEER_MU i))
  let k := (d.get (Reg.ETH_STEER_NEWEST i) + p - s % p) % p
  if !d.eth.seen.contains i || decide (p < 2 * k) then (d.set (Reg.ETH_STEER_NEWEST i) s).steerSeen i else d

/-- R398: SEQ_ID is checked: says whether there is a gap. -/
def Dev.steerSeq (d : Dev) (i seq : Nat) : Dev × Bool :=
  let gap := match d.eth.seqs.find? (fun x => x.1 == i) with
    | some (_, last) => seq != (last + 1) % 256
    | none => false
  let d := d.onEth (fun e => { e with seqs := putKey i seq (dropKey i e.seqs) })
  (if gap then d.bump (Reg.ETH_STEER_SEQ_GAPS i) else d, gap)

/-- O-RAN: a section: startPrbu, how many PRBs, udCompHdr, and its PRBs' bytes. -/
structure Section where
  start : Nat
  count : Nat
  comp : Nat
  data : List Byte
  deriving DecidableEq, Repr

/-- The bytes of a PRB compressed as udCompHdr says: block floating point has an exponent byte. -/
def compBytes (comp : Nat) : Nat :=
  let w := if comp / 16 = 0 then 16 else comp / 16
  if comp % 16 = 1 then 3 * w + 1 else 3 * w

/-- R398: PB of a width. -/
def prbBytes (width : Nat) : Nat := if width = 0 then 48 else bfpBytes width

/-- R393, R398: udCompHdr of a width: block floating point, or none. -/
def compOf (width : Nat) : Nat := if width = 0 then 0 else 16 * width + 1

/-- O-RAN: the sections of a U-plane message; numPrbu 0 stands for as many PRBs as the payload holds. -/
def sectionsOf (udcomp : Bool) (width : Nat) : Nat → List Byte → List Section
  | 0, _ => []
  | fuel + 1, bs =>
    let hdr := if udcomp then 6 else 4
    if bs.length < hdr then []
    else
      let v := ofBE (bs.take 4)
      let comp := if udcomp then (bs.getD 4 0).toNat else compOf width
      let pb := compBytes comp
      let rest := bs.drop hdr
      let n := if v % 256 = 0 then rest.length / pb else v % 256
      let s : Section := { start := v / 256 % 1024, count := min n (rest.length / pb), comp := comp, data := rest.take (n * pb) }
      s :: sectionsOf udcomp width fuel (rest.drop (n * pb))

/-- A count of BAD. -/
def Dev.steerBad (d : Dev) (i : Nat) : Dev := d.bump (Reg.ETH_STEER_BAD i)

/-- R398: the request of a steering entry: its world, the PF's. -/
def Dev.steerReq (d : Dev) (i : Nat) : Req := { ethReq with world := d.on (Reg.ETH_STEER_SECURE i) }

/-- R398: PRBs written to the slot of symbol s since it was taken for s. -/
def Dev.prbsTaken (d : Dev) (i pos s : Nat) : Nat :=
  match d.eth.taken.find? (fun x => x.1 == 256 * i + pos) with
  | some (_, t, n) => if t = s then n else 0
  | none => 0

/-- R398: a section written to its symbol slot with the slot header after it. -/
def Io.sectionToSlot (s : Io) (i sym : Nat) (time : ShortTime) (flags : Nat) (x : Section) : Io :=
  let d := s.dev
  let width := d.get (Reg.ETH_STEER_WIDTH i)
  let size := d.get (Reg.ETH_STEER_SLOT_BYTES i)
  let pos := sym % max 1 (d.get (Reg.ETH_STEER_NSLOT i))
  let base := d.addr56 (Reg.ETH_STEER_BUF_BASE i).off 3 + pos * size
  let at_ := 16 + x.start * prbBytes width
  let fit := x.data.take (size - at_)
  let d := if fit.length < x.data.length then d.steerBad i else d
  let n := d.prbsTaken i pos sym + x.count
  let d := d.onEth (fun e => { e with taken := putKey (256 * i + pos) (sym, n) (dropKey (256 * i + pos) e.taken) })
  let (s, _) := ({ s with dev := d, stop := none } : Io).writeBytes (d.steerReq i) (base + at_) fit false
  let hdr := leBytes time.toNat 8 ++ leBytes n 2 ++ leBytes flags 1 ++ leBytes width 1 ++ leBytes sym 4
  (({ s with stop := none } : Io).writeBytes (d.steerReq i) base hdr false).1

/-- R287, R398: a PRB delivered to a receiver slot. -/
def Dev.deliverPrb (d : Dev) (x : FdPrb) : Dev :=
  d.onBrx (fun b => { b with fd := (b.fd.filter (fun y =>
    !(y.brx == x.brx && y.slot == x.slot && y.ant == x.ant && y.symbol == x.symbol && y.prb == x.prb))) ++ [x] })

/-- R398: a section delivered to its receiver, of the entry's world only. -/
def Dev.sectionToBrx (d : Dev) (i sym : Nat) (x : Section) : Dev :=
  let b := d.get (Reg.ETH_STEER_BRX i)
  let width := d.get (Reg.ETH_STEER_WIDTH i)
  let pb := prbBytes width
  if d.on (Reg.ETH_STEER_SECURE i) != d.on (Reg.BRX_CFG_SECURE b) then d.steerBad i
  else d.each (upFrom 0 x.count) (fun d p =>
    let bs := sliceBytes x.data (p * pb) pb
    let ws := if width = 0 then (upFrom 0 6).map (fun k => expandS16 (sliceBytes bs (8 * k) 8)) else expandPrb bs width
    d.deliverPrb { brx := b, slot := d.get (Reg.ETH_STEER_SLOT i), ant := d.get (Reg.ETH_STEER_ANT i), symbol := sym,
                   prb := x.start + p, words := ws })

/-- R398: one section of a frame. -/
def Io.steerSection (i sym : Nat) (time : ShortTime) (flags : Nat) (s : Io) (x : Section) : Io :=
  if x.comp != compOf (s.dev.get (Reg.ETH_STEER_WIDTH i)) then { s with dev := s.dev.steerBad i }
  else if s.dev.on (Reg.ETH_STEER_TARGET i) then { s with dev := s.dev.sectionToBrx i sym x }
  else s.sectionToSlot i sym time flags x

/-- R398: a frame for steering entry i. -/
def Dev.steerFrame (d : Dev) (n i : Nat) (f : RxFrame) (ext : List Ext) : Dev :=
  let d := d.bump (Reg.ETH_STEER_FRAMES i)
  let (d, gap) := d.steerSeq i (f.body.getD 6 0).toNat
  let sym := symbolNumber f.payload (d.get (Reg.ETH_STEER_MU i))
  if !d.on (Reg.ETH_STEER_TARGET i) && decide (d.get (Reg.ETH_STEER_NSLOT i) < 2 * d.steerBehind i sym) then
    d.bump (Reg.ETH_STEER_LATE i)
  else
    let d := d.steerNewest i sym
    let bs := f.payload.drop 4
    let xs := sectionsOf (d.on (Reg.ETH_STEER_UDCOMP i)) (d.get (Reg.ETH_STEER_WIDTH i)) bs.length bs
    (xs.foldl (Io.steerSection i sym (d.rxStamp n f) (d.rxTraceable n f + b2n gap * 2)) (Io.ofBlock d ext)).done

/-! ### The RX ring (R399) -/

/-- R399: has the RX ring of port n room by the consumer count last read? -/
def Dev.rxRoom (d : Dev) (n : Nat) : Bool :=
  decide ((d.get (Reg.ETH_PORT_RXR_PI n) + 2 ^ 32 - (d.port n).rxCi) % 2 ^ 32 < 2 ^ d.get (Reg.ETH_PORT_RXR_LOG2 n))

/-- R399: a ring that appears full has its consumer count read. -/
def Io.rxReadCi (s : Io) (n : Nat) : Io :=
  if s.dev.rxRoom n then s
  else
    let (s, bs, lost) := s.readBytes ethReq (s.dev.addr56 (Reg.ETH_PORT_RXR_CI_ADDR n).off 2) 4
    if lost || s.stop.isSome then s else { s with dev := s.dev.onPort n (fun p => { p with rxCi := ofLE bs }) }

/-- R399: CLASS of a frame. -/
def RxFrame.cls (f : RxFrame) : Nat :=
  if f.etype == 0x88F7 then 1
  else if f.ecpri && f.msgType == 0 then 2
  else if f.ecpri && f.msgType == 2 then 3
  else 0

/-- R399: a frame goes to the RX ring: its bytes, then its record. -/
def Dev.rxRing (d : Dev) (n : Nat) (f : RxFrame) (ext : List Ext) : Dev :=
  let s := (Io.ofBlock d ext).rxReadCi n
  if !s.dev.rxRoom n then (s.done.rxDrop n).ethAttend n 3
  else
    let d := s.dev
    let k := d.get (Reg.ETH_PORT_RXR_PI n)
    let lg := d.get (Reg.ETH_PORT_RXR_LOG2 n)
    let (s, _) := ({ s with stop := none } : Io).writeBytes ethReq
      (d.addr56 (Reg.ETH_PORT_RXB_BASE n).off 12 + k % 2 ^ lg * 10240) f.bytes false
    let v := f.bytes.length % 2 ^ 16 + f.cls * 2 ^ 16 + (d.rxTraceable n f + b2n f.protected_ * 2) * 2 ^ 24 +
      (d.rxStamp n f).toNat * 2 ^ 64 + (k / 2 ^ lg + 1) % 2 * 2 ^ 255
    let s := ({ s with stop := none } : Io).putRecord ethReq (d.addr56 (Reg.ETH_PORT_RXR_BASE n).off 12 + 32 * (k % 2 ^ lg)) v
    (s.done.bump (Reg.ETH_PORT_RXR_PI n)).raise (0x6F0 + n)

/-! ### Classification (R397) -/

/-- R397 rule 3: is port n the port of a PTP servo or a master port? -/
def Dev.ptpPort (d : Dev) (n : Nat) : Bool :=
  (d.get Reg.TB_SERVO_SOURCE == 0 && d.get Reg.TB_SERVO_PORT == n) || d.bit Reg.TB_SERVO_MASTER_PORTS n

/-- R397: the first rule that applies. -/
def Dev.sortFrame (d : Dev) (n : Nat) (f : RxFrame) (ext : List Ext) : Dev :=
  match d.chainFor n f with
  | some r => d.chainSamples n r f
  | none =>
    match d.steerFor n f with
    | some i => d.steerFrame n i f ext
    | none =>
      if f.etype == 0x88F7 && d.ptpPort n && !d.on (Reg.ETH_PORT_CFG_PTP_TO_RING n) then
        d.onEth (fun e => { e with toSteward := e.toSteward ++ [(n, d.rxStamp n f, f.bytes)] })
      else if d.on (Reg.ETH_PORT_CFG_RX_RING_EN n) then d.rxRing n f ext
      else d.rxDrop n

/-- R389, R396, R397: a frame arrives at port n: `good` is its FCS check, `t` its crossing at the balls, `bs` its bytes without
FCS. -/
def frameReceive (n : Nat) (good : Bool) (t : ShortTime) (bs : List Byte) (mismatch : Bool) (ext : List Ext) (d : Dev) : Dev :=
  if !d.running (ethFn n) || !d.on (Reg.ETH_PORT_STATUS_LINK_UP n) then d
  else if !good then d.bump (Reg.ETH_PORT_RX_FCS_ERR n)
  else if bs.length < 60 ∨ d.get (Reg.ETH_PORT_CFG_MAX_FRAME n) < bs.length + 4 ∨ etherType bs = 0x8808 then d.rxDrop n
  else
    let (d, out, prot) := d.msReceive n bs mismatch
    match out with
    | none => d
    | some x => (d.bump (Reg.ETH_PORT_RX_FRAMES n)).sortFrame n { bytes := x, time := t, protected_ := prot } ext

/-- FRAME_RECEIVE (R397). -/
def execFrameReceive (n : Fin 16) (good : Bool) (at_ : ShortTime) (bytes : List (BitVec 8)) (mismatch : Bool) (ext : List Ext)
    (s : State) : Host.Outcome State Fault Refusal := s.onDev (frameReceive n.val good at_ bytes mismatch ext)

end Sys2Proof.Machine
end

