-- ==== Sys2Proof/Machine/Time.lean ====
section
/-! DEFINITION. The timebase island (R371–R387): the counter and its broadcast, phase steps and slews, references, the time servo and
the time states, PPS, timed I/O and PTM. -/

namespace Sys2Proof.Machine

/-- The timebase island's own data replaced. -/
def Dev.onTime (d : Dev) (f : TimeState → TimeState) : Dev := { d with time := f d.time }

/-- An attention bit of TB_ATTN. -/
def Dev.tbAttend (d : Dev) (bit : Nat) : Dev := d.attend ⟨Reg.TB_ATTN.off, bit, 1⟩ 0x741

/-- R446: is the timebase island powered? -/
def Dev.timeRuns (d : Dev) : Bool := d.boot.powered && decide (d.get Reg.PWR_STATUS_STATE < 3)

/-- One second of full time, in units of 2^-16 ns. -/
def secondUnits : Nat := 1000000000 * 65536

/-- Milliseconds as short time. -/
def msUnits (n : Nat) : Int := (n * 1000000 * 65536 : Nat)

/-- R376: the codes of TB_STATE.STATE. -/
def tsFREE : Nat := 0
def tsACQUIRING : Nat := 1
def tsLOCKED : Nat := 2
def tsHOLDOVER : Nat := 3
def tsCOARSE : Nat := 4

/-- The time state. -/
def Dev.timeState (d : Dev) : Nat := d.get Reg.TB_STATE_STATE

/-- F in force (R371), in units of 2^-8 ppb. -/
def Dev.freqNow (d : Dev) : Int := signed (d.get Reg.TB_SERVO_FREQ) 32

/-- R377: the mean over the last 60 s of LOCKED of F, whose changes `xs` lists newest first, each holding until the one before it
in the list. -/
def meanFreq (from_ : ShortTime) : ShortTime → List (ShortTime × Int) → Int × Int
  | _, [] => (0, 0)
  | until_, (t, f) :: xs =>
    let start := if timeDiff t from_ < 0 then from_ else t
    let span := max 0 (timeDiff until_ start)
    let (sum, len) := meanFreq from_ t xs
    (f * span + sum, span + len)

/-- R376, R377: what entering a time state does beside the change itself. -/
def Dev.timeEntry (d : Dev) (st : Nat) : Dev :=
  if st = tsACQUIRING then d.onTime (fun t => { t with near := 0, far := 0, stepped := false })
  else if st = tsLOCKED then d.onTime (fun t => { t with near := 0, far := 0, freqs := [(t.short, d.freqNow)] })
  else if st = tsHOLDOVER then
    let now := d.time.short
    let (sum, len) := meanFreq (now - nsTime 60000000000) now d.time.freqs
    if len ≤ 0 then d else d.set Reg.TB_SERVO_FREQ (wrapTo 32 (sum / len))
  else d

/-- R376: the time state changes: TB_ATTN.STATE and TB_STATE. -/
def Dev.setTimeState (d : Dev) (st : Nat) : Dev :=
  if d.timeState = st then d
  else
    let d := d.timeEntry st
    let d := (d.set Reg.TB_STATE_STATE st).set Reg.TB_STATE_TRACEABLE (b2n (st == tsLOCKED))
    (d.tbAttend 0).raise 0x740

/-! ### The counter (R29, R371–R373, R378) -/

/-- The counter, short and full time changed by an amount in units of 2^-48 ns. -/
def TimeState.advance (t : TimeState) (x : Int) : TimeState :=
  let v : Int := (t.short.toNat * 2 ^ 32 + t.frac.toNat : Nat) + x
  let s : Int := v / (2 ^ 32 : Nat)
  { t with short := BitVec.ofInt 64 s, frac := BitVec.ofInt 32 v,
           full := (((t.full : Int) + (s - (t.short.toNat : Int))) % (fullSize : Int)).toNat }

/-- R371: what 16 timebase cycles add at F, in units of 2^-48 ns. -/
def broadcastStep (f : Int) : Int := 16 * (2 ^ 48 : Nat) + 16 * f * (2 ^ 40 : Nat) / 1000000000

/-- R378: what a slew adds in 16 timebase cycles: no more than what is left. -/
def TimeState.slewStep (t : TimeState) (ppb : Nat) : Nat := min t.slew (16 * ppb * 2 ^ 48 / 1000000000)

/-- R29, R371, R378: 16 timebase cycles pass and the broadcast takes the counter. -/
def shortTimeBroadcast (d : Dev) : Dev :=
  if !d.timeRuns then d
  else
    let n := d.time.slewStep (d.get Reg.TB_SERVO_SLEW_PPB)
    let x : Int := broadcastStep d.freqNow + (if d.time.slewNeg then -(n : Int) else (n : Int))
    d.onTime (fun t => let t := t.advance x; { t with cast := t.short, slew := t.slew - n })

/-- R378: the whole of PHASE has been applied. -/
def slewComplete (d : Dev) : Dev :=
  if d.on Reg.TB_ADJ_SLEWING && d.time.slew == 0 then d.set Reg.TB_ADJ_SLEWING 0 else d

/-- R378: a slew ends and what is left of it is discarded. -/
def Dev.dropSlew (d : Dev) : Dev := (d.onTime (fun t => { t with slew := 0, slewNeg := false })).set Reg.TB_ADJ_SLEWING 0

/-- R386: the period of pin i under way at a time: number, if START is reached. -/
def Dev.tioPeriod (d : Dev) (i : Nat) (now : ShortTime) : Nat :=
  let p := d.get (Reg.TB_TIO_PERIOD_NS i)
  if p = 0 then 0 else ((timeDiff now (BitVec.ofNat 64 (d.get64 (Reg.TB_TIO_START i)))).toNat / (p * 65536))

/-- A pin that was never driven. -/
def TioPin.reset : TioPin := { period := 0, edge := 0, level := none }

/-- Timed pin i. -/
def Dev.pin (d : Dev) (i : Nat) : TioPin := lookup (fun _ => TioPin.reset) d.time.pins i

/-- Timed pin i replaced. -/
def Dev.setPin (d : Dev) (i : Nat) (p : TioPin) : Dev :=
  d.onTime (fun t => { t with pins := update (fun _ => TioPin.reset) t.pins i p })

/-- R373, R386: a pin whose period ended in a skipped interval goes on with the period under way. -/
def Dev.pinSkips (d : Dev) (i : Nat) : Dev :=
  let p := d.pin i
  let k := d.tioPeriod i d.time.short
  if p.period < k then d.setPin i { p with period := k, edge := 0 } else d

/-- R373, R371: a phase step of x units of 2^-16 ns. -/
def Dev.phaseStep (d : Dev) (x : Int) : Dev :=
  let old := d.time.short
  let d := d.onTime (fun t =>
    let t := t.advance (x * (2 ^ 32 : Nat))
    let t := { t with cast := t.short }
    if x < 0 then { t with ppsSecond := t.full / secondUnits } else { t with skips := (old, t.short) :: t.skips })
  let d := d.each (upFrom 0 16) Dev.pinSkips
  d.tbAttend 1

/-- R378: may the host steer: the servo STOPPED and, for TB_ADJ.GO, no slew under way? -/
def Dev.steers (d : Dev) : Bool := d.stopped .servo

/-- R378: TB_ADJ.GO with SLEW as given. -/
def adjGo (slew : Bool) (who : Accessor) (d : Dev) : Dev :=
  if !d.steers || d.on Reg.TB_ADJ_SLEWING then d.cfgReject who Reg.TB_ADJ_GO.off
  else
    let x := signed (d.get64 Reg.TB_ADJ_PHASE) 64
    if slew && d.get Reg.TB_SERVO_SLEW_PPB != 0 then
      (d.onTime (fun t => { t with slew := x.natAbs * 2 ^ 32, slewNeg := decide (x < 0) })).set Reg.TB_ADJ_SLEWING 1
    else d.phaseStep x

/-- R378: a write of TB_ADJ.FREQ. -/
def adjFreq (who : Accessor) (v : Nat) (d : Dev) : Dev :=
  if !d.steers then d.cfgReject who Reg.TB_ADJ_FREQ.off else (d.set Reg.TB_ADJ_FREQ v).set Reg.TB_SERVO_FREQ v

/-- R376, R378: TB_SET.GO. -/
def setGo (who : Accessor) (d : Dev) : Dev :=
  if !d.steers || decide (999999999 < d.get Reg.TB_SET_NS) then d.cfgReject who Reg.TB_SET_GO.off
  else
    let sec := d.get Reg.TB_SET_SEC + d.get Reg.TB_SET_SEC_HI * 2 ^ 32
    let full := (sec * 1000000000 + d.get Reg.TB_SET_NS) * 65536
    let d := d.dropSlew.onTime (fun t => { t with full := full, ppsSecond := full / secondUnits })
    if d.timeState = tsCOARSE then d.setTimeState tsFREE else d

/-- R401: TB_SNAP.GO. -/
def snapGo (d : Dev) : Dev :=
  let f := d.time.full
  let sec := f / secondUnits
  let d := (d.set64 Reg.TB_SNAP_SHORT d.time.short.toNat).set Reg.TB_SNAP_SEC sec
  ((d.set Reg.TB_SNAP_SEC_HI (sec / 2 ^ 32)).set Reg.TB_SNAP_FRAC (f % 65536)).set Reg.TB_SNAP_NS (f % secondUnits / 65536)

/-! ### References (R374) -/

/-- R374: the references of TB_DPLL.SEL in order of priority. -/
def Dev.dpllSel (d : Dev) : List Nat := [d.get Reg.TB_DPLL_SEL0, d.get Reg.TB_DPLL_SEL1, d.get Reg.TB_DPLL_SEL2]

/-- R374: is a reference an entry that can be used? -/
def Dev.refValid (d : Dev) (code : Nat) : Bool := code != 0 && d.time.refs.contains code

/-- TB_DPLL.VALID. -/
def Dev.dpllValid (d : Dev) : Nat :=
  let v := d.dpllSel.map (fun c => b2n (d.refValid c))
  v.getD 0 0 + v.getD 1 0 * 2 + v.getD 2 0 * 4

/-- R374: the reference to take, given the active one: the active one while it is valid and, with REVERT, none above it is. -/
def Dev.dpllChoice (d : Dev) : Option Nat :=
  let act := d.get Reg.TB_DPLL_ACTIVE
  if d.refValid act && d.dpllSel.contains act && !d.on Reg.TB_DPLL_REVERT then some act else d.dpllSel.find? d.refValid

/-- R374, R376: the DPLL enters HOLD. -/
def Dev.enterHold (d : Dev) : Dev :=
  let d := ((d.set Reg.TB_DPLL_ACTIVE 0).set Reg.TB_DPLL_HOLD 1).tbAttend 3
  if d.timeState = tsLOCKED then d.setTimeState tsACQUIRING
  else if d.timeState = tsHOLDOVER then d.setTimeState tsFREE else d

/-- R374: the DPLL follows the references. -/
def Dev.dpllSelect (d : Dev) : Dev :=
  let d := d.set Reg.TB_DPLL_VALID d.dpllValid
  let act := d.get Reg.TB_DPLL_ACTIVE
  match d.dpllChoice with
  | some c =>
    let d := (d.set Reg.TB_DPLL_ACTIVE c).set Reg.TB_DPLL_HOLD 0
    if act ≠ 0 ∧ act ≠ c then d.tbAttend 2 else d
  | none => if d.on Reg.TB_DPLL_HOLD then d else d.enterHold

/-- R374: a reference becomes invalid. -/
def referenceInvalid (code : Nat) (d : Dev) : Dev :=
  if !d.timeRuns then d else (d.onTime (fun t => { t with refs := t.refs.filter (· != code) })).dpllSelect

/-- R374: a reference has been within its limits for 10 s. -/
def referenceValid (code : Nat) (d : Dev) : Dev :=
  if !d.timeRuns then d else (d.onTime (fun t => { t with refs := insertOnce code t.refs })).dpllSelect

/-- R374: a write of TB_DPLL.SYNCE_TX. -/
def synceTx (who : Accessor) (on_ : Bool) (d : Dev) : Dev :=
  if b2n on_ = d.get Reg.TB_DPLL_SYNCE_TX then d
  else if (upFrom 0 16).all (fun n => d.stopped (ethFn n)) then d.set Reg.TB_DPLL_SYNCE_TX (b2n on_)
  else d.cfgReject who Reg.TB_DPLL_SYNCE_TX.off

/-! ### The servo (R375–R377) -/

/-- R375: the RUN start check of the servo: the port its source names is in RUN. -/
def Dev.servoCheck (d : Dev) : Option Nat :=
  let p := d.get Reg.TB_SERVO_PORT
  match d.get Reg.TB_SERVO_SOURCE with
  | 0 => if d.running (ethFn p) then none else some 2
  | 2 => if p < 3 ∧ d.running (.uld (Fin.ofNat 3 p)) = true then none else some 2
  | _ => none

/-- R375: is the source traceable? -/
def Dev.sourceTraceable (d : Dev) : Bool :=
  if d.get Reg.TB_SERVO_SOURCE = 0 then d.get Reg.TB_SERVO_GM_CLASS == 6 else d.on Reg.TB_SERVO_EXT_TRACE

/-- R376: the servo accepts a measurement. -/
def Dev.acceptMeasurement (d : Dev) : Dev :=
  let first := d.timeState = tsFREE ∨ d.timeState = tsCOARSE ∨ d.timeState = tsHOLDOVER
  let d := d.onTime (fun t => { t with measured := t.short, corrected := if first then t.short else t.corrected })
  if first then d.setTimeState tsACQUIRING else d

/-- R376: the servo stops. -/
def Dev.servoStops (d : Dev) : Dev :=
  if d.timeState = tsLOCKED then d.setTimeState tsHOLDOVER
  else if d.timeState = tsACQUIRING then d.setTimeState tsFREE else d

/-- R377: F as the steward corrects it: the correcting part within ±SLEW_PPB, F within ±100,000 ppb. -/
def Dev.correctedFreq (d : Dev) (freq slew : Int) : Int :=
  let lim : Int := d.get Reg.TB_SERVO_SLEW_PPB * 256
  max (-25600000) (min 25600000 (freq + max (-lim) (min lim slew)))

/-- R376: the counts of updates near and far from zero offset, in ns at 2^-16. -/
def Dev.countUpdate (d : Dev) (offset : Int) : Dev :=
  let lock : Int := d.get Reg.TB_SERVO_LOCK_NS * 65536
  let near := decide (offset.natAbs ≤ lock)
  let far := decide (4 * lock < offset.natAbs)
  d.onTime (fun t => { t with near := if near then t.near + 1 else 0, far := if far then t.far + 1 else 0 })

/-- R376, R377: the effects of an update on the phase and the time state. -/
def Dev.judgeUpdate (d : Dev) (offset : Int) : Dev :=
  if d.timeState = tsACQUIRING then
    if d.time.stepped = false ∧ (d.get Reg.TB_SERVO_STEP_NS * 65536 : Nat) < offset.natAbs then
      (d.onTime (fun t => { t with stepped := true, near := 0 })).phaseStep offset
    else if 16 ≤ d.time.near ∧ d.sourceTraceable = true ∧ d.on Reg.TB_DPLL_HOLD = false then d.setTimeState tsLOCKED
    else d
  else if d.timeState = tsLOCKED then
    if 4 ≤ d.time.far ∨ d.sourceTraceable = false then d.setTimeState tsACQUIRING
    else d.onTime (fun t => { t with freqs := (t.short, d.freqNow) :: t.freqs })
  else d

/-- R377: the steward writes a correction: the filtered offset (reference less device, 2^-16 ns), F and its correcting part, whether
a measurement was accepted, and the selected master's clockClass. -/
def servoUpdate (offset freq slew : Int) (accepted : Bool) (gm : Nat) (d : Dev) : Dev :=
  if !d.timeRuns || !d.running .servo then d
  else
    let d := if d.get Reg.TB_SERVO_SOURCE = 0 then d.set Reg.TB_SERVO_GM_CLASS gm else d
    let d := (d.set64 Reg.TB_SERVO_OFFSET (wrapTo 64 offset)).set Reg.TB_SERVO_FREQ (wrapTo 32 (d.correctedFreq freq slew))
    let d := if accepted then d.acceptMeasurement else d
    ((d.onTime (fun t => { t with corrected := t.short })).countUpdate offset).judgeUpdate offset

/-- R375: TB_HOST_MEAS.COMMIT: a measurement of more than 1 s ago is discarded. -/
def hostMeasurement (d : Dev) : Dev :=
  let at_ : ShortTime := BitVec.ofNat 64 (d.get64 Reg.TB_HOST_MEAS_AT)
  if d.running .servo && d.get Reg.TB_SERVO_SOURCE == 3 && decide (-(secondUnits : Int) ≤ timeDiff at_ d.time.short) then
    d.acceptMeasurement else d

/-- R376, R377: LOSS_MS without an accepted measurement or without a correction. -/
def measurementLoss (d : Dev) : Dev :=
  let lim := msUnits (d.get Reg.TB_SERVO_LOSS_MS)
  let lost := decide (lim ≤ timeDiff d.time.short d.time.measured) || decide (lim ≤ timeDiff d.time.short d.time.corrected)
  if d.timeRuns && d.running .servo && lost && (d.timeState == tsLOCKED || d.timeState == tsACQUIRING) then
    d.servoStops.tbAttend 4 else d

/-- R375: the PTP messages of a port that the servo or a master port sends: Sync and Announce from a master, Delay_Req from the
slave. `frames` are their bytes without FCS; a frame of another kind is not one of them. -/
def Dev.ptpSends (d : Dev) (n : Nat) (bs : List Byte) : Bool :=
  let kind := (bs.getD 14 0).toNat % 16
  decide (14 < bs.length) && etherType bs == 0x88F7 &&
    ((d.bit Reg.TB_SERVO_MASTER_PORTS n && (kind == 0 || kind == 11)) || (d.get Reg.TB_SERVO_PORT == n && kind == 1))

/-- R375: one interval of PTP messages on port n, through its frame path. -/
def ptpInterval (n : Nat) (t : ShortTime) (frames : List (List Byte)) (d : Dev) : Dev :=
  if !d.timeRuns || !d.running .servo || d.get Reg.TB_SERVO_SOURCE != 0 || !d.running (ethFn n) ||
      !d.on (Reg.ETH_PORT_STATUS_LINK_UP n) then d
  else d.each (frames.filter (d.ptpSends n)) (fun d bs =>
    let (d, out) := d.msSend n bs false
    match out with
    | some w => (d.onPort n (fun p => { p with wire := p.wire ++ [(t, w)] })).bump (Reg.ETH_PORT_TX_FRAMES n)
    | none => d)

/-! ### PPS, timed I/O and PTM (R384–R387) -/

/-- R384: does OUT_MODE let PPS_OUT pulse now? -/
def Dev.ppsPulses (d : Dev) : Bool :=
  d.on Reg.TB_PPS_OUT_EN &&
  match d.get Reg.TB_PPS_OUT_MODE with
  | 0 => true
  | 1 => d.timeState == tsLOCKED || d.timeState == tsHOLDOVER
  | 2 => d.timeState == tsLOCKED
  | _ => false

/-- R384: OUT_ADJ_PS in units of 2^-16 ns. -/
def Dev.ppsAdj (d : Dev) : Int := (psTime (signed (d.get Reg.TB_PPS_OUT_ADJ_PS) 16)).toInt

/-- R384: PPS_OUT rises for the second boundary just passed, and falls WIDTH_NS after it. -/
def Dev.ppsRise (d : Dev) (sec : Nat) : Dev :=
  let edge : Int := (sec * secondUnits : Nat) + d.ppsAdj
  let end_ := BitVec.ofInt 64 ((d.time.short.toNat : Int) + (edge - (d.time.full : Int)) + (d.get Reg.TB_PPS_WIDTH_NS * 65536 : Nat))
  d.onTime (fun t => { t with ppsOut := some true, ppsEnd := end_ })

/-- R379, R384, R385: a full-time second has passed, OUT_ADJ_PS taken into account for the pulse. -/
def secondBoundary (d : Dev) : Dev :=
  let sec := (((d.time.full : Int) - d.ppsAdj) / (secondUnits : Int)).toNat
  if !d.timeRuns || sec ≤ d.time.ppsSecond then d
  else
    let missed := d.running .servo && d.get Reg.TB_SERVO_SOURCE == 1 && d.time.ppsIn.isNone
    let d := d.onTime (fun t => { t with ppsSecond := sec, ppsIn := none, coarse := t.full / secondUnits * 32768 })
    let d := d.set Reg.TB_COARSE_VALID 1
    let d := if missed then d.tbAttend 5 else d
    if d.ppsPulses then d.ppsRise sec else d

/-- R384: PPS_OUT falls. -/
def ppsPulseEnd (d : Dev) : Dev :=
  if d.timeRuns && d.time.ppsOut == some true && reached d.time.ppsEnd d.time.short then
    d.onTime (fun t => { t with ppsOut := some false }) else d

/-- R385: how far full time at a short time lies from the nearest second. -/
def Dev.offSecond (d : Dev) (t : ShortTime) : Nat :=
  let r := d.fullAt t % secondUnits
  min r (secondUnits - r)

/-- R385: an edge of PPS_IN. -/
def ppsInEdge (falling : Bool) (t : ShortTime) (d : Dev) : Dev :=
  if !d.timeRuns || !d.on Reg.TB_PPS_IN_EN || d.on Reg.TB_PPS_IN_FALLING != falling then d
  else
    let d := ((d.set64 Reg.TB_PPS_IN_TIME t.toNat).bump Reg.TB_PPS_IN_COUNT).raise 0x742
    if !d.running .servo || d.get Reg.TB_SERVO_SOURCE != 1 then d
    else if 1000000 * 65536 < d.offSecond t then d.tbAttend 5
    else (d.onTime (fun x => { x with ppsIn := some t })).acceptMeasurement

/-- The function of timed pin i. -/
def tioFn (i : Nat) : Fn := .tio (Fin.ofNat 16 i)

/-- R386: an edge on input pin i. -/
def tioInput (i : Nat) (falling : Bool) (t : ShortTime) (d : Dev) : Dev :=
  if !d.timeRuns || !d.running (tioFn i) || d.on (Reg.TB_TIO_CFG_MODE i) || d.on (Reg.TB_TIO_CFG_FALLING i) != falling then d
  else ((d.set64 (Reg.TB_TIO_LAST i) t.toNat).bump (Reg.TB_TIO_COUNT i)).raise (0x750 + i)

/-- R386: the enabled edges of pin i. -/
def Dev.tioEdges (d : Dev) (i : Nat) : List Nat := (upFrom 0 8).filter (fun j => d.on (Reg.TB_TIO_EDGE_EN i j))

/-- R386: are offsets strictly ascending, 4 ns apart? -/
def spaced : List Nat → Bool
  | [] => true
  | [_] => true
  | x :: y :: xs => decide (x + 4 ≤ y) && spaced (y :: xs)

/-- R386: the RUN start check of pin i. -/
def Dev.tioCheck (d : Dev) (i : Nat) : Option Nat :=
  let p := d.get (Reg.TB_TIO_PERIOD_NS i)
  let os := (d.tioEdges i).map (fun j => d.get (Reg.TB_TIO_EDGE_OFS_NS i j))
  let wraps := match os.head?, os.getLast? with
    | some a, some b => decide (p = 0) || decide (b + 4 ≤ a + p)
    | _, _ => true
  if (p = 0 || decide (100 ≤ p)) && spaced os && (p = 0 || os.all (fun o => decide (o < p))) && wraps then none else some 1

/-- R386: pin i enters RUN: an output drives IDLE_LEVEL, and periods that have ended are skipped. -/
def Dev.tioStarts (d : Dev) (i : Nat) : Dev :=
  if !d.on (Reg.TB_TIO_CFG_MODE i) then d
  else
    let k := d.tioPeriod i d.time.short
    d.setPin i { period := k, edge := 0, level := some (d.on (Reg.TB_TIO_CFG_IDLE_LEVEL i)) }

/-- R386: the time of edge j of period k of pin i. -/
def Dev.tioTime (d : Dev) (i k j : Nat) : ShortTime :=
  BitVec.ofNat 64 (d.get64 (Reg.TB_TIO_START i) +
    (k * d.get (Reg.TB_TIO_PERIOD_NS i) + d.get (Reg.TB_TIO_EDGE_OFS_NS i j)) * 65536)

/-- R386: the next edge of pin i: period and number; none after the single period. -/
def Dev.tioNext (d : Dev) (i : Nat) : Option (Nat × Nat) :=
  let p := d.pin i
  match (d.tioEdges i).find? (fun j => decide (p.edge ≤ j)) with
  | some j => some (p.period, j)
  | none =>
    if d.get (Reg.TB_TIO_PERIOD_NS i) = 0 then none
    else match (d.tioEdges i).head? with
      | some j => some (p.period + 1, j)
      | none => none

/-- R386: the next edge of output pin i whose time is reached. -/
def tioOutput (i : Nat) (d : Dev) : Dev :=
  if !d.timeRuns || !d.running (tioFn i) || !d.on (Reg.TB_TIO_CFG_MODE i) then d
  else match d.tioNext i with
    | none => d
    | some (k, j) =>
      let t := d.tioTime i k j
      if reached t d.time.short then
        (d.set64 (Reg.TB_TIO_LAST i) t.toNat).setPin i { period := k, edge := j + 1, level := some (d.on (Reg.TB_TIO_EDGE_LEVEL i j)) }
      else d

/-- R387: a PTM Request is answered with Response and ResponseD; the PTM Master Time is rounded half up to ns. -/
def ptmRequest (d : Dev) : Dev :=
  if !d.timeRuns || !d.boot.perst then d
  else (d.send (.ptm ((d.time.full + 32768) / 65536))).bump Reg.TB_PTM_RESPONSES

/-! ### Writes of ETH_QUAD and ETH_STEER (R388, R402) -/

/-- R388: a write of ETH_QUAD[q]. -/
def ethQuadWrite (who : Accessor) (q v : Nat) (d : Dev) : Dev :=
  if (upFrom (4 * q) 4).all (fun n => d.stopped (ethFn n)) then
    ((d.set (Reg.ETH_QUAD_SPLIT q) v).set (Reg.ETH_QUAD_RATE q) (v / 4)).set (Reg.ETH_QUAD_C2M q) (v / 16)
  else d.cfgReject who (Reg.ETH_QUAD_SPLIT q).off

/-- R402: the writable bits of word w of a steering entry. -/
def steerMask (w : Nat) : Nat :=
  match w with
  | 0 => 0x00FFFFFF
  | 1 => 0x3FFFFFF7
  | 2 => 0xFFFFFFF8
  | 3 => 0x00FFFFFF
  | 4 => 0x00007FFF
  | _ => 0

/-- R402: a steering entry becomes enabled: it has seen no symbol. -/
def Dev.steerStarts (d : Dev) (i : Nat) : Dev :=
  d.onEth (fun e => { e with seqs := dropKey i e.seqs, seen := e.seen.filter (· != i),
                             taken := e.taken.filter (fun x => x.1 / 256 != i) })

/-- R10, R404: a non-secure write leaves SECURE as it is, and is a violation if it carries a 1 there. -/
def Dev.keepSecure (d : Dev) (who : Accessor) (off bit v : Nat) : Dev × Nat :=
  if who = .secure then (d, v)
  else ((if bitOf v bit then d.regViolation who off else d), putBits v bit 1 (bitsOf (d.word off).toNat bit 1))

/-- R402: a write to word w of steering entry i. While EN is 1, a write that changes a field other than EN is rejected, and so is not
carried out at all. -/
def ethSteerWrite (who : Accessor) (i w v : Nat) (d : Dev) : Dev :=
  let off := (Reg.ETH_STEER_EN i).off + 4 * w
  let old := (d.word off).toNat
  let (d, v) := if w = 0 then d.keepSecure who off 7 v else (d, v)
  let new := (old &&& (0xFFFFFFFF ^^^ steerMask w)) ||| (v &&& steerMask w)
  let changes := if w = 0 then decide (old / 2 ≠ new / 2) else decide (old ≠ new)
  if d.on (Reg.ETH_STEER_EN i) && changes then d.cfgReject who off
  else
    let starts := w == 0 && old % 2 == 0 && new % 2 == 1
    let d := d.setWord off (BitVec.ofNat 32 new)
    if starts then d.steerStarts i else d

/-- SHORT_TIME_BROADCAST (R29). -/
def execShortTimeBroadcast (s : State) : Host.Outcome State Fault Refusal := s.onDev shortTimeBroadcast
/-- REFERENCE_INVALID (R374). -/
def execReferenceInvalid (code : BitVec 8) (s : State) : Host.Outcome State Fault Refusal := s.onDev (referenceInvalid code.toNat)
/-- REFERENCE_VALID (R374). -/
def execReferenceValid (code : BitVec 8) (s : State) : Host.Outcome State Fault Refusal := s.onDev (referenceValid code.toNat)
/-- SYNCE_TX_WRITE (R374). -/
def execSynceTxWrite (who : Accessor) (on_ : Bool) (s : State) : Host.Outcome State Fault Refusal :=
  s.onDev (fun d => d.mapped who Reg.TB_DPLL_SYNCE_TX.off (synceTx who on_))
/-- SERVO_UPDATE (R377). -/
def execServoUpdate (offset : BitVec 64) (freq slew : BitVec 32) (accepted : Bool) (gm : BitVec 8) (s : State) :
    Host.Outcome State Fault Refusal := s.onDev (servoUpdate offset.toInt freq.toInt slew.toInt accepted gm.toNat)
/-- TB_HOST_MEAS_COMMIT (R375). -/
def execTbHostMeasCommit (who : Accessor) (s : State) : Host.Outcome State Fault Refusal :=
  s.onDev (fun d => d.mapped who Reg.TB_HOST_MEAS_COMMIT.off hostMeasurement)
/-- MEASUREMENT_LOSS (R376). -/
def execMeasurementLoss (s : State) : Host.Outcome State Fault Refusal := s.onDev measurementLoss
/-- TB_ADJ_FREQ_WRITE (R378). -/
def execTbAdjFreqWrite (who : Accessor) (value : BitVec 32) (s : State) : Host.Outcome State Fault Refusal :=
  s.onDev (fun d => d.mapped who Reg.TB_ADJ_FREQ.off (adjFreq who value.toNat))
/-- TB_ADJ_GO_STEP (R378). -/
def execTbAdjGoStep (who : Accessor) (s : State) : Host.Outcome State Fault Refusal :=
  s.onDev (fun d => d.mapped who Reg.TB_ADJ_GO.off (adjGo false who))
/-- TB_ADJ_GO_SLEW (R378). -/
def execTbAdjGoSlew (who : Accessor) (s : State) : Host.Outcome State Fault Refusal :=
  s.onDev (fun d => d.mapped who Reg.TB_ADJ_GO.off (adjGo true who))
/-- SLEW_COMPLETE (R378). -/
def execSlewComplete (s : State) : Host.Outcome State Fault Refusal := s.onDev slewComplete
/-- TB_SET_GO (R378). -/
def execTbSetGo (who : Accessor) (s : State) : Host.Outcome State Fault Refusal :=
  s.onDev (fun d => d.mapped who Reg.TB_SET_GO.off (setGo who))
/-- TB_SNAP_GO (R401). -/
def execTbSnapGo (who : Accessor) (s : State) : Host.Outcome State Fault Refusal :=
  s.onDev (fun d => d.mapped who Reg.TB_SNAP_GO.off snapGo)
/-- SECOND_BOUNDARY (R384). -/
def execSecondBoundary (s : State) : Host.Outcome State Fault Refusal := s.onDev secondBoundary
/-- PPS_PULSE_END (R384). -/
def execPpsPulseEnd (s : State) : Host.Outcome State Fault Refusal := s.onDev ppsPulseEnd
/-- PPS_IN_EDGE (R385). -/
def execPpsInEdge (falling : Bool) (at_ : ShortTime) (s : State) : Host.Outcome State Fault Refusal := s.onDev (ppsInEdge falling at_)
/-- TIMED_IO_INPUT_EDGE (R386). -/
def execTimedIoInputEdge (i : Fin 16) (falling : Bool) (at_ : ShortTime) (s : State) : Host.Outcome State Fault Refusal :=
  s.onDev (tioInput i.val falling at_)
/-- TIMED_IO_OUTPUT_EDGE (R386). -/
def execTimedIoOutputEdge (i : Fin 16) (s : State) : Host.Outcome State Fault Refusal := s.onDev (tioOutput i.val)
/-- PTM_REQUEST (R387). -/
def execPtmRequest (s : State) : Host.Outcome State Fault Refusal := s.onDev ptmRequest
/-- PTP_SYNC_INTERVAL (R375). -/
def execPtpSyncInterval (n : Fin 16) (at_ : ShortTime) (frames : List (List (BitVec 8))) (s : State) :
    Host.Outcome State Fault Refusal := s.onDev (ptpInterval n.val at_ frames)
/-- ETH_QUAD_WRITE (R388). -/
def execEthQuadWrite (who : Accessor) (q : Fin 4) (value : BitVec 32) (s : State) : Host.Outcome State Fault Refusal :=
  s.onDev (fun d => d.mapped who (Reg.ETH_QUAD_SPLIT q.val).off (ethQuadWrite who q.val value.toNat))
/-- ETH_STEER_WRITE (R402). -/
def execEthSteerWrite (who : Accessor) (i : Fin 1024) (w : Fin 16) (value : BitVec 32) (s : State) :
    Host.Outcome State Fault Refusal :=
  s.onDev (fun d => d.mapped who ((Reg.ETH_STEER_EN i.val).off + 4 * w.val) (ethSteerWrite who i.val w.val value.toNat))

end Sys2Proof.Machine
end

