-- ==== Sys2Proof/Machine/Cipher.lean ====
section
/-! DEFINITION. Worlds of granules (R405), key commands of the desks (R410, R411), cipher jobs (R416–R426), quarantine windows, SVN
commits (R432) and debug tokens (R433). -/

namespace Sys2Proof.Machine

/-! ### Regions (R405, R435) -/

/-- R435: the granule an INDEX of a KIND names: register, bit, first word and words; none beyond its region. -/
def granuleOf (kind stack index : Nat) : Option (Fld × Nat × Nat × Nat) :=
  match kind with
  | 0 => if index < 104 then some (Reg.SEC_RGN_ERG (index / 32), index % 32, 0x10000000 / 8 + index * 65536, 65536) else none
  | 1 => if index < 80 then some (Reg.SEC_RGN_MESA (index / 32), index % 32, 0x20000000 / 8 + index * 65536, 65536) else none
  | 2 => if index < 20 then some (Reg.SEC_RGN_ACCEL, index, 0x30000000 / 8 + index * 65536, 65536) else none
  | _ =>
    if index < 19661 then
      some (Reg.SEC_RGN_HBM stack (index / 32), index % 32, hbmBase stack / 8 + index * 131072, min 131072 (2576980352 - index * 131072))
    else none

/-- R405: SEC_REGION_CMD.GO. -/
def regionGo (who : Accessor) (d : Dev) : Dev :=
  if d.on Reg.SEC_REGION_STATUS_BUSY then d.cfgReject who Reg.SEC_REGION_CMD_GO.off
  else match granuleOf (d.get Reg.SEC_REGION_CMD_KIND) (d.get Reg.SEC_REGION_CMD_STACK) (d.get Reg.SEC_REGION_CMD_INDEX) with
    | none => d.set Reg.SEC_REGION_STATUS_BAD 1
    | some (f, k, w, n) =>
      let c : RegionChange := { off := f.off, bit := k, first := w, words := n, world := d.on Reg.SEC_REGION_CMD_WORLD }
      ((d.onSec (fun s => { s with region := some c })).set Reg.SEC_REGION_STATUS_BAD 0).set Reg.SEC_REGION_STATUS_BUSY 1

/-- R113, R405: words filled with zero and valid check bits. -/
def Dev.zeroWords (d : Dev) (w n : Nat) : Dev := { d with mem := zeroCells d.mem (16 * w) (16 * n) }

/-- R405: the granule is zero-filled and takes its new world. -/
def regionDone (d : Dev) : Dev :=
  match d.sec.region with
  | none => d
  | some c =>
    let d := (d.onSec (fun s => { s with region := none })).zeroWords c.first c.words
    let f : Fld := ⟨c.off, c.bit, 1⟩
    ((d.set f (b2n c.world)).set Reg.SEC_REGION_STATUS_BUSY 0).raise 0x7E3

/-- R170, R405: a write of the world of core c. -/
def coreWorld (who : Accessor) (c : Nat) (world : Bool) (d : Dev) : Dev :=
  let f := Reg.ERG_CORE_CFG_WORLD (c / 8) (c % 8)
  if !d.stopped (ergFn (c / 8)) then d.cfgReject who f.off
  else if d.on f == world then d
  else (d.zeroCore c).set f (b2n world)

/-! ### Key commands (R410, R411) -/

/-- R414: does an accessor reach desk f? -/
def Dev.deskServed (d : Dev) (who : Accessor) (f : Nat) : Bool :=
  d.served who (Reg.CIPH_DESK_JOBS f).off && (wholeMap who || match who with
    | .func g => g.val == f
    | _ => true)

/-- R409, R433: the blob key: derived on chip, its bytes are known to nobody. -/
def Dev.blobKey (d : Dev) : List Nat := (upFrom 0 32).map (fun i => Config.freeFun 22 [b2n d.sec.debugKey, i] % 256)

/-- The request of a key command: the steward's endpoint, in the world that wrote GO. -/
def kcmdReq (who : Accessor) (f : Nat) : Req :=
  { world := who == .secure, ep := 88, func := some f, reader := 4, own := false, win := 0 }

/-- The operands of a desk's key command. -/
structure Kcmd where
  desk : Nat
  who : Accessor
  op : Nat
  drawer : Nat
  kek : Nat
  root : Bool
  wide : Bool
  target : Nat
  addr : Nat
  deriving DecidableEq, Repr

/-- R436: the command a desk's registers hold. -/
def Dev.kcmd (d : Dev) (who : Accessor) (f : Nat) : Kcmd :=
  { desk := f, who := who, op := d.get (Reg.CIPH_DESK_KCMD_OP f), drawer := d.get (Reg.CIPH_DESK_KCMD_DRAWER f),
    kek := d.get (Reg.CIPH_DESK_KCMD_KEK f), root := d.on (Reg.CIPH_DESK_KCMD_KEK_ROOT f), wide := d.on (Reg.CIPH_DESK_KCMD_KW_256 f),
    target := d.get (Reg.CIPH_DESK_KCMD_TARGET_DESK f), addr := d.addr56 (Reg.CIPH_DESK_KCMD_ADDR f).off 3 }

/-- R411: is drawer i granted to desk f for a command? Desk 0 has every drawer for LOAD and CLEAR. -/
def Dev.deskGranted (d : Dev) (f i op : Nat) : Bool := (d.drawer i).grants.getLsbD f || (f == 0 && (op == 1 || op == 3))

/-- What a key command does: RESULT, the device, and the KEY_ID a LOAD reports. -/
structure KcmdEnd where
  result : Nat
  dev : Dev
  keyId : Option Nat

/-- R411: the key that unwraps: the blob key, or a drawer of class KEK256 with UNWRAP. -/
def Dev.wrappingKey (d : Dev) (c : Kcmd) : Except Nat (List Nat) :=
  if c.root then (if d.sec.rootKey then .ok d.blobKey else .error 1)
  else
    let x := d.drawer c.kek
    if x.loaded && x.cls == 4 && x.usage.getLsbD 5 then .ok x.bytes else .error 4

/-- R410: a record of a blob as a drawer's contents, or the RESULT it is refused with. -/
def recordDrawer (secure : Bool) (r : List Nat) : Except Nat Drawer :=
  let cls := r.getD 1 0
  let usage := r.getD 2 0
  let sec := r.getD 3 0
  if r.length ≠ 48 ∨ r.getD 0 0 ≠ 1 ∨ cls = 0 ∨ 4 < cls then .error 1
  else if usage / 64 ≠ 0 ∨ (bitOf usage 5 = true ∧ cls ≠ 4) ∨ (sec % 2 = 1 ∧ secure = false) then .error 4
  else
    let key := (r.drop 16).take (if cls = 1 ∨ cls = 3 then 16 else 32)
    .ok { loaded := true, cls := cls, usage := BitVec.ofNat 6 usage, secure := sec % 2 == 1,
          keyId := BitVec.ofNat 32 (ofLE (ofNats ((r.drop 4).take 4))), key := BitVec.ofNat 256 (ofLE (ofNats key)), uses := 0, grants := 0 }

/-- R411: LOAD and LOAD_KW up to the bytes at ADDR: grants, use, key and memory. -/
def Dev.loadBytes (d : Dev) (c : Kcmd) (n : Nat) (ext : List Ext) : Dev × Except Nat (List Nat × List Nat) :=
  if !d.deskGranted c.desk c.drawer c.op || (!c.root && !d.deskGranted c.desk c.kek c.op) then (d, .error 2)
  else if d.drawerInUse c.drawer then (d, .error 3)
  else
    let (s, bs, lost) := (Io.ofBlock d ext).readBytes (kcmdReq c.who c.desk) c.addr n
    if s.stop.isSome then (s.done, .error 7)
    else if lost then (s.done, .error 1)
    else match d.wrappingKey c with
      | .ok k => (s.done, .ok (k, toNats bs))
      | .error e => (s.done, .error e)

/-- R411: a drawer takes new contents; its grants stay. -/
def Dev.fillDrawer (d : Dev) (i : Nat) (x : Drawer) : Dev := d.setDrawer i { x with grants := (d.drawer i).grants }

/-- R411: LOAD. -/
def Dev.keyLoad (d : Dev) (c : Kcmd) (ext : List Ext) : KcmdEnd :=
  match d.loadBytes c 56 ext with
  | (d, .error e) => ⟨e, d, none⟩
  | (d, .ok (k, ct)) =>
    match kwpUnwrap k ct with
    | none => ⟨1, d, none⟩
    | some r =>
      match recordDrawer (c.who == .secure) r with
      | .error e => ⟨e, d, none⟩
      | .ok x => ⟨0, d.fillDrawer c.drawer x, some x.keyId.toNat⟩

/-- R411: LOAD_KW. -/
def Dev.keyLoadKw (d : Dev) (c : Kcmd) (ext : List Ext) : KcmdEnd :=
  let c := { c with root := false }
  match d.loadBytes c (if c.wide then 40 else 24) ext with
  | (d, .error e) => ⟨e, d, none⟩
  | (d, .ok (k, ct)) =>
    match kwUnwrap k ct with
    | none => ⟨1, d, none⟩
    | some r =>
      ⟨0, d.fillDrawer c.drawer { loaded := true, cls := if c.wide then 2 else 1, usage := 16, secure := false, keyId := 0,
                                  key := BitVec.ofNat 256 (ofLE (ofNats r)), uses := 0, grants := 0 }, none⟩

/-- R411: CLEAR. -/
def Dev.keyClear (d : Dev) (c : Kcmd) : KcmdEnd :=
  if !d.deskGranted c.desk c.drawer c.op then ⟨2, d, none⟩
  else if d.drawerInUse c.drawer then ⟨3, d, none⟩
  else ⟨0, d.fillDrawer c.drawer Drawer.empty, none⟩

/-- R411: GRANT and REVOKE. -/
def Dev.keyGrant (d : Dev) (c : Kcmd) (give : Bool) : KcmdEnd :=
  if c.desk ≠ 0 then ⟨5, d, none⟩
  else
    let x := d.drawer c.drawer
    let bit := BitVec.ofNat 64 (2 ^ c.target)
    ⟨0, d.setDrawer c.drawer { x with grants := if give then x.grants ||| bit else x.grants &&& ~~~bit }, none⟩

/-- R410, R411: the record of an imported KEK. The manual gives its class, usage and key; its KEY_ID and SECURE bit are open. -/
def kekRecord (keyId sec : Nat) (key : List Nat) : List Nat :=
  [1, 4, 32, sec % 2] ++ toNats (leBytes keyId 4) ++ List.replicate 8 0 ++ key

/-- R408, R411: KEK_IMPORT. -/
def Dev.kekImport (d : Dev) (c : Kcmd) (ext : List Ext) : KcmdEnd :=
  if c.who ≠ .secure then ⟨5, d, none⟩
  else if d.sec.ownerLocked then ⟨6, d, none⟩
  else
    let q := kcmdReq c.who c.desk
    let (s, key, lost) := (Io.ofBlock d ext).readBytes q c.addr 32
    if s.stop.isSome then ⟨7, s.done, none⟩
    else if lost || !d.sec.rootKey then ⟨1, s.done, none⟩
    else
      let (v, d1) := s.dev.draw
      let blob := ofNats (kwpWrap d.blobKey (kekRecord (v.toNat % 2 ^ 32) (v.toNat / 2 ^ 32) (toNats key)))
      let (s, _) := ({ s with dev := d1 } : Io).writeBytes q (c.addr + 32) blob false
      let ok := s.stop.isNone
      let (s, _) := ({ s with stop := none } : Io).writeBytes q c.addr (List.replicate 32 0) false
      ⟨if ok && s.stop.isNone then 0 else 7, s.done, none⟩

/-- R411, R464: LOCK_OWNER. -/
def Dev.lockOwner (d : Dev) (c : Kcmd) : KcmdEnd :=
  if c.who ≠ .secure then ⟨5, d, none⟩
  else if !d.on Reg.PWR_THERM_FUSE_OK then ⟨8, d, none⟩
  else ⟨0, (d.onSec (fun s => { s with ownerLocked := true })).set Reg.SEC_STATUS_OWNER_LOCKED 1, none⟩

/-- R411: a GO written for the command of code `op`: rejected while BUSY; otherwise the command is carried out and its end is due. A
GO with another code in OP is another command's. -/
def keyCommand (who : Accessor) (f op : Nat) (run : Dev → Kcmd → KcmdEnd) (d : Dev) : Dev :=
  if !d.deskServed who f then d
  else if d.on (Reg.CIPH_DESK_KCMD_BUSY f) then d.cfgReject who (Reg.CIPH_DESK_KCMD_GO f).off
  else if d.get (Reg.CIPH_DESK_KCMD_OP f) ≠ op then d
  else
    let e := run d (d.kcmd who f)
    (e.dev.onSec (fun s => { s with kcmds := s.kcmds ++ [(f, e.result, e.keyId)] })).set (Reg.CIPH_DESK_KCMD_BUSY f) 1

/-- R411, R436: the key command of desk f ends. -/
def kcmdComplete (f : Nat) (d : Dev) : Dev :=
  match d.sec.kcmds.find? (fun x => x.1 == f) with
  | none => d
  | some (_, result, keyId) =>
    let d := d.onSec (fun s => { s with kcmds := s.kcmds.filter (fun x => x.1 != f) })
    let d := (d.set (Reg.CIPH_DESK_KCMD_RESULT f) result).set (Reg.CIPH_DESK_KCMD_BUSY f) 0
    let d := match keyId with
      | some k => d.set (Reg.CIPH_DESK_KCMD_KEY_ID f) k
      | none => d
    d.deskAttend f 4

/-! ### Cipher jobs: checks and admission (R416, R417, R419, R424, R425) -/

/-- R416, R423: is the job's output held? -/
def Job.held (j : Job) : Bool := j.cDir && (j.opcode == 0x80 || (j.opcode == 0x85 && j.iAlg != 0))

/-- R416: does the job compare a tag? -/
def Job.verifies (j : Job) : Bool := j.cDir && (j.opcode == 0x80 || j.opcode == 0x82 || j.opcode == 0x84 || (j.opcode == 0x85 && j.iAlg != 0))

/-- R416: the bytes of output a job holds. -/
def Job.heldBytes (j : Job) : Nat := if !j.held then 0 else if j.opcode = 0x80 then j.cLen else j.cLen - 4

/-- R417: is TAG_LEN in its range? -/
def Job.tagLenOk (j : Job) : Bool :=
  match j.opcode with
  | 0x80 => decide (12 ≤ j.tagLen) && decide (j.tagLen ≤ 16)
  | 0x82 => decide (4 ≤ j.tagLen) && decide (j.tagLen ≤ 16)
  | 0x84 => j.tagLen == 4
  | 0x85 => j.tagLen == 4
  | _ => j.tagLen == 0

/-- R417: are the reserved bits zero and the fields in their ranges? -/
def Job.cFieldsOk (j : Job) : Bool :=
  let threeGpp := j.opcode == 0x83 || j.opcode == 0x84 || j.opcode == 0x85
  j.bits 34 5 3 == 0 && j.bits 35 5 3 == 0 && j.bits 39 5 3 == 0 && j.bytes 42 6 == 0 && j.bytes 55 1 == 0 && j.bytes 63 1 == 0 &&
  (threeGpp || (j.cAlg == 0 && j.iAlg == 0)) && ((j.opcode == 0x85 && j.iAlg != 0) || j.drawer2 == 0) && j.tagLenOk &&
  decide ((if j.opcode = 0x85 ∧ j.cDir = true then 5 else 1) ≤ j.cLen) && decide (j.qwin ≤ 16) &&
  (j.opcode == 0x80 || j.opcode == 0x85 || j.aadLen == 0) &&
  (!(j.cDir && (j.opcode == 0x82 || j.opcode == 0x84)) || j.cDst == 0)

/-- R407: the class of a 3GPP algorithm's key; the null algorithms take any key. -/
def algClass (alg cls : Nat) : Bool := if alg = 0 then cls != 4 else if alg = 2 then cls == 1 else cls == 3

/-- R407, R416: does a drawer's usage allow ciphering, or tags, in a direction? -/
def Drawer.ciphers (x : Drawer) (dir : Bool) : Bool := x.usage.getLsbD (b2n dir)
/-- The same for tags. -/
def Drawer.tags (x : Drawer) (dir : Bool) : Bool := x.usage.getLsbD (2 + b2n dir)

/-- R416, R419 test 4: are the drawers LOADED, of a class and usage that allow the operation? -/
def Dev.drawersServe (d : Dev) (j : Job) : Bool :=
  let x := d.drawer j.drawer
  let y := d.drawer j.drawer2
  let aes := x.cls == 1 || x.cls == 2
  x.loaded &&
  match j.opcode with
  | 0x80 => aes && x.ciphers j.cDir && x.tags j.cDir
  | 0x81 => aes && (x.ciphers false || x.ciphers true)
  | 0x82 => aes && x.tags j.cDir
  | 0x83 => algClass j.cAlg x.cls && x.ciphers j.cDir
  | 0x84 => algClass j.iAlg x.cls && x.tags j.cDir
  | _ => algClass j.cAlg x.cls && x.ciphers j.cDir && (j.iAlg == 0 || (y.loaded && algClass j.iAlg y.cls && y.tags j.cDir))

/-- R425: a job's window: what it breaks. -/
def Dev.windowCheck (d : Dev) (j : Job) : Option Nat :=
  if j.qwin = 0 then none
  else
    let w := j.qwin - 1
    if !d.on (Reg.SEC_QW_EN w) then some stCONFIG
    else if d.get (Reg.SEC_QW_DESK w) ≠ j.desk ∨ d.on (Reg.SEC_QW_WORLD w) ≠ j.world then some stWORLD
    else if j.cDst ≠ d.internal (8 * d.get (Reg.SEC_QW_BASE w)) ∨ 8 * d.get (Reg.SEC_QW_LEN w) < j.heldBytes then some stCONFIG
    else none

/-- Check 5 of R65 for a cipher job (R419). -/
def Dev.ciphCheck (d : Dev) (j : Job) : Option Nat :=
  firstFail [
    failIf (!j.cFieldsOk) stCONFIG,
    failIf (j.qwin == 0 && decide (16384 < j.heldBytes)) stLENGTH,
    failIf (j.drawers.any (fun i => !(d.drawer i).grants.getLsbD j.desk || ((d.drawer i).secure && !j.world))) stWORLD,
    failIf (!d.drawersServe j) stCONFIG,
    d.windowCheck j]

/-- R412: a cipher job is admitted: its drawers' use counts rise and its keys are those the drawers hold now. -/
def Dev.ciphAdmit (d : Dev) (j : Job) : Dev :=
  let c : CiphJob := { job := j.id, keys := j.drawers.map (fun i => (i, (d.drawer i).key)), units := [], slot := false, window := none }
  let d := d.onSec (fun s => { s with jobs := s.jobs ++ [c] })
  d.each j.drawers (fun d i => let x := d.drawer i; d.setDrawer i { x with uses := x.uses + 1 })

/-! ### Units, slots and windows (R415, R419, R424, R426) -/

/-- R415: the kind of unit an algorithm needs: 0 AES, 1 SNOW 3G, 2 ZUC. -/
def algKind (alg : Nat) : Nat := if alg = 1 then 1 else if alg = 3 then 2 else 0

/-- R415: the kind of unit u. -/
def unitKind (u : Nat) : Nat := if u < 16 then 0 else if u < 20 then 1 else 2

/-- R416, R419: the kinds a job needs, in the order of its passes, each once. -/
def Job.kinds (j : Job) : List Nat :=
  let passes (a b : Nat) : List Nat := ((if a = 0 then [] else [algKind a]) ++ (if b = 0 then [] else [algKind b]))
  let ks := match j.opcode with
    | 0x83 => [algKind j.cAlg]
    | 0x84 => [algKind j.iAlg]
    | 0x85 => if j.cDir then passes j.cAlg j.iAlg else passes j.iAlg j.cAlg
    | _ => [0]
  match ks with
  | [] => [0]
  | [a, b] => if a = b then [a] else [a, b]
  | ks => ks

/-- The units that work on a job. -/
def Dev.ciphBusy (d : Dev) : List Nat := (d.sec.jobs.map (fun c => c.units)).flatten

/-- The lowest-numbered free unit of a kind. -/
def Dev.freeUnit (d : Dev) (kind : Nat) : Option Nat :=
  (upFrom 0 24).find? (fun u => unitKind u == kind && !d.ciphBusy.contains u)

/-- R424: the free hold slots. -/
def Dev.holdFree (d : Dev) : Nat := 6 - (d.sec.jobs.filter (fun c => c.slot)).length

/-- The units a job would take if unit u took it: one of each kind it needs. -/
def Dev.unitsFor (d : Dev) (u : Nat) (j : Job) : Option (List Nat) :=
  match j.kinds with
  | [a] => if a = unitKind u then some [u] else none
  | [a, b] =>
    if a = unitKind u then (d.freeUnit b).map (fun v => [u, v])
    else if b = unitKind u then (d.freeUnit a).map (fun v => [v, u]) else none
  | _ => none

/-- R419, R424, R426: can a waiting job start on unit u? -/
def Dev.canServe (d : Dev) (u : Nat) (j : Job) : Bool :=
  (d.unitsFor u j).isSome &&
    (if j.qwin = 0 then !j.held || decide (0 < d.holdFree) else d.get (Reg.SEC_QW_STATE (j.qwin - 1)) == 1)

/-- R419: the job that unit u takes: highest PRIORITY, then earliest admitted. -/
def Dev.nextCipher (d : Dev) (u : Nat) : Option Job :=
  (d.jfe.jobs.filter (fun j => j.isCipher && j.phase == .queued && d.canServe u j)).foldl (fun best j =>
    match best with
    | none => some j
    | some b => some (if b.priority < j.priority then j else b)) none

/-- R419, R426: a free unit takes a job and seals its window. -/
def ciphJobStart (u : Nat) (d : Dev) : Dev :=
  if !d.serves .ciph || !d.domainOn 17 || d.ciphBusy.contains u then d
  else match d.nextCipher u with
    | none => d
    | some j =>
      let us := (d.unitsFor u j).getD []
      let w := if j.qwin = 0 then none else some (j.qwin - 1)
      let d := d.onSec (fun s => { s with jobs := s.jobs.map (fun c =>
        if c.job = j.id then { c with units := us, slot := j.held && j.qwin == 0, window := w } else c) })
      let d := match w with
        | some w => d.set (Reg.SEC_QW_STATE w) 2
        | none => d
      d.setJob { j with phase := .running, unit := us.getLastD u }

/-! ### The operations (R416, R418, R420) -/

/-- The request of a cipher job on unit u, as the job of its window. -/
def Dev.ciphReq (d : Dev) (j : Job) : Req :=
  { world := j.world, ep := if j.unit % 16 < 8 ∧ j.unit < 16 ∨ j.unit % 4 < 2 ∧ 16 ≤ j.unit then 84 else 90, func := some (d.jobFunc j),
    reader := 4, own := false, win := j.qwin }

/-- R418: the input of a job as its parts: IV block, AAD, payload and tag. -/
structure CiphIn where
  iv : List Nat
  aad : List Nat
  data : List Nat
  tag : List Nat

/-- R418: how many tag bytes the input carries. -/
def Job.tagIn (j : Job) : Nat := if j.cDir && (j.opcode == 0x80 || j.opcode == 0x82 || j.opcode == 0x84) then j.tagLen else 0

/-- R418: the input split. -/
def Job.split (j : Job) (bs : List Nat) : CiphIn :=
  let r := bs.drop 16
  let s := r.drop j.aadLen
  { iv := bs.take 16, aad := r.take j.aadLen, data := s.take j.cLen, tag := (s.drop j.cLen).take j.tagIn }

/-- What an operation gives: its output, whether the tag verifies, and a generated tag. -/
structure CiphOut where
  out : List Nat
  ok : Bool
  tag : List Nat

/-- R418: COUNT, BEARER and DIRECTION of a 3GPP IV block. -/
def CiphIn.count (x : CiphIn) : Nat := beNat (x.iv.take 4)
/-- BEARER. -/
def CiphIn.bearer (x : CiphIn) : Nat := x.iv.getD 4 0 % 32
/-- DIRECTION. -/
def CiphIn.dir (x : CiphIn) : Nat := x.iv.getD 5 0 % 2

/-- R416: AES-GCM. -/
def ciGcm (j : Job) (k : List Nat) (x : CiphIn) : CiphOut :=
  let y := gcmCipher k x.iv x.data
  let t := (gcmTag k x.iv x.aad (if j.cDir then x.data else y)).take j.tagLen
  if j.cDir then ⟨y, decide (t = x.tag), []⟩ else ⟨y ++ t, true, t⟩

/-- R416: AES-CTR, incrementing the low 64 bits. -/
def ciCtr (k : List Nat) (x : CiphIn) : CiphOut := ⟨aesCtr k x.iv 64 x.data, true, []⟩

/-- R416: AES-CMAC. -/
def ciCmac (j : Job) (k : List Nat) (x : CiphIn) : CiphOut :=
  let t := (aesCmac k x.data).take j.tagLen
  if j.cDir then ⟨[], decide (t = x.tag), []⟩ else ⟨t, true, t⟩

/-- R416: 3GPP ciphering. -/
def ciNea (j : Job) (k : List Nat) (x : CiphIn) : CiphOut := ⟨neaCipher j.cAlg k x.count x.bearer x.dir x.data, true, []⟩

/-- R416: a 3GPP MAC-I. -/
def ciNia (j : Job) (k : List Nat) (x : CiphIn) : CiphOut :=
  let t := niaMac j.iAlg k x.count x.bearer x.dir x.data
  if j.cDir then ⟨[], decide (t = x.tag), []⟩ else ⟨t, true, t⟩

/-- R416: PDCP. -/
def ciPdcp (j : Job) (k k2 : List Nat) (x : CiphIn) : CiphOut :=
  if j.cDir then
    let y := neaCipher j.cAlg k x.count x.bearer x.dir x.data
    let m := y.take (j.cLen - 4)
    ⟨m, j.iAlg == 0 || decide (niaMac j.iAlg k2 x.count x.bearer x.dir (x.aad ++ m) = y.drop (j.cLen - 4)), []⟩
  else
    let t := niaMac j.iAlg k2 x.count x.bearer x.dir (x.aad ++ x.data)
    ⟨neaCipher j.cAlg k x.count x.bearer x.dir (x.data ++ t), true, t⟩

/-- The bytes of a key of a drawer's class, as they were fetched. -/
def keyBytes (d : Dev) (c : Option CiphJob) (i n : Nat) : List Nat :=
  match c with
  | none => []
  | some c =>
    match c.keys[n]? with
    | none => []
    | some (_, k) => ({ d.drawer i with key := k } : Drawer).bytes

/-- R416: the operation of a job. -/
def Dev.ciphCompute (d : Dev) (j : Job) (bs : List Nat) : CiphOut :=
  let c := d.ciphJob j.id
  let k := keyBytes d c j.drawer 0
  let x := j.split bs
  match j.opcode with
  | 0x80 => ciGcm j k x
  | 0x81 => ciCtr k x
  | 0x82 => ciCmac j k x
  | 0x83 => ciNea j k x
  | 0x84 => ciNia j k x
  | _ => ciPdcp j k (keyBytes d c j.drawer2 1) x

/-- R420: output bytes written from DST, and how many were accepted. -/
def Io.release (s : Io) (q : Req) (a : Nat) (bs : List Byte) (poison : Bool) : Io × Nat :=
  match s.dev.target a with
  | .host _ => let (s, ok) := s.writeBytes q a bs poison; (s, if ok then bs.length else 0)
  | _ =>
    let step (acc : Io × Nat × Nat) (x : Nat × Nat × Nat) : Io × Nat × Nat :=
      let (s, n, k) := acc
      let (s, ok) := s.writeBytes q (8 * x.1 + x.2.1) ((bs.drop k).take x.2.2) poison
      (s, if ok then n + x.2.2 else n, k + x.2.2)
    let (s, n, _) := (shares a (bs.length / 8 + 2) bs.length).foldl step (s, 0, 0)
    (s, n)

/-- R426: the words a failing job wrote to its window are filled with zero. -/
def Io.fillWindow (s : Io) (q : Req) (a n : Nat) : Io :=
  (upFrom 0 ((n + 7) / 8)).foldl (fun s i => (s.write q (a + 8 * i) 0 false).1) s

/-- R420: RESULT. -/
def ciphResult (j : Job) (bytesOut : Nat) (tagOk : Bool) (tag : List Nat) : Nat :=
  bytesOut + j.unit * 2 ^ 32 + (b2n tagOk + b2n (j.held && j.qwin == 0) * 2 + b2n (j.qwin != 0) * 4) * 2 ^ 40 +
    ofLE (ofNats (tag.take 8)) * 2 ^ 64

/-- R420, R421, R423, R426: the output of a job as its status allows: device, status and RESULT. `cut` is the byte of output at which
the duplicated datapaths disagree. -/
def Io.ciphOutput (s : Io) (j : Job) (x : CiphOut) (cut : Option Nat) : Io × Nat × Nat :=
  let q := s.dev.ciphReq j
  let lost := s.lost
  let out := ofNats x.out
  if s.stop.isSome then (s, s.status stOK, ciphResult j 0 false [])
  else if j.held then
    let st := match lost with
      | some st => st
      | none => if cut.isSome then stCIPHERFAULT else if x.ok then stOK else stTAGFAIL
    if st = stOK then
      let (s, n) := s.release q j.cDst out false
      (s, s.status stOK, ciphResult j n true [])
    else if j.qwin = 0 then (s, st, ciphResult j 0 false [])
    else (s.fillWindow q j.cDst (min out.length (cut.getD out.length)), st, ciphResult j 0 false [])
  else
    let (s, n) := s.release q j.cDst (out.take (cut.getD out.length)) lost.isSome
    let own := if cut.isSome then stCIPHERFAULT else if x.ok then stOK else stTAGFAIL
    (s, s.status own, ciphResult j n (j.verifies && x.ok && lost.isNone && cut.isNone) (if cut.isSome then [] else x.tag))

/-- R421: the end of a job whose datapaths disagreed: the fault limit may have ended it already. -/
def Dev.ciphMismatch (d : Dev) (j : Job) (st result : Nat) : Dev :=
  let d := d.mismatch (some j.desk)
  match d.job j.id with
  | some x => if x.phase = .running then d.ciphEnd x st result else d.setJob { x with result := BitVec.ofNat 128 result }
  | none => d

/-- R416–R426: a started cipher job of an opcode is carried out and ends. -/
def ciphRun (opcode id : Nat) (cut : Option Nat) (ext : List Ext) (d : Dev) : Dev :=
  match d.job id with
  | none => d
  | some j =>
    if j.phase ≠ .running ∨ j.opcode ≠ opcode then d
    else
      let (s, bs, _) := (Io.start d j ext).readBytes (d.ciphReq j) j.cSrc (16 + j.aadLen + j.cLen + j.tagIn)
      let (s, st, result) := s.ciphOutput j (d.ciphCompute j (toNats bs)) cut
      if cut.isSome then s.done.ciphMismatch j st result else s.done.ciphEnd j st result

/-! ### Windows, SVN and debug (R425, R432, R433) -/

/-- R425: may window i be enabled: in mesa, in granules of its world, apart from the other enabled windows? -/
def Dev.windowOk (d : Dev) (i : Nat) : Bool :=
  let a := 8 * d.get (Reg.SEC_QW_BASE i)
  let n := d.get (Reg.SEC_QW_LEN i)
  let lo := 0x20000000
  decide (1 ≤ n) && decide (n ≤ 262144) && decide (lo ≤ a) && decide (a + 8 * n ≤ lo + 40 * 0x100000) &&
  (upFrom ((a - lo) / 0x80000) (((a + 8 * n - 1 - lo) / 0x80000) + 1 - (a - lo) / 0x80000)).all (fun g =>
    d.bit (Reg.SEC_RGN_MESA (g / 32)) (g % 32) == d.on (Reg.SEC_QW_WORLD i)) &&
  (upFrom 0 16).all (fun k => k == i || !d.on (Reg.SEC_QW_EN k) ||
    decide (a + 8 * n ≤ 8 * d.get (Reg.SEC_QW_BASE k)) || decide (8 * d.get (Reg.SEC_QW_BASE k) + 8 * d.get (Reg.SEC_QW_LEN k) ≤ a))

/-- R425, R426: a write of EN = 1. -/
def quarantineEnable (who : Accessor) (i : Nat) (d : Dev) : Dev :=
  if d.on (Reg.SEC_QW_EN i) then d
  else if d.windowOk i then (d.set (Reg.SEC_QW_EN i) 1).set (Reg.SEC_QW_STATE i) (if d.get (Reg.SEC_QW_STATE i) = 2 then 2 else 1)
  else d.cfgReject who (Reg.SEC_QW_EN i).off

/-- R432, R464: SEC_SVN_COMMIT.GO. -/
def svnCommit (who : Accessor) (d : Dev) : Dev :=
  if !d.on Reg.PWR_THERM_FUSE_OK then d.cfgReject who Reg.SEC_SVN_COMMIT_GO.off
  else match d.get Reg.SEC_SVN_COMMIT_TYPE with
    | 1 =>
      let v := max d.sec.svnSs (d.get Reg.SEC_SVN_RUN_SS)
      (d.onSec (fun s => { s with svnSs := v })).set Reg.SEC_SVN_FUSED_SS v
    | 2 =>
      let v := max d.sec.svnNs (d.get Reg.SEC_SVN_RUN_NS)
      (d.onSec (fun s => { s with svnNs := v })).set Reg.SEC_SVN_FUSED_NS v
    | _ => d

/-- R433: the challenge of SEC_DEBUG. -/
def Dev.challenge (d : Dev) : Nat := (upFrom 0 8).foldl (fun a w => a + d.get (Reg.SEC_DEBUG_CHALLENGE w) * 2 ^ (32 * w)) 0

/-- R433: an accepted token opens debug; opening secure debug zeroises the cabinet and changes the blob key. -/
def Dev.openDebug (d : Dev) (ns s : Bool) : Dev :=
  let d := if s && !d.on Reg.SEC_DEBUG_S_OPEN then (d.zeroise (fun _ => true)).onSec (fun x => { x with debugKey := true }) else d
  let d := if ns then (d.set Reg.SEC_DEBUG_NS_OPEN 1).set Reg.SEC_STATUS_DEBUG_NS 1 else d
  let d := if s then (d.set Reg.SEC_DEBUG_S_OPEN 1).set Reg.SEC_STATUS_DEBUG_S 1 else d
  d.relevel 0x7E4

/-- R433: a token presented through the IEEE 1149.1 port. -/
def debugToken (challenge : Nat) (idOk keyOk sigOk : Bool) (permit : BitVec 2) (d : Dev) : Dev :=
  if !d.boot.powered || decide (2 ≤ d.get Reg.PWR_STATUS_STATE) then d
  else if !idOk || challenge != d.challenge then d.set Reg.SEC_DEBUG_TOKEN_RESULT 4
  else if !keyOk then d.set Reg.SEC_DEBUG_TOKEN_RESULT 3
  else if !sigOk then d.set Reg.SEC_DEBUG_TOKEN_RESULT 2
  else (d.set Reg.SEC_DEBUG_TOKEN_RESULT 1).openDebug (permit.getLsbD 0) (permit.getLsbD 1)

/-- SEC_REGION_GO (R405). -/
def execSecRegionGo (who : Accessor) (s : State) : Host.Outcome State Fault Refusal :=
  s.onDev (fun d => d.secureOnly who Reg.SEC_REGION_CMD_GO.off (regionGo who))
/-- REGION_DONE (R405). -/
def execRegionDone (s : State) : Host.Outcome State Fault Refusal := s.onDev regionDone
/-- CORE_WORLD_WRITE (R405). -/
def execCoreWorldWrite (who : Accessor) (c : Fin 104) (world : Bool) (s : State) : Host.Outcome State Fault Refusal :=
  s.onDev (fun d => d.secureOnly who (Reg.ERG_CORE_CFG_WORLD (c.val / 8) (c.val % 8)).off (coreWorld who c.val world))
/-- LOAD (R411). -/
def execKeyLoad (who : Accessor) (desk : Fin 64) (ext : List Ext) (s : State) : Host.Outcome State Fault Refusal :=
  s.onDev (keyCommand who desk.val 1 (fun d c => d.keyLoad c ext))
/-- LOAD_KW (R411). -/
def execKeyLoadKw (who : Accessor) (desk : Fin 64) (ext : List Ext) (s : State) : Host.Outcome State Fault Refusal :=
  s.onDev (keyCommand who desk.val 2 (fun d c => d.keyLoadKw c ext))
/-- CLEAR (R411). -/
def execKeyClear (who : Accessor) (desk : Fin 64) (s : State) : Host.Outcome State Fault Refusal :=
  s.onDev (keyCommand who desk.val 3 (fun d c => d.keyClear c))
/-- GRANT (R411). -/
def execKeyGrant (who : Accessor) (desk : Fin 64) (s : State) : Host.Outcome State Fault Refusal :=
  s.onDev (keyCommand who desk.val 4 (fun d c => d.keyGrant c true))
/-- REVOKE (R411). -/
def execKeyRevoke (who : Accessor) (desk : Fin 64) (s : State) : Host.Outcome State Fault Refusal :=
  s.onDev (keyCommand who desk.val 5 (fun d c => d.keyGrant c false))
/-- KEK_IMPORT (R408). -/
def execKekImport (who : Accessor) (desk : Fin 64) (ext : List Ext) (s : State) : Host.Outcome State Fault Refusal :=
  s.onDev (keyCommand who desk.val 6 (fun d c => d.kekImport c ext))
/-- LOCK_OWNER (R411). -/
def execLockOwner (who : Accessor) (desk : Fin 64) (s : State) : Host.Outcome State Fault Refusal :=
  s.onDev (keyCommand who desk.val 7 (fun d c => d.lockOwner c))
/-- KCMD_COMPLETE (R411). -/
def execKcmdComplete (desk : Fin 64) (s : State) : Host.Outcome State Fault Refusal := s.onDev (kcmdComplete desk.val)
/-- CIPH_JOB_START (R419). -/
def execCiphJobStart (u : Fin 24) (s : State) : Host.Outcome State Fault Refusal := s.onDev (ciphJobStart u.val)
/-- CI_GCM (R416). -/
def execCiGcm (job : Nat) (mismatch : Option Nat) (ext : List Ext) (s : State) : Host.Outcome State Fault Refusal :=
  s.onDev (ciphRun 0x80 job mismatch ext)
/-- CI_CTR (R416). -/
def execCiCtr (job : Nat) (mismatch : Option Nat) (ext : List Ext) (s : State) : Host.Outcome State Fault Refusal :=
  s.onDev (ciphRun 0x81 job mismatch ext)
/-- CI_CMAC (R416). -/
def execCiCmac (job : Nat) (mismatch : Option Nat) (ext : List Ext) (s : State) : Host.Outcome State Fault Refusal :=
  s.onDev (ciphRun 0x82 job mismatch ext)
/-- CI_NEA (R416). -/
def execCiNea (job : Nat) (mismatch : Option Nat) (ext : List Ext) (s : State) : Host.Outcome State Fault Refusal :=
  s.onDev (ciphRun 0x83 job mismatch ext)
/-- CI_NIA (R416). -/
def execCiNia (job : Nat) (mismatch : Option Nat) (ext : List Ext) (s : State) : Host.Outcome State Fault Refusal :=
  s.onDev (ciphRun 0x84 job mismatch ext)
/-- CI_PDCP (R416). -/
def execCiPdcp (job : Nat) (mismatch : Option Nat) (ext : List Ext) (s : State) : Host.Outcome State Fault Refusal :=
  s.onDev (ciphRun 0x85 job mismatch ext)
/-- QUARANTINE_ENABLE (R425). -/
def execQuarantineEnable (who : Accessor) (i : Fin 16) (s : State) : Host.Outcome State Fault Refusal :=
  s.onDev (fun d => d.secureOnly who (Reg.SEC_QW_EN i.val).off (quarantineEnable who i.val))
/-- SVN_COMMIT (R432). -/
def execSvnCommit (who : Accessor) (s : State) : Host.Outcome State Fault Refusal :=
  s.onDev (fun d => d.secureOnly who Reg.SEC_SVN_COMMIT_GO.off (svnCommit who))
/-- DEBUG_TOKEN (R433). -/
def execDebugToken (challenge : BitVec 256) (idOk keyOk sigOk : Bool) (permit : BitVec 2) (s : State) :
    Host.Outcome State Fault Refusal := s.onDev (debugToken challenge.toNat idOk keyOk sigOk permit)

end Sys2Proof.Machine
end

