-- ==== Sys2Proof/Machine/CodeMath.lean ====
section
/-! DEFINITION. The arithmetic of channel coding that the cited standards fix (R269, R275, R278): CRCs, segmentation, rate
matching, soft combining and the tail-biting code. PRESUMED: the formulas are those of 3GPP TS 38.212 and TS 36.212, which
the manual names and does not print. The parity bits of LDPC and turbo codes, polar codes and every decision of a decoder
are open functions. -/

namespace Sys2Proof.Machine

/-- Bits of bytes, most significant first. -/
def bitsOfBytes (bs : List Byte) : List Bool := (bs.map (fun b => (upFrom 0 8).map (fun k => bitOf b.toNat (7 - k)))).flatten

/-- A number's low n bits, most significant first. -/
def bitsMsb (v n : Nat) : List Bool := (upFrom 0 n).map (fun k => bitOf v (n - 1 - k))

/-- The number bits spell, most significant first. -/
def ofBits (bs : List Bool) : Nat := bs.foldl (fun a b => 2 * a + b2n b) 0

/-- Bits packed into bytes, most significant first, padded with zeros; n bytes. -/
def bytesOfBits (bs : List Bool) : Nat → List Byte
  | 0 => []
  | n + 1 => BitVec.ofNat 8 (ofBits ((bs ++ List.replicate 8 false).take 8)) :: bytesOfBits (bs.drop 8) n

/-- The remainder of a polynomial, most significant bit first, by one of degree w with low bits `poly`. -/
def polyMod (w poly : Nat) (bs : List Bool) : Nat :=
  bs.foldl (fun r b => let x := 2 * r + b2n b; if bitOf x w then x ^^^ (2 ^ w + poly) else x) 0

/-- R279: the length and the polynomial of a CRC code (TS 38.212 clause 5.1). -/
def crcPoly (code : Nat) : Nat × Nat :=
  [(0, 0), (6, 0x21), (11, 0x621), (16, 0x1021), (24, 0x864CFB), (24, 0x800063), (24, 0xB2B117), (24, 0xB2B117)].getD code (0, 0)

/-- R278, R279: the CRC of bits. -/
def crcOf (code : Nat) (bs : List Bool) : Nat :=
  let (w, p) := crcPoly code
  let lead := if code = 7 then List.replicate 24 true else []
  if w = 0 then 0 else polyMod w p (lead ++ bs ++ List.replicate w false)

/-- R277: the remainder of bits that end in their CRC. -/
def crcCheck (code : Nat) (bs : List Bool) : Nat :=
  let (w, p) := crcPoly code
  let lead := if code = 7 then List.replicate 24 true else []
  if w = 0 then 0 else polyMod w p (lead ++ bs)

/-- R279: does MASK apply to a CRC code? -/
def maskApplies (code : Nat) : Bool := code == 3 || code == 6 || code == 7

/-- Bits with their CRC attached, MASK XORed onto the last 16 (R275). -/
def withCrc (code mask : Nat) (bs : List Bool) : List Bool :=
  bs ++ bitsMsb (crcOf code bs ^^^ (if maskApplies code then mask else 0)) (crcPoly code).1

/-- A quotient rounded up. -/
def upDiv (a b : Nat) : Nat := (a + b - 1) / b

/-- The lifting sizes of TS 38.212 clause 5.3.2, rising. -/
def liftingSizes : List Nat :=
  (upFrom 2 383).filter (fun z => [2, 3, 5, 7, 9, 11, 13, 15].any (fun a => (upFrom 0 8).any (fun j => a * 2 ^ j == z)))

/-- The block sizes of the turbo code's interleaver, rising (TS 36.212 clause 5.1.3.2). -/
def turboSizes : List Nat :=
  (upFrom 5 60).map (8 * ·) ++ (upFrom 33 32).map (16 * ·) ++ (upFrom 33 32).map (32 * ·) ++ (upFrom 33 64).map (64 * ·)

/-- The first of a rising list that is at least n, or 0. -/
def firstAtLeast (n : Nat) (xs : List Nat) : Nat := (xs.find? (fun x => decide (n ≤ x))).getD 0

/-- A transport block's segmentation: turbo or LDPC base graph 1 or 2, TB CRC code, B, the number of code blocks, the bits K'
of a block's data with its CRC, Z, and K of blocks with the fillers ahead of block 0 of a turbo TB. -/
structure TbPlan where
  turbo : Bool
  bg2 : Bool
  crc : Nat
  b : Nat
  c : Nat
  z : Nat
  ks : List Nat
  fill : Nat
  deriving DecidableEq, Repr

/-- R269: segmentation of an LDPC transport block of a bits (TS 38.212 clauses 5.2.2, 5.3.2). -/
def ldpcPlan (bg2 : Bool) (a : Nat) : TbPlan :=
  let crc := if 3824 < a then 4 else 3
  let b := a + (crcPoly crc).1
  let kcb := if bg2 then 3840 else 8448
  let c := if b ≤ kcb then 1 else upDiv b (kcb - 24)
  let k' := (if c = 1 then b else b + 24 * c) / c
  let kb := if !bg2 then 22 else if 640 < b then 10 else if 560 < b then 9 else if 192 < b then 8 else 6
  { turbo := false, bg2 := bg2, crc := crc, b := b, c := c, z := firstAtLeast (upDiv k' kb) liftingSizes,
    ks := List.replicate c k', fill := 0 }

/-- R269: segmentation of a turbo transport block of a bits (TS 36.212 clause 5.1.2). -/
def turboPlan (a : Nat) : TbPlan :=
  let b := a + 24
  let c := if b ≤ 6144 then 1 else upDiv b (6144 - 24)
  let b' := if c = 1 then b else b + 24 * c
  let kp := firstAtLeast (upDiv b' c) turboSizes
  let km := if c = 1 then 0 else ((turboSizes.filter (fun x => decide (x < kp))).getLastD 0)
  let cm := if c = 1 then 0 else (c * kp - b') / (kp - km)
  { turbo := true, bg2 := false, crc := 4, b := b, c := c, z := 0,
    ks := List.replicate cm km ++ List.replicate (c - cm) kp, fill := (c - cm) * kp + cm * km - b' }

/-- The bits of block r that belong to it: its data with its CRC. -/
def TbPlan.kOf (t : TbPlan) (r : Nat) : Nat := t.ks.getD r 0 - (if r = 0 then t.fill else 0)

/-- The bits of block r that are a share of the TB with its CRC (R273). -/
def TbPlan.share (t : TbPlan) (r : Nat) : Nat := t.kOf r - (if t.c = 1 then 0 else 24)

/-- Where that share begins. -/
def TbPlan.shareAt (t : TbPlan) (r : Nat) : Nat := ((upFrom 0 r).map t.share).sum

/-- R269: N_cb of block r. -/
def TbPlan.ncb (t : TbPlan) (limit r : Nat) : Nat :=
  let full := if t.turbo then 3 * (32 * upDiv (t.ks.getD r 0 + 4) 32) else (if t.bg2 then 50 else 66) * t.z
  if limit = 0 then full else min full limit

/-- R271: N_cb of the TB's largest code block. -/
def TbPlan.ncbMax (t : TbPlan) (limit : Nat) : Nat := ((upFrom 0 t.c).map (t.ncb limit)).foldl max 0

/-- R269: E of block r from G coded bits over nl layers at modulation order qm. -/
def TbPlan.eOf (t : TbPlan) (g nl qm r : Nat) : Nat :=
  let n := g / (nl * qm)
  if r + n % t.c + 1 ≤ t.c then nl * qm * (n / t.c) else nl * qm * upDiv n t.c

/-- The sub-block interleaver's columns (TS 36.212 Table 5.1.4-1). -/
def turboColumns : List Nat :=
  [0, 16, 8, 24, 4, 20, 12, 28, 2, 18, 10, 26, 6, 22, 14, 30, 1, 17, 9, 25, 5, 21, 13, 29, 3, 19, 11, 27, 7, 23, 15, 31]

/-- The sub-block interleaver's columns of the convolutional code (TS 36.212 Table 5.1.4-2). -/
def tbccColumns : List Nat :=
  [1, 17, 9, 25, 5, 21, 13, 29, 3, 19, 11, 27, 7, 23, 15, 31, 0, 16, 8, 24, 4, 20, 12, 28, 2, 18, 10, 26, 6, 22, 14, 30]

/-- R269: is position p of block r's circular buffer a filler or dummy, which is never sent? -/
def TbPlan.isNull (t : TbPlan) (r p : Nat) : Bool :=
  if t.turbo then
    let k := t.ks.getD r 0
    let rows := upDiv (k + 4) 32
    let kp := 32 * rows
    let dummy := kp - (k + 4)
    let fill := if r = 0 then t.fill else 0
    let y (x : Nat) : Nat := turboColumns.getD (x / rows) 0 + 32 * (x % rows)
    if p < kp then decide (y p < dummy + fill)
    else if (p - kp) % 2 = 0 then decide (y ((p - kp) / 2) < dummy + fill)
    else decide ((y ((p - kp) / 2) + 1) % kp < dummy)
  else
    let kl := (if t.bg2 then 10 else 22) * t.z
    decide (t.kOf r ≤ p + 2 * t.z) && decide (p + 2 * t.z < kl)

/-- R269: k0 of block r. -/
def TbPlan.k0 (t : TbPlan) (ncb rv r : Nat) : Nat :=
  if t.turbo then let rows := upDiv (t.ks.getD r 0 + 4) 32; rows * (2 * upDiv ncb (8 * rows) * rv + 2) % ncb
  else
    let m := (if t.bg2 then [0, 13, 25, 43] else [0, 17, 33, 56]).getD rv 0
    m * ncb / ((if t.bg2 then 50 else 66) * t.z) * t.z

/-- The positions read in turn from p, n of them, fillers skipped, round a buffer of ncb. -/
def readRing (null : Nat → Bool) (ncb : Nat) : Nat → Nat → Nat → List Nat
  | 0, _, _ => []
  | _, _, 0 => []
  | fuel + 1, p, n + 1 =>
    if null p then readRing null ncb fuel ((p + 1) % ncb) (n + 1)
    else p :: readRing null ncb fuel ((p + 1) % ncb) n

/-- R269: the positions of the E bits of block r, in order before bit interleaving. -/
def TbPlan.positions (t : TbPlan) (limit rv e r : Nat) : List Nat :=
  let ncb := t.ncb limit r
  readRing (t.isNull r) ncb (ncb * (e + 1)) (t.k0 ncb rv r) e

/-- R269: P_hi of a read: one more than its last position, or N_cb if it wraps. -/
def pHiOf (ncb k0 : Nat) (ps : List Nat) : Nat :=
  if ps.any (fun p => decide (p < k0)) || decide (ncb < k0 + ps.length) then ncb else (ps.foldl max k0) + b2n (!ps.isEmpty)

/-- R269: L of an LDPC block. -/
def TbPlan.layers (t : TbPlan) (pHi : Nat) : Nat :=
  if t.turbo then 0
  else
    let x := (pHi - 1) / t.z
    if t.bg2 then clamp 4 42 (x - 7) else clamp 4 46 (x - 19)

/-- R269: the place of transmitted bit i of E before bit interleaving at order qm (TS 38.212 clause 5.4.2.2). -/
def deinterleave (turbo : Bool) (e qm i : Nat) : Nat := if turbo then i else i % qm * (e / qm) + i / qm

/-- A value limited to ±127 (R270). -/
def limit127 (x : Int) : Int := if x < -127 then -127 else if 127 < x then 127 else x

/-- R270: LLRs added to their positions of a soft buffer, each addition saturating. -/
def combine (soft : List Int) (ps : List Nat) (llrs : List Int) : List Int :=
  (ps.zip llrs).foldl (fun s x => s.set x.1 (limit127 (s.getD x.1 0 + x.2))) soft

/-- R270: the LLRs of a read in the order of its positions. -/
def orderLlrs (turbo : Bool) (e qm : Nat) (llrs : List Int) : List Int :=
  let at_ (k : Nat) : Nat := if turbo then k else k % (e / qm) * qm + k / (e / qm)
  (upFrom 0 e).map (fun k => llrs.getD (at_ k) 0)

/-- n bits of an open decoder or encoder. -/
def openBits (f : Nat) (key : List Nat) (n : Nat) : List Bool := (upFrom 0 n).map (fun k => Config.freeFun f (key ++ [k]) % 2 == 1)

/-- Numbers that spell LLRs. -/
def llrKey (xs : List Int) : List Nat := xs.map (wrapTo 8)

/-- R273: the coded bits of LDPC block r: the information bits are systematic (TS 38.212 clause 5.3.2); parity is open. -/
def TbPlan.codedBit (t : TbPlan) (r : Nat) (data : List Bool) (p : Nat) : Bool :=
  let key := [b2n t.turbo, b2n t.bg2, t.z, t.ks.getD r 0] ++ data.map b2n
  if t.turbo then Config.freeFun 10 (key ++ [p]) % 2 == 1
  else if p + 2 * t.z < t.kOf r then data.getD (p + 2 * t.z) false
  else Config.freeFun 10 (key ++ [p]) % 2 == 1

/-- R273: the transmitted bits of block r. -/
def TbPlan.encode (t : TbPlan) (limit rv qm e r : Nat) (data : List Bool) : List Bool :=
  let ps := t.positions limit rv e r
  (upFrom 0 e).map (fun i => t.codedBit r data (ps.getD (deinterleave t.turbo e qm i) 0))

/-- R275: the three streams of the tail-biting code of rate 1/3, generators 133, 171 and 165 octal (TS 36.212 clause
5.1.3.1). -/
def tbccStream (gen : Nat) (c : List Bool) : List Bool :=
  let k := c.length
  (upFrom 0 k).map (fun i => ((upFrom 0 7).filter (fun j => bitOf gen (6 - j) && c.getD ((i + 7 * k - j) % k) false)).length % 2 == 1)

/-- A stream through the sub-block interleaver: the sent bits in order. -/
def tbccInterleave (v : List Bool) : List Bool :=
  let n := v.length
  let rows := upDiv n 32
  let dummy := 32 * rows - n
  ((upFrom 0 (32 * rows)).filterMap (fun k =>
    let y := tbccColumns.getD (k / rows) 0 + 32 * (k % rows)
    if y < dummy then none else some (v.getD (y - dummy) false)))

/-- R275: E bits of the tail-biting code (TS 36.212 clauses 5.1.3.1, 5.1.4.2). -/
def tbccEncode (e : Nat) (c : List Bool) : List Bool :=
  let w := ((([0o133, 0o171, 0o165] : List Nat).map (fun g => tbccInterleave (tbccStream g c)))).flatten
  (upFrom 0 e).map (fun i => w.getD (i % w.length) false)

/-- R275: E bits of a polar code of a link for a payload with its CRC. -/
def polarEncode (uplink : Bool) (a e : Nat) (c : List Bool) : List Bool := openBits 11 ([b2n uplink, a, e] ++ c.map b2n) e

/-- R276: the sum of abs(LLR) where re-encoded bits disagree with the LLRs' signs. -/
def metricOf (bits : List Bool) (llrs : List Int) : Nat :=
  min 0xFFFF ((bits.zip llrs).foldl (fun m x => if (x.1 && decide (0 < x.2)) || (!x.1 && decide (x.2 < 0)) then m + x.2.natAbs else m) 0)

end Sys2Proof.Machine
end

