-- ==== Sys2Proof/Machine/Coding.lean ====
section
/-! DEFINITION. Channel coding (R264–R285): the checks of its descriptors, the parameter block, the choice of an instance for
a free unit, decoding and encoding, the end of an instance and of a job, and CRC jobs. What a decoder decides and the
coded bits that only the cited standards give are open functions; all else is computed. -/

namespace Sys2Proof.Machine

/-- R268: the fields of a transport-block descriptor. -/
def Job.cdQm (j : Job) : Nat := j.bits 32 0 4
def Job.cdBg2 (j : Job) : Bool := j.bits 32 4 1 == 1
def Job.cdRv (j : Job) : Nat := j.bits 32 5 2
def Job.cdNl (j : Job) : Nat := j.bits 33 0 2 + 1
def Job.cdHarq (j : Job) : Nat := j.bits 33 2 2
def Job.cdWbFail (j : Job) : Bool := j.bits 33 4 1 == 1
def Job.cdEt (j : Job) : Nat := j.bits 33 6 2
def Job.cdMaxIter (j : Job) : Nat := j.bits 34 0 5
def Job.cdScale (j : Job) : Nat := j.bits 35 4 4
def Job.cdA (j : Job) : Nat := j.bits 36 0 21
def Job.cdG (j : Job) : Nat := j.bits 40 0 23
def Job.cdFirst (j : Job) : Nat := j.bytes 44 1
def Job.cdCount (j : Job) : Nat := j.bytes 45 1
def Job.cdLimit (j : Job) : Nat := j.bits 46 0 15
/-- R275: the fields of a short-block descriptor. -/
def Job.sbCrc (j : Job) : Nat := j.bits 32 0 3
def Job.sbLink (j : Job) : Bool := j.bits 32 3 1 == 1
def Job.sbA (j : Job) : Nat := j.bits 34 0 11
def Job.sbE (j : Job) : Nat := j.bits 36 0 14
def Job.sbMask (j : Job) : Nat := j.bytes 38 2
def Job.sbCount (j : Job) : Nat := j.bits 40 0 13
/-- R277: the fields of a CRC descriptor. -/
def Job.ccCheck (j : Job) : Bool := j.bits 32 3 1 == 1
def Job.ccLen (j : Job) : Nat := j.bits 36 0 24
def Job.ccSrc (j : Job) : Nat := j.bits 48 0 56
/-- R267: the address of the parameter block. -/
def Job.cdParam (j : Job) : Nat := j.bits 48 0 56

/-- R267: is the job's layout that of a transport block, is it turbo, and does it decode? -/
def Job.cdTb (j : Job) : Bool := [0x40, 0x41, 0x44, 0x45].contains j.opcode
def Job.cdTurbo (j : Job) : Bool := j.opcode == 0x44 || j.opcode == 0x45
def Job.cdPolar (j : Job) : Bool := j.opcode == 0x42 || j.opcode == 0x43
def Job.cdDecodes (j : Job) : Bool := j.opcode % 2 == 0
/-- R268, R275: LLR18 and IN_SHIFT of a decode. -/
def Job.cdLlr18 (j : Job) : Bool := if j.cdTb then j.bits 33 5 1 == 1 else j.bits 33 4 1 == 1
def Job.cdInShift (j : Job) : Nat := if j.cdTb then j.bits 35 0 4 else j.bits 33 0 4

/-- R269: the plan of a job's transport block. -/
def Job.plan (j : Job) : TbPlan := if j.cdTurbo then turboPlan j.cdA else ldpcPlan j.cdBg2 j.cdA

/-- R267: instances of a job. -/
def Job.cdInstances (j : Job) : Nat := if j.cdTb then j.cdCount else j.sbCount

/-- R268, R280: a transport-block field is out of range or must be zero and is not. -/
def Job.tbBadForm (j : Job) : Bool :=
  let t := j.plan
  j.bits 32 7 1 != 0 || j.bits 34 5 3 != 0 || j.bits 36 21 11 != 0 || j.bits 40 23 9 != 0 || j.bits 46 15 1 != 0 ||
    !([1, 2, 4, 6, 8].contains j.cdQm) || (j.cdTurbo && j.cdBg2) || j.cdA % 8 != 0 || j.cdG % (j.cdQm * j.cdNl) != 0 ||
    (if j.cdDecodes then
       decide (2 < j.cdHarq) || j.cdEt == 3 || (j.cdTurbo && j.cdEt == 1) || j.cdMaxIter == 0 ||
         (j.cdTurbo && decide (16 < j.cdMaxIter)) || decide (j.cdScale < 4) || decide (8 < j.cdScale) ||
         (!j.cdLlr18 && j.cdInShift != 0)
     else j.bits 33 2 6 != 0 || j.bytes 34 2 != 0) ||
    (j.cdBg2 && decide (3840 < t.ks.headD 0)) || (!j.cdTurbo && decide (1 < t.c) && (j.cdA + 24) % (8 * t.c) != 0) ||
    j.cdCount == 0 || decide (t.c < j.cdFirst + j.cdCount) || (j.cdTurbo && (j.cdFirst != 0 || j.cdCount != t.c))

/-- R275, R280: the same for a short block. -/
def Job.sbBadForm (j : Job) : Bool :=
  j.bits 32 4 4 != 0 || j.bits 33 5 3 != 0 || j.bits 34 11 5 != 0 || j.bits 36 14 2 != 0 || j.bits 40 13 3 != 0 ||
    j.bytes 42 6 != 0 || !((if j.cdPolar then [1, 2, 6, 7] else [0, 3]).contains j.sbCrc) || (!j.cdPolar && j.sbLink) ||
    ((j.sbCrc == 1 || j.sbCrc == 2) && j.sbMask != 0) || decide (4096 < j.sbCount) ||
    (if j.cdDecodes then !j.cdLlr18 && j.cdInShift != 0 else j.bits 33 0 5 != 0)

/-- R277, R280: the same for a CRC job. -/
def Dev.ccBadForm (d : Dev) (j : Job) : Bool :=
  j.bits 32 4 4 != 0 || j.bytes 33 3 != 0 || j.bytes 39 1 != 0 || j.bytes 42 6 != 0 || j.bits 48 56 8 != 0 ||
    j.bytes 56 8 != 0 || j.sbCrc == 0 || ((j.sbCrc == 1 || j.sbCrc == 2) && j.bytes 40 2 != 0) ||
    j.ccSrc / 2 ^ 54 != d.ownId || j.ccSrc % 8 != 0 || (!bitOf j.ccSrc 53 && (regionOf (j.ccSrc % 2 ^ 53)).isNone)

/-- R267: is an internal address one of device memory with the local ID, a multiple of n? -/
def Dev.codeAddr (d : Dev) (a n : Nat) : Bool :=
  a % n == 0 && a / 2 ^ 54 == d.ownId && !bitOf a 53 && (regionOf (a % 2 ^ 53)).isSome

/-- Check 5 of R65 for coding jobs (R280). -/
def Dev.codeCheck (d : Dev) (j : Job) : Option Nat :=
  if j.opcode = 0x48 then firstFail [failIf (d.ccBadForm j) stCONFIG, failIf (j.ccLen == 0) stCONFIG]
  else
    let param := !d.codeAddr j.cdParam 8 || j.bits 48 56 8 != 0 || j.bytes 56 8 != 0
    if j.cdTb then
      let top := if j.cdTurbo then 391656 else 1277992
      firstFail [failIf (param || (j.cdA != 0 && decide (j.cdA ≤ top) && j.tbBadForm)) stCONFIG,
                 failIf (j.cdA == 0 || decide (top < j.cdA)) stLENGTH]
    else
      let (lo, hi) := if !j.cdPolar then (1, 1024) else if j.sbLink then (12, 1706) else (1, 140)
      firstFail [failIf (param || j.sbBadForm) stCONFIG,
                 failIf (decide (j.sbA < lo) || decide (hi < j.sbA) || j.sbE == 0 || decide (8192 < j.sbE) || j.sbCount == 0)
                   stLENGTH]

/-- R267: word k of the parameter block. -/
def Job.cdWord (j : Job) (k : Nat) : Nat := byteViewOf (j.params.getD k 0)
def Job.cdSrc (j : Job) : Nat := bitsOf (j.cdWord 0) 0 56
def Job.cdDst (j : Job) : Nat := bitsOf (j.cdWord 1) 0 56
def Job.cdSoft (j : Job) : Nat := bitsOf (j.cdWord 2) 0 56
def Job.cdRec (j : Job) : Nat := bitsOf (j.cdWord 3) 0 56
def Job.cdInStride (j : Job) : Nat := bitsOf (j.cdWord 4) 0 24
def Job.cdOutStride (j : Job) : Nat := bitsOf (j.cdWord 4) 24 24

/-- R267: is the parameter block sound? -/
def Dev.codeParamOk (d : Dev) (j : Job) : Bool :=
  let side (a : Nat) (host : Bool) : Bool :=
    if bitOf a 53 then host && a / 2 ^ 54 == d.ownId && a % 8 == 0 else d.codeAddr a 8
  let soft := j.cdTb && j.cdDecodes && j.cdHarq != 0
  (upFrom 0 4).all (fun k => j.cdWord k / 2 ^ 56 == 0) && (if j.cdTb then j.cdWord 4 == 0 else j.cdWord 4 / 2 ^ 48 == 0) &&
    side j.cdSrc (!j.cdDecodes) && side j.cdDst j.cdDecodes &&
    (if soft then d.codeAddr j.cdSoft 256 else j.cdSoft == 0) &&
    (j.cdRec == 0 || ((!j.cdTb || j.cdDecodes) && d.codeAddr j.cdRec 8))

/-- The request a coding job makes (R321, R406). -/
def Dev.codeReq (d : Dev) (j : Job) : Req :=
  { world := j.world, ep := 8, func := some (d.jobFunc j), reader := 4, own := false, win := 0 }

/-- R264: the units of a kind that serve an opcode: first number and count. -/
def codeUnits (op : Nat) : Nat × Nat :=
  if op = 0x40 then (0, 16) else if op = 0x41 then (16, 4) else if op = 0x42 ∨ op = 0x43 then (20, 4)
  else if op = 0x44 ∨ op = 0x45 then (24, 8) else (32, 4)

/-- R284: the busy bit of a unit. -/
def codeBusy (u : Nat) : Fld × Nat :=
  if u < 16 then (Reg.CODE_BUSY_LDEC, u) else if u < 20 then (Reg.CODE_BUSY_LENC, u - 16)
  else if u < 24 then (Reg.CODE_BUSY_POLAR, u - 20) else if u < 32 then (Reg.CODE_BUSY_TURBO, u - 24)
  else (Reg.CODE_BUSY_TBCC, u - 32)

/-- The coding complex changed. -/
def Dev.onCode (d : Dev) (f : CodeState → CodeState) : Dev := { d with code := f d.code }

/-- The run of a coding job. -/
def Dev.codeRun (d : Dev) (id : Nat) : Option CodeRun := d.code.runs.find? (fun r => r.job == id)

/-- A run changed. -/
def Dev.setCodeRun (d : Dev) (r : CodeRun) : Dev :=
  d.onCode (fun c => { c with runs := c.runs.map (fun x => if x.job == r.job then r else x) })

/-- A run that begins. -/
def CodeRun.start (id : Nat) : CodeRun :=
  { job := id, next := 0, done := 0, fails := 0, firstFail := 0xFF, iterMax := 0, iterTotal := 0, layersMax := 0,
    mismatches := 0, poisons := 0, passed := 0, bitsOut := 0, blocks := [], uncorr := false, poison := false, stop := none }

/-- R281, R284: the end of a coding job. -/
def Dev.codeEnd (d : Dev) (j : Job) (st result : Nat) : Dev :=
  let d := d.bump Reg.CODE_JOBS
  let d := if st = stUNCORR ∨ st = stPOISONED then d.attend Reg.CODE_ATTN_POISON 0x5E4 else d
  (d.onCode (fun c => { c with runs := c.runs.filter (fun r => r.job != j.id) })).endJob j st result

/-- R271: the soft buffer of code block r. -/
def Job.softAt (j : Job) (r : Nat) : Nat := j.cdSoft + r * (256 * upDiv (8 + j.plan.ncbMax j.cdLimit) 256)

/-- R266: the soft buffer that instance k of a job names, if any. -/
def Job.softOf (j : Job) (k : Nat) : Option Nat :=
  if j.cdTb && j.cdDecodes && j.cdHarq != 0 then some (j.softAt (j.cdFirst + k)) else none

/-- R266: a job with the parameter block it names, read or still to be read. -/
def Dev.withBlock (d : Dev) (j : Job) : Job :=
  if j.params.isEmpty then { j with params := (upFrom 0 5).map (fun k => dataOf (d.raw (j.cdParam % 2 ^ 53 / 8 + k))) } else j

/-- R265: the order of service: highest PRIORITY, then the earliest admitted. -/
def servedBefore (a b : Job) : Bool := decide (b.priority < a.priority) || (a.priority == b.priority && decide (a.seq < b.seq))

/-- The job served first of a list. -/
def firstServed : List Job → Option Job
  | [] => none
  | j :: js => match firstServed js with
    | some k => some (if servedBefore j k then j else k)
    | none => some j

/-- R265, R266: the next instance of a job that may start: it has one left, and its soft buffer is not that of an instance at
work or of an earlier admitted instance yet to start. -/
def Dev.codeReady (d : Dev) (j : Job) : Bool :=
  let k := match d.codeRun j.id with
    | some r => r.next
    | none => 0
  let stopped := match d.codeRun j.id with
    | some r => r.stop.isSome
    | none => false
  decide (k < j.cdInstances) && !stopped &&
    (match (d.withBlock j).softOf k with
     | none => true
     | some a =>
       !d.code.units.any (fun u => match d.job u.job with | some i => i.softOf u.inst == some a | none => false) &&
       !d.jfe.jobs.any (fun i => decide (0x40 ≤ i.opcode) && decide (i.opcode < 0x48) && decide (i.seq < j.seq) &&
         (i.phase == .running || i.phase == .queued) &&
         (upFrom (match d.codeRun i.id with | some r => r.next | none => 0) i.cdInstances).any
           (fun m => decide (m < i.cdInstances) && (d.withBlock i).softOf m == some a)))

/-- R267, R280: a job begins: its parameter block is read. None where the job has ended. -/
def Dev.codeBegin (d : Dev) (j : Job) : Dev × Option Job :=
  let (io, ws) := (Io.start d j []).readAll (d.codeReq j) (gridWords j.cdParam 1 5 0)
  let d := io.done
  let j := { j with params := ws }
  match io.stop, io.lost with
  | some st, _ => (d.codeEnd j st 0, none)
  | none, some st => (d.codeEnd j st 0, none)
  | none, none =>
    if d.codeParamOk j then
      let j := { j with phase := .running }
      ((d.setJob j).onCode (fun c => { c with runs := c.runs ++ [CodeRun.start j.id] }), some j)
    else (d.codeEnd j stCONFIG 0, none)

/-- CODE_INSTANCE_START (R265): a free unit takes the first waiting instance of its kind. -/
def codeInstanceStart (u : Nat) (d : Dev) : Dev :=
  if !d.serves .code || !d.domainOn 15 || d.code.units.any (fun x => x.unit == u) then d
  else
    let mine (j : Job) : Bool :=
      let (lo, n) := codeUnits j.opcode
      decide (0x40 ≤ j.opcode) && decide (j.opcode < 0x48) && decide (lo ≤ u) && decide (u < lo + n) &&
        (j.phase == .queued || j.phase == .running)
    match firstServed (d.jfe.jobs.filter (fun j => mine j && d.codeReady j)) with
    | none => d
    | some j =>
      let (d, j) := if j.phase = .queued then d.codeBegin j else (d, some j)
      match j with
      | none => d
      | some j =>
        match d.codeRun j.id with
        | none => d
        | some r =>
          if !d.codeReady j then d
          else
            let d := d.setCodeRun { r with next := r.next + 1 }
            let d := d.onCode (fun c => { c with units := c.units ++ [{ unit := u, job := j.id, inst := r.next, out := none }] })
            d.setBit (codeBusy u).1 (codeBusy u).2

/-- R270: n LLRs from place k of an input. -/
def Io.readLlrs (s : Io) (q : Req) (j : Job) (base k n : Nat) : Io × List Int × Bool :=
  if j.cdLlr18 then
    let w := base / 8 + k / 4
    let (s, ws) := s.readAll q (gridWords (8 * w) 1 ((k + n + 3) / 4 - k / 4) 0)
    let xs := (ws.map samplesOf).flatten
    (s, ((xs.drop (k % 4)).take n).map (fun x => limit127 (roundShift x j.cdInShift)), false)
  else
    let (s, bs, lost) := s.readBytes q (base + k) n
    (s, bs.map (fun b => limit127 (signed b.toNat 8)), lost)

/-- R271: what a soft buffer holds for a block: NHI, the combines so far and the values, and a mismatch. -/
def Io.readSoft (s : Io) (q : Req) (j : Job) (r ncb : Nat) : Io × Nat × Nat × List Int × Bool :=
  let zero : List Int := List.replicate ncb 0
  if j.cdHarq != 2 then (s, 0, 0, zero, false)
  else
    let (s, h, _) := s.read q (j.softAt r)
    let h := byteViewOf h
    let ty := bitsOf h 16 4
    let mine := if j.cdTurbo then 3 else if j.cdBg2 then 2 else 1
    if ty = 0 then (s, 0, 0, zero, false)
    else if ty ≠ mine ∨ bitsOf h 32 15 ≠ ncb then (s, 0, 0, zero, true)
    else
      let (s, bs, _) := s.readBytes q (j.softAt r + 8) ncb
      (s, bitsOf h 0 15, bitsOf h 48 8, bs.map (fun b => signed b.toNat 8), false)

/-- R271: the header of a written-back soft buffer. -/
def softHeader (j : Job) (pHi ncb combines : Nat) : Nat :=
  pHi + (if j.cdTurbo then 3 else if j.cdBg2 then 2 else 1) * 2 ^ 16 + ncb * 2 ^ 32 + min 255 (combines + 1) * 2 ^ 48

/-- R270–R272: code block r decoded from its LLRs in place. -/
def Job.decodeBlock (j : Job) (r ncb pHi combines : Nat) (soft : List Int) (mismatch : Bool) : CodeOut :=
  let t := j.plan
  let k := t.kOf r
  let layers := t.layers pHi
  let key := [j.opcode, b2n t.bg2, t.z, t.ks.getD r 0, k, layers, j.cdEt, j.cdMaxIter, j.cdScale] ++ llrKey soft
  let bits := openBits 12 key k
  let pass := crcCheck (if t.c = 1 then t.crc else 5) bits == 0
  let syndrome := !j.cdTurbo && Config.freeFun 13 key % 2 == 1
  let stops := (j.cdEt == 1 && syndrome) || (j.cdEt == 2 && pass && (j.cdTurbo || syndrome))
  { bits := bits.take (t.share r), fail := !pass,
    iter := if stops then 1 + Config.freeFun 14 key % j.cdMaxIter else j.cdMaxIter, syndrome := syndrome,
    mismatch := mismatch, layers := layers, pHi := if j.cdTurbo then 0 else pHi,
    soft := if j.cdHarq = 0 ∨ (j.cdWbFail ∧ pass) then none else some (softHeader j pHi ncb combines, soft),
    path := 0, metric := 0, lost := none }

/-- What an encoder gives. -/
def CodeOut.coded (bits : List Bool) (layers : Nat) : CodeOut :=
  { bits := bits, fail := false, iter := 0, syndrome := false, mismatch := false, layers := layers, pHi := 0, soft := none,
    path := 0, metric := 0, lost := none }

/-- R276: a short block decoded from its LLRs. -/
def Job.decodeShort (j : Job) (llrs : List Int) : CodeOut :=
  let n := (crcPoly j.sbCrc).1
  let key := [j.opcode, b2n j.sbLink, j.sbCrc, j.sbMask, j.sbA] ++ llrKey llrs
  let bits := openBits 15 key (j.sbA + n)
  let mask := if maskApplies j.sbCrc then j.sbMask else 0
  let pass := j.sbCrc == 0 || crcCheck j.sbCrc bits == mask
  let again := if j.cdPolar then polarEncode j.sbLink j.sbA j.sbE bits else tbccEncode j.sbE bits
  { bits := bits.take j.sbA, fail := !pass, iter := 0, syndrome := false, mismatch := false, layers := 0, pHi := 0,
    soft := none, path := if j.cdPolar then Config.freeFun 16 key % 8 else 0, metric := metricOf again llrs, lost := none }

/-- R268: where the input of instance k begins, in LLRs from SRC. -/
def Job.llrAt (j : Job) (k : Nat) : Nat :=
  ((upFrom j.cdFirst k).map (j.plan.eOf j.cdG j.cdNl j.cdQm)).sum

/-- R248: the words that instance k reads and writes, for the world check. -/
def Job.codeRanges (j : Job) (k : Nat) : List Nat × List Nat :=
  let words (a n : Nat) : List Nat := if bitOf a 53 then [] else (upFrom (a / 8) ((a + n + 7) / 8 - a / 8)).map (8 * ·)
  let r := j.cdFirst + k
  let rec_ := if j.cdRec = 0 then [] else [j.cdRec + 8 * k]
  if j.cdTb then
    let t := j.plan
    let e := t.eOf j.cdG j.cdNl j.cdQm r
    let at_ := j.llrAt k
    if j.cdDecodes then
      let soft := match j.softOf k with
        | some a => words a (8 + t.ncb j.cdLimit r)
        | none => []
      (words (if j.cdLlr18 then j.cdSrc + 8 * (at_ / 4) else j.cdSrc + at_)
         (if j.cdLlr18 then 8 * ((at_ + e + 3) / 4 - at_ / 4) else e) ++ soft,
       words (j.cdDst + t.shareAt r / 8) (t.share r / 8) ++ soft ++ rec_)
    else (words j.cdSrc (j.cdA / 8), words (j.cdDst + at_ / 8) ((at_ % 8 + e + 7) / 8))
  else
    let src := j.cdSrc + k * j.cdInStride
    let dst := j.cdDst + k * j.cdOutStride
    if j.cdDecodes then (words src (if j.cdLlr18 then 2 * j.sbE + 8 else j.sbE), words dst ((j.sbA + 7) / 8) ++ rec_)
    else (words src ((j.sbA + 7) / 8), words dst ((j.sbE + 7) / 8))

/-- R273: the payload bits of a transport block read share by share, with a mark on what block r draws on: its own share, and
all of it for the last block, which carries the TB CRC. -/
def Io.readPayload (s : Io) (q : Req) (j : Job) (r : Nat) : Io × List Bool × Bool :=
  let t := j.plan
  (upFrom 0 t.c).foldl (fun acc x =>
    let at_ := t.shareAt x / 8
    let n := min (t.share x / 8) (j.cdA / 8 - at_)
    let (s, bs, lost) := acc.1.readBytes q (j.cdSrc + at_) n
    (s, acc.2.1 ++ bitsOfBytes bs, acc.2.2 || (lost && (x == r || r + 1 == t.c)))) (s, [], false)

/-- The bits of block r with its CRC, from the payload (R273). -/
def Job.blockBits (j : Job) (payload : List Bool) (r : Nat) : List Bool :=
  let t := j.plan
  let all := withCrc t.crc 0 payload
  let own := (all.drop (t.shareAt r)).take (t.share r)
  if t.c = 1 then own else withCrc 5 0 own

/-- R272, R273, R276: one instance at a unit computes from its inputs. The status of a lost input is kept. -/
def Io.codeInstance (s : Io) (q : Req) (j : Job) (k : Nat) : Io × CodeOut :=
  let r := j.cdFirst + k
  let t := j.plan
  let (reads, writes) := j.codeRanges k
  let old := s
  let s := s.fresh.checkWorld q reads writes
  let (s, out, drawn) : Io × CodeOut × Bool :=
    if j.cdTb then
      let e := t.eOf j.cdG j.cdNl j.cdQm r
      let ncb := t.ncb j.cdLimit r
      let ps := t.positions j.cdLimit j.cdRv e r
      let reach := pHiOf ncb (t.k0 ncb j.cdRv r) ps
      if j.cdDecodes then
        let (s, llrs, _) := s.readLlrs q j j.cdSrc (j.llrAt k) e
        let (s, nhi, combines, soft, mismatch) := s.readSoft q j r ncb
        (s, j.decodeBlock r ncb (max nhi reach) combines (combine soft ps (orderLlrs j.cdTurbo e j.cdQm llrs)) mismatch, true)
      else
        let (s, payload, lost) := s.readPayload q j r
        (s, CodeOut.coded (t.encode j.cdLimit j.cdRv j.cdQm e r (j.blockBits payload r)) (t.layers reach), lost)
    else
      let src := j.cdSrc + k * j.cdInStride
      if j.cdDecodes then
        let (s, llrs, _) := s.readLlrs q j src 0 j.sbE
        (s, j.decodeShort llrs, true)
      else
        let (s, bs, _) := s.readBytes q src ((j.sbA + 7) / 8)
        let c := withCrc j.sbCrc j.sbMask ((bitsOfBytes bs).take j.sbA)
        (s, CodeOut.coded (if j.cdPolar then polarEncode j.sbLink j.sbA j.sbE c else tbccEncode j.sbE c) 0, true)
  let lost := if drawn then s.lost else none
  (s.joinMarks old, { out with lost := lost })

/-- A coding opcode's row: every instance of the job that stands in a unit computes (R272–R276). -/
def codeCompute (op id : Nat) (ext : List Ext) (d : Dev) : Dev :=
  match d.executing id op, d.codeRun id with
  | some j, some r =>
    let q := d.codeReq j
    let step (acc : Io × List CodeUnit) (u : CodeUnit) : Io × List CodeUnit :=
      if u.job = id ∧ u.out.isNone then
        let (s, out) := acc.1.codeInstance q j u.inst
        (s, acc.2 ++ [{ u with out := some out }])
      else (acc.1, acc.2 ++ [u])
    let (s, us) := d.code.units.foldl step ({ Io.start d j ext with stop := match r.stop with | some x => some x | none => j.verdict }, [])
    let d := s.done.onCode (fun c => { c with units := us })
    d.setCodeRun { r with stop := s.stop }
  | _, _ => d

/-- R281: bytes of a lost instance: words wholly within the range are poison, bytes in a shared word zero. -/
def Io.writeLost (s : Io) (q : Req) (a n : Nat) : Io :=
  if bitOf a 53 then (s.writeBytes q a (List.replicate n 0) false).1
  else (shares a (n / 8 + 2) n).foldl (fun s x =>
    if x.2.2 = 8 then (s.write q (8 * x.1) 0 true).1
    else (s.writeShare q x.1 x.2.1 (List.replicate x.2.2 0) false).1) s

/-- R273, R276: an instance's output bytes and where they go. An encoded block shares its first and last byte with its
neighbours, whose bits there are taken from their own ends. -/
def Job.codeBytes (j : Job) (r : CodeRun) (k : Nat) (bits : List Bool) : Nat × List Byte :=
  if j.cdTb then
    let t := j.plan
    if j.cdDecodes then (j.cdDst + t.shareAt (j.cdFirst + k) / 8, bytesOfBits bits (bits.length / 8))
    else
      let at_ := j.llrAt k
      let before := ((r.blocks.find? (fun x => x.1 + 1 == k)).map (·.2)).getD []
      let after := ((r.blocks.find? (fun x => x.1 == k + 1)).map (·.2)).getD []
      let lead := (List.replicate 8 false ++ before).drop (before.length + 8 - at_ % 8)
      (j.cdDst + at_ / 8, bytesOfBits (lead ++ bits ++ after.take 8) ((at_ % 8 + bits.length + 7) / 8))
  else (j.cdDst + k * j.cdOutStride, bytesOfBits bits ((bits.length + 7) / 8))

/-- R274, R276: an instance's record. -/
def Job.codeRecord (j : Job) (o : CodeOut) (st : Nat) (written : Bool) : Word :=
  BitVec.ofNat 72 (
    if j.cdTb then
      st + o.iter % 32 * 2 ^ 8 + b2n o.syndrome * 2 ^ 13 + b2n o.mismatch * 2 ^ 14 + b2n written * 2 ^ 15 +
        o.layers % 64 * 2 ^ 16 + o.pHi % 2 ^ 15 * 2 ^ 22
    else st + o.path * 2 ^ 8 + o.metric * 2 ^ 16)

/-- R271: the write-back of a soft buffer: an empty header, the values, the final header. -/
def Io.writeSoft (s : Io) (q : Req) (a : Nat) (x : Nat × List Int) : Io :=
  let h := x.1
  let s := (s.write q a (BitVec.ofNat 72 (h - bitsOf h 16 4 * 2 ^ 16)) false).1
  let s := (s.writeBytes q (a + 8) (x.2.map (fun v => BitVec.ofNat 8 (wrapTo 8 v))) false).1
  (s.write q a (BitVec.ofNat 72 h) false).1

/-- R271–R282: an instance's output, write-back and record, and its part of the job's RESULT. -/
def Io.codeFinish (s : Io) (q : Req) (j : Job) (r : CodeRun) (k : Nat) (o : CodeOut) : Io × CodeRun :=
  let (a, bs) := j.codeBytes r k o.bits
  let rec_ := j.cdRec != 0 && j.cdDecodes
  match o.lost with
  | some st =>
    let s := s.writeLost q a bs.length
    let s := if rec_ then (s.write q (j.cdRec + 8 * k) (j.codeRecord
      { o with iter := 0, syndrome := false, layers := 0, pHi := 0, path := 0, metric := 0 } st false) false).1 else s
    (s, { r with done := r.done + 1, poisons := r.poisons + 1, uncorr := r.uncorr || st == stUNCORR,
                 poison := r.poison || st == stPOISONED, mismatches := r.mismatches + b2n o.mismatch,
                 blocks := r.blocks ++ [(k, o.bits.map (fun _ => false))] })
  | none =>
    let s := (s.writeBytes q a bs false).1
    let s := match o.soft with
      | some x => s.writeSoft q (j.softAt (j.cdFirst + k)) x
      | none => s
    let s := if rec_ then (s.write q (j.cdRec + 8 * k)
      (j.codeRecord o (if o.fail then stDECODEFAIL else stOK) o.soft.isSome) false).1 else s
    (s, { r with done := r.done + 1, fails := r.fails + b2n o.fail,
                 firstFail := if o.fail then min r.firstFail (j.cdFirst + k) else r.firstFail,
                 iterMax := max r.iterMax o.iter, iterTotal := r.iterTotal + o.iter,
                 layersMax := max r.layersMax o.layers, mismatches := r.mismatches + b2n o.mismatch,
                 passed := r.passed + b2n (j.cdDecodes && !o.fail), bitsOut := r.bitsOut + o.bits.length,
                 blocks := r.blocks ++ [(k, o.bits)] })

/-- R284: the counters of an instance that has ended. -/
def Dev.codeCount (d : Dev) (j : Job) (o : CodeOut) : Dev :=
  let d := if j.cdDecodes && o.lost.isNone then
      (d.bump Reg.CODE_CB_DECODED).add Reg.CODE_CB_FAILED (b2n o.fail) else d
  let d := d.add Reg.CODE_ITERATIONS (if o.lost.isNone then o.iter else 0)
  if o.mismatch then (d.bump Reg.CODE_MISMATCH).attend Reg.CODE_ATTN_MISMATCH 0x5E4 else d

/-- R273: the TB CRC over the decoded bits of a job that covers every block. -/
def CodeRun.tbCrcOk (r : CodeRun) (j : Job) : Bool :=
  let t := j.plan
  let bits := ((upFrom 0 t.c).map (fun k => ((r.blocks.find? (fun x => x.1 == k)).map (·.2)).getD [])).flatten
  r.poisons == 0 && crcCheck t.crc bits == 0

/-- R281, R282: the end of a job all of whose instances have ended, or which has stopped. -/
def Dev.codeOver (d : Dev) (j : Job) (r : CodeRun) (uncorr : Bool) : Dev :=
  let covers := j.cdTb && j.cdDecodes && j.cdFirst == 0 && j.cdCount == j.plan.c
  let checked := covers && r.stop.isNone
  let ok := checked && r.tbCrcOk j
  let failed := j.cdDecodes && (if j.cdTb then r.fails != 0 || (checked && !ok) else r.passed == 0)
  let st := match r.stop with
    | some x => x
    | none => if uncorr || r.uncorr then stUNCORR else if r.poison then stPOISONED else if failed then stDECODEFAIL else stOK
  let result :=
    if j.cdTb then
      if j.cdDecodes then
        r.done % 256 + r.fails % 256 * 2 ^ 8 + r.firstFail % 256 * 2 ^ 16 + r.iterMax % 256 * 2 ^ 24 +
          r.iterTotal % 2 ^ 16 * 2 ^ 32 + (b2n checked + 2 * b2n ok) * 2 ^ 48 + r.layersMax * 2 ^ 56 +
          r.mismatches % 256 * 2 ^ 64 + r.poisons % 256 * 2 ^ 72
      else r.done % 256 + r.layersMax * 2 ^ 8 + r.bitsOut % 2 ^ 32 * 2 ^ 16 + r.poisons % 256 * 2 ^ 72
    else r.done % 2 ^ 16 + r.passed % 2 ^ 16 * 2 ^ 16 + r.poisons % 2 ^ 16 * 2 ^ 32
  d.codeEnd j st result

/-- CODE_INSTANCE_END (R271): a unit whose instance has been computed writes its output, soft buffer and record; the last
instance ends the job. -/
def codeInstanceEnd (u : Nat) (d : Dev) : Dev :=
  match d.code.units.find? (fun x => x.unit == u) with
  | none => d
  | some x =>
    let free (d : Dev) : Dev :=
      (d.onCode (fun c => { c with units := c.units.filter (fun y => y.unit != u) })).clearBit (codeBusy u).1 (codeBusy u).2
    match d.job x.job, d.codeRun x.job, x.out with
    | some j, some r, some o =>
      let s0 := { Io.start d j [] with stop := match r.stop with | some x => some x | none => j.verdict }
      let (s, r) := if s0.stop.isSome then (s0, r) else s0.codeFinish (d.codeReq j) j r x.inst o
      let r := { r with stop := s.stop, uncorr := r.uncorr || s.uncorr }
      let d := (free (if s0.stop.isSome then s.done else s.done.codeCount j o)).setCodeRun r
      let idle := !d.code.units.any (fun y => y.job == x.job)
      if idle && (r.stop.isSome || r.done == j.cdInstances) then d.codeOver j r s.uncorr else d
    | _, _, none => if (d.codeRun x.job).isNone then free d else d
    | _, _, _ => free d

/-- CC_CRC (R277): a queued CRC job runs once CODE serves. -/
def ccCrc (id : Nat) (ext : List Ext) (d : Dev) : Dev :=
  match d.job id with
  | none => d
  | some j =>
    if j.opcode ≠ 0x48 ∨ j.phase ≠ .queued ∨ !d.serves .code ∨ !d.domainOn 15 then d
    else
      let q := d.codeReq j
      let n := (j.ccLen + 7) / 8
      let s := (Io.start d j ext).checkWorld q (if bitOf j.ccSrc 53 then [] else gridWords j.ccSrc 1 ((n + 7) / 8) 0) []
      let (s, bs, _) := s.readBytes q j.ccSrc n
      let bits := (bitsOfBytes bs).take j.ccLen
      let mask := if maskApplies j.sbCrc then j.bytes 40 2 else 0
      let r := (if j.ccCheck then crcCheck j.sbCrc bits else crcOf j.sbCrc bits) ^^^ mask
      let (v, d) := s.done.draw
      let r := if s.lost.isSome ∨ s.stop.isSome then v.toNat % 2 ^ 24 else r
      let st := s.status (if j.ccCheck ∧ r ≠ 0 then stDECODEFAIL else stOK)
      d.codeEnd j st (r + b2n (r == 0) * 2 ^ 24)

/-- CODE_INSTANCE_START (R265). -/
def execCodeInstanceStart (u : Fin 36) (s : State) : Host.Outcome State Fault Refusal := s.onDev (codeInstanceStart u.val)
/-- CODE_INSTANCE_END (R271). -/
def execCodeInstanceEnd (u : Fin 36) (s : State) : Host.Outcome State Fault Refusal := s.onDev (codeInstanceEnd u.val)
/-- CD_LDPC (R272). -/
def execCdLdpc (job : Nat) (s : State) : Host.Outcome State Fault Refusal := s.onDev (codeCompute 0x40 job [])
/-- CE_LDPC (R273). -/
def execCeLdpc (job : Nat) (ext : List Ext) (s : State) : Host.Outcome State Fault Refusal :=
  s.onDev (codeCompute 0x41 job ext)
/-- CD_POLAR (R276). -/
def execCdPolar (job : Nat) (s : State) : Host.Outcome State Fault Refusal := s.onDev (codeCompute 0x42 job [])
/-- CE_POLAR (R275). -/
def execCePolar (job : Nat) (ext : List Ext) (s : State) : Host.Outcome State Fault Refusal :=
  s.onDev (codeCompute 0x43 job ext)
/-- CD_TURBO (R272). -/
def execCdTurbo (job : Nat) (s : State) : Host.Outcome State Fault Refusal := s.onDev (codeCompute 0x44 job [])
/-- CE_TURBO (R273). -/
def execCeTurbo (job : Nat) (ext : List Ext) (s : State) : Host.Outcome State Fault Refusal :=
  s.onDev (codeCompute 0x45 job ext)
/-- CD_TBCC (R276). -/
def execCdTbcc (job : Nat) (s : State) : Host.Outcome State Fault Refusal := s.onDev (codeCompute 0x46 job [])
/-- CE_TBCC (R275). -/
def execCeTbcc (job : Nat) (ext : List Ext) (s : State) : Host.Outcome State Fault Refusal :=
  s.onDev (codeCompute 0x47 job ext)
/-- CC_CRC (R277). -/
def execCcCrc (job : Nat) (ext : List Ext) (s : State) : Host.Outcome State Fault Refusal := s.onDev (ccCrc job ext)

end Sys2Proof.Machine
end

