-- ==== Sys2Proof/Machine/Pace.lean ====
section
/-! DEFINITION. Time as fabric blocks see it (R29), the pace monitors (R31–R33) and the pace loop (R34–R41, R44). -/

namespace Sys2Proof.Machine

/-- R32: the power domain of the region that monitor m covers. -/
def monDomain (m : Nat) : Nat :=
  if m < 26 then m / 2
  else if m < 30 then 13
  else if m < 38 then 14
  else if m < 42 then 15
  else if m < 46 then 16
  else if m = 46 then 17
  else if m = 47 then 18
  else if m < 60 then 22
  else 19

/-- R32: is the domain of monitor m ON? Monitor 63 covers mesa banks 30–39, so it also needs the chest banks. -/
def Dev.monOn (d : Dev) (m : Nat) : Bool := d.domainOn (monDomain m) && (m != 63 || d.domainOn 20)

/-- R33: has the domain of monitor m been ON for the whole of the window under way? -/
def Dev.monWhole (d : Dev) (m : Nat) : Bool :=
  d.monOn m && !d.pace.broken.contains (monDomain m) && (m != 63 || !d.pace.broken.contains 20)

/-- R32: the monitors of rail r. -/
def railMonitors (r : Nat) : List Nat :=
  if r = 0 then upFrom 0 14 else if r = 1 then upFrom 14 12 else if r = 2 then upFrom 26 22 else upFrom 48 16

/-- The pace loop's own data replaced. -/
def Dev.onPace (d : Dev) (f : PaceState → PaceState) : Dev := { d with pace := f d.pace }

/-- R32: the rail of monitor m. -/
def monRail (m : Nat) : Nat := if m < 14 then 0 else if m < 26 then 1 else if m < 48 then 2 else 3

/-- R33: a monitor that takes part and reads 0 or 2,047 is faulty. -/
def Dev.judgeReading (d : Dev) (m : Nat) : Dev :=
  let v := d.get (Reg.PWR_PACE_MON_READING m)
  if v = 0 ∨ v = 2047 then (d.set (Reg.PWR_PACE_MON_FAULT m) 1).setBit Reg.PWR_PACE_STATUS_MON_FAULT (monRail m) else d

/-- R31, R33: a window ends: each reading is updated, 0 where the domain is not ON, and the monitors that take part are
those whose domain has been ON throughout. -/
def monitorWindowEnd (readings : List Nat) (d : Dev) : Dev :=
  let taking := (upFrom 0 64).filter d.monWhole
  let d := d.each (upFrom 0 64) (fun d m =>
    d.set (Reg.PWR_PACE_MON_READING m) (if d.monOn m then min 2047 (readings.getD m 0) else 0))
  let d := d.onPace (fun p => { p with taking := taking, broken := [], windowed := true })
  (d.each taking Dev.judgeReading).relevel 0x7C4

/-- R33: the reading of monitor m. -/
def Dev.reading (d : Dev) (m : Nat) : Nat := d.get (Reg.PWR_PACE_MON_READING m)

/-- R33: the valid monitors of rail r: those that take part and are not faulty. -/
def Dev.validMonitors (d : Dev) (r : Nat) : List Nat :=
  (railMonitors r).filter (fun m => d.pace.taking.contains m && !d.on (Reg.PWR_PACE_MON_FAULT m))

/-- R33: is monitor m more than 256 units from the mean of the other valid monitors? -/
def Dev.farFromMean (d : Dev) (others : List Nat) (m : Nat) : Bool :=
  let n : Int := others.length
  let sum : Int := (others.map d.reading).sum
  let diff := n * (d.reading m : Int) - sum
  n != 0 && decide (256 * n < (diff.natAbs : Int))

/-- R33: the fault of monitor m is judged at an update. -/
def Dev.judgeMonitor (d : Dev) (valid : List Nat) (m : Nat) : Dev :=
  let v := d.reading m
  let far := d.farFromMean (valid.filter (fun x => x != m && d.reading x != 0 && d.reading x != 2047)) m
  let n := if far then lookup (fun _ => 0) d.pace.deviant m + 1 else 0
  let d := d.onPace (fun p => { p with deviant := update (fun _ => 0) p.deviant m n })
  if v = 0 ∨ v = 2047 ∨ 3 ≤ n then d.set (Reg.PWR_PACE_MON_FAULT m) 1 else d

/-- R33: the faults of the monitors of rail r, and its bit of MON_FAULT. -/
def Dev.judgeRail (d : Dev) (r : Nat) : Dev :=
  let valid := d.validMonitors r
  let d := d.each valid (fun d m => d.judgeMonitor valid m)
  if (railMonitors r).any (fun m => d.on (Reg.PWR_PACE_MON_FAULT m)) then d.setBit Reg.PWR_PACE_STATUS_MON_FAULT r else d

/-- R34: the rail of the erg of a task. -/
def ergRail (e : Nat) : Nat := if e < 7 then 0 else 1

/-- R34: the deadlines of the work in flight on the blocks of rail r. -/
def Dev.railDeadlines (d : Dev) (r : Nat) : List ShortTime :=
  let jobs := (d.jfe.jobs.filter (fun j => j.open_ && !j.noDeadline && j.opcode != 1 && (r == 3 || (r == 2 && j.onRail2)))).map Job.deadline
  let onRail (t : Task) : Bool :=
    match t.core with
    | some c => r == 3 || ergRail (c / 8) == r
    | none => false
  let tasks := d.tsu.tasks.filterMap (fun x => if onRail x.2 then x.2.deadline else none)
  jobs ++ tasks

/-- R34: the slack of rail r in units of 100 ns, 0xFFFE at most, 0xFFFF where there is no such work. A deadline that has
passed counts as slack 0. -/
def Dev.slack (d : Dev) (r : Nat) : Nat :=
  match d.railDeadlines r with
  | [] => 0xFFFF
  | xs => minD 0xFFFE (xs.map (fun t => (timeDiff t d.now).toNat / 6553600))

/-- R35: is the thermal throttle active? -/
def Dev.throttled (d : Dev) : Bool := d.on Reg.PWR_THERM_THROTTLE || d.on Reg.PWR_THERM_HBM_THROTTLE

/-- R35 orders 1 and 2: the new target of a rail. `slackHigh` counts the updates in a row with slack above SLACK_HI. -/
def newTarget (throttle boost late relax : Bool) (slack lo tgtMax t slackHigh : Nat) : Nat :=
  if throttle then 891
  else if boost && (decide (slack < lo) || late) then min (t + 16) tgtMax
  else if relax && decide (10 ≤ slackHigh) then max (t - 8) 891
  else t

/-- R35 orders 3 to 5: the new command of a rail that has a lowest reading p. -/
def newCommand (toCeil : Bool) (p t cmd ceil : Nat) : Nat :=
  let c :=
    if toCeil then ceil
    else if p + 32 < t then cmd + 25
    else if p < t then cmd + 10
    else if p ≤ t + 24 then cmd
    else cmd - 5
  max 600 (min ceil c)

/-- R35: order 2 looks at the slack of the last 10 updates. -/
def Dev.countSlack (d : Dev) (r slack : Nat) : Dev :=
  let n := if slack > d.get Reg.PWR_PACE_SLACK_SLACK_HI then d.pace.slackHigh.getD r 0 + 1 else 0
  d.onPace (fun p => { p with slackHigh := p.slackHigh.set r n, late := p.late.set r false })

/-- R35: a command of rail r, with its bit of AT_CEIL. -/
def Dev.commandRail (d : Dev) (r v : Nat) : Dev :=
  let d := d.set (Reg.PWR_PACE_RAIL_SETPOINT r) v
  if v = d.get (Reg.PWR_PACE_RAIL_CEILING r) then d.setBit Reg.PWR_PACE_STATUS_AT_CEIL r
  else d.clearBit Reg.PWR_PACE_STATUS_AT_CEIL r

/-- R33, R35, R39: the lowest reading of a rail, the monitor that gave it, and SHORT. -/
def Dev.showLowest (d : Dev) (r : Nat) (valid : List Nat) : Dev :=
  match valid with
  | [] => d
  | m :: _ =>
    let p := minD 2047 (valid.map d.reading)
    let k := (valid.find? (fun x => d.reading x == p)).getD m
    let d := (d.set (Reg.PWR_PACE_RAIL_PACE_MIN r) p).set (Reg.PWR_PACE_RAIL_MIN_MON r) k
    if p < 871 then d.setBit Reg.PWR_PACE_STATUS_SHORT r else d.clearBit Reg.PWR_PACE_STATUS_SHORT r

/-- 24 hours in short time. -/
def oneDay : Nat := 86400000000000 * 65536

/-- R41: the estimate of rail r at an update: VNEED is open within 10 mV of the command that would give 891; its highest
value over 24 hours and RESERVE follow from it. -/
def Dev.estimate (d : Dev) (r : Nat) : Dev :=
  let (x, d) := d.draw
  let v := x.toNat % 1024
  let keep := (lookup (fun _ => []) d.pace.history r).filter (fun y => decide (timeDiff d.now y.1 ≤ (oneDay : Int)))
  let h := (d.now, v) :: keep
  let top := (h.map (·.2)).foldl max 0
  let d := d.onPace (fun p => { p with history := update (fun _ => []) p.history r h })
  let d := (d.set (Reg.PWR_PACE_RAIL_VNEED r) v).set (Reg.PWR_PACE_RAIL_VNEED_MAX24 r) top
  if d.pace.day then d.set (Reg.PWR_PACE_RAIL_RESERVE r) (850 - top) else d

/-- R38: the AVSBus fault of rail r as this update finds it. -/
def Dev.takeAvs (d : Dev) (r : Nat) (fault : Bool) : Dev :=
  if fault then
    let d1 := d.setBit Reg.PWR_PACE_STATUS_AVS_FAULT r
    if d.bit Reg.PWR_PACE_STATUS_AVS_FAULT r then d1 else d1.raise (0x7C6 + r)
  else d.clearBit Reg.PWR_PACE_STATUS_AVS_FAULT r

/-- R33, R35, R38, R445: the command of rail r at an update. -/
def Dev.railCommand (d : Dev) (r t : Nat) (valid : List Nat) : Nat :=
  let ceil := d.get (Reg.PWR_PACE_RAIL_CEILING r)
  if (railMonitors r).all (fun m => !d.pace.taking.contains m) then 600
  else
    let toCeil := !d.on Reg.PWR_PACE_CTL_ENABLE || d.bit Reg.PWR_PACE_STATUS_MON_FAULT r ||
      d.bit Reg.PWR_PACE_STATUS_AVS_FAULT r || valid.isEmpty
    newCommand toCeil (minD 2047 (valid.map d.reading)) t (d.get (Reg.PWR_PACE_RAIL_SETPOINT r)) ceil

/-- R35: one rail's update. -/
def Dev.updateRail (avs : BitVec 4) (d : Dev) (r : Nat) : Dev :=
  let d := d.judgeRail r
  let slack := d.slack r
  let late := d.pace.late.getD r false
  let d := (d.set (Reg.PWR_PACE_RAIL_MSLACK r) slack).countSlack r slack
  let relax := decide (d.get Reg.PWR_PACE_SLACK_SLACK_LO < d.get Reg.PWR_PACE_SLACK_SLACK_HI)
  let t := newTarget d.throttled (d.on Reg.PWR_PACE_CTL_BOOST_EN) late relax slack (d.get Reg.PWR_PACE_SLACK_SLACK_LO)
    (d.get Reg.PWR_PACE_TGT_MAX_TGT_MAX) (d.get (Reg.PWR_PACE_RAIL_TARGET r)) (d.pace.slackHigh.getD r 0)
  let d := (d.set (Reg.PWR_PACE_RAIL_TARGET r) t).takeAvs r (avs.getLsbD r)
  let valid := d.validMonitors r
  let d := (d.showLowest r valid).commandRail r (d.railCommand r t valid)
  if valid.isEmpty then d else d.estimate r

/-- R40: has rail r its lowest reading in the steady band? A rail without a valid monitor is not judged. -/
def Dev.railInBand (d : Dev) (r : Nat) : Bool :=
  let t := d.get (Reg.PWR_PACE_RAIL_TARGET r)
  let p := d.get (Reg.PWR_PACE_RAIL_PACE_MIN r)
  (d.validMonitors r).isEmpty || (decide (t ≤ p) && decide (p ≤ t + 24))

/-- R40: CONVERGED after an update. -/
def Dev.converge (d : Dev) : Dev :=
  let all := (upFrom 0 4).all d.railInBand
  let d := d.onPace (fun p =>
    { p with inBand := if all then p.inBand + 1 else 0,
             outBand := (upFrom 0 4).map (fun r => if d.railInBand r then 0 else p.outBand.getD r 0 + 1) })
  let d := if 10 ≤ d.pace.inBand then d.set Reg.PWR_PACE_STATUS_CONVERGED 1 else d
  if d.pace.outBand.any (fun n => decide (10 ≤ n)) then d.set Reg.PWR_PACE_STATUS_CONVERGED 0 else d

/-- The level events of R45 after an update. -/
def Dev.paceLevels (d : Dev) : Dev := d.each [0x7C0, 0x7C1, 0x7C2, 0x7C3, 0x7C4, 0x7C5] Dev.relevel

/-- R41, R44: do 24 hours of history exist? -/
def Dev.markDay (d : Dev) (t0 : ShortTime) : Dev :=
  d.onPace (fun p => { p with day := p.day || decide ((oneDay : Int) ≤ timeDiff d.now t0) })

/-- R35: an update of every rail, once the fabric is released and a first window has ended. -/
def paceLoopUpdate (avs : BitVec 4) (d : Dev) : Dev :=
  match d.pace.began with
  | some t0 =>
    if d.pace.windowed then (((d.markDay t0).each (upFrom 0 4) (Dev.updateRail avs)).converge).paceLevels else d
  | none => d

/-- MONITOR_WINDOW_END (R31). There are 64 readings. -/
def execMonitorWindowEnd (readings : List Nat) (s : State) : Host.Outcome State Fault Refusal :=
  s.onDevIf (readings.length == 64) (monitorWindowEnd readings)
/-- PACE_LOOP_UPDATE (R35). -/
def execPaceLoopUpdate (avsFault : BitVec 4) (s : State) : Host.Outcome State Fault Refusal :=
  s.onDev (paceLoopUpdate avsFault)

end Sys2Proof.Machine
end

