-- ==== Sys2Proof/WellFormed.lean ====
section
/-! DEFINITION. The shapes of operands that no type says: a command whose operands fail these checks is no command the
device can meet. -/

namespace Sys2Proof

/-- A list delivered by a reply has the length the request asked for. -/
def Reply.sized {α : Type} (r : Reply (List α)) (n : Nat) : Bool :=
  match r with
  | .data xs => xs.length == n
  | _ => true

/-- R323, R324: the words of a packet fit its flits, and only packets that carry data have any. -/
def Packet.wf (p : Packet) : Bool :=
  p.words.length ≤ 4 * (p.len.val + 1) &&
    match p.type with
    | .wr => 4 * p.len.val < p.words.length
    | .swr => 4 * p.len.val < p.words.length
    | .rdata => 4 * p.len.val < p.words.length
    | .wrn => p.words.length == 1 && p.len.val == 0 && p.mask != 0
    | _ => p.words.isEmpty && p.len.val == 0

/-- A packet of a type, with a sound shape. -/
def Packet.is (p : Packet) (t : PType) : Bool := p.type == t && p.wf

/-- R356: a flit holds at most four words. -/
def Flit.wf (f : Flit) : Bool := f.words.length ≤ 4

/-- R356: a TRAIN body has eight credit limits. -/
def TrainBody.wf (b : TrainBody) : Bool := b.limits.length == 8

/-- Is a command one the device can meet? The operands of every command not named here have the shape their types give them. -/
def Instr.wf : Instr → Bool
  | .scanArrayReadComplete reply => reply.sized 256
  | .rd p _ => p.is .rd
  | .wr p _ => p.is .wr
  | .wrn p _ => p.is .wrn
  | .swr p _ => p.is .swr
  | .rdata p _ => p.is .rdata
  | .wack p _ => p.is .wack
  | .sack p _ => p.is .sack
  | .errPacket p _ => p.is .err
  | .noticePacket p _ => p.is .notice
  | .trainFrame _ _ body => body.wf
  | .dataFrame _ _ _ flit => flit.wf
  | .monitorWindowEnd readings => readings.length == 64
  | .maskDwellEnd _ spectrum => spectrum.length == 4096
  | .housekeepingRound codes => codes.length == 64
  | .bootSequence input => input.codes.length == 64
  | .stwMbDone _ _ reply => decide (reply.length ≤ 64)
  | _ => true

end Sys2Proof
end

