-- ==== Sys2Proof/Machine/Rings.lean ====
section
/-! DEFINITION. The job front end's rings and doorbells (R54–R62), the start of jobs (R64, R67–R69), completion records
(R70–R75). The checks of R65, cancellation and resets stand in files of their own, after the blocks they concern. -/

namespace Sys2Proof.Machine

/-- The IOVA of an address field pair: bits [31:k] of the low word and [20:0] of the next (R54, R83). -/
def Dev.iova (d : Dev) (off k : Nat) : Nat :=
  (d.word off).toNat / 2 ^ k * 2 ^ k + (d.word (off + 4)).toNat % 2 ^ 21 * 2 ^ 32

/-- R54: the function of SQ n. -/
def Dev.sqFunc (d : Dev) (n : Nat) : Nat := d.get (Reg.JFE_SQ_CFG_FUNC n)
/-- R54: the function of CQ m. -/
def Dev.cqFunc (d : Dev) (m : Nat) : Nat := d.get (Reg.JFE_CQ_CFG_FUNC m)
/-- R54: the entries of SQ n. -/
def Dev.sqSize (d : Dev) (n : Nat) : Nat := 2 ^ d.get (Reg.JFE_SQ_CFG_LOG2SIZE n)
/-- R54: the entries of CQ m. -/
def Dev.cqSize (d : Dev) (m : Nat) : Nat := 2 ^ d.get (Reg.JFE_CQ_CFG_LOG2SIZE m)
/-- Is SQ n in RUN? -/
def Dev.sqRuns (d : Dev) (n : Nat) : Bool := d.running (.sq (Fin.ofNat 256 n))
/-- R56, R80: Bus Master Enable of function f. -/
def Dev.mayMaster (d : Dev) (f : Nat) : Bool := d.jfe.busMaster.getLsbD f

/-- R55: a difference of counts, modulo 2^32. -/
def countDiff (a b : Nat) : Nat := (a + 2 ^ 32 - b % 2 ^ 32) % 2 ^ 32

/-- The JFE's own data replaced. -/
def Dev.onJfe (d : Dev) (f : JfeState → JfeState) : Dev := { d with jfe := f d.jfe }

/-- ATTN.DB_ERR of SQ n (R60, R82). -/
def Dev.dbErr (d : Dev) (n : Nat) : Dev := d.attend (Reg.JFE_SQ_ATTN_DB_ERR n) (0x440 + n)

/-- R55, R59, R62: the producer count of SQ n is read: in SCAN mode from the array, as the PF. -/
def Dev.readCount (d : Dev) (n : Nat) : Dev :=
  if d.jfe.countReads.contains n then d
  else
    let o := if d.on Reg.JFE_DB_CFG_MODE then Out.read 0 (d.iova Reg.JFE_SCAN_ADDR_LO.off 10 + 4 * n) 4
      else Out.read (d.sqFunc n) (d.iova (Reg.JFE_SQ_PI_ADDR n).off 2) 4
    (d.send o).onJfe (fun j => { j with countReads := insertOnce n j.countReads })

/-- R62: the producer-count array is read, as the PF. -/
def Dev.readArray (d : Dev) : Dev :=
  if d.jfe.scanRead then d
  else (d.send (.read 0 (d.iova Reg.JFE_SCAN_ADDR_LO.off 10) 1024)).onJfe (fun j => { j with scanRead := true })

/-- The SQs in RUN, rising. -/
def Dev.runRings (d : Dev) : List Nat := (upFrom 0 256).filter d.sqRuns

/-- R59, R60, R62: a poll, while no entry to a low state has stopped the JFE (R449). Flagged rings are read, and a Swap of each enabled word goes out, or the array is read. -/
def doorbellPoll (d : Dev) : Dev :=
  if d.running .poller && d.mayMaster 0 && !d.power.paused then
    let d := d.bump Reg.JFE_DB_POLLS
    if d.on Reg.JFE_DB_CFG_MODE then (d.onJfe (fun j => { j with flagged := [] })).readArray
    else
      let flagged := d.jfe.flagged
      let d := (d.onJfe (fun j => { j with flagged := [] })).each (flagged.filter d.sqRuns) Dev.readCount
      let base := d.iova Reg.JFE_DB_ADDR_LO.off 5
      d.each ((upFrom 0 4).filter (fun q => d.bit Reg.JFE_DB_CFG_QMASK q)) (fun d q =>
        (d.send (.swap (base + 8 * q))).onJfe (fun j => { j with swaps := insertOnce q j.swaps }))
  else d

/-- R61, R62: a sweep; an interval of 0 disables it. -/
def doorbellSweep (d : Dev) : Dev :=
  if d.running .poller && d.get Reg.JFE_DB_SWEEP_US != 0 && d.mayMaster 0 && !d.power.paused then
    if d.on Reg.JFE_DB_CFG_MODE then d.readArray else d.each d.runRings Dev.readCount
  else d

/-- R59, R60: the answer of a Swap of word q. -/
def swapComplete (q : Nat) (reply : Reply (BitVec 64)) (d : Dev) : Dev :=
  if d.jfe.swaps.contains q then
    let d := d.onJfe (fun j => { j with swaps := j.swaps.filter (· != q) })
    let rings := upFrom (64 * q) 64
    match reply with
    | .data v =>
      d.each (rings.filter (fun n => v.getLsbD (n - 64 * q))) (fun d n =>
        if d.sqRuns n then d.readCount n else d.bump Reg.JFE_DB_STRAY)
    | _ => (d.bump Reg.JFE_DB_ATOMIC_ERR).each (rings.filter d.sqRuns) (fun d n => (d.dbErr n).readCount n)
  else d

/-- R68: descriptors asked for and not yet taken, of all rings and of the rings of a function. -/
def Dev.asked (d : Dev) (p : Nat → Bool) : Nat :=
  ((d.jfe.fetches.filter (fun x => p x.1)).map (fun x => x.2.2)).sum

/-- R68: the room the limits leave for a fetch from SQ n. -/
def Dev.fetchRoom (d : Dev) (n : Nat) : Nat :=
  let f := d.sqFunc n
  min (d.get Reg.JFE_LIMIT_MAX_INFLIGHT - d.get Reg.JFE_STATUS_INFLIGHT - d.asked (fun _ => true))
    (d.get (Reg.JFE_FN_MAX_JOBS f) - d.get (Reg.JFE_FN_INFLIGHT f) - d.asked (fun m => d.sqFunc m == f))

/-- The work of SQ n that the last producer count read shows and no fetch has taken. -/
def Dev.sqWork (d : Dev) (n : Nat) : Nat := countDiff (d.get (Reg.JFE_SQ_PI_SEEN n)) (d.get (Reg.JFE_SQ_CI n))

/-- R59, R68: one read request for the next descriptors of SQ n: at most 64, no more than the room, and none beyond the
last slot of the ring. One request per ring is outstanding at a time. -/
def Dev.fetchFrom (d : Dev) (n : Nat) : Dev :=
  let c := d.get (Reg.JFE_SQ_CI n)
  let size := d.sqSize n
  let k := min (min (d.sqWork n) (d.fetchRoom n)) (min 64 (size - c % size))
  if !d.sqRuns n || d.power.paused || k == 0 || d.jfe.fetches.any (fun x => x.1 == n) then d
  else
    (d.send (.read (d.sqFunc n) (d.iova (Reg.JFE_SQ_BASE n).off 12 + 64 * (c % size)) (64 * k))).onJfe
      (fun j => { j with fetches := j.fetches ++ [(n, c, k)], lastRing := n })

/-- R59, R60: a producer count of SQ n: more new work than the ring holds stops the ring with INDEX; otherwise the new
work is fetched, or, while an entry to a low state has stopped the JFE, the ring is flagged for the next poll. -/
def Dev.takeCount (d : Dev) (n pi : Nat) : Dev :=
  let d := (d.set (Reg.JFE_SQ_PI_SEEN n) pi).onJfe (fun j => { j with known := insertOnce n j.known })
  if d.sqWork n > d.sqSize n then d.fnFault (.sq (Fin.ofNat 256 n)) 0x04 false
  else if d.power.paused then d.onJfe (fun j => { j with flagged := insertOnce n j.flagged })
  else d.fetchFrom n

/-- R60: the answer of a producer-count read. -/
def countReadComplete (n : Nat) (reply : Reply (BitVec 32)) (d : Dev) : Dev :=
  if d.jfe.countReads.contains n then
    let d := d.onJfe (fun j => { j with countReads := j.countReads.filter (· != n) })
    if d.sqRuns n then
      match reply with
      | .data v => d.takeCount n v.toNat
      | _ => ((d.dbErr n).bump Reg.JFE_DB_ATOMIC_ERR).onJfe (fun j => { j with flagged := insertOnce n j.flagged })
    else d
  else d

/-- R62: the answer of a read of the producer-count array. -/
def scanReadComplete (reply : Reply (List (BitVec 32))) (d : Dev) : Dev :=
  if d.jfe.scanRead then
    let d := d.onJfe (fun j => { j with scanRead := false })
    match reply with
    | .data vs => d.each d.runRings (fun d n => d.takeCount n (vs.getD n 0).toNat)
    | _ => (d.bump Reg.JFE_DB_ATOMIC_ERR).each d.runRings Dev.dbErr
  else d

/-- R68: is SQ n in RUN with work waiting, no request outstanding, and room? -/
def Dev.mayFetch (d : Dev) (n : Nat) : Bool :=
  d.sqRuns n && d.jfe.known.contains n && !d.power.paused && d.sqWork n != 0 && d.fetchRoom n != 0 && !d.jfe.fetches.any (fun x => x.1 == n)

/-- R68: the next ring in round-robin order fetches. -/
def fetchResume (d : Dev) : Dev :=
  match ((upFrom 1 256).map (fun k => (d.jfe.lastRing + k) % 256)).find? d.mayFetch with
  | some n => d.fetchFrom n
  | none => d

/-- A new job in flight: the counts of R53 and R83 follow. -/
def Dev.addJob (d : Dev) (j : Job) : Dev :=
  let d := d.setJobs (d.jfe.jobs ++ [j])
  let d := d.bump (Reg.JFE_SQ_INFLIGHT j.sq)
  let d := d.iff j.counts (fun d => (d.bump Reg.JFE_STATUS_INFLIGHT).bump (Reg.JFE_FN_INFLIGHT (d.jobFunc j)))
  d.iff j.named (fun d => d.bump (Reg.JFE_CAR_INFLIGHT j.carrier))

/-- A field less one, not below zero. -/
def Dev.lower (d : Dev) (f : Fld) : Dev := d.set f (d.get f - 1)

/-- A job leaves flight: the counts follow. -/
def Dev.leave (d : Dev) (j : Job) : Dev :=
  let d := (d.dropJob j.id).lower (Reg.JFE_SQ_INFLIGHT j.sq)
  let d := d.iff j.counts (fun d => (d.lower Reg.JFE_STATUS_INFLIGHT).lower (Reg.JFE_FN_INFLIGHT (d.jobFunc j)))
  d.iff j.named (fun d => d.lower (Reg.JFE_CAR_INFLIGHT j.carrier))

/-- R64: does FENCE of an earlier job of its SQ hold job j back, or its own ORDERED or FENCE while an earlier job of the SQ
is in flight? A CANCEL ignores its own FENCE (R76). -/
def Dev.heldBack (d : Dev) (j : Job) : Bool :=
  let before := d.jfe.jobs.filter (fun x => x.sq == j.sq && decide (x.id < j.id))
  before.any (fun x => x.fence && x.opcode != 1) || ((j.ordered || j.fence) && !before.isEmpty)

/-- R64, R67: a held job starts; a TASK_RUN at once, since the scheduler holds its task until NOT_BEFORE (R217). -/
def jobStart (id : Nat) (d : Dev) : Dev :=
  match d.job id with
  | some j =>
    if j.phase = .held ∧ j.opcode ≠ 1 ∧ (j.opcode = 0xB0 ∨ j.notBefore = 0 ∨ d.due j.notBefore) ∧ d.heldBack j = false then
      d.setJob { j with phase := .started }
    else d
  | none => d

/-- R66: a started NOP completes OK. -/
def nopJob (id : Nat) (d : Dev) : Dev :=
  match d.job id with
  | some j => if j.phase = .started ∧ j.opcode = 0 then d.endJob j stOK 0 else d
  | none => d

/-- R71: the phase bit of the record of count k in a ring of 2^lg entries. -/
def phaseOf (k lg : Nat) : Nat := (k / 2 ^ lg + 1) % 2

/-- R70: a completion record. -/
def recordOf (j : Job) (func phase : Nat) : BitVec 256 :=
  BitVec.ofNat 256 (j.tag + j.status % 256 * 2 ^ 16 + j.sq % 256 * 2 ^ 24 + j.result.toNat * 2 ^ 32
    + j.time.toNat * 2 ^ 160 + (func % 64 + b2n j.world * 64) * 2 ^ 224 + phase * 2 ^ 255)

/-- The cached consumer count of CQ m (R57, R74). -/
def Dev.cachedCi (d : Dev) (m : Nat) : Nat := (lookup (fun _ => 0) d.jfe.cached m).toNat

/-- R74: does CQ m appear full? -/
def Dev.cqFull (d : Dev) (m : Nat) : Bool :=
  decide (d.cqSize m ≤ countDiff (d.get (Reg.JFE_CQ_PI m)) (d.cachedCi m))

/-- The CQ of a job's records (R56). -/
def Dev.jobCq (d : Dev) (j : Job) : Nat := d.get (Reg.JFE_SQ_CFG_CQ j.sq)

/-- R72, R75: the record of a job whose end is taken goes out, and the job leaves flight. -/
def Dev.writeRecord (d : Dev) (m : Nat) (j : Job) : Dev :=
  let pi := d.get (Reg.JFE_CQ_PI m)
  let lg := d.get (Reg.JFE_CQ_CFG_LOG2SIZE m)
  let r := recordOf j (d.jobFunc j) (phaseOf pi lg)
  let d := d.send (.record (d.cqFunc m) (d.iova (Reg.JFE_CQ_BASE m).off 12 + 32 * (pi % 2 ^ lg)) r)
  let d := (d.bump (Reg.JFE_CQ_PI m)).onJfe (fun s => { s with stalled := s.stalled.filter (· != m) })
  let d := d.iff j.completionEvent (fun d => d.raise (0x340 + m))
  d.leave j

/-- R74: the read of CQ m's consumer count goes out. -/
def Dev.readCi (d : Dev) (m : Nat) : Dev :=
  if d.jfe.ciReads.contains m then d
  else (d.send (.read (d.cqFunc m) (d.iova (Reg.JFE_CQ_CI_ADDR m).off 2) 4)).onJfe
    (fun j => { j with ciReads := insertOnce m j.ciReads })

/-- The first job in the order of taken ends whose record waits for CQ m. -/
def Dev.nextRecord (d : Dev) (m : Nat) : Option Job :=
  match d.jfe.waiting.find? (fun id => match d.job id with
    | some j => d.jobCq j == m
    | none => false) with
  | some id => d.job id
  | none => none

/-- R72, R74, R80: records of CQ m go out in the order their ends were taken, as long as there is room; a record that can
no longer be written is discarded. A ring first found full has its consumer count read. `n` bounds the records. -/
def Dev.flushCq (d : Dev) (m : Nat) : Nat → Dev
  | 0 => d
  | n + 1 =>
    match d.nextRecord m with
    | none => d
    | some j =>
      if d.stopped (.cq (Fin.ofNat 256 m)) || !d.mayMaster (d.cqFunc m) then (d.leave j).flushCq m n
      else if d.cqFull m then (if d.jfe.stalled.contains m then d else d.readCi m)
      else (d.writeRecord m j).flushCq m n

/-- Records of CQ m that can go out do. -/
def Dev.flush (d : Dev) (m : Nat) : Dev := d.flushCq m d.jfe.waiting.length

/-- R70, R72, R74: the JFE takes the end of a job; a CANCEL's own once none of its targets is in flight (R76). -/
def jobCompletion (id : Nat) (d : Dev) : Dev :=
  match d.job id with
  | some j =>
    if j.phase = .ended ∧ (j.targets.all (fun t => (d.job t).isNone)) = true then
      let d := d.setJob { j with phase := .taken, time := if j.targets.isEmpty then j.time else d.now }
      let d := d.iff j.named (fun d => d.bump (Reg.JFE_CAR_JOBS j.carrier))
      (d.onJfe (fun s => { s with waiting := s.waiting ++ [id] })).flush (d.jobCq j)
    else d
  | none => d

/-- R74: at a poll instant the consumer count of a CQ that stays full is read again. -/
def cqFullRecheck (m : Nat) (d : Dev) : Dev :=
  if d.jfe.stalled.contains m then d.readCi m else d

/-- R74: a read has left CQ m full: its records wait, and the wait is counted once. -/
def Dev.cqWaits (d : Dev) (m : Nat) : Dev :=
  if d.jfe.stalled.contains m then d
  else (d.bump (Reg.JFE_CQ_STALLS m)).onJfe (fun j => { j with stalled := insertOnce m j.stalled })

/-- R74: a CQ takes a fault code and attention and stays in RUN. -/
def Dev.cqFault (d : Dev) (m code : Nat) : Dev :=
  let fn := Fn.cq (Fin.ofNat 256 m)
  (d.set fn.fault code).fnAttend fn

/-- R74: the answer of a consumer-count read of CQ m. -/
def cqCiReadComplete (m : Nat) (reply : Reply (BitVec 32)) (d : Dev) : Dev :=
  if d.jfe.ciReads.contains m then
    let d := d.onJfe (fun j => { j with ciReads := j.ciReads.filter (· != m) })
    match reply with
    | .data v =>
      let d := d.set (Reg.JFE_CQ_CI_SEEN m) v.toNat
      if countDiff (d.get (Reg.JFE_CQ_PI m)) v.toNat > d.cqSize m then (d.cqFault m 0x04).cqWaits m
      else
        let d := d.onJfe (fun j => { j with cached := update (fun _ => 0) j.cached m v })
        if d.cqFull m then d.cqWaits m else d.flush m
    | _ => (d.cqFault m 0x05).cqWaits m
  else d

/-- DOORBELL_POLL (R59). -/
def execDoorbellPoll (s : State) : Host.Outcome State Fault Refusal := s.onDev doorbellPoll
/-- DOORBELL_SWEEP (R61). -/
def execDoorbellSweep (s : State) : Host.Outcome State Fault Refusal := s.onDev doorbellSweep
/-- ATOMIC_SWAP_COMPLETE (R60). -/
def execAtomicSwapComplete (q : Fin 4) (reply : Reply (BitVec 64)) (s : State) : Host.Outcome State Fault Refusal :=
  s.onDev (swapComplete q.val reply)
/-- PRODUCER_COUNT_READ_COMPLETE (R60). -/
def execProducerCountReadComplete (n : Fin 256) (reply : Reply (BitVec 32)) (s : State) :
    Host.Outcome State Fault Refusal := s.onDev (countReadComplete n.val reply)
/-- SCAN_ARRAY_READ_COMPLETE (R62). The array has 256 counts. -/
def execScanArrayReadComplete (reply : Reply (List (BitVec 32))) (s : State) : Host.Outcome State Fault Refusal :=
  s.onDevIf (reply.sized 256) (scanReadComplete reply)
/-- FETCH_RESUME (R68). -/
def execFetchResume (s : State) : Host.Outcome State Fault Refusal := s.onDev fetchResume
/-- JOB_START (R64). -/
def execJobStart (job : Nat) (s : State) : Host.Outcome State Fault Refusal := s.onDev (jobStart job)
/-- NOP (R66). -/
def execNopJob (job : Nat) (s : State) : Host.Outcome State Fault Refusal := s.onDev (nopJob job)
/-- JOB_COMPLETION (R72). -/
def execJobCompletion (job : Nat) (s : State) : Host.Outcome State Fault Refusal := s.onDev (jobCompletion job)
/-- CQ_FULL_RECHECK (R74). -/
def execCqFullRecheck (m : Fin 256) (s : State) : Host.Outcome State Fault Refusal := s.onDev (cqFullRecheck m.val)
/-- CQ_CI_READ_COMPLETE (R74). -/
def execCqCiReadComplete (m : Fin 256) (reply : Reply (BitVec 32)) (s : State) : Host.Outcome State Fault Refusal :=
  s.onDev (cqCiReadComplete m.val reply)

end Sys2Proof.Machine
end

