-- ==== Sys2Proof/Machine/Matrix.lean ====
section
/-! DEFINITION. The matrix engines (R236–R249): the checks of their descriptors, the start of a job, its instances and its
end. -/

namespace Sys2Proof.Machine

/-- MXE[m] as a function. -/
def mxeFn (m : Nat) : Fn := .mxe (Fin.ofNat 4 m)

/-- R239: the fields of a matrix descriptor. -/
def Job.mxEngine (j : Job) : Nat := j.bits 32 0 3
def Job.mxD (j : Job) (k : Nat) : Nat := j.bits (33 + k) 0 6
def Job.mxConjA (j : Job) : Bool := j.bits 36 0 1 == 1
def Job.mxConjB (j : Job) : Bool := j.bits 36 1 1 == 1
def Job.mxUpper (j : Job) : Bool := j.bits 36 2 1 == 1
def Job.mxLdl (j : Job) : Bool := j.bits 36 3 1 == 1
def Job.mxDiag (j : Job) : Bool := j.bits 36 4 1 == 1
def Job.mxShift (j : Job) : Nat := j.bytes 37 1
def Job.mxAExp (j : Job) : Int := int8 (j.bytes 38 1)
def Job.mxBExp (j : Job) : Int := int8 (j.bytes 39 1)
def Job.mxCount (j : Job) : Nat := j.bits 40 0 21
def Job.mxGroup (j : Job) : Nat := j.bytes 44 2
def Job.mxLambdaExp (j : Job) : Int := int8 (j.bytes 46 1)
def Job.mxParam (j : Job) : Nat := j.bits 48 0 56
def Job.mxLambda (j : Job) : Nat := j.bits 56 0 18

/-- R238, R239: the flags an opcode has, as bits of byte 36. -/
def mxFlags (op : Nat) : Nat := [0b00011, 0b10000, 0b00001, 0b01000, 0b01110, 0b01010].getD (op - 0x10) 0

/-- R238: the D fields an opcode requires to be 0. -/
def mxZeroD (op : Nat) : List Nat := [[], [0], [1], [0, 2], [2], [2]].getD (op - 0x10) []

/-- R238: does the opcode take a shift? -/
def mxShifted (op : Nat) : Bool := decide (op ≤ 0x12)

/-- R242: a reserved field is not zero. -/
def Job.mxReserved (j : Job) : Bool :=
  j.bits 32 3 5 != 0 || j.bits 33 6 2 != 0 || j.bits 34 6 2 != 0 || j.bits 35 6 2 != 0 || j.bits 36 5 3 != 0 ||
    j.bits 40 21 11 != 0 || j.bytes 47 1 != 0 || j.bits 48 56 8 != 0 || j.bits 56 18 6 != 0 || j.bytes 59 5 != 0

/-- R242: the flags or the shift are not the opcode's. -/
def Job.mxBadForm (j : Job) : Bool :=
  (mxZeroD j.opcode).any (fun k => j.mxD k != 0) || (upFrom 0 5).any (fun k => j.bits 36 k 1 == 1 && !bitOf (mxFlags j.opcode) k)
    || (decide (31 < j.mxShift) && decide (j.mxShift < 0xFF)) || (!mxShifted j.opcode && j.mxShift != 0xFF)
    || (j.opcode != 0x12 && j.mxGroup != 0)

/-- R239: the engine a descriptor leads to. -/
def Dev.mxeOf (d : Dev) (j : Job) : Option Nat :=
  if j.mxEngine < 4 then (if d.running (mxeFn j.mxEngine) then some j.mxEngine else none)
  else if j.mxEngine = 4 then d.leastQueued 0x10 0x30 4 mxeFn
  else none

/-- Check 5 of R65 for matrix jobs (R242). -/
def Dev.mxeCheck (d : Dev) (j : Job) : Option Nat :=
  firstFail [
    failIf (j.mxReserved || j.mxBadForm || (d.mxeOf j).isNone || j.mxParam % 8 != 0) stCONFIG,
    failIf (j.mxCount == 0 || decide (1048576 < j.mxCount) || (j.opcode == 0x12 && j.mxGroup == 0)) stLENGTH]

/-- R240: word k of the parameter block. -/
def Job.mxWord (j : Job) (k : Nat) : Nat := byteViewOf (j.params.getD k 0)
def Job.mxAddr (j : Job) (k : Nat) : Nat := bitsOf (j.mxWord k) 0 56
def Job.mxStride (j : Job) (k : Nat) : Nat := bitsOf (j.mxWord 3) (20 * k) 20
def Job.mxAStep (j : Job) : Nat := bitsOf (j.mxWord 4) 0 32
def Job.mxBStep (j : Job) : Nat := bitsOf (j.mxWord 4) 32 32
def Job.mxCStep (j : Job) : Nat := bitsOf (j.mxWord 5) 0 32
def Job.mxRec (j : Job) : Nat := j.mxAddr 6
def Job.mxErec (j : Job) : Nat := j.mxAddr 7

/-- R238: the shapes as stored of A, of B (of one group for MX_COMBINE) if the opcode has it, and of C. -/
def Job.mxShapes (j : Job) : (Nat × Nat) × Option (Nat × Nat) × (Nat × Nat) :=
  let d0 := j.mxD 0 + 1
  let d1 := j.mxD 1 + 1
  let d2 := j.mxD 2 + 1
  let turn (c : Bool) (x : Nat × Nat) : Nat × Nat := if c then (x.2, x.1) else x
  if j.opcode = 0x10 then (turn j.mxConjA (d0, d2), some (turn j.mxConjB (d2, d1)), (d0, d1))
  else if j.opcode = 0x11 then ((d2, d1), none, (d1, d1))
  else if j.opcode = 0x12 then (turn j.mxConjA (d0, d2), some (d2, j.mxGroup), (d0, j.mxGroup))
  else if j.opcode = 0x13 then ((d1, d1), none, (d1, d1))
  else ((d0, d0), some (turn j.mxConjB (d0, d1)), (d0, d1))

/-- The words of an instance's part of a matrix: its base, the first column in it, its shape and row stride. -/
def partWords (a c : Nat) (shape : Nat × Nat) (stride : Nat) : List Nat :=
  gridWords (a + 8 * (c / 2)) shape.1 ((c + shape.2 + 1) / 2 - c / 2) stride

/-- The first column of instance i in B and C: 0 but for MX_COMBINE (R241). -/
def Job.mxColumn (j : Job) (i : Nat) : Nat := if j.opcode = 0x12 then i * j.mxGroup else 0

/-- The words of A, B and C of instance i (R240, R241). -/
def Job.mxA (j : Job) (i : Nat) : List Nat := partWords (j.mxAddr 0 + 8 * i * j.mxAStep) 0 j.mxShapes.1 (j.mxStride 0)
def Job.mxB (j : Job) (i : Nat) : List Nat :=
  match j.mxShapes.2.1 with
  | some sh => partWords (j.mxAddr 1 + 8 * i * j.mxBStep) (j.mxColumn i) sh (j.mxStride 1)
  | none => []
def Job.mxC (j : Job) (i : Nat) : List Nat :=
  partWords (j.mxAddr 2 + 8 * i * j.mxCStep) (j.mxColumn i) j.mxShapes.2.2 (j.mxStride 2)

/-- R240, R241: is the parameter block sound: reserved bits zero, fields that must be 0 zero, strides wide enough, every
address reachable? -/
def Dev.mxParamOk (d : Dev) (j : Job) : Bool :=
  let wide (cols stride : Nat) : Bool := decide ((cols + 1) / 2 ≤ stride)
  let all := j.mxCount * j.mxGroup
  let (a, b, c) := j.mxShapes
  let combine := j.opcode == 0x12
  [0, 1, 2, 6, 7].all (fun k => j.mxWord k / 2 ^ 56 == 0) && j.mxWord 3 / 2 ^ 60 == 0 && j.mxWord 5 / 2 ^ 32 == 0 &&
    (b.isSome || j.mxAddr 1 == 0) && (!combine || (j.mxBStep == 0 && j.mxCStep == 0)) &&
    wide a.2 (j.mxStride 0) && (match b with | some sh => wide (if combine then all else sh.2) (j.mxStride 1) | none => true) &&
    wide (if combine then all else c.2) (j.mxStride 2) &&
    (upFrom 0 j.mxCount).all (fun i => (j.mxA i ++ j.mxB i ++ j.mxC i).all (fun x => d.engineRun x 1)) &&
    d.engineRun j.mxRec j.mxCount && (j.mxErec == 0 || d.engineRun j.mxErec j.mxCount)

/-- The request a matrix job makes (R406). -/
def Dev.mxeReq (d : Dev) (j : Job) : Req :=
  { world := j.world, ep := mxeEndpoint j.unit, func := some (d.jobFunc j), reader := 4, own := false, win := 0 }

/-- The attention of an engine's job by its status (R261, R262). -/
def Dev.engineAttn (d : Dev) (poison numeric : Fld) (ev st : Nat) : Dev :=
  if st = stUNCORR ∨ st = stPOISONED then d.attend poison ev
  else if st = stNUMERIC then d.attend numeric ev else d

/-- R248, R249: the end of a matrix job. -/
def Dev.mxeEnd (d : Dev) (j : Job) (st result : Nat) : Dev :=
  let m := j.unit
  let d := d.bump (Reg.MXE_JOBS m)
  let d := d.engineAttn (Reg.MXE_ATTN_POISON m) (Reg.MXE_ATTN_NUMERIC m) (0x5C0 + m) st
  d.endJob j st (result + m * 2 ^ 112)

/-- R237, R242, R247: MXE[m] begins its next job: it reads the parameter block; a block that is lost, refused or unsound
ends the job with nothing written. -/
def mxeJobBegin (m : Nat) (d : Dev) : Dev :=
  match d.nextJob 0x10 0x30 m 13 (mxeFn m) with
  | none => d
  | some j =>
    if !d.engineRun j.mxParam 8 then d.mxeEnd j stCONFIG 0
    else
      let (io, ws) := (Io.start d j []).readAll (d.mxeReq j) (gridWords j.mxParam 1 8 0)
      let d := io.done
      let j := { j with params := ws }
      match io.stop, io.lost with
      | some st, _ => d.mxeEnd j st 0
      | none, some st => d.mxeEnd j st 0
      | none, none => if d.mxParamOk j then d.setJob { j with phase := .running } else d.mxeEnd j stCONFIG 0

/-- What an instance's arithmetic gives: status, C if it is written, its exponent, the shift, SAT and FAIL_COL (R246). -/
structure MxResult where
  status : Nat
  c : Option Mat
  exp : Int
  shift : Nat
  sat : Bool
  col : Nat
  deriving DecidableEq, Repr

/-- R243: the outcome of a scaled product at the sum of the operands' exponents. -/
def mxScaled (shift : Nat) (exps : Int) (m : Mat) : MxResult :=
  let s := pickShift shift m
  let e := exps + s - 17
  let (c, lim) := extractMat m s
  let sat := lim && shift != 0xFF
  if expFits e then { status := stOK, c := some c, exp := e, shift := s, sat := sat, col := 0 }
  else { status := stNUMERIC, c := none, exp := 0, shift := s, sat := false, col := 0 }

/-- R245: the outcome of a factorisation or solve. -/
def mxSolved (r : Solved) : MxResult :=
  match r with
  | .failed k => { status := stNUMERIC, c := none, exp := 0, shift := 0, sat := false, col := k }
  | .noExp => { status := stNUMERIC, c := none, exp := 0, shift := 0, sat := false, col := 0 }
  | .ok c e => { status := stOK, c := some c, exp := e, shift := 0, sat := false, col := 0 }

/-- R244: λ at the weight of the accumulators, or none where the shift is above 29. -/
def mxLoading (lambda : Nat) (t : Int) : Option Int :=
  if 29 < t then none
  else if 0 ≤ t then some ((lambda : Int) * (2 ^ t.toNat : Nat))
  else some (roundShift lambda (-t).toNat)

/-- A number added to each diagonal element. -/
def addDiagonal (m : Mat) (x : Int) : Mat :=
  m.zipIdx.map (fun r => r.1.zipIdx.map (fun y => if y.2 = r.2 then ⟨y.1.re + x, y.1.im⟩ else y.1))

/-- R238, R243–R245: an instance of a job on its matrices. -/
def Job.mxCompute (j : Job) (a b : Mat) (aExp : Int) : MxResult :=
  let (sa, sb, _) := j.mxShapes
  let opA := if j.mxConjA then hermitian a sa.2 else a
  let opB := if j.mxConjB then hermitian b (sb.getD (0, 0)).2 else b
  let n1 := j.mxD 1 + 1
  if j.opcode = 0x10 then mxScaled j.mxShift (aExp + j.mxBExp) (matMul opA opB n1)
  else if j.opcode = 0x11 then
    let g := matMul (hermitian a n1) a n1
    if j.mxDiag then
      match mxLoading j.mxLambda (j.mxLambdaExp - 2 * aExp + 17) with
      | none => { status := stNUMERIC, c := none, exp := 0, shift := 0, sat := false, col := 0 }
      | some x => mxScaled j.mxShift (2 * aExp) (addDiagonal g x)
    else mxScaled j.mxShift (2 * aExp) g
  else if j.opcode = 0x12 then mxScaled j.mxShift (aExp + j.mxBExp) (matMul opA b j.mxGroup)
  else if j.opcode = 0x13 then mxSolved (solveChol j.mxLdl a n1 aExp)
  else if j.opcode = 0x14 then mxSolved (solveTrsm j.mxLdl j.mxUpper a opB (j.mxD 0 + 1) aExp j.mxBExp)
  else mxSolved (solvePosv j.mxLdl a opB (j.mxD 0 + 1) aExp j.mxBExp)

/-- R246: an instance record. -/
def mxRecord (op status : Nat) (exp : Int) (shift : Nat) (sat : Bool) (col : Nat) : Word :=
  BitVec.ofNat 72 (status + wrapTo 8 exp * 2 ^ 8 + shift % 32 * 2 ^ 16 + b2n sat * 2 ^ 23 + op * 2 ^ 24 + col % 64 * 2 ^ 32)

/-- The progress of a matrix job (R249). -/
structure MxRun where
  io : Io
  instances : Nat
  numeric : Nat
  poison : Nat
  exps : List Int
  deriving DecidableEq, Repr

/-- A matrix from its words, the first column at sample c of its first word. -/
def partOf (ws : List Word) (c : Nat) (shape : Nat × Nat) : Mat :=
  let w := (c + shape.2 + 1) / 2 - c / 2
  (upFrom 0 shape.1).map (fun r => (rowOfWords ((ws.drop (r * w)).take w) (c % 2 + shape.2)).drop (c % 2))

/-- One row of C written from column c of its matrix on: whole words, and a half word where a neighbouring group holds the
other half. `last` says that the row ends its matrix row, whose unused half is written as zero (R194, R241). -/
def Io.writeRow (s : Io) (q : Req) (as : List Nat) (c : Nat) (last : Bool) (row : List Cx) (poison : Bool) : Io :=
  let padded := if c % 2 = 0 then row else Cx.zero :: row
  let n := padded.length
  ((wordsOfRow padded).zip as).zipIdx.foldl (fun s x =>
    let lo := if x.2 = 0 ∧ c % 2 = 1 then 0b1100 else 0b1111
    let hi := if 2 * x.2 + 1 = n ∧ !last then 0b0011 else 0b1111
    s.writeSamples q x.1.2 x.1.1 (lo &&& hi) poison) s

/-- C of instance i written: the mantissas, or zeros, or poison. -/
def MxRun.writeC (r : MxRun) (q : Req) (j : Job) (i : Nat) (c : Option Mat) (poison : Bool) : MxRun :=
  let sh := j.mxShapes.2.2
  let col := j.mxColumn i
  let w := (col + sh.2 + 1) / 2 - col / 2
  let zero := (upFrom 0 sh.2).map (fun _ => Cx.zero)
  let last := j.opcode != 0x12 || i + 1 == j.mxCount
  let io := (upFrom 0 sh.1).foldl (fun s k =>
    s.writeRow q (((j.mxC i).drop (k * w)).take w) col last (match c with | some m => m.getD k zero | none => zero) poison) r.io
  { r with io := io }

/-- The record of instance i written after its C (R246, R247). -/
def MxRun.record (r : MxRun) (q : Req) (j : Job) (i : Nat) (w : Word) : MxRun :=
  let (io, ok) := r.io.write q (j.mxRec + 8 * i) w false
  { r with io := io, instances := r.instances + b2n ok }

/-- One instance (R247, R248). -/
def MxRun.instance_ (q : Req) (j : Job) (r : MxRun) (i : Nat) : MxRun :=
  let erec := if j.mxErec = 0 then [] else [j.mxErec + 8 * i]
  let old := r.io
  let io := old.fresh.checkWorld q (j.mxA i ++ j.mxB i ++ erec) (j.mxC i ++ [j.mxRec + 8 * i])
  let (io, es) := io.readAll q erec
  let e := (es.headD 0).toNat
  let failed := io.lost.isNone && e % 256 != 0
  let (io, aw) := if failed then (io, []) else io.readAll q (j.mxA i)
  let (io, bw) := if failed then (io, []) else io.readAll q (j.mxB i)
  let bad := if failed then some stPOISONED else io.lost
  let r := { r with io := io.joinMarks { old with poison := old.poison || failed } }
  if r.io.stop.isSome then r
  else match bad with
    | some st =>
      let r := (r.writeC q j i none true).record q j i (mxRecord j.opcode st 0 0 false 0)
      { r with poison := r.poison + 1 }
    | none =>
      let (sa, sb, _) := j.mxShapes
      let aExp := if j.mxErec = 0 then j.mxAExp else int8 (e / 256)
      let res := j.mxCompute (partOf aw 0 sa) (partOf bw (j.mxColumn i) (sb.getD (0, 0))) aExp
      let r := (r.writeC q j i res.c false).record q j i (mxRecord j.opcode res.status res.exp res.shift res.sat res.col)
      { r with numeric := r.numeric + b2n (res.status == stNUMERIC),
               exps := if res.status = stOK then r.exps ++ [res.exp] else r.exps }

/-- R250: the most compute steps of a job. -/
def Job.mxSteps (j : Job) : Nat :=
  let up (a b : Nat) : Nat := (a + b - 1) / b
  let d0 := j.mxD 0 + 1
  let d1 := j.mxD 1 + 1
  let d2 := j.mxD 2 + 1
  let mat (m n k : Nat) : Nat := up j.mxCount (if m ≤ 32 ∧ n ≤ 32 then (32 / m) * (32 / n) else 1) * up m 32 * up n 32 * k
  let chol (n : Nat) : Nat := up (j.mxCount * n * (n + 1) * (n + 2)) 1536 + 24 * n
  let trsm (n r : Nat) : Nat := up (j.mxCount * n * (n + 1) * r) 512 + 16 * n
  if j.opcode = 0x10 then mat d0 d1 d2
  else if j.opcode = 0x11 then mat d1 d1 d2
  else if j.opcode = 0x12 then up (d0 * d2) 64 + j.mxCount * max (j.mxGroup * up (d0 * d2) 512) (up (d0 * d2) 64)
  else if j.opcode = 0x13 then chol d1
  else if j.opcode = 0x14 then trsm d0 d1
  else chol d0 + 2 * trsm d0 d1

/-- A matrix job of an opcode runs (R247–R249). -/
def mxJob (op id : Nat) (d : Dev) : Dev :=
  match d.executing id op with
  | none => d
  | some j =>
    let m := j.unit
    let r := (upFrom 0 j.mxCount).foldl (MxRun.instance_ (d.mxeReq j) j)
      { io := Io.start d j [], instances := 0, numeric := 0, poison := 0, exps := [] }
    let st := r.io.status (if r.numeric = 0 then stOK else stNUMERIC)
    let (steps, d) := r.io.done.drawUpTo j.mxSteps
    let d := ((d.add (Reg.MXE_STEPS m) steps).add (Reg.MXE_INSTANCES m) r.instances).add (Reg.MXE_NUMERIC m) r.numeric
    d.mxeEnd j st (r.instances + r.numeric * 2 ^ 32 + r.poison * 2 ^ 64 + wrapTo 8 (expMin r.exps) * 2 ^ 96 +
      wrapTo 8 (expMax r.exps) * 2 ^ 104)

/-- MXE_JOB_BEGIN (R247). -/
def execMxeJobBegin (m : Fin 4) (s : State) : Host.Outcome State Fault Refusal := s.onDev (mxeJobBegin m.val)
/-- MX_MATMUL (R238). -/
def execMxMatmul (job : Nat) (s : State) : Host.Outcome State Fault Refusal := s.onDev (mxJob 0x10 job)
/-- MX_GRAM (R244). -/
def execMxGram (job : Nat) (s : State) : Host.Outcome State Fault Refusal := s.onDev (mxJob 0x11 job)
/-- MX_COMBINE (R241). -/
def execMxCombine (job : Nat) (s : State) : Host.Outcome State Fault Refusal := s.onDev (mxJob 0x12 job)
/-- MX_CHOL (R245). -/
def execMxChol (job : Nat) (s : State) : Host.Outcome State Fault Refusal := s.onDev (mxJob 0x13 job)
/-- MX_TRSM (R245). -/
def execMxTrsm (job : Nat) (s : State) : Host.Outcome State Fault Refusal := s.onDev (mxJob 0x14 job)
/-- MX_POSV (R245). -/
def execMxPosv (job : Nat) (s : State) : Host.Outcome State Fault Refusal := s.onDev (mxJob 0x15 job)

end Sys2Proof.Machine
end

