-- ==== Sys2Proof/Machine/Transform.lean ====
section
/-! DEFINITION. The transform units (R252–R260): the checks of their descriptors, the start of a job, its symbols or blocks
and its end. The intermediate arithmetic of a transform is not in the manual (R257 gives its formats and not its order),
so the samples of a transform of an input other than zero, the exponent an automatic row takes and the number of samples
limited are free values within the limits of R257. -/

namespace Sys2Proof.Machine

/-- XFM[u] as a function. -/
def xfmFn (u : Nat) : Fn := .xfm (Fin.ofNat 32 u)

/-- R254: the fields of a transform descriptor. -/
def Job.xfUnit (j : Job) : Nat := j.bits 32 0 6
def Job.xfSize (j : Job) : Nat := j.bits 33 0 3
def Job.xfInverse (j : Job) : Bool := j.bits 33 3 1 == 1
def Job.xfDcSkip (j : Job) : Bool := j.bits 33 4 1 == 1
def Job.xfHalf (j : Job) : Bool := j.bits 33 5 1 == 1
def Job.xfFixed (j : Job) : Bool := j.bits 33 6 1 == 1
def Job.xfShift (j : Job) : Nat := j.bits 34 0 5
def Job.xfTimeExp (j : Job) : Int := int8 (j.bytes 35 1)
def Job.xfNsc (j : Job) : Nat := j.bits 36 0 13
def Job.xfCp (j : Job) : Nat := j.bits 38 0 12
def Job.xfCpFirst (j : Job) : Nat := j.bits 40 0 12
def Job.xfCount (j : Job) : Nat := j.bytes 42 2
def Job.xfStride (j : Job) : Nat := j.bits 44 0 20
def Job.xfSrc (j : Job) : Nat := j.bits 48 0 56
def Job.xfDst (j : Job) : Nat := j.bits 56 0 56

/-- R253: N of a size code; 0 where the code is not defined. -/
def Job.xfN (j : Job) : Nat :=
  if j.opcode = 0x30 then [128, 256, 512, 1024, 2048, 4096, 1536, 3072].getD j.xfSize 0
  else [139, 571, 839, 1151].getD j.xfSize 0

/-- R254: the mapped subcarriers M. -/
def Job.xfM (j : Job) : Nat := if j.opcode = 0x31 ∨ j.xfNsc = 0 then j.xfN else j.xfNsc

/-- The prefix of symbol k (R255). -/
def Job.xfPrefix (j : Job) (k : Nat) : Nat := if j.opcode = 0x31 then 0 else if k = 0 then j.xfCpFirst else j.xfCp

/-- R255: the first word and the words of symbol k on the time side, from its base, prefix included. -/
def Job.xfTime (j : Job) (k : Nat) : Nat × Nat :=
  if j.opcode = 0x31 then ((j.xfN + 1) / 2 * k, (j.xfN + 1) / 2)
  else (if k = 0 then 0 else (j.xfCpFirst + j.xfN + (k - 1) * (j.xfCp + j.xfN)) / 2, (j.xfPrefix k + j.xfN) / 2)

/-- R254: the bases of the time side and of the frequency side. -/
def Job.xfTimeBase (j : Job) : Nat := if j.xfInverse then j.xfDst else j.xfSrc
def Job.xfFreqBase (j : Job) : Nat := if j.xfInverse then j.xfSrc else j.xfDst

/-- R255: the words of a row: its header and its samples. -/
def Job.xfRowWords (j : Job) : Nat := 1 + (j.xfM + 1) / 2

/-- R254: the unit a descriptor leads to. -/
def Dev.xfmOf (d : Dev) (j : Job) : Option Nat :=
  if j.xfUnit < 32 then (if d.running (xfmFn j.xfUnit) then some j.xfUnit else none)
  else if j.xfUnit = 32 then d.leastQueued 0x30 0x40 32 xfmFn
  else none

/-- R258: a field is out of range or must be zero and is not. -/
def Job.xfBadForm (j : Job) : Bool :=
  let n := j.xfN
  let cp (c : Nat) : Bool := c % 2 == 1 || decide (n / 2 < c)
  j.bits 32 6 2 != 0 || j.bits 33 7 1 != 0 || j.bits 34 5 3 != 0 || j.bits 36 13 3 != 0 || j.bits 38 12 4 != 0 ||
    j.bits 40 12 4 != 0 || j.bits 44 20 12 != 0 || j.bits 48 56 8 != 0 || j.bits 56 56 8 != 0 || n == 0 ||
    j.xfNsc % 2 == 1 || decide (n < j.xfM) || (j.xfDcSkip && decide (n < j.xfM + 2)) || cp j.xfCp || cp j.xfCpFirst ||
    (if j.xfFixed then j.xfInverse || decide (13 < j.xfShift) else j.xfShift != 0) || decide (j.xfStride < j.xfRowWords) ||
    (j.opcode == 0x31 && (j.xfNsc != 0 || j.xfCp != 0 || j.xfCpFirst != 0 || j.xfDcSkip || j.xfHalf))

/-- R258: do both sides keep the address conditions of R241? -/
def Dev.xfPlaced (d : Dev) (j : Job) : Bool :=
  let last := j.xfTime (j.xfCount - 1)
  d.engineRun j.xfTimeBase (if j.xfCount = 0 then 0 else last.1 + last.2) &&
    (j.xfFreqBase % 8 == 0 && (upFrom 0 j.xfCount).all (fun k => d.engineRun (j.xfFreqBase + 8 * j.xfStride * k) j.xfRowWords))

/-- Check 5 of R65 for transform jobs (R258). -/
def Dev.xfCheck (d : Dev) (j : Job) : Option Nat :=
  firstFail [failIf (j.xfBadForm || (d.xfmOf j).isNone || !d.xfPlaced j) stCONFIG, failIf (j.xfCount == 0) stLENGTH]

/-- R252: XFM[u] begins its next queued job. -/
def xfmJobBegin (u : Nat) (d : Dev) : Dev :=
  match d.nextJob 0x30 0x40 u 14 (xfmFn u) with
  | none => d
  | some j => d.setJob { j with phase := .running }

/-- The request a transform job makes (R406). -/
def Dev.xfReq (d : Dev) (j : Job) : Req :=
  { world := j.world, ep := xfmEndpoint (j.unit / 4), func := some (d.jobFunc j), reader := 4, own := false, win := 0 }

/-- What a transform's open arithmetic depends on: its form and its input. -/
def Job.xfKey (j : Job) (e : Int) (xs : List Cx) : List Nat :=
  [j.opcode, j.xfN, j.xfM, j.bits 33 3 4, j.xfShift, wrapTo 8 e, wrapTo 8 j.xfTimeExp] ++
    (xs.map (fun x => [wrapTo 18 x.re, wrapTo 18 x.im])).flatten

/-- n free samples of a transform, from place k on; all zero for a zero input (R256). -/
def freeSamples (key : List Nat) (zero : Bool) (k n : Nat) : List Cx :=
  (upFrom k n).map (fun i =>
    if zero then Cx.zero
    else ⟨signed (Config.freeFun 6 (key ++ [i, 0])) 18, signed (Config.freeFun 6 (key ++ [i, 1])) 18⟩)

/-- Is every sample of an input zero? -/
def allZero (xs : List Cx) : Bool := xs.all (fun x => x == Cx.zero)

/-- R257: the number of samples limited among n, open for an input other than zero. -/
def limitedOf (key : List Nat) (zero : Bool) (n : Nat) : Nat := if zero then 0 else Config.freeFun 7 key % (n + 1)

/-- A forward row: its header, its samples, its exponent if it is not zeroed, and the samples limited (R255, R257). -/
def Job.xfForward (j : Job) (xs : List Cx) : List Word × Option Int × Nat :=
  let key := j.xfKey 0 xs
  let zero := allZero xs
  let e := if j.xfFixed then j.xfTimeExp + (j.xfShift : Int)
           else j.xfTimeExp - 2 + (if zero then 0 else ((Config.freeFun 8 key % 16 : Nat) : Int))
  let sat := if j.xfFixed then limitedOf key zero (2 * j.xfM) else 0
  if expFits e then
    (BitVec.ofNat 72 (wrapTo 8 e + 256 * b2n (sat != 0)) :: wordsOfRow (freeSamples key zero 0 j.xfM), some e, sat)
  else ((upFrom 0 j.xfRowWords).map (fun _ => 0), none, 2 * j.xfM)

/-- An inverse symbol from its row: its words, prefix first, and the samples limited (R256, R257). -/
def Job.xfBackward (j : Job) (k : Nat) (e : Int) (xs : List Cx) : List Word × Nat :=
  let key := j.xfKey e xs
  let zero := allZero xs
  let body := freeSamples key zero 0 j.xfN
  let cp := j.xfPrefix k
  let pre := if j.xfHalf then freeSamples key zero j.xfN cp else body.drop (j.xfN - cp)
  (wordsOfRow (pre ++ body), limitedOf key zero (2 * (j.xfN + cp)))

/-- The progress of a transform job (R259). -/
structure XfRun where
  io : Io
  symbols : Nat
  sat : Nat
  poison : Nat
  exps : List Int
  deriving DecidableEq, Repr

/-- One symbol or block (R255–R259). -/
def XfRun.symbol (q : Req) (j : Job) (r : XfRun) (k : Nat) : XfRun :=
  let (t, n) := j.xfTime k
  let time := gridWords (j.xfTimeBase + 8 * t) 1 n 0
  let row := gridWords (j.xfFreqBase + 8 * j.xfStride * k) 1 j.xfRowWords 0
  let ins := if j.xfInverse then row else time.drop (j.xfPrefix k / 2)
  let outs := if j.xfInverse then time else row
  let old := r.io
  let (io, ws) := (old.fresh.checkWorld q ins outs).readAll q ins
  let bad := io.lost
  let r := { r with io := io.joinMarks old }
  if r.io.stop.isSome then r
  else
    match bad with
    | some _ =>
      let io := r.io.writeAll q (outs.map (fun a => (a, 0))) true
      { r with io := io, symbols := r.symbols + b2n io.stop.isNone, poison := r.poison + b2n io.stop.isNone }
    | none =>
      let (vs, e, sat) :=
        if j.xfInverse then
          let (vs, sat) := j.xfBackward k (int8 ((ws.headD 0).toNat)) (rowOfWords (ws.drop 1) j.xfM)
          (vs, some j.xfTimeExp, sat)
        else j.xfForward (rowOfWords ws j.xfN)
      let io := r.io.writeAll q (outs.zip vs) false
      let done := b2n io.stop.isNone
      { r with io := io, symbols := r.symbols + done, sat := r.sat + sat * done,
               exps := if io.stop.isSome then r.exps else r.exps ++ e.toList }

/-- R260: the steps S of a job. -/
def Job.xfSteps (j : Job) : Nat :=
  if j.opcode = 0x30 then j.xfCount * j.xfN + j.xfCpFirst + (j.xfCount - 1) * j.xfCp
  else j.xfCount * (2 * [512, 2048, 2048, 4096].getD j.xfSize 0 + j.xfN)

/-- A transform job of an opcode runs (R259). -/
def xfJob (op id : Nat) (d : Dev) : Dev :=
  match d.executing id op with
  | none => d
  | some j =>
    let u := j.unit
    let r := (upFrom 0 j.xfCount).foldl (XfRun.symbol (d.xfReq j) j)
      { io := Io.start d j [], symbols := 0, sat := 0, poison := 0, exps := [] }
    let st := r.io.status (if r.sat = 0 then stOK else stNUMERIC)
    let (free, d) := r.io.done.drawUpTo j.xfSteps
    let d := d.add (Reg.XFM_STEPS u) (if r.io.stop.isNone then j.xfSteps else free)
    let d := ((d.add (Reg.XFM_SYMBOLS u) r.symbols).add (Reg.XFM_SAT u) r.sat).bump (Reg.XFM_JOBS u)
    let d := d.engineAttn (Reg.XFM_ATTN_POISON u) (Reg.XFM_ATTN_NUMERIC u) (0x5C4 + u) st
    d.endJob j st (r.symbols + r.sat % 2 ^ 32 * 2 ^ 32 + r.poison % 2 ^ 16 * 2 ^ 64 + wrapTo 8 (expMin r.exps) * 2 ^ 80 +
      wrapTo 8 (expMax r.exps) * 2 ^ 88 + u * 2 ^ 96)

/-- XFM_JOB_BEGIN (R252). -/
def execXfmJobBegin (u : Fin 32) (s : State) : Host.Outcome State Fault Refusal := s.onDev (xfmJobBegin u.val)
/-- XF_FFT (R256). -/
def execXfFft (job : Nat) (s : State) : Host.Outcome State Fault Refusal := s.onDev (xfJob 0x30 job)
/-- XF_DFT (R256). -/
def execXfDft (job : Nat) (s : State) : Host.Outcome State Fault Refusal := s.onDev (xfJob 0x31 job)

end Sys2Proof.Machine
end

