-- ==== Sys2Proof/Machine/Fetch.lean ====
section
/-! DEFINITION. Descriptors as they are fetched: the checks of R65 and admission, the way of a started job to its queue (R68), and the
end of jobs by a cancel or an abort (R76, R77, R227, R228). -/

namespace Sys2Proof.Machine

/-! ### The checks of R65 -/

/-- R66: does an opcode name an operation? -/
def opcodeKnown (op : Nat) : Bool :=
  [0x00, 0x01, 0x10, 0x11, 0x12, 0x13, 0x14, 0x15, 0x30, 0x31, 0x40, 0x41, 0x42, 0x43, 0x44, 0x45, 0x46, 0x47, 0x48, 0x60, 0x61, 0x70,
    0x71, 0x80, 0x81, 0x82, 0x83, 0x84, 0x85, 0xA0, 0xA1, 0xA2, 0xA3, 0xB0, 0xB1, 0xB2].contains op

/-- R64: is a reserved bit of the header not zero? -/
def Job.badHeader (j : Job) : Bool := j.bits 1 4 4 != 0 || j.bits 4 7 1 != 0 || j.bits 5 6 2 != 0 || j.bytes 8 8 != 0

/-- A carrier context as a function. -/
def carFn (c : Nat) : Fn := .car (Fin.ofNat 384 c)

/-- Check 4 of R65 (R53). -/
def Dev.carrierCheck (d : Dev) (j : Job) : Option Nat :=
  let c := j.carrier
  if c = 0xFFFF then none
  else if 384 ≤ c then some stCONFIG
  else if d.jobFunc j ≠ 0 ∧ d.get (Reg.JFE_CAR_CFG_FUNC c) ≠ d.jobFunc j then some stWORLD
  else if d.running (carFn c) then none else some stCONFIG

/-- Checks 1 to 4 of R65. -/
def Dev.headerCheck (d : Dev) (j : Job) : Option Nat :=
  firstFail [
    failIf (!opcodeKnown j.opcode || j.badHeader) stCONFIG,
    failIf (j.world && !d.on (Reg.JFE_SQ_CFG_SECURE j.sq)) stWORLD,
    failIf (d.jobFunc j != 0 && j.desk != d.jobFunc j) stWORLD,
    d.carrierCheck j]

/-- R76: TARGET_SQ of a CANCEL. -/
def Job.targetSq (j : Job) : Nat := j.bytes 34 1

/-- Check 5 for a CANCEL (R76). -/
def Dev.cancelCheck (d : Dev) (j : Job) : Option Nat :=
  firstFail [failIf (j.bits 35 1 7 != 0 || j.bytes 36 28 != 0) stCONFIG, failIf (d.sqFunc j.targetSq != d.jobFunc j) stWORLD]

/-- Check 5 of R65, by the owner of the opcode. -/
def Dev.opCheck (d : Dev) (j : Job) : Option Nat :=
  let op := j.opcode
  if op = 0 then failIf (j.bytes 32 32 != 0) stCONFIG
  else if op = 1 then d.cancelCheck j
  else if op < 0x30 then d.mxeCheck j
  else if op < 0x40 then d.xfCheck j
  else if op < 0x60 then d.codeCheck j
  else if op < 0x70 then d.brxJobCheck j
  else if op = 0x70 then d.commitCheck j
  else if op < 0x80 then d.coefCheck j
  else if op < 0xA0 then d.ciphCheck j
  else if op = 0xA3 then d.txFrameCheck j
  else if op < 0xB0 then d.dmvCheck j
  else d.taskCheck j

/-- Check 6 of R65 (R218, R462). -/
def Dev.throttleCheck (d : Dev) (j : Job) : Option Nat :=
  let least := if 0xB0 ≤ j.opcode then d.get Reg.TSU_THROTTLE_MIN_PRIO else d.get Reg.PWR_THROTTLE_PRIO
  failIf (d.throttled && j.counts && decide (j.priority < least)) 0x0B

/-! ### Admission -/

/-- R100, R239, R254: the unit an admitted job is for. -/
def Dev.unitOf (d : Dev) (j : Job) : Nat :=
  if j.opcode < 0x10 then 0
  else if j.opcode < 0x30 then (d.mxeOf j).getD 0
  else if j.opcode < 0x40 then (d.xfmOf j).getD 0
  else if 0xA0 ≤ j.opcode ∧ j.opcode < 0xB0 then j.dmvChannel
  else 0

/-- R296, R412: a job that passed its checks is admitted: its unit is chosen, a release takes its stamp, and a cipher job its keys. -/
def Dev.admitJob (d : Dev) (j : Job) : Dev :=
  let j := { j with unit := d.unitOf j, time := d.now }
  let d := d.setJob j
  if j.isCipher then d.ciphAdmit j else d

/-- R65: a descriptor of SQ n is checked: a failing job ends at once, another waits for its start. -/
def Dev.takeDescriptor (d : Dev) (n : Nat) (desc : BitVec 512) : Dev :=
  let id := d.jfe.nextJob
  let j : Job := { id := id, sq := n, desc := desc, phase := .held, unit := 4096, seq := 0, status := 0, result := 0, time := 0,
                   targets := [], named := false, verdict := none, uncorr := false, poison := false, params := [] }
  let d := d.onJfe (fun s => { s with nextJob := id + 1 })
  match d.headerCheck j with
  | some st => (d.addJob j).endJob j st 0
  | none =>
    let j := { j with named := j.carrier != 0xFFFF }
    let d := d.addJob j
    match firstFail [d.opCheck j, d.throttleCheck j] with
    | some st => d.endJob j st 0
    | none => d.admitJob j

/-- R55, R59: the JFE writes the consumer count of SQ n to the host. -/
def Dev.writeSqCi (d : Dev) (n : Nat) : Dev :=
  d.send (.write (d.sqFunc n) (d.iova (Reg.JFE_SQ_CI_ADDR n).off 2) (leBytes (d.get (Reg.JFE_SQ_CI n)) 4) false)

/-- R59, R65, R83: the descriptors of SQ n's oldest read arrive. A ring that is not in RUN, or a JFE that an entry to a low state has
stopped (R449), leaves them in host memory. -/
def descriptorReadComplete (n : Nat) (reply : Reply (List (BitVec 512))) (d : Dev) : Dev :=
  match d.jfe.fetches.find? (fun x => x.1 == n) with
  | none => d
  | some (_, c, k) =>
    let d := d.onJfe (fun s => { s with fetches := s.fetches.filter (fun x => x.1 != n) })
    if !d.sqRuns n then d
    else
      match reply with
      | .data vs =>
        if d.power.paused then d
        else
          let d := (d.set (Reg.JFE_SQ_CI n) (c + k)).writeSqCi n
          d.each (upFrom 0 k) (fun d i => d.takeDescriptor n (vs.getD i 0))
      | _ => d.fnFault (.sq (Fin.ofNat 256 n)) 0x05 false

/-! ### Queues (R68) -/

/-- The function whose queue a job enters, the jobs it holds and its limit; none for the blocks whose jobs wait for no room. -/
def Dev.queueOf (d : Dev) (j : Job) : Option (Fn × Nat × Nat) :=
  let all (lo hi : Nat) : Nat :=
    (d.jfe.jobs.filter (fun x => decide (lo ≤ x.opcode) && decide (x.opcode < hi) && (x.phase == .queued || x.phase == .running))).length
  let op := j.opcode
  if op < 0x10 then none
  else if op < 0x30 then some (mxeFn j.unit, (d.atUnit 0x10 0x30 j.unit .queued).length, 64)
  else if op < 0x40 then some (xfmFn j.unit, (d.atUnit 0x30 0x40 j.unit .queued).length, 64)
  else if op < 0x60 then some (.code, all 0x40 0x60, 256)
  else if op < 0x80 then none
  else if op < 0xA0 then some (.ciph, all 0x80 0xA0, 256)
  else if op < 0xB0 then some (.dmv (Fin.ofNat 64 j.unit), (d.atUnit 0xA0 0xB0 j.unit .queued).length, 64)
  else none

/-- R68, R100: does the block take a job that reaches it? -/
def Dev.queueOpen (d : Dev) (j : Job) (fn : Fn) : Bool :=
  d.running fn || (decide (0xA0 ≤ j.opcode) && d.dmvHalted j.unit)

/-- A job enters its queue in the order of entry. -/
def Dev.enqueueJob (d : Dev) (j : Job) : Dev :=
  let n := d.jfe.nextSeq
  (d.onJfe (fun s => { s with nextSeq := n + 1 })).setJob { j with phase := .queued, seq := n }

/-- The end of a job that has an end of its own: a cipher job leaves its engine (R412). -/
def Dev.endAny (d : Dev) (j : Job) (st : Nat) : Dev := if j.isCipher then d.ciphEnd j st 0 else d.endJob j st 0

/-- R68: a started job reaches its queue, the first fetched of those that wait for it first. -/
def jobReachesQueue (id : Nat) (d : Dev) : Dev :=
  match d.job id with
  | none => d
  | some j =>
    if j.phase ≠ .started ∨ j.opcode < 0x10 then d
    else match d.queueOf j with
      | none => d.enqueueJob j
      | some (fn, held, limit) =>
        let before := d.jfe.jobs.any (fun x => x.phase == .started && decide (x.id < j.id) && x.unit == j.unit &&
          (match d.queueOf x with
            | some (fx, _) => fx == fn
            | none => false))
        if before || decide (limit ≤ held) then d
        else if d.queueOpen j fn then d.enqueueJob j
        else d.endAny j stCONFIG

/-! ### Cancels and aborts (R76, R77, R227) -/

/-- R77: a coding job leaves its units (R264). -/
def Dev.codeDrop (d : Dev) (id : Nat) : Dev :=
  let us := (d.code.units.filter (fun u => u.job == id)).map (fun u => u.unit)
  let d := d.onCode (fun c => { c with units := c.units.filter (fun u => u.job != id), runs := c.runs.filter (fun r => r.job != id) })
  d.each us (fun d u => d.clearBit (codeBusy u).1 (codeBusy u).2)

/-- R77, R227, R228: the task of a TASK_RUN is cancelled; a cancel by the host also decides the status of a run that something else is
aborting. -/
def Dev.stopTask (d : Dev) (n st : Nat) : Dev :=
  let aborting := (d.task n).state == .aborting
  let d := d.cancelTask n st
  if aborting && st == stCANCELLED then d.setTask n { d.task n with abortAs := st } else d

/-- R77: a job in flight ends with a status as a cancel does. A job whose end the JFE has taken keeps its own; one that has ended takes
the status. -/
def Dev.stopJob (d : Dev) (id st : Nat) : Dev :=
  match d.job id with
  | none => d
  | some j =>
    match j.phase with
    | .taken => d
    | .ended => d.setJob { j with status := st }
    | .running =>
      if j.opcode = 0xB0 then d.stopTask j.unit st
      else if 0x40 ≤ j.opcode ∧ j.opcode < 0x60 then (d.codeDrop j.id).endAny j st
      else d.endAny j st
    | _ => d.endAny j st

/-- Every job in flight that passes a test ends with a status. -/
def Dev.stopJobs (d : Dev) (p : Job → Bool) (st : Nat) : Dev :=
  d.each ((d.jfe.jobs.filter p).map (fun j => j.id)) (fun d id => d.stopJob id st)

/-- R76, R77: does a job match a CANCEL? Only jobs fetched before it are in flight when it is processed. -/
def Job.matches (j c : Job) : Bool :=
  j.sq == c.targetSq && j.opcode != 1 && decide (j.id < c.id) && (c.bits 35 0 1 == 1 || j.tag == c.bytes 32 2) &&
    (match j.phase with
      | .taken => false
      | _ => true)

/-- R76: a CANCEL is processed: its targets end CANCELLED, and its own end waits for their records. -/
def cancelJob (id : Nat) (d : Dev) : Dev :=
  match d.job id with
  | none => d
  | some c =>
    if c.phase ≠ .held ∨ c.opcode ≠ 1 then d
    else
      let ts := (d.jfe.jobs.filter (fun j => j.matches c)).map (fun j => j.id)
      let d := d.each ts (fun d t => d.stopJob t stCANCELLED)
      d.endJob { c with targets := ts } stOK (ts.length % 2 ^ 16)

/-- R79: a job leaves flight without a record, and its work ends: a task's entry becomes FREE and its core is forced (R228, R229). -/
def Dev.loseJob (d : Dev) (id : Nat) : Dev :=
  match d.job id with
  | none => d
  | some j =>
    let d := match j.phase with
      | .running =>
        if j.opcode = 0xB0 then
          let t := d.task j.unit
          let d := match t.core with
            | some c => if t.state == TaskState.running || t.state == TaskState.aborting then (d.cxDiscard c).forceEnd c else d
            | none => d
          d.freeTask j.unit
        else if 0x40 ≤ j.opcode ∧ j.opcode < 0x60 then d.codeDrop j.id
        else if j.isCipher then d.ciphLeave j.id else d
      | .ended => d
      | .taken => d
      | _ => if j.isCipher then d.ciphLeave j.id else d
    match d.job id with
    | some j => d.leave j
    | none => d

/-- DESCRIPTOR_READ_COMPLETE (R65). -/
def execDescriptorReadComplete (n : Fin 256) (reply : Reply (List (BitVec 512))) (s : State) : Host.Outcome State Fault Refusal :=
  s.onDev (descriptorReadComplete n.val reply)
/-- JOB_REACHES_QUEUE (R68). -/
def execJobReachesQueue (job : Nat) (s : State) : Host.Outcome State Fault Refusal := s.onDev (jobReachesQueue job)
/-- CANCEL (R76). -/
def execCancelJob (job : Nat) (s : State) : Host.Outcome State Fault Refusal := s.onDev (cancelJob job)

end Sys2Proof.Machine
end

