-- ==== Sys2Proof/Machine/MemCmds.lean ====
section
/-! DEFINITION. The memory system's own commands: the window of PF BAR0 (R98), scrubbing (R126, R127), tracker expiry
(R123), hourly counts and injection (R131), and the end of a soft repair (R125). -/

namespace Sys2Proof.Machine

/-- R98: the internal byte address of window offset o. -/
def Dev.windowAddr (d : Dev) (o : Nat) : Nat := d.get Reg.GLB_MEMWIN_PAGE * 2 ^ 25 + o % 2 ^ 25

/-- R98, R406: the request of a window access. -/
def windowReq : Req := { world := false, ep := 80, func := some 0, reader := 7, own := false, win := 0 }

/-- R90, R97, R98, R119: the four bytes a window access at internal address a reads, zero where it is refused. A lost word
shows its stored data bits. An answer of another device is an operand. -/
def windowRead4 (a : Nat) (ext : Ext) (d : Dev) : Dev × Nat :=
  match d.target a with
  | .mem b =>
    let v := (dataOf (d.raw (b / 8))).toNat
    match d.readWord windowReq b with
    | (d, .data v) => (d, bitsOf v.toNat (8 * (a % 8)) 32)
    | (d, .poison) => (d, bitsOf v (8 * (a % 8)) 32)
    | (d, .uncorrectable) => (d, bitsOf v (8 * (a % 8)) 32)
    | (d, .err _) => (d, 0)
  | .remote _ _ =>
    match ext with
    | .word v => (d, bitsOf v.toNat (8 * (a % 8)) 32)
    | _ => (d, 0)
  | _ => (d, 0)

/-- R49, R98: a host read of the window: 4 or 8 bytes at an aligned offset; any other access reads zero. -/
def windowRead (o size : Nat) (e0 e1 : Ext) (d : Dev) : Dev :=
  if !d.served (.func 0) 0x2000000 then d
  else if o % 4 != 0 || !(size == 4 || size == 8) then d.send (.window o (leBytes 0 size))
  else
    let (d, lo) := windowRead4 (d.windowAddr o) e0 d
    if size == 4 then d.send (.window o (leBytes lo 4))
    else
      let (d, hi) := windowRead4 (d.windowAddr (o + 4)) e1 d
      d.send (.window o (leBytes lo 4 ++ leBytes hi 4))

/-- R85, R86, R98: four bytes written through the window. -/
def windowWrite4 (a v : Nat) (d : Dev) : Dev :=
  match d.target a with
  | .mem b => (d.writeNarrow windowReq b (BitVec.ofNat 72 (v * 256 ^ (a % 8))) true (15 * 2 ^ (a % 8))).1
  | _ => d

/-- R49, R98: a host write of the window. -/
def windowWrite (o size : Nat) (value : BitVec 64) (d : Dev) : Dev :=
  if !d.served (.func 0) 0x2000000 || o % 4 != 0 || !(size == 4 || size == 8) then d
  else
    let d := windowWrite4 (d.windowAddr o) (value.toNat % 2 ^ 32) d
    if size == 4 then d else windowWrite4 (d.windowAddr (o + 4)) (value.toNat / 2 ^ 32) d

/-- The on-chip words in scrub order (R89, R126): the first word of each run of regions, and the count up to its end. -/
def scrubWordAt (k : Nat) : Nat :=
  if k < 3407872 then k
  else if k < 10223616 then 0x10000000 / 8 + (k - 3407872)
  else if k < 15466496 then 0x20000000 / 8 + (k - 10223616)
  else 0x30000000 / 8 + (k - 15466496)

/-- The words of on-chip memory (R89). -/
def onChipWords : Nat := 16777216

/-- R447, R454: is a chest bank (mesa banks 32–39) in RETAIN? -/
def Dev.bankRetained (d : Dev) (b : Nat) : Bool := 32 ≤ b && d.power.retain.getLsbD (b - 32)

/-- R126: does the scrubber pass over a region: out of service, or a chest bank in RETAIN? -/
def Dev.scrubSkips (d : Dev) (r : Region) : Bool :=
  d.outOfService r.ctrl ||
    match r with
    | .mesa b => d.bankRetained b
    | _ => false

/-- The next place at or after k whose region is scrubbed; `n` bounds the regions passed over. -/
def Dev.nextScrub (d : Dev) (k : Nat) : Nat → Nat
  | 0 => onChipWords
  | n + 1 =>
    if onChipWords ≤ k then onChipWords
    else match regionOf (8 * scrubWordAt k) with
      | some r => if d.scrubSkips r then d.nextScrub (k + (r.firstWord + r.words - scrubWordAt k)) n else k
      | none => onChipWords

/-- R127, R119: one word scrubbed. -/
def Dev.scrubWord (d : Dev) (r : Region) (w : Nat) : Dev :=
  match classify (d.raw w) with
  | .clean => d
  | .corrected _ => d.trackCorrection r w true
  | .poison => d.bump (Reg.MEM_CTRL_POISON_SEEN r.ctrl)
  | .uncorrectable => d.detectUncorr r w 5

/-- The memory system's own data replaced. -/
def Dev.onRam (d : Dev) (f : MemState → MemState) : Dev := { d with ram := f d.ram }

/-- R126, R132: the end of an on-chip pass; the next pass runs at the interval set now. -/
def Dev.onChipPass (d : Dev) : Dev :=
  let h := d.get Reg.MEM_SCRUB_CFG_ONCHIP_H
  ((d.bump Reg.MEM_SCRUB_STATUS_ONCHIP_PASSES).onRam (fun m =>
    { m with scrubWord := 0, scrubHours := (h, m.scrubHours.2) })).raiseWorld 0x788 false

/-- R126: the on-chip scrubber reads its next word. -/
def scrubOnChip (d : Dev) : Dev :=
  if d.get Reg.MEM_SCRUB_CFG_ONCHIP_H = 0 then d
  else
    let k := d.nextScrub d.ram.scrubWord 240
    if onChipWords ≤ k then d.onChipPass
    else
      let w := scrubWordAt k
      let d := match regionOf (8 * w) with
        | some r => d.scrubWord r w
        | none => d
      if onChipWords ≤ k + 1 then d.onChipPass else d.onRam (fun m => { m with scrubWord := k + 1 })

/-- The groups of one stack (R93). -/
def hbmGroups : Nat := 80530636

/-- R126, R132: the end of an HBM pass. -/
def Dev.hbmPass (d : Dev) : Dev :=
  let h := d.get Reg.MEM_SCRUB_CFG_HBM_H
  ((d.bump Reg.MEM_SCRUB_STATUS_HBM_PASSES).onRam (fun m =>
    { m with scrubGroup := 0, scrubHours := (m.scrubHours.1, h) })).raiseWorld 0x788 false

/-- R126: the HBM patrol scrubber reads its next group; a stack that is not in service is passed over. -/
def scrubHbm (d : Dev) : Dev :=
  if d.get Reg.MEM_SCRUB_CFG_HBM_H = 0 then d
  else
    let live (s : Nat) : Bool := d.get (Reg.HBM_STACK_STATE s) == 2 && !d.outOfService (195 + s)
    let k := d.ram.scrubGroup
    let k := if k < hbmGroups && !live 0 then hbmGroups else k
    let k := if hbmGroups ≤ k && !live 1 then 2 * hbmGroups else k
    if 2 * hbmGroups ≤ k then d.hbmPass
    else
      let s := k / hbmGroups
      let g := k % hbmGroups
      let d := d.countRead (s, g)
      let d := d.each (upFrom (hbmBase s / 8 + 32 * g) 32) (fun d w => d.scrubWord (.hbm s) w)
      if 2 * hbmGroups ≤ k + 1 then d.hbmPass else d.onRam (fun m => { m with scrubGroup := k + 1 })

/-- R123: 24 hours of short time. -/
def dayUnits : Nat := 86400 * 10 ^ 9 * 2 ^ 16

/-- R123: the entry of word w in the tracker of controller n is freed after 24 h without a correction. -/
def trackerExpiry (n w : Nat) (d : Dev) : Dev :=
  let ts := d.tracker n
  if ts.any (fun t => t.word == w && decide (dayUnits ≤ (d.now - t.time).toNat)) then
    d.setTracker n (ts.filter (fun t => t.word != w))
  else d

/-- R131: an hour ends: each CORR_HOUR takes the count of the hour, held at its field's largest value, and MEM_CORR_HIGH
follows. -/
def corrHourEnd (d : Dev) : Dev :=
  let counts := d.ram.hourCount
  let d := d.each (upFrom 0 197) (fun d n =>
    d.set (Reg.MEM_CTRL_CORR_HOUR n) (min (lookup (fun _ => 0) counts n) 65535))
  (d.onRam (fun m => { m with hourCount := [] })).relevel 0x786

/-- R131: ARM. -/
def injectArm (d : Dev) : Dev := d.set Reg.MEM_INJECT_ARMED 1

/-- R125: the words of the groups that have a burst in the DRAM row of word w of stack s. -/
def dramRowWords (s w : Nat) : List Nat :=
  let o := w - hbmBase s / 8
  let g := o / 32
  let row := (5 * (g / 32) + o % 32 * 80 / 512) / 16
  let hs := (upFrom (16 * row / 5) 5).filter (fun h => decide (16 * row ≤ 5 * h + 4) && decide (5 * h ≤ 16 * row + 15))
  hs.foldr (fun h a =>
    let g' := 32 * h + g % 32
    (if g' < hbmGroups then upFrom (hbmBase s / 8 + 32 * g') 32 else []) ++ a) []

/-- R125, R131: SPARES_LEFT of a stack: the lowest count over its pseudo-channels. -/
def Dev.hbmSpares (d : Dev) (s : Nat) : Nat :=
  minD 255 ((upFrom 0 32).map (fun pc => d.get (Reg.HBM_STACK_PC_REPAIRS_LEFT s pc)))

/-- R96, R125, R132: the first soft repair in progress on a pseudo-channel ends; `left` is the count of resources the
stack then reports. -/
def hbmRepairComplete (s pc left : Nat) (d : Dev) : Dev :=
  match d.ram.repairs.find? (fun x => x.1 == s && x.2.1 == pc) with
  | none => d
  | some x =>
    let d := d.onRam (fun m => { m with repairs := m.repairs.erase x })
    let d := d.each (dramRowWords s x.2.2) Dev.correctInPlace
    let d := (d.bump (Reg.HBM_STACK_REPAIRS s)).set (Reg.HBM_STACK_PC_REPAIRS_LEFT s pc) left
    let d := d.set (Reg.MEM_CTRL_SPARES_LEFT (195 + s)) (d.hbmSpares s)
    (d.attend (Reg.HBM_STACK_ATTN_REPAIR s) 0x789).memEvent 0x782 (d.secureWord (.hbm s) x.2.2)

/-- MEMORY_WINDOW_READ (R98). -/
def execMemoryWindowRead (off : BitVec 25) (size : Nat) (e0 e1 : Ext) (s : State) : Host.Outcome State Fault Refusal :=
  s.onDev (windowRead off.toNat size e0 e1)
/-- MEMORY_WINDOW_WRITE (R98). -/
def execMemoryWindowWrite (off : BitVec 25) (size : Nat) (value : BitVec 64) (s : State) :
    Host.Outcome State Fault Refusal := s.onDev (windowWrite off.toNat size value)
/-- TRACKER_ENTRY_EXPIRY (R123). -/
def execTrackerEntryExpiry (n : Fin 197) (word : Nat) (s : State) : Host.Outcome State Fault Refusal :=
  s.onDev (trackerExpiry n.val word)
/-- SCRUB_READ (R126): of HBM or on chip. -/
def execScrubRead (hbm : Bool) (s : State) : Host.Outcome State Fault Refusal :=
  s.onDev (if hbm then scrubHbm else scrubOnChip)
/-- CORR_HOUR_END (R131). -/
def execCorrHourEnd (s : State) : Host.Outcome State Fault Refusal := s.onDev corrHourEnd
/-- MEM_INJECT_ARM (R131). -/
def execMemInjectArm (who : Accessor) (s : State) : Host.Outcome State Fault Refusal :=
  s.onDev (fun d => d.secureOnly who Reg.MEM_INJECT_ARMED.off injectArm)
/-- HBM_REPAIR_COMPLETE (R125). -/
def execHbmRepairComplete (stack : Fin 2) (pc : Fin 32) (left : BitVec 8) (s : State) :
    Host.Outcome State Fault Refusal := s.onDev (hbmRepairComplete stack.val pc.val left.toNat)

end Sys2Proof.Machine
end

