-- ==== Sys2Proof/Machine/Mesh.lean ====
section
/-! DEFINITION. The mesh of routers (R320–R343): packets entering it, answers, probes, discards. The routing step and the
packets' effects at their destination stand in Noc.lean, after the links. -/

namespace Sys2Proof.Machine

/-- R324: the code of a packet type; bits [5:4] are its network. -/
def typeCode (t : PType) : Nat :=
  match t with
  | .rd => 0x01 | .wr => 0x02 | .wrn => 0x03
  | .rdata => 0x11 | .wack => 0x12 | .sack => 0x13 | .err => 0x14
  | .swr => 0x21
  | .event => 0x31 | .fence => 0x32 | .unfence => 0x33 | .drained => 0x34 | .notice => 0x35 | .power => 0x36 | .epoch => 0x37

/-- R326: the virtual network of a packet. -/
def network (p : Packet) : Nat := typeCode p.type / 16

/-- Is a packet a request (R324)? -/
def isReq (p : Packet) : Bool := network p == 0
/-- Is a packet a posted write? -/
def isPosted (p : Packet) : Bool := p.type == .swr

/-- R323: the destination device of a packet: VALUE[55:54] of requests, posted writes, answers and NOTICE; the device
itself for every other message. -/
def Dev.destDevice (d : Dev) (p : Packet) : Nat :=
  if network p = 3 && p.type != .notice then d.ownId else p.value.toNat / 2 ^ 54 % 4

/-- R323: the status of ERR or NOTICE. -/
def statusOf (p : Packet) : Nat := p.value.toNat % 256

/-- The network's own data replaced. -/
def Dev.onNoc (d : Dev) (f : NocState → NocState) : Dev := { d with noc := f d.noc }

/-- R332: the current epoch at slot e: a slot that has not yet switched still uses the former one. -/
def Dev.epochAt (d : Dev) (e : Nat) : Bool := xor (d.on Reg.NOC_EPOCH_CUR) (d.noc.unswitched.contains e)

/-- R336, R344: NOC_DRAIN[k] follows the packets held in routers. -/
def Dev.recount (d : Dev) : Dev :=
  let n (k : Bool) : Nat := (d.noc.held.filter (fun h => h.pkt.epoch == k)).length
  let d1 := d.set (Reg.NOC_DRAIN_COUNT 0) (n false)
  d1.set (Reg.NOC_DRAIN_COUNT 1) (n true)

/-- R341: does probe p, watching router and port, match a packet? A non-secure probe matches a secure packet by network
and endpoints alone (R343). -/
def Dev.probeMatches (d : Dev) (p : Nat) (k : Packet) (router port : Nat) : Bool :=
  let start := BitVec.ofNat 64 (d.get64 (Reg.NOC_PROBE_START p))
  let stop := BitVec.ofNat 64 (d.get64 (Reg.NOC_PROBE_STOP p))
  let sm := d.get (Reg.NOC_PROBE_FILT_SRC_MASK p)
  let dm := d.get (Reg.NOC_PROBE_FILT_DST_MASK p)
  let lo := d.get64 (Reg.NOC_PROBE_ADDR_MIN p) % 2 ^ 56
  let hi := d.get64 (Reg.NOC_PROBE_ADDR_MAX p) % 2 ^ 56
  let place := d.get (Reg.NOC_PROBE_CFG_ROUTER p) == router && d.get (Reg.NOC_PROBE_CFG_PORT p) == port
  let time := (start == 0 || decide (timeDiff start d.now ≤ 0)) && (stop == 0 || decide (0 ≤ timeDiff stop d.now))
  let ends := (k.srcEp.val ^^^ d.get (Reg.NOC_PROBE_FILT_SRC_EP p)) &&& sm == 0 &&
    (k.dstEp.val ^^^ d.get (Reg.NOC_PROBE_FILT_DST_EP p)) &&& dm == 0
  let net := d.bit (Reg.NOC_PROBE_CFG_VN_MASK p) (network k)
  let sel := d.get (Reg.NOC_PROBE_CFG_WORLD_SEL p)
  let rest := decide (d.get (Reg.NOC_PROBE_CFG_URG_MIN p) ≤ k.urg.val) &&
    (sel == 0 || (sel == 1 && k.world) || (sel == 2 && !k.world)) &&
    (decide (hi < lo) || (decide (lo ≤ k.value.toNat) && decide (k.value.toNat ≤ hi)))
  d.running (.probe (Fin.ofNat 16 p)) && place && time && ends && net &&
    (rest || (k.world && !d.on (Reg.NOC_PROBE_CFG_SECURE p)))

/-- R342: the trace record of a packet, as a number of 32 bytes. -/
def Dev.traceRecord (d : Dev) (k : Packet) (router port : Nat) : Nat :=
  d.now.toNat
    + (network k + b2n k.epoch * 4 + b2n k.world * 8 + k.urg.val * 16) * 256 ^ 8
    + k.srcEp.val * 256 ^ 9 + k.dstEp.val * 256 ^ 10
    + (k.srcLink.val + k.dstLink.val * 4 + k.srcDev.val * 16 + k.len.val * 64) * 256 ^ 11
    + typeCode k.type * 256 ^ 12
    + (if k.type == .err || k.type == .notice then statusOf k else 0) * 256 ^ 13
    + k.tag.val * 256 ^ 14 + k.value.toNat * 256 ^ 16 + router * 256 ^ 23 + port * 256 ^ 24

/-- An attention bit of probe p (R344, R345). -/
def Dev.probeAttn (d : Dev) (p k : Nat) : Dev := d.attend ⟨(Reg.NOC_PROBE_ATTN p).off, k, 1⟩ (0x650 + p)

/-- R342: a trace record that cannot be written. -/
def Dev.traceDrop (d : Dev) (p : Nat) : Dev := (d.bump (Reg.NOC_PROBE_TRACE_DROPS p)).probeAttn p 2

/-- The end of the trace write of probe p: counted, or the probe stops as by STOP_ABORT with FAULT 0x01 when it is answered
with WORLD, LINK or FENCED (R342). -/
def Dev.traceEnd (d : Dev) (p size : Nat) (st : Option Nat) : Dev :=
  match st with
  | some s =>
    if s = stWORLD ∨ s = stLINK ∨ s = stFENCED then d.fnFault (.probe (Fin.ofNat 16 p)) 0x01 true
    else d.bump (Reg.NOC_PROBE_TRACE_PTR p)
  | none =>
    let d := d.bump (Reg.NOC_PROBE_TRACE_PTR p)
    if d.on (Reg.NOC_PROBE_CFG_STOP_FULL p) && d.get (Reg.NOC_PROBE_TRACE_PTR p) == size then d.probeAttn p 1 else d

/-- R342: probe p writes a record into its ring, as four words through the byte view, with its world. -/
def Dev.trace (d : Dev) (p : Nat) (k : Packet) (router port : Nat) : Dev :=
  let size := 2 ^ d.get (Reg.NOC_PROBE_TRACE_LOG2 p)
  let ptr := d.get (Reg.NOC_PROBE_TRACE_PTR p)
  if d.on (Reg.NOC_PROBE_CFG_STOP_FULL p) && decide (size ≤ ptr) then d.traceDrop p
  else
    let base := d.get64 ⟨(Reg.NOC_PROBE_TRACE_BASE p).off, 0, 32⟩ % 2 ^ 56 / 32 * 32
    let a := base + 32 * (ptr % size)
    let r := d.traceRecord k router port
    let q : Req := { world := d.on (Reg.NOC_PROBE_CFG_SECURE p), ep := 2 * router, func := some 0, reader := 4,
                     own := false, win := 0 }
    match d.target a with
    | .mem b =>
      let (d, st) := (upFrom 0 4).foldl (fun (acc : Dev × Ack) i =>
        match acc with
        | (d, some st) => (d, some st)
        | (d, none) => d.writeWord q (b + 8 * i) (BitVec.ofNat 72 (r / 2 ^ (64 * i) % 2 ^ 64))) (d, none)
      d.traceEnd p size st
    | .host iova =>
      if d.jfe.busMaster.getLsbD 0 then (d.send (.write 0 iova (leBytes r 32) false)).traceEnd p size none else d.traceDrop p
    | .remote _ _ => d.traceEnd p size (if q.world then some stWORLD else none)
    | .unmapped => d.traceEnd p size (some stCONFIG)

/-- R341–R343: every probe that watches a point counts a matching packet, its flits and the steps its head waited, and
traces it; a secure packet at a non-secure probe is counted in SEC_UNTRACED and not traced. -/
def Dev.probePoint (d : Dev) (k : Packet) (router port waited : Nat) : Dev :=
  d.each ((upFrom 0 16).filter (fun p => d.probeMatches p k router port)) (fun d p =>
    let d := ((d.bump (Reg.NOC_PROBE_PACKETS p)).add (Reg.NOC_PROBE_FLITS p) (k.len.val + 1)).add (Reg.NOC_PROBE_WAIT p) waited
    if k.world && !d.on (Reg.NOC_PROBE_CFG_SECURE p) then d.bump (Reg.NOC_PROBE_SEC_UNTRACED p)
    else if d.on (Reg.NOC_PROBE_CFG_TRACE p) then d.trace p k router port else d)

/-- A packet put into router i. -/
def Dev.hold (d : Dev) (k : Packet) (router inLink : Nat) : Dev :=
  (d.onNoc (fun n => { n with held := n.held ++ [⟨k, router, inLink⟩] })).recount

/-- R332: a packet enters the mesh at slot e with the current epoch; it is matched by the probes of its injection point. -/
def Dev.enterMesh (d : Dev) (k : Packet) (e : Nat) : Dev :=
  let k := { k with epoch := d.epochAt e }
  (d.hold k (e / 2) (16 + 4 * (e % 2) + k.srcLink.val)).probePoint k (e / 2) (6 + e % 2) 0

/-- R325, R330: the answer to a packet: its tag, world and source as destination; a response has the urgency of its
request, a SACK or NOTICE 15. `v` is what the answer's VALUE carries below the device. -/
def Dev.answerTo (d : Dev) (p : Packet) (t : PType) (v : Nat) (words : List (BitVec 80)) : Packet :=
  { type := t, len := Fin.ofNat 4 ((words.length + 3) / 4 - 1), srcDev := Fin.ofNat 4 d.ownId, srcEp := p.dstEp,
    srcLink := p.dstLink, dstEp := p.srcEp, dstLink := p.srcLink, tag := p.tag, epoch := p.epoch,
    urg := if t == .sack || t == .notice then 15 else p.urg, world := p.world,
    value := BitVec.ofNat 56 (p.srcDev.val * 2 ^ 54 + v), byteView := false, mask := 0, count := 0, scrub := false,
    words := words }

/-- A request or posted write refused with a status: ERR, or NOTICE (R335, R338, R340). None for any other packet. -/
def Dev.refusal (d : Dev) (p : Packet) (status : Nat) : Option Packet :=
  if isReq p then some (d.answerTo p .err status [])
  else if isPosted p then some (d.answerTo p .notice status [])
  else none

/-- An answer from slot e enters the mesh there. -/
def Dev.answerAt (d : Dev) (e : Nat) (a : Option Packet) : Dev :=
  match a with
  | some k => d.enterMesh k e
  | none => d

/-- R335: a packet discarded as unreachable at slot e or at a router: counted, and answered with a status. -/
def Dev.unreachable (d : Dev) (p : Packet) (e status : Nat) : Dev :=
  ((d.bump Reg.NOC_UNREACH).attend Reg.NOC_ATTN_UNREACH 0x640).answerAt e (d.refusal p status)

/-- R333: the Uldom port of a device in the device table of an epoch; 3 is unreachable. -/
def Dev.portOf (d : Dev) (epoch : Bool) (dev : Nat) : Nat :=
  bitsOf (d.get (Reg.NOC_DEV_T (b2n epoch))) (2 * dev) 2

/-- The slot a packet is routed to: its own destination slot in this device, or the ULD slot that the device table of its
epoch gives for another device (R322, R332); none where that is unreachable. -/
def Dev.targetSlot (d : Dev) (p : Packet) : Option Nat :=
  let dv := d.destDevice p
  if dv = d.ownId then some p.dstEp.val
  else
    let q := d.portOf p.epoch dv
    if q = 3 then none else some (uldEndpoint q)

/-- The Uldom port of a slot, if it is a ULD slot (R321). -/
def uldPort (e : Nat) : Option Nat := if e = 4 then some 0 else if e = 10 then some 1 else if e = 12 then some 2 else none

end Sys2Proof.Machine
end

