-- ==== Sys2Proof/Machine/Links.lean ====
section
/-! DEFINITION. Serial lanes and the Uldom link (R346–R370): training, frames, replay, credits, sleep, time transfer, and
what a ULD slot does with the packets routed to it. -/

namespace Sys2Proof.Machine

/-- Element i of a list changed. -/
def changeAt {α : Type} (f : α → α) : List α → Nat → List α
  | [], _ => []
  | x :: xs, 0 => f x :: xs
  | x :: xs, n + 1 => x :: changeAt f xs n

/-- Port p's own data. -/
def Dev.link (d : Dev) (p : Nat) : LinkPort := lookup (fun _ => LinkPort.reset) d.links p
/-- Port p's own data changed. -/
def Dev.onLink (d : Dev) (p : Nat) (f : LinkPort → LinkPort) : Dev :=
  { d with links := update (fun _ => LinkPort.reset) d.links p (f (d.link p)) }

/-- The function of port p. -/
def uldFn (p : Nat) : Fn := .uld (Fin.ofNat 3 p)
/-- Is port p in RUN and in a training state of R369? -/
def Dev.uldIn (d : Dev) (p st : Nat) : Bool := d.running (uldFn p) && d.get (Reg.ULD_STATE_TRAIN p) == st
/-- Is port p ACTIVE? -/
def Dev.uldActive (d : Dev) (p : Nat) : Bool := d.uldIn p 6

/-- R362: the active lanes of port p, as numbers of the LANE block. -/
def Dev.activeLanes (d : Dev) (p : Nat) : List Nat :=
  match d.get (Reg.ULD_CFG_WIDTH p) with
  | 0 => upFrom (32 + 8 * p) 8
  | 1 => upFrom (32 + 8 * p) 4
  | 2 => upFrom (36 + 8 * p) 4
  | _ => []

/-- The port of a Uldom lane (R346). -/
def lanePort (l : Nat) : Option Nat := if 32 ≤ l ∧ l < 56 then some ((l - 32) / 8) else none

/-- R351: the power states of the active lanes' transmitters and receivers. -/
def Dev.setTxPower (d : Dev) (p v : Nat) : Dev := d.each (d.activeLanes p) (fun d l => d.set (Reg.LANE_STATUS_TX_PWR l) v)
def Dev.setRxPower (d : Dev) (p v : Nat) : Dev := d.each (d.activeLanes p) (fun d l => d.set (Reg.LANE_STATUS_RX_PWR l) v)

/-- R365: a sleeping transmit direction wakes. -/
def Dev.wakeTx (d : Dev) (p : Nat) : Dev :=
  if d.on (Reg.ULD_STATE_TX_SLEEP p) then (d.set (Reg.ULD_STATE_TX_SLEEP p) 0).setTxPower p 2 else d

/-- Something goes out over the link of port p. -/
def Dev.toLine (d : Dev) (p : Nat) (x : Line) : Dev := d.onLink p (fun l => { l with sentLine := l.sentLine ++ [x] })

/-- R356: a packet cut into flits. -/
def flitsOf (hop : Bool) (k : Packet) : List Flit :=
  (upFrom 0 (k.len.val + 1)).map (fun i =>
    { vn := Fin.ofNat 4 (network k), hop := hop, head := if i = 0 then some { k with words := [] } else none,
      words := (k.words.drop (4 * i)).take 4 })

/-- R360: the credit class of a packet. -/
def classOf (hop : Bool) (k : Packet) : Nat := 4 * b2n hop + network k

/-- R360: the credit left to port p in class c. -/
def LinkPort.credit (l : LinkPort) (c : Nat) : Nat :=
  l.limits.getD c 0 - (l.sent.getD c 0 + 4096 - l.freedPeer.getD c 0) % 4096

/-- R359: one DATA frame sent and kept for replay. -/
def Dev.sendFlit (d : Dev) (p c : Nat) (x : Flit) : Dev :=
  let seq := (d.link p).nextSeq
  let d := (d.toLine p (.data seq x)).bump (Reg.ULD_TX_FRAMES p)
  d.onLink p (fun l =>
    { l with nextSeq := (seq + 1) % 4096, replay := l.replay ++ [(seq, x)],
             ackTime := if l.replay.isEmpty then d.now else l.ackTime,
             sent := changeAt (fun n => (n + 1) % 4096) l.sent c })

/-- R359, R360: the packets waiting at an ACTIVE port go out in order within their class, each when its class has credit
and the replay buffer room for all its flits; the packets `todo` are tried in turn, and `full` lists the classes that a
packet ahead holds up. -/
def Dev.pumpFrom (d : Dev) (p : Nat) (full : List Nat) : List (Bool × Packet) → Dev
  | [] => d
  | (hop, k) :: todo =>
    let c := classOf hop k
    let l := d.link p
    let n := k.len.val + 1
    if full.contains c || decide (l.credit c < n) || decide (1024 < l.replay.length + n) then d.pumpFrom p (c :: full) todo
    else
      let d := d.onLink p (fun l => { l with queue := l.queue.erase (hop, k) })
      let d := (flitsOf hop k).foldl (fun d x => d.sendFlit p c x) (d.wakeTx p)
      d.pumpFrom p full todo

/-- Packets that can go out over port p do. -/
def Dev.pump (d : Dev) (p : Nat) : Dev := if d.uldActive p then d.pumpFrom p [] (d.link p).queue else d

/-- An attention bit of port p. -/
def Dev.uldAttn (d : Dev) (f : Fld) (p : Nat) : Dev := d.attend f (0x6C4 + p)

/-- R364, R369: OUTSTANDING follows the transactions tracked. -/
def Dev.setTracked (d : Dev) (p : Nat) (ts : List Tracked) : Dev :=
  (d.onLink p (fun l => { l with tracked := ts })).set (Reg.ULD_OUTSTANDING p) ts.length

/-- R354: the hop class of a packet that leaves over a link: 1 for a packet of another device. -/
def Dev.hopOf (d : Dev) (k : Packet) : Bool := k.srcDev.val != d.ownId

/-- Does port p hold packets for its link: ACTIVE, or in RETRAIN and the training after it (R362, R364)? -/
def Dev.uldHolds (d : Dev) (p : Nat) : Bool :=
  d.running (uldFn p) && (d.uldActive p || (d.link p).retraining)

/-- R339, R354, R355, R364: a packet routed to the slot of port p for its link. -/
def Dev.offer (d : Dev) (p : Nat) (k : Packet) : Dev :=
  let e := uldEndpoint p
  if k.world && network k != 3 then (d.uldAttn (Reg.ULD_ATTN_WORLD p) p).unreachable k e stWORLD
  else if network k = 3 && k.type != .notice && k.type != .fence && k.type != .unfence && k.type != .drained then
    d.bump (Reg.ULD_MGMT_DROPS p)
  else if d.get (Reg.NOC_EP_STATE e) = 4 && (isReq k || isPosted k) then d.answerAt e (d.refusal k stFENCED)
  else if !d.uldHolds p then d.unreachable k e stLINK
  else
    let d := if isReq k || isPosted k then d.setTracked p ((d.link p).tracked ++ [⟨k⟩]) else d
    (d.onLink p (fun l => { l with queue := l.queue ++ [(d.hopOf k, k)] })).pump p

/-- R362: an ACTIVE port goes into RETRAIN. -/
def Dev.retrain (d : Dev) (p : Nat) : Dev :=
  if d.uldActive p then
    let d := ((d.set (Reg.ULD_STATE_TRAIN p) 7).bump (Reg.ULD_RETRAINS p)).uldAttn (Reg.ULD_ATTN_RETRAIN p) p
    let d := ((d.set (Reg.ULD_TIME_VALID p) 0).set (Reg.ULD_STATE_TX_SLEEP p) 0).set (Reg.ULD_STATE_RX_SLEEP p) 0
    d.onLink p (fun l => { l with retraining := true, since := d.now, badMarkers := [0, 0, 0, 0, 0, 0, 0, 0] })
  else d

/-- R361: SLIP and RX_INVERT of a port's lanes are cleared when it leaves RUN. -/
def Dev.clearAlignment (d : Dev) (p : Nat) : Dev :=
  d.each (upFrom (32 + 8 * p) 8) (fun d l => (d.set (Reg.LANE_STATUS_SLIP l) 0).set (Reg.LANE_CFG_RX_INVERT l) 0)

/-- R364: the slot answers every tracked transaction with LINK and discards the replay buffer. -/
def Dev.dropTraffic (d : Dev) (p : Nat) : Dev :=
  let ts := (d.link p).tracked
  let d := (d.setTracked p []).onLink p (fun l => { l with replay := [], queue := [], partials := [] })
  d.each ts (fun d t => d.answerAt (uldEndpoint p) (d.refusal t.pkt stLINK))

/-- R362, R370: port p leaves RUN for STOPPING: ULD_DOWN if its link was up, its time measurement ends, its lanes lose their
alignment; unless it drains, its traffic ends (R364). -/
def Dev.uldLeavesRun (d : Dev) (p : Nat) (drain : Bool) : Dev :=
  let up := (d.link p).wasActive
  let d := ((d.set (Reg.ULD_TIME_VALID p) 0).clearAlignment p).iff up (fun d => d.raise (0x6CC + p))
  if drain then d else d.dropTraffic p

/-- R362: a fault of port p. -/
def Dev.uldFault (d : Dev) (p code : Nat) : Dev :=
  if d.running (uldFn p) then (d.fnFault (uldFn p) code false).uldLeavesRun p false else d

/-- R359: a replay from the present ACK + 1, or RETRAIN once REPLAY_MAX of them brought no progress. -/
def Dev.startReplay (d : Dev) (p : Nat) : Dev :=
  let l := d.link p
  if l.replay.isEmpty then d
  else if max 1 (d.get (Reg.ULD_REPLAY_MAX p)) ≤ l.replayCount then d.retrain p
  else
    let d := (l.replay.foldl (fun d x => d.toLine p (.data x.1 x.2)) (d.wakeTx p)).bump (Reg.ULD_REPLAYS p)
    d.onLink p (fun l => { l with lastReplay := some d.now, replayCount := l.replayCount + 1 })

/-- R359: REPLAY_TIMEOUT of port p in short-time units. -/
def Dev.replayTimeout (d : Dev) (p : Nat) : Nat := d.get (Reg.ULD_REPLAY_TIMEOUT_NS p) * 2 ^ 16

/-- R359: has REPLAY_TIMEOUT passed since a time? -/
def Dev.timedOut (d : Dev) (p : Nat) (t : ShortTime) : Bool := decide (d.replayTimeout p ≤ (d.now - t).toNat)

/-- The frames of a replay buffer that an ACK leaves uncovered (R359): none of them if the ACK names a frame in it. -/
def afterAck (ack : Nat) (xs : List (Nat × Flit)) : List (Nat × Flit) :=
  if xs.any (fun x => x.1 == ack) then (xs.dropWhile (fun x => x.1 != ack)).drop 1 else xs

/-- R359, R360: the ACK, NAK and credit fields of a good frame. -/
def Dev.frameFields (d : Dev) (p : Nat) (f : Frame) : Dev :=
  if f.good then
    let before := d.link p
    let rest := afterAck f.ack.val before.replay
    let d := d.onLink p (fun l => { l with freedPeer := l.freedPeer.set f.crClass.val f.crCount.val })
    let d := if rest.length < before.replay.length then
        d.onLink p (fun l => { l with replay := rest, acked := f.ack.val, ackTime := d.now, replayCount := 0, lastReplay := none })
      else d
    let again := match (d.link p).lastReplay with
      | some t => d.timedOut p t
      | none => true
    (if f.nak && again then d.startReplay p else d).pump p
  else d.bump (Reg.ULD_CRC_ERRORS p)

/-- R364: does a transaction await this answer? -/
def awaits (k : Packet) (t : Tracked) : Bool :=
  t.pkt.srcEp == k.dstEp && t.pkt.tag == k.tag && t.pkt.srcDev.val == k.value.toNat / 2 ^ 54 % 4 &&
    (if k.type == .sack || k.type == .notice then isPosted t.pkt else isReq t.pkt)

/-- R328: how many transactions an answer ends. -/
def answersCount (k : Packet) : Nat := if k.type == .sack then k.value.toNat % 16 + 1 else 1

/-- The first n elements that pass a test removed. -/
def dropSome {α : Type} (f : α → Bool) : Nat → List α → List α
  | _, [] => []
  | 0, xs => xs
  | n + 1, x :: xs => if f x then dropSome f n xs else x :: dropSome f (n + 1) xs

/-- R353, R354, R364: a packet that arrived whole over the link of port p: an answer to no tracked transaction is
discarded; a packet for another device is forwarded once, if FORWARD_EN allows; any other enters the mesh. -/
def Dev.fromLink (d : Dev) (p : Nat) (hop : Bool) (k : Packet) : Dev :=
  let e := uldEndpoint p
  let isAnswer := network k = 1 || k.type == .notice
  if isAnswer && !(d.link p).tracked.any (awaits k) then
    (d.bump (Reg.ULD_LATE_RSP p)).uldAttn (Reg.ULD_ATTN_LATE_RSP p) p
  else
    let d := if isAnswer then d.setTracked p (dropSome (awaits k) (answersCount k) (d.link p).tracked) else d
    if d.destDevice k = d.ownId then d.enterMesh k e
    else if !hop && d.on (Reg.ULD_CFG_FORWARD_EN p) then d.enterMesh k e
    else d.unreachable k e stLINK

/-- A flit accepted in sequence: joined to its packet, its buffer space freed (R359, R360). -/
def Dev.takeFlit (d : Dev) (p : Nat) (x : Flit) : Dev :=
  let c := 4 * b2n x.hop + x.vn.val
  let d := d.onLink p (fun l => { l with freed := changeAt (fun n => (n + 1) % 4096) l.freed c })
  let part : Option (Nat × Packet) := match x.head with
    | some k => some (k.len.val, { k with words := x.words })
    | none =>
      match (d.link p).partials.find? (fun y => y.1 == c) with
      | some (_, n, k) => some (n - 1, { k with words := k.words ++ x.words })
      | none => none
  let d := d.onLink p (fun l => { l with partials := l.partials.filter (fun y => y.1 != c) })
  match part with
  | none => d
  | some (0, k) => d.fromLink p x.hop k
  | some (n, k) => d.onLink p (fun l => { l with partials := l.partials ++ [(c, n, k)] })

/-- R359: a DATA frame. -/
def dataFrame (p : Nat) (f : Frame) (seq : Nat) (x : Flit) (d : Dev) : Dev :=
  if d.uldActive p then
    let d := d.frameFields p f
    let expected := ((d.link p).lastSeq + 1) % 4096
    if !f.good then d.onLink p (fun l => { l with nak := true })
    else if seq = expected then
      let d := d.onLink p (fun l => { l with lastSeq := seq, nak := false })
      ((d.bump (Reg.ULD_RX_FRAMES p)).wakeTx p).takeFlit p x
    else if (seq + 4096 - expected) % 4096 < 2048 then d.onLink p (fun l => { l with nak := true })
    else d
  else d

/-- R356: an IDLE frame. -/
def idleFrame (p : Nat) (f : Frame) (d : Dev) : Dev := if d.uldActive p then d.frameFields p f else d

/-- R349, R362: does a TRAIN frame disagree with this end: the peer's ID its own, or width, rate or precoding differ? -/
def Dev.peerBad (d : Dev) (p : Nat) (b : TrainBody) : Bool :=
  b.dev.val == d.ownId || b.width.val != d.get (Reg.ULD_CFG_WIDTH p) || b.rate != d.on (Reg.ULD_CFG_RATE p) ||
    (d.activeLanes p).any (fun l => b.precode.getLsbD (l - 32 - 8 * p) != d.on (Reg.LANE_CFG_RX_PRECODE l))

/-- R362: EXCHANGE ends: limits loaded, DATA resumes from the peer's ACK + 1, ULD_UP. -/
def Dev.uldUp (d : Dev) (p : Nat) (b : TrainBody) : Dev :=
  let d := d.set (Reg.ULD_STATE_TRAIN p) 6
  let rest := afterAck b.ack.val (d.link p).replay
  let d := d.onLink p (fun l =>
    { l with limits := b.limits.map Fin.val, wasActive := true, retraining := false, replay := rest, acked := b.ack.val,
             ackTime := d.now, replayCount := 0, lastReplay := none })
  let d := rest.foldl (fun d x => d.toLine p (.data x.1 x.2)) d
  (d.raise (0x6C8 + p)).pump p

/-- R353, R362: a TRAIN frame. -/
def trainFrame (p : Nat) (f : Frame) (b : TrainBody) (d : Dev) : Dev :=
  if !d.running (uldFn p) then d
  else if !f.good then d.bump (Reg.ULD_CRC_ERRORS p)
  else if d.uldActive p then d.retrain p
  else if d.uldIn p 5 then
    let d := ((d.set (Reg.ULD_STATE_PEER_ID p) b.dev.val).set (Reg.ULD_STATE_PEER_PORT p) b.port.val).set
      (Reg.ULD_STATE_PEER_VALID p) 1
    let d := if d.portOf (d.epochAt (uldEndpoint p)) b.dev.val = p then d else d.uldAttn (Reg.ULD_ATTN_TOPOLOGY p) p
    if d.peerBad p b then d.uldFault p 0x04
    else if b.ready then
      let n := (d.link p).goodTrain + 1
      let d := (d.onLink p (fun l => { l with goodTrain := n })).toLine p .train
      if 8 ≤ n then d.uldUp p b else d
    else d
  else d

/-- R357: the marker word of a lane number. -/
def markerOf (n : Nat) : Nat := 0x8B73D1_4E2C96A5 * 256 + n * 32 + 0b10110

/-- R357: the lane number of a word that is a marker. -/
def markerLane (w : BitVec 64) : Option Nat := (upFrom 0 8).find? (fun n => w.toNat == markerOf n)

/-- R348, R361: a word with the levels inverted: the more significant bit of every pair flips. -/
def invertLevels (w : BitVec 64) : BitVec 64 := w ^^^ 0xAAAAAAAAAAAAAAAA#64

/-- R357, R361, R362, R365: a marker word received on lane l: in ALIGN it sets MATCH or INVERTED and LANE_ID; on an active
lane of an ACTIVE link a fourth bad one in a row, or one that does not match after a sleep, causes RETRAIN. -/
def markerWord (l : Nat) (w : BitVec 64) (d : Dev) : Dev :=
  match lanePort l with
  | none => d
  | some p =>
    if d.uldIn p 3 then
      let m := markerLane w
      let i := markerLane (invertLevels w)
      let d := (d.set (Reg.LANE_STATUS_MATCH l) (b2n m.isSome)).set (Reg.LANE_STATUS_INVERTED l) (b2n i.isSome)
      match m with
      | some n => d.set (Reg.LANE_STATUS_LANE_ID l) n
      | none => d
    else if d.uldActive p && (d.activeLanes p).contains l then
      let i := l - 32 - 8 * p
      let good := markerLane w == some (d.get (Reg.LANE_STATUS_LANE_ID l))
      if good then
        let d := d.onLink p (fun x => { x with badMarkers := x.badMarkers.set i 0 })
        if d.on (Reg.ULD_STATE_RX_SLEEP p) then (d.set (Reg.ULD_STATE_RX_SLEEP p) 0).setRxPower p 2 else d
      else if d.on (Reg.ULD_STATE_RX_SLEEP p) then d.retrain p
      else
        let n := (d.link p).badMarkers.getD i 0 + 1
        let d := d.onLink p (fun x => { x with badMarkers := x.badMarkers.set i n })
        if 4 ≤ n then d.retrain p else d
    else d

/-- R361: SLIP.GO of lane l. Writes to the fields of PCIe lanes are ignored without an event (R352). -/
def slipGo (who : Accessor) (l : Nat) (d : Dev) : Dev :=
  if l < 16 then d
  else match lanePort l with
    | some p =>
      if d.uldIn p 3 then
        ((d.bump (Reg.LANE_STATUS_SLIP l)).set (Reg.LANE_STATUS_MATCH l) 0).set (Reg.LANE_STATUS_INVERTED l) 0
      else d.cfgReject who (Reg.LANE_SLIP_GO l).off
    | none => d.cfgReject who (Reg.LANE_SLIP_GO l).off

/-- R362: DETECT to EQUALISE. -/
def signalLock (p : Nat) (d : Dev) : Dev :=
  if d.uldIn p 1 then
    let d := d.each (d.activeLanes p) (fun d l => (d.set (Reg.LANE_STATUS_SIGNAL l) 1).set (Reg.LANE_STATUS_CDR_LOCK l) 1)
    d.set (Reg.ULD_STATE_TRAIN p) 2
  else d

/-- R362: EQUALISE to ALIGN; `eyes` are the eye measurements of the active lanes (R368), height in the low byte. -/
def equaliseConverged (p : Nat) (eyes : List (BitVec 16)) (d : Dev) : Dev :=
  if d.uldIn p 2 then
    let d := d.each ((d.activeLanes p).zip eyes) (fun d x =>
      (d.set (Reg.LANE_EYE_HEIGHT x.1) (x.2.toNat % 256)).set (Reg.LANE_EYE_WIDTH x.1) (x.2.toNat / 256))
    d.set (Reg.ULD_STATE_TRAIN p) 3
  else d

/-- R362: ALIGN to DESKEW once every active lane holds MATCH. -/
def alignMatch (p : Nat) (d : Dev) : Dev :=
  if d.uldIn p 3 && (d.activeLanes p).all (fun l => d.on (Reg.LANE_STATUS_MATCH l)) then d.set (Reg.ULD_STATE_TRAIN p) 4 else d

/-- R362: DESKEW is judged: skew in lane words, and the lane numbers found on the active lanes in order. -/
def deskewDone (p skew : Nat) (order : List (Fin 8)) (d : Dev) : Dev :=
  if d.uldIn p 4 then
    let own := (d.activeLanes p).map (fun l => l - 32 - 8 * p)
    let got := order.map Fin.val
    if skew ≤ 16 ∧ (got = own ∨ got = own.reverse) then
      let d := (d.set (Reg.ULD_STATE_REVERSED p) (b2n (got != own))).set (Reg.ULD_STATE_TRAIN p) 5
      (d.onLink p (fun l => { l with goodTrain := 0 })).toLine p .train
    else d.uldFault p 0x06
  else d

/-- R365: a SLEEP frame: the receivers sleep. -/
def sleepFrame (p : Nat) (f : Frame) (d : Dev) : Dev :=
  if d.uldActive p then
    let d := d.frameFields p f
    if f.good then (d.set (Reg.ULD_STATE_RX_SLEEP p) 1).setRxPower p 1 else d
  else d

/-- R362: a BYE frame. -/
def byeFrame (p : Nat) (f : Frame) (d : Dev) : Dev :=
  if d.uldActive p then
    if f.good then (d.frameFields p f).uldFault p 0x07 else d.frameFields p f
  else d

/-- R359: no progress of ACK for REPLAY_TIMEOUT while frames are unacknowledged. -/
def replayTimeout (p : Nat) (d : Dev) : Dev :=
  if d.uldActive p && !(d.link p).replay.isEmpty && d.timedOut p (d.link p).ackTime then
    (d.startReplay p).onLink p (fun l => { l with ackTime := d.now })
  else d

/-- R362, R368: signal lost on lane l without a prior SLEEP. -/
def lossOfSignal (l : Nat) (d : Dev) : Dev :=
  if 16 ≤ l && d.running (.lane (Fin.ofNat 56 l)) then
    match lanePort l with
    | none => ((d.set (Reg.LANE_STATUS_SIGNAL l) 0).set (Reg.LANE_STATUS_CDR_LOCK l) 0).attend (Reg.LANE_ATTN_LOS l) 0x6C0
    | some p =>
      if d.on (Reg.ULD_STATE_RX_SLEEP p) then d
      else
        let d := (d.set (Reg.LANE_STATUS_SIGNAL l) 0).set (Reg.LANE_STATUS_CDR_LOCK l) 0
        let d := d.attend (Reg.LANE_ATTN_LOS l) 0x6C0
        if (d.activeLanes p).contains l then d.retrain p else d
  else d

/-- R362: RETRAIN to ALIGN. -/
def retrainLock (p : Nat) (d : Dev) : Dev :=
  if d.uldIn p 7 then
    let d := d.each (d.activeLanes p) (fun d l => (d.set (Reg.LANE_STATUS_SIGNAL l) 1).set (Reg.LANE_STATUS_CDR_LOCK l) 1)
    d.set (Reg.ULD_STATE_TRAIN p) 3
  else d

/-- Have n milliseconds passed since port p entered RUN or RETRAIN? -/
def Dev.trainedFor (d : Dev) (p n : Nat) : Bool := decide (n * 10 ^ 6 * 2 ^ 16 ≤ (d.now - (d.link p).since).toNat)

/-- R362: TRAIN_MS since RUN without ACTIVE. -/
def trainTimeout (p : Nat) (d : Dev) : Dev :=
  if d.running (uldFn p) && !(d.link p).wasActive && d.trainedFor p (max 1 (d.get (Reg.ULD_TRAIN_MS p))) then d.uldFault p 0x02
  else d

/-- R362: RETRAIN_MS since entering RETRAIN without ACTIVE. -/
def retrainTimeout (p : Nat) (d : Dev) : Dev :=
  if d.running (uldFn p) && (d.link p).retraining && d.trainedFor p (max 1 (d.get (Reg.ULD_RETRAIN_MS p))) then
    d.uldFault p 0x03
  else d

/-- R365: a direction idle for IDLE_US sleeps. -/
def sleepIdle (p : Nat) (d : Dev) : Dev :=
  if d.uldActive p && d.on (Reg.ULD_CFG_SLEEP_EN p) && (d.link p).replay.isEmpty && (d.link p).queue.isEmpty &&
      !d.on (Reg.ULD_STATE_TX_SLEEP p) then
    let d := (upFrom 0 8).foldl (fun d _ => d.toLine p .sleep) d
    (d.set (Reg.ULD_STATE_TX_SLEEP p) 1).setTxPower p 1
  else d

/-- R4: a full time (48-bit seconds, 32-bit nanoseconds, 16-bit fraction) in units of 2^-16 ns. -/
def fullUnits (t : BitVec 96) : Nat := t.toNat / 2 ^ 48 * (10 ^ 9 * 2 ^ 16) + t.toNat % 2 ^ 48

/-- R366: a TIME frame goes out; `crossing` is the full time at which it crosses the TX balls. -/
def timeInterval (p : Nat) (crossing : BitVec 96) (d : Dev) : Dev :=
  if d.uldActive p && d.on (Reg.ULD_CFG_TIME_EN p) then
    let l := d.link p
    let prev := lookup (fun _ => 0) l.crossings (l.tseq - 1).toNat
    let d := (d.wakeTx p).toLine p (.time l.tseq l.rseq prev (l.arrival.getD 0))
    d.onLink p (fun l =>
      { l with crossings := update (fun _ => 0) l.crossings l.tseq.toNat crossing, tseq := l.tseq + 1 })
  else d

/-- Round half up of n / m for a positive m. -/
def halfUp (n : Int) (m : Nat) : Int := (2 * n + m) / (2 * m)

/-- R366: OFFSET of a measurement, saturated to 64 bits. -/
def linkOffset (t1 t2 t3 t4 : Nat) (asymPs : Int) : Int :=
  satTo 64 (halfUp ((((t2 : Int) - t1) - ((t4 : Int) - t3)) * 1000 - asymPs * 65536) 2000)

/-- R366: DELAY of a measurement. -/
def linkDelay (t1 t2 t3 t4 : Nat) : Int := halfUp (((t2 : Int) - t1) + ((t4 : Int) - t3)) 2

/-- R366: a TIME frame received; `arrived` is the full time of its arrival at the RX balls. A measurement needs the peer's
previous frame and the own frame it answers. -/
def timeFrame (p : Nat) (f : Frame) (tseq rseq : BitVec 8) (prevTx rseqRx arrived : BitVec 96) (d : Dev) : Dev :=
  if d.uldActive p then
    let d := d.frameFields p f
    if f.good && d.on (Reg.ULD_CFG_TIME_EN p) then
      let l := d.link p
      let d := match l.arrival with
        | some t4 =>
          if l.rseq + 1 = tseq ∧ (l.crossings.any (fun x => x.1 == rseq.toNat)) = true then
            let t1 := fullUnits (lookup (fun _ => 0) l.crossings rseq.toNat)
            let asym := signed (d.get (Reg.ULD_ASYM_PS p)) 16
            let off := linkOffset t1 (fullUnits rseqRx) (fullUnits prevTx) (fullUnits t4) asym
            let del := linkDelay t1 (fullUnits rseqRx) (fullUnits prevTx) (fullUnits t4)
            let d := (d.set64 (Reg.ULD_TIME_OFFSET p) (wrapTo 64 off)).set (Reg.ULD_TIME_DELAY p) (wrapTo 32 del)
            ((d.set64 (Reg.ULD_TIME_AT p) d.now.toNat).set (Reg.ULD_TIME_VALID p) 1).raise (0x6D0 + p)
          else d
        | none => d
      d.onLink p (fun l => { l with rseq := tseq, arrival := some arrived })
    else d
  else d

/-- R352: the checker of a lane in a PRBS test has locked and counted errors. -/
def prbsLock (l errors : Nat) (d : Dev) : Dev :=
  let t := d.get (Reg.LANE_CFG_TEST l)
  if 16 ≤ l && d.running (.lane (Fin.ofNat 56 l)) && decide (1 ≤ t) && decide (t ≤ 5) then
    let d := (d.set (Reg.LANE_STATUS_PRBS_LOCK l) 1).add (Reg.LANE_PRBS_ERR l) errors
    if errors = 0 then d else d.attend (Reg.LANE_ATTN_PRBS_ERR l) 0x6C0
  else d

/-- SLIP_GO (R361). -/
def execSlipGo (who : Accessor) (l : Fin 56) (s : State) : Host.Outcome State Fault Refusal := s.onDev (fun d =>
  d.mapped who (Reg.LANE_SLIP_GO l.val).off (slipGo who l.val))
/-- ULD_SIGNAL_LOCK (R362). -/
def execUldSignalLock (p : Fin 3) (s : State) : Host.Outcome State Fault Refusal := s.onDev (signalLock p.val)
/-- ULD_EQUALISE_CONVERGED (R362). -/
def execUldEqualiseConverged (p : Fin 3) (eyes : List (BitVec 16)) (s : State) : Host.Outcome State Fault Refusal :=
  s.onDev (equaliseConverged p.val eyes)
/-- ULD_ALIGN_MATCH (R362). -/
def execUldAlignMatch (p : Fin 3) (s : State) : Host.Outcome State Fault Refusal := s.onDev (alignMatch p.val)
/-- ULD_DESKEW_DONE (R362). -/
def execUldDeskewDone (p : Fin 3) (skew : Nat) (order : List (Fin 8)) (s : State) : Host.Outcome State Fault Refusal :=
  s.onDev (deskewDone p.val skew order)
/-- TRAIN_FRAME (R362). Its body has eight credit limits. -/
def execTrainFrame (p : Fin 3) (f : Frame) (body : TrainBody) (s : State) : Host.Outcome State Fault Refusal :=
  s.onDevIf body.wf (trainFrame p.val f body)
/-- IDLE_FRAME (R356). -/
def execIdleFrame (p : Fin 3) (f : Frame) (s : State) : Host.Outcome State Fault Refusal := s.onDev (idleFrame p.val f)
/-- DATA_FRAME (R359). -/
def execDataFrame (p : Fin 3) (f : Frame) (seq : Fin 4096) (flit : Flit) (s : State) : Host.Outcome State Fault Refusal :=
  s.onDevIf flit.wf (dataFrame p.val f seq.val flit)
/-- TIME_FRAME (R366). -/
def execTimeFrame (p : Fin 3) (f : Frame) (tseq rseq : BitVec 8) (prevTx rseqRx arrived : BitVec 96) (s : State) :
    Host.Outcome State Fault Refusal := s.onDev (timeFrame p.val f tseq rseq prevTx rseqRx arrived)
/-- SLEEP_FRAME (R365). -/
def execSleepFrame (p : Fin 3) (f : Frame) (s : State) : Host.Outcome State Fault Refusal := s.onDev (sleepFrame p.val f)
/-- BYE_FRAME (R362). -/
def execByeFrame (p : Fin 3) (f : Frame) (s : State) : Host.Outcome State Fault Refusal := s.onDev (byeFrame p.val f)
/-- MARKER (R357). -/
def execMarkerWord (l : Fin 56) (word : BitVec 64) (s : State) : Host.Outcome State Fault Refusal :=
  s.onDev (markerWord l.val word)
/-- REPLAY_TIMEOUT (R359). -/
def execReplayTimeout (p : Fin 3) (s : State) : Host.Outcome State Fault Refusal := s.onDev (replayTimeout p.val)
/-- LOSS_OF_SIGNAL (R362). -/
def execLossOfSignal (l : Fin 56) (s : State) : Host.Outcome State Fault Refusal := s.onDev (lossOfSignal l.val)
/-- RETRAIN_LOCK (R362). -/
def execRetrainLock (p : Fin 3) (s : State) : Host.Outcome State Fault Refusal := s.onDev (retrainLock p.val)
/-- TRAIN_TIMEOUT (R362). -/
def execTrainTimeout (p : Fin 3) (s : State) : Host.Outcome State Fault Refusal := s.onDev (trainTimeout p.val)
/-- RETRAIN_TIMEOUT (R362). -/
def execRetrainTimeout (p : Fin 3) (s : State) : Host.Outcome State Fault Refusal := s.onDev (retrainTimeout p.val)
/-- SLEEP_IDLE_EXPIRY (R365). -/
def execSleepIdleExpiry (p : Fin 3) (s : State) : Host.Outcome State Fault Refusal := s.onDev (sleepIdle p.val)
/-- TIME_INTERVAL_EXPIRY (R366). -/
def execTimeIntervalExpiry (p : Fin 3) (crossing : BitVec 96) (s : State) : Host.Outcome State Fault Refusal :=
  s.onDev (timeInterval p.val crossing)
/-- PRBS_LOCK (R352). -/
def execPrbsLock (l : Fin 56) (errors : Nat) (s : State) : Host.Outcome State Fault Refusal := s.onDev (prbsLock l.val errors)

end Sys2Proof.Machine
end

