-- ==== Sys2Proof/Machine/Noc.lean ====
section
/-! DEFINITION. Packets at work: routing (R332, R335), their effect at memory and at their requester (R86, R87, R118, R328,
R340), fence and drain (R337–R339), route-table checks and epochs (R334, R336). -/

namespace Sys2Proof.Machine

/-- What a packet's head meets at its router (R332). -/
inductive Exit where
  | eject (s : Nat)
  | go (channel : Nat)
  | unreachable
  deriving DecidableEq, Repr

/-- R332, R344: the entry of table T[k] of router i for endpoint e. -/
def Dev.routeEntry (d : Dev) (i : Nat) (k : Bool) (e : Nat) : Nat :=
  bitsOf (d.get (Reg.NOC_RT_T_E i (b2n k) (e / 8))) (3 * (e % 8)) 3

/-- The router beyond channel c of router i: 0–3 for +x, −x, +y, −y; none off the mesh. -/
def neighbour (i c : Nat) : Option Nat :=
  let x := i % 8
  let y := i / 8
  match c with
  | 0 => if x < 7 then some (i + 1) else none
  | 1 => if 0 < x then some (i - 1) else none
  | 2 => if y < 5 then some (i + 8) else none
  | _ => if 0 < y then some (i - 8) else none

/-- R332: the exit of a held packet. An entry that leaves the mesh, or the reserved one, exits nowhere. -/
def Dev.exitOf (d : Dev) (h : Held) : Exit :=
  match d.targetSlot h.pkt with
  | none => .unreachable
  | some e =>
    match d.routeEntry h.router h.pkt.epoch e with
    | 0 => .eject 0
    | 1 => .eject 1
    | 6 => .unreachable
    | 7 => .unreachable
    | n => if (neighbour h.router (n - 2)).isSome then .go (n - 2) else .unreachable

/-- R322: the link a packet takes within a channel. -/
def channelLink (k : Packet) : Nat := (k.srcEp.val + k.srcLink.val + k.dstEp.val + k.dstLink.val) % 4

/-- The output a held packet waits for: port 0–3 for a channel, 4 and 5 for a slot, with its link (R320, R331). -/
def Dev.outputOf (d : Dev) (h : Held) : Nat :=
  match d.exitOf h with
  | .eject s => 64 * h.router + 8 * (4 + s) + h.pkt.dstLink.val
  | .go c => 64 * h.router + 8 * c + channelLink h.pkt
  | .unreachable => 64 * h.router + 48

/-- R331: how far an input link stands behind the one last granted. -/
def turnOf (last inLink : Nat) : Nat := (inLink + 23 - last % 24) % 24

/-- R331: is a held packet the one its output grants: no other waiting for that output has higher urgency, and none of
equal urgency comes before it in round-robin order? -/
def Dev.granted (d : Dev) (h : Held) : Bool :=
  let out := d.outputOf h
  let last := lookup (fun _ => 23) d.noc.granted out
  d.noc.held.all (fun x =>
    d.outputOf x != out || decide (x.pkt.urg.val < h.pkt.urg.val) ||
      (x.pkt.urg == h.pkt.urg && decide (turnOf last h.inLink ≤ turnOf last x.inLink)))

/-- R337: the state of slot e. -/
def Dev.slotState (d : Dev) (e : Nat) : Nat := d.get (Reg.NOC_EP_STATE e)

/-- R335, R338: a packet whose head flit reaches slot e: refused by a fence, counted where the slot is not its own, sent
over a link from a ULD slot, or left for its block. -/
def Dev.arrive (d : Dev) (k : Packet) (e : Nat) : Dev :=
  if d.targetSlot k ≠ some e then
    ((d.bump (Reg.NOC_EP_MISROUTE e)).attend Reg.NOC_ATTN_MISROUTE 0x640).answerAt e (d.refusal k stLINK)
  else if d.slotFenced e && isReq k then
    (d.bump (Reg.NOC_EP_FENCED_RSP e)).answerAt e (d.refusal k stFENCED)
  else if d.slotFenced e && isPosted k then
    (d.bump (Reg.NOC_EP_FENCE_DROPS e)).answerAt e (d.refusal k stFENCED)
  else if (d.slotState e = 2 || d.slotState e = 3) && k.type != .unfence then d
  else if d.destDevice k ≠ d.ownId then
    match uldPort e with
    | some p => d.offer p k
    | none => d
  else d.onNoc (fun n => { n with arrived := n.arrived ++ [k] })

/-- R330: the urgency of a packet as its endpoint injects it: messages carry 15, scrubber packets 0. -/
def injectUrgency (k : Packet) : Fin 16 :=
  if k.scrub then 0 else if network k = 3 || k.type == .sack then 15 else k.urg

/-- R332, R335, R338: a block injects a packet at its slot: refused there in a fence, discarded where the device table is 3,
otherwise in the mesh with the current epoch; a request or posted write then awaits its answer (R328). -/
def inject (k : Packet) (d : Dev) : Dev :=
  let e := k.srcEp.val
  let k := { k with urg := injectUrgency k, srcDev := Fin.ofNat 4 d.ownId, epoch := d.epochAt e }
  if d.slotState e = 7 then d
  else if d.slotFenced e && (isReq k || isPosted k) then
    match d.refusal k stFENCED with
    | some a => (d.bump (Reg.NOC_EP_FENCED_RSP e)).onNoc (fun n => { n with arrived := n.arrived ++ [a] })
    | none => d
  else
    let d := if isReq k || isPosted k then
        d.onNoc (fun n => { n with waiting := n.waiting ++ [⟨e, k.tag.val, isPosted k, k.value.toNat⟩] })
      else d
    if d.targetSlot k = none then d.unreachable k e stLINK else d.enterMesh k e

/-- R332: the k-th held packet leaves its router by the exit its table gives, if its output grants it. -/
def routeHeld (k waited : Nat) (d : Dev) : Dev :=
  match d.noc.held[k]? with
  | none => d
  | some h =>
    if d.granted h then
      let out := d.outputOf h
      let d1 := (d.onNoc (fun n =>
        { n with held := n.held.eraseIdx k, granted := update (fun _ => 23) n.granted out h.inLink })).recount
      match d.exitOf h with
      | .unreachable => d1.unreachable h.pkt (2 * h.router) stLINK
      | .eject s => (d1.probePoint h.pkt h.router (4 + s) waited).arrive h.pkt (2 * h.router + s)
      | .go c =>
        match neighbour h.router c with
        | none => d1
        | some r =>
          -- a packet that leaves on +x enters the neighbour by its −x side, and so on
          (d1.probePoint h.pkt h.router c waited).hold h.pkt r (4 * (if c % 2 = 0 then c + 1 else c - 1) + channelLink h.pkt)
    else d

/-- R332: a head flit is routed. -/
def packetRoute (x : Head) (waited : Nat) (d : Dev) : Dev :=
  match x with
  | .inject p => inject p d
  | .held k => routeHeld k waited d

/-- R331: a packet held for a full age quantum gains one urgency, up to 15; scrubber packets never age. -/
def ageQuantum (k : Nat) (d : Dev) : Dev :=
  match d.noc.held[k]? with
  | none => d
  | some h =>
    if h.pkt.scrub then d
    else
      let u : Fin 16 := Fin.ofNat 16 (min 15 (h.pkt.urg.val + 1))
      d.onNoc (fun n => { n with held := n.held.set k { h with pkt := { h.pkt with urg := u } } })

/-- The request a packet makes (R406). The packet has reached its slot, so no fence is in its way. -/
def reqOf (p : Packet) (o : Owner) : Req :=
  { world := p.world, ep := match o.via with | some q => uldEndpoint q.val | none => p.srcEp.val,
    func := match o.via with | some _ => none | none => o.func.map Fin.val, reader := o.reader.val, own := true, win := 0 }

/-- A packet that has reached its memory: taken from those that wait at its slot; one that has not been there before is
refused by a fence now. None where a fence refuses it. -/
def Dev.take (d : Dev) (p : Packet) : Dev × Bool :=
  if d.noc.arrived.contains p then (d.onNoc (fun n => { n with arrived := n.arrived.erase p }), true)
  else if d.slotFenced p.dstEp.val then
    (if isPosted p then (d.bump (Reg.NOC_EP_FENCE_DROPS p.dstEp.val)).answerAt p.dstEp.val (d.refusal p stFENCED)
     else (d.bump (Reg.NOC_EP_FENCED_RSP p.dstEp.val)).answerAt p.dstEp.val (d.refusal p stFENCED), false)
  else (d, true)

/-- The device byte address of a packet's first word. -/
def packetAddr (p : Packet) : Nat := p.value.toNat % 2 ^ 53

/-- One word a read delivers, as stored bits: a corrected word with its check byte, a lost word with its syndrome. -/
def Dev.readRaw (d : Dev) (q : Req) (b : Nat) : Dev × Option (BitVec 80) × Option Nat :=
  let raw := d.raw (b / 8)
  match d.readWord q b with
  | (d, .data v) => (d, some (BitVec.ofNat 80 (encodeWord v)), none)
  | (d, .poison) => (d, some (BitVec.ofNat 80 (poisonWord (dataOf raw))), none)
  | (d, .uncorrectable) => (d, some (BitVec.ofNat 80 raw), none)
  | (d, .err st) => (d, none, some st)

/-- The words of a read, in order, up to the first refusal. -/
def Dev.readRun (d : Dev) (q : Req) (b : Nat) : Nat → Dev × List (BitVec 80) × Option Nat
  | 0 => (d, [], none)
  | n + 1 =>
    match d.readRaw q b with
    | (d, some w, _) =>
      let (d, ws, st) := d.readRun q (b + 8) n
      (d, w :: ws, st)
    | (d, none, st) => (d, [], st)

/-- The groups of HBM a run of words touches, each with the set of its words in the run. -/
def groupsOf (b n : Nat) : List ((Nat × Nat) × Nat) :=
  (upFrom (b / 8) n).foldl (fun acc w =>
    match hbmGroup w with
    | none => acc
    | some g =>
      let k := 2 ^ ((w - hbmBase g.1 / 8) % 32)
      match acc.reverse with
      | (h, m) :: rest => if h = g then (rest.reverse ++ [(g, m ||| k)]) else acc ++ [(g, k)]
      | [] => [(g, k)]) []

/-- R87, R90, R97, R324: RD. The answer is RDATA, or ERR. A read of the host window goes out over PCIe. -/
def readPacket (p : Packet) (o : Owner) (d : Dev) : Dev :=
  match d.take p with
  | (d, false) => d
  | (d, true) =>
    let e := p.dstEp.val
    let n := p.count.val + 1
    if p.value.getLsbD 53 then
      let f := (o.func.map Fin.val).getD 0
      if d.jfe.busMaster.getLsbD f then d.send (.read f (packetAddr p) (8 * n)) else d.answerAt e (d.refusal p stCONFIG)
    else
      let b := packetAddr p
      let d := d.each (groupsOf b n) (fun d g => d.countRead g.1)
      match d.readRun (reqOf p o) b n with
      | (d, ws, none) => d.answerAt e (some (d.answerTo p .rdata 0 ws))
      | (d, _, some st) => d.answerAt e (d.refusal p st)

/-- The words of a write stored in order, up to the first refusal; each is checked as it is received (R118). -/
def Dev.writeRun (d : Dev) (q : Req) (b : Nat) : List (BitVec 80) → Dev × Ack
  | [] => (d, none)
  | w :: ws =>
    let (d, raw) := d.receiveRaw b w.toNat
    match d.writeRaw q b raw with
    | (d, none) => d.writeRun q (b + 8) ws
    | (d, some st) => (d, some st)

/-- R118: what of a word goes to the host: bits [63:0], zero for a lost word. -/
def hostBytes (w : BitVec 80) : List Byte :=
  match classify w.toNat with
  | .clean => leBytes w.toNat 8
  | .corrected v => leBytes v.toNat 8
  | _ => leBytes 0 8

/-- WR and SWR: whole words stored; answered with WACK or SACK, or refused (R87, R118, R129, R328). -/
def writePacket (p : Packet) (o : Owner) (d : Dev) : Dev :=
  match d.take p with
  | (d, false) => d
  | (d, true) =>
    let e := p.dstEp.val
    let ok := if isPosted p then d.answerTo p .sack 0 [] else d.answerTo p .wack 0 []
    if p.value.getLsbD 53 then
      let f := (o.func.map Fin.val).getD 0
      if d.jfe.busMaster.getLsbD f then
        (d.send (.write f (packetAddr p) (p.words.foldr (fun w bs => hostBytes w ++ bs) []) (d.on Reg.JFE_CFG_RO_DATA))).answerAt
          e (some ok)
      else d.answerAt e (d.refusal p stCONFIG)
    else
      let b := packetAddr p
      match d.writeRun (reqOf p o) b p.words with
      | (d, none) => (d.each (groupsOf b p.words.length) (fun d g => d.countWrite g.1 g.2)).answerAt e (some ok)
      | (d, some st) => d.answerAt e (d.refusal p st)

/-- R86: WRN. -/
def narrowPacket (p : Packet) (o : Owner) (d : Dev) : Dev :=
  match d.take p with
  | (d, false) => d
  | (d, true) =>
    let e := p.dstEp.val
    let w := (p.words.headD 0).toNat
    if p.value.getLsbD 53 then d.answerAt e (d.refusal p stCONFIG)
    else
      let b := packetAddr p
      match d.writeNarrow (reqOf p o) b (dataOf w) p.byteView p.mask.toNat with
      | (d, none) => (d.each (groupsOf b 1) (fun d g => d.countWrite g.1 g.2)).answerAt e (some (d.answerTo p .wack 0 []))
      | (d, some st) => d.answerAt e (d.refusal p st)

/-- R328: the request an answer to endpoint e and tag t ends. -/
def Dev.answered (d : Dev) (e t : Nat) (posted : Bool) (n : Nat) : Dev :=
  d.onNoc (fun s => { s with waiting := dropSome (fun x => x.ep == e && x.tag == t && x.posted == posted) n s.waiting })

/-- The address of the oldest request of endpoint e and tag t. -/
def Dev.requestAddr (d : Dev) (e t : Nat) : Nat :=
  match d.noc.waiting.find? (fun x => x.ep == e && x.tag == t && !x.posted) with
  | some x => x.addr
  | none => 0

/-- An answer taken from those that wait at its slot. -/
def Dev.takeAnswer (d : Dev) (p : Packet) : Dev := d.onNoc (fun n => { n with arrived := n.arrived.erase p })

/-- R118, R119: a word received by its requester: corrected, or lost. -/
def receivedWord (w : BitVec 80) : Ext × Option Bool :=
  match classify w.toNat with
  | .clean => (.word (dataOf w.toNat), none)
  | .corrected v => (.word v, none)
  | .poison => (.poison, some false)
  | .uncorrectable => (.poison, some true)

/-- R101, R119: a job whose read brought lost words: an uncorrectable word halts a data-mover channel; any other job goes
on. `bad` is the place of the first uncorrectable word. -/
def Dev.lostWords (d : Dev) (id : Nat) (addr : Nat) (bad : Option Nat) (poison : Bool) : Dev :=
  match d.job id with
  | none => d
  | some j =>
    let d := d.setJob { j with uncorr := j.uncorr || bad.isSome, poison := j.poison || poison }
    match bad with
    | some k =>
      if j.phase = .running ∧ 0xA0 ≤ j.opcode ∧ j.opcode < 0xB0 then
        (d.dmvHalt j (addr + 8 * k)).endJob j stUNCORR 0
      else d
    | none => d

/-- R118, R119: RDATA reaches the requester. -/
def readData (p : Packet) (o : Owner) (d : Dev) : Dev :=
  let e := p.dstEp.val
  let t := p.tag.val
  let ws := p.words.map receivedWord
  let addr := d.requestAddr e t
  let d := (d.takeAnswer p).answered e t false 1
  let d := d.onNoc (fun n => { n with delivered := update (fun _ => []) n.delivered (1024 * e + t) (ws.map Prod.fst) })
  match o.job with
  | none => d
  | some id =>
    d.lostWords id addr ((upFrom 0 ws.length).find? (fun k => (ws.map Prod.snd).getD k none == some true))
      ((ws.map Prod.snd).any (· == some false))

/-- R328: WACK. -/
def writeAck (p : Packet) (d : Dev) : Dev := (d.takeAnswer p).answered p.dstEp.val p.tag.val false 1
/-- R328: SACK of 1–16 posted writes. -/
def streamAck (p : Packet) (d : Dev) : Dev :=
  (d.takeAnswer p).answered p.dstEp.val p.tag.val true (p.value.toNat % 16 + 1)

/-- R340: a status reaches a job: UNCORRECTABLE lets it go on, any other stops it, the first to arrive deciding. -/
def Dev.jobAnswer (d : Dev) (id st : Nat) : Dev :=
  match d.job id with
  | none => d
  | some j =>
    if !j.open_ then d
    else if st = stUNCORR then d.setJob { j with uncorr := true }
    else match j.verdict with
      | some _ => d
      | none => d.setJob { j with verdict := some st }

/-- R340: ERR, for a request, and NOTICE, for a posted write. -/
def refusedAnswer (p : Packet) (o : Owner) (d : Dev) : Dev :=
  let d := (d.takeAnswer p).answered p.dstEp.val p.tag.val (p.type == .notice) 1
  match o.job with
  | none => d
  | some id => d.jobAnswer id (statusOf p)

/-- R337: FENCE from the power controller, or over a link to a ULD slot. -/
def fenceSlot (e : Nat) (link : Bool) (d : Dev) : Dev :=
  if d.slotState e ≠ 0 then d
  else if link then (if (uldPort e).isSome then d.set (Reg.NOC_EP_STATE e) 4 else d)
  else d.set (Reg.NOC_EP_STATE e) 1

/-- R337, R339: UNFENCE; the slot of a port passes it to its peer. -/
def unfenceSlot (e : Nat) (link : Bool) (d : Dev) : Dev :=
  if link then (if d.slotState e = 4 then d.set (Reg.NOC_EP_STATE e) 0 else d)
  else if d.slotState e = 2 then
    let d := (d.set (Reg.NOC_EP_STATE e) 0).onNoc (fun n => { n with drained := n.drained.filter (· != e) })
    match uldPort e with
    | some p => d.toLine p .unfence
    | none => d
  else d

/-- R337–R339: a FENCING slot with no request or posted write of its own unanswered becomes DRAINED and reports it; the slot
of a port first sends FENCE over its link. -/
def slotDrained (e : Nat) (d : Dev) : Dev :=
  if d.slotState e = 1 && !d.noc.waiting.any (fun x => x.ep == e) && !d.noc.arrived.any (fun k => k.dstEp.val == e) then
    let d := match uldPort e with
      | some p => d.toLine p .fence
      | none => d
    (d.set (Reg.NOC_EP_STATE e) 2).onNoc (fun n => { n with toPower := insertOnce e n.toPower })
  else d

/-- R337: a slot's DRAINED reaches the power controller. -/
def drainedMessage (e : Nat) (d : Dev) : Dev :=
  if d.noc.toPower.contains e then
    d.onNoc (fun n => { n with toPower := n.toPower.filter (· != e), drained := insertOnce e n.drained })
  else d

/-- R324: a power-controller message is delivered at a slot. -/
def powerMessage (e : Nat) (v : BitVec 56) (d : Dev) : Dev :=
  d.onNoc (fun n => { n with powerSeen := update (fun _ => 0) n.powerSeen e v })

/-- R336: EPOCH reaches the injection point of slot e; FLIP_BUSY clears when the last one has switched. -/
def epochMessage (e : Nat) (d : Dev) : Dev :=
  if d.noc.unswitched.contains e then
    let d := d.onNoc (fun n => { n with unswitched := n.unswitched.filter (· != e) })
    if d.noc.unswitched.isEmpty then d.set Reg.NOC_EPOCH_FLIP_BUSY 0 else d
  else d

/-- R334: a write of CHECK starts the walk. -/
def checkStart (d : Dev) : Dev := d.set Reg.NOC_EPOCH_CHECK_BUSY 1

/-- R334: the walk of table k from router i towards endpoint e, with `fuel` hops left; `moved` says that it has moved +x, +y
or −y. A cause of R344, or none where it ends well. -/
def Dev.walk (d : Dev) (k : Bool) (e : Nat) : Nat → Nat → Bool → Option Nat
  | 0, i, _ =>
    match d.routeEntry i k e with
    | 0 => if 2 * i = e then none else some 4
    | 1 => if 2 * i + 1 = e then none else some 4
    | 7 => none
    | _ => some 1
  | fuel + 1, i, moved =>
    match d.routeEntry i k e with
    | 0 => if 2 * i = e then none else some 4
    | 1 => if 2 * i + 1 = e then none else some 4
    | 7 => none
    | 6 => some 2
    | n =>
      match neighbour i (n - 2) with
      | none => some 2
      | some r => if n = 3 then (if moved then some 3 else d.walk k e fuel r moved) else d.walk k e fuel r true

/-- R334: the first walk that fails, by router and then endpoint: router, endpoint, cause. -/
def Dev.checkTable (d : Dev) (k : Bool) : Option (Nat × Nat × Nat) :=
  (upFrom 0 48).findSome? (fun i =>
    ((upFrom 0 96).filter RegTable.occupied).findSome? (fun e => (d.walk k e 24 i false).map (fun c => (i, e, c))))

/-- R334, R345: the check of the inactive table ends. -/
def checkDone (d : Dev) : Dev :=
  if d.on Reg.NOC_EPOCH_CHECK_BUSY then
    let d := d.set Reg.NOC_EPOCH_CHECK_BUSY 0
    let d := match d.checkTable (!d.on Reg.NOC_EPOCH_CUR) with
      | none => d.set Reg.NOC_EPOCH_CHECK_OK 1
      | some (i, e, c) =>
        let d := ((d.set Reg.NOC_EPOCH_CHECK_OK 0).set Reg.NOC_EPOCH_CHECK_CAUSE c).set Reg.NOC_EPOCH_FAIL_ROUTER i
        (d.set Reg.NOC_EPOCH_FAIL_EP e).attend Reg.NOC_ATTN_CHECK_FAIL 0x640
    d.raise 0x642
  else d

/-- R336: a write of FLIP. -/
def flipEpoch (who : Accessor) (d : Dev) : Dev :=
  if d.on Reg.NOC_EPOCH_CHECK_OK && !d.on Reg.NOC_EPOCH_FLIP_BUSY then
    let d := (d.set Reg.NOC_EPOCH_CUR (1 - d.get Reg.NOC_EPOCH_CUR)).set Reg.NOC_EPOCH_FLIP_BUSY 1
    d.onNoc (fun n => { n with unswitched := (upFrom 0 96).filter RegTable.occupied, draining := true })
  else d.cfgReject who Reg.NOC_EPOCH_CMD_FLIP.off

/-- R336: the former epoch has no packet left in any router. -/
def epochDrained (d : Dev) : Dev :=
  if d.noc.draining && d.get (Reg.NOC_DRAIN_COUNT (1 - d.get Reg.NOC_EPOCH_CUR)) == 0 then
    (d.onNoc (fun n => { n with draining := false })).raise 0x641
  else d

/-- RD (R87). -/
def execRd (p : Packet) (owner : Owner) (s : State) : Host.Outcome State Fault Refusal :=
  s.onDevIf (p.is .rd) (readPacket p owner)
/-- WR (R87). -/
def execWr (p : Packet) (owner : Owner) (s : State) : Host.Outcome State Fault Refusal :=
  s.onDevIf (p.is .wr) (writePacket p owner)
/-- WRN (R86). -/
def execWrn (p : Packet) (owner : Owner) (s : State) : Host.Outcome State Fault Refusal :=
  s.onDevIf (p.is .wrn) (narrowPacket p owner)
/-- SWR (R328). -/
def execSwr (p : Packet) (owner : Owner) (s : State) : Host.Outcome State Fault Refusal :=
  s.onDevIf (p.is .swr) (writePacket p owner)
/-- RDATA (R118). -/
def execRdata (p : Packet) (owner : Owner) (s : State) : Host.Outcome State Fault Refusal :=
  s.onDevIf (p.is .rdata) (readData p owner)
/-- WACK (R328). -/
def execWack (p : Packet) (_owner : Owner) (s : State) : Host.Outcome State Fault Refusal :=
  s.onDevIf (p.is .wack) (writeAck p)
/-- SACK (R328). -/
def execSack (p : Packet) (_owner : Owner) (s : State) : Host.Outcome State Fault Refusal :=
  s.onDevIf (p.is .sack) (streamAck p)
/-- ERR (R340). -/
def execErrPacket (p : Packet) (owner : Owner) (s : State) : Host.Outcome State Fault Refusal :=
  s.onDevIf (p.is .err) (refusedAnswer p owner)
/-- NOTICE (R340). -/
def execNoticePacket (p : Packet) (owner : Owner) (s : State) : Host.Outcome State Fault Refusal :=
  s.onDevIf (p.is .notice) (refusedAnswer p owner)
/-- FENCE (R337). -/
def execFencePacket (slot : Fin 96) (link : Bool) (s : State) : Host.Outcome State Fault Refusal :=
  s.onDev (fenceSlot slot.val link)
/-- UNFENCE (R337). -/
def execUnfencePacket (slot : Fin 96) (link : Bool) (s : State) : Host.Outcome State Fault Refusal :=
  s.onDev (unfenceSlot slot.val link)
/-- DRAINED (R337). -/
def execDrainedPacket (slot : Fin 96) (s : State) : Host.Outcome State Fault Refusal := s.onDev (drainedMessage slot.val)
/-- POWER (R324). -/
def execPowerPacket (slot : Fin 96) (value : BitVec 56) (s : State) : Host.Outcome State Fault Refusal :=
  s.onDev (powerMessage slot.val value)
/-- EPOCH (R336). -/
def execEpochPacket (slot : Fin 96) (s : State) : Host.Outcome State Fault Refusal := s.onDev (epochMessage slot.val)
/-- SLOT_DRAINED (R337). -/
def execSlotDrained (slot : Fin 96) (s : State) : Host.Outcome State Fault Refusal := s.onDev (slotDrained slot.val)
/-- PACKET_ROUTE (R332). -/
def execPacketRoute (head : Head) (waited : Nat) (s : State) : Host.Outcome State Fault Refusal :=
  s.onDev (packetRoute head waited)
/-- AGE_QUANTUM (R331). -/
def execAgeQuantum (k : Nat) (s : State) : Host.Outcome State Fault Refusal := s.onDev (ageQuantum k)
/-- CHECK (R334). -/
def execNocCheck (who : Accessor) (s : State) : Host.Outcome State Fault Refusal :=
  s.onDev (fun d => d.secureOnly who Reg.NOC_EPOCH_CMD_CHECK.off checkStart)
/-- NOC_CHECK_DONE (R334). -/
def execNocCheckDone (s : State) : Host.Outcome State Fault Refusal := s.onDev checkDone
/-- FLIP (R336). -/
def execNocFlip (who : Accessor) (s : State) : Host.Outcome State Fault Refusal :=
  s.onDev (fun d => d.secureOnly who Reg.NOC_EPOCH_CMD_FLIP.off (flipEpoch who))
/-- NOC_EPOCH_DRAINED (R336). -/
def execNocEpochDrained (s : State) : Host.Outcome State Fault Refusal := s.onDev epochDrained

end Sys2Proof.Machine
end

