-- ==== Sys2Proof/Machine/Control.lean ====
section
/-! DEFINITION. Function control (R50–R57, R444): RUN with the start checks of every kind of function, the stops, and the end of the last
work in flight. -/

namespace Sys2Proof.Machine

/-! ### Start checks -/

/-- R53: is a carrier context's configuration in range for its RAT? -/
def Dev.carConfigOk (d : Dev) (c : Nat) : Bool :=
  let scs := d.get (Reg.JFE_CAR_CFG_SCS c)
  let bw := d.get (Reg.JFE_CAR_BW_KHZ c)
  let dl := d.get (Reg.JFE_CAR_NANT_DL c)
  let ul := d.get (Reg.JFE_CAR_NANT_UL c)
  let layers (n l most : Nat) : Bool := if n = 0 then l == 0 else decide (1 ≤ l) && decide (l ≤ min n most)
  (match d.get (Reg.JFE_CAR_CFG_RAT c) with
    | 0 => decide (scs ≤ 3) && decide (5000 ≤ bw) && decide (bw ≤ 100000)
    | 1 => scs == 0 && [1400, 3000, 5000, 10000, 15000, 20000].contains bw
    | 2 => scs == 0 && bw == 200
    | _ => scs == 0 && bw == 1400) &&
  decide (dl ≤ 64) && decide (ul ≤ 64) && (dl != 0 || ul != 0) && layers dl (d.get (Reg.JFE_CAR_LAYERS_DL c)) 16 &&
  layers ul (d.get (Reg.JFE_CAR_LAYERS_UL c)) 8

/-- R21, R22, R53: antenna streams and antenna·kHz of one direction over some contexts. -/
def Dev.envelope (d : Dev) (cs : List Nat) (up : Bool) : Nat × Nat :=
  let n (c : Nat) : Nat := if up then d.get (Reg.JFE_CAR_NANT_UL c) else d.get (Reg.JFE_CAR_NANT_DL c)
  ((cs.map n).sum, (cs.map (fun c => n c * d.get (Reg.JFE_CAR_BW_KHZ c))).sum)

/-- The carrier contexts in RUN. -/
def Dev.runCarriers (d : Dev) : List Nat := (upFrom 0 384).filter (fun c => d.running (carFn c))

/-- R53: the start checks of carrier context c. -/
def Dev.carCheck (d : Dev) (c : Nat) : Option Nat :=
  let fits (x : Nat × Nat) : Bool := decide (x.1 ≤ 512) && decide (x.2 ≤ 51200000)
  let cs := c :: d.runCarriers
  if !d.carConfigOk c then some 1
  else if fits (d.envelope cs false) && fits (d.envelope cs true) then none else some 8

/-- R56: the start checks of SQ n. -/
def Dev.sqCheck (d : Dev) (n : Nat) : Option Nat :=
  let k := d.get (Reg.JFE_SQ_CFG_LOG2SIZE n)
  let m := d.get (Reg.JFE_SQ_CFG_CQ n)
  if k < 4 ∨ 16 < k then some 1
  else if !d.running (.cq (Fin.ofNat 256 m)) || d.cqFunc m != d.sqFunc n then some 2
  else if d.mayMaster (d.sqFunc n) then none else some 3

/-- R56: the start checks of CQ m. -/
def Dev.cqCheck (d : Dev) (m : Nat) : Option Nat :=
  let k := d.get (Reg.JFE_CQ_CFG_LOG2SIZE m)
  if k < 4 ∨ 16 < k then some 1 else if d.mayMaster (d.cqFunc m) then none else some 3

/-- R368: the start check of lane l: the sum of its tap magnitudes. -/
def Dev.laneCheck (d : Dev) (l : Nat) : Option Nat :=
  let tap (f : Fld) : Nat := (signed (d.get f) 6).natAbs
  if 64 < tap (Reg.LANE_FFE_PRE2 l) + tap (Reg.LANE_FFE_PRE1 l) + d.get (Reg.LANE_FFE_MAIN l) + tap (Reg.LANE_FFE_POST1 l) then some 1
  else none

/-- R350, R362, R365: the start checks of Uldom port p. -/
def Dev.uldCheck (d : Dev) (p : Nat) : Option Nat :=
  if d.get (Reg.ULD_CFG_WIDTH p) = 3 ∨ d.bit Reg.LANE_REF_STATUS 2 = false ∨
      (d.on (Reg.ULD_CFG_SLEEP_EN p) = true ∧ d.get (Reg.ULD_REPLAY_TIMEOUT_NS p) < 4000) then some 1
  else if (d.activeLanes p).all (fun l => d.running (.lane (Fin.ofNat 56 l)) && d.get (Reg.LANE_CFG_TEST l) == 0) then none
  else some 5

/-- R129, R237: the self-test of a buffer. -/
def Dev.bufferCheck (d : Dev) (ctrl : Nat) : Option Nat := if d.outOfService ctrl then some 0x20 else none

/-- R443, R444: the power domain of a function; none for those of the base domain and the timebase island. -/
def fnDomain : Fn → Option Nat
  | .dmv _ => some 18
  | .erg e => some e.val
  | .mxe _ => some 13
  | .xfm _ => some 14
  | .code => some 15
  | .ciph => some 17
  | .brx _ => some 16
  | .dfeTx _ => some 16
  | .dfeRx _ => some 16
  | _ => none

/-- The start checks of a function: the FAULT code of the first that fails (R444 first). -/
def Dev.startCheck (d : Dev) (fn : Fn) : Option Nat :=
  let off := match fnDomain fn with
    | some k => !d.domainOn k
    | none => false
  if off then some 0x30
  else match fn with
    | .sq n => d.sqCheck n.val
    | .cq m => d.cqCheck m.val
    | .car c => d.carCheck c.val
    | .poller => none
    | .dmv ch => if d.mayMaster (d.get (Reg.DMV_CH_CFG_FUNC ch.val)) then none else some 3
    | .erg e => d.ergCheck e.val
    | .mxe m => d.bufferCheck (157 + m.val)
    | .xfm u => d.bufferCheck (161 + u.val)
    | .code => d.bufferCheck 193
    | .ciph => none
    | .brx b => d.brxCheck b.val
    | .dfeTx t => d.dfeTxCheck t.val
    | .dfeRx t => d.dfeRxCheck t.val
    | .probe p => let k := d.get (Reg.NOC_PROBE_TRACE_LOG2 p.val); if k < 4 ∨ 20 < k then some 1 else none
    | .lane l => d.laneCheck l.val
    | .uld p => d.uldCheck p.val
    | .tio i => d.tioCheck i.val
    | .servo => d.servoCheck
    | .eth n => d.ethCheck n.val

/-! ### What entering RUN and leaving it does -/

/-- R351: the power states of the Ethernet lanes: ON while the lane is in RUN and its port is not STOPPED. -/
def Dev.ethLanePower (d : Dev) : Dev :=
  d.each (upFrom 0 16) (fun d i =>
    let l := 16 + i
    let owned := (upFrom 0 16).any (fun n => decide (n ≤ i) && decide (i < n + d.portLanes n) && !d.stopped (ethFn n))
    let v := if owned && d.running (.lane (Fin.ofNat 56 l)) then 2 else 0
    (d.set (Reg.LANE_STATUS_TX_PWR l) v).set (Reg.LANE_STATUS_RX_PWR l) v)

/-- R56: SQ n enters RUN: its consumer count goes to the host, and its producer count is read once. -/
def Dev.sqStarts (d : Dev) (n : Nat) : Dev :=
  let d := d.onJfe (fun j =>
    { j with fetches := j.fetches.filter (fun x => x.1 != n), countReads := j.countReads.filter (· != n),
             known := j.known.filter (· != n), flagged := j.flagged.filter (· != n) })
  let d := d.writeSqCi n
  if d.power.paused then d.onJfe (fun j => { j with flagged := insertOnce n j.flagged }) else d.readCount n

/-- R57: CQ m enters RUN: its cached consumer count is its producer count. -/
def Dev.cqStarts (d : Dev) (m : Nat) : Dev :=
  d.onJfe (fun j => { j with cached := update (fun _ => 0) j.cached m (BitVec.ofNat 32 (d.get (Reg.JFE_CQ_PI m))),
                             ciReads := j.ciReads.filter (· != m), stalled := j.stalled.filter (· != m) })

/-- R362: Uldom port p enters RUN in DETECT: active lanes ON, a first training. -/
def Dev.uldStarts (d : Dev) (p : Nat) : Dev :=
  let d := d.onLink p (fun l => { LinkPort.reset with sentLine := l.sentLine, since := d.now })
  let d := ((d.set (Reg.ULD_STATE_TRAIN p) 1).set (Reg.ULD_STATE_PEER_VALID p) 0).set (Reg.ULD_STATE_REVERSED p) 0
  (d.setTxPower p 2).setRxPower p 2

/-- What a function's entry into RUN does besides its state. -/
def Dev.starts (d : Dev) (fn : Fn) : Dev :=
  match fn with
  | .sq n => d.sqStarts n.val
  | .cq m => d.cqStarts m.val
  | .erg e => d.ergStarts e.val
  | .brx b => d.brxStarts b.val
  | .dfeTx t => d.dfeTxStarts t.val
  | .dfeRx t => d.dfeRxStarts t.val
  | .lane _ => d.ethLanePower
  | .uld p => d.uldStarts p.val
  | .tio i => d.tioStarts i.val
  | .servo => d.dropSlew
  | .eth _ => d.ethLanePower
  | _ => d

/-- The jobs of a class of opcodes at a unit that are work in flight there. -/
def Job.worksAt (j : Job) (lo hi unit : Nat) : Bool :=
  decide (lo ≤ j.opcode) && decide (j.opcode < hi) && j.unit == unit && (j.phase == .queued || j.phase == .running)

/-- The same for a block whose jobs are in one queue. -/
def Job.worksIn (j : Job) (lo hi : Nat) : Bool :=
  decide (lo ≤ j.opcode) && decide (j.opcode < hi) && (j.phase == .queued || j.phase == .running)

/-- R53, R225, R362, R376: what leaving RUN does, whether the stop drains or aborts. -/
def Dev.leavesRun (d : Dev) (fn : Fn) (drain : Bool) : Dev :=
  match fn with
  | .car c => d.carrierLeaves c.val
  | .erg e => d.dropAffinity e.val
  | .dfeRx r => if drain then d.dfeRxDrains r.val else d
  | .uld p => d.uldLeavesRun p.val drain
  | .servo => d.servoStops
  | _ => d

/-- R51: what an abort does to the work in flight of a function. `ext` answers what it writes to the host or another device. -/
def Dev.abortWork (d : Dev) (fn : Fn) (ext : List Ext) : Dev :=
  match fn with
  | .sq n => d.stopJobs (fun j => j.sq == n.val) stABORTED
  | .car c => d.stopJobs (fun j => j.named && j.carrier == c.val) stABORTED
  | .dmv ch => d.stopJobs (fun j => j.worksAt 0xA0 0xB0 ch.val) stABORTED
  | .erg e => d.ergAbort e.val stABORTED
  | .mxe m => d.stopJobs (fun j => j.worksAt 0x10 0x30 m.val) stABORTED
  | .xfm u => d.stopJobs (fun j => j.worksAt 0x30 0x40 u.val) stABORTED
  | .code => d.stopJobs (fun j => j.worksIn 0x40 0x60) stABORTED
  | .ciph => d.stopJobs (fun j => j.worksIn 0x80 0xA0) stABORTED
  | .brx b => d.brxAbort b.val ext
  | .dfeTx t => d.dfeTxAbort t.val
  | .eth n => d.ethAbort n.val ext
  | _ => d

/-- R51: RUN to STOPPING. -/
def Dev.stops (d : Dev) (fn : Fn) (abort : Bool) (ext : List Ext) : Dev :=
  let d := (d.enterStopping fn abort).leavesRun fn (!abort)
  if abort then d.abortWork fn ext else d

/-- R51: STOP_ABORT while draining; a Uldom port's traffic ends (R364). -/
def Dev.abortsDrain (d : Dev) (fn : Fn) (ext : List Ext) : Dev :=
  let d := (d.set fn.abort 1).abortWork fn ext
  match fn with
  | .uld p => d.dropTraffic p.val
  | _ => d

/-! ### The end of the last work -/

/-- R101: is the job that halted channel ch still without its record? -/
def Dev.haltPending (d : Dev) (ch : Nat) : Bool :=
  d.jfe.jobs.any (fun j => decide (0xA0 ≤ j.opcode) && decide (j.opcode < 0xB0) && j.unit == ch && j.sq == d.get (Reg.DMV_CH_HALT_SQ ch) &&
    j.tag == d.get (Reg.DMV_CH_HALT_TAG ch) && (match j.phase with
      | .running => true
      | .ended => true
      | .taken => true
      | _ => false))

/-- R51: has the last work in flight of a function ended? -/
def Dev.fnIdle (d : Dev) (fn : Fn) : Bool :=
  let none_ (p : Job → Bool) : Bool := !d.jfe.jobs.any p
  match fn with
  | .sq n => none_ (fun j => j.sq == n.val)
  | .cq m => none_ (fun j => d.jobCq j == m.val)
  | .car c => none_ (fun j => j.named && j.carrier == c.val)
  | .dmv ch => if d.dmvHalted ch.val then !d.haltPending ch.val else none_ (fun j => j.worksAt 0xA0 0xB0 ch.val)
  | .erg e => !d.ergBusy e.val
  | .mxe m => none_ (fun j => j.worksAt 0x10 0x30 m.val)
  | .xfm u => none_ (fun j => j.worksAt 0x30 0x40 u.val)
  | .code => none_ (fun j => j.worksIn 0x40 0x60)
  | .ciph => none_ (fun j => j.worksIn 0x80 0xA0)
  | .brx b => d.brxIdle b.val
  | .dfeTx t => d.dfeTxIdle t.val
  | .dfeRx r => d.dfeRxIdle r.val
  | .uld p => let l := d.link p.val; l.tracked.isEmpty && l.queue.isEmpty && l.replay.isEmpty
  | .eth n => (d.port n.val).frames.isEmpty
  | _ => true

/-- R362: a drained link says BYE, eight times; the lanes go OFF. -/
def Dev.uldStopped (d : Dev) (p : Nat) (drained : Bool) : Dev :=
  let d := if drained then (upFrom 0 8).foldl (fun d _ => d.toLine p .bye) d else d
  let d := ((d.set (Reg.ULD_STATE_TRAIN p) 0).set (Reg.ULD_STATE_TX_SLEEP p) 0).set (Reg.ULD_STATE_RX_SLEEP p) 0
  ((d.setTxPower p 0).setRxPower p 0).onLink p (fun l => { l with wasActive := false, retraining := false })

/-- What a function's becoming STOPPED does besides its state. -/
def Dev.isStopped (d : Dev) (fn : Fn) : Dev :=
  match fn with
  | .uld p => d.uldStopped p.val ((d.link p.val).wasActive && !d.on fn.abort && d.get fn.fault == 0)
  | .eth n => (d.enterStopped fn).linkBitsOff n.val |>.ethLanePower
  | .lane l => (d.set (Reg.LANE_STATUS_PRBS_LOCK l.val) 0).ethLanePower
  | _ => d

/-- R51: a STOPPING function whose last work has ended becomes STOPPED. -/
def lastWorkEnded (fn : Fn) (d : Dev) : Dev :=
  if d.stopping fn && d.fnIdle fn then (d.isStopped fn).enterStopped fn else d

/-! ### Commands -/

/-- R48: the function a ring belongs to, where a function is a ring. -/
def Dev.ringOwner (d : Dev) : Fn → Option Nat
  | .sq n => some (d.sqFunc n.val)
  | .cq m => some (d.cqFunc m.val)
  | _ => none

/-- R47, R48: does an accessor reach the control register of a function? A VF reaches those of its own rings. -/
def Dev.controls (d : Dev) (who : Accessor) (fn : Fn) : Bool :=
  d.served who fn.ctl.off && (wholeMap who || match who with
    | .func f => d.ringOwner fn == some f.val
    | _ => true)

/-- R352: a PCIe lane is no function: what is written to it is ignored. -/
def notAFunction : Fn → Bool
  | .lane l => decide (l.val < 16)
  | _ => false

/-- A command to a function, where it is one and the accessor reaches it. -/
def Dev.commanded (d : Dev) (who : Accessor) (fn : Fn) (f : Dev → Dev) : Dev :=
  if !d.controls who fn || notAFunction fn then d else f d

/-- R51: RUN. -/
def runFn (who : Accessor) (fn : Fn) (d : Dev) : Dev :=
  if !d.stopped fn then d.cfgReject who fn.ctl.off
  else match d.startCheck fn with
    | some code => d.startFails fn code
    | none => (d.enterRun fn).starts fn

/-- R56: may a function be stopped now: a CQ only while every SQ that names it is STOPPED? -/
def Dev.mayStop (d : Dev) : Fn → Bool
  | .cq m => (upFrom 0 256).all (fun n => d.get (Reg.JFE_SQ_CFG_CQ n) != m.val || d.stopped (.sq (Fin.ofNat 256 n)))
  | _ => true

/-- R101: a STOP command to a halted channel is ignored. -/
def Dev.haltedChannel (d : Dev) : Fn → Bool
  | .dmv ch => d.dmvHalted ch.val
  | _ => false

/-- R51, R352: a stop accepted in RUN; a lane's completes at once. -/
def Dev.stopsNow (d : Dev) (fn : Fn) (abort : Bool) (ext : List Ext) : Dev :=
  match fn with
  | .lane _ => (d.enterStopped fn).isStopped fn
  | _ => d.stops fn abort ext

/-- R51: STOP_DRAIN. -/
def stopDrainFn (who : Accessor) (fn : Fn) (d : Dev) : Dev :=
  if d.stopped fn || d.haltedChannel fn then d
  else if d.running fn && d.mayStop fn then d.stopsNow fn false []
  else d.cfgReject who fn.ctl.off

/-- R51: STOP_ABORT. -/
def stopAbortFn (who : Accessor) (fn : Fn) (ext : List Ext) (d : Dev) : Dev :=
  if d.stopped fn || d.haltedChannel fn then d
  else if !d.mayStop fn then d.cfgReject who fn.ctl.off
  else if d.running fn then d.stopsNow fn true ext
  else if d.on fn.abort then d.cfgReject who fn.ctl.off
  else d.abortsDrain fn ext

/-- RUN (R51). -/
def execRun (who : Accessor) (fn : Fn) (s : State) : Host.Outcome State Fault Refusal :=
  s.onDev (fun d => d.commanded who fn (runFn who fn))
/-- STOP_DRAIN (R51). -/
def execStopDrain (who : Accessor) (fn : Fn) (s : State) : Host.Outcome State Fault Refusal :=
  s.onDev (fun d => d.commanded who fn (stopDrainFn who fn))
/-- STOP_ABORT (R51). -/
def execStopAbort (who : Accessor) (fn : Fn) (ext : List Ext) (s : State) : Host.Outcome State Fault Refusal :=
  s.onDev (fun d => d.commanded who fn (stopAbortFn who fn ext))
/-- LAST_WORK_ENDED (R51). -/
def execLastWorkEnded (fn : Fn) (s : State) : Host.Outcome State Fault Refusal := s.onDev (lastWorkEnded fn)

/-! ### Function-level reset and loss of Bus Master Enable (R79, R80) -/

/-- R80: every ring of function f that is not STOPPED stops as by STOP_ABORT with FAULT BME, and so does a data-mover channel (R101). -/
def Dev.faultAbort (d : Dev) (fn : Fn) (ext : List Ext) : Dev :=
  if d.stopped fn then d
  else
    let was := d.running fn
    let d := d.set fn.fault 3
    let d := if was then d.stops fn true ext else if d.on fn.abort then d else d.abortsDrain fn ext
    d.fnAttend fn

/-- The rings and channels of function f. -/
def Dev.masters (d : Dev) (f : Nat) : List Fn :=
  ((upFrom 0 256).filter (fun n => d.sqFunc n == f)).map (fun n => Fn.sq (Fin.ofNat 256 n)) ++
  ((upFrom 0 64).filter (fun c => d.get (Reg.DMV_CH_CFG_FUNC c) == f)).map (fun c => Fn.dmv (Fin.ofNat 64 c)) ++
  ((upFrom 0 256).filter (fun m => d.cqFunc m == f)).map (fun m => Fn.cq (Fin.ofNat 256 m))

/-- R80: Bus Master Enable of function f is cleared. -/
def busMasterClear (f : Nat) (d : Dev) : Dev :=
  let d := d.onJfe (fun j => { j with busMaster := j.busMaster &&& ~~~(BitVec.ofNat 64 (2 ^ f)) })
  let d := d.each (d.masters f) (fun d fn => d.faultAbort fn [])
  d.each ((upFrom 0 256).filter (fun m => d.cqFunc m == f)) Dev.flush

/-- BUS_MASTER_ENABLE_CLEAR (R80). -/
def execBusMasterEnableClear (f : Fin 64) (s : State) : Host.Outcome State Fault Refusal := s.onDev (busMasterClear f.val)

/-- Register words set back to their reset values. -/
def Dev.resetWords (d : Dev) (offs : List Nat) : Dev := d.each offs (fun d o => d.setWord o (regReset o))

/-- R79 steps 1 and 3: a ring of the reset function: STOPPED, every register at its reset value, except CFG.FUNC. -/
def Dev.resetRing (d : Dev) (base : Nat) (func : Fld) : Dev :=
  let f := d.get func
  (d.resetWords ((upFrom 0 16).map (fun k => base + 4 * k))).set func f

/-- R79 steps 1 and 3: the rings of function f. -/
def Dev.resetRings (d : Dev) (f : Nat) : Dev :=
  let sqs := (upFrom 0 256).filter (fun n => d.sqFunc n == f)
  let cqs := (upFrom 0 256).filter (fun m => d.cqFunc m == f)
  let d := d.each sqs (fun d n =>
    (d.resetRing (Reg.JFE_SQ_CTL n).off (Reg.JFE_SQ_CFG_FUNC n)).onJfe (fun j =>
      { j with fetches := j.fetches.filter (fun x => x.1 != n), countReads := j.countReads.filter (· != n),
               known := j.known.filter (· != n), flagged := j.flagged.filter (· != n) }))
  let d := d.each cqs (fun d m =>
    (d.resetRing (Reg.JFE_CQ_CTL m).off (Reg.JFE_CQ_CFG_FUNC m)).onJfe (fun j =>
      { j with cached := update (fun _ => 0) j.cached m 0, ciReads := j.ciReads.filter (· != m), stalled := j.stalled.filter (· != m) }))
  d.each (sqs ++ cqs) (fun d n => d.relevel (0x440 + n))

/-- R79 step 4: the contexts of receiver b end without reports, and its quiet windows end. -/
def Dev.brxSilence (d : Dev) (b : Nat) : Dev :=
  let d := d.each (d.brxActive b) (fun d k =>
    let slot := d.get (Reg.BRX_CTX_SLOT b k)
    ((d.set (Reg.BRX_CTX_STATE b k) 0).setBrxCtx b k { d.brxCtx b k with ended := some d.now }).thaw b slot)
  d.stopJobs (fun j => j.opcode == 0x61 && j.phase == .running && j.bits 32 0 4 == b) stABORTED

/-- R79 step 5: an Ethernet port discards its queues and writes no ring entry. -/
def Dev.ethSilence (d : Dev) (n : Nat) : Dev :=
  let k := (d.port n).frames.length
  let d := (d.onPort n (fun p => { p with frames := [] })).add (Reg.ETH_PORT_ABORT_DROPS n) k
  d.each (upFrom 0 8) (fun d q => d.showQueue n q)

/-- R79 steps 4 and 5: a function of the reset PCIe function stops as by STOP_ABORT, and writes nothing more as it. -/
def Dev.flrStop (d : Dev) (fn : Fn) : Dev :=
  if d.stopped fn then d
  else
    let was := d.running fn
    let d := if was then (d.enterStopping fn true).leavesRun fn false else d.set fn.abort 1
    match fn with
    | .brx b => d.brxSilence b.val
    | .eth n => d.ethSilence n.val
    | _ => d.abortWork fn []

/-- R79: the functions of PCIe function f other than rings. -/
def Dev.owned (d : Dev) (f : Nat) : List Fn :=
  let sel (n : Nat) (g : Nat → Fld) : List Nat := (upFrom 0 n).filter (fun i => d.get (g i) == f)
  (sel 384 Reg.JFE_CAR_CFG_FUNC).map carFn ++ (sel 64 Reg.DMV_CH_CFG_FUNC).map (fun c => Fn.dmv (Fin.ofNat 64 c)) ++
  (sel 16 Reg.BRX_CFG_FUNC).map brxFn ++ (sel 128 Reg.DFE_TX_CFG_FUNC).map dfeTxFn ++ (sel 128 Reg.DFE_RX_CFG_FUNC).map dfeRxFn ++
  (if f = 0 then Fn.poller :: (upFrom 0 16).map (fun p => Fn.probe (Fin.ofNat 16 p)) ++ (upFrom 0 16).map ethFn else [])

/-- R229: the resident entries of function f become FREE; a core that runs one is forced (R228). -/
def Dev.freeResidents (d : Dev) (f : Nat) : Dev :=
  d.each (d.tsu.tasks.filter (fun t => t.2.state != .free && t.2.func == f)) (fun d t =>
    let d := match t.2.core with
      | some c => if t.2.state == TaskState.running || t.2.state == TaskState.aborting then (d.cxDiscard c).forceEnd c else d
      | none => d
    d.freeTask t.1)

/-- R414: desk f's counters and attention bits clear. -/
def Dev.clearDesk (d : Dev) (f : Nat) : Dev :=
  (d.resetWords [(Reg.CIPH_DESK_JOBS f).off, (Reg.CIPH_DESK_TAG_FAILS f).off, (Reg.CIPH_DESK_WORLD_VIOLS f).off,
    (Reg.CIPH_DESK_ATTN f).off]).relevel 0x611

end Sys2Proof.Machine
end

