-- ==== Sys2Proof/Machine/Reset.lean ====
section
/-! DEFINITION. What a loss of power and the cold and warm resets do to the state of the device (R446, R456, R467, R468), and the event log of
the oasis domain (R481). -/

namespace Sys2Proof.Machine

/-- The power controller's data replaced. -/
def Dev.onPower (d : Dev) (f : PowerState → PowerState) : Dev := { d with power := f d.power }
/-- The boot data replaced. -/
def Dev.onBoot (d : Dev) (f : BootState → BootState) : Dev := { d with boot := f d.boot }
/-- The event fabric's data replaced. -/
def Dev.onEvt (d : Dev) (f : EvtState → EvtState) : Dev := { d with evt := f d.evt }

/-- An attention bit of PWR_ATTN. -/
def Dev.pwrAttend (d : Dev) (bit : Nat) : Dev := d.attend ⟨Reg.PWR_ATTN.off, bit, 1⟩ 0x7CE

/-- R481: an entry of the event log, which holds the last 1,024. TIME is short time while the timebase runs, else coarse time. -/
def Dev.logEntry (d : Dev) (event : Nat) (world : Bool) (kind detail inflight : Nat) : Dev :=
  let seq := d.get Reg.EVT_LOG_HEAD
  let fine := d.timeRuns
  let time := if fine then d.now.toNat else d.time.coarse % 2 ^ 63
  let v := seq + event % 2 ^ 11 * 2 ^ 32 + b2n world * 2 ^ 43 + kind * 2 ^ 44 + b2n fine * 2 ^ 48 + time * 2 ^ 64 + detail % 2 ^ 32 * 2 ^ 128 +
    inflight % 2 ^ 32 * 2 ^ 160
  let xs := d.evt.log ++ [BitVec.ofNat 192 v]
  (d.onEvt (fun e => { e with log := xs.drop (xs.length - 1024) })).set Reg.EVT_LOG_HEAD (seq + 1)

/-- R446, R468: everything outside the oasis domain and the registers that `keep` names is as after reset. What has gone out stays
gone out; memory is dealt with apart. A warm reset leaves the timebase island, the root and blob keys and repairs of HBM. -/
def Dev.blank (d : Dev) (keep : Nat → Bool) (warm : Bool) : Dev :=
  let z := Dev.reset
  { z with
    mem := d.mem
    regs := d.regs.filter (fun x => keep x.1)
    out := d.out
    evt := { z.evt with log := d.evt.log }
    ram := { z.ram with repairs := if warm then d.ram.repairs else [] }
    power := { z.power with
      retain := d.power.retain, sigs := d.power.sigs, flags := d.power.flags, wakeLow := d.power.wakeLow, linkWake := d.power.linkWake,
      tripLow := d.power.tripLow }
    boot := d.boot
    links := (d.links.map (fun x => (x.1, { LinkPort.reset with sentLine := x.2.sentLine }))).filter (fun x => x.2 != LinkPort.reset)
    eth := { z.eth with ports := (d.eth.ports.map (fun x => (x.1, { EthPort.reset with wire := x.2.wire }))).filter (fun x => x.2 != EthPort.reset) }
    sec := { z.sec with
      drawers := d.sec.drawers.map (fun x => (x.1, { x.2 with uses := 0 })), rootKey := d.sec.rootKey,
      ownerLocked := d.sec.ownerLocked, svnSs := d.sec.svnSs, svnNs := d.sec.svnNs, revoked := d.sec.revoked }
    time := if warm then d.time else { z.time with coarse := d.time.coarse, coarseAlone := d.time.coarseAlone }
    free := d.free }

/-- R435: SEC_STATUS.LOADED shows the drawers loaded. -/
def Dev.showLoaded (d : Dev) : Dev := d.set Reg.SEC_STATUS_LOADED (d.sec.drawers.filter (fun y => y.2.loaded)).length

/-- R465, R468, R486: the register words that live through every loss of power: PWR_SUPPLY, the wake record, EVT_LOG_HEAD and
TB_COARSE.VALID. -/
def oasisWord (off : Nat) : Bool := [0x300018, 0x30001C, 0x300020, 0x300030, 0x200000, 0x4000B8].contains off

/-- The words that a warm reset keeps besides: those of the timebase island (R372), GLB_ID (R353), and HBM training and repairs (R468). -/
def warmWord (off : Nat) : Bool :=
  off == 0 || (decide (0x400000 ≤ off) && decide (off < 0x500000)) ||
  (decide (0xA01000 ≤ off) && decide (off < 0xA03000) &&
    (let o := off % 0x1000
     (decide (4 ≤ o) && decide (o < 0x10)) || (decide (0x100 ≤ o) && o % 0x20 == 0x10)))

/-- R379: the full time that the coarse counter tells, in units of 2^-16 ns. -/
def fullOfCoarse (c : Nat) : Nat := c * 10 ^ 9 * 2 ^ 16 / 2 ^ 15

/-- R376, R379: time at a cold boot: short time 0, full time from the coarse counter, which has counted `ran` periods since it was
last reloaded. -/
def Dev.coldTime (d : Dev) (ran : Nat) : Dev :=
  if d.on Reg.TB_COARSE_VALID then
    let c := d.time.coarse + ran
    let d := d.onTime (fun t => { t with coarse := c, coarseAlone := false, full := fullOfCoarse c })
    (d.set Reg.TB_COARSE_ELAPSED_S (ran / 32768)).set Reg.TB_STATE_STATE tsCOARSE
  else (d.onTime (fun t => { t with coarse := 0, coarseAlone := false, full := 0 })).set Reg.TB_STATE_STATE tsFREE

/-- R353, R333: the device ID, and the default device table that follows from it. -/
def Dev.sampleId (d : Dev) (n : Nat) : Dev := (d.set Reg.GLB_ID_DEVID n).setWord 0x800020 (BitVec.ofNat 32 (RegTable.deviceTable n))

/-- A boot is due (R467); the device is held from here until BOOT_SEQUENCE. -/
def Dev.bootDue (d : Dev) (cold : Bool) (cause : Nat) : Dev :=
  (d.onBoot (fun b => { b with powered := true, due := some cold, cause := cause, input := none, seenHigh := if cold then b.perst else b.seenHigh }))

/-- R467, R468: a cold reset. -/
def Dev.coldReset (d : Dev) (cause ran : Nat) : Dev :=
  let d := (((d.blank oasisWord false).set Reg.PWR_WAKE_REC_LOST_EDGES 0).showLoaded).coldTime ran
  d.bootDue true cause

/-- The same where nothing tells how long the coarse counter has run: the count is open, and below a second if the timebase ran
(R379). -/
def Dev.coldResetUntimed (d : Dev) (cause : Nat) : Dev :=
  let (x, d) := d.draw
  let was := d.timeRuns
  let d := if was && d.on Reg.TB_COARSE_VALID then d.onTime (fun t => { t with coarse := t.full / secondUnits * 32768 }) else d
  d.coldReset cause (if was then x.toNat % 32768 else x.toNat)

/-- R467, R468, R372, R376: a warm reset. -/
def Dev.warmReset (d : Dev) (cause : Nat) : Dev :=
  let d := ((d.blank (fun o => oasisWord o || warmWord o) true).set Reg.PWR_WAKE_REC_LOST_EDGES 0).showLoaded
  let d := d.sampleId (d.get Reg.GLB_ID_DEVID)
  let d := (if d.stopped .servo then d else d.servoStops.enterStopped .servo).relevel 0x741
  d.bootDue false cause

/-- R467: a reset cause of a warm boot: a cold boot that is due or under way begins again as a cold one. -/
def Dev.warmCause (d : Dev) (cause : Nat) : Dev :=
  match d.boot.due with
  | some true => d.coldResetUntimed d.boot.cause
  | _ => d.warmReset cause

end Sys2Proof.Machine
end

