-- ==== Sys2Proof/Machine/Power.lean ====
section
/-! DEFINITION. The power controller and the oasis sequencer: supplies (R439–R442), domains (R443–R446), device states and requests
(R447–R450), wake (R451–R453), chest banks (R454, R455), power failure (R456), the charger (R457), and temperature (R458–R464). -/

namespace Sys2Proof.Machine

/-! ### Chest banks (R430, R454, R455) -/

/-- The first word of chest bank k, mesa bank 32 + k. -/
def chestWord (k : Nat) : Nat := (Region.mesa (32 + k)).firstWord

/-- A region filled with zero, its trackers emptied (R445). -/
def Dev.zeroRegion (d : Dev) (r : Region) : Dev := (d.zeroWords r.firstWord r.words).setTracker r.ctrl []

/-- R454: one bit through the CRC-64 register. -/
def crcBit (c : Nat) (b : Bool) : Nat :=
  let x := c * 2 % 2 ^ 64
  if bitOf c 63 != b then Nat.xor x 0x42F0E1EBA9EA3693 else x

/-- R454: the 80 stored bits of a word, data then check bits, most significant first. -/
def crcWord (c raw : Nat) : Nat :=
  let bits (lo n : Nat) : List Bool := ((upFrom 0 n).map (fun k => bitOf raw (lo + k))).reverse
  (bits 0 72 ++ bits 72 8).foldl crcBit c

/-- R454: the signature of chest bank k. -/
def Dev.chestSignature (d : Dev) (k : Nat) : BitVec 64 :=
  BitVec.ofNat 64 ((upFrom (chestWord k) (Region.mesa (32 + k)).words).foldl (fun c w => crcWord c (d.raw w)) 0)

/-- R430: the worlds of the two granules of chest bank k. -/
def Dev.chestWorlds (d : Dev) (k : Nat) : BitVec 2 :=
  let w := chestWord k
  BitVec.ofNat 2 (b2n (d.secureWord (.mesa (32 + k)) w) + 2 * b2n (d.secureWord (.mesa (32 + k)) (w + 65536)))

/-- The chest banks selected by the bits of a number. -/
def chestBanks (m : Nat) : List Nat := (upFrom 0 8).filter (bitOf m)

/-- R454: the chest banks leave ON: kept banks enter RETAIN, with a signature if `sign`; the others go OFF. -/
def Dev.chestEnters (d : Dev) (keep : Nat) (sign : Bool) : Dev :=
  let sigs := if sign then (chestBanks keep).map (fun k => (k, d.chestSignature k, d.chestWorlds k)) else []
  let d := d.each (chestBanks (255 - keep % 256)) (fun d k => d.zeroRegion (.mesa (32 + k)))
  d.onPower (fun p => { p with retain := BitVec.ofNat 8 keep, sigs := sigs, flags := 0 })

/-- R455: is chest bank k lost: by its monitor's flag, by its signature, or for want of one? -/
def Dev.chestLost (d : Dev) (k : Nat) : Bool :=
  d.power.flags.getLsbD k ||
    (match d.power.sigs.find? (fun x => x.1 == k) with
      | some x => d.chestSignature k != x.2.1
      | none => true)

/-- R455: chest bank k returns. -/
def Dev.chestReturns (d : Dev) (k : Nat) : Dev :=
  if d.chestLost k then
    ((d.zeroRegion (.mesa (32 + k))).setBit Reg.PWR_CHEST_RETAIN_LOST k).pwrAttend 3
  else d

/-- R455: every retained bank returns; the others are as they were filled. -/
def Dev.chestBack (d : Dev) : Dev :=
  let kept := d.power.retain.toNat
  let d := d.set Reg.PWR_CHEST_MON_FLAG (d.power.flags &&& d.power.retain).toNat
  let d := d.each (chestBanks kept) Dev.chestReturns
  d.onPower (fun p => { p with retain := 0, sigs := [], flags := 0 })

/-! ### Domains (R443–R446) -/

/-- R321, R443: the slots of domain k. -/
def domainSlots (k : Nat) : List Nat :=
  if k < 13 then [ergEndpoint k]
  else if k = 13 then (upFrom 0 4).map mxeEndpoint ++ (upFrom 0 4).map (fun m => mxeEndpoint m + 1)
  else if k = 14 then (upFrom 0 8).map xfmEndpoint
  else if k = 15 then [8]
  else if k = 16 then [83]
  else if k = 17 then [84, 90]
  else if k = 18 then [92, 94]
  else if k = 19 then (upFrom 0 8).map mesaEndpoint
  else if k = 20 then (upFrom 8 2).map mesaEndpoint
  else if k = 21 then (upFrom 0 4).map (hbmEndpoint 0) ++ (upFrom 0 4).map (hbmEndpoint 1)
  else []

/-- R89, R443: the memories of domain k, chest banks apart. -/
def domainRegions (k : Nat) : List Region :=
  if k < 13 then (upFrom (8 * k) 8).map (fun c => Region.core c false) ++ (upFrom (8 * k) 8).map (fun c => Region.core c true) ++ [.erg k]
  else if k = 13 then (upFrom 0 4).map Region.mxe
  else if k = 14 then (upFrom 0 32).map Region.xfm
  else if k = 15 then [.code]
  else if k = 16 then [.brxDfe]
  else if k = 19 then (upFrom 0 32).map Region.mesa
  else if k = 21 then [.hbm 0, .hbm 1]
  else []

/-- R443: has domain k a RETAIN state? -/
def hasRetain (k : Nat) : Bool := decide (k < 13) || [19, 20, 21].contains k

/-- R444: the functions of domain k. -/
def domainFns (k : Nat) : List Fn :=
  if k < 13 then [ergFn k]
  else if k = 13 then (upFrom 0 4).map mxeFn
  else if k = 14 then (upFrom 0 32).map xfmFn
  else if k = 15 then [.code]
  else if k = 16 then (upFrom 0 16).map brxFn ++ (upFrom 0 128).map dfeTxFn ++ (upFrom 0 128).map dfeRxFn
  else if k = 17 then [.ciph]
  else if k = 18 then (upFrom 0 64).map (fun c => Fn.dmv (Fin.ofNat 64 c))
  else []

/-- The state of domain k. -/
def Dev.domState (d : Dev) (k : Nat) : Nat := d.get (Reg.PWR_DOM_STATE k)

/-- R445 Down 2: has every slot of domain k reported DRAINED? -/
def Dev.domainDrained (d : Dev) (k : Nat) : Bool :=
  (domainSlots k).all (fun e => d.slotState e == 3 || (d.slotState e == 2 && d.noc.drained.contains e))

/-- R96: what a change of the HBM domain shows of stack s: 0 OFF, 2 READY, 3 SELF_REFRESH; a stack out of service stays so. -/
def Dev.showStack (d : Dev) (st s : Nat) : Dev :=
  let d := if st = 1 ∧ d.get (Reg.HBM_STACK_STATE s) ≠ 4 then d.setBit Reg.HBM_STATUS_SELF_REFRESH s
    else d.clearBit Reg.HBM_STATUS_SELF_REFRESH s
  if d.get (Reg.HBM_STACK_STATE s) = 4 then d
  else
    let d := d.set (Reg.HBM_STACK_STATE s) (if st = 0 then 2 else if st = 1 then 3 else 0)
    if st = 2 then d.clearBit Reg.HBM_STATUS_READY s else d.setBit Reg.HBM_STATUS_READY s

/-- R125: a stack without power loses its soft repairs. -/
def Dev.stackOff (d : Dev) (s : Nat) : Dev :=
  (d.onRam (fun m => { m with repairs := m.repairs.filter (fun x => x.1 != s) })).set (Reg.HBM_STACK_REPAIRS s) 0

/-- R443, R445, R454: the memories of domain k as it goes from one state to another. -/
def Dev.domainMemory (d : Dev) (k old new : Nat) : Dev :=
  let d := if new = 2 ∧ old ≠ 2 then d.each (domainRegions k) Dev.zeroRegion else d
  if k = 20 then
    if new = 0 then d.chestBack
    else if new = 1 then d.chestEnters (d.get Reg.PWR_CHEST_KEEP) true
    else d.chestEnters 0 true
  else if k = 21 then
    let d := if new = 2 then d.each (upFrom 0 2) Dev.stackOff else d
    d.each (upFrom 0 2) (fun d s => d.showStack new s)
  else d

/-- R337, R445: the slots of domain k: without power ABSENT; with power again DRAINED, and then OPEN by UNFENCE. -/
def Dev.domainFence (d : Dev) (k new : Nat) : Dev :=
  d.each (domainSlots k) (fun d e =>
    if new = 0 then (if d.slotState e = 3 then unfenceSlot e false (d.set (Reg.NOC_EP_STATE e) 2) else d)
    else (d.set (Reg.NOC_EP_STATE e) 3).onNoc (fun n => { n with drained := n.drained.filter (· != e), toPower := n.toPower.filter (· != e) }))

/-- R445: domain k takes a new state. -/
def Dev.domainMoves (d : Dev) (k new : Nat) : Dev :=
  let old := d.domState k
  if old = new then d
  else
    let d := ((d.set (Reg.PWR_DOM_STATE k) new).domainMemory k old new).domainFence k new
    d.onPace (fun p => { p with broken := if new = 0 then p.broken else insertOnce k p.broken })

/-- R446: the state of domain k in a device state (0 ACTIVE, 1 STANDBY, 2 DORMANT, 3 BACKUP, 4 OFF): of the table's state and the
host's, the one of lower power. -/
def Dev.domainIn (d : Dev) (st k : Nat) : Nat :=
  let req := if k < 22 then d.get (Reg.PWR_DOM_REQ k) else 0
  let chest := if d.get Reg.PWR_CHEST_KEEP = 0 then 2 else 1
  let table :=
    if st = 0 then 0
    else if st = 1 then (if k < 13 ∨ k = 21 then 1 else 0)
    else if st = 2 then (if k = 20 then chest else if k = 21 ∨ k = 22 then 1 else if k = 23 then 0 else 2)
    else (if k = 20 then chest else 2)
  max table req

/-! ### Requests and transitions (R447–R450) -/

/-- R448: is CRIT or HBM_CRIT set? -/
def Dev.critical (d : Dev) : Bool := d.on Reg.PWR_THERM_CRIT || d.on Reg.PWR_THERM_HBM_CRIT

/-- R448 rule 7: does a thermal DORMANT wait as the pending request? -/
def Dev.thermalPending (d : Dev) : Bool :=
  d.on Reg.PWR_STATUS_PENDING && d.get Reg.PWR_STATUS_PENDING_TARGET == 2 && d.power.pendCause == 2

/-- No request is pending. -/
def Dev.noPending (d : Dev) : Dev :=
  (((d.set Reg.PWR_STATUS_PENDING 0).set Reg.PWR_STATUS_HELD 0).set Reg.PWR_STATUS_PENDING_TARGET 0).onPower
    (fun p => { p with pendCause := 0, pendCode := none })

/-- R448: the pending request, if there is one, is discarded and counted in REPLACED. -/
def Dev.discardPending (d : Dev) : Dev := if d.on Reg.PWR_STATUS_PENDING then (d.bump Reg.PWR_STATUS_REPLACED).noPending else d

/-- R448 rule 4: a request becomes the pending one. -/
def Dev.pend (d : Dev) (target cause : Nat) (code : Option (Nat × ShortTime)) (held : Bool) : Dev :=
  let d := d.discardPending
  let d := ((d.set Reg.PWR_STATUS_PENDING 1).set Reg.PWR_STATUS_HELD (b2n held)).set Reg.PWR_STATUS_PENDING_TARGET target
  d.onPower (fun p => { p with pendCause := cause, pendCode := code })

/-- R453: the wake record. -/
def Dev.recordWake (d : Dev) : Option (Nat × ShortTime) → Dev
  | some (c, t) => (d.set Reg.PWR_WAKE_REC_SOURCE c).set64 Reg.PWR_WAKE_REC_TIME t.toNat
  | none => d

/-- R449, R450: is a transition from one state to another an entry? -/
def isEntry (from_ target : Nat) : Bool := !(target == 0 || (from_ == 2 && target == 1))

/-- The present state of the device. -/
def Dev.devState (d : Dev) : Nat := d.get Reg.PWR_STATUS_STATE

/-- Is an entry in progress? -/
def Dev.entering (d : Dev) : Bool := d.on Reg.PWR_STATUS_IN_PROGRESS && isEntry d.devState (d.get Reg.PWR_STATUS_TARGET)

/-- R444: domain changes under way are overtaken by a device transition. -/
def Dev.dropDomainChanges (d : Dev) : Dev :=
  (d.each (upFrom 0 22) (fun d k => d.set (Reg.PWR_DOM_BUSY k) 0)).onPower (fun p => { p with domTarget := [] })

/-- R448, R449 step 1, R450, R453: a transition starts. -/
def Dev.startTransition (d : Dev) (target cause : Nat) (code : Option (Nat × ShortTime)) : Dev :=
  let from_ := d.devState
  let d := ((d.set Reg.PWR_STATUS_TARGET target).set Reg.PWR_STATUS_IN_PROGRESS 1).set Reg.PWR_STATUS2_LAST_CAUSE cause
  let d := d.dropDomainChanges.onPower (fun p => { p with cause := cause })
  if isEntry from_ target then
    if from_ = 0 then d.onPower (fun p => { p with paused := true, drainFrom := some d.now }) else d
  else d.recordWake code

/-- R448 rules 2 to 5 and 7: a request for a state, with its cause and, if it is for ACTIVE by software or a wake, its wake code. -/
def powerRequest (target cause : Nat) (code : Option Nat) (d : Dev) : Dev :=
  let note := code.map (fun c => (c, d.now))
  let low := decide (target ≤ 1)
  if !d.ready || decide (3 ≤ d.devState) then d
  else if low && d.thermalPending then d.bump Reg.PWR_STATUS_REPLACED
  else if low && d.critical then (d.pend target cause note true).recordWake note
  else if !d.on Reg.PWR_STATUS_IN_PROGRESS then (if target = d.devState then d else d.startTransition target cause note)
  else if target = d.get Reg.PWR_STATUS_TARGET then (d.bump Reg.PWR_STATUS2_MERGED).discardPending
  else if target = 2 ∧ d.thermalPending = true then d.bump Reg.PWR_STATUS2_MERGED
  else d.pend target cause note false

/-- R448 rule 5: the pending request starts, or merges if it names the present state. -/
def Dev.goPending (d : Dev) : Dev :=
  let target := d.get Reg.PWR_STATUS_PENDING_TARGET
  let cause := d.power.pendCause
  let code := d.power.pendCode
  let d := d.noPending
  if target = d.devState then d.bump Reg.PWR_STATUS2_MERGED else d.startTransition target cause code

/-- R448 rule 7: CRIT or HBM_CRIT sets. -/
def Dev.critSets (d : Dev) : Dev :=
  let d := d.discardPending
  if 3 ≤ d.devState then d
  else if d.on Reg.PWR_STATUS_IN_PROGRESS then
    if d.get Reg.PWR_STATUS_TARGET = 2 then d.bump Reg.PWR_STATUS2_MERGED else d.pend 2 2 none false
  else if d.devState ≤ 1 then d.startTransition 2 2 none else d

/-- R448 rule 7: both flags are clear: a held request starts, or waits for the transition in progress. -/
def Dev.critClears (d : Dev) : Dev :=
  if d.on Reg.PWR_STATUS_PENDING && d.on Reg.PWR_STATUS_HELD then
    let d := d.set Reg.PWR_STATUS_HELD 0
    if d.on Reg.PWR_STATUS_IN_PROGRESS then d else d.goPending
  else d

/-! ### Loss of power -/

/-- The words of the PWR block and the coarse counter, which the oasis sequencer keeps in OFF and BACKUP. -/
def sequencerWord (off : Nat) : Bool := oasisWord off || (decide (0x300000 ≤ off) && decide (off < 0x301000))

/-- R446, R454: memory as a state without domains leaves it: only the retained chest banks hold their contents. -/
def Dev.zeroMemory (d : Dev) : Dev :=
  let lo := 16 * chestWord 0
  let kept := d.mem.filter (fun c => decide (lo ≤ c.1) && decide (c.1 < lo + 8 * 16 * 131072) && d.power.retain.getLsbD ((c.1 - lo) / (16 * 131072)))
  { d with mem := kept }

/-- R447, R456, R463: the device goes to OFF or BACKUP: whatever was in progress or pending is gone, and every domain but the oasis is
without power. -/
def Dev.unpower (d : Dev) (st : Nat) : Dev :=
  let ran := d.timeRuns
  let full := d.time.full
  let d := if d.domState 20 = 0 then d.chestEnters (d.get Reg.PWR_CHEST_KEEP) false else d
  let d := (d.blank sequencerWord false).zeroMemory
  let d := if ran then d.onTime (fun t => { t with coarse := full / secondUnits * 32768, coarseAlone := true }) else d
  let d := ((d.noPending.dropDomainChanges.set Reg.PWR_STATUS_IN_PROGRESS 0).set Reg.PWR_STATUS_STATE st).set Reg.PWR_STATUS_TARGET st
  let d := d.each (upFrom 0 24) (fun d k => d.set (Reg.PWR_DOM_STATE k) (if k = 20 ∧ d.power.retain ≠ 0 then 1 else 2))
  ((d.onPower (fun p => { p with paused := true })).showLoaded).onBoot (fun b => { b with due := none, input := none })

/-! ### Wake (R451–R453) -/

/-- R451: is the wake timer's level active? -/
def Dev.timerLevel (d : Dev) : Bool :=
  d.timeRuns && d.on Reg.PWR_WAKE_TIMER_EN && d.due (BitVec.ofNat 64 (d.get64 Reg.PWR_WAKE_TIMER_AT))

/-- R447, R448 rule 6, R451, R452: a wake source: its code, and whether it is a level. A level met during an entry waits for the sample
at its end. -/
def Dev.wake (d : Dev) (code : Nat) (level : Bool) : Dev :=
  let st := d.devState
  if !d.bit Reg.PWR_WAKE_EN (code - 1) then d
  else if st = 4 then (if d.power.tripLow then d else d.coldResetUntimed 2)
  else if level && d.entering then d
  else if st = 1 ∨ st = 2 ∨ d.entering = true then powerRequest 0 1 (some code) d
  else d

/-- R452: the level sources are sampled: the first that is enabled and active wakes the device. -/
def Dev.sampleWakes (d : Dev) : Dev :=
  if d.bit Reg.PWR_WAKE_EN 0 && d.power.wakeLow then d.wake 1 true
  else if d.bit Reg.PWR_WAKE_EN 1 && d.power.linkWake then d.wake 2 true
  else if d.bit Reg.PWR_WAKE_EN 2 && d.timerLevel then d.wake 3 true
  else d

/-! ### The steps of a transition -/

/-- R449 step 2: every resident run ends as an abort does. -/
def Dev.abortResidents (d : Dev) (status : Nat) : Dev :=
  d.each (d.tsu.tasks.filter (fun t => t.2.state == .running && t.2.job.isNone)) (fun d t => d.cancelTask t.1 status)

/-- R449 step 2: DRAIN_TIMEOUT. -/
def drainTimeout (d : Dev) : Dev :=
  match d.power.drainFrom with
  | none => d
  | some t =>
    if d.entering && d.devState == 0 && d.due (t + nsTime (d.get Reg.PWR_DRAIN_US * 1000)) then
      ((d.onPower (fun p => { p with drainFrom := none })).stopJobs (fun _ => true) stPOWER).abortResidents stPOWER
    else d

/-- R449 step 2: is no job in flight but those that wait for room for their records, and does no task run? -/
def Dev.drained (d : Dev) : Bool :=
  d.jfe.jobs.all (fun j => j.phase == .taken) && d.tsu.tasks.all (fun t => t.2.state != .running && t.2.state != .aborting)

/-- May the transition in progress complete: an entry's work is done, and every domain that leaves ON is drained (R445, R449)? -/
def Dev.mayComplete (d : Dev) : Bool :=
  let target := d.get Reg.PWR_STATUS_TARGET
  d.on Reg.PWR_STATUS_IN_PROGRESS && (!d.entering || d.drained) &&
    (upFrom 0 22).all (fun k => d.domState k != 0 || d.domainIn target k == 0 || d.domainDrained k)

/-- R446: the lanes of Uldom ports in RUN have power again, the transmit and receive sides of a sleeping one asleep. -/
def Dev.uldLanesOn (d : Dev) : Dev :=
  d.each (upFrom 0 3) (fun d p =>
    if !d.running (uldFn p) then d
    else (d.setTxPower p (2 - d.get (Reg.ULD_STATE_TX_SLEEP p))).setRxPower p (2 - d.get (Reg.ULD_STATE_RX_SLEEP p)))

/-- R446: the lanes of Ethernet and Uldom in DORMANT are OFF. -/
def Dev.lanesOff (d : Dev) : Dev :=
  d.each (upFrom 16 40) (fun d l => (d.set (Reg.LANE_STATUS_TX_PWR l) 0).set (Reg.LANE_STATUS_RX_PWR l) 0)

/-- R450: the JFE and the TSU resume, after the first round if the base domain has just returned. -/
def Dev.resumes (d : Dev) : Dev := d.onPower (fun p => { p with paused := p.awaitRound, drainFrom := none })

/-- R447, R448, R449 step 4, R450: a transition ends. -/
def transitionComplete (d : Dev) : Dev :=
  if !d.mayComplete then d
  else
    let entry := d.entering
    let was := d.devState
    let target := d.get Reg.PWR_STATUS_TARGET
    let byWake := d.on Reg.PWR_STATUS_PENDING && d.power.pendCause == 1
    let d := d.each (upFrom 0 24) (fun d k => d.domainMoves k (d.domainIn target k))
    let d := ((d.set Reg.PWR_STATUS_STATE target).set Reg.PWR_STATUS_IN_PROGRESS 0).onPower (fun p =>
      { p with drainFrom := none, awaitRound := p.awaitRound || (was == 2 && decide (target < 2)) })
    if target = 4 then
      let d := d.unpower 4
      if byWake then d.coldResetUntimed 2 else d.sampleWakes
    else
      let d := d.raise 0x7CA
      let d := if target = 2 then d.lanesOff else if was = 2 then d.ethLanePower.uldLanesOn else d
      let d := if target = 0 then d.resumes else d
      let d := if d.on Reg.PWR_STATUS_PENDING && !d.on Reg.PWR_STATUS_HELD then d.goPending else d
      if entry then d.sampleWakes else d

/-- R445: the change that domain k's latest request asks for begins. -/
def Dev.domainKick (d : Dev) (k : Nat) : Dev :=
  let req := d.get (Reg.PWR_DOM_REQ k)
  if d.devState ≠ 0 ∨ d.on Reg.PWR_STATUS_IN_PROGRESS = true ∨ d.on (Reg.PWR_DOM_BUSY k) = true ∨ d.domState k = req then d
  else (d.set (Reg.PWR_DOM_BUSY k) 1).onPower (fun p => { p with domTarget := update (fun _ => 3) p.domTarget k req })

/-- R444: may domain k be asked for a state? -/
def Dev.domainAllows (d : Dev) (k req : Nat) : Bool :=
  req == 0 || ((req == 2 || (req == 1 && hasRetain k)) && (domainFns k).all d.stopped &&
    !(decide (k < 13) && d.get Reg.TSU_STANDBY_ERG == k))

/-- R444: PWR_DOM[k].REQ. -/
def domainRequest (who : Accessor) (k req : Nat) (d : Dev) : Dev :=
  d.mapped who (Reg.PWR_DOM_REQ k).off (fun d =>
    if d.domainAllows k req then (d.set (Reg.PWR_DOM_REQ k) req).domainKick k else d.cfgReject who (Reg.PWR_DOM_REQ k).off)

/-- R445: a domain finishes leaving or returning to ON. -/
def domainChangeComplete (k : Nat) (d : Dev) : Dev :=
  match d.power.domTarget.find? (fun x => x.1 == k) with
  | none => d
  | some (_, new) =>
    if d.domState k = 0 ∧ d.domainDrained k = false then d
    else
      let d := (d.domainMoves k new).set (Reg.PWR_DOM_BUSY k) 0
      (d.onPower (fun p => { p with domTarget := update (fun _ => 3) p.domTarget k 3 })).domainKick k

/-! ### Supplies (R439–R442, R447, R456, R463) -/

/-- R439, R441, R447, R454, R456: a main supply failure: the power-fail record, signatures within the holdup if there is one, BACKUP. -/
def mainSupplyFailure (holdup : Bool) (d : Dev) : Dev :=
  if !d.boot.powered || d.devState == 3 then d
  else
    let d := d.logEntry 0 false 1 (d.word Reg.PWR_STATUS_STATE.off).toNat (d.get Reg.JFE_STATUS_INFLIGHT)
    let d := ((d.set Reg.PWR_SUPPLY_POWER_FAIL 1).set Reg.PWR_SUPPLY_PWR_GOOD 0).set Reg.PWR_STATUS2_LAST_CAUSE 3
    let d := if d.domState 20 = 0 then (d.chestEnters (d.get Reg.PWR_CHEST_KEEP) holdup).set (Reg.PWR_DOM_STATE 20) 1 else d
    let d := ((d.unpower 3).set Reg.TB_STATE_STATE tsCOARSE).onPower (fun p => { p with tripLow := false })
    d.onBoot (fun b => { b with powered := false })

/-- R413, R439, R467: every drawer is zeroised, the event is logged, and a device in service boots cold. -/
def tamperReset (detail : Nat) (d : Dev) : Dev :=
  let d := (d.zeroise (fun _ => true)).logEntry 0 false 4 detail 0
  let d := d.onBoot (fun b => { b with tamper := true })
  if d.boot.powered && decide (d.devState < 3) then d.coldResetUntimed 6 else d

/-- R467, R496: power comes; a cold boot is due. -/
def powerOn (ran : Nat) (d : Dev) : Dev :=
  if d.boot.powered then d
  else
    let cause := if d.devState = 3 then 1 else 0
    let d := d.coldReset cause ran
    ((d.set Reg.PWR_SUPPLY_PWR_GOOD 1).set Reg.PWR_SUPPLY_VAON_BAK_OK 1).set Reg.PWR_SUPPLY_VAON_MAIN_OK (1 - d.get Reg.PWR_SUPPLY_ON_BAK)

/-- R442: a brown-out resets the oasis domain. -/
def oasisBrownout (d : Dev) : Dev :=
  if d.boot.powered && d.devState != 3 then d
  else
    let d := (d.zeroise (fun _ => true)).onSec (fun s => { s with rootKey := false })
    let d := (d.onEvt (fun e => { e with log := [] })).set Reg.EVT_LOG_HEAD 0
    let d := (d.set Reg.PWR_WAKE_REC_SOURCE 0).set64 Reg.PWR_WAKE_REC_TIME 0
    let d := (d.noPending.set Reg.PWR_SUPPLY_BROWNOUT 1).onPower (fun p => { p with sigs := [], tripLow := false })
    d

/-- R442, R463: VAON_BAK below 1.2 V: the coarse counter stops. -/
def coarseCounterStop (d : Dev) : Dev :=
  let d := (d.set Reg.TB_COARSE_VALID 0).set Reg.PWR_SUPPLY_VAON_BAK_OK 0
  let d := if d.timeRuns then d else d.set Reg.TB_STATE_STATE tsFREE
  if d.on Reg.PWR_SUPPLY_ON_BAK then d.onPower (fun p => { p with tripLow := false }) else d

/-- R463: a trip comparator of a die sensor that is not masked (R460). -/
def thermalTrip (n : Nat) (d : Dev) : Dev :=
  if !d.boot.powered || decide (3 ≤ d.devState) || d.on (Reg.PWR_HK_MASK n) then d
  else
    let d := (d.logEntry 0 false 2 n (d.get Reg.JFE_STATUS_INFLIGHT)).onPower (fun p => { p with tripLow := true })
    ((d.set Reg.PWR_SUPPLY_TRIP 1).set Reg.PWR_STATUS2_LAST_CAUSE 4).unpower 4

/-! ### The charger (R457) -/

/-- R457: the cause that blocks charging now, none if there is none; `held` is the cause that blocks it already, for which causes 1 and
2 need 2 °C within the limit. A timeout holds until EN is written. -/
def Dev.chargeBlock (d : Dev) : Option Nat :=
  let blocked := d.get Reg.PWR_CHG_STATUS_STATE == 3
  let held (c : Nat) : Bool := blocked && d.get Reg.PWR_CHG_STATUS_CAUSE == c
  let th := signed (d.get (Reg.PWR_HK_VALUE 34)) 16
  let m : Int := if held 1 then 16 else 0
  let top : Int := if held 2 then 784 else 800
  if held 5 then some 5
  else if d.on (Reg.PWR_HK_FAULT 34) || d.on (Reg.PWR_HK_MASK 34) then some 3
  else if decide (th < m) || decide (480 - m < th) then some 1
  else if decide (top < signed (d.get Reg.PWR_THERM_HOTTEST) 16) then some 2
  else if d.on Reg.PWR_SUPPLY_ON_BAK then some 4
  else none

/-- R457: the charger's state as EN and the causes that block it leave it. -/
def Dev.runCharger (d : Dev) : Dev :=
  let show_ (st c : Nat) : Dev := (d.set Reg.PWR_CHG_STATUS_STATE st).set Reg.PWR_CHG_STATUS_CAUSE c
  if !d.on Reg.PWR_CHG_EN then (show_ 0 0).onPower (fun p => { p with charging := none })
  else match d.chargeBlock with
    | some c => (show_ 3 c).onPower (fun p => { p with charging := none })
    | none =>
      let st := d.get Reg.PWR_CHG_STATUS_STATE
      if st = 1 ∨ st = 2 then d else (show_ 1 0).onPower (fun p => { p with charging := some d.now })

/-- R457: TIMEOUT_S after the start of charging. -/
def chargeTimeout (d : Dev) : Dev :=
  match d.power.charging with
  | none => d
  | some t =>
    let s := d.get Reg.PWR_CHG_TIMEOUT_S
    if d.get Reg.PWR_CHG_STATUS_STATE = 1 ∧ s ≠ 0 ∧ d.due (t + nsTime (s * 10 ^ 9)) = true then
      (((d.set Reg.PWR_CHG_STATUS_STATE 3).set Reg.PWR_CHG_STATUS_CAUSE 5).onPower (fun p => { p with charging := none })).pwrAttend 4
    else d

/-- R457: the target voltage is reached. -/
def chargeTargetReached (d : Dev) : Dev :=
  if d.get Reg.PWR_CHG_STATUS_STATE = 1 then
    (d.set Reg.PWR_CHG_STATUS_STATE 2).onPower (fun p => { p with charging := none })
  else d

/-- R440: the oasis domain switches its source: 0 to backup, 1 to main. -/
def vaonSwitch (main : Bool) (d : Dev) : Dev :=
  if d.on Reg.PWR_SUPPLY_ON_BAK != main then d
  else
    let d := (d.set Reg.PWR_SUPPLY_ON_BAK (b2n (!main))).set Reg.PWR_SUPPLY_VAON_MAIN_OK (b2n main)
    ((d.logEntry 0 false 3 (b2n main) 0).pwrAttend 2).runCharger

/-! ### Housekeeping (R458–R464) -/

/-- R458: the channels whose readings a channel is judged by (R459): the grid-adjacent die sensors, or the other stack's. -/
def neighbours (n : Nat) : List Nat :=
  if n < 32 then
    (if n % 8 = 0 then [] else [n - 1]) ++ (if n % 8 = 7 then [] else [n + 1]) ++ (if n < 8 then [] else [n - 8]) ++ (if 24 ≤ n then [] else [n + 8])
  else if n = 32 then [33] else if n = 33 then [32] else []

/-- The reading of channel n in a round. -/
def readingIn (round : List (Option Int)) (n : Nat) : Option Int := round.getD n none

/-- R459: twelve times the mean of the readings of some channels in a round, if there are any. -/
def meanTwelfths (ns : List Nat) (round : List (Option Int)) : Option Int :=
  let xs := ns.filterMap (readingIn round)
  if xs.isEmpty then none else some (12 * sumInt xs / (xs.length : Int))

/-- R459: is channel n stuck over a window of 1,000 rounds: its code the same throughout, while the mean of its neighbours moved by more
than 3 °C? -/
def stuck (rounds : List (List (Option Int))) (n : Nat) : Bool :=
  let own := rounds.map (fun r => readingIn r n)
  let means := rounds.filterMap (meanTwelfths (neighbours n))
  match own, means with
  | x :: xs, m :: ms =>
    rounds.length == 1000 && xs.all (fun y => y == x) && decide (288 < ms.foldl max m - ms.foldl min m)
  | _, _ => false

/-- R459: the fault cause of temperature channel n in a round, 0 for none. -/
def faultCause (rounds : List (List (Option Int))) (n : Nat) (x : Option Int) : Nat :=
  match x with
  | none => 2
  | some t => if t < -320 ∨ 1200 < t then 1 else if stuck rounds n then 3 else 0

/-- R458, R459: temperature channel n takes its reading. -/
def Dev.takeReading (rounds : List (List (Option Int))) (codes : List (Option Int)) (d : Dev) (n : Nat) : Dev :=
  let x := readingIn codes n
  let d := match x with
    | some t => d.set (Reg.PWR_HK_VALUE n) (wrapTo 16 t)
    | none => d
  let c := faultCause rounds n x
  if c = 0 then d.set (Reg.PWR_HK_FAULT n) 0
  else if d.on (Reg.PWR_HK_FAULT n) then d
  else ((d.set (Reg.PWR_HK_FAULT n) 1).set (Reg.PWR_HK_CAUSE n) c).pwrAttend 0

/-- R459: a temperature channel, a faulty one as 125 °C. -/
def Dev.rawTemp (d : Dev) (n : Nat) : Int := if d.on (Reg.PWR_HK_FAULT n) then 1000 else signed (d.get (Reg.PWR_HK_VALUE n)) 16

/-- The greatest of some integers, or a default where there is none. -/
def maxInt (z : Int) : List Int → Int
  | [] => z
  | x :: xs => xs.foldl max x

/-- R460: a temperature channel as it is used. -/
def Dev.temp (d : Dev) (n : Nat) : Int :=
  if !d.on (Reg.PWR_HK_MASK n) then d.rawTemp n
  else if n < 32 then maxInt 1000 (((neighbours n).filter (fun m => !d.on (Reg.PWR_HK_MASK m))).map d.rawTemp)
  else if n < 34 then d.rawTemp (65 - n)
  else d.rawTemp n

/-- R494: the operating conditions of voltage channel n in mV: the lowest and highest reading within them. -/
def Dev.voltageRange (d : Dev) (n : Nat) : Nat × Nat :=
  if n < 39 then let v := d.get (Reg.PWR_PACE_RAIL_SETPOINT (n - 35)); (v - 10, v + 10)
  else if n < 41 then (760, 840)
  else if n = 41 then (620, 680)
  else if n < 45 then (713, 787)
  else if n = 45 then (1140, 1260)
  else if n < 52 then (if n % 3 = 1 then (1067, 1133) else if n % 3 = 2 then (388, 412) else (1710, 1890))
  else if n < 54 then (1710, 1890)
  else if n = 54 then (1600, 3000)
  else (720, 65535)

/-- R458: channel n from 35 on takes its reading; a voltage outside the operating conditions sets SUPPLY. -/
def Dev.takeSupply (codes : List (Option Int)) (d : Dev) (n : Nat) : Dev :=
  match readingIn codes n with
  | none => d
  | some v =>
    let d := d.set (Reg.PWR_HK_VALUE n) (wrapTo 16 v)
    let (lo, hi) := d.voltageRange n
    if n < 56 ∧ (v < lo ∨ (hi : Int) < v) then d.pwrAttend 1 else d

/-- R461: a level without a wait: set at one reading, clear below another. -/
def tempLevel (was : Bool) (t set_ clear_ : Int) : Bool := decide (set_ ≤ t) || (was && decide (clear_ ≤ t))

/-- R461: THROTTLE and HBM_THROTTLE: clear after 100 consecutive rounds below. Answers the level and the count of such rounds. -/
def throttleOf (was : Bool) (cool : Nat) (t set_ clear_ : Int) : Bool × Nat :=
  if set_ ≤ t then (true, 0)
  else
    let n := if t < clear_ then cool + 1 else 0
    (was && decide (n < 100), n)

/-- R461: the levels after a round, the events that follow them, and CRIT (R448 rule 7). -/
def Dev.judgeTemps (d : Dev) (j h : Int) : Dev :=
  let was := d
  let (thr, n) := throttleOf (d.on Reg.PWR_THERM_THROTTLE) d.power.coolRounds j 800 776
  let (hthr, hn) := throttleOf (d.on Reg.PWR_THERM_HBM_THROTTLE) d.power.hbmCoolRounds h 720 696
  let d := d.onPower (fun p => { p with coolRounds := n, hbmCoolRounds := hn })
  let put (d : Dev) (f : Fld) (v : Bool) : Dev := d.set f (b2n v)
  let d := put d Reg.PWR_THERM_WARN (tempLevel (was.on Reg.PWR_THERM_WARN) j 760 744)
  let d := put d Reg.PWR_THERM_THROTTLE thr
  let d := put d Reg.PWR_THERM_CRIT (tempLevel (was.on Reg.PWR_THERM_CRIT) j 880 800)
  let d := put d Reg.PWR_THERM_HBM_WARN (tempLevel (was.on Reg.PWR_THERM_HBM_WARN) h 680 664)
  let d := put d Reg.PWR_THERM_HBM_THROTTLE hthr
  let d := put d Reg.PWR_THERM_HBM_CRIT (tempLevel (was.on Reg.PWR_THERM_HBM_CRIT) h 760 680)
  let rose (f : Fld) : Bool := d.on f && !was.on f
  let flags := [Reg.PWR_THERM_WARN, Reg.PWR_THERM_THROTTLE, Reg.PWR_THERM_CRIT, Reg.PWR_THERM_HBM_WARN, Reg.PWR_THERM_HBM_THROTTLE,
    Reg.PWR_THERM_HBM_CRIT]
  let crit := rose Reg.PWR_THERM_CRIT || rose Reg.PWR_THERM_HBM_CRIT
  let cleared := was.critical && !d.critical
  let d := if flags.any rose then d.pwrAttend 5 else d
  let d := d.each [0x7CB, 0x7CC, 0x7CD] Dev.relevel
  if crit then d.critSets else if cleared then d.critClears else d

/-- R96, R461: doubled refresh on each stack, by its own sensor. -/
def Dev.judgeRefresh (d : Dev) (s : Nat) : Dev :=
  if tempLevel (d.bit Reg.HBM_STATUS_REFRESH_2X s) (d.temp (32 + s)) 680 664 then d.setBit Reg.HBM_STATUS_REFRESH_2X s
  else d.clearBit Reg.HBM_STATUS_REFRESH_2X s

/-- R464: may fuses be programmed after this round? -/
def Dev.fuseOk (d : Dev) : Bool :=
  (upFrom 0 32).all (fun n => d.on (Reg.PWR_HK_MASK n) || (decide (120 ≤ d.rawTemp n) && decide (d.rawTemp n ≤ 680)))

/-- R458–R464: what a round does. -/
def Dev.round (codes : List (Option Int)) (d : Dev) : Dev :=
  let rounds := ((codes.take 35) :: d.power.rounds).take 1000
  let d := d.onPower (fun p => { p with rounds := rounds })
  let d := d.each (upFrom 0 35) (Dev.takeReading rounds codes)
  let d := d.each (upFrom 35 29) (Dev.takeSupply codes)
  let dies := (upFrom 0 32).map d.temp
  let j := maxInt 1000 dies
  let h := max (d.temp 32) (d.temp 33)
  let d := (d.set Reg.PWR_THERM_HOTTEST (wrapTo 16 j)).set Reg.PWR_THERM_HOT_SENSOR (dies.findIdx (fun t => t == j))
  let d := d.each (upFrom 0 2) Dev.judgeRefresh
  let d := ((d.set Reg.PWR_THERM_FUSE_OK (b2n d.fuseOk)).set Reg.PWR_THERM_FIRST_ROUND 1).bump Reg.PWR_THERM_ROUNDS
  let d := if d.power.awaitRound then
      d.onPower (fun p => { p with awaitRound := false, paused := p.paused && !(d.devState == 0 && !d.on Reg.PWR_STATUS_IN_PROGRESS) })
    else d
  (d.runCharger).judgeTemps j h

/-- R458: a round, in every state in which the timebase island is ON, once the device has booted. -/
def housekeepingRound (codes : List (Option Int)) (d : Dev) : Dev := if d.timeRuns && d.ready then d.round codes else d

/-! ### Commands -/

/-- REQUEST_ACTIVE (R448, R451). -/
def execRequestActive (who : Accessor) (s : State) : Host.Outcome State Fault Refusal :=
  s.onDev (fun d => d.mapped who Reg.PWR_REQ_TARGET.off (powerRequest 0 0 (some 7)))
/-- REQUEST_STANDBY (R448). -/
def execRequestStandby (who : Accessor) (s : State) : Host.Outcome State Fault Refusal :=
  s.onDev (fun d => d.mapped who Reg.PWR_REQ_TARGET.off (powerRequest 1 0 none))
/-- REQUEST_DORMANT (R448). -/
def execRequestDormant (who : Accessor) (s : State) : Host.Outcome State Fault Refusal :=
  s.onDev (fun d => d.mapped who Reg.PWR_REQ_TARGET.off (powerRequest 2 0 none))
/-- REQUEST_OFF (R448). -/
def execRequestOff (who : Accessor) (s : State) : Host.Outcome State Fault Refusal :=
  s.onDev (fun d => d.mapped who Reg.PWR_REQ_TARGET.off (powerRequest 4 0 none))
/-- DRAIN_TIMEOUT (R449). -/
def execDrainTimeout (s : State) : Host.Outcome State Fault Refusal := s.onDev drainTimeout
/-- TRANSITION_COMPLETE (R449, R450). -/
def execTransitionComplete (s : State) : Host.Outcome State Fault Refusal := s.onDev transitionComplete
/-- DOMAIN_REQUEST (R444). -/
def execDomainRequest (who : Accessor) (k : Fin 22) (req : Fin 4) (s : State) : Host.Outcome State Fault Refusal :=
  s.onDev (domainRequest who k.val req.val)
/-- DOMAIN_CHANGE_COMPLETE (R445). -/
def execDomainChangeComplete (k : Fin 22) (s : State) : Host.Outcome State Fault Refusal := s.onDev (domainChangeComplete k.val)

/-- R451: WAKE_N changes level. -/
def wakeN (low : Bool) (d : Dev) : Dev :=
  let d := d.onPower (fun p => { p with wakeLow := low })
  if low then d.wake 1 true else d

/-- R451: the PCIe link leaves L1.2 or is asked to, or that condition ends. -/
def pcieL12Exit (leaving : Bool) (d : Dev) : Dev :=
  if !d.boot.powered || decide (3 ≤ d.devState) then d
  else
    let d := d.onPower (fun p => { p with linkWake := leaving })
    if leaving then d.wake 2 true else d

/-- R451: PWR_WAKE_TIMER.AT is reached. -/
def wakeTimer (d : Dev) : Dev := if d.timerLevel then d.wake 3 true else d

/-- R451, R452: an edge on GPIO[i]; `window` tells that it falls in the commit window of an entry, which loses it. -/
def gpioWakeEdge (i : Nat) (window : Bool) (d : Dev) : Dev :=
  if !d.bit Reg.PWR_WAKE_GPIO i then d
  else if !window then d.wake 4 false
  else if d.entering && d.bit Reg.PWR_WAKE_EN 3 then d.bump Reg.PWR_WAKE_REC_LOST_EDGES else d

/-- WAKE_N (R451). -/
def execWakeN (low : Bool) (s : State) : Host.Outcome State Fault Refusal := s.onDev (wakeN low)
/-- PCIE_L12_EXIT (R451). -/
def execPcieL12Exit (leaving : Bool) (s : State) : Host.Outcome State Fault Refusal := s.onDev (pcieL12Exit leaving)
/-- WAKE_TIMER (R451). -/
def execWakeTimer (s : State) : Host.Outcome State Fault Refusal := s.onDev wakeTimer
/-- GPIO_WAKE_EDGE (R452). -/
def execGpioWakeEdge (i : Fin 32) (window : Bool) (s : State) : Host.Outcome State Fault Refusal := s.onDev (gpioWakeEdge i.val window)
/-- MAIN_SUPPLY_FAILURE (R439, R447, R456). -/
def execMainSupplyFailure (holdup : Bool) (s : State) : Host.Outcome State Fault Refusal := s.onDev (mainSupplyFailure holdup)
/-- SUPPLY_GLITCH (R439). -/
def execSupplyGlitch (s : State) : Host.Outcome State Fault Refusal := s.onDev (tamperReset 1)
/-- TAMPER (R413). -/
def execTamper (s : State) : Host.Outcome State Fault Refusal := s.onDev (tamperReset 0)
/-- POWER_ON (R496). -/
def execPowerOn (ran : Nat) (s : State) : Host.Outcome State Fault Refusal := s.onDev (powerOn ran)
/-- VAON_SWITCH_TO_BAK (R440). -/
def execVaonSwitchToBak (s : State) : Host.Outcome State Fault Refusal := s.onDev (vaonSwitch false)
/-- VAON_SWITCH_TO_MAIN (R440). -/
def execVaonSwitchToMain (s : State) : Host.Outcome State Fault Refusal := s.onDev (vaonSwitch true)
/-- OASIS_BROWNOUT (R442). -/
def execOasisBrownout (s : State) : Host.Outcome State Fault Refusal := s.onDev oasisBrownout
/-- COARSE_COUNTER_STOP (R442). -/
def execCoarseCounterStop (s : State) : Host.Outcome State Fault Refusal := s.onDev coarseCounterStop
/-- CHARGE_TIMEOUT (R457). -/
def execChargeTimeout (s : State) : Host.Outcome State Fault Refusal := s.onDev chargeTimeout
/-- CHARGE_TARGET_REACHED (R457). -/
def execChargeTargetReached (s : State) : Host.Outcome State Fault Refusal := s.onDev chargeTargetReached
/-- HOUSEKEEPING_ROUND (R458). There are 64 channels. -/
def execHousekeepingRound (codes : List (Option Int)) (s : State) : Host.Outcome State Fault Refusal :=
  s.onDevIf (codes.length == 64) (housekeepingRound codes)
/-- THERMAL_TRIP (R463). -/
def execThermalTrip (sensor : Fin 32) (s : State) : Host.Outcome State Fault Refusal := s.onDev (thermalTrip sensor.val)
/-- VDD_RET_DIP (R454). -/
def execVddRetDip (b : Fin 8) (s : State) : Host.Outcome State Fault Refusal :=
  s.onDev (fun d => d.onPower (fun p => { p with flags := p.flags ||| (p.retain &&& BitVec.ofNat 8 (2 ^ b.val)) }))

end Sys2Proof.Machine
end

