-- ==== Sys2Proof/Machine/Events.lean ====
section
/-! DEFINITION. The event fabric (R472–R481), MSI-X (R477, R478), the PCIe link and the stewards (R483, R485), and function-level reset
(R79, R480). -/

namespace Sys2Proof.Machine

/-! ### MSI-X (R477, R478) -/

/-- The key of vector v of function f. -/
def vecKey (f v : Nat) : Nat := 4096 * f + v

/-- R477: the vectors of function f. -/
def vectorsOf (f : Nat) : Nat := if f = 0 then 2048 else 64

/-- The reset value of an MSI-X table entry (PCIe): masked. -/
def Vector.reset : Vector := { addr := 0, data := 0, masked := true }

/-- The MSI-X table entry of a vector. -/
def Dev.vector (d : Dev) (f v : Nat) : Vector := lookup (fun _ => Vector.reset) d.evt.table (vecKey f v)

/-- An MSI-X table entry replaced. -/
def Dev.setVector (d : Dev) (f v : Nat) (x : Vector) : Dev :=
  d.onEvt (fun e => { e with table := update (fun _ => Vector.reset) e.table (vecKey f v) x })

/-- R477: can vector v of function f send? -/
def Dev.canSend (d : Dev) (f v : Nat) : Bool :=
  d.evt.enabled.getLsbD f && !d.evt.fnMask.getLsbD f && !(d.vector f v).masked && d.mayMaster f

/-- R478: is vector v of function f within MOD_NS of its last message? -/
def Dev.withinSpacing (d : Dev) (f v : Nat) : Bool :=
  match d.evt.lastSent.find? (fun x => x.1 == vecKey f v) with
  | some (_, t) => !reached (t + nsTime (d.get (Reg.EVT_VEC_MOD_NS f v))) d.time.short
  | none => false

/-- R477: a vector sends its message; its PBA pending bit clears. -/
def Dev.sendMessage (d : Dev) (f v : Nat) : Dev :=
  let x := d.vector f v
  let k := vecKey f v
  (d.send (.message f v x.addr x.data)).onEvt (fun e =>
    { e with pba := e.pba.filter (· != k), lastSent := putKey k d.time.short (dropKey k e.lastSent) })

/-- R477: the PBA pending bit of a vector is set. -/
def Dev.owe (d : Dev) (f v : Nat) : Dev := d.onEvt (fun e => { e with pba := insertOnce (vecKey f v) e.pba })

/-- R478: a vector has a message to give: deferred within its spacing, sent if it can be, owed otherwise. -/
def Dev.emit (d : Dev) (f v : Nat) : Dev :=
  let d := if d.canSend f v then d else d.owe f v
  if d.withinSpacing f v then d.set (Reg.EVT_VEC_DEFERRED f v) 1
  else if d.canSend f v then d.sendMessage f v else d

/-- R474, R477: a delivery to vector v of function f. -/
def Dev.deliverVector (d : Dev) (f v : Nat) : Dev :=
  if vectorsOf f ≤ v then (d.bump Reg.EVT_BAD_TARGET).raise 0x707 else d.emit f v

/-- R477, R478: the owed message of a vector, once it can send and is not within its spacing. -/
def Dev.payOwed (d : Dev) (f v : Nat) : Dev :=
  if d.evt.pba.contains (vecKey f v) && d.canSend f v && !d.withinSpacing f v then d.sendMessage f v else d

/-- R477: the owed messages of function f. -/
def Dev.payAll (d : Dev) (f : Nat) : Dev :=
  d.each ((upFrom 0 (vectorsOf f)).filter (fun v => d.evt.pba.contains (vecKey f v))) (fun d v => d.payOwed f v)

/-- R474: is source n pending? -/
def Dev.pendingSource (d : Dev) (n : Nat) : Bool := d.on (Reg.EVT_SRC_LATCHED n) && d.on (Reg.EVT_SRC_EN n)

/-- R478: is a source that targets vector v of function f pending? -/
def Dev.targeted (d : Dev) (f v : Nat) : Bool :=
  (upFrom 0 2048).any (fun n => d.pendingSource n && d.get (Reg.EVT_SRC_KIND n) == 1 && d.get (Reg.EVT_SRC_FUNC n) == f &&
    d.get (Reg.EVT_SRC_VECTOR n) == v)

/-- R478: a vector's interval ends. -/
def moderationEnd (f v : Nat) (d : Dev) : Dev :=
  if vectorsOf f ≤ v || d.withinSpacing f v then d
  else
    let was := d.on (Reg.EVT_VEC_DEFERRED f v)
    let d := d.set (Reg.EVT_VEC_DEFERRED f v) 0
    if d.evt.pba.contains (vecKey f v) || (was && d.targeted f v) then (if d.canSend f v then d.sendMessage f v else d.owe f v) else d

/-- R477: the mask bit of a vector. -/
def Dev.setMask (d : Dev) (f v : Nat) (m : Bool) : Dev := (d.setVector f v { d.vector f v with masked := m }).payOwed f v

/-! ### Sources (R473–R476) -/

/-- R474: a delivery of source n, whose occurrence is of a world. -/
def Dev.deliver (d : Dev) (n : Nat) (world : Bool) : Dev :=
  match d.get (Reg.EVT_SRC_KIND n) with
  | 1 => d.deliverVector (d.get (Reg.EVT_SRC_FUNC n)) (d.get (Reg.EVT_SRC_VECTOR n))
  | 2 => d.onEvt (fun e => { e with toSteward := e.toSteward ++ [(true, n)] })
  | 3 => d.onEvt (fun e => { e with toSteward := e.toSteward ++ [(false, n)] })
  | 4 => d.eventWake (d.get (Reg.EVT_SRC_ENTRY n)) world
  | 5 => d.wake 5 false
  | _ => d

/-- R476: may an occurrence write an entry now? -/
def Dev.logFree (d : Dev) : Bool :=
  match d.evt.lastLog with
  | some t => decide ((1000 * 65536 : Int) ≤ timeDiff d.now t)
  | none => true

/-- R476: the log of an occurrence. -/
def Dev.logOccurrence (d : Dev) (n : Nat) (world : Bool) : Dev :=
  if !d.on (Reg.EVT_SRC_LOG n) then d
  else if d.logFree then
    (d.logEntry n world 0 (d.get (Reg.EVT_SRC_COUNT n)) 0).onEvt (fun e => { e with lastLog := some d.now })
  else d.bump Reg.EVT_LOG_DROPS

/-- R473–R476: an occurrence of source n. -/
def Dev.occur (d : Dev) (n : Nat) (world : Bool) : Dev :=
  let was := d.pendingSource n
  let d := d.set (Reg.EVT_SRC_WORLD n) (b2n world)
  let d := (d.set (Reg.EVT_SRC_LATCHED n) 1).bump (Reg.EVT_SRC_COUNT n)
  let d := d.logOccurrence n world
  if d.pendingSource n && !was then d.deliver n world else d

/-- R474: EN of source n is written. -/
def Dev.setEnable (d : Dev) (n : Nat) (v : Bool) : Dev :=
  let was := d.pendingSource n
  let d := d.set (Reg.EVT_SRC_EN n) (b2n v)
  if d.pendingSource n && !was then d.deliver n (d.on (Reg.EVT_SRC_WORLD n)) else d

/-- R473: LATCHED of source n is cleared; a level source that is LIVE latches again at once. -/
def Dev.unlatch (d : Dev) (n : Nat) : Dev :=
  let d := d.set (Reg.EVT_SRC_LATCHED n) 0
  if d.evt.live.contains n then d.occur n (d.sourceWorld n) else d

/-- R443, R474: does the event fabric take an occurrence of source n: with the base domain in RETAIN, only one of the timebase island or
the PWR block for the power wake? -/
def Dev.fabricTakes (d : Dev) (n : Nat) : Bool :=
  d.boot.powered && decide (d.devState < 3) &&
    (d.devState != 2 ||
      (d.get (Reg.EVT_SRC_KIND n) == 5 && ((decide (0x740 ≤ n) && decide (n < 0x780)) || (decide (0x7C0 ≤ n) && decide (n < 0x7E0)))))

/-- R474: an occurrence reaches the event fabric. -/
def eventPacket (n : Nat) (d : Dev) : Dev :=
  match d.evt.queue.find? (fun o => o.source == n) with
  | none => d
  | some o => if d.fabricTakes n then (d.onEvt (fun e => { e with queue := e.queue.erase o })).occur n o.world else d

/-- R479: the source that entry j of function f's map names, if it is valid. -/
def Dev.mapEntry (d : Dev) (f j : Nat) : Option Nat :=
  if d.on (Reg.EVT_FN_MAP_VALID f j) then some (d.get (Reg.EVT_FN_MAP_SOURCE f j)) else none

/-- R479: is source n in the event page of VF f? -/
def Dev.inPage (d : Dev) (f n : Nat) : Bool :=
  (upFrom 0 64).any (fun j => d.mapEntry f j == some n) && !d.on (Reg.EVT_SRC_WORLD n)

/-- R10, R475: a write to EVT_SRC[n], every field of which is an (S) field while WORLD is 1. -/
def Dev.atSource (d : Dev) (who : Accessor) (n : Nat) (f : Dev → Dev) : Dev :=
  let off := (Reg.EVT_SRC_LIVE n).off
  if d.on (Reg.EVT_SRC_WORLD n) then d.secureOnly who off f else d.mapped who off f

/-- R473, R479: a W1C clear of LATCHED, by the PF or a steward, or by a VF through its event page. -/
def latchedClear (who : Accessor) (n : Nat) (d : Dev) : Dev :=
  match who with
  | .func f =>
    if f.val = 0 then d.atSource who n (fun d => d.unlatch n)
    else if d.served who (Reg.EVT_SRC_LIVE n).off && d.inPage f.val n then d.unlatch n else d
  | _ => d.atSource who n (fun d => d.unlatch n)

/-! ### The link and the stewards (R483, R485) -/

/-- R483: the PCIe link's rate, width and L1.2, and the errors it logs. -/
def pcieLink (speed width : Nat) (l12 : Bool) (errors : Nat) (d : Dev) : Dev :=
  if !d.boot.powered || decide (3 ≤ d.devState) then d
  else
    let moved := d.get Reg.GLB_PCIE_SPEED != speed || d.get Reg.GLB_PCIE_WIDTH != width
    let d := ((d.set Reg.GLB_PCIE_SPEED speed).set Reg.GLB_PCIE_WIDTH width).set Reg.GLB_PCIE_L12 (b2n l12)
    let d := (d.set Reg.GLB_PCIE_ATTN (Nat.lor (d.get Reg.GLB_PCIE_ATTN) errors)).relevel 0x701
    if moved then d.raise 0x700 else d

/-- R485: STW_MB[s].SEND. -/
def mailboxSend (who : Accessor) (s : Nat) (d : Dev) : Dev :=
  d.mapped who (Reg.STW_MB_SEND s).off (fun d =>
    if d.on (Reg.STW_MB_BUSY s) then d.cfgReject who (Reg.STW_MB_SEND s).off
    else (d.set (Reg.STW_MB_BUSY s) 1).set (Reg.STW_MB_DONE s) 0)

/-- R485: does steward s (0 secure) run? -/
def Dev.stewardRuns (d : Dev) (s : Nat) : Bool :=
  d.on (if s = 0 then Reg.STW_STATE_SS_RUN else Reg.STW_STATE_NS_RUN) && decide (d.devState < 2)

/-- R485: a steward completes a message. -/
def mailboxDone (s result : Nat) (reply : List (BitVec 32)) (d : Dev) : Dev :=
  if !d.on (Reg.STW_MB_BUSY s) || !d.stewardRuns s then d
  else
    let d := d.each (upFrom 0 reply.length) (fun d w => d.setWord (Reg.STW_MB_DATA s w).off (reply.getD w 0))
    let d := (((d.set (Reg.STW_MB_RESULT s) result).set (Reg.STW_MB_BUSY s) 0).set (Reg.STW_MB_DONE s) 1).set (Reg.STW_MB_ATTN_DONE s) 1
    d.raise (0x703 + s)

/-- R485: the non-secure steward's watchdog expires. -/
def nsWatchdog (d : Dev) : Dev :=
  if d.stewardRuns 1 && d.get Reg.STW_WDOG_NS_MS != 0 then (d.bump Reg.STW_STATE_NS_RESTARTS).raise 0x705 else d

/-- R467, R485: the secure steward's watchdog expires. -/
def secureWatchdog (d : Dev) : Dev := if d.stewardRuns 0 && d.get Reg.STW_WDOG_SS_MS != 0 then d.warmCause 5 else d

/-! ### Function-level reset (R79, R480) -/

/-- R480: the sources a function-level reset of f clears. -/
def Dev.flrSources (d : Dev) (f : Nat) : List Nat :=
  if f = 0 then (upFrom 0 2048).filter (fun n => d.get (Reg.EVT_SRC_KIND n) == 1 && d.get (Reg.EVT_SRC_FUNC n) == 0)
  else (upFrom 0 64).filterMap (d.mapEntry f)

/-- R480: the event page of function f. -/
def Dev.clearPage (d : Dev) (f : Nat) : Dev :=
  let own (k : Nat) : Bool := k / 4096 == f
  let bit := BitVec.ofNat 64 (2 ^ f)
  let d := d.onEvt (fun e =>
    { e with table := e.table.filter (fun x => !own x.1), pba := e.pba.filter (fun k => !own k), lastSent := e.lastSent.filter (fun x => !own x.1),
             enabled := e.enabled &&& ~~~bit, fnMask := e.fnMask &&& ~~~bit })
  let d := d.resetWords ((upFrom 0 (vectorsOf f)).map (fun v => (Reg.EVT_VEC_MOD_NS f v).off))
  d.each (d.flrSources f) (fun d n => (d.set (Reg.EVT_SRC_EN n) 0).unlatch n)

/-- R79: FUNCTION_LEVEL_RESET of f. -/
def functionReset (f : Nat) (d : Dev) : Dev :=
  if !d.boot.powered || !d.boot.perst || decide (3 ≤ d.devState) then d
  else
    let lost := (d.jfe.jobs.filter (fun j => d.jobFunc j == f)).map (fun j => j.id)
    let d := (d.each lost Dev.loseJob).freeResidents f
    let d := d.onJfe (fun j => { j with busMaster := j.busMaster &&& ~~~(BitVec.ofNat 64 (2 ^ f)) })
    let d := d.each (d.owned f) Dev.flrStop
    ((d.resetRings f).clearDesk f).clearPage f

/-! ### Commands -/

/-- EVENT (R474). -/
def execEventPacket (n : Fin 2048) (s : State) : Host.Outcome State Fault Refusal := s.onDev (eventPacket n.val)
/-- EVT_LATCHED_CLEAR (R473). -/
def execEvtLatchedClear (who : Accessor) (n : Fin 2048) (s : State) : Host.Outcome State Fault Refusal := s.onDev (latchedClear who n.val)
/-- MSIX_UNMASK (R477): the mask bit of an entry of the table is cleared. -/
def execMsixUnmask (f : Fin 64) (v : Fin 2048) (s : State) : Host.Outcome State Fault Refusal :=
  s.onDev (fun d => if decide (v.val < vectorsOf f.val) && d.served (.func f) 0x1400000 then d.setMask f.val v.val false else d)
/-- MODERATION_INTERVAL_END (R478). -/
def execModerationIntervalEnd (f : Fin 64) (v : Fin 2048) (s : State) : Host.Outcome State Fault Refusal :=
  s.onDev (moderationEnd f.val v.val)
/-- EVT_LOG_SEL (R481). -/
def execEvtLogSel (who : Accessor) (seq : BitVec 32) (s : State) : Host.Outcome State Fault Refusal :=
  s.onDev (fun d => d.mapped who Reg.EVT_LOG_SEL.off (fun d => d.set Reg.EVT_LOG_SEL seq.toNat))
/-- STW_MB_SEND (R485). -/
def execStwMbSend (who : Accessor) (i : Fin 2) (s : State) : Host.Outcome State Fault Refusal := s.onDev (mailboxSend who i.val)
/-- STW_MB_DONE (R485). A reply has at most 64 words. -/
def execStwMbDone (i : Fin 2) (result : BitVec 8) (reply : List (BitVec 32)) (s : State) : Host.Outcome State Fault Refusal :=
  s.onDevIf (decide (reply.length ≤ 64)) (mailboxDone i.val result.toNat reply)
/-- PCIE_LINK (R483). -/
def execPcieLink (speed : BitVec 4) (width : BitVec 5) (l12 : Bool) (errors : BitVec 2) (s : State) : Host.Outcome State Fault Refusal :=
  s.onDev (pcieLink speed.toNat width.toNat l12 errors.toNat)
/-- NS_WATCHDOG_EXPIRY (R485). -/
def execNsWatchdogExpiry (s : State) : Host.Outcome State Fault Refusal := s.onDev nsWatchdog
/-- SECURE_WATCHDOG_EXPIRY (R485). -/
def execSecureWatchdogExpiry (s : State) : Host.Outcome State Fault Refusal := s.onDev secureWatchdog
/-- FUNCTION_LEVEL_RESET (R79). -/
def execFunctionLevelReset (f : Fin 64) (s : State) : Host.Outcome State Fault Refusal := s.onDev (functionReset f.val)

end Sys2Proof.Machine
end

