-- ==== Sys2Proof/Machine/Boot.lean ====
section
/-! DEFINITION. Reset causes (R467), the boot sequence (R469), steward images (R431, R470) and the host boot (R471). -/

namespace Sys2Proof.Machine

/-! ### Images (R431, R470) -/

/-- R470: the bytes of a slot, and of mesa banks 0–3. -/
def slotBytes : Nat := 4194304

/-- R431, R470: why an image awaited as a TYPE is rejected; none if it is accepted. `fused` is the fused SVN counter of that TYPE. -/
def imageCode (want fused : Nat) (revoked : BitVec 4) (x : ImageIn) : Option Nat :=
  let slot := x.keySlot.toNat
  firstFail [
    failIf (!x.read) 7,
    failIf (x.magic != 0x39485259#32) 1,
    failIf (x.type.toNat != want || decide (slotBytes < x.len.toNat + 8192)) 2,
    failIf (decide (4 ≤ slot) || !x.digestOk) 3,
    failIf (revoked.getLsbD slot) 4,
    failIf (!x.sigOk) 5,
    failIf (decide (x.svn.toNat < fused)) 6]

/-- R470: what an empty or absent flash gives. -/
def noImage : ImageIn :=
  { read := true, magic := 0, type := 0, keySlot := 0, svn := 0, len := 0, digestOk := false, sigOk := false }

/-- R470: the slot of a TYPE that starts, 0 for A and 1 for B, with its SVN: the accepted one of higher SVN, A when they are equal. -/
def chooseSlot (ca cb : Option Nat) (a b : ImageIn) : Option (Nat × Nat) :=
  match ca, cb with
  | none, none => if a.svn.toNat < b.svn.toNat then some (1, b.svn.toNat) else some (0, a.svn.toNat)
  | none, some _ => some (0, a.svn.toNat)
  | some _, none => some (1, b.svn.toNat)
  | some _, some _ => none

/-- The fused SVN counter for a TYPE. -/
def Dev.fusedSvn (d : Dev) (want : Nat) : Nat := if want = 1 then d.sec.svnSs else d.sec.svnNs

/-- A steward of TYPE `want` starts from a source with an SVN. -/
def Dev.startSteward (d : Dev) (want source svn : Nat) : Dev :=
  if want = 1 then ((d.set Reg.GLB_BOOT_SS_SOURCE source).set Reg.SEC_SVN_RUN_SS svn).set Reg.STW_STATE_SS_RUN 1
  else ((d.set Reg.GLB_BOOT_NS_SOURCE source).set Reg.SEC_SVN_RUN_NS svn).set Reg.STW_STATE_NS_RUN 1

/-- R470: both flash slots of a TYPE are verified; answers whether a steward was started. -/
def Dev.tryFlash (d : Dev) (want : Nat) (slots : List ImageIn) : Dev × Bool :=
  let k := 2 * (want - 1)
  let a := slots.getD k noImage
  let b := slots.getD (k + 1) noImage
  let ca := imageCode want (d.fusedSvn want) d.sec.revoked a
  let cb := imageCode want (d.fusedSvn want) d.sec.revoked b
  let d := (d.set (Reg.GLB_BOOT_REJECT k) (ca.getD 0)).set (Reg.GLB_BOOT_REJECT (k + 1)) (cb.getD 0)
  match chooseSlot ca cb a b with
  | some (i, svn) => (d.startSteward want (i + 1) svn, true)
  | none => (d, false)

/-- R471: the ROM waits for a host image, mesa banks 0–3 filled with zero. -/
def Dev.awaitHost (d : Dev) (input : BootInput) : Dev :=
  (d.each (upFrom 0 4) (fun d b => d.zeroRegion (.mesa b))).onBoot (fun b => { b with input := some input })

/-! ### The steps of R469 -/

/-- Step 1: every domain has power and every rail its CEILING (R40); the straps and the reference clocks are seen; the log has its entry
(R482). -/
def Dev.bootRelease (d : Dev) (cold : Bool) (input : BootInput) : Dev :=
  let d := d.each (upFrom 0 4) (fun d r => d.commandRail r (d.get (Reg.PWR_PACE_RAIL_CEILING r)))
  let d := d.onPace (fun p => { p with began := some d.now })
  let d := if cold then d.sampleId input.strap.toNat else d
  let d := (d.set Reg.LANE_REF_STATUS input.refclk.toNat).set Reg.GLB_RESET_CAUSE d.boot.cause
  d.logEntry 0 false 5 d.boot.cause 0

/-- Step 2 (R409, R429, R433): fuses, keys and the challenge. A fuse once blown stays blown. -/
def Dev.bootKeys (d : Dev) (cold : Bool) (input : BootInput) : Dev :=
  let d := d.onSec (fun s =>
    { s with ownerLocked := s.ownerLocked || input.ownerLocked, svnSs := max s.svnSs input.svnSs.val, svnNs := max s.svnNs input.svnNs.val,
             revoked := s.revoked ||| input.revoked, hbmKey := true, debugKey := false,
             rootKey := if cold then input.keysOk else s.rootKey })
  let d := (d.set Reg.SEC_STATUS_CABINET_OK (b2n d.sec.rootKey)).set Reg.SEC_STATUS_OWNER_LOCKED (b2n d.sec.ownerLocked)
  let d := (d.set Reg.SEC_STATUS_HBM_KEY_OK 1).set Reg.HBM_STATUS_SECURE_KEY 1
  let d := (d.set Reg.SEC_SVN_FUSED_SS d.sec.svnSs).set Reg.SEC_SVN_FUSED_NS d.sec.svnNs
  d.each (upFrom 0 8) (fun d w => d.set (Reg.SEC_DEBUG_CHALLENGE w) (input.challenge.toNat / 2 ^ (32 * w)))

/-- R129: a controller that fails its self-test goes out of service; a core's local memory takes the core with it. -/
def Dev.controllerFails (d : Dev) (n : Nat) : Dev :=
  let d := d.set (Reg.MEM_CTRL_STATE n) 1
  if n < 104 then d.set (Reg.ERG_CORE_STATUS_OUT_OF_SERVICE (n / 8) (n % 8)) 1
  else if n < 117 then d.set (Reg.ERG_STATUS_SELFTEST_FAIL (n - 104)) 1 else d

/-- R129, R232: an erg whose memory failed is retired; a standby erg that failed stands by no more. -/
def Dev.retireFailed (d : Dev) (e : Nat) : Dev :=
  if d.get Reg.TSU_STANDBY_ERG = e then
    ((d.set Reg.TSU_STANDBY_ERG 15).set (Reg.ERG_STATUS_STANDBY e) 0).ergRetired e
  else (d.ergRetired e).standbySteps e

/-- Step 3 (R128, R129). -/
def Dev.bootSelftest (d : Dev) (input : BootInput) : Dev :=
  let bad := input.failing.map Fin.val
  let d := d.each bad Dev.controllerFails
  let ergs := (upFrom 0 13).filter (fun e => bad.contains (104 + e))
  let s := d.get Reg.TSU_STANDBY_ERG
  let d := d.each (ergs.filter (· == s) ++ ergs.filter (· != s)) Dev.retireFailed
  ((d.set Reg.MEM_SELFTEST_DONE 1).set Reg.MEM_SELFTEST_FAIL (b2n (!bad.isEmpty))).relevel 0x785

/-- R96, R125: stack s is trained, or was: its state, and the repairs that its pseudo-channels report. -/
def Dev.stackUp (d : Dev) (s : Nat) : Dev :=
  let left := (upFrom 0 32).map (fun pc => d.get (Reg.HBM_STACK_PC_REPAIRS_LEFT s pc))
  let d := d.set (Reg.MEM_CTRL_SPARES_LEFT (195 + s)) (minD 255 left)
  if d.outOfService (195 + s) then d.set (Reg.HBM_STACK_STATE s) 4
  else (d.set (Reg.HBM_STACK_STATE s) 2).setBit Reg.HBM_STATUS_READY s

/-- R96: the training of stack s failed: it is out of service. -/
def Dev.stackFails (d : Dev) (s : Nat) : Dev :=
  ((d.set (Reg.HBM_STACK_STATE s) 4).set (Reg.MEM_CTRL_STATE (195 + s)) 1).attend (Reg.HBM_STACK_ATTN_TRAIN_FAIL s) 0x789

/-- Step 5 of a cold boot for stack s: training. -/
def Dev.trainStack (input : BootInput) (d : Dev) (s : Nat) : Dev :=
  let d := d.set (Reg.HBM_STACK_TRAIN_MS s) (input.trainMs.getD s 0).toNat
  if input.trained.getLsbD s then
    let d := d.bump (Reg.HBM_STACK_TRAININGS s)
    let d := d.each (upFrom 0 32) (fun d pc => d.set (Reg.HBM_STACK_PC_REPAIRS_LEFT s pc) (input.repairsLeft.getD (32 * s + pc) 0).toNat)
    d.stackUp s
  else d.stackFails s

/-- Step 5. A warm boot keeps the training there was. -/
def Dev.bootHbm (d : Dev) (cold : Bool) (input : BootInput) : Dev :=
  d.each (upFrom 0 2) (fun d s =>
    if cold then d.trainStack input s
    else if d.get (Reg.HBM_STACK_TRAININGS s) = 0 then d.stackFails s else d.stackUp s)

/-- Step 6 (R130, R430, R455): memory is filled with zero, but for retained chest banks that verify and whose granule was not secure. -/
def Dev.bootFill (d : Dev) : Dev :=
  let secure := d.power.sigs
  let d := (d.zeroMemory).chestBack
  d.each secure (fun d x =>
    let d := if x.2.2.getLsbD 0 then d.zeroWords (chestWord x.1) 65536 else d
    if x.2.2.getLsbD 1 then d.zeroWords (chestWord x.1 + 65536) 65536 else d)

/-- Step 9: READY, with the first housekeeping round, and the reports of R438, R466, R483. -/
def Dev.bootReady (d : Dev) (input : BootInput) : Dev :=
  let d := (d.set Reg.GLB_BOOT_STAGE 8).onBoot (fun b => { b with due := none, input := none })
  let d := (d.round input.codes).set64 Reg.GLB_READY_TIME d.now.toNat
  let d := d.raise 0x706
  let d := if d.on Reg.PWR_SUPPLY_BROWNOUT || d.on Reg.PWR_SUPPLY_POWER_FAIL || d.on Reg.PWR_SUPPLY_TRIP then d.raise 0x7CF else d
  if d.boot.tamper then (d.raise 0x7E1).onBoot (fun b => { b with tamper := false }) else d

/-- Steps 7 to 9, from the verdict on the non-secure steward's image. -/
def Dev.bootAfterNs (input : BootInput) (r : Dev × Bool) : Dev :=
  if r.2 then r.1.bootReady input else (r.1.awaitHost input).set Reg.GLB_BOOT_STAGE 6

/-- Steps 5 to 9, once the secure steward runs. -/
def Dev.bootAfterSs (d : Dev) (cold : Bool) (input : BootInput) : Dev :=
  let d := (d.bootHbm cold input).bootFill
  Dev.bootAfterNs input (d.tryFlash 2 input.slots)

/-- Steps 4 to 9, from the verdict on the secure steward's image. -/
def Dev.bootImages (cold : Bool) (input : BootInput) (r : Dev × Bool) : Dev :=
  if r.2 then r.1.bootAfterSs cold input else (r.1.awaitHost input).set Reg.GLB_BOOT_STAGE 3

/-- R467, R469: the boot that is due. A warm one waits for PERST_N to be high. -/
def bootSequence (input : BootInput) (d : Dev) : Dev :=
  match d.boot.due with
  | none => d
  | some cold =>
    if !d.boot.powered || d.boot.input.isSome || (!cold && !d.boot.perst) then d
    else
      let d := ((d.bootRelease cold input).bootKeys cold input).bootSelftest input
      Dev.bootImages cold input (d.tryFlash 1 input.slots)

/-! ### Host boot (R471) -/

/-- The data of a stored word, corrected where it can be (R114). -/
def correctedData (raw : Nat) : Nat :=
  match classify raw with
  | .corrected v => v.toNat
  | _ => (dataOf raw).toNat

/-- The header of the image in mesa bank 0 (R431): bytes 0–7 and 8–15. -/
def Dev.hostImage (d : Dev) (digestOk sigOk : Bool) : ImageIn :=
  let w := (Region.mesa 0).firstWord
  let v := correctedData (d.raw w)
  let len := correctedData (d.raw (w + 1)) % 2 ^ 32
  { read := !badRaw (d.raw w) && !badRaw (d.raw (w + 1)), magic := BitVec.ofNat 32 v, type := BitVec.ofNat 8 (v / 2 ^ 32),
    keySlot := BitVec.ofNat 8 (v / 2 ^ 40), svn := BitVec.ofNat 16 (v / 2 ^ 48), len := BitVec.ofNat 32 len, digestOk := digestOk,
    sigOk := sigOk }

/-- R471: the ROM judges the image of the host: GLB_BOOT.ERROR and GO, and on acceptance the boot goes on. An image longer than
GLB_BOOT_HOST.LEN says is beyond its slot. -/
def Dev.judgeHostImage (d : Dev) (input : BootInput) (want : Nat) (x : ImageIn) : Dev :=
  let long := d.get Reg.GLB_BOOT_HOST_LEN < x.len.toNat + 8192
  let x := if long then { x with len := 0xFFFFFFFF } else x
  let d := d.set Reg.GLB_BOOT_HOST_GO 0
  match imageCode want (d.fusedSvn want) d.sec.revoked x with
  | some c => d.set Reg.GLB_BOOT_ERROR c
  | none =>
    let d := (d.set Reg.GLB_BOOT_ERROR 0).startSteward want 3 x.svn.toNat
    let d := d.onBoot (fun b => { b with input := none })
    if want = 1 then d.bootAfterSs (d.boot.due == some true) input else d.bootReady input

/-- R471: GLB_BOOT_HOST.GO. -/
def hostGo (who : Accessor) (digestOk sigOk : Bool) (d : Dev) : Dev :=
  d.mapped who Reg.GLB_BOOT_HOST_GO.off (fun d =>
    match d.boot.input with
    | none => d
    | some input => d.judgeHostImage input (if d.get Reg.GLB_BOOT_STAGE = 3 then 1 else 2) (d.hostImage digestOk sigOk))

/-! ### Causes (R467) -/

/-- R467: PERST_N falls. -/
def perstFall (d : Dev) : Dev :=
  if !d.boot.perst then d
  else
    let d := d.onBoot (fun b => { b with perst := false })
    if d.boot.powered && d.boot.seenHigh && decide (d.devState < 3) then d.warmCause 3 else d

/-- R447, R467: PERST_N rises; a device in OFF by request boots. -/
def perstRise (d : Dev) : Dev :=
  let d := d.onBoot (fun b => { b with perst := true, seenHigh := b.seenHigh || b.powered })
  if d.boot.powered && d.devState == 4 && !d.power.tripLow then d.coldResetUntimed 2 else d

/-- PERST_N_FALL (R467). -/
def execPerstNFall (s : State) : Host.Outcome State Fault Refusal := s.onDev perstFall
/-- PERST_N_RISE (R467). -/
def execPerstNRise (s : State) : Host.Outcome State Fault Refusal := s.onDev perstRise
/-- WARM (R467, R484). -/
def execWarm (who : Accessor) (s : State) : Host.Outcome State Fault Refusal :=
  s.onDev (fun d => d.secureOnly who Reg.GLB_RESET_WARM.off (fun d => d.warmCause 4))
/-- BOOT_SEQUENCE (R469). There are 64 channels in a round and four slots. -/
def execBootSequence (input : BootInput) (s : State) : Host.Outcome State Fault Refusal :=
  s.onDevIf (input.codes.length == 64) (bootSequence input)
/-- GLB_BOOT_HOST_GO (R471). -/
def execGlbBootHostGo (who : Accessor) (digestOk sigOk : Bool) (s : State) : Host.Outcome State Fault Refusal :=
  s.onDev (hostGo who digestOk sigOk)

end Sys2Proof.Machine
end

