-- ==== Sys2Proof/Machine/View.lean ====
section
/-! DEFINITION. What a read of a register returns (R8–R11): the stored word, the fields that are derived from the rest of the state, and
what the non-secure world does not see. No read changes anything (R9), and no row of the table of operations is a read: these functions
say what the state shows. -/

namespace Sys2Proof.Machine

/-! ### Derived words -/

/-- The word with each (low bit, value) put in place. -/
def packed (xs : List (Nat × Nat)) : Nat := (xs.map (fun x => x.2 * 2 ^ x.1)).sum

/-- The word whose bit i is p i, for 32 bits. -/
def bitmap (p : Nat → Bool) : Nat := ((upFrom 0 32).map (fun i => b2n (p i) * 2 ^ i)).sum

/-- The number of jobs of opcodes lo to hi − 1 in a queue of whatever unit. -/
def Dev.jobsQueued (d : Dev) (lo hi : Nat) : Nat :=
  (d.jfe.jobs.filter (fun j => decide (lo ≤ j.opcode) && decide (j.opcode < hi) && j.phase == .queued)).length

/-- Does a unit execute a job of opcodes lo to hi − 1? -/
def Dev.occupies (d : Dev) (lo hi unit : Nat) : Bool := !(d.atUnit lo hi unit .running).isEmpty

/-- R233: the code of a task state. -/
def TaskState.code : TaskState → Nat
  | .free => 0
  | .delayed => 1
  | .ready => 2
  | .running => 3
  | .aborting => 4
  | .waiting => 5

/-- The tasks in a state. -/
def Dev.tasksIn (d : Dev) (st : TaskState) : List Task := (d.tsu.tasks.filter (fun x => x.2.state == st)).map (·.2)

/-- R221: the tasks of caravan list l. -/
def Dev.caravan (d : Dev) (l : Nat) : List Task := (d.tasksIn .delayed).filter (fun t => t.prio / 8 == l)

/-- R233: the earliest wake time on a list, 0 where it is empty. -/
def earliest : List Task → ShortTime
  | [] => 0
  | [t] => t.wake
  | t :: ts => let e := earliest ts; if timeDiff t.wake e ≤ 0 then t.wake else e

/-- R233: word w of TSU_PEEK; of a secure entry the non-secure world sees STATE alone. -/
def Dev.peeked (d : Dev) (secure : Bool) (w : Nat) : Nat :=
  let t := d.task (d.get Reg.TSU_PEEK_ENTRY)
  if t.world && !secure then (if w = 0 then t.state.code else 0)
  else match w with
    | 0 => packed [(0, t.state.code), (8, t.prio), (14, b2n t.resident), (15, b2n t.world), (16, t.func), (22, b2n t.pendingWake)]
    | 1 => packed [(0, t.gen.toNat), (16, t.lastCore.getD 0x7F)]
    | _ => packed [(0, t.lastStatus.toNat), (16, t.runs.toNat)]

/-- R481: the entry of the event log that EVT_LOG_SEL selects. -/
def Dev.logSelected (d : Dev) : Option (BitVec 192) :=
  d.evt.log.find? (fun e => e.toNat % 2 ^ 32 == d.get Reg.EVT_LOG_SEL)

/-- R481: word w of an entry, as an accessor of a world sees it: of a secure one, SEQ and KIND alone. -/
def logWord (secure : Bool) (e : BitVec 192) (w : Nat) : Nat :=
  let v := bitsOf e.toNat (32 * w) 32
  if secure || !bitOf e.toNat 43 then v else if w = 0 then v else if w = 1 then v / 2 ^ 12 % 16 * 2 ^ 12 else 0

/-- R445: is a change of domain k under way, its own or that of a device transition? -/
def Dev.domainBusy (d : Dev) (k : Nat) : Bool :=
  d.on (Reg.PWR_DOM_BUSY k) ||
    (d.on Reg.PWR_STATUS_IN_PROGRESS && d.domainIn (d.get Reg.PWR_STATUS_TARGET) k != d.domState k && (d.power.drainFrom.isNone || d.drained))

/-- R349: is the transmit precoder of lane l on? A Uldom lane has a setting; the partner of another lane asks for it, which no command
tells. -/
def Dev.precodes (d : Dev) (l : Nat) : Bool :=
  if 32 ≤ l then d.on (Reg.LANE_CFG_TX_PRECODE l) else Config.freeFun 23 [l] % 2 == 1

/-- R53: antenna·kHz in units of 0.1 MHz, rounded half up. -/
def tenthMhz (khz : Nat) : Nat := (khz + 50) / 100

/-- The index of a word in a plain array. -/
def only (is : List Nat) : Nat := is.headD 0
/-- The second index of a word in an array of arrays. -/
def second (is : List Nat) : Nat := is.getD 1 0

/-- The words that show what the rest of the state holds: base, dimensions, and the value from the indices and the stored word. `secure`
says in which world the reader stands. -/
def Dev.derived (d : Dev) (secure : Bool) : List (Nat × List Dim × (List Nat → Nat → Nat)) := [
  -- R53
  (Reg.JFE_ENVELOPE_STREAMS_DL.off, [], fun _ _ =>
    packed [(0, (d.envelope d.runCarriers false).1), (16, (d.envelope d.runCarriers true).1)]),
  (Reg.JFE_ENVELOPE_AMHZ_DL.off, [], fun _ _ => tenthMhz (d.envelope d.runCarriers false).2),
  (Reg.JFE_ENVELOPE_AMHZ_UL.off, [], fun _ _ => tenthMhz (d.envelope d.runCarriers true).2),
  -- R110
  (Reg.DMV_ACTIVE_LO.off, [⟨2, 4, 0⟩], fun is _ => bitmap (fun i => d.occupies 0xA0 0xB0 (32 * only is + i))),
  (Reg.DMV_HALTED_LO.off, [⟨2, 4, 0⟩], fun is _ => bitmap (fun i => d.dmvHalted (32 * only is + i) && d.stopped (.dmv (Fin.ofNat 64 (32 * only is + i))))),
  ((Reg.DMV_CH_QUEUED 0).off, [⟨64, 0x40, 0⟩], fun is _ => (d.atUnit 0xA0 0xB0 (only is) .queued).length),
  -- R215
  ((Reg.ERG_CX_STATUS_SB 0 0).off, [⟨13, 0x10000, 0⟩, ⟨8, 0x40, 0⟩], fun is _ =>
    let x := d.core (8 * only is + second is)
    packed [(0, x.sb.toNat), (8, b2n x.lock), (9, b2n (x.ops.any (fun o => o.begun && !o.ended))), (16, x.stagedWords)]),
  -- R233
  (Reg.TSU_STATUS_FREE.off, [], fun _ _ =>
    packed [(0, d.freeEntries), (16, bitmap (fun e => decide (e < 13) && d.on (Reg.ERG_STATUS_RETIRED e))), (29, b2n d.tsu.retiring.isSome)]),
  ((Reg.TSU_SHELF_COUNT 0).off, [⟨64, 4, 0⟩], fun is _ => ((d.tasksIn .ready).filter (fun t => t.prio == only is)).length),
  ((Reg.TSU_CARAVAN_COUNT 0).off, [⟨8, 0x10, 0⟩], fun is _ => (d.caravan (only is)).length),
  ((Reg.TSU_CARAVAN_HEAD_TIME 0).off, [⟨8, 0x10, 0⟩, ⟨2, 4, 0⟩], fun is _ =>
    bitsOf (earliest (d.caravan (only is))).toNat (32 * second is) 32),
  (Reg.TSU_PEEK_STATE.off, [⟨3, 4, 0⟩], fun is _ => d.peeked secure (only is)),
  -- R234
  ((Reg.ERG_STATUS_IDLE 0).off, [⟨13, 0x10000, 0⟩], fun is v =>
    let e := only is
    let in_ (st : Nat) : Nat := bitmap (fun k => decide (k < 8) && d.get (coreState (8 * e + k)) == st)
    packed [(0, in_ 0), (8, in_ 3), (16, v / 2 ^ 16)]),
  -- R261, R262, R284
  (Reg.MXE_ACTIVE.off, [], fun _ _ => bitmap (fun m => decide (m < 4) && d.occupies 0x10 0x30 m)),
  ((Reg.MXE_QUEUED 0).off, [⟨4, 0x40, 0⟩], fun is _ => (d.atUnit 0x10 0x30 (only is) .queued).length),
  (Reg.XFM_ACTIVE.off, [], fun _ _ => bitmap (fun u => d.occupies 0x30 0x40 u)),
  ((Reg.XFM_QUEUED 0).off, [⟨32, 0x40, 0⟩], fun is _ => (d.atUnit 0x30 0x40 (only is) .queued).length),
  (Reg.CODE_QUEUED.off, [], fun _ _ => d.jobsQueued 0x40 0x60),
  -- R317, R318
  ((Reg.BRX_CTX_ACTIVE_LO 0).off, [⟨16, 0x4000, 0⟩, ⟨2, 4, 0⟩], fun is _ =>
    bitmap (fun i => d.get (Reg.BRX_CTX_STATE (only is) (32 * second is + i)) != 0)),
  ((Reg.BRX_SLOT_FLOOR 0 0).off, [⟨16, 0x4000, 0⟩, ⟨24, 0x20, 0⟩], fun is _ =>
    let x := d.slotFloor (only is) (second is)
    packed [(0, x.1 % 2 ^ 16), (31, b2n x.2)]),
  ((Reg.DFE_TX_ATTN_SUM 0).off, [⟨4, 4, 0⟩], fun is _ => bitmap (fun i => d.any (Reg.DFE_TX_ATTN (32 * only is + i)).off)),
  ((Reg.DFE_RX_ATTN_SUM 0).off, [⟨4, 4, 0⟩], fun is _ => bitmap (fun i => d.any (Reg.DFE_RX_ATTN (32 * only is + i)).off)),
  -- R368
  (Reg.LANE_ATTN_SUM.off, [], fun _ _ => bitmap (fun i => decide (i < 24) && d.any (Reg.LANE_ATTN_FAULT (32 + i)).off)),
  (Reg.LANE_ATTN_SUM_ETH.off, [], fun _ _ => bitmap (fun i => decide (i < 16) && d.any (Reg.LANE_ATTN_FAULT (16 + i)).off)),
  ((Reg.LANE_STATUS_TX_PWR 0).off, [⟨56, 0x40, 0⟩], fun is v => putBits v 21 1 (b2n (d.precodes (only is)))),
  -- R435–R437
  (Reg.SEC_KEYSLOT_REVOKED.off, [], fun _ _ => d.sec.revoked.toNat),
  ((Reg.CIPH_DESK_GRANT 0 0).off, [⟨64, 0x1000, 0⟩, ⟨8, 4, 0⟩], fun is _ =>
    bitmap (fun i => (d.drawer (32 * second is + i)).grants.getLsbD (only is))),
  (Reg.CIPH_QUEUED.off, [], fun _ _ => d.jobsQueued 0x80 0xA0),
  (Reg.CIPH_BUSY_AES.off, [], fun _ _ => bitmap (fun u => d.sec.jobs.any (fun j => j.units.contains u))),
  (Reg.CIPH_HOLD_FREE.off, [], fun _ _ => d.holdFree),
  (Reg.CIPH_DESK_ATTN_SUM_LO.off, [⟨2, 4, 0⟩], fun is _ => bitmap (fun i => d.any (Reg.CIPH_DESK_ATTN (32 * only is + i)).off)),
  -- R465
  ((Reg.PWR_DOM_STATE 0).off, [⟨24, 0x10, 0⟩], fun is v => putBits v 8 1 (b2n (d.domainBusy (only is)))),
  (Reg.PWR_CHEST_KEEP.off, [], fun _ v => putBits v 24 8 (bitmap (fun k => d.power.sigs.any (fun x => x.1 == k)))),
  -- R486
  ((Reg.EVT_LOG_ENTRY 0).off, [⟨6, 4, 0⟩], fun is _ => (d.logSelected.map (fun e => logWord secure e (only is))).getD 0),
  (Reg.EVT_LOG_ENTRY_VALID.off, [], fun _ _ => b2n d.logSelected.isSome),
  ((Reg.EVT_LATCHED_SUM 0).off, [⟨64, 4, 0⟩], fun is _ =>
    bitmap (fun i => let n := 32 * only is + i; d.on (Reg.EVT_SRC_LATCHED n) && (secure || !d.on (Reg.EVT_SRC_WORLD n)))),
  ((Reg.EVT_SRC_LIVE 0).off, [⟨2048, 0x10, 0⟩], fun is v => putBits v 0 1 (b2n (d.evt.live.contains (only is))))]

/-- The value of a word for a reader of a world, hidden fields apart. -/
def Dev.shown (d : Dev) (secure : Bool) (off : Nat) : Nat :=
  let v := (d.word off).toNat
  let hit (x : Nat × List Dim × (List Nat → Nat → Nat)) : Option Nat :=
    if x.1 ≤ off then (RegTable.indices x.2.1 (off - x.1)).map (fun is => x.2.2 is v) else none
  ((d.derived secure).findSome? hit).getD v

/-! ### Worlds -/

/-- The field specifications of a word, each with the control register of the function that owns it: all rows of the map that lie at
`off`. EVT_FN has no function 0 (R486). -/
def fieldsAt (off : Nat) : List (FieldSpec × Nat) :=
  if 0x230000 ≤ off ∧ off < 0x230100 then []
  else RegTable.words.flatMap (fun s =>
    if s.base ≤ off then
      match RegTable.indices s.dims (off - s.base) with
      | some is => s.fields.map (fun f => (f, s.own + RegTable.ownOffset s.dims is))
      | none => []
    else [])

/-- The bits of a word that belong to a field. -/
def maskOf (fs : List FieldSpec) : Nat := (fs.map (fun f => (2 ^ f.w - 1) * 2 ^ f.lo)).sum

/-- R475: the source whose every field is an (S) field now, if `off` is a word of one. -/
def Dev.secureSource (d : Dev) (off : Nat) : Bool :=
  decide (0x210000 ≤ off) && decide (off < 0x218000) && d.on (Reg.EVT_SRC_WORLD ((off - 0x210000) / 0x10))

/-- The bits of a word that a non-secure reader sees, besides those of (S) fields: secure cores (R170, R215), log entries (R131),
receivers (R317), probes (R344), templates and steering entries (R393, R402). -/
def Dev.openBits (d : Dev) (off : Nat) : Nat :=
  let all := 2 ^ 32 - 1
  if 0xC00000 ≤ off ∧ off < 0xCD0000 then
    let e := (off - 0xC00000) / 0x10000
    let r := off % 0x10000
    if 0x100 ≤ r ∧ r < 0x500 ∧ d.coreSecure (8 * e + (r - 0x100) / 0x80) = true ∧ [0x0C, 0x10, 0x24].contains ((r - 0x100) % 0x80) = true then 0
    else if 0x500 ≤ r ∧ r < 0x700 ∧ d.coreSecure (8 * e + (r - 0x500) / 0x40) = true ∧ [0x18, 0x1C].contains ((r - 0x500) % 0x40) = true then 0
    else all
  else if 0x900100 ≤ off ∧ off < 0x900300 then
    let k := (off - 0x900100) / 0x20
    if d.on (Reg.MEM_ULOG_SECURE k) = true ∧ [0, 4, 0xC, 0x10].contains ((off - 0x900100) % 0x20) = true then 0 else all
  else if 0xEC0000 ≤ off ∧ off < 0xF00000 then
    if d.on (Reg.BRX_CFG_SECURE ((off - 0xEC0000) / 0x4000)) = true ∧ off % 0x4000 ≠ 0 then 0 else all
  else if 0x804000 ≤ off ∧ off < 0x804800 then
    if d.on (Reg.NOC_PROBE_CFG_SECURE ((off - 0x804000) / 0x80)) = true ∧ off % 0x80 ≠ 0 then 0 else all
  else if 0x520000 ≤ off ∧ off < 0x530000 then
    if d.on (Reg.ETH_TPL_SECURE ((off - 0x520000) / 0x100)) then (if off % 0x100 = 0 then 2 ^ 31 else 0) else all
  else if 0x540000 ≤ off ∧ off < 0x550000 then
    if d.on (Reg.ETH_STEER_SECURE ((off - 0x540000) / 0x40)) then (if off % 0x40 = 0 then 1 else 0) else all
  else all

/-- R393, R402: SECURE of a template is shown to the non-secure world, though it is an (S) field. -/
def shownAnyway (off : Nat) : Nat := if 0x520000 ≤ off ∧ off < 0x530000 ∧ off % 0x100 = 0 then 2 ^ 31 else 0

/-- R8–R11: what an accessor reads in the word of the PF's map at `off`. -/
def Dev.readReg (d : Dev) (who : Accessor) (off : Nat) : Reg32 :=
  if !d.served who off then 0
  else
    let fs := (fieldsAt off).map (·.1)
    let secure := who == .secure
    let v := d.shown secure off &&& maskOf (fs.filter (fun f => f.acc != .wo))
    if secure then BitVec.ofNat 32 v
    else if d.secureSource off then 0
    else
      let open_ := (maskOf (fs.filter (fun f => !f.sec)) ||| shownAnyway off) &&& d.openBits off
      BitVec.ofNat 32 (v &&& open_)

/-! ### MSI-X tables (R477) and the BARs (R47, R48) -/

/-- R477: word w of entry v of function f's table. -/
def Dev.tableWord (d : Dev) (f v w : Nat) : Nat :=
  let x := d.vector f v
  match w with
  | 0 => x.addr.toNat % 2 ^ 32
  | 1 => x.addr.toNat / 2 ^ 32
  | 2 => x.data.toNat
  | _ => b2n x.masked

/-- R477: word w of the PBA of function f. -/
def Dev.pbaWord (d : Dev) (f w : Nat) : Nat := bitmap (fun i => d.evt.pba.contains (vecKey f (32 * w + i)))

/-- R48: the PF BAR0 offset of the ring word that a VF's view shows, with the field that names the ring's function. -/
def ringView (off : Nat) : Option (Nat × Fld) :=
  if off < 0x4000 then some (0x110000 + off, Reg.JFE_SQ_CFG_FUNC (off / 0x40))
  else if off < 0x8000 then some (0x120000 + (off - 0x4000), Reg.JFE_CQ_CFG_FUNC ((off - 0x4000) / 0x40))
  else none

/-- R479: the source that word j of the event page of VF f shows: valid in the map, and not secure. -/
def Dev.pageSource (d : Dev) (f j : Nat) : Option Nat :=
  match d.mapEntry f j with
  | some n => if d.on (Reg.EVT_SRC_WORLD n) then none else some n
  | none => none

/-- What four bytes of the PF's BAR0 show: the PF's MSI-X table and PBA, and the registers. -/
def Dev.readMap (d : Dev) (who : Accessor) (off : Nat) : Reg32 :=
  if !d.served who off then 0
  else if 0x1400000 ≤ off ∧ off < 0x1408000 then BitVec.ofNat 32 (d.tableWord 0 ((off - 0x1400000) / 16) (off / 4 % 4))
  else if 0x1408000 ≤ off ∧ off < 0x1408100 then BitVec.ofNat 32 (d.pbaWord 0 ((off - 0x1408000) / 4))
  else d.readReg who off

/-- What four bytes of a BAR0 show to an accessor; the stewards address the PF's map. -/
def Dev.readBar (d : Dev) (who : Accessor) (off : Nat) : Reg32 :=
  match who with
  | .func f =>
    let k := f.val
    if k = 0 then d.readMap who off
    else if !d.served who 0x100000 then 0
    else match ringView off with
      | some (o, own) => if d.get own = k then d.readReg who o else 0
      | none =>
        if 0x8000 ≤ off ∧ off < 0x9000 then d.readReg who (0x1100000 + k * 0x1000 + (off - 0x8000))
        else if 0x9000 ≤ off ∧ off < 0x9400 then BitVec.ofNat 32 (d.tableWord k ((off - 0x9000) / 16) (off / 4 % 4))
        else if off = 0x9400 ∨ off = 0x9404 then BitVec.ofNat 32 (d.pbaWord k ((off - 0x9400) / 4))
        else if 0x9800 ≤ off ∧ off < 0x9900 then
          match d.pageSource k ((off - 0x9800) / 4) with
          | some n => d.readReg who (Reg.EVT_SRC_LIVE n).off &&& 7
          | none => 0
        else if 0x9C00 ≤ off ∧ off < 0x9D00 then
          BitVec.ofNat 32 (d.get (Reg.EVT_VEC_MOD_NS k ((off - 0x9C00) / 4)))
        else 0
  | _ => d.readMap who off

end Sys2Proof.Machine
end

