-- ==== Sys2Proof/Machine/RegAccess.lean ====
section
/-! DEFINITION. REGISTER_WRITE (R8–R12, R47–R49): a write of a register field that has no row of its own, through a BAR0 or by a
steward, and of the Bus Master Enable and MSI-X control bits of a function (R80, R477). -/

namespace Sys2Proof.Machine

/-! ### What a field stores -/

/-- The index of the word at `off` in an array of `count` words or groups of `width` bytes, and the place in the group. -/
def placeIn (base stride count width off : Nat) : Option (Nat × Nat) :=
  if base ≤ off ∧ (off - base) / stride < count ∧ (off - base) % stride < width then some ((off - base) / stride, (off - base) % stride)
  else none

/-- Is `off` the word of an array? -/
def atWord (base stride count off : Nat) : Bool := (placeIn base stride count 4 off).isSome

/-- The value a field stores when v is written to it: the ranges its table gives (R44, R83, R131, R233, R317, R318, R344, R369, R401,
R402, R435, R465, R486). -/
def ranged (off lo v : Nat) : Nat :=
  let one := max v 1
  if off = Reg.PWR_PACE_TGT_MAX_TGT_MAX.off then clamp 891 1126 v
  else if atWord (Reg.PWR_PACE_RAIL_CEILING 0).off 0x20 4 off then clamp 600 850 v
  else if off = Reg.JFE_DB_POLL_NS.off then clamp 250 1000000 v
  else if off = Reg.JFE_LIMIT_MAX_INFLIGHT.off ∨ atWord (Reg.JFE_FN_MAX_JOBS 0).off 0x10 64 off = true then min v 4096
  else if off = Reg.MEM_SCRUB_CFG_ONCHIP_H.off then (if lo = 0 then min v 24 else if 1 ≤ v ∧ v ≤ 5 then 6 else v)
  else if off = Reg.TSU_TICK_NS.off then clamp 1000 1000000 v
  else if off = Reg.TSU_ABORT_TIMEOUT_US.off then clamp 1 1000 v
  else if atWord (Reg.BRX_HOLD_US 0).off 0x4000 16 off then one
  else if atWord (Reg.DFE_MON_AVG 0).off 0x20 8 off then one
  else if off = Reg.NOC_CFG_AGE_NS.off then clamp 16 4096 (v / 16 * 16)
  else if atWord (Reg.ULD_REPLAY_TIMEOUT_NS 0).off 0x400 3 off then (if lo = 0 then max v 1000 else one)
  else if atWord (Reg.ULD_TRAIN_MS 0).off 0x400 3 off then one
  else if atWord (Reg.ULD_TIME_INTERVAL_US 0).off 0x400 3 off then max v 10
  else if off = Reg.TB_PPS_WIDTH_NS.off then clamp 100 500000000 v
  else if atWord (Reg.ETH_PORT_POLL_NS 0).off 0x100 16 off then clamp 250 1000000 v
  else if off = Reg.SEC_FAULT_LIMIT_COUNT.off then one
  else if off = Reg.PWR_DRAIN_US.off then clamp 10 1000000 v
  else if off = Reg.PWR_CHG_I_SET.off ∧ lo = Reg.PWR_CHG_I_SET.lo then clamp 1 10 v
  else if atWord (Reg.EVT_SRC_KIND 0).off 0x10 2048 off = true ∧ lo = 0 then (if v = 6 ∨ v = 7 then 0 else v)
  else if 0x220000 ≤ off ∧ off < 0x222000 + 63 * 0x100 then min v 1000000
  else v

/-- R8: what a field holds after a write: from its code, what it holds now, the value written, whether its owner is STOPPED, and
whether it is locked. -/
def fieldAfter (acc : Access) (stopped locked : Bool) (old v w : Nat) : Nat :=
  match acc with
  | .rw => v
  | .w1c => old &&& (v ^^^ (2 ^ w - 1))
  | .rws => if stopped then v else old
  | .rwl => if locked then old else v
  | .ro => old
  | .wo => old
  | .ctl => old
  | .row => old

/-- R50: is the owner of an RWS field STOPPED? -/
def Dev.ownerStopped (d : Dev) (own : Nat) : Bool := d.get ⟨own, 4, 2⟩ == 0

/-- R8: a word after a write of v to some of its fields. -/
def Dev.wordAfter (d : Dev) (off v : Nat) (fs : List (FieldSpec × Nat)) : Nat :=
  fs.foldl (fun w x =>
    let f := x.1
    putBits w f.lo f.w (fieldAfter f.acc (d.ownerStopped x.2) (d.locked.contains (off, f.lo)) (bitsOf w f.lo f.w)
      (ranged off f.lo (bitsOf v f.lo f.w)) f.w)) (d.word off).toNat

/-- R8: does the write meet an RWS field whose owner is not STOPPED? -/
def Dev.rwsRefused (d : Dev) (fs : List (FieldSpec × Nat)) : Bool := fs.any (fun x => x.1.acc == .rws && !d.ownerStopped x.2)

/-! ### Words with rules of their own -/

/-- R352: the registers of the PCIe lanes are read-only. -/
def pcieLane (off : Nat) : Bool := decide (0x601000 ≤ off) && decide (off < 0x601400)

/-- R334: the table a word of the routing tables or of NOC_DEV belongs to. -/
def routeTable (off : Nat) : Option Nat :=
  if 0x801000 ≤ off ∧ off < 0x802800 then some (off / 0x40 % 2)
  else if off = 0x800020 ∨ off = 0x800024 then some ((off - 0x800020) / 4)
  else none

/-- R334: may table k be written? -/
def Dev.tableFree (d : Dev) (k : Nat) : Bool := d.get Reg.NOC_EPOCH_CUR != k && d.get (Reg.NOC_DRAIN_COUNT k) == 0

/-- R437: the first word of the MACsec SA that a word belongs to; EN is its bit 8. -/
def saWord (off : Nat) : Option Nat :=
  if 0x1150000 ≤ off ∧ off < 0x1154000 then
    let q := off % 0x400
    if 0x40 ≤ q ∧ q < 0xC0 then some (off - q % 0x20)
    else if 0x100 ≤ q then
      let y := (q - 0x100) % 0xC0
      if 0x20 ≤ y ∧ y < 0xA0 then some (off - y % 0x20) else none
    else none
  else none

/-- R365: does the write of an Uldom port's CFG ask for sleep that its replay timeout is too short for? -/
def Dev.sleepRefused (d : Dev) (p v : Nat) : Bool :=
  bitOf v 3 && !d.stopped (uldFn p) && decide (d.get (Reg.ULD_REPLAY_TIMEOUT_NS p) < 4000)

/-- The fields other than EN of an SA (R428) or a quarantine window (R425) keep their values while EN is 1, and a write that would
change one is rejected. `enBit` is the bit of EN in this word, if it is there. -/
def Dev.heldFields (d : Dev) (off v enabled : Nat) (enBit : Option Nat) : Nat × Bool :=
  let old := (d.word off).toNat
  let new := d.wordAfter off v (fieldsAt off)
  if enabled = 0 then (v, false)
  else match enBit with
    | some b => (putBits old b 1 (bitsOf v b 1), putBits new b 1 (bitsOf old b 1) != old)
    | none => (old, new != old)

/-- The value a write carries into the fields of a word once the word's own rules have been applied, and whether they reject a part
of it. -/
def Dev.bound (d : Dev) (who : Accessor) (off v : Nat) : Nat × Bool :=
  let old := (d.word off).toNat
  if pcieLane off then (old, false)
  else if atWord (Reg.EVT_SRC_EN 0).off 0x10 2048 off then (putBits v 2 1 (bitsOf old 2 1), false)
  else if atWord (Reg.DFE_TX_ATTN 0).off 0x200 128 off then (putBits v 4 1 0, false)
  else match placeIn (Reg.ULD_CFG_SLEEP_EN 0).off 0x400 3 4 off with
    | some (p, _) => if d.sleepRefused p v then (putBits v 3 1 (bitsOf old 3 1), true) else (v, false)
    | none =>
      match routeTable off with
      | some k => if d.tableFree k then (v, false) else (old, true)
      | none =>
        match saWord off with
        | some o => d.heldFields off v (d.get ⟨o, 8, 1⟩) (if off = o then some 8 else none)
        | none =>
          match placeIn (Reg.SEC_QW_BASE 0).off 0x20 16 0xC off with
          | some (i, _) => d.heldFields off v (d.get (Reg.SEC_QW_EN i)) none
          | none =>
            if 0x520000 ≤ off ∧ off < 0x530000 ∧ d.on (Reg.ETH_TPL_SECURE ((off - 0x520000) / 0x100)) = true ∧ who ≠ .secure then (old, false)
            else (v, false)

/-! ### What follows a write -/

/-- The level sources whose condition reads a word: base, stride and number of the words, the first source, and the step from one
source to the next. -/
def levelWords : List (Nat × Nat × Nat × Nat × Nat) := [
  ((Reg.JFE_SQ_ATTN_FAULT 0).off, 0x40, 256, 0x440, 1), ((Reg.JFE_CQ_ATTN_FAULT 0).off, 0x40, 256, 0x440, 1),
  ((Reg.JFE_CAR_ATTN_FAULT 0).off, 0x40, 384, 0x612, 0), ((Reg.DMV_CH_ATTN_FAULT 0).off, 0x40, 64, 0x540, 1),
  ((Reg.MXE_ATTN_FAULT 0).off, 0x40, 4, 0x5C0, 1), ((Reg.XFM_ATTN_FAULT 0).off, 0x40, 32, 0x5C4, 1),
  (Reg.CODE_ATTN_FAULT.off, 4, 1, 0x5E4, 0), ((Reg.BRX_ATTN 0).off, 0x4000, 16, 0x5F8, 1),
  ((Reg.DFE_TX_ATTN 0).off, 0x200, 128, 0x608, 0), ((Reg.DFE_RX_ATTN 0).off, 0x200, 128, 0x609, 0),
  (Reg.CIPH_ATTN.off, 4, 1, 0x610, 0), ((Reg.MS_ATTN 0).off, 0x400, 16, 0x610, 0), ((Reg.CIPH_DESK_ATTN 0).off, 0x1000, 64, 0x611, 0),
  ((Reg.ERG_ATTN_FAULT 0).off, 0x10000, 13, 0x630, 1), (Reg.TSU_ATTN_RETIRED.off, 4, 1, 0x63D, 0), (Reg.TSU_LOW_THRESH.off, 4, 1, 0x63E, 0),
  (Reg.NOC_ATTN_CHECK_FAIL.off, 4, 1, 0x640, 0), ((Reg.NOC_PROBE_ATTN 0).off, 0x80, 16, 0x650, 1),
  ((Reg.LANE_ATTN_FAULT 0).off, 0x40, 56, 0x6C0, 0), ((Reg.ULD_ATTN_FAULT 0).off, 0x400, 3, 0x6C4, 1),
  ((Reg.ETH_PORT_ATTN 0).off, 0x100, 16, 0x6E0, 1), (Reg.GLB_PCIE_ATTN.off, 4, 1, 0x701, 0), (Reg.TB_ATTN.off, 4, 1, 0x741, 0),
  (Reg.MEM_CORR_THRESH.off, 4, 1, 0x786, 0), ((Reg.HBM_STACK_ATTN_TRAIN_FAIL 0).off, 0x1000, 2, 0x789, 0), (Reg.PWR_ATTN.off, 4, 1, 0x7CE, 0)]

/-- R473: the level sources that read the word at `off`, brought up to date. -/
def Dev.relevelWord (d : Dev) (off : Nat) : Dev :=
  d.each levelWords (fun d x => match placeIn x.1 x.2.1 x.2.2.1 4 off with
    | some (i, _) => d.relevel (x.2.2.2.1 + x.2.2.2.2 * i)
    | none => d)

/-- R225: core c becomes OFFLINE: no task keeps it as its last core. -/
def Dev.dropCore (d : Dev) (c : Nat) : Dev :=
  d.each (d.tsu.tasks.filter (fun t => t.2.lastCore == some c)) (fun d t => d.setTask t.1 { t.2 with lastCore := none, stage := 3 })

/-- R126: an interval of a scrubber is written: 0 stops it, and a later other value starts a new pass from the first word. -/
def Dev.scrubWritten (d : Dev) (old : Nat) : Dev :=
  let fresh (lo w : Nat) : Bool := bitsOf old lo w == 0 || bitsOf (d.word Reg.MEM_SCRUB_CFG_ONCHIP_H.off).toNat lo w == 0
  let d := if fresh 0 5 then d.onRam (fun m => { m with scrubWord := 0, scrubHours := (d.get Reg.MEM_SCRUB_CFG_ONCHIP_H, m.scrubHours.2) }) else d
  if fresh 8 8 then d.onRam (fun m => { m with scrubGroup := 0, scrubHours := (m.scrubHours.1, d.get Reg.MEM_SCRUB_CFG_HBM_H) }) else d

/-- R304: the slot of the burst receiver whose floors a write of the word starts afresh. -/
def floorSlot (off : Nat) : Option (Nat × Nat) :=
  match placeIn 0xEC0000 0x4000 16 0x700 off with
  | some (b, r) => if 0x400 ≤ r ∧ r % 0x20 < 0xC then some (b, (r - 0x400) / 0x20) else none
  | none => none

/-- R451, R452: level wakes count from when they are enabled, in a low state with no transition in progress. -/
def Dev.wakesWritten (d : Dev) : Dev :=
  if (d.devState = 1 ∨ d.devState = 2) ∧ d.on Reg.PWR_STATUS_IN_PROGRESS = false then d.sampleWakes else d

/-- What a write that carried v sets going, besides the new value of the word; `old` is the word before it. -/
def Dev.follow (d : Dev) (off old v : Nat) : Dev :=
  let d := d.relevelWord off
  match placeIn (Reg.EVT_SRC_EN 0).off 0x10 2048 4 off with
  | some (n, _) => d.setEnable n (bitOf v 2)
  | none =>
    match placeIn 0x220000 4 2048 4 off with
    | some (n, _) => d.payOwed 0 n
    | none =>
      match placeIn 0x222000 0x100 63 0x100 off with
      | some (f, r) => d.payOwed (f + 1) (r / 4)
      | none =>
        match placeIn 0xC00100 0x10000 13 0x400 off with
        | some (e, r) =>
          if r % 0x80 = 0 ∧ bitOf old 4 = false ∧ d.on (Reg.ERG_CORE_CFG_OFFLINE e (r / 0x80)) = true then d.dropCore (8 * e + r / 0x80) else d
        | none =>
          if (routeTable off).isSome then d.set Reg.NOC_EPOCH_CHECK_OK 0
          else if off = Reg.MEM_SCRUB_CFG_ONCHIP_H.off then d.scrubWritten old
          else if off = Reg.TB_DPLL_SEL0.off then (if d.timeRuns then d.dpllSelect else d)
          else if off = Reg.PWR_CHG_EN.off then d.runCharger
          else if [Reg.PWR_WAKE_EN.off, Reg.PWR_WAKE_TIMER_AT.off, Reg.PWR_WAKE_TIMER_AT_HI.off, Reg.PWR_WAKE_TIMER_EN.off].contains off then
            d.wakesWritten
          else d

/-- R425, R426: EN of quarantine window i is written 0: an OPEN window becomes IDLE; a sealed one stays so until its job ends. -/
def Dev.windowWritten (d : Dev) (off v : Nat) : Dev :=
  match placeIn (Reg.SEC_QW_DESK 0).off 0x20 16 4 off with
  | some (i, _) =>
    if bitOf v 7 then d
    else
      let d := d.set (Reg.SEC_QW_EN i) 0
      if d.get (Reg.SEC_QW_STATE i) = 2 then d else d.set (Reg.SEC_QW_STATE i) 0
  | none => d

/-! ### A write of one word -/

/-- R8, R10, R12: the fields `fs` of a word are written, the rules of the world already met. -/
def Dev.storeFields (d : Dev) (who : Accessor) (off v : Nat) (fs : List (FieldSpec × Nat)) : Dev :=
  let b := d.bound who off v
  let old := (d.word off).toNat
  let refused := b.2 || d.rwsRefused fs
  let stopped := !d.rwsRefused fs
  let new := d.wordAfter off b.1 fs
  let locks := ((fs.filter (fun x => x.1.acc == .rwl)).map (fun x => (off, x.1.lo))).filter (fun k => !d.locked.contains k)
  let clear (d : Dev) : Dev := match floorSlot off with
    | some (b, s) => if stopped then d.clearFloors b s else d
    | none => d
  let d := if refused then d.cfgReject who off else d
  let d := ({ clear d with locked := d.locked ++ locks }).setWord off (BitVec.ofNat 32 new)
  (if b.2 then d else (clear d).follow off old v).windowWritten off v

/-- R448, R465: a TARGET of PWR_REQ that names no state is rejected; the others are the requests of the table of operations. -/
def Dev.badTarget (d : Dev) (who : Accessor) (off v : Nat) : Dev :=
  if off = Reg.PWR_REQ_TARGET.off ∧ [3, 5, 6, 7].contains (v % 8) = true then d.cfgReject who off else d

/-- R8–R12: an accessor that reaches the word of the PF's map at `off` writes v to it. -/
def Dev.writeReg (d : Dev) (who : Accessor) (off v : Nat) : Dev :=
  let fs := fieldsAt off
  let secure := who == .secure
  match placeIn 0x540000 0x40 1024 0x40 off with
  | some (i, r) => ethSteerWrite who i (r / 4) v d
  | none =>
    if !secure && !fs.isEmpty && (d.secureSource off || fs.all (fun x => x.1.sec)) then d.regViolation who off
    else
      let hidden := maskOf ((fs.filter (fun x => x.1.sec)).map (·.1))
      let d := if !secure && (v &&& hidden) != 0 then d.regViolation who off else d
      (d.storeFields who off v (fs.filter (fun x => secure || !x.1.sec))).badTarget who off v

/-! ### The BARs -/

/-- R477: word w of entry v of function f's MSI-X table is written. -/
def Dev.tableWrite (d : Dev) (f v w value : Nat) : Dev :=
  let x := d.vector f v
  match w with
  | 0 => d.setVector f v { x with addr := BitVec.ofNat 64 (putBits x.addr.toNat 0 32 (value / 4 * 4)) }
  | 1 => d.setVector f v { x with addr := BitVec.ofNat 64 (putBits x.addr.toNat 32 32 value) }
  | 2 => d.setVector f v { x with data := BitVec.ofNat 32 value }
  | _ => d.setMask f v (value % 2 == 1)

/-- R47, R487: four bytes of the PF's map are written. The memory window has a row of its own. -/
def Dev.writeMap (d : Dev) (who : Accessor) (off v : Nat) : Dev :=
  if !d.served who off || decide (0x2000000 ≤ off) then d
  else match placeIn 0x1400000 16 2048 16 off with
    | some (n, r) => d.tableWrite 0 n (r / 4) v
    | none => d.writeReg who off v

/-- R48, R479: four bytes of VF f's BAR0 are written. -/
def Dev.writeVf (d : Dev) (who : Accessor) (f off v : Nat) : Dev :=
  if !d.served who 0x100000 then d
  else match ringView off with
    | some (o, own) =>
      if d.get own ≠ f then d else d.writeReg who o (if o = own.off then putBits v own.lo own.w f else v)
    | none =>
      match placeIn 0x8000 0x1000 1 0x1000 off with
      | some (_, r) => d.writeReg who (0x1100000 + 0x1000 * f + r) v
      | none =>
        match placeIn 0x9000 16 64 16 off with
        | some (n, r) => d.tableWrite f n (r / 4) v
        | none =>
          match placeIn 0x9800 4 64 4 off with
          | some (j, _) =>
            match d.pageSource f j with
            | some n => d.setEnable n (bitOf v 2)
            | none => d
          | none =>
            match placeIn 0x9C00 4 64 4 off with
            | some (n, _) => d.writeReg who (Reg.EVT_VEC_MOD_NS f n).off v
            | none => d

/-- Four bytes of a BAR0 are written; the stewards address the PF's map. -/
def Dev.writeBar (d : Dev) (who : Accessor) (off v : Nat) : Dev :=
  match who with
  | .func f => if f.val = 0 then d.writeMap who off v else d.writeVf who f.val off v
  | _ => d.writeMap who off v

/-- R49: a write of 4 or 8 bytes at a multiple of 4; any other writes nothing. -/
def Dev.writeSized (d : Dev) (who : Accessor) (off size v : Nat) : Dev :=
  if off % 4 ≠ 0 then d
  else if size = 4 then d.writeBar who off (v % 2 ^ 32)
  else if size = 8 then (d.writeBar who off (v % 2 ^ 32)).writeBar who (off + 4) (v / 2 ^ 32)
  else d

/-! ### Configuration space -/

/-- R80: Bus Master Enable of function f is written. -/
def Dev.writeBusMaster (d : Dev) (f : Nat) (v : Bool) : Dev :=
  if d.mayMaster f == v then d
  else if v then (d.onJfe (fun j => { j with busMaster := j.busMaster ||| BitVec.ofNat 64 (2 ^ f) })).payAll f
  else busMasterClear f d

/-- R477: MSI-X Enable and Function Mask of function f are written. -/
def Dev.writeMsix (d : Dev) (f : Nat) (enable mask : Bool) : Dev :=
  let put (x : BitVec 64) (b : Bool) : BitVec 64 :=
    if b then x ||| BitVec.ofNat 64 (2 ^ f) else x &&& ~~~(BitVec.ofNat 64 (2 ^ f))
  (d.onEvt (fun e => { e with enabled := put e.enabled enable, fnMask := put e.fnMask mask })).payAll f

/-- R8, R47, R80, R477: a register write of one of the kinds that have no row of their own. -/
def registerWrite (who : Accessor) (space : RegSpace) (off size v : Nat) (d : Dev) : Dev :=
  match space with
  | .bar => d.writeSized who off size v
  | .busMaster =>
    match who with
    | .func f => if d.served who 0 then d.writeBusMaster f.val (bitOf v 0) else d
    | _ => d
  | .msix =>
    match who with
    | .func f => if d.served who 0 then d.writeMsix f.val (bitOf v 1) (bitOf v 0) else d
    | _ => d

/-- REGISTER_WRITE (R8). -/
def execRegisterWrite (who : Accessor) (space : RegSpace) (off size : Nat) (value : BitVec 64) (s : State) : Host.Outcome State Fault Refusal :=
  s.onDev (registerWrite who space off size value.toNat)

end Sys2Proof.Machine
end

