-- ==== Sys2Proof/Machine/Valu.lean ====
section
/-! DEFINITION. The VALU slot (R182): lane arithmetic, logic, shifts, complex rearrangement, compares, moves and lane
access. -/

namespace Sys2Proof.Machine

/-- A lane operation: V[v] takes `f` in the selected lanes, wrapped to 18 bits. -/
def Dev.valu (d : Dev) (b : Bnd) (cplx : Bool) (v : Fin 64) (f : Arch → Nat → Int) : Dev :=
  d.op b (fun x bu => bu.vector x v.val (x.selected b cplx) (f x))

/-- A lane operation whose result is limited; `lim` says which lanes have the limit. -/
def Dev.valuLim (d : Dev) (b : Bnd) (cplx : Bool) (v : Fin 64) (lim : Nat → Bool) (f : Arch → Nat → Int) : Dev :=
  d.op b (fun x bu =>
    let on := x.selected b cplx
    (bu.vector x v.val on (fun i => if lim i then satTo 18 (f x i) else f x i)).xsat on
      (fun i => lim i && !fits 18 (f x i)))

/-- Every lane. -/
def everyLane (_i : Nat) : Bool := true
/-- The odd lanes. -/
def oddLane (i : Nat) : Bool := i % 2 == 1
/-- The even lanes. -/
def evenLane (i : Nat) : Bool := i % 2 == 0

/-- A bit operation on two lanes. -/
def bitLane (f : BitVec 18 → BitVec 18 → BitVec 18) (x y : Int) : Int := (f (BitVec.ofInt 18 x) (BitVec.ofInt 18 y)).toInt

/-- VADD. -/
def execOpVadd (b : Bnd) (v x y : Fin 64) (s : State) : Host.Outcome State Fault Refusal :=
  s.onDev (fun d => d.valu b false v (fun r i => r.lanes x i + r.lanes y i))
/-- VSUB. -/
def execOpVsub (b : Bnd) (v x y : Fin 64) (s : State) : Host.Outcome State Fault Refusal :=
  s.onDev (fun d => d.valu b false v (fun r i => r.lanes x i - r.lanes y i))
/-- VADDS. -/
def execOpVadds (b : Bnd) (v x y : Fin 64) (s : State) : Host.Outcome State Fault Refusal :=
  s.onDev (fun d => d.valuLim b false v everyLane (fun r i => r.lanes x i + r.lanes y i))
/-- VSUBS. -/
def execOpVsubs (b : Bnd) (v x y : Fin 64) (s : State) : Host.Outcome State Fault Refusal :=
  s.onDev (fun d => d.valuLim b false v everyLane (fun r i => r.lanes x i - r.lanes y i))
/-- VNEG. -/
def execOpVneg (b : Bnd) (v x : Fin 64) (s : State) : Host.Outcome State Fault Refusal :=
  s.onDev (fun d => d.valu b false v (fun r i => -r.lanes x i))
/-- VNEGS. -/
def execOpVnegs (b : Bnd) (v x : Fin 64) (s : State) : Host.Outcome State Fault Refusal :=
  s.onDev (fun d => d.valuLim b false v everyLane (fun r i => -r.lanes x i))
/-- VABS. -/
def execOpVabs (b : Bnd) (v x : Fin 64) (s : State) : Host.Outcome State Fault Refusal :=
  s.onDev (fun d => d.valuLim b false v everyLane (fun r i => (r.lanes x i).natAbs))
/-- VMIN. -/
def execOpVmin (b : Bnd) (v x y : Fin 64) (s : State) : Host.Outcome State Fault Refusal :=
  s.onDev (fun d => d.valu b false v (fun r i => min (r.lanes x i) (r.lanes y i)))
/-- VMAX. -/
def execOpVmax (b : Bnd) (v x y : Fin 64) (s : State) : Host.Outcome State Fault Refusal :=
  s.onDev (fun d => d.valu b false v (fun r i => max (r.lanes x i) (r.lanes y i)))
/-- VAVG. -/
def execOpVavg (b : Bnd) (v x y : Fin 64) (s : State) : Host.Outcome State Fault Refusal :=
  s.onDev (fun d => d.valu b false v (fun r i => roundShift (r.lanes x i + r.lanes y i) 1))
/-- VAND. -/
def execOpVand (b : Bnd) (v x y : Fin 64) (s : State) : Host.Outcome State Fault Refusal :=
  s.onDev (fun d => d.valu b false v (fun r i => bitLane (· &&& ·) (r.lanes x i) (r.lanes y i)))
/-- VOR. -/
def execOpVor (b : Bnd) (v x y : Fin 64) (s : State) : Host.Outcome State Fault Refusal :=
  s.onDev (fun d => d.valu b false v (fun r i => bitLane (· ||| ·) (r.lanes x i) (r.lanes y i)))
/-- VXOR. -/
def execOpVxor (b : Bnd) (v x y : Fin 64) (s : State) : Host.Outcome State Fault Refusal :=
  s.onDev (fun d => d.valu b false v (fun r i => bitLane (· ^^^ ·) (r.lanes x i) (r.lanes y i)))
/-- VNOT. -/
def execOpVnot (b : Bnd) (v x : Fin 64) (s : State) : Host.Outcome State Fault Refusal :=
  s.onDev (fun d => d.valu b false v (fun r i => -r.lanes x i - 1))
/-- VSHL. -/
def execOpVshl (b : Bnd) (v x : Fin 64) (t : Fin 18) (s : State) : Host.Outcome State Fault Refusal :=
  s.onDev (fun d => d.valu b false v (fun r i => r.lanes x i * (2 ^ t.val : Nat)))
/-- VSHLS. -/
def execOpVshls (b : Bnd) (v x : Fin 64) (t : Fin 18) (s : State) : Host.Outcome State Fault Refusal :=
  s.onDev (fun d => d.valuLim b false v everyLane (fun r i => r.lanes x i * (2 ^ t.val : Nat)))
/-- VSHRA: the truncating form. -/
def execOpVshra (b : Bnd) (v x : Fin 64) (t : Fin 18) (s : State) : Host.Outcome State Fault Refusal :=
  s.onDev (fun d => d.valu b false v (fun r i => r.lanes x i / (2 ^ t.val : Nat)))
/-- VSHRR. -/
def execOpVshrr (b : Bnd) (v x : Fin 64) (t : Fin 18) (s : State) : Host.Outcome State Fault Refusal :=
  s.onDev (fun d => d.valu b false v (fun r i => roundShift (r.lanes x i) t.val))
/-- VCONJ: even lanes copied, odd lanes negated and limited. -/
def execOpVconj (b : Bnd) (v x : Fin 64) (s : State) : Host.Outcome State Fault Refusal :=
  s.onDev (fun d => d.valuLim b true v oddLane (fun r i => if i % 2 = 0 then r.lanes x i else -r.lanes x i))
/-- VCSWAP. -/
def execOpVcswap (b : Bnd) (v x : Fin 64) (s : State) : Host.Outcome State Fault Refusal :=
  s.onDev (fun d => d.valu b true v (fun r i => r.lanes x (pairLane i)))
/-- VROTJ: re' = −im, limited; im' = re. -/
def execOpVrotj (b : Bnd) (v x : Fin 64) (s : State) : Host.Outcome State Fault Refusal :=
  s.onDev (fun d => d.valuLim b true v evenLane
    (fun r i => if i % 2 = 0 then -r.lanes x (i + 1) else r.lanes x (i - 1)))

/-- A lane compare: the bits of P[p] that the predicate selects take the lanes' answers. -/
def Dev.vcmp (d : Dev) (b : Bnd) (p : Fin 8) (f : Arch → Nat → Bool) : Dev :=
  d.op b (fun x bu =>
    let old := x.rP p.val
    let v := (upFrom 0 32).foldl (fun a i => if if x.selected b false i then f x i else old.getLsbD i then a + 2 ^ i else a) 0
    (bu.note [nameP p.val]).withNext (fun y => y.wP p.val (BitVec.ofNat 32 v)))

/-- VCMPEQ. -/
def execOpVcmpeq (b : Bnd) (p : Fin 8) (x y : Fin 64) (s : State) : Host.Outcome State Fault Refusal :=
  s.onDev (fun d => d.vcmp b p (fun r i => r.lanes x i == r.lanes y i))
/-- VCMPLT. -/
def execOpVcmplt (b : Bnd) (p : Fin 8) (x y : Fin 64) (s : State) : Host.Outcome State Fault Refusal :=
  s.onDev (fun d => d.vcmp b p (fun r i => decide (r.lanes x i < r.lanes y i)))
/-- VCMPLE. -/
def execOpVcmple (b : Bnd) (p : Fin 8) (x y : Fin 64) (s : State) : Host.Outcome State Fault Refusal :=
  s.onDev (fun d => d.vcmp b p (fun r i => decide (r.lanes x i ≤ r.lanes y i)))
/-- VMOV. -/
def execOpVmov (b : Bnd) (v x : Fin 64) (s : State) : Host.Outcome State Fault Refusal :=
  s.onDev (fun d => d.valu b false v (fun r => r.lanes x))
/-- VSEL. -/
def execOpVsel (b : Bnd) (v x y : Fin 64) (q : Fin 8) (s : State) : Host.Outcome State Fault Refusal :=
  s.onDev (fun d => d.valu b false v (fun r i => if laneOn (r.rP q.val) i then r.lanes x i else r.lanes y i))
/-- VPERM. -/
def execOpVperm (b : Bnd) (v x y : Fin 64) (s : State) : Host.Outcome State Fault Refusal :=
  s.onDev (fun d => d.valu b false v (fun r i => r.lanes x (wrapTo 5 (r.lanes y i))))
/-- VMOVI. -/
def execOpVmovi (b : Bnd) (v : Fin 64) (imm : BitVec 18) (s : State) : Host.Outcome State Fault Refusal :=
  s.onDev (fun d => d.valu b false v (fun _ _ => imm.toInt))
/-- VBCAST. -/
def execOpVbcast (b : Bnd) (v : Fin 64) (k : Fin 32) (s : State) : Host.Outcome State Fault Refusal :=
  s.onDev (fun d => d.valu b false v (fun r _ => r.lo k))
/-- VBCASTC. -/
def execOpVbcastc (b : Bnd) (v : Fin 64) (k : Fin 32) (s : State) : Host.Outcome State Fault Refusal :=
  s.onDev (fun d => d.valu b true v (fun r i => r.cplx k i))
/-- VINS: bit L of the predicate decides. -/
def execOpVins (b : Bnd) (v : Fin 64) (l k : Fin 32) (s : State) : Host.Outcome State Fault Refusal :=
  s.onDev (fun d => d.op b (fun x bu =>
    bu.vector x v.val (fun i => i == l.val && laneOn (x.rP b.pred.val) i) (fun _ => x.lo k)))
/-- VEXTL: bit L of the predicate decides. -/
def execOpVextl (b : Bnd) (k : Fin 32) (x : Fin 64) (l : Fin 32) (s : State) : Host.Outcome State Fault Refusal :=
  s.onDev (fun d => d.op b (fun r bu =>
    let bu := bu.note [nameS k.val]
    if laneOn (r.rP b.pred.val) l.val then bu.withNext (fun y => y.wS k.val (BitVec.ofInt 36 (r.lanes x l.val))) else bu))
/-- BEXPV (R147). -/
def execOpBexpv (b : Bnd) (k : Fin 32) (x : Fin 64) (s : State) : Host.Outcome State Fault Refusal :=
  s.onDev (fun d => d.op b (fun r bu =>
    (bu.note [nameS k.val]).withNext (fun y =>
      y.wS k.val (BitVec.ofNat 36 (blockExponent 18 (r.rP b.pred.val) (r.lanes x))))))

end Sys2Proof.Machine
end

