-- ==== Sys2Proof/Machine/Dispatch.lean ====
section
/-! DEFINITION. One arm per command: a direct call of the command's meaning, or a rejection by name. -/

namespace Sys2Proof.Machine

/-- The effect of a command on the device. -/
def exec (i : Instr) (s : State) : Host.Outcome State Fault Refusal :=
  match i with
  | .registerWrite a0 a1 a2 a3 a4 => Sys2Proof.Machine.execRegisterWrite a0 a1 a2 a3 a4 s
  | .run a0 a1 => Sys2Proof.Machine.execRun a0 a1 s
  | .stopDrain a0 a1 => Sys2Proof.Machine.execStopDrain a0 a1 s
  | .stopAbort a0 a1 a2 => Sys2Proof.Machine.execStopAbort a0 a1 a2 s
  | .lastWorkEnded a0 => Sys2Proof.Machine.execLastWorkEnded a0 s
  | .shortTimeBroadcast => Sys2Proof.Machine.execShortTimeBroadcast s
  | .monitorWindowEnd a0 => Sys2Proof.Machine.execMonitorWindowEnd a0 s
  | .paceLoopUpdate a0 => Sys2Proof.Machine.execPaceLoopUpdate a0 s
  | .doorbellPoll => Sys2Proof.Machine.execDoorbellPoll s
  | .doorbellSweep => Sys2Proof.Machine.execDoorbellSweep s
  | .atomicSwapComplete a0 a1 => Sys2Proof.Machine.execAtomicSwapComplete a0 a1 s
  | .producerCountReadComplete a0 a1 => Sys2Proof.Machine.execProducerCountReadComplete a0 a1 s
  | .scanArrayReadComplete a0 => Sys2Proof.Machine.execScanArrayReadComplete a0 s
  | .descriptorReadComplete a0 a1 => Sys2Proof.Machine.execDescriptorReadComplete a0 a1 s
  | .fetchResume => Sys2Proof.Machine.execFetchResume s
  | .jobReachesQueue a0 => Sys2Proof.Machine.execJobReachesQueue a0 s
  | .jobStart a0 => Sys2Proof.Machine.execJobStart a0 s
  | .nopJob a0 => Sys2Proof.Machine.execNopJob a0 s
  | .cancelJob a0 => Sys2Proof.Machine.execCancelJob a0 s
  | .jobCompletion a0 => Sys2Proof.Machine.execJobCompletion a0 s
  | .cqFullRecheck a0 => Sys2Proof.Machine.execCqFullRecheck a0 s
  | .cqCiReadComplete a0 a1 => Sys2Proof.Machine.execCqCiReadComplete a0 a1 s
  | .functionLevelReset a0 => Sys2Proof.Machine.execFunctionLevelReset a0 s
  | .busMasterEnableClear a0 => Sys2Proof.Machine.execBusMasterEnableClear a0 s
  | .rd a0 a1 => Sys2Proof.Machine.execRd a0 a1 s
  | .wr a0 a1 => Sys2Proof.Machine.execWr a0 a1 s
  | .wrn a0 a1 => Sys2Proof.Machine.execWrn a0 a1 s
  | .swr a0 a1 => Sys2Proof.Machine.execSwr a0 a1 s
  | .rdata a0 a1 => Sys2Proof.Machine.execRdata a0 a1 s
  | .wack a0 a1 => Sys2Proof.Machine.execWack a0 a1 s
  | .sack a0 a1 => Sys2Proof.Machine.execSack a0 a1 s
  | .errPacket a0 a1 => Sys2Proof.Machine.execErrPacket a0 a1 s
  | .noticePacket a0 a1 => Sys2Proof.Machine.execNoticePacket a0 a1 s
  | .eventPacket a0 => Sys2Proof.Machine.execEventPacket a0 s
  | .fencePacket a0 a1 => Sys2Proof.Machine.execFencePacket a0 a1 s
  | .unfencePacket a0 a1 => Sys2Proof.Machine.execUnfencePacket a0 a1 s
  | .drainedPacket a0 => Sys2Proof.Machine.execDrainedPacket a0 s
  | .powerPacket a0 a1 => Sys2Proof.Machine.execPowerPacket a0 a1 s
  | .epochPacket a0 => Sys2Proof.Machine.execEpochPacket a0 s
  | .slotDrained a0 => Sys2Proof.Machine.execSlotDrained a0 s
  | .packetRoute a0 a1 => Sys2Proof.Machine.execPacketRoute a0 a1 s
  | .ageQuantum a0 => Sys2Proof.Machine.execAgeQuantum a0 s
  | .nocCheck a0 => Sys2Proof.Machine.execNocCheck a0 s
  | .nocCheckDone => Sys2Proof.Machine.execNocCheckDone s
  | .nocFlip a0 => Sys2Proof.Machine.execNocFlip a0 s
  | .nocEpochDrained => Sys2Proof.Machine.execNocEpochDrained s
  | .memoryWindowRead a0 a1 a2 a3 => Sys2Proof.Machine.execMemoryWindowRead a0 a1 a2 a3 s
  | .memoryWindowWrite a0 a1 a2 => Sys2Proof.Machine.execMemoryWindowWrite a0 a1 a2 s
  | .dmvCopy a0 a1 => Sys2Proof.Machine.execDmvCopy a0 a1 s
  | .dmvConvert a0 a1 => Sys2Proof.Machine.execDmvConvert a0 a1 s
  | .dmvFill a0 a1 => Sys2Proof.Machine.execDmvFill a0 a1 s
  | .dmvTxFrame a0 => Sys2Proof.Machine.execDmvTxFrame a0 s
  | .dmvJobStart a0 => Sys2Proof.Machine.execDmvJobStart a0 s
  | .trackerEntryExpiry a0 a1 => Sys2Proof.Machine.execTrackerEntryExpiry a0 a1 s
  | .scrubRead a0 => Sys2Proof.Machine.execScrubRead a0 s
  | .corrHourEnd => Sys2Proof.Machine.execCorrHourEnd s
  | .memInjectArm a0 => Sys2Proof.Machine.execMemInjectArm a0 s
  | .taskDispatch => Sys2Proof.Machine.execTaskDispatch s
  | .opCmac a0 a1 a2 a3 => Sys2Proof.Machine.execOpCmac a0 a1 a2 a3 s
  | .opCmacn a0 a1 a2 a3 => Sys2Proof.Machine.execOpCmacn a0 a1 a2 a3 s
  | .opCmacz a0 a1 a2 a3 => Sys2Proof.Machine.execOpCmacz a0 a1 a2 a3 s
  | .opCmacj a0 a1 a2 a3 => Sys2Proof.Machine.execOpCmacj a0 a1 a2 a3 s
  | .opCmacjn a0 a1 a2 a3 => Sys2Proof.Machine.execOpCmacjn a0 a1 a2 a3 s
  | .opCmacjz a0 a1 a2 a3 => Sys2Proof.Machine.execOpCmacjz a0 a1 a2 a3 s
  | .opCmacs a0 a1 a2 a3 => Sys2Proof.Machine.execOpCmacs a0 a1 a2 a3 s
  | .opCmacsj a0 a1 a2 a3 => Sys2Proof.Machine.execOpCmacsj a0 a1 a2 a3 s
  | .opRmac a0 a1 a2 a3 a4 a5 => Sys2Proof.Machine.execOpRmac a0 a1 a2 a3 a4 a5 s
  | .opRmacn a0 a1 a2 a3 a4 a5 => Sys2Proof.Machine.execOpRmacn a0 a1 a2 a3 a4 a5 s
  | .opRmacz a0 a1 a2 a3 a4 a5 => Sys2Proof.Machine.execOpRmacz a0 a1 a2 a3 a4 a5 s
  | .opRmac1 a0 a1 a2 a3 => Sys2Proof.Machine.execOpRmac1 a0 a1 a2 a3 s
  | .opRmac1z a0 a1 a2 a3 => Sys2Proof.Machine.execOpRmac1z a0 a1 a2 a3 s
  | .opRmacs a0 a1 a2 a3 a4 => Sys2Proof.Machine.execOpRmacs a0 a1 a2 a3 a4 s
  | .opRmacsz a0 a1 a2 a3 a4 => Sys2Proof.Machine.execOpRmacsz a0 a1 a2 a3 a4 s
  | .opRmacp a0 a1 a2 a3 => Sys2Proof.Machine.execOpRmacp a0 a1 a2 a3 s
  | .opExt a0 a1 a2 a3 => Sys2Proof.Machine.execOpExt a0 a1 a2 a3 s
  | .opBexpa a0 a1 a2 => Sys2Proof.Machine.execOpBexpa a0 a1 a2 s
  | .opAccclr a0 a1 => Sys2Proof.Machine.execOpAccclr a0 a1 s
  | .opAccget a0 a1 a2 a3 => Sys2Proof.Machine.execOpAccget a0 a1 a2 a3 s
  | .opAccput a0 a1 a2 a3 => Sys2Proof.Machine.execOpAccput a0 a1 a2 a3 s
  | .opAccset a0 a1 a2 a3 => Sys2Proof.Machine.execOpAccset a0 a1 a2 a3 s
  | .opVadd a0 a1 a2 a3 => Sys2Proof.Machine.execOpVadd a0 a1 a2 a3 s
  | .opVsub a0 a1 a2 a3 => Sys2Proof.Machine.execOpVsub a0 a1 a2 a3 s
  | .opVadds a0 a1 a2 a3 => Sys2Proof.Machine.execOpVadds a0 a1 a2 a3 s
  | .opVsubs a0 a1 a2 a3 => Sys2Proof.Machine.execOpVsubs a0 a1 a2 a3 s
  | .opVneg a0 a1 a2 => Sys2Proof.Machine.execOpVneg a0 a1 a2 s
  | .opVnegs a0 a1 a2 => Sys2Proof.Machine.execOpVnegs a0 a1 a2 s
  | .opVabs a0 a1 a2 => Sys2Proof.Machine.execOpVabs a0 a1 a2 s
  | .opVmin a0 a1 a2 a3 => Sys2Proof.Machine.execOpVmin a0 a1 a2 a3 s
  | .opVmax a0 a1 a2 a3 => Sys2Proof.Machine.execOpVmax a0 a1 a2 a3 s
  | .opVavg a0 a1 a2 a3 => Sys2Proof.Machine.execOpVavg a0 a1 a2 a3 s
  | .opVand a0 a1 a2 a3 => Sys2Proof.Machine.execOpVand a0 a1 a2 a3 s
  | .opVor a0 a1 a2 a3 => Sys2Proof.Machine.execOpVor a0 a1 a2 a3 s
  | .opVxor a0 a1 a2 a3 => Sys2Proof.Machine.execOpVxor a0 a1 a2 a3 s
  | .opVnot a0 a1 a2 => Sys2Proof.Machine.execOpVnot a0 a1 a2 s
  | .opVshl a0 a1 a2 a3 => Sys2Proof.Machine.execOpVshl a0 a1 a2 a3 s
  | .opVshls a0 a1 a2 a3 => Sys2Proof.Machine.execOpVshls a0 a1 a2 a3 s
  | .opVshra a0 a1 a2 a3 => Sys2Proof.Machine.execOpVshra a0 a1 a2 a3 s
  | .opVshrr a0 a1 a2 a3 => Sys2Proof.Machine.execOpVshrr a0 a1 a2 a3 s
  | .opVconj a0 a1 a2 => Sys2Proof.Machine.execOpVconj a0 a1 a2 s
  | .opVcswap a0 a1 a2 => Sys2Proof.Machine.execOpVcswap a0 a1 a2 s
  | .opVrotj a0 a1 a2 => Sys2Proof.Machine.execOpVrotj a0 a1 a2 s
  | .opVcmpeq a0 a1 a2 a3 => Sys2Proof.Machine.execOpVcmpeq a0 a1 a2 a3 s
  | .opVcmplt a0 a1 a2 a3 => Sys2Proof.Machine.execOpVcmplt a0 a1 a2 a3 s
  | .opVcmple a0 a1 a2 a3 => Sys2Proof.Machine.execOpVcmple a0 a1 a2 a3 s
  | .opVmov a0 a1 a2 => Sys2Proof.Machine.execOpVmov a0 a1 a2 s
  | .opVsel a0 a1 a2 a3 a4 => Sys2Proof.Machine.execOpVsel a0 a1 a2 a3 a4 s
  | .opVperm a0 a1 a2 a3 => Sys2Proof.Machine.execOpVperm a0 a1 a2 a3 s
  | .opVmovi a0 a1 a2 => Sys2Proof.Machine.execOpVmovi a0 a1 a2 s
  | .opVbcast a0 a1 a2 => Sys2Proof.Machine.execOpVbcast a0 a1 a2 s
  | .opVbcastc a0 a1 a2 => Sys2Proof.Machine.execOpVbcastc a0 a1 a2 s
  | .opVins a0 a1 a2 a3 => Sys2Proof.Machine.execOpVins a0 a1 a2 a3 s
  | .opVextl a0 a1 a2 a3 => Sys2Proof.Machine.execOpVextl a0 a1 a2 a3 s
  | .opBexpv a0 a1 a2 => Sys2Proof.Machine.execOpBexpv a0 a1 a2 s
  | .opLdv1 a0 a1 a2 => Sys2Proof.Machine.execOpLdv1 a0 a1 a2 s
  | .opLdv2 a0 a1 a2 => Sys2Proof.Machine.execOpLdv2 a0 a1 a2 s
  | .opLdv4 a0 a1 a2 => Sys2Proof.Machine.execOpLdv4 a0 a1 a2 s
  | .opLdv8 a0 a1 a2 => Sys2Proof.Machine.execOpLdv8 a0 a1 a2 s
  | .opLds0 a0 a1 a2 => Sys2Proof.Machine.execOpLds0 a0 a1 a2 s
  | .opLds1 a0 a1 a2 => Sys2Proof.Machine.execOpLds1 a0 a1 a2 s
  | .opLds2 a0 a1 a2 => Sys2Proof.Machine.execOpLds2 a0 a1 a2 s
  | .opLds3 a0 a1 a2 => Sys2Proof.Machine.execOpLds3 a0 a1 a2 s
  | .opLdc0 a0 a1 a2 => Sys2Proof.Machine.execOpLdc0 a0 a1 a2 s
  | .opLdc1 a0 a1 a2 => Sys2Proof.Machine.execOpLdc1 a0 a1 a2 s
  | .opLdbu a0 a1 a2 => Sys2Proof.Machine.execOpLdbu a0 a1 a2 s
  | .opLdbs a0 a1 a2 => Sys2Proof.Machine.execOpLdbs a0 a1 a2 s
  | .opLdhu a0 a1 a2 => Sys2Proof.Machine.execOpLdhu a0 a1 a2 s
  | .opLdhs a0 a1 a2 => Sys2Proof.Machine.execOpLdhs a0 a1 a2 s
  | .opLdqu a0 a1 a2 => Sys2Proof.Machine.execOpLdqu a0 a1 a2 s
  | .opLdqs a0 a1 a2 => Sys2Proof.Machine.execOpLdqs a0 a1 a2 s
  | .opLda a0 a1 a2 => Sys2Proof.Machine.execOpLda a0 a1 a2 s
  | .opStv1 a0 a1 a2 => Sys2Proof.Machine.execOpStv1 a0 a1 a2 s
  | .opStv2 a0 a1 a2 => Sys2Proof.Machine.execOpStv2 a0 a1 a2 s
  | .opStv4 a0 a1 a2 => Sys2Proof.Machine.execOpStv4 a0 a1 a2 s
  | .opStv8 a0 a1 a2 => Sys2Proof.Machine.execOpStv8 a0 a1 a2 s
  | .opSts0 a0 a1 a2 => Sys2Proof.Machine.execOpSts0 a0 a1 a2 s
  | .opSts1 a0 a1 a2 => Sys2Proof.Machine.execOpSts1 a0 a1 a2 s
  | .opSts2 a0 a1 a2 => Sys2Proof.Machine.execOpSts2 a0 a1 a2 s
  | .opSts3 a0 a1 a2 => Sys2Proof.Machine.execOpSts3 a0 a1 a2 s
  | .opStc0 a0 a1 a2 => Sys2Proof.Machine.execOpStc0 a0 a1 a2 s
  | .opStc1 a0 a1 a2 => Sys2Proof.Machine.execOpStc1 a0 a1 a2 s
  | .opStb a0 a1 a2 => Sys2Proof.Machine.execOpStb a0 a1 a2 s
  | .opSth a0 a1 a2 => Sys2Proof.Machine.execOpSth a0 a1 a2 s
  | .opStq a0 a1 a2 => Sys2Proof.Machine.execOpStq a0 a1 a2 s
  | .opSta a0 a1 a2 => Sys2Proof.Machine.execOpSta a0 a1 a2 s
  | .opMfence a0 => Sys2Proof.Machine.execOpMfence a0 s
  | .opAdd a0 a1 a2 a3 => Sys2Proof.Machine.execOpAdd a0 a1 a2 a3 s
  | .opSub a0 a1 a2 a3 => Sys2Proof.Machine.execOpSub a0 a1 a2 a3 s
  | .opMul a0 a1 a2 a3 => Sys2Proof.Machine.execOpMul a0 a1 a2 a3 s
  | .opMin a0 a1 a2 a3 => Sys2Proof.Machine.execOpMin a0 a1 a2 a3 s
  | .opMax a0 a1 a2 a3 => Sys2Proof.Machine.execOpMax a0 a1 a2 a3 s
  | .opAnd a0 a1 a2 a3 => Sys2Proof.Machine.execOpAnd a0 a1 a2 a3 s
  | .opOr a0 a1 a2 a3 => Sys2Proof.Machine.execOpOr a0 a1 a2 a3 s
  | .opXor a0 a1 a2 a3 => Sys2Proof.Machine.execOpXor a0 a1 a2 a3 s
  | .opShl a0 a1 a2 a3 => Sys2Proof.Machine.execOpShl a0 a1 a2 a3 s
  | .opShr a0 a1 a2 a3 => Sys2Proof.Machine.execOpShr a0 a1 a2 a3 s
  | .opShra a0 a1 a2 a3 => Sys2Proof.Machine.execOpShra a0 a1 a2 a3 s
  | .opAddi a0 a1 a2 a3 => Sys2Proof.Machine.execOpAddi a0 a1 a2 a3 s
  | .opMovi a0 a1 a2 => Sys2Proof.Machine.execOpMovi a0 a1 a2 s
  | .opShli a0 a1 a2 a3 => Sys2Proof.Machine.execOpShli a0 a1 a2 a3 s
  | .opShri a0 a1 a2 a3 => Sys2Proof.Machine.execOpShri a0 a1 a2 a3 s
  | .opShrai a0 a1 a2 a3 => Sys2Proof.Machine.execOpShrai a0 a1 a2 a3 s
  | .opCmpeq a0 a1 a2 a3 => Sys2Proof.Machine.execOpCmpeq a0 a1 a2 a3 s
  | .opCmplt a0 a1 a2 a3 => Sys2Proof.Machine.execOpCmplt a0 a1 a2 a3 s
  | .opCmpltu a0 a1 a2 a3 => Sys2Proof.Machine.execOpCmpltu a0 a1 a2 a3 s
  | .opCmpeqi a0 a1 a2 a3 => Sys2Proof.Machine.execOpCmpeqi a0 a1 a2 a3 s
  | .opAadd a0 a1 a2 a3 => Sys2Proof.Machine.execOpAadd a0 a1 a2 a3 s
  | .opAaddi a0 a1 a2 a3 => Sys2Proof.Machine.execOpAaddi a0 a1 a2 a3 s
  | .opAmovi a0 a1 a2 => Sys2Proof.Machine.execOpAmovi a0 a1 a2 s
  | .opAmov a0 a1 a2 => Sys2Proof.Machine.execOpAmov a0 a1 a2 s
  | .opAget a0 a1 a2 => Sys2Proof.Machine.execOpAget a0 a1 a2 s
  | .opPand a0 a1 a2 a3 => Sys2Proof.Machine.execOpPand a0 a1 a2 a3 s
  | .opPor a0 a1 a2 a3 => Sys2Proof.Machine.execOpPor a0 a1 a2 a3 s
  | .opPxor a0 a1 a2 a3 => Sys2Proof.Machine.execOpPxor a0 a1 a2 a3 s
  | .opPandn a0 a1 a2 a3 => Sys2Proof.Machine.execOpPandn a0 a1 a2 a3 s
  | .opPmovs a0 a1 a2 => Sys2Proof.Machine.execOpPmovs a0 a1 a2 s
  | .opPgets a0 a1 a2 => Sys2Proof.Machine.execOpPgets a0 a1 a2 s
  | .opLoopset a0 a1 a2 => Sys2Proof.Machine.execOpLoopset a0 a1 a2 s
  | .opMfsr a0 a1 a2 => Sys2Proof.Machine.execOpMfsr a0 a1 a2 s
  | .opMtsr a0 a1 a2 => Sys2Proof.Machine.execOpMtsr a0 a1 a2 s
  | .opBra a0 a1 a2 => Sys2Proof.Machine.execOpBra a0 a1 a2 s
  | .opCall a0 a1 a2 => Sys2Proof.Machine.execOpCall a0 a1 a2 s
  | .opBri a0 a1 => Sys2Proof.Machine.execOpBri a0 a1 s
  | .opLoop a0 a1 => Sys2Proof.Machine.execOpLoop a0 a1 s
  | .opLoopm a0 a1 => Sys2Proof.Machine.execOpLoopm a0 a1 s
  | .opTend a0 a1 => Sys2Proof.Machine.execOpTend a0 a1 s
  | .opSyscall a0 => Sys2Proof.Machine.execOpSyscall a0 s
  | .opBreak a0 => Sys2Proof.Machine.execOpBreak a0 s
  | .opRte a0 => Sys2Proof.Machine.execOpRte a0 s
  | .opSignal a0 => Sys2Proof.Machine.execOpSignal a0 s
  | .opCmm a0 a1 a2 a3 => Sys2Proof.Machine.execOpCmm a0 a1 a2 a3 s
  | .opGram a0 a1 a2 a3 => Sys2Proof.Machine.execOpGram a0 a1 a2 a3 s
  | .opChol a0 a1 a2 a3 => Sys2Proof.Machine.execOpChol a0 a1 a2 a3 s
  | .opTrsm a0 a1 a2 a3 => Sys2Proof.Machine.execOpTrsm a0 a1 a2 a3 s
  | .opCxwait a0 a1 => Sys2Proof.Machine.execOpCxwait a0 a1 s
  | .opCxlock a0 a1 => Sys2Proof.Machine.execOpCxlock a0 a1 s
  | .opCxunlock a0 => Sys2Proof.Machine.execOpCxunlock a0 s
  | .branchResolve a0 a1 a2 => Sys2Proof.Machine.execBranchResolve a0 a1 a2 s
  | .loadReturn a0 a1 => Sys2Proof.Machine.execLoadReturn a0 a1 s
  | .storeAccepted a0 a1 a2 => Sys2Proof.Machine.execStoreAccepted a0 a1 a2 s
  | .storeFault a0 => Sys2Proof.Machine.execStoreFault a0 s
  | .abortRequest a0 => Sys2Proof.Machine.execAbortRequest a0 s
  | .coprocessorOpBegin a0 => Sys2Proof.Machine.execCoprocessorOpBegin a0 s
  | .cxLate a0 => Sys2Proof.Machine.execCxLate a0 s
  | .coprocessorOpEnd a0 => Sys2Proof.Machine.execCoprocessorOpEnd a0 s
  | .taskEnd a0 => Sys2Proof.Machine.execTaskEnd a0 s
  | .taskRun a0 a1 => Sys2Proof.Machine.execTaskRun a0 a1 s
  | .taskWake a0 => Sys2Proof.Machine.execTaskWake a0 s
  | .taskFree a0 => Sys2Proof.Machine.execTaskFree a0 s
  | .tsuTick => Sys2Proof.Machine.execTsuTick s
  | .affinityHoldEnd a0 => Sys2Proof.Machine.execAffinityHoldEnd a0 s
  | .abortTimeout a0 => Sys2Proof.Machine.execAbortTimeout a0 s
  | .retire a0 a1 a2 => Sys2Proof.Machine.execRetire a0 a1 a2 s
  | .retirementDrained => Sys2Proof.Machine.execRetirementDrained s
  | .tsuStandbyWrite a0 a1 a2 => Sys2Proof.Machine.execTsuStandbyWrite a0 a1 a2 s
  | .mxMatmul a0 => Sys2Proof.Machine.execMxMatmul a0 s
  | .mxGram a0 => Sys2Proof.Machine.execMxGram a0 s
  | .mxCombine a0 => Sys2Proof.Machine.execMxCombine a0 s
  | .mxChol a0 => Sys2Proof.Machine.execMxChol a0 s
  | .mxTrsm a0 => Sys2Proof.Machine.execMxTrsm a0 s
  | .mxPosv a0 => Sys2Proof.Machine.execMxPosv a0 s
  | .mxeJobBegin a0 => Sys2Proof.Machine.execMxeJobBegin a0 s
  | .xfFft a0 => Sys2Proof.Machine.execXfFft a0 s
  | .xfDft a0 => Sys2Proof.Machine.execXfDft a0 s
  | .xfmJobBegin a0 => Sys2Proof.Machine.execXfmJobBegin a0 s
  | .cdLdpc a0 => Sys2Proof.Machine.execCdLdpc a0 s
  | .ceLdpc a0 a1 => Sys2Proof.Machine.execCeLdpc a0 a1 s
  | .cdPolar a0 => Sys2Proof.Machine.execCdPolar a0 s
  | .cePolar a0 a1 => Sys2Proof.Machine.execCePolar a0 a1 s
  | .cdTurbo a0 => Sys2Proof.Machine.execCdTurbo a0 s
  | .ceTurbo a0 a1 => Sys2Proof.Machine.execCeTurbo a0 a1 s
  | .cdTbcc a0 => Sys2Proof.Machine.execCdTbcc a0 s
  | .ceTbcc a0 a1 => Sys2Proof.Machine.execCeTbcc a0 a1 s
  | .ccCrc a0 a1 => Sys2Proof.Machine.execCcCrc a0 a1 s
  | .codeInstanceStart a0 => Sys2Proof.Machine.execCodeInstanceStart a0 s
  | .codeInstanceEnd a0 => Sys2Proof.Machine.execCodeInstanceEnd a0 s
  | .brxRelease a0 a1 => Sys2Proof.Machine.execBrxRelease a0 a1 s
  | .brxQuiet a0 => Sys2Proof.Machine.execBrxQuiet a0 s
  | .occasionEnd a0 a1 a2 a3 a4 a5 a6 a7 a8 a9 => Sys2Proof.Machine.execOccasionEnd a0 a1 a2 a3 a4 a5 a6 a7 a8 a9 s
  | .fullLengthConfirm a0 a1 a2 a3 a4 => Sys2Proof.Machine.execFullLengthConfirm a0 a1 a2 a3 a4 s
  | .captureAccepted a0 a1 a2 a3 a4 => Sys2Proof.Machine.execCaptureAccepted a0 a1 a2 a3 a4 s
  | .holdTimeout a0 a1 a2 => Sys2Proof.Machine.execHoldTimeout a0 a1 a2 s
  | .quietWindowEnd a0 a1 a2 => Sys2Proof.Machine.execQuietWindowEnd a0 a1 a2 s
  | .dfeTxCommit a0 => Sys2Proof.Machine.execDfeTxCommit a0 s
  | .dfeLoadCoef a0 => Sys2Proof.Machine.execDfeLoadCoef a0 s
  | .txBlockFetch a0 a1 a2 => Sys2Proof.Machine.execTxBlockFetch a0 a1 a2 s
  | .rxBlockComplete a0 a1 a2 => Sys2Proof.Machine.execRxBlockComplete a0 a1 a2 s
  | .agcWindowEnd a0 a1 a2 => Sys2Proof.Machine.execAgcWindowEnd a0 a1 a2 s
  | .maskDwellEnd a0 a1 => Sys2Proof.Machine.execMaskDwellEnd a0 a1 s
  | .attnMaskClear a0 a1 => Sys2Proof.Machine.execAttnMaskClear a0 a1 s
  | .slipGo a0 a1 => Sys2Proof.Machine.execSlipGo a0 a1 s
  | .uldSignalLock a0 => Sys2Proof.Machine.execUldSignalLock a0 s
  | .uldEqualiseConverged a0 a1 => Sys2Proof.Machine.execUldEqualiseConverged a0 a1 s
  | .uldAlignMatch a0 => Sys2Proof.Machine.execUldAlignMatch a0 s
  | .uldDeskewDone a0 a1 a2 => Sys2Proof.Machine.execUldDeskewDone a0 a1 a2 s
  | .trainFrame a0 a1 a2 => Sys2Proof.Machine.execTrainFrame a0 a1 a2 s
  | .idleFrame a0 a1 => Sys2Proof.Machine.execIdleFrame a0 a1 s
  | .dataFrame a0 a1 a2 a3 => Sys2Proof.Machine.execDataFrame a0 a1 a2 a3 s
  | .timeFrame a0 a1 a2 a3 a4 a5 a6 => Sys2Proof.Machine.execTimeFrame a0 a1 a2 a3 a4 a5 a6 s
  | .sleepFrame a0 a1 => Sys2Proof.Machine.execSleepFrame a0 a1 s
  | .byeFrame a0 a1 => Sys2Proof.Machine.execByeFrame a0 a1 s
  | .markerWord a0 a1 => Sys2Proof.Machine.execMarkerWord a0 a1 s
  | .replayTimeout a0 => Sys2Proof.Machine.execReplayTimeout a0 s
  | .lossOfSignal a0 => Sys2Proof.Machine.execLossOfSignal a0 s
  | .retrainLock a0 => Sys2Proof.Machine.execRetrainLock a0 s
  | .trainTimeout a0 => Sys2Proof.Machine.execTrainTimeout a0 s
  | .retrainTimeout a0 => Sys2Proof.Machine.execRetrainTimeout a0 s
  | .sleepIdleExpiry a0 => Sys2Proof.Machine.execSleepIdleExpiry a0 s
  | .timeIntervalExpiry a0 a1 => Sys2Proof.Machine.execTimeIntervalExpiry a0 a1 s
  | .referenceInvalid a0 => Sys2Proof.Machine.execReferenceInvalid a0 s
  | .referenceValid a0 => Sys2Proof.Machine.execReferenceValid a0 s
  | .synceTxWrite a0 a1 => Sys2Proof.Machine.execSynceTxWrite a0 a1 s
  | .servoUpdate a0 a1 a2 a3 a4 => Sys2Proof.Machine.execServoUpdate a0 a1 a2 a3 a4 s
  | .tbHostMeasCommit a0 => Sys2Proof.Machine.execTbHostMeasCommit a0 s
  | .measurementLoss => Sys2Proof.Machine.execMeasurementLoss s
  | .tbAdjFreqWrite a0 a1 => Sys2Proof.Machine.execTbAdjFreqWrite a0 a1 s
  | .tbAdjGoStep a0 => Sys2Proof.Machine.execTbAdjGoStep a0 s
  | .tbAdjGoSlew a0 => Sys2Proof.Machine.execTbAdjGoSlew a0 s
  | .slewComplete => Sys2Proof.Machine.execSlewComplete s
  | .tbSetGo a0 => Sys2Proof.Machine.execTbSetGo a0 s
  | .tbSnapGo a0 => Sys2Proof.Machine.execTbSnapGo a0 s
  | .secondBoundary => Sys2Proof.Machine.execSecondBoundary s
  | .ppsPulseEnd => Sys2Proof.Machine.execPpsPulseEnd s
  | .ppsInEdge a0 a1 => Sys2Proof.Machine.execPpsInEdge a0 a1 s
  | .timedIoInputEdge a0 a1 a2 => Sys2Proof.Machine.execTimedIoInputEdge a0 a1 a2 s
  | .timedIoOutputEdge a0 => Sys2Proof.Machine.execTimedIoOutputEdge a0 s
  | .ptmRequest => Sys2Proof.Machine.execPtmRequest s
  | .ethQuadWrite a0 a1 a2 => Sys2Proof.Machine.execEthQuadWrite a0 a1 a2 s
  | .linkUp a0 a1 => Sys2Proof.Machine.execLinkUp a0 a1 s
  | .linkDown a0 => Sys2Proof.Machine.execLinkDown a0 s
  | .frameLaunch a0 a1 a2 a3 => Sys2Proof.Machine.execFrameLaunch a0 a1 a2 a3 s
  | .txRingPoll a0 a1 => Sys2Proof.Machine.execTxRingPoll a0 a1 s
  | .frameReceive a0 a1 a2 a3 a4 a5 => Sys2Proof.Machine.execFrameReceive a0 a1 a2 a3 a4 a5 s
  | .ethSteerWrite a0 a1 a2 a3 => Sys2Proof.Machine.execEthSteerWrite a0 a1 a2 a3 s
  | .secRegionGo a0 => Sys2Proof.Machine.execSecRegionGo a0 s
  | .regionDone => Sys2Proof.Machine.execRegionDone s
  | .coreWorldWrite a0 a1 a2 => Sys2Proof.Machine.execCoreWorldWrite a0 a1 a2 s
  | .keyLoad a0 a1 a2 => Sys2Proof.Machine.execKeyLoad a0 a1 a2 s
  | .keyLoadKw a0 a1 a2 => Sys2Proof.Machine.execKeyLoadKw a0 a1 a2 s
  | .keyClear a0 a1 => Sys2Proof.Machine.execKeyClear a0 a1 s
  | .keyGrant a0 a1 => Sys2Proof.Machine.execKeyGrant a0 a1 s
  | .keyRevoke a0 a1 => Sys2Proof.Machine.execKeyRevoke a0 a1 s
  | .kekImport a0 a1 a2 => Sys2Proof.Machine.execKekImport a0 a1 a2 s
  | .lockOwner a0 a1 => Sys2Proof.Machine.execLockOwner a0 a1 s
  | .kcmdComplete a0 => Sys2Proof.Machine.execKcmdComplete a0 s
  | .ciGcm a0 a1 a2 => Sys2Proof.Machine.execCiGcm a0 a1 a2 s
  | .ciCtr a0 a1 a2 => Sys2Proof.Machine.execCiCtr a0 a1 a2 s
  | .ciCmac a0 a1 a2 => Sys2Proof.Machine.execCiCmac a0 a1 a2 s
  | .ciNea a0 a1 a2 => Sys2Proof.Machine.execCiNea a0 a1 a2 s
  | .ciNia a0 a1 a2 => Sys2Proof.Machine.execCiNia a0 a1 a2 s
  | .ciPdcp a0 a1 a2 => Sys2Proof.Machine.execCiPdcp a0 a1 a2 s
  | .ciphJobStart a0 => Sys2Proof.Machine.execCiphJobStart a0 s
  | .quarantineEnable a0 a1 => Sys2Proof.Machine.execQuarantineEnable a0 a1 s
  | .svnCommit a0 => Sys2Proof.Machine.execSvnCommit a0 s
  | .debugToken a0 a1 a2 a3 a4 => Sys2Proof.Machine.execDebugToken a0 a1 a2 a3 a4 s
  | .tamper => Sys2Proof.Machine.execTamper s
  | .requestActive a0 => Sys2Proof.Machine.execRequestActive a0 s
  | .requestStandby a0 => Sys2Proof.Machine.execRequestStandby a0 s
  | .requestDormant a0 => Sys2Proof.Machine.execRequestDormant a0 s
  | .requestOff a0 => Sys2Proof.Machine.execRequestOff a0 s
  | .drainTimeout => Sys2Proof.Machine.execDrainTimeout s
  | .transitionComplete => Sys2Proof.Machine.execTransitionComplete s
  | .domainRequest a0 a1 a2 => Sys2Proof.Machine.execDomainRequest a0 a1 a2 s
  | .domainChangeComplete a0 => Sys2Proof.Machine.execDomainChangeComplete a0 s
  | .wakeN a0 => Sys2Proof.Machine.execWakeN a0 s
  | .pcieL12Exit a0 => Sys2Proof.Machine.execPcieL12Exit a0 s
  | .wakeTimer => Sys2Proof.Machine.execWakeTimer s
  | .gpioWakeEdge a0 a1 => Sys2Proof.Machine.execGpioWakeEdge a0 a1 s
  | .mainSupplyFailure a0 => Sys2Proof.Machine.execMainSupplyFailure a0 s
  | .supplyGlitch => Sys2Proof.Machine.execSupplyGlitch s
  | .powerOn a0 => Sys2Proof.Machine.execPowerOn a0 s
  | .vaonSwitchToBak => Sys2Proof.Machine.execVaonSwitchToBak s
  | .vaonSwitchToMain => Sys2Proof.Machine.execVaonSwitchToMain s
  | .oasisBrownout => Sys2Proof.Machine.execOasisBrownout s
  | .chargeTimeout => Sys2Proof.Machine.execChargeTimeout s
  | .housekeepingRound a0 => Sys2Proof.Machine.execHousekeepingRound a0 s
  | .thermalTrip a0 => Sys2Proof.Machine.execThermalTrip a0 s
  | .perstNFall => Sys2Proof.Machine.execPerstNFall s
  | .perstNRise => Sys2Proof.Machine.execPerstNRise s
  | .warm a0 => Sys2Proof.Machine.execWarm a0 s
  | .secureWatchdogExpiry => Sys2Proof.Machine.execSecureWatchdogExpiry s
  | .nsWatchdogExpiry => Sys2Proof.Machine.execNsWatchdogExpiry s
  | .bootSequence a0 => Sys2Proof.Machine.execBootSequence a0 s
  | .glbBootHostGo a0 a1 a2 => Sys2Proof.Machine.execGlbBootHostGo a0 a1 a2 s
  | .evtLatchedClear a0 a1 => Sys2Proof.Machine.execEvtLatchedClear a0 a1 s
  | .msixUnmask a0 a1 => Sys2Proof.Machine.execMsixUnmask a0 a1 s
  | .moderationIntervalEnd a0 a1 => Sys2Proof.Machine.execModerationIntervalEnd a0 a1 s
  | .evtLogSel a0 a1 => Sys2Proof.Machine.execEvtLogSel a0 a1 s
  | .stwMbSend a0 a1 => Sys2Proof.Machine.execStwMbSend a0 a1 s
  | .stwMbDone a0 a1 a2 => Sys2Proof.Machine.execStwMbDone a0 a1 a2 s
  | .pcieLink a0 a1 a2 a3 => Sys2Proof.Machine.execPcieLink a0 a1 a2 a3 s
  | .illegalBundle a0 => Sys2Proof.Machine.execIllegalBundle a0 s
  | .fetchError a0 a1 => Sys2Proof.Machine.execFetchError a0 a1 s
  | .ptpSyncInterval a0 a1 a2 => Sys2Proof.Machine.execPtpSyncInterval a0 a1 a2 s
  | .prbsLock a0 a1 => Sys2Proof.Machine.execPrbsLock a0 a1 s
  | .hbmRepairComplete a0 a1 a2 => Sys2Proof.Machine.execHbmRepairComplete a0 a1 a2 s
  | .vddRetDip a0 => Sys2Proof.Machine.execVddRetDip a0 s
  | .coarseCounterStop => Sys2Proof.Machine.execCoarseCounterStop s
  | .chargeTargetReached => Sys2Proof.Machine.execChargeTargetReached s

end Sys2Proof.Machine
end

