-- ==== Sys2Proof/Safety.lean ====
section
/-! DEFINITION. The terms claims are stated in: what counts as a safe state and a safe run, what it is for a command to complete, and
the words of the manual's rules for the operations of a core, written apart from the meanings they are held against. -/

namespace Sys2Proof.Machine

/-- Is every waiting command one the device can meet? -/
def State.queueWf (s : State) : Bool := s.pending.all Instr.wf

/-- Is the memory of a state in its canonical form? -/
def State.memWf (s : State) : Bool := Memory.wf s.dev.mem

/-- Does a run of k steps end in a state: with no fault and no refusal? -/
def State.runsTo (s : State) (k : Nat) (t : State) : Prop := Host.Core.run Sys2Proof.core k s = .next t

/-- A command completes: exec answers a next state, with the same commands waiting, whose device is as P says. -/
def Completes (c : Instr) (s : State) (P : Dev → Prop) : Prop :=
  ∃ d, exec c s = .next { s with dev := d } ∧ P d

/-- The same where the rules give the whole device after the command. -/
def Gives (c : Instr) (s : State) (d : Dev) : Prop := exec c s = .next { s with dev := d }

/-- Does the core an operation names take it now: it executes, and its bundle still lacks operations (R137, R138)? -/
def Dev.takes (d : Dev) (b : Bnd) : Bool := d.executes b.core.val && !(d.core b.core.val).current.ready

/-- A device whose core has done an operation of the bundle `cur`, which has made it the bundle n: one operation longer, it commits
if the operation is its last and nothing holds it (R138, R156). -/
def Dev.stageFrom (d : Dev) (b : Bnd) (cur n : Bundle) : Dev :=
  (d.onCore b.core.val (fun x =>
    { x with bundle := some { n with count := cur.count + 1, ready := b.last, stalls := b.stalls } })).tryCommit b.core.val

/-- The same for an operation that leaves all else of the device. -/
def Dev.stage (d : Dev) (b : Bnd) (n : Bundle) : Dev := d.stageFrom b (d.core b.core.val).current n

/-- An operation of a core completes: where its core takes it, exec answers the state in which the core's bundle is some B as P says
of the registers before the bundle, the bundle so far, and B. -/
def Issues (c : Instr) (s : State) (b : Bnd) (P : Arch → Bundle → Bundle → Prop) : Prop :=
  s.dev.takes b = true →
    ∃ B, exec c s = .next { s with dev := s.dev.stage b B } ∧ P (s.dev.core b.core.val).arch (s.dev.core b.core.val).current B

/-- An exact value as an n-bit register keeps it, wrapped. -/
def wrapped (n : Nat) (z : Int) : Int := (BitVec.ofInt n z).toInt

/-- Limits of an n-bit signed value. -/
def limited (n : Nat) (z : Int) : Int := max (-(2 ^ (n - 1) : Nat)) (min ((2 ^ (n - 1) : Nat) - 1) z)

/-- Does an exact value lie in the range of n bits? -/
def inRange (n : Nat) (z : Int) : Prop := -(2 ^ (n - 1) : Nat) ≤ z ∧ z ≤ (2 ^ (n - 1) : Nat) - 1

/-- R139: is lane i selected: by bit i of the predicate, or in a complex form by bit 2j of complex lane j? -/
def laneSelected (x : Arch) (b : Bnd) (cplx : Bool) (i : Nat) : Bool :=
  (x.rP b.pred.val).getLsbD (if cplx then 2 * (i / 2) else i)

/-- A physical V register. -/
def Arch.physV (x : Arch) (p : Nat) : BitVec 576 := lookup (fun _ => 0) x.v p

/-- R139, R182: V[v] takes `f` in the selected lanes, wrapped, or limited where `lim` says so; XSAT sets when the limit changes a lane;
nothing else of the bundle changes but the note that it writes V[v]. -/
def VectorWritten (b : Bnd) (v : Nat) (cplx : Bool) (lim : Nat → Bool) (f : Arch → Nat → Int) (x : Arch) (B0 B : Bundle) : Prop :=
  (∀ i < 32, laneOf (B.next.physV (x.phys v)) i =
    if laneSelected x b cplx i then (if lim i then limited 18 (f x i) else wrapped 18 (f x i)) else laneOf (x.rV v) i) ∧
  (∀ q, q ≠ x.phys v → B.next.physV q = B0.next.physV q) ∧
  (∀ k < 17, B.next.accSt.getLsbD k = true ↔
    (B0.next.accSt.getLsbD k = true ∨
      (k = 16 ∧ ∃ i < 32, laneSelected x b cplx i = true ∧ lim i = true ∧ ¬inRange 18 (f x i)))) ∧
  B = { B0 with writes := B0.writes ++ [nameV (x.phys v)], next := { B0.next with v := B.next.v, accSt := B.next.accSt } }

/-- No lane is limited. -/
def unlimited (_i : Nat) : Bool := false
/-- Every lane is limited. -/
def allLimited (_i : Nat) : Bool := true

/-- R143: the lanes of ACC[a] take their old value plus `f` in the selected lanes under the accumulator's mode, with the flags of
R144; nothing else of the bundle changes but the note that it writes ACC[a], and the overflows it has met. -/
def Accumulated (b : Bnd) (a : Nat) (cplx : Bool) (f : Arch → Nat → Int) (x : Arch) (B0 B : Bundle) : Prop :=
  (∀ i < 32, B.next.rAcc a i =
    if laneSelected x b cplx i then
      (if x.accMode.getLsbD a then
        (if (32 * a + i) ∈ B0.next.hold then B0.next.rAcc a i else limited 48 (B0.next.rAcc a i + f x i))
       else wrapped 48 (B0.next.rAcc a i + f x i))
    else B0.next.rAcc a i) ∧
  (∀ a' i, a' ≠ a → i < 32 → B.next.rAcc a' i = B0.next.rAcc a' i) ∧
  (∀ k < 17, B.next.accSt.getLsbD k = true ↔
    (B0.next.accSt.getLsbD k = true ∨
      (k = a ∧ x.accMode.getLsbD a = false ∧
        ∃ i < 32, laneSelected x b cplx i = true ∧ ¬inRange 48 (B0.next.rAcc a i + f x i)) ∨
      (k = 8 + a ∧ x.accMode.getLsbD a = true ∧
        ∃ i < 32, laneSelected x b cplx i = true ∧ (32 * a + i) ∉ B0.next.hold ∧
          ¬inRange 48 (B0.next.rAcc a i + f x i)))) ∧
  (x.accMode.getLsbD a = true → ∀ k, k ∈ B.next.hold ↔
    (k ∈ B0.next.hold ∨ ∃ i < 32, laneSelected x b cplx i = true ∧ k = 32 * a + i ∧
      ¬inRange 48 (B0.next.rAcc a i + f x i))) ∧
  B = { B0 with writes := B0.writes ++ [nameAcc a], tovf := B.tovf, sovf := B.sovf,
                next := { B0.next with acc := B.next.acc, accSt := B.next.accSt, hold := B.next.hold } }

/-- R181: the selected lanes of ACC[a] are set to `f`, whatever the mode, which ends a hold and sets no flag. -/
def AccSet (b : Bnd) (a : Nat) (cplx : Bool) (f : Arch → Nat → Int) (x : Arch) (B0 B : Bundle) : Prop :=
  (∀ i < 32, B.next.rAcc a i = if laneSelected x b cplx i then wrapped 48 (f x i) else B0.next.rAcc a i) ∧
  (∀ a' i, a' ≠ a → i < 32 → B.next.rAcc a' i = B0.next.rAcc a' i) ∧
  (∀ k, k ∈ B.next.hold ↔ k ∈ B0.next.hold ∧ ¬∃ i < 32, laneSelected x b cplx i = true ∧ k = 32 * a + i) ∧
  B = { B0 with writes := B0.writes ++ [nameAcc a],
                next := { B0.next with acc := B.next.acc, hold := B.next.hold } }

/-- Sample lane i of V[r] before the bundle. -/
def Arch.sample (x : Arch) (r : Fin 64) (i : Nat) : Int := laneOf (x.rV r.val) i
/-- Lane 2j of V[r], the real part of complex lane j, where i is 2j or 2j + 1. -/
def Arch.re (x : Arch) (r : Fin 64) (i : Nat) : Int := laneOf (x.rV r.val) (2 * (i / 2))
/-- Lane 2j + 1 of V[r], the imaginary part. -/
def Arch.im (x : Arch) (r : Fin 64) (i : Nat) : Int := laneOf (x.rV r.val) (2 * (i / 2) + 1)

/-- R181: the complex product x·y, real part in even lanes. -/
def product (xr xi yr yi : Int) (i : Nat) : Int := if i % 2 = 0 then xr * yr - xi * yi else xr * yi + xi * yr
/-- R181: the complex product x·conj(y). -/
def conjProduct (xr xi yr yi : Int) (i : Nat) : Int := if i % 2 = 0 then xr * yr + xi * yi else xi * yr - xr * yi

/-- R147: h is the headroom of v in width n: the leading bits equal to the sign bit, less one. -/
def IsHeadroom (n : Nat) (v : Int) (h : Nat) : Prop :=
  h ≤ n - 1 ∧ -(2 ^ (n - 1 - h) : Nat) ≤ v ∧ v < (2 ^ (n - 1 - h) : Nat) ∧
    (h < n - 1 → ¬(-(2 ^ (n - 2 - h) : Nat) ≤ v ∧ v < (2 ^ (n - 2 - h) : Nat)))

/-- R147: m is the smallest headroom over the selected lanes, n − 1 where no lane is selected. -/
def LeastHeadroom (n : Nat) (on : Nat → Bool) (f : Nat → Int) (m : Nat) : Prop :=
  (∀ i < 32, on i = true → ∃ h, IsHeadroom n (f i) h ∧ m ≤ h) ∧
    ((∃ i < 32, on i = true ∧ IsHeadroom n (f i) m) ∨ ((∀ i < 32, on i = false) ∧ m = n - 1))

/-- R139: the register a scalar operation writes under bit 0 of its predicate; nothing else of the bundle changes but the note of
the registers it names. -/
def ScalarWritten (b : Bnd) (names : List Nat) (w : Arch → Arch → Arch) (x : Arch) (B0 B : Bundle) : Prop :=
  B = { B0 with writes := B0.writes ++ names,
                next := if (x.rP b.pred.val).getLsbD 0 then w x B0.next else B0.next }

/-- R139: an operation that marks the bundle under bit 0 of its predicate, and writes the registers named. -/
def Marked (b : Bnd) (names : List Nat) (m : Arch → Bundle → Bundle) (x : Arch) (B0 B : Bundle) : Prop :=
  B = if (x.rP b.pred.val).getLsbD 0 then m x { B0 with writes := B0.writes ++ names }
      else { B0 with writes := B0.writes ++ names }

/-- R139: the words of an access that its predicate selects: of a vector those with a lane bit set, of a narrow access the one word
under bit 0. -/
def accessUnits (x : Arch) (b : Bnd) (vec : Bool) (n : Nat) : List Nat :=
  (upFrom 0 n).filter (fun i =>
    if vec then (upFrom 0 4).any (fun k => laneOn (x.rP b.pred.val) (4 * i + k)) else laneOn (x.rP b.pred.val) 0)

/-- The words those units lie in, with their places. -/
def Dev.accessWords (d : Dev) (x : Arch) (b : Bnd) (m : Addr) (size n : Nat) (vec : Bool) : List (Nat × Nat) :=
  (accessUnits x b vec n).map (fun i => (x.accessAddr d.ownId m size i / 8 * 8, i))

/-- R151, R183: the working copy after the post-modify of an access. -/
def Arch.modified (y : Arch) (x : Arch) (m : Addr) (size : Nat) : Arch :=
  if m.pm then y.wA m.n.val (x.postModified m size) else y

/-- R138: the registers an access names as written: its destination, if any, and the A register it post-modifies. -/
def accessNames (dest : List Nat) (m : Addr) : List Nat := dest ++ if m.pm then [nameA m.n.val] else []

/-- May a load or store of a core be made now: its core takes it, it names a word, it traps on none, and no MFENCE holds it (R149–R151,
R160)? -/
def Dev.accesses (d : Dev) (b : Bnd) (m : Addr) (size n : Nat) (vec : Bool) : Prop :=
  d.takes b = true ∧ accessUnits (d.core b.core.val).arch b vec n ≠ [] ∧
    d.accessTraps (d.core b.core.val).arch m size (accessUnits (d.core b.core.val).arch b vec n) = [] ∧
    (d.core b.core.val).fence = false

/-- R158, R160: a load of words in the core's own data memory, or of words that one buffered store covers, has its words at once: where
they read as `vals`, exec answers the state in which the load is done, and W says what becomes of the working copy. -/
def LoadsNow (c : Instr) (s : State) (b : Bnd) (m : Addr) (size n : Nat) (vec : Bool) (dest : Arch → Nat)
    (W : Arch → Nat → List (Nat × Word) → Arch → Arch → Prop) : Prop :=
  ∀ (d' : Dev) (vals : List (Nat × Word)),
    let core := s.dev.core b.core.val
    let x := core.arch
    let words := s.dev.accessWords x b m size n vec
    let addrs := words.map (·.1)
    let touched := core.buffer.any (fun st => st.any (fun w => addrs.contains w.addr))
    s.dev.accesses b m size n vec →
    (m.g.val = 0 ∧ addrs.all (s.dev.inOwnData b.core.val) = true ∧ s.dev.cxHolds b.core.val addrs = false ∧ touched = false) ∨
      (core.covered addrs = true ∧ touched = true ∧
        (m.g.val == 0 && addrs.all (s.dev.inOwnData b.core.val) && s.dev.cxHolds b.core.val addrs) = false) →
    s.dev.readNow b.core.val (x.accessAddr s.dev.ownId m size 0) words = (d', vals, []) →
    ∃ y, W x (x.accessAddr s.dev.ownId m size 0 % 8) vals (core.current.next.modified x m size) y ∧
      Gives c s (d'.stageFrom b core.current
        { core.current with writes := core.current.writes ++ accessNames [dest x] m, next := y })

/-- R158: a load of words elsewhere, none of them touched by a buffered store, waits: exec answers the state in which the bundle holds
the load, and words of the host window have been asked for (R118). -/
def LoadsLater (c : Instr) (s : State) (b : Bnd) (m : Addr) (size n : Nat) (vec : Bool) (dest : Arch → Nat)
    (into : Arch → Nat → LoadInto) : Prop :=
  let core := s.dev.core b.core.val
  let x := core.arch
  let a := x.accessAddr s.dev.ownId m size 0
  let words := s.dev.accessWords x b m size n vec
  let addrs := words.map (·.1)
  let f := s.dev.coreFunc b.core.val
  s.dev.accesses b m size n vec →
  (m.g.val == 0 && addrs.all (s.dev.inOwnData b.core.val)) = false →
  core.buffer.any (fun st => st.any (fun w => addrs.contains w.addr)) = false →
  let asked := (addrs.filter (fun w => bitOf w 53 && s.dev.jfe.busMaster.getLsbD f)).map (fun w => Out.read f (w % 2 ^ 53) 8)
  Gives c s (({ s.dev with out := s.dev.out ++ asked } : Dev).stageFrom b core.current
    { core.current with writes := core.current.writes ++ accessNames [dest x] m, next := core.current.next.modified x m size,
                        load := some { words := words, into := into x (a % 8), access := a } })

/-- R185: a store is taken into its bundle: exec answers the state in which the bundle holds the shares of its words. -/
def Stores (c : Instr) (s : State) (b : Bnd) (m : Addr) (size n : Nat) (vec : Bool) (share : Arch → Nat → Nat → StoreWord) : Prop :=
  let core := s.dev.core b.core.val
  let x := core.arch
  s.dev.accesses b m size n vec →
  Gives c s (s.dev.stage b
    { core.current with writes := core.current.writes ++ accessNames [] m, next := core.current.next.modified x m size,
                        store := (accessUnits x b vec n).map (fun i => share x (x.accessAddr s.dev.ownId m size i) i) })

/-- Words beyond the core's reach that come back whole, in order: each takes what it needs of `ext` (R118, R159). -/
def Brings : Dev → Nat → List (Nat × Nat) → List Ext → Dev → List (Nat × Word) → Prop
  | d, _, [], _, d', vals => d' = d ∧ vals = []
  | d, c, w :: ws, ext, d', vals =>
    ∃ d1 v es vs, d.loadOuter c w.1 ext = (d1, .data v, es) ∧ Brings d1 c ws es d' vs ∧ vals = (w.2, v) :: vs

/-- The share of samples [k, k + n) of S[r] in the word at a (R185). -/
def sampleStore (r : Fin 32) (k n : Nat) (x : Arch) (a : Nat) : StoreWord :=
  { addr := a - a % 8, value := BitVec.ofNat 72 ((x.rS r.val).toNat % 2 ^ (18 * n) * 2 ^ (18 * k)), byteView := false,
    mask := (2 ^ n - 1) * 2 ^ k, whole := false }

/-- The share of n bytes of a register at the byte address a (R185). -/
def byteStore (v n : Nat) (a : Nat) : StoreWord :=
  { addr := a - a % 8, value := BitVec.ofNat 72 (v % 2 ^ (8 * n) * 2 ^ (8 * (a % 8))), byteView := true,
    mask := (2 ^ n - 1) * 2 ^ (a % 8), whole := false }

/-- The share of word i of V[r] under the predicate (R139, R185). -/
def vectorStore (r : Fin 64) (b : Bnd) (x : Arch) (a i : Nat) : StoreWord :=
  let mask := (x.rP b.pred.val).toNat / 2 ^ (4 * i) % 16
  { addr := a - a % 8, value := (x.rV r.val).extractLsb' (72 * i) 72, byteView := false, mask := mask, whole := mask == 15 }

/-- R67, R70: a job as it stands once it has ended with a status and RESULT: OK becomes LATE when its deadline has passed. -/
def Dev.endedJob (d : Dev) (j : Job) (status result : Nat) : Job :=
  { j with phase := .ended, result := BitVec.ofNat 128 result, time := d.now,
           status := if status = 0 ∧ j.noDeadline = false ∧ j.opcode ≠ 1 ∧ timeDiff j.deadline d.now < 0 then 1 else status }

/-- R162: core c of d' has entered its trap handler from the state d: the handler registers, the level, the PC, TRAPS and the event. -/
def Entered (d d' : Dev) (c : Fin 104) (pc : BitVec 13) (code detail tag addr : Nat) (after : Bool) : Prop :=
  let e := c.val / 8
  let k := c.val % 8
  let x := (d.core c.val).arch
  let y := (d'.core c.val).arch
  y.trapPc = pc ∧ y.trapCause = BitVec.ofNat 8 code ∧
    y.trapInfo = BitVec.ofNat 17 (detail % 2 ^ 8 + tag % 8 * 2 ^ 8 + if after then 2 ^ 16 else 0) ∧
    y.trapAddr = BitVec.ofNat 56 addr ∧ y.trapLevel = 0 ∧ (y.level = if d.on (Reg.ERG_CORE_CFG_WORLD e k) then .ss else .ns) ∧
    y.pc = BitVec.ofNat 13 (d.get (Reg.ERG_CORE_TVEC e k)) ∧ y.s = x.s ∧ y.a = x.a ∧ y.v = x.v ∧ y.p = x.p ∧ y.acc = x.acc ∧
    d'.get (coreState c.val) = 2 ∧ d'.get (Reg.ERG_CORE_STATUS_LAST_CAUSE e k) = code % 256 ∧
    d'.get (Reg.ERG_CORE_TRAPS e k) = (d.get (Reg.ERG_CORE_TRAPS e k) + 1) % 2 ^ 16

/-- A core at a bundle boundary at TK, executing its task, that holds no asynchronous trap (R163). -/
def Dev.atBoundary (d : Dev) (c : Nat) : Prop :=
  let x := d.core c
  x.bundle = none ∧ x.arch.level = .tk ∧ d.get (coreState c) = 1 ∧ x.ending = none ∧ x.forced = false ∧ x.abort = none ∧
    x.fault = none ∧ x.late = none

/-- A job's command leaves every other job, the cores, the tasks, the network, the links, the power controller and time as they were. -/
def Dev.keepsOthers (d e : Dev) (id : Nat) : Prop :=
  (∀ x, x ≠ id → e.job x = d.job x) ∧ e.cores = d.cores ∧ e.tsu = d.tsu ∧ e.noc = d.noc ∧ e.links = d.links ∧ e.power = d.power ∧
    e.time = d.time ∧ e.boot = d.boot

/-- A job has ended, with some status and RESULT, now; all else is kept as `keepsOthers` says (R67, R70). -/
def Dev.jobEnds (d : Dev) (j : Job) (e : Dev) : Prop :=
  (∃ st r, e.job j.id = some (d.endedJob j st r)) ∧ d.keepsOthers e j.id

/-- A job that no answer from another device has yet touched (R119, R340). -/
def Job.untouched (j : Job) : Prop := j.verdict = none ∧ j.uncorr = false ∧ j.poison = false

/-- May the word at a device byte address be written by a request: mapped, open to it, in service, with no injection armed for it
(R90, R97, R129, R131, R338)? -/
def Dev.accepts (d : Dev) (q : Req) (b : Nat) : Prop :=
  ∃ r, regionOf b = some r ∧ d.writable r = true ∧ d.refuse q r (b / 8) true = none ∧ d.outOfService r.ctrl = false ∧
    d.on Reg.MEM_INJECT_ARMED = false

/-- Does a read of the word at a device byte address meet a clean word of on-chip memory that is open to the request? -/
def Dev.clearRead (d : Dev) (q : Req) (b : Nat) : Prop :=
  ∃ r, regionOf b = some r ∧ d.readable r = true ∧ d.refuse q r (b / 8) false = none ∧ d.outOfService r.ctrl = false ∧
    (∀ i, r ≠ .hbm i) ∧ Sys2Proof.Machine.classify (d.raw (b / 8)) = .clean

/-- Element (r, c) of a matrix, zero outside it. -/
def elem (m : Mat) (r c : Nat) : Cx := (m.getD r []).getD c Cx.zero

/-- The same of its conjugate transpose where `conj` says so (R238). -/
def opElem (conj : Bool) (m : Mat) (r c : Nat) : Cx := if conj then (elem m c r).conj else elem m r c

/-- The exact sum of x(k)·y(k) for k below n. -/
def dot (n : Nat) (x y : Nat → Cx) : Cx :=
  ⟨((List.range n).map (fun k => (x k).re * (y k).re - (x k).im * (y k).im)).sum,
   ((List.range n).map (fun k => (x k).re * (y k).im + (x k).im * (y k).re)).sum⟩

/-- Is a matrix one of `rows` rows of `cols` samples each? -/
def shaped (m : Mat) (rows cols : Nat) : Prop :=
  m.length = rows ∧ ∀ r ∈ m, r.length = cols ∧ ∀ x ∈ r, inRange 18 x.re ∧ inRange 18 x.im

/-- R71, R301: the 32 bytes of a report record, with what it says of the reports lost before it and its PHASE. -/
def Report.shown (r : Report) (lost phase : Nat) (v : Nat) : Prop :=
  bitsOf v 0 8 = r.kind ∧ bitsOf v 8 5 = r.flags ∧ bitsOf v 13 3 = r.cause ∧ bitsOf v 16 8 = r.status ∧ bitsOf v 24 8 = r.ctx ∧
  bitsOf v 32 5 = r.slot ∧ bitsOf v 37 3 = r.fmt ∧ bitsOf v 40 8 = r.seq ∧ signed (bitsOf v 48 16) 16 = r.metric ∧
  bitsOf v 64 16 = r.gen ∧ bitsOf v 80 16 = r.freq ∧ bitsOf v 96 32 = r.timing ∧ bitsOf v 128 16 = r.drift ∧ bitsOf v 144 8 = lost ∧
  bitsOf v 152 8 = 0 ∧ bitsOf v 160 64 = r.time.toNat ∧ bitsOf v 224 31 = 0 ∧ bitsOf v 255 1 = phase

/-- The reports receiver b has lost since the last it wrote (R300). -/
def Dev.lostReports (d : Dev) (b : Nat) : Nat := lookup (fun _ => 0) d.brx.lost b

/-- R300: the report ring of receiver b lies in the host window, its function may write, and n more reports have room. -/
def Dev.reportsFit (d : Dev) (b n : Nat) : Prop :=
  d.lostReports b ≤ 255 ∧ d.jfe.busMaster.getLsbD (d.get (Reg.BRX_CFG_FUNC b)) = true ∧
  ∀ i < n, let pi := (d.get (Reg.BRX_REP_PI b) + i) % 2 ^ 32
    (pi + 2 ^ 32 - d.get (Reg.BRX_REP_CI_SEEN b)) % 2 ^ 32 < 2 ^ d.get (Reg.BRX_CFG_REP_LOG2 b) ∧
    ∃ iova, d.target (d.addr56 (Reg.BRX_REP_BASE b).off 12 + 32 * (pi % 2 ^ d.get (Reg.BRX_CFG_REP_LOG2 b))) = .host iova

/-- R71, R300, R301: the device e has written what the device d had to report, as one record at the place of its count, and counts none
lost any more. -/
def Dev.reported (d e : Dev) (b : Nat) (r : Report) : Prop :=
  let pi := d.get (Reg.BRX_REP_PI b)
  let lg := d.get (Reg.BRX_CFG_REP_LOG2 b)
  ∃ rec iova, d.target (d.addr56 (Reg.BRX_REP_BASE b).off 12 + 32 * (pi % 2 ^ lg)) = .host iova ∧
    e.out = d.out ++ [.record (d.get (Reg.BRX_CFG_FUNC b)) iova rec] ∧
    r.shown (d.lostReports b) ((pi / 2 ^ lg + 1) % 2) rec.toNat ∧ e.get (Reg.BRX_REP_PI b) = (pi + 1) % 2 ^ 32 ∧ e.lostReports b = 0

/-- The contexts of receiver b other than k keep their states and their generations. -/
def Dev.keepsContexts (d e : Dev) (b k : Nat) : Prop :=
  ∀ l < 64, l ≠ k → e.get (Reg.BRX_CTX_STATE b l) = d.get (Reg.BRX_CTX_STATE b l) ∧
    e.get (Reg.BRX_CTX_GEN b l) = d.get (Reg.BRX_CTX_GEN b l) ∧ e.brxCtx b l = d.brxCtx b l

/-- The registers of context k of receiver b as a detection opens it (R293, R298). -/
def Dev.opened (d e : Dev) (b k slot fmt : Nat) (x : Detection) (start : ShortTime) (time : ShortTime) : Prop :=
  e.get (Reg.BRX_CTX_STATE b k) = (if d.get (Reg.BRX_FMT_EARLY_REP b (8 * slot + fmt)) = 0 then 2 else 1) ∧
  e.get (Reg.BRX_CTX_SLOT b k) = slot ∧ e.get (Reg.BRX_CTX_FMT b k) = fmt ∧
  e.get (Reg.BRX_CTX_GEN b k) = (d.get (Reg.BRX_CTX_GEN b k) + 1) % 2 ^ 16 ∧
  signed (e.get (Reg.BRX_CTX_METRIC b k)) 16 = x.metric ∧ e.get64 (Reg.BRX_CTX_OPEN_TIME b k) = time.toNat ∧
  (e.brxCtx b k).seq = x.peak.seq ∧ (e.brxCtx b k).freq = x.peak.freq ∧ (e.brxCtx b k).timing = x.peak.timing ∧
  (e.brxCtx b k).drift = x.peak.drift ∧ (e.brxCtx b k).occasion = start

/-- R298, R315: the chains of a TD slot of receiver b have their AGC frozen, or not. -/
def Dev.agcIs (d : Dev) (b slot : Nat) (frozen : Bool) (e : Dev) : Prop :=
  d.on (Reg.BRX_SLOT_INPUT b slot) = false → ∀ r < 128, d.get (Reg.BRX_SLOT_CHAIN0 b slot) ≤ r →
    r < d.get (Reg.BRX_SLOT_CHAIN0 b slot) + d.get (Reg.BRX_SLOT_NANT b slot) →
    e.on (Reg.DFE_RX_CAR_FROZEN r (d.get (Reg.BRX_SLOT_CAR b slot))) = frozen

/-- R298: context k of receiver b has ended with a cause and a status: its END is written, it is FREE, and the AGC of its slot thaws if
no other context of the slot is left. -/
def Dev.ctxEnded (d e : Dev) (b k cause status : Nat) (fls : Bool) (time : ShortTime) : Prop :=
  d.reported e b (d.ctxReport b k 4 (if fls then 8 else 0) cause status time) ∧ e.get (Reg.BRX_CTX_STATE b k) = 0 ∧
  (e.brxCtx b k).ended = some time ∧ e.get (Reg.BRX_FALSE b) = (d.get (Reg.BRX_FALSE b) + b2n fls) % 2 ^ 32 ∧ d.keepsContexts e b k ∧
  ((∀ l < 64, l ≠ k → d.get (Reg.BRX_CTX_STATE b l) = 0 ∨ d.get (Reg.BRX_CTX_SLOT b l) ≠ d.get (Reg.BRX_CTX_SLOT b k)) →
    d.agcIs b (d.get (Reg.BRX_CTX_SLOT b k)) false e)

/-- All that a receiver's command leaves alone: memory, jobs, cores, tasks, network, links, keys and time. -/
def Dev.brxFrame (d e : Dev) : Prop :=
  e.mem = d.mem ∧ e.jfe = d.jfe ∧ e.cores = d.cores ∧ e.tsu = d.tsu ∧ e.noc = d.noc ∧ e.links = d.links ∧ e.eth = d.eth ∧
    e.sec = d.sec ∧ e.time = d.time ∧ e.power = d.power

/-- All that a link's command leaves alone: memory, jobs, cores, tasks, what has gone out over PCIe, and the other ports. -/
def Dev.linkFrame (d e : Dev) (p : Nat) : Prop :=
  e.mem = d.mem ∧ e.jfe = d.jfe ∧ e.cores = d.cores ∧ e.tsu = d.tsu ∧ e.out = d.out ∧ e.eth = d.eth ∧ e.time = d.time ∧
    ∀ q, q ≠ p → e.link q = d.link q

/-- R362, R364, R370: port p has left RUN with a fault: its traffic has ended, its lanes have lost their alignment, and ULD_DOWN tells
that a link that was up is down. -/
def Dev.linkFails (d e : Dev) (p code : Nat) : Prop :=
  e.get (uldFn p).fault = code ∧ e.stopping (uldFn p) = true ∧ e.on (uldFn p).abort = false ∧ e.on (Reg.ULD_ATTN_FAULT p) = true ∧
  e.on (Reg.ULD_TIME_VALID p) = false ∧ e.get (Reg.ULD_OUTSTANDING p) = 0 ∧ (e.link p).tracked = [] ∧ (e.link p).replay = [] ∧
  (e.link p).queue = [] ∧ ((d.link p).wasActive = true → ⟨0x6CC + p, false⟩ ∈ e.evt.queue) ∧
  (∀ l, 32 + 8 * p ≤ l → l < 40 + 8 * p → e.get (Reg.LANE_STATUS_SLIP l) = 0 ∧ e.on (Reg.LANE_CFG_RX_INVERT l) = false) ∧
  d.linkFrame e p

/-- R362: port p has gone from ACTIVE to RETRAIN, its traffic held. -/
def Dev.retrains (d e : Dev) (p : Nat) : Prop :=
  e.get (Reg.ULD_STATE_TRAIN p) = 7 ∧ e.get (Reg.ULD_RETRAINS p) = (d.get (Reg.ULD_RETRAINS p) + 1) % 2 ^ 16 ∧
  e.on (Reg.ULD_ATTN_RETRAIN p) = true ∧ e.on (Reg.ULD_TIME_VALID p) = false ∧ e.on (Reg.ULD_STATE_TX_SLEEP p) = false ∧
  e.on (Reg.ULD_STATE_RX_SLEEP p) = false ∧ (e.link p).retraining = true ∧ (e.link p).since = d.now ∧
  (e.link p).replay = (d.link p).replay ∧ (e.link p).queue = (d.link p).queue ∧ (e.link p).tracked = (d.link p).tracked ∧
  (e.link p).sentLine = (d.link p).sentLine ∧ d.linkFrame e p

/-- R357: the marker word of lane n. -/
def markerFor (n : Fin 8) : BitVec 64 := BitVec.ofNat 64 (0x8B73D14E2C96A5 * 2 ^ 8 + n.val * 2 ^ 5 + 22)

/-- A frame that brings only its body: no ACK of a frame held, no NAK, and no packet waits at its port (R356, R359). -/
def Dev.plainFrame (d : Dev) (p : Nat) (f : Frame) : Prop :=
  f.nak = false ∧ (d.link p).queue = [] ∧ ∀ x ∈ (d.link p).replay, x.1 ≠ f.ack.val

/-- R359: port p has sent its replay buffer again. -/
def Dev.replays (d e : Dev) (p : Nat) : Prop :=
  (e.link p).sentLine = (d.link p).sentLine ++ (d.link p).replay.map (fun x => Line.data x.1 x.2) ∧
  (e.link p).replay = (d.link p).replay ∧ (e.link p).replayCount = (d.link p).replayCount + 1 ∧ (e.link p).lastReplay = some d.now ∧
  e.get (Reg.ULD_REPLAYS p) = (d.get (Reg.ULD_REPLAYS p) + 1) % 2 ^ 32 ∧ d.linkFrame e p

/-- All that a command of the timebase island leaves alone. -/
def Dev.clockFrame (d e : Dev) : Prop :=
  e.mem = d.mem ∧ e.jfe = d.jfe ∧ e.cores = d.cores ∧ e.tsu = d.tsu ∧ e.noc = d.noc ∧ e.links = d.links ∧ e.eth = d.eth ∧
    e.sec = d.sec ∧ e.power = d.power

/-- R371: the counter with the fraction below short time, in units of 2^-48 ns. -/
def Dev.counter (d : Dev) : Int := (d.time.short.toNat * 2 ^ 32 + d.time.frac.toNat : Nat)

/-- R371, R29: from d to e the counter has moved by x units of 2^-48 ns, full time with it, and the fabric sees it. -/
def Dev.counted (d e : Dev) (x : Int) : Prop :=
  e.counter = (d.counter + x) % 2 ^ 96 ∧ e.time.cast = e.time.short ∧
  (e.time.full : Int) = (d.time.full + ((d.counter + x) / 2 ^ 32 - d.time.short.toNat)) % (2 ^ 48 * 10 ^ 9 * 65536)

/-- R373: time has stepped by x units of 2^-16 ns: ATTN.STEP is set, and a forward step has skipped an interval. -/
def Dev.stepped (d e : Dev) (x : Int) : Prop :=
  d.counted e (x * 2 ^ 32) ∧ e.bit Reg.TB_ATTN 1 = true ∧
    e.time.skips = (if x < 0 then d.time.skips else (d.time.short, e.time.short) :: d.time.skips)

/-- R376: the time state of d has become st in e: a change is told by TB_ATTN.STATE and TB_STATE, and TRACEABLE is 1 in LOCKED only. -/
def Dev.timeBecomes (d e : Dev) (st : Nat) : Prop :=
  e.timeState = st ∧ (d.timeState ≠ st → e.on Reg.TB_STATE_TRACEABLE = decide (st = 2) ∧ e.bit Reg.TB_ATTN 0 = true ∧
    ⟨0x740, false⟩ ∈ e.evt.queue)

/-- R390, R395: the TX ring entry of a frame of port n, if it has one, lies in the host window, and the PF may write it. -/
def Dev.entryInHost (d : Dev) (n : Nat) (f : TxFrame) : Prop :=
  ∀ k, f.ring = some k → d.jfe.busMaster.getLsbD 0 = true ∧ ∃ iova, d.target (d.txrSlot n k + 16) = .host iova

/-- R395: a frame of port n is over: its ring entry, if it has one, takes TX_TIME, STATUS, flags and PHASE in one write, and nothing else
goes out. -/
def Dev.entryOver (d e : Dev) (n : Nat) (f : TxFrame) (time : ShortTime) (status flags : Nat) : Prop :=
  (f.ring = none → e.out = d.out) ∧
  ∀ k iova, f.ring = some k → d.target (d.txrSlot n k + 16) = .host iova → ∃ ro, ∃ bs : List Byte, bs.length = 16 ∧
    e.out = d.out ++ [.write 0 iova bs ro] ∧
    ofLE bs = time.toNat + status * 2 ^ 64 + flags * 2 ^ 72 + (k / 2 ^ d.get (Reg.ETH_PORT_TXR_LOG2 n) + 1) % 2 * 2 ^ 127

/-- All that a command of the Ethernet ports leaves alone but for what goes out. -/
def Dev.ethFrame (d e : Dev) : Prop :=
  e.mem = d.mem ∧ e.jfe = d.jfe ∧ e.cores = d.cores ∧ e.tsu = d.tsu ∧ e.noc = d.noc ∧ e.links = d.links ∧ e.sec = d.sec ∧ e.time = d.time ∧
    e.power = d.power

/-- R446, R467, R468: nothing of the device's work is left: jobs, rings, cores, tasks, packets, coding instances, receivers, chains, key
commands and cipher jobs are as after reset. -/
def Dev.workLost (e : Dev) : Prop :=
  e.jfe = Dev.reset.jfe ∧ e.cores = [] ∧ e.tsu = Dev.reset.tsu ∧ e.noc = Dev.reset.noc ∧ e.code = Dev.reset.code ∧ e.brx = Dev.reset.brx ∧
    e.dfe = Dev.reset.dfe ∧ e.sec.jobs = [] ∧ e.sec.kcmds = [] ∧ e.sec.region = none

/-- R376, R467: a cold boot is due for a cause: every register word outside the oasis domain is at its reset value but for those that show
time and the drawers loaded, and short time begins at 0. -/
def Dev.coldDue (e : Dev) (cause : Nat) : Prop :=
  e.workLost ∧ e.boot.due = some true ∧ e.boot.cause = cause ∧ e.boot.powered = true ∧ e.boot.input = none ∧ e.time.short = 0 ∧
    ∀ off, oasisWord off = false → off ∉ [Reg.SEC_STATUS_LOADED.off, Reg.TB_STATE_STATE.off, Reg.TB_COARSE_ELAPSED_S.off] →
      e.word off = regReset off

/-- R372, R467, R468: a warm boot is due in e, for a cause, from the state d: the timebase island, the device ID and what HBM training
left keep their registers, and time goes on. -/
def Dev.warmDue (d e : Dev) (cause : Nat) : Prop :=
  e.workLost ∧ e.boot.due = some false ∧ e.boot.cause = cause ∧ e.boot.powered = true ∧ e.boot.input = none ∧ e.time.short = d.time.short ∧
    e.time.full = d.time.full ∧ e.get Reg.GLB_ID_DEVID = d.get Reg.GLB_ID_DEVID ∧
    ∀ off, oasisWord off = false → warmWord off = false → off ∉ [Reg.SEC_STATUS_LOADED.off, 0x800020] → e.word off = regReset off

/-- R481: e has one entry of the event log more than d, of a kind and with a detail. -/
def Dev.logged (d e : Dev) (kind detail : Nat) : Prop :=
  e.get Reg.EVT_LOG_HEAD = (d.get Reg.EVT_LOG_HEAD + 1) % 2 ^ 32 ∧ ∃ v : BitVec 192,
    e.evt.log = (d.evt.log ++ [v]).drop (d.evt.log.length + 1 - 1024) ∧ bitsOf v.toNat 0 32 = d.get Reg.EVT_LOG_HEAD ∧
    bitsOf v.toNat 44 4 = kind ∧ bitsOf v.toNat 128 32 = detail

/-- All that a command of the security block leaves alone but for memory and what it says of keys. -/
def Dev.secFrame (d e : Dev) : Prop :=
  e.jfe = d.jfe ∧ e.cores = d.cores ∧ e.tsu = d.tsu ∧ e.noc = d.noc ∧ e.links = d.links ∧ e.eth = d.eth ∧ e.time = d.time ∧
    e.power = d.power ∧ e.out = d.out

/-- All that the power controller's own steps leave alone. -/
def Dev.powerFrame (d e : Dev) : Prop :=
  e.mem = d.mem ∧ e.jfe = d.jfe ∧ e.cores = d.cores ∧ e.tsu = d.tsu ∧ e.noc = d.noc ∧ e.links = d.links ∧ e.eth = d.eth ∧ e.sec = d.sec ∧
    e.time = d.time ∧ e.out = d.out ∧ e.boot = d.boot

/-- R448: what PWR_STATUS shows of requests: the transition in progress, if any, and the pending request, if any, with HELD. -/
def Dev.requestsAre (e : Dev) (going : Option Nat) (waits : Option (Nat × Bool)) : Prop :=
  e.on Reg.PWR_STATUS_IN_PROGRESS = going.isSome ∧ (∀ t, going = some t → e.get Reg.PWR_STATUS_TARGET = t) ∧
    e.on Reg.PWR_STATUS_PENDING = waits.isSome ∧
    ∀ t h, waits = some (t, h) → e.get Reg.PWR_STATUS_PENDING_TARGET = t ∧ e.on Reg.PWR_STATUS_HELD = h

/-- The chest banks that stay powered when the device goes to OFF or BACKUP, in bits (R454). -/
def Dev.keptBanks (d : Dev) : BitVec 8 := if d.domState 20 = 0 then BitVec.ofNat 8 (d.get Reg.PWR_CHEST_KEEP) else d.power.retain

/-- R446, R454, R456: the device d has gone to a state without power, OFF or BACKUP, in e: only the oasis domain and the kept chest banks
stand. -/
def Dev.unpowered (d e : Dev) (st : Nat) : Prop :=
  e.workLost ∧ e.devState = st ∧ e.on Reg.PWR_STATUS_IN_PROGRESS = false ∧ e.on Reg.PWR_STATUS_PENDING = false ∧ e.boot.due = none ∧
    e.power.retain = d.keptBanks ∧ (∀ k < 24, e.domState k = if k = 20 ∧ d.keptBanks ≠ 0 then 1 else 2) ∧
    (∀ w, (∃ k < 8, d.keptBanks.getLsbD k = true ∧ chestWord k ≤ w ∧ w < chestWord k + 131072) → e.raw w = d.raw w) ∧
    (∀ w, ¬(∃ k < 8, d.keptBanks.getLsbD k = true ∧ chestWord k ≤ w ∧ w < chestWord k + 131072) → e.raw w = encodeWord 0) ∧
    (∀ off, sequencerWord off = false → off ∉ [Reg.SEC_STATUS_LOADED.off, Reg.TB_STATE_STATE.off] → e.word off = regReset off) ∧
    e.out = d.out

/-- The register words that have no rule beyond their access codes: a write of one stores its fields, and at most brings a level source up
to date. -/
def plainWord (off : Nat) : Bool :=
  let within (lo hi : Nat) : Bool := decide (lo ≤ off) && decide (off < hi)
  !pcieLane off && (routeTable off).isNone && (saWord off).isNone && (floorSlot off).isNone &&
  (placeIn (Reg.SEC_QW_BASE 0).off 0x20 16 0xC off).isNone && !atWord (Reg.DFE_TX_ATTN 0).off 0x200 128 off &&
  !atWord (Reg.ULD_CFG_SLEEP_EN 0).off 0x400 3 off && !within 0x520000 0x550000 && !within 0x210000 0x230000 &&
  !within 0xC00000 0xD00000 && !within 0x1400000 0x1408000 &&
  !([Reg.PWR_REQ_TARGET.off, Reg.MEM_SCRUB_CFG_ONCHIP_H.off, Reg.TB_DPLL_SEL0.off, Reg.PWR_CHG_EN.off, Reg.PWR_WAKE_EN.off,
    Reg.PWR_WAKE_TIMER_AT.off, Reg.PWR_WAKE_TIMER_AT_HI.off, Reg.PWR_WAKE_TIMER_EN.off].contains off)

/-- The fields of a word do not overlap. -/
def Apart (fs : List (FieldSpec × Nat)) : Prop :=
  fs.Pairwise (fun x y => x.1.lo + x.1.w ≤ y.1.lo ∨ y.1.lo + y.1.w ≤ x.1.lo) ∧ ∀ x ∈ fs, x.1.lo + x.1.w ≤ 32

end Sys2Proof.Machine
end

