-- ==== Sys2Proof/Certificates/Slice0/Obligations.lean ====
section
/-! DEFINITION. The statements for the provers. Each docstring names the rules of the manual a statement formalises; a statement that
every command of a family completes says, for every state that meets its hypotheses, which next state `exec` answers. -/

open Sys2Proof Sys2Proof.Machine

/-- R143, R181: each multiply-accumulate of the MAC slot completes, adding its products to the selected lanes of ACC[a] under the
accumulator's mode and setting TOVF[a] or SOVF[a]; no other accumulator, flag or register changes. What the rules leave open here is the
model's choice (log entry 41). -/
def Obligations.MacAccumulates : Prop :=
  ∀ (s : State) (b : Bnd) (a : Fin 8) (x y z w : Fin 64) (k : Fin 32),
    Issues (.opCmac b a x y) s b (Accumulated b a.val true (fun r i => product (r.re x i) (r.im x i) (r.re y i) (r.im y i) i)) ∧
    Issues (.opCmacn b a x y) s b (Accumulated b a.val true (fun r i => -product (r.re x i) (r.im x i) (r.re y i) (r.im y i) i)) ∧
    Issues (.opCmacj b a x y) s b
      (Accumulated b a.val true (fun r i => conjProduct (r.re x i) (r.im x i) (r.re y i) (r.im y i) i)) ∧
    Issues (.opCmacjn b a x y) s b
      (Accumulated b a.val true (fun r i => -conjProduct (r.re x i) (r.im x i) (r.re y i) (r.im y i) i)) ∧
    Issues (.opCmacs b a x k) s b (Accumulated b a.val true (fun r i => product (r.re x i) (r.im x i) (r.lo k) (r.hi k) i)) ∧
    Issues (.opCmacsj b a x k) s b
      (Accumulated b a.val true (fun r i => conjProduct (r.re x i) (r.im x i) (r.lo k) (r.hi k) i)) ∧
    Issues (.opRmac b a x y z w) s b
      (Accumulated b a.val false (fun r i => r.sample x i * r.sample y i + r.sample z i * r.sample w i)) ∧
    Issues (.opRmacn b a x y z w) s b
      (Accumulated b a.val false (fun r i => -(r.sample x i * r.sample y i + r.sample z i * r.sample w i))) ∧
    Issues (.opRmac1 b a x y) s b (Accumulated b a.val false (fun r i => r.sample x i * r.sample y i)) ∧
    Issues (.opRmacs b a x z k) s b
      (Accumulated b a.val false (fun r i => r.sample x i * r.lo k + r.sample z i * r.hi k)) ∧
    Issues (.opRmacp b a x y) s b
      (Accumulated b a.val false (fun r i => r.re x i * r.re y i + r.im x i * r.im y i))

/-- R139, R145, R147, R181: each operation of the MAC slot that sets accumulator lanes, or that reads an accumulator, completes. What the
rules leave open here is the model's choice (log entry 41). -/
def Obligations.MacSetsAndReads : Prop :=
  (∀ (s : State) (b : Bnd) (a : Fin 8) (x y z w : Fin 64) (k : Fin 32) (sh : Shift),
      Issues (.opCmacz b a x y) s b (AccSet b a.val true (fun r i => product (r.re x i) (r.im x i) (r.re y i) (r.im y i) i)) ∧
      Issues (.opCmacjz b a x y) s b
        (AccSet b a.val true (fun r i => conjProduct (r.re x i) (r.im x i) (r.re y i) (r.im y i) i)) ∧
      Issues (.opRmacz b a x y z w) s b
        (AccSet b a.val false (fun r i => r.sample x i * r.sample y i + r.sample z i * r.sample w i)) ∧
      Issues (.opRmac1z b a x y) s b (AccSet b a.val false (fun r i => r.sample x i * r.sample y i)) ∧
      Issues (.opRmacsz b a x z k) s b (AccSet b a.val false (fun r i => r.sample x i * r.lo k + r.sample z i * r.hi k)) ∧
      Issues (.opAccclr b a) s b (AccSet b a.val false (fun _ _ => 0)) ∧
      Issues (.opAccput b a x 0) s b
        (AccSet b a.val false (fun r i => r.rAcc a.val i - r.rAcc a.val i % 2 ^ 18 + r.sample x i % 2 ^ 18)) ∧
      Issues (.opAccput b a x 1) s b
        (AccSet b a.val false (fun r i => r.rAcc a.val i - r.rAcc a.val i / 2 ^ 18 % 2 ^ 18 * 2 ^ 18 +
          r.sample x i % 2 ^ 18 * 2 ^ 18)) ∧
      Issues (.opAccput b a x 2) s b
        (AccSet b a.val false (fun r i => r.rAcc a.val i % 2 ^ 36 + r.sample x i % 2 ^ 12 * 2 ^ 36)) ∧
      ((s.dev.core b.core.val).arch.shift sh ≠ 31 →
        Issues (.opAccset b a x sh) s b
          (AccSet b a.val false (fun r i => r.sample x i * 2 ^ r.shift sh))) ∧
      ((s.dev.core b.core.val).arch.shift sh = 31 →
        Issues (.opAccset b a x sh) s b (fun _ B0 B => B = { B0 with writes := B0.writes ++ [nameAcc a.val] }))) ∧
  (∀ (s : State) (b : Bnd) (a : Fin 8) (v : Fin 64) (k : Fin 32) (sh : Shift),
      Issues (.opExt b a v sh) s b
        (VectorWritten b v.val false allLimited (fun r i =>
          if r.shift sh = 0 then r.rAcc a.val i else (r.rAcc a.val i + 2 ^ (r.shift sh - 1)) / 2 ^ r.shift sh)) ∧
      Issues (.opBexpa b a k) s b (fun x B0 B =>
        ∃ m, LeastHeadroom 48 (laneSelected x b false) (x.rAcc a.val) m ∧
          B = { B0 with writes := B0.writes ++ [nameS k.val], next := B0.next.wS k.val (BitVec.ofNat 36 m) }) ∧
      Issues (.opAccget b a v 0) s b (VectorWritten b v.val false unlimited (fun r i => r.rAcc a.val i)) ∧
      Issues (.opAccget b a v 1) s b (VectorWritten b v.val false unlimited (fun r i => r.rAcc a.val i / 2 ^ 18)) ∧
      Issues (.opAccget b a v 2) s b (VectorWritten b v.val false unlimited (fun r i => r.rAcc a.val i / 2 ^ 36)))

/-- R182: each lane operation of the VALU slot that neither limits its result nor compares completes. What the rules leave open here is the
model's choice (log entry 39). -/
def Obligations.ValuWraps : Prop :=
  ∀ (s : State) (b : Bnd) (v x y : Fin 64) (q : Fin 8) (k l : Fin 32) (t : Fin 18) (imm : BitVec 18),
    let on (c : Instr) (cplx : Bool) (f : Arch → Nat → Int) : Prop := Issues c s b (VectorWritten b v.val cplx unlimited f)
    on (.opVadd b v x y) false (fun r i => r.sample x i + r.sample y i) ∧
    on (.opVsub b v x y) false (fun r i => r.sample x i - r.sample y i) ∧
    on (.opVneg b v x) false (fun r i => -r.sample x i) ∧
    on (.opVmin b v x y) false (fun r i => min (r.sample x i) (r.sample y i)) ∧
    on (.opVmax b v x y) false (fun r i => max (r.sample x i) (r.sample y i)) ∧
    on (.opVavg b v x y) false (fun r i => (r.sample x i + r.sample y i + 1) / 2) ∧
    on (.opVand b v x y) false (fun r i => (BitVec.ofInt 18 (r.sample x i) &&& BitVec.ofInt 18 (r.sample y i)).toInt) ∧
    on (.opVor b v x y) false (fun r i => (BitVec.ofInt 18 (r.sample x i) ||| BitVec.ofInt 18 (r.sample y i)).toInt) ∧
    on (.opVxor b v x y) false (fun r i => (BitVec.ofInt 18 (r.sample x i) ^^^ BitVec.ofInt 18 (r.sample y i)).toInt) ∧
    on (.opVnot b v x) false (fun r i => (~~~BitVec.ofInt 18 (r.sample x i)).toInt) ∧
    on (.opVshl b v x t) false (fun r i => r.sample x i * 2 ^ t.val) ∧
    on (.opVshra b v x t) false (fun r i => r.sample x i / 2 ^ t.val) ∧
    on (.opVshrr b v x t) false (fun r i =>
      if t.val = 0 then r.sample x i else (r.sample x i + 2 ^ (t.val - 1)) / 2 ^ t.val) ∧
    on (.opVcswap b v x) true (fun r i => if i % 2 = 0 then r.im x i else r.re x i) ∧
    on (.opVmov b v x) false (fun r i => r.sample x i) ∧
    on (.opVsel b v x y q) false (fun r i => if (r.rP q.val).getLsbD i then r.sample x i else r.sample y i) ∧
    on (.opVperm b v x y) false (fun r i => r.sample x (r.sample y i % 32).toNat) ∧
    on (.opVmovi b v imm) false (fun _ _ => imm.toInt) ∧
    on (.opVbcast b v k) false (fun r _ => r.lo k) ∧
    on (.opVbcastc b v k) true (fun r i => if i % 2 = 0 then r.lo k else r.hi k) ∧
    Issues (.opVins b v l k) s b (fun r B0 B =>
      (∀ i < 32, laneOf (B.next.physV (r.phys v.val)) i =
        if i = l.val ∧ laneSelected r b false i = true then r.lo k else r.sample v i) ∧
      (∀ q, q ≠ r.phys v.val → B.next.physV q = B0.next.physV q) ∧
      B = { B0 with writes := B0.writes ++ [nameV (r.phys v.val)], next := { B0.next with v := B.next.v } })

/-- R139, R147, R182: each lane operation of the VALU slot that limits its result, that compares, or that gives a scalar completes. What the
rules leave open here is the model's choice (log entries 39, 41). -/
def Obligations.ValuLimitsAndReads : Prop :=
  (∀ (s : State) (b : Bnd) (v x y : Fin 64) (t : Fin 18),
      let on (c : Instr) (cplx : Bool) (lim : Nat → Bool) (f : Arch → Nat → Int) : Prop :=
        Issues c s b (VectorWritten b v.val cplx lim f)
      on (.opVadds b v x y) false allLimited (fun r i => r.sample x i + r.sample y i) ∧
      on (.opVsubs b v x y) false allLimited (fun r i => r.sample x i - r.sample y i) ∧
      on (.opVnegs b v x) false allLimited (fun r i => -r.sample x i) ∧
      on (.opVabs b v x) false allLimited (fun r i => ((r.sample x i).natAbs : Int)) ∧
      on (.opVshls b v x t) false allLimited (fun r i => r.sample x i * 2 ^ t.val) ∧
      on (.opVconj b v x) true (fun i => i % 2 == 1) (fun r i => if i % 2 = 0 then r.re x i else -r.im x i) ∧
      on (.opVrotj b v x) true (fun i => i % 2 == 0) (fun r i => if i % 2 = 0 then -r.im x i else r.re x i)) ∧
  (∀ (s : State) (b : Bnd) (p : Fin 8) (x y : Fin 64) (k l : Fin 32),
      let compares (c : Instr) (f : Arch → Nat → Prop) : Prop := Issues c s b (fun r B0 B =>
        (∃ v : BitVec 32, (∀ i < 32, v.getLsbD i = true ↔
            if laneSelected r b false i = true then f r i else (r.rP p.val).getLsbD i = true) ∧
          B = { B0 with writes := B0.writes ++ [nameP p.val], next := B0.next.wP p.val v }))
      compares (.opVcmpeq b p x y) (fun r i => r.sample x i = r.sample y i) ∧
      compares (.opVcmplt b p x y) (fun r i => r.sample x i < r.sample y i) ∧
      compares (.opVcmple b p x y) (fun r i => r.sample x i ≤ r.sample y i) ∧
      Issues (.opVextl b k x l) s b (fun r B0 B =>
        B = { B0 with writes := B0.writes ++ [nameS k.val],
                      next := if laneSelected r b false l.val then B0.next.wS k.val (BitVec.ofInt 36 (r.sample x l.val))
                              else B0.next }) ∧
      Issues (.opBexpv b k x) s b (fun r B0 B =>
        ∃ m, LeastHeadroom 18 (laneSelected r b false) (r.sample x) m ∧
          B = { B0 with writes := B0.writes ++ [nameS k.val], next := B0.next.wS k.val (BitVec.ofNat 36 m) }))

/-- R139, R186: each operation of the SCALAR slot completes and writes what the table gives: arithmetic, comparison and logic on S, address
and predicate registers. What the rules leave open here is the model's choice (log entry 39). -/
def Obligations.ScalarOperations : Prop :=
  (∀ (s : State) (b : Bnd) (k x y : Fin 32) (imm : BitVec 34) (n : Fin 36) (p : Fin 8),
      let toS (c : Instr) (f : Arch → BitVec 36) : Prop :=
        Issues c s b (ScalarWritten b [nameS k.val] (fun r z => z.wS k.val (f r)))
      let toP (c : Instr) (f : Arch → Prop) : Prop :=
        Issues c s b (fun r B0 B => ∃ v : BitVec 32, ((f r ∧ v = BitVec.allOnes 32) ∨ (¬f r ∧ v = 0)) ∧
          ScalarWritten b [nameP p.val] (fun _ z => z.wP p.val v) r B0 B)
      toS (.opAdd b k x y) (fun r => BitVec.ofNat 36 ((r.rS x.val).toNat + (r.rS y.val).toNat)) ∧
      toS (.opSub b k x y) (fun r => BitVec.ofInt 36 ((r.rS x.val).toNat - (r.rS y.val).toNat)) ∧
      toS (.opMul b k x y) (fun r => BitVec.ofInt 36 ((r.rS x.val).toInt * (r.rS y.val).toInt)) ∧
      toS (.opMin b k x y) (fun r => BitVec.ofInt 36 (min (r.rS x.val).toInt (r.rS y.val).toInt)) ∧
      toS (.opMax b k x y) (fun r => BitVec.ofInt 36 (max (r.rS x.val).toInt (r.rS y.val).toInt)) ∧
      toS (.opAnd b k x y) (fun r => r.rS x.val &&& r.rS y.val) ∧
      toS (.opOr b k x y) (fun r => r.rS x.val ||| r.rS y.val) ∧
      toS (.opXor b k x y) (fun r => r.rS x.val ^^^ r.rS y.val) ∧
      toS (.opShl b k x y) (fun r => BitVec.ofNat 36 ((r.rS x.val).toNat * 2 ^ ((r.rS y.val).toNat % 64))) ∧
      toS (.opShr b k x y) (fun r => BitVec.ofNat 36 ((r.rS x.val).toNat / 2 ^ ((r.rS y.val).toNat % 64))) ∧
      toS (.opShra b k x y) (fun r => BitVec.ofInt 36 ((r.rS x.val).toInt / 2 ^ ((r.rS y.val).toNat % 64))) ∧
      toS (.opAddi b k x imm) (fun r => BitVec.ofInt 36 ((r.rS x.val).toInt + imm.toInt)) ∧
      toS (.opMovi b k imm) (fun _ => BitVec.ofInt 36 imm.toInt) ∧
      toS (.opShli b k x n) (fun r => BitVec.ofNat 36 ((r.rS x.val).toNat * 2 ^ n.val)) ∧
      toS (.opShri b k x n) (fun r => BitVec.ofNat 36 ((r.rS x.val).toNat / 2 ^ n.val)) ∧
      toS (.opShrai b k x n) (fun r => BitVec.ofInt 36 ((r.rS x.val).toInt / 2 ^ n.val)) ∧
      toP (.opCmpeq b p x y) (fun r => (r.rS x.val).toInt = (r.rS y.val).toInt) ∧
      toP (.opCmplt b p x y) (fun r => (r.rS x.val).toInt < (r.rS y.val).toInt) ∧
      toP (.opCmpltu b p x y) (fun r => (r.rS x.val).toNat < (r.rS y.val).toNat) ∧
      toP (.opCmpeqi b p x imm) (fun r => (r.rS x.val).toInt = imm.toInt)) ∧
  (∀ (s : State) (b : Bnd) (k n : Fin 16) (y : Fin 32) (imm : BitVec 32) (p q r : Fin 8),
      let toA (c : Instr) (j : Fin 16) (f : Arch → Nat) : Prop :=
        Issues c s b (ScalarWritten b [nameA j.val] (fun x z => z.wA j.val (BitVec.ofNat 32 (f x))))
      let toP (c : Instr) (j : Fin 8) (f : Arch → BitVec 32) : Prop :=
        Issues c s b (ScalarWritten b [nameP j.val] (fun x z => z.wP j.val (f x)))
      let toS (c : Instr) (f : Arch → Nat) : Prop :=
        Issues c s b (ScalarWritten b [nameS y.val] (fun x z => z.wS y.val (BitVec.ofNat 36 (f x))))
      toA (.opAadd b k n y) k (fun x => (x.rA n.val).toNat + (x.rS y.val).toNat % 2 ^ 32) ∧
      toA (.opAaddi b k n imm) k (fun x => (x.rA n.val).toNat + imm.toNat) ∧
      toA (.opAmovi b k imm) k (fun _ => imm.toNat) ∧
      toA (.opAmov b n y) n (fun x => (x.rS y.val).toNat) ∧
      toS (.opAget b n y) (fun x => (x.rA n.val).toNat) ∧
      toP (.opPand b p q r) p (fun x => x.rP q.val &&& x.rP r.val) ∧
      toP (.opPor b p q r) p (fun x => x.rP q.val ||| x.rP r.val) ∧
      toP (.opPxor b p q r) p (fun x => x.rP q.val ^^^ x.rP r.val) ∧
      toP (.opPandn b p q r) p (fun x => x.rP q.val &&& ~~~x.rP r.val) ∧
      toP (.opPmovs b p y) p (fun x => BitVec.ofNat 32 (x.rS y.val).toNat) ∧
      toS (.opPgets b p y) (fun x => (x.rP p.val).toNat) ∧
      (∀ (x : Arch) (v : BitVec 32), (x.wP 0 v).rP 0 = BitVec.allOnes 32 ∧ x.wP 0 v = x))
/-- R149, R158, R160, R183, R184: each load completes at once where its words lie in the core's own data memory or one buffered store covers
them: its register takes the words, and A[n] its post-modify. What the rules leave open here is the model's choice (log entry 42). -/
def Obligations.LoadsAtOnce : Prop :=
  ∀ (s : State) (b : Bnd) (v : Fin 64) (r : Fin 32) (q : Fin 16) (m : Addr),
    let vector (c : Instr) (n : Nat) : Prop :=
      LoadsNow c s b m 8 n true (fun x => nameV (x.phys v.val)) (fun x _ vals z y =>
        y = { z with v := y.v } ∧ (∀ p, p ≠ x.phys v.val → y.physV p = z.physV p) ∧
        ∀ i < 32, laneOf (y.physV (x.phys v.val)) i =
          match (if (x.rP b.pred.val).getLsbD i then vals.find? (fun e => e.1 == i / 4) else none) with
          | some e => (e.2.extractLsb' (18 * (i % 4)) 18).toInt
          | none => laneOf (z.physV (x.phys v.val)) i)
    let narrow (c : Instr) (size : Nat) (f : Nat → Word → BitVec 36) : Prop :=
      LoadsNow c s b m size 1 false (fun _ => nameS r.val) (fun _ lo vals z y =>
        y = z.wS r.val (f lo (vals.headD (0, 0)).2))
    vector (.opLdv1 b v m) 1 ∧ vector (.opLdv2 b v m) 2 ∧ vector (.opLdv4 b v m) 4 ∧ vector (.opLdv8 b v m) 8 ∧
    narrow (.opLds0 b r m) 8 (fun _ w => (w.extractLsb' 0 18).signExtend 36) ∧
    narrow (.opLds1 b r m) 8 (fun _ w => (w.extractLsb' 18 18).signExtend 36) ∧
    narrow (.opLds2 b r m) 8 (fun _ w => (w.extractLsb' 36 18).signExtend 36) ∧
    narrow (.opLds3 b r m) 8 (fun _ w => (w.extractLsb' 54 18).signExtend 36) ∧
    narrow (.opLdc0 b r m) 8 (fun _ w => w.extractLsb' 0 36) ∧
    narrow (.opLdc1 b r m) 8 (fun _ w => w.extractLsb' 36 36) ∧
    narrow (.opLdbu b r m) 1 (fun lo w => (w.extractLsb' (8 * lo) 8).setWidth 36) ∧
    narrow (.opLdbs b r m) 1 (fun lo w => (w.extractLsb' (8 * lo) 8).signExtend 36) ∧
    narrow (.opLdhu b r m) 2 (fun lo w => (w.extractLsb' (8 * lo) 16).setWidth 36) ∧
    narrow (.opLdhs b r m) 2 (fun lo w => (w.extractLsb' (8 * lo) 16).signExtend 36) ∧
    narrow (.opLdqu b r m) 4 (fun lo w => (w.extractLsb' (8 * lo) 32).setWidth 36) ∧
    narrow (.opLdqs b r m) 4 (fun lo w => (w.extractLsb' (8 * lo) 32).signExtend 36) ∧
    LoadsNow (.opLda b q m) s b m 4 1 false (fun _ => nameA q.val) (fun _ lo vals z y =>
      y = z.wA q.val ((vals.headD (0, 0)).2.extractLsb' (8 * lo) 32))

/-- R118, R158, R184: each load of words elsewhere waits for their return, and LOAD_RETURN completes it: the register takes the words that
come back. What the rules leave open here is the model's choice (log entry 42). -/
def Obligations.LoadsFromElsewhere : Prop :=
  ∀ (s : State) (b : Bnd) (v : Fin 64) (r : Fin 32) (q : Fin 16) (m : Addr),
    let vector (c : Instr) (n : Nat) : Prop :=
      LoadsLater c s b m 8 n true (fun x => nameV (x.phys v.val)) (fun x _ => .v (x.phys v.val) (x.rP b.pred.val))
    let narrow (c : Instr) (size : Nat) (t : Nat → LoadInto) : Prop :=
      LoadsLater c s b m size 1 false (fun _ => nameS r.val) (fun _ lo => t lo)
    vector (.opLdv1 b v m) 1 ∧ vector (.opLdv2 b v m) 2 ∧ vector (.opLdv4 b v m) 4 ∧ vector (.opLdv8 b v m) 8 ∧
    narrow (.opLds0 b r m) 8 (fun _ => .sample r.val 0) ∧ narrow (.opLds1 b r m) 8 (fun _ => .sample r.val 1) ∧
    narrow (.opLds2 b r m) 8 (fun _ => .sample r.val 2) ∧ narrow (.opLds3 b r m) 8 (fun _ => .sample r.val 3) ∧
    narrow (.opLdc0 b r m) 8 (fun _ => .complex r.val 0) ∧ narrow (.opLdc1 b r m) 8 (fun _ => .complex r.val 1) ∧
    narrow (.opLdbu b r m) 1 (fun lo => .bytes r.val lo 1 false) ∧ narrow (.opLdbs b r m) 1 (fun lo => .bytes r.val lo 1 true) ∧
    narrow (.opLdhu b r m) 2 (fun lo => .bytes r.val lo 2 false) ∧ narrow (.opLdhs b r m) 2 (fun lo => .bytes r.val lo 2 true) ∧
    narrow (.opLdqu b r m) 4 (fun lo => .bytes r.val lo 4 false) ∧ narrow (.opLdqs b r m) 4 (fun lo => .bytes r.val lo 4 true) ∧
    LoadsLater (.opLda b q m) s b m 4 1 false (fun _ => nameA q.val) (fun _ lo => .addr q.val lo) ∧
    (∀ (c : Fin 104) (ext : List Ext) (bu : Bundle) (l : PendingLoad) (d' : Dev) (vals : List (Nat × Word)),
      (s.dev.core c.val).bundle = some bu → bu.load = some l → Brings s.dev c.val l.words ext d' vals →
      Gives (.loadReturn c ext) s
        ((d'.onCore c.val (fun x => { x with bundle := some { bu with load := none, next := l.into.apply vals bu.next } })).tryCommit
          c.val))

/-- R139, R151, R158, R185: each store completes: the bundle takes the shares of its words under the predicate and the post-modify of its
address; a load or store whose predicate selects nothing makes no access. What the rules leave open here is the model's choice (log entry
42). -/
def Obligations.StoresAndUnselected : Prop :=
  (∀ (s : State) (b : Bnd) (v : Fin 64) (r : Fin 32) (q : Fin 16) (m : Addr),
      Stores (.opStv1 b v m) s b m 8 1 true (vectorStore v b) ∧ Stores (.opStv2 b v m) s b m 8 2 true (vectorStore v b) ∧
      Stores (.opStv4 b v m) s b m 8 4 true (vectorStore v b) ∧ Stores (.opStv8 b v m) s b m 8 8 true (vectorStore v b) ∧
      Stores (.opSts0 b r m) s b m 8 1 false (fun x a _ => sampleStore r 0 1 x a) ∧
      Stores (.opSts1 b r m) s b m 8 1 false (fun x a _ => sampleStore r 1 1 x a) ∧
      Stores (.opSts2 b r m) s b m 8 1 false (fun x a _ => sampleStore r 2 1 x a) ∧
      Stores (.opSts3 b r m) s b m 8 1 false (fun x a _ => sampleStore r 3 1 x a) ∧
      Stores (.opStc0 b r m) s b m 8 1 false (fun x a _ => sampleStore r 0 2 x a) ∧
      Stores (.opStc1 b r m) s b m 8 1 false (fun x a _ => sampleStore r 2 2 x a) ∧
      Stores (.opStb b r m) s b m 1 1 false (fun x a _ => byteStore (x.rS r.val).toNat 1 a) ∧
      Stores (.opSth b r m) s b m 2 1 false (fun x a _ => byteStore (x.rS r.val).toNat 2 a) ∧
      Stores (.opStq b r m) s b m 4 1 false (fun x a _ => byteStore (x.rS r.val).toNat 4 a) ∧
      Stores (.opSta b q m) s b m 4 1 false (fun x a _ => byteStore (x.rA q.val).toNat 4 a) ∧
      Issues (.opMfence b) s b (fun _ B0 B => B = { B0 with fence := true })) ∧
  (∀ (s : State) (b : Bnd) (v : Fin 64) (r : Fin 32) (q : Fin 16) (m : Addr),
      let x := (s.dev.core b.core.val).arch
      let off (c : Instr) (dest : List Nat) : Prop :=
        Issues c s b (fun _ B0 B => B = { B0 with writes := B0.writes ++ accessNames dest m })
      (x.rP b.pred.val).getLsbD 0 = false →
        off (.opLds0 b r m) [nameS r.val] ∧ off (.opLds1 b r m) [nameS r.val] ∧ off (.opLds2 b r m) [nameS r.val] ∧
        off (.opLds3 b r m) [nameS r.val] ∧ off (.opLdc0 b r m) [nameS r.val] ∧ off (.opLdc1 b r m) [nameS r.val] ∧
        off (.opLdbu b r m) [nameS r.val] ∧ off (.opLdbs b r m) [nameS r.val] ∧ off (.opLdhu b r m) [nameS r.val] ∧
        off (.opLdhs b r m) [nameS r.val] ∧ off (.opLdqu b r m) [nameS r.val] ∧ off (.opLdqs b r m) [nameS r.val] ∧
        off (.opLda b q m) [nameA q.val] ∧ off (.opSts0 b r m) [] ∧ off (.opSts1 b r m) [] ∧ off (.opSts2 b r m) [] ∧
        off (.opSts3 b r m) [] ∧ off (.opStc0 b r m) [] ∧ off (.opStc1 b r m) [] ∧ off (.opStb b r m) [] ∧
        off (.opSth b r m) [] ∧ off (.opStq b r m) [] ∧ off (.opSta b q m) [] ∧
        (x.rP b.pred.val = 0 →
          let vecOff (c : Instr) (dest : List Nat) : Prop :=
            Issues c s b (fun x B0 B => B = { B0 with writes := B0.writes ++ accessNames dest m, next := B0.next.modified x m 8 })
          vecOff (.opLdv1 b v m) [nameV (x.phys v.val)] ∧ vecOff (.opLdv2 b v m) [nameV (x.phys v.val)] ∧
          vecOff (.opLdv4 b v m) [nameV (x.phys v.val)] ∧ vecOff (.opLdv8 b v m) [nameV (x.phys v.val)] ∧
          vecOff (.opStv1 b v m) [] ∧ vecOff (.opStv2 b v m) [] ∧ vecOff (.opStv4 b v m) [] ∧ vecOff (.opStv8 b v m) []))
/-- R153, R186: LOOPSET, LOOP and LOOPM complete: TRIPS, STG, PASS, ROT and the stage predicates take the values the rule gives, and the
branch is taken exactly when PASS is still below its bound. An MTSR to TRIPS, PASS or STG recomputes no predicate. -/
def Obligations.LoopsComplete : Prop :=
  ∀ (s : State) (b : Bnd) (stages : Fin 4) (n : BitVec 32) (k : Fin 32) (target : BitVec 13),
    let active (trips : BitVec 32) (stg : Nat) (pass : BitVec 32) (j : Nat) : BitVec 32 :=
      if j < stg ∧ j ≤ pass.toNat ∧ pass.toNat - j < trips.toNat then BitVec.allOnes 32 else 0
    let staged (y : Arch) (trips : BitVec 32) (stg : Nat) (pass : BitVec 32) : Arch :=
      (((y.wP 4 (active trips stg pass 0)).wP 5 (active trips stg pass 1)).wP 6 (active trips stg pass 2)).wP 7
        (active trips stg pass 3)
    let loopset (count : Count) (trips : Arch → BitVec 32) : Prop :=
      Issues (.opLoopset b stages count) s b
        (ScalarWritten b [nameSys 8, nameSys 9, nameSys 11, nameP 4, nameP 5, nameP 6, nameP 7] (fun x y =>
          staged { y with trips := trips x, pass := 0, stg := BitVec.ofNat 3 (stages.val + 1) } (trips x) (stages.val + 1) 0))
    loopset (.imm n) (fun _ => n) ∧ loopset (.reg k) (fun x => (x.rS k.val).setWidth 32) ∧
    Issues (.opLoop b target) s b (fun x B0 B =>
      B = { B0 with writes := B0.writes ++ [nameSys 9], next := { B0.next with pass := x.pass + 1 },
                    branch := if x.pass + 1 < x.trips then some target else B0.branch }) ∧
    Issues (.opLoopm b target) s b (fun x B0 B =>
      B = { B0 with writes := B0.writes ++ [nameSys 9, nameSys 10, nameP 4, nameP 5, nameP 6, nameP 7],
                    next := staged { B0.next with pass := x.pass + 1, rot := x.rot + 1 } x.trips x.stg.toNat (x.pass + 1),
                    branch := if 0 < x.trips ∧ (x.pass + 1).toNat < x.trips.toNat + x.stg.toNat - 1 then some target
                              else B0.branch }) ∧
    (∀ reg ∈ [0x08, 0x09, 0x0B], Issues (.opMtsr b k (BitVec.ofNat 8 reg)) s b (fun x B0 B =>
      B.next.p = B0.next.p ∧ B.next.rot = B0.next.rot ∧ B.branch = B0.branch ∧
      ((x.rP b.pred.val).getLsbD 0 = false → B.next = B0.next)))

/-- R144, R158, R187, R188: MFSR completes for every system register its level may read, and MTSR for every one it may write, under bit 0 of
the predicate. At TK the supervisor's registers trap with PRIVILEGE. What the rules leave open here is the model's choice (log entry 39). -/
def Obligations.SystemRegisters : Prop :=
  (∀ (s : State) (b : Bnd) (k : Fin 32) (j : Fin 4),
      let d := s.dev
      let core := d.core b.core.val
      let on := (core.arch.rP b.pred.val).getLsbD 0
      let value (n : Nat) (v : Nat) : Prop := Issues (.opMfsr b k (BitVec.ofNat 8 n)) s b (fun _ B0 B =>
        B = { B0 with writes := B0.writes ++ [nameS k.val],
                      next := if on then B0.next.wS k.val (BitVec.ofNat 36 v) else B0.next })
      let x := core.arch
      value j.val (lookup (fun _ => (0 : BitVec 32)) x.cbBase j.val).toNat ∧
      value (4 + j.val) (lookup (fun _ => (0 : BitVec 32)) x.cbLen j.val).toNat ∧
      value 0x08 x.trips.toNat ∧ value 0x09 x.pass.toNat ∧ value 0x0A x.rot.toNat ∧ value 0x0B x.stg.toNat ∧
      value 0x0C (d.ownId * 2 ^ 22) ∧ (j.val ≠ 0 → value (0x0C + j.val) (lookup (fun _ => (0 : BitVec 24)) x.seg j.val).toNat) ∧
      value 0x10 x.accMode.toNat ∧ value 0x11 x.accSt.toNat ∧ value 0x12 x.mode.toNat ∧ value 0x13 core.sb.toNat ∧
      value 0x18 b.core.val ∧ value 0x1B (x.tsnap.toNat % 2 ^ 32) ∧ value 0x1C (x.tsnap.toNat / 2 ^ 32) ∧
      value 0x20 x.trapPc.toNat ∧ value 0x21 x.trapCause.toNat ∧ value 0x22 x.trapInfo.toNat ∧
      value 0x23 (x.trapAddr.toNat % 2 ^ 32) ∧ value 0x24 (x.trapAddr.toNat / 2 ^ 32) ∧
      (x.level ≠ .tk → value 0x25 x.trapLevel.toNat ∧
        value (0x28 + j.val) (lookup (fun _ => (0 : BitVec 36)) x.scratch j.val).toNat) ∧
      (x.level = .tk → on = true → ∀ n ∈ [0x25, 0x28 + j.val], Issues (.opMfsr b k (BitVec.ofNat 8 n)) s b (fun _ B0 B =>
        B = { B0 with writes := B0.writes ++ [nameS k.val], traps := B0.traps ++ [trapOf 0x02 0] })) ∧
      (∀ hi : Bool, Issues (.opMfsr b k (if hi then 0x1A else 0x19)) s b (fun _ B0 B =>
        B = { B0 with writes := B0.writes ++ [nameS k.val], timeTo := if on then some (k.val, hi) else B0.timeTo }))) ∧
  (∀ (s : State) (b : Bnd) (k : Fin 32) (j : Fin 4),
      let x := (s.dev.core b.core.val).arch
      let v := x.rS k.val
      let marks (n : Nat) (f : Bundle → Bundle) : Prop :=
        Issues (.opMtsr b k (BitVec.ofNat 8 n)) s b (Marked b [nameSys n] (fun _ B => f B))
      let puts (n : Nat) (f : Arch → Arch) : Prop := marks n (fun B => { B with next := f B.next })
      puts j.val (fun y => { y with cbBase := update (fun _ => 0) y.cbBase j.val (v.setWidth 32) }) ∧
      puts (4 + j.val) (fun y => { y with cbLen := update (fun _ => 0) y.cbLen j.val (v.setWidth 32) }) ∧
      puts 0x08 (fun y => { y with trips := v.setWidth 32 }) ∧ puts 0x09 (fun y => { y with pass := v.setWidth 32 }) ∧
      puts 0x0A (fun y => { y with rot := v.setWidth 5 }) ∧
      puts 0x0B (fun y => { y with stg := if 1 ≤ v.toNat % 8 ∧ v.toNat % 8 ≤ 4 then v.setWidth 3 else 4 }) ∧
      (j.val ≠ 0 → puts (0x0C + j.val) (fun y => { y with seg := update (fun _ => 0) y.seg j.val (v.setWidth 24) })) ∧
      puts 0x10 (fun y => { y with accMode := v.setWidth 8 }) ∧ marks 0x11 (fun B => { B with clear := v.setWidth 17 }) ∧
      puts 0x12 (fun y => { y with mode := v.setWidth 2 }) ∧ marks 0x1B (fun B => { B with snap := true }) ∧
      (x.level ≠ .tk →
        puts 0x20 (fun y => { y with trapPc := v.setWidth 13 }) ∧ puts 0x21 (fun y => { y with trapCause := v.setWidth 8 }) ∧
        puts 0x22 (fun y => { y with trapInfo := v.setWidth 17 }) ∧
        puts 0x23 (fun y => { y with trapAddr := BitVec.ofNat 56 (y.trapAddr.toNat / 2 ^ 32 * 2 ^ 32 + v.toNat % 2 ^ 32) }) ∧
        puts 0x24 (fun y => { y with trapAddr := BitVec.ofNat 56 (v.toNat % 2 ^ 24 * 2 ^ 32 + y.trapAddr.toNat % 2 ^ 32) }) ∧
        puts 0x25 (fun y => { y with trapLevel := if v.toNat % 4 = 3 then 0 else v.setWidth 2 }) ∧
        puts (0x28 + j.val) (fun y => { y with scratch := update (fun _ => 0) y.scratch j.val v })) ∧
      (x.level = .tk → ∀ n ∈ [0x20, 0x21, 0x22, 0x23, 0x24, 0x25, 0x28 + j.val],
        marks n (fun B => { B with traps := B.traps ++ [trapOf 0x02 0] })))

/-- R166, R168, R189: each branch, and each operation that ends a task, traps, returns or signals, completes. What the rules leave open here
is the model's choice (log entry 39). -/
def Obligations.BranchesComplete : Prop :=
  ∀ (s : State) (b : Bnd) (hint : Bool) (target : BitVec 13) (k : Fin 32) (status : BitVec 8),
    Issues (.opBra b hint target) s b (Marked b [] (fun _ B => { B with branch := some target, link := false })) ∧
    Issues (.opCall b hint target) s b (Marked b [nameS 31] (fun _ B => { B with branch := some target, link := true })) ∧
    Issues (.opBri b k) s b (Marked b [] (fun x B => { B with branch := some ((x.rS k.val).setWidth 13), link := false })) ∧
    Issues (.opTend b status) s b (Marked b [] (fun _ B => { B with tend := some status })) ∧
    Issues (.opSyscall b) s b (Marked b [] (fun _ B => { B with syscall := true })) ∧
    Issues (.opBreak b) s b (Marked b [] (fun _ B => { B with traps := B.traps ++ [trapOf 0x0C 0] })) ∧
    Issues (.opSignal b) s b (Marked b [] (fun _ B => { B with signal := true })) ∧
    ((s.dev.core b.core.val).arch.level ≠ .tk → Issues (.opRte b) s b (fun x B0 B =>
      B = { B0 with branch := some x.trapPc,
                    next := { B0.next with level := if x.trapLevel = 1 then .ns else if x.trapLevel = 2 then .ss else .tk } })) ∧
    ((s.dev.core b.core.val).arch.level = .tk → Issues (.opRte b) s b (fun _ B0 B =>
      B = { B0 with traps := B0.traps ++ [trapOf 0x02 0] }))

/-- R191, R201, R203, R211: each operation of the CX slot completes: an issue sets its tag's SB bit and puts its operation, with the block at
(SEG[g] << 32) | A[n], into the bundle; CXWAIT, CXLOCK and CXUNLOCK do what the rules say. What the rules leave open here is the model's
choice (log entries 39, 44). -/
def Obligations.CoprocessorSlot : Prop :=
  ∀ (s : State) (b : Bnd) (tag : Fin 8) (n : Fin 16) (g : Fin 4) (mask : BitVec 8) (p : Fin 8),
    let core := s.dev.core b.core.val
    let x := core.arch
    let on := (x.rP b.pred.val).getLsbD 0
    let level := match x.level with
      | .ss => 0
      | .ns => 1
      | .tk => 2
    let enabled := s.dev.get (Reg.ERG_CORE_CFG_CX_EN (b.core.val / 8) (b.core.val % 8)) / 2 ^ level % 2
    let issues (c : Instr) (fn : Nat) : Prop :=
      s.dev.takes b = true → (on = true → core.sb.getLsbD tag.val = false →
        Gives c s ((s.dev.onCore b.core.val (fun y => { y with sb := y.sb ||| BitVec.ofNat 8 (2 ^ tag.val) })).stageFrom b core.current
          { core.current with cx := some {
              tag := tag.val, fn := fn, block := x.rSeg s.dev.ownId g.val * 2 ^ 32 + (x.rA n.val).toNat, begun := false,
              ranges := [], staged := [], poisoned := false, record := none, err := none, reported := false,
              ended := false } })) ∧
        (on = false → Gives c s (s.dev.stage b core.current))
    issues (.opCmm b tag n g) 1 ∧ issues (.opGram b tag n g) 2 ∧ issues (.opChol b tag n g) 3 ∧ issues (.opTrsm b tag n g) 4 ∧
    (on = false ∨ core.sb &&& mask = 0 → Issues (.opCxwait b mask) s b (fun _ B0 B => B = B0)) ∧
    (on = true → core.sb &&& mask ≠ 0 → s.dev.takes b = true → Gives (.opCxwait b mask) s s.dev) ∧
    (on = true →
      (core.lock = true ∨ enabled = 1 →
        Issues (.opCxlock b p) s b (fun _ B0 B =>
          B = { B0 with writes := B0.writes ++ [nameP p.val], next := B0.next.wP p.val (BitVec.allOnes 32), lock := some true })) ∧
      (core.lock = false → enabled = 0 →
        Issues (.opCxlock b p) s b (fun _ B0 B =>
          B = { B0 with writes := B0.writes ++ [nameP p.val], next := B0.next.wP p.val 0 }))) ∧
    (on = false → Issues (.opCxlock b p) s b (fun _ B0 B => B = { B0 with writes := B0.writes ++ [nameP p.val] })) ∧
    Issues (.opCxunlock b) s b (Marked b [] (fun _ B => { B with lock := some false }))

/-- R138, R144, R156, R160, R170, R188: a bundle that is complete, met no trap and waits for nothing commits: all of its writes take effect
together, ACCST loses the bits it clears and gains those it sets, the PC goes to its branch or the next bundle, its store enters the
buffer, and PC and BUNDLES show it; memory is as before. What the rules leave open here is the model's choice (log entries 39, 40, 41). -/
def Obligations.BundleCommits : Prop :=
  ∀ (d : Dev) (c : Fin 104) (bu : Bundle),
    let x := d.core c.val
    x.bundle = some bu → bu.ready = true → bu.load = none → bu.cx = none → bu.traps = [] → bu.writes.Nodup → bu.tend = none →
    (bu.store = [] ∨ x.buffer.length < 16) → bu.after = none → bu.signal = false →
    x.abort = none → x.fault = none → x.late = none →
    let e := c.val / 8
    let k := c.val % 8
    let d' := d.tryCommit c.val
    let y := d'.core c.val
    let pc := bu.branch.getD (x.arch.pc + BitVec.ofNat 13 (bu.count / 2 + 1))
    y.bundle = none ∧ y.arch.pc = pc ∧ y.arch.accSt = (x.arch.accSt &&& ~~~bu.clear) ||| bu.next.accSt ∧
    y.arch.level = bu.next.level ∧ y.arch.v = bu.next.v ∧ y.arch.a = bu.next.a ∧ y.arch.p = bu.next.p ∧ y.arch.acc = bu.next.acc ∧
    (bu.timeTo = none → bu.link = false → y.arch.s = bu.next.s) ∧
    (bu.link = true → y.arch.rS 31 = (x.arch.pc + BitVec.ofNat 13 (bu.count / 2 + 1)).setWidth 36) ∧
    (y.arch.tsnap = if bu.snap then d.now else bu.next.tsnap) ∧
    y.buffer = (if bu.store = [] then x.buffer else x.buffer ++ [bu.store]) ∧
    d'.get (Reg.ERG_CORE_PC e k) = x.arch.pc.toNat ∧
    d'.get (Reg.ERG_CORE_BUNDLES e k) = (d.get (Reg.ERG_CORE_BUNDLES e k) + 1) % 2 ^ 32 ∧
    d'.mem = d.mem ∧ (∀ c' : Fin 104, c' ≠ c → d'.core c'.val = d.core c'.val)

/-- R161, R162, R163, R165: a precise trap of a bundle enters the handler from TK: TRAP_PC is the bundle, TRAP_CAUSE its lowest cause, the
level the supervisor's, the PC ERG_CORE[k].TVEC, the trap is counted, event CORE_TRAP is raised, and no register the bundle wrote
changes. At supervisor level the core halts instead. What the rules leave open here is the model's choice (log entry 39). -/
def Obligations.PreciseTraps : Prop :=
  ∀ (d : Dev) (c : Fin 104) (bu : Bundle) (t : Trap),
    let x := d.core c.val
    x.bundle = some bu → bu.ready = true → bu.load = none → bu.cx = none → bu.precise = some t →
    let e := c.val / 8
    let k := c.val % 8
    let d' := d.tryCommit c.val
    let y := d'.core c.val
    (x.arch.level = .tk →
      y.bundle = none ∧
      y.arch = { x.arch with
        trapPc := x.arch.pc, trapCause := BitVec.ofNat 8 t.code,
        trapInfo := BitVec.ofNat 17 (t.detail % 2 ^ 8 + t.tag % 8 * 2 ^ 8 + t.bundleFault % 8 * 2 ^ 12),
        trapAddr := BitVec.ofNat 56 t.addr, trapLevel := 0,
        level := if d.on (Reg.ERG_CORE_CFG_WORLD e k) then .ss else .ns,
        pc := BitVec.ofNat 13 (d.get (Reg.ERG_CORE_TVEC e k)) } ∧
      d'.get (coreState c.val) = 2 ∧ d'.get (Reg.ERG_CORE_STATUS_LAST_CAUSE e k) = t.code % 256 ∧
      d'.get (Reg.ERG_CORE_TRAPS e k) = (d.get (Reg.ERG_CORE_TRAPS e k) + 1) % 2 ^ 16 ∧
      d'.evt.queue = d.evt.queue ++ [⟨8 * c.val + 3, d.on (Reg.ERG_CORE_CFG_WORLD e k)⟩] ∧ d'.mem = d.mem) ∧
    (x.arch.level ≠ .tk →
      y.arch = x.arch ∧ d'.get (coreState c.val) = 3 ∧ d'.get (Reg.ERG_CORE_HALT_PC e k) = x.arch.pc.toNat ∧
      d'.get (Reg.ERG_CORE_HALT_CAUSE e k) = t.code % 256 ∧ d'.on (Reg.ERG_CORE_ATTN_HALT e k) = true ∧ d'.mem = d.mem)

/-- R161, R163, R189: a bundle of one SYSCALL commits and enters the handler with the next bundle in TRAP_PC; a bundle of one BREAK enters it
with its own address; a bundle of one RTE returns to TRAP_PC at the level of TRAP_LEVEL. What the rules leave open here is the model's
choice (log entry 39). -/
def Obligations.TrapAndReturn : Prop :=
  ∀ (s : State) (b : Bnd),
    let x := s.dev.core b.core.val
    let e := b.core.val / 8
    let k := b.core.val % 8
    s.dev.executes b.core.val = true → x.bundle = none → b.last = true → (x.arch.rP b.pred.val).getLsbD 0 = true →
    x.abort = none → x.fault = none → x.late = none →
    let entered (d : Dev) (pc : BitVec 13) (cause : Nat) : Prop :=
      let y := (d.core b.core.val).arch
      y.trapPc = pc ∧ y.trapCause = BitVec.ofNat 8 cause ∧ y.trapLevel = 0 ∧ y.pc = BitVec.ofNat 13 (s.dev.get (Reg.ERG_CORE_TVEC e k)) ∧
        (y.level = if s.dev.on (Reg.ERG_CORE_CFG_WORLD e k) then .ss else .ns) ∧ d.get (coreState b.core.val) = 2 ∧
        y.s = x.arch.s ∧ y.v = x.arch.v ∧ y.acc = x.arch.acc ∧ d.mem = s.dev.mem
    (x.arch.level = .tk →
      Completes (.opSyscall b) s (fun d => entered d (x.arch.pc + 1) 0x12 ∧
        d.get (Reg.ERG_CORE_BUNDLES e k) = (s.dev.get (Reg.ERG_CORE_BUNDLES e k) + 1) % 2 ^ 32) ∧
      Completes (.opBreak b) s (fun d => entered d x.arch.pc 0x0C ∧
        d.get (Reg.ERG_CORE_BUNDLES e k) = s.dev.get (Reg.ERG_CORE_BUNDLES e k))) ∧
    (x.arch.level ≠ .tk →
      Completes (.opRte b) s (fun d =>
        (d.core b.core.val).arch.pc = x.arch.trapPc ∧
        ((d.core b.core.val).arch.level = if x.arch.trapLevel = 1 then .ns else if x.arch.trapLevel = 2 then .ss else .tk) ∧
        (d.core b.core.val).arch.s = x.arch.s ∧ (d.core b.core.val).arch.trapPc = x.arch.trapPc ∧ d.mem = s.dev.mem))
/-- R157, R160, R163, R169: each event of a core completes: a resolved misprediction counts what it squashed, an accepted store leaves the
buffer, and the asynchronous causes STORE_FAULT, ABORT and CX_LATE enter the handler of a core at a bundle boundary at TK. What the rules
leave open here is the model's choice (log entries 40, 42, 43). -/
def Obligations.CoreEvents : Prop :=
  ∀ (s : State) (c : Fin 104),
    let x := s.dev.core c.val
    let e := c.val / 8
    let k := c.val % 8
    (∀ n : Fin 17, s.dev.executes c.val = true →
      Completes (.branchResolve c true n) s (fun d =>
        d.get (Reg.ERG_CORE_SQUASHED e k) = (s.dev.get (Reg.ERG_CORE_SQUASHED e k) + n.val) % 2 ^ 32 ∧ d.cores = s.dev.cores ∧
        d.mem = s.dev.mem) ∧
      Gives (.branchResolve c false n) s s.dev) ∧
    (∀ (j : Fin 16) (ext : List Ext) (st : List StoreWord) (d' : Dev), x.buffer[j.val]? = some st →
      (∀ i < j.val, ∀ o, x.buffer[i]? = some o → ∀ q ∈ s.dev.storeCtrls o, q ∉ s.dev.storeCtrls st) →
      (s.dev.setCore c.val { x with buffer := x.buffer.eraseIdx j.val }).storeAll c.val st ext = (d', none) →
      Gives (.storeAccepted c j ext) s
        ((d'.onCore c.val (fun y => if y.buffer.isEmpty then { y with fence := false } else y)).tryCommit c.val)) ∧
    (∀ (st a : Nat) (rest : List (Nat × Nat)), s.dev.atBoundary c.val → x.storeErrs = (st, a) :: rest →
      Completes (.storeFault c) s (fun d => Entered s.dev d c x.arch.pc 0x19 st 0 a true ∧
        d.on (Reg.ERG_CORE_ATTN_STORE_FAULT e k) = true ∧ (d.core c.val).storeErrs = rest ∧
        d.evt.queue = s.dev.evt.queue ++ [⟨8 * c.val + 1, s.dev.on (Reg.ERG_CORE_CFG_WORLD e k)⟩,
          ⟨8 * c.val + 3, s.dev.on (Reg.ERG_CORE_CFG_WORLD e k)⟩])) ∧
    (s.dev.atBoundary c.val → x.asked = true →
      Completes (.abortRequest c) s (fun d => Entered s.dev d c x.arch.pc 0x18 0 0 0 true ∧ (d.core c.val).asked = false)) ∧
    (∀ (o : CxOp) (code w : Nat), s.dev.atBoundary c.val → x.ops.find? (fun o => o.err.isSome && !o.reported) = some o →
      o.err = some (code, w) → o.ended = false → o.record.isSome = true →
      Completes (.cxLate c) s (fun d => Entered s.dev d c x.arch.pc 0x1A code o.tag 0 true ∧
        d.get (Reg.ERG_CX_LATE e k) = (s.dev.get (Reg.ERG_CX_LATE e k) + 1) % 2 ^ (Reg.ERG_CX_LATE e k).w ∧
        d.get (Reg.ERG_CX_LAST_LATE_CODE e k) = code % 2 ^ (Reg.ERG_CX_LAST_LATE_CODE e k).w ∧
        d.on (Reg.ERG_CX_ATTN_LATE e k) = true))

/-- R119, R161, R174, R176: a bundle that cannot be fetched or is illegal enters the handler as FETCH_ERROR or ILLEGAL, with its own address
in TRAP_PC. What the rules leave open here is the model's choice (log entry 39). -/
def Obligations.BundleFaults : Prop :=
  ∀ (s : State) (c : Fin 104),
    let x := s.dev.core c.val
    s.dev.executes c.val = true → x.bundle = none → x.arch.level = .tk →
    (∀ (d' : Dev) (ws : List Word) (detail bf : Nat), s.dev.fetchBundle c.val x.arch.pc = (d', some ws) →
      bundleFault x.arch ws = some (detail, bf) →
      Gives (.illegalBundle c) s (d'.takeTrap c.val { trapOf 0x01 0 with detail := detail, bundleFault := bf } x.arch.pc false)) ∧
    (∀ (k : Fin 4) (d' : Dev) (lost : Bool),
      let a := c.val * 0x40000 + 0x30000 + 8 * ((x.arch.pc.toNat + k.val) % 8192)
      s.dev.readWord (s.dev.coreReq c.val 0 true) a = (d', if lost then .uncorrectable else .poison) →
      Gives (.fetchError c k) s
        (d'.takeTrap c.val { trapOf 0x03 (s.dev.internal a) with detail := if lost then 0 else 1 } x.arch.pc false)) ∧
    (∀ (d : Dev) (t : Trap) (pc : BitVec 13), (d.core c.val).arch.level = .tk → t.bundleFault = 0 →
      Entered d (d.takeTrap c.val t pc false) c pc t.code t.detail t.tag t.addr false)

/-- R194, R198–R202, R206: an operation of the coprocessor begins and ends: it computes from the operands it reads, stages its words and its
record; its end writes them, clears SB and counts the operation. What the rules leave open here is the model's choice (log entries 44,
45). -/
def Obligations.CoprocessorRuns : Prop :=
  ∀ (s : State) (c : Fin 104) (o : CxOp),
    let x := s.dev.core c.val
    (x.ops.find? (fun o => !o.begun) = some o →
      let older := x.ops.filter (fun y => y.begun && !y.ended)
      let ranges := (older.map (·.ranges)).flatten
      let block := (upFrom 0 6).map (fun k => o.block + 8 * k)
      block.all (s.dev.cxReach c.val) = true → s.dev.cxForeign c.val block = none → rangesMeet [(o.block, 6)] ranges = false →
      s.dev.cxWaitsStore c.val block = false → older.length < 2 →
      let r := ({ dev := s.dev, words := [], world := none, uncorr := none, poison := none } : CxRead).all c.val block
      let p := cxParam r.words
      let aWords := rangeWords (matrixRows p.aAddr p.aStride (p.aShape o.fn))
      let bWords := rangeWords (matrixRows p.bAddr p.bStride (p.bShape o.fn))
      let cWords := rangeWords (matrixRows p.cAddr p.cStride (p.cShape o.fn))
      p.sound o.fn = true → p.aAddr % 8 = 0 → p.bAddr % 8 = 0 → p.cAddr % 8 = 0 → p.resAddr % 8 = 0 →
      (aWords ++ bWords ++ cWords ++ [p.resAddr]).all (s.dev.cxReach c.val) = true →
      s.dev.cxForeign c.val (aWords ++ bWords ++ cWords ++ [p.resAddr]) = none →
      rangesMeet (matrixRows p.aAddr p.aStride (p.aShape o.fn) ++ matrixRows p.bAddr p.bStride (p.bShape o.fn)) ranges = false →
      s.dev.cxWaitsStore c.val (aWords ++ bWords) = false → x.stagedWords + cWords.length + 1 ≤ 1024 →
      ∃ ra rb : CxRead, ra = ({ r with words := [] } : CxRead).all c.val aWords ∧ rb = ({ ra with words := [] } : CxRead).all c.val bWords ∧
        Gives (.coprocessorOpBegin c) s
          (rb.finish c.val o p true (matOfWords ra.words (p.aShape o.fn)) (matOfWords rb.words (p.bShape o.fn)))) ∧
    (∀ (ra : Nat) (rv : Word), x.ops.find? (fun o => !o.ended) = some o → o.begun = true → o.record = some (ra, rv) →
      let put (d : Dev) (a : Nat) (v : Word) (poison : Bool) : Dev :=
        let q := d.coreReq c.val 2 (d.inOwnData c.val a)
        (if poison then d.writePoison q (a % 2 ^ 53) else d.writeWord q (a % 2 ^ 53) v).1
      let d1 := put (o.staged.foldl (fun d w => put d w.1 w.2 o.poisoned) s.dev) ra rv false
      Gives (.coprocessorOpEnd c) s ((d1.cxEnds c.val o).tryCommit c.val) ∧
      ((d1.cxEnds c.val o).core c.val).sb.getLsbD o.tag = false ∧
      (d1.cxEnds c.val o).get (Reg.ERG_CX_OPS (c.val / 8) (c.val % 8)) =
        (d1.get (Reg.ERG_CX_OPS (c.val / 8) (c.val % 8)) + 1) % 2 ^ (Reg.ERG_CX_OPS (c.val / 8) (c.val % 8)).w)

/-- R167, R217, R219, R222, R224, R229: TASK_RUN puts a task on its shelf or its caravan list, or leaves a resident entry waiting and ends;
TASK_DISPATCH starts it on its core with every register of R133 as the rules give it. What the rules leave open here is the model's
choice (log entry 48). -/
def Obligations.TasksStart : Prop :=
  ∀ (s : State) (n : Fin 4096) (j : Job),
    (s.dev.firstOf 0xB0 = some j → s.dev.job j.id = some j → (s.dev.task n.val).state = .free →
      let desc (t : Task) : Prop :=
        t.gen = (s.dev.task n.val).gen + 1 ∧ t.func = s.dev.jobFunc j ∧ t.world = j.world ∧ t.prio = j.priority ∧
        t.startPc = BitVec.ofNat 13 j.startPc ∧ t.mask = BitVec.ofNat 13 j.ergMask ∧ t.param = BitVec.ofNat 56 j.taskParam ∧
        t.arg = BitVec.ofNat 64 j.taskArg ∧ t.resident = j.resident
      (j.resident = false → j.notBefore = 0 ∨ s.dev.due j.notBefore = true →
        Completes (.taskRun j.id n) s (fun d => desc (d.task n.val) ∧ (d.task n.val).state = .ready ∧
          (d.task n.val).job = some j.id ∧ d.job j.id = some { j with phase := .running, unit := n.val })) ∧
      (j.resident = false → j.notBefore ≠ 0 → s.dev.due j.notBefore = false →
        Completes (.taskRun j.id n) s (fun d => desc (d.task n.val) ∧ (d.task n.val).state = .delayed ∧
          (d.task n.val).wake = j.notBefore ∧ (d.task n.val).job = some j.id)) ∧
      (j.resident = true →
        Completes (.taskRun j.id n) s (fun d => desc (d.task n.val) ∧ (d.task n.val).job = none ∧
          (d.task n.val).state = (if j.notBefore ≠ 0 ∨ j.periodNs ≠ 0 then .delayed else .waiting) ∧
          d.job j.id = some (s.dev.endedJob j 0
            (n.val + ((s.dev.task n.val).gen + 1).toNat * 2 ^ 16 + 0xFF * 2 ^ 40))))) ∧
    (∀ (t : Task) (c : Fin 104), s.dev.power.paused = false → s.dev.task n.val = t →
      s.dev.shelves.find? (fun u => (s.dev.chooseCore u.2).isSome) = some (n.val, t) → s.dev.chooseCore t = some c.val →
      Completes .taskDispatch s (fun d =>
        d.task n.val = { t with state := .running, lastCore := some c.val, core := some c.val } ∧
        d.get (coreState c.val) = 1 ∧ d.get (Reg.ERG_CORE_TASK_ENTRY (c.val / 8) (c.val % 8)) = n.val ∧
        d.on (Reg.ERG_CORE_TASK_VALID (c.val / 8) (c.val % 8)) = true ∧
        d.get Reg.TSU_DISPATCHES = (s.dev.get Reg.TSU_DISPATCHES + 1) % 2 ^ 32 ∧ d.mem = s.dev.mem ∧
        let x := (d.core c.val).arch
        x.pc = t.startPc ∧ x.level = .tk ∧
        x.rS 0 = BitVec.ofNat 36 (n.val + t.gen.toNat * 2 ^ 12 + if t.resident then 2 ^ 28 else 0) ∧
        x.rS 1 = BitVec.ofNat 36 t.arg.toNat ∧ x.rS 2 = BitVec.ofNat 36 (t.arg.toNat / 2 ^ 36) ∧
        x.rS 3 = BitVec.ofNat 36 t.timed.toNat ∧ x.rA 1 = BitVec.ofNat 32 t.param.toNat ∧
        x.rSeg s.dev.ownId 1 = t.param.toNat / 2 ^ 32 ∧ (∀ i, 4 ≤ i → x.rS i = 0) ∧ (∀ i, i ≠ 1 → x.rA i = 0) ∧ x.v = [] ∧
        x.acc = [] ∧ x.p = [] ∧ x.trips = 0 ∧ x.rot = 0 ∧ x.tsnap = 0 ∧ x.mode = 0 ∧ x.accSt = 0 ∧ x.accMode = 0 ∧
        x.trapPc = (s.dev.core c.val).arch.trapPc ∧ x.scratch = (s.dev.core c.val).arch.scratch ∧
        (d.core c.val).buffer = [] ∧ (d.core c.val).lock = false ∧ (d.core c.val).sb = 0))

/-- R221, R224, R226–R229: a tick moves every delayed task whose wake time is reached, and no other; a wake readies a resident entry; a hold
stage ends; a cancel frees a waiting entry; an end reports the task's status and frees its entry, or counts the run. What the rules leave
open here is the model's choice (log entry 48). -/
def Obligations.TasksMove : Prop :=
  ∀ (s : State) (n : Fin 4096) (j : Job) (c : Fin 104),
    let t := s.dev.task n.val
    (canonical (fun _ => Task.reset) s.dev.tsu.tasks = true → (∀ m : Fin 4096, (s.dev.task m.val).prio < 64) →
      Completes .tsuTick s (fun d => ∀ m : Fin 4096,
      if (s.dev.task m.val).state = .delayed ∧ reached (s.dev.task m.val).wake s.dev.now = true then
        (d.task m.val).state = .ready ∧ (d.task m.val).arrived = s.dev.now ∧
        (d.task m.val).timed = if (s.dev.task m.val).resident then (s.dev.task m.val).wake else 0
      else d.task m.val = s.dev.task m.val)) ∧
    (t.state = .ready → t.stage < 3 →
      s.dev.due (t.arrived + BitVec.ofNat 64 (t.stage * (s.dev.get Reg.TSU_CFG_HOLD_NS * 2 ^ 16))) = true →
      Completes (.affinityHoldEnd n) s (fun d => d.task n.val = { t with stage := t.stage + 1 })) ∧
    (s.dev.job j.id = some j → j.phase = .queued → j.entry = n.val →
      (j.opcode = 0xB1 → t.gen.toNat = j.entryGen → t.resident = true →
        (t.state = .delayed ∨ t.state = .waiting → Completes (.taskWake j.id) s (fun d =>
          (d.task n.val).state = .ready ∧ d.job j.id = some (s.dev.endedJob j 0 0))) ∧
        (t.state = .ready ∨ t.state = .running ∨ t.state = .aborting → Completes (.taskWake j.id) s (fun d =>
          d.task n.val = { t with pendingWake := true } ∧ d.job j.id = some (s.dev.endedJob j 0 0)))) ∧
      (j.opcode = 0xB2 → t.gen.toNat = j.entryGen →
        (t.state = .delayed ∨ t.state = .ready ∨ t.state = .waiting → Completes (.taskFree j.id) s (fun d =>
          d.task n.val = { Task.reset with gen := t.gen } ∧ d.job j.id = some (s.dev.endedJob j 0 0))) ∧
        (t.state = .running → Completes (.taskFree j.id) s (fun d =>
          (d.task n.val).freeJobs = t.freeJobs ++ [j.id] ∧
          (d.task n.val).state = if j.freeAbort then .aborting else .running)))) ∧
    (let x := s.dev.core c.val
     s.dev.get (Reg.ERG_CORE_TASK_ENTRY (c.val / 8) (c.val % 8)) = n.val → s.dev.on (Reg.ERG_CORE_TASK_VALID (c.val / 8) (c.val % 8)) = true →
      t.core = some c.val → t.state = .running → x.buffer = [] → x.ops = [] → s.dev.get (coreState c.val) ≠ 3 →
      ∀ st : BitVec 8, x.ending = some st →
      (t.resident = false → t.job = some j.id → s.dev.job j.id = some j → j.phase = .running → t.freeJobs = [] →
        Completes (.taskEnd c) s (fun d =>
          d.task n.val = { Task.reset with gen := t.gen } ∧ d.get (coreState c.val) = 0 ∧
          d.on (Reg.ERG_CORE_TASK_VALID (c.val / 8) (c.val % 8)) = false ∧
          d.job j.id = some (s.dev.endedJob j (if st.toNat ∈ [0x00, 0x04, 0x05, 0x0C, 0x0E, 0x0F] then st.toNat else stCONFIG)
            (n.val + t.gen.toNat * 2 ^ 16 + st.toNat * 2 ^ 32 + c.val * 2 ^ 40 + (x.arch.rS 1).toNat % 2 ^ 32 * 2 ^ 64)))) ∧
      (t.resident = true → t.freeJobs = [] → t.pendingWake = false → t.period = 0 →
        Completes (.taskEnd c) s (fun d =>
          d.task n.val = { t with state := .waiting, core := none, lastStatus := st, runs := t.runs + 1 } ∧
          d.get (coreState c.val) = 0)))

/-- R228, R230, R232, R233: the abort limit forces the end of a task; RETIRE begins the retirement of an erg, its drain ends it, and the
standby erg is chosen; only the secure world may command them. What the rules leave open here is the model's choice (log entry 49). -/
def Obligations.ErgsRetire : Prop :=
  ∀ (s : State) (n : Fin 4096) (c : Fin 104) (e : Fin 16) (abort auto : Bool),
    (let t := s.dev.task n.val
     s.dev.on (Reg.ERG_CORE_TASK_VALID (c.val / 8) (c.val % 8)) = true → s.dev.get (Reg.ERG_CORE_TASK_ENTRY (c.val / 8) (c.val % 8)) = n.val →
      t.state = .aborting → t.core = some c.val → (s.dev.core c.val).forced = false →
      s.dev.due (t.since + BitVec.ofNat 64 (s.dev.get Reg.TSU_ABORT_TIMEOUT_US * 1000 * 2 ^ 16)) = true →
      s.dev.get (coreState c.val) = 1 ∨ s.dev.get (coreState c.val) = 2 →
      Completes (.abortTimeout c) s (fun d => (d.core c.val).forced = true ∧ (d.core c.val).bundle = none ∧
        (d.core c.val).ops = [] ∧ d.on Reg.TSU_ATTN_ABORT_FORCED = true)) ∧
    (s.dev.reaches .secure 0xB00014 = true → e.val < 13 → s.dev.get Reg.TSU_STANDBY_ERG ≠ e.val →
      s.dev.on (Reg.ERG_STATUS_RETIRED e.val) = false → s.dev.tsu.retiring = none →
      Completes (.retire .secure e abort) s (fun d => d.tsu.retiring = some (e.val, abort) ∧
        (s.dev.stopped (ergFn e.val) = false → d.get (ergFn e.val).state = 2))) ∧
    (∀ (r : Nat × Bool), s.dev.tsu.retiring = some r → r.1 < 13 → s.dev.ergBusy r.1 = false → s.dev.on Reg.TSU_STANDBY_AUTO = false →
      Completes .retirementDrained s (fun d => d.tsu.retiring = none ∧ d.on (Reg.ERG_STATUS_RETIRED r.1) = true ∧
        d.get (ergFn r.1).state = 0 ∧ d.on (Reg.ERG_ATTN_RETIRED r.1) = true ∧ d.on Reg.TSU_ATTN_RETIRED = true)) ∧
    (s.dev.reaches .secure 0xB00010 = true → e.val = 15 ∨ (e.val < 13 ∧ s.dev.stopped (ergFn e.val) = true ∧
        (s.dev.on (Reg.ERG_STATUS_RETIRED e.val) && s.dev.on (Reg.ERG_STATUS_SELFTEST_FAIL e.val)) = false) →
      Completes (.tsuStandbyWrite .secure e auto) s (fun d => d.get Reg.TSU_STANDBY_ERG = e.val ∧
        d.on Reg.TSU_STANDBY_AUTO = auto ∧ ∀ k < 13, d.on (Reg.ERG_STATUS_STANDBY k) = (k == e.val))) ∧
    (∀ f : Fin 64, s.dev.reaches (.func f) 0xB00014 = true →
      Gives (.retire (.func f) e abort) s (s.dev.regViolation (.func f) 0xB00014))

/-- R8, R50, R51: RUN, STOP_DRAIN, STOP_ABORT and the end of the last work complete for every function: its STATE, ABORT and FAULT take the
values of the rule, and the function does what entering or leaving RUN brings with it. What the rules leave open here is the model's
choice (log entry 30). -/
def Obligations.FunctionControl : Prop :=
  ∀ (s : State) (who : Accessor) (fn : Fn) (ext : List Ext),
    let d := s.dev
    (d.controls who fn = true → notAFunction fn = false → d.stopped fn = true →
      (d.startCheck fn = none → Gives (.run who fn) s ((d.enterRun fn).starts fn)) ∧
      (∀ code, d.startCheck fn = some code → Gives (.run who fn) s (d.startFails fn code)) ∧
      Gives (.stopDrain who fn) s d ∧ Gives (.stopAbort who fn ext) s d) ∧
    (d.controls who fn = true → notAFunction fn = false → d.running fn = true → d.haltedChannel fn = false → d.mayStop fn = true →
      (∀ l, fn = .lane l → Gives (.stopDrain who fn) s ((d.enterStopped fn).isStopped fn) ∧
        Gives (.stopAbort who fn ext) s ((d.enterStopped fn).isStopped fn)) ∧
      ((∀ l, fn ≠ .lane l) → Gives (.stopDrain who fn) s ((d.enterStopping fn false).leavesRun fn true) ∧
        Gives (.stopAbort who fn ext) s (((d.enterStopping fn true).leavesRun fn false).abortWork fn ext))) ∧
    (d.stopping fn = true → d.fnIdle fn = true → Gives (.lastWorkEnded fn) s ((d.isStopped fn).enterStopped fn)) ∧
    ((d.enterRun fn).get fn.state = 1 ∧ (d.enterRun fn).get fn.fault = 0 ∧ (d.enterRun fn).get fn.abort = 0) ∧
    (∀ b : Bool, (d.enterStopping fn b).get fn.state = 2 ∧ (d.enterStopping fn b).on fn.abort = b ∧
      (d.enterStopping fn b).get fn.fault = d.get fn.fault) ∧
    ((d.enterStopped fn).get fn.state = 0 ∧ (d.enterStopped fn).get fn.abort = 0 ∧
      (d.enterStopped fn).get fn.fault = d.get fn.fault) ∧
    -- a command a function does not take in its state is a rejected write
    (d.controls who fn = true → notAFunction fn = false →
      (d.stopped fn = false → Gives (.run who fn) s (d.cfgReject who fn.ctl.off)) ∧
      (d.stopping fn = true → d.haltedChannel fn = false → Gives (.stopDrain who fn) s (d.cfgReject who fn.ctl.off)) ∧
      (d.stopping fn = true → d.on fn.abort = true → d.haltedChannel fn = false →
        Gives (.stopAbort who fn ext) s (d.cfgReject who fn.ctl.off))) ∧
    (∀ off, let d' := d.cfgReject who off
      d'.get Reg.GLB_CFG_REJECT_COUNT = (d.get Reg.GLB_CFG_REJECT_COUNT + 1) % 2 ^ Reg.GLB_CFG_REJECT_COUNT.w ∧
      d'.on Reg.GLB_CFG_REJECT_VALID = true ∧
      (d.on Reg.GLB_CFG_REJECT_VALID = false → d'.get Reg.GLB_CFG_REJECT_ADDR = off % 2 ^ Reg.GLB_CFG_REJECT_ADDR.w) ∧
      (d.on Reg.GLB_CFG_REJECT_VALID = true → d'.get Reg.GLB_CFG_REJECT_ADDR = d.get Reg.GLB_CFG_REJECT_ADDR) ∧
      d'.evt.queue = d.evt.queue ++ [⟨0x702, d.sourceWorld 0x702⟩] ∧ d'.mem = d.mem ∧ d'.jfe = d.jfe ∧ d'.cores = d.cores ∧
      d'.out = d.out)

/-- R59–R62: a poll swaps the enabled doorbell words and reads the flagged rings' counts, or reads the array; a sweep reads the count of
every ring in RUN; the answer of a Swap leads to the reads of the rings whose bits were set, and counts stray bits and failures. What the
rules leave open here is the model's choice (log entries 3, 29). -/
def Obligations.DoorbellsRead : Prop :=
  ∀ (s : State) (q : Fin 4) (v : BitVec 64),
    let d := s.dev
    let asks (e : Dev) (n : Nat) : Prop := n ∈ e.jfe.countReads ∧
      (n ∉ d.jfe.countReads → Out.read (d.sqFunc n) (d.iova (Reg.JFE_SQ_PI_ADDR n).off 2) 4 ∈ e.out)
    let array := Out.read 0 (d.iova Reg.JFE_SCAN_ADDR_LO.off 10) 1024
    let rings : List Nat := upFrom (64 * q.val) 64
    (d.running .poller = true → d.mayMaster 0 = true → d.power.paused = false →
      (d.on Reg.JFE_DB_CFG_MODE = false →
        Completes .doorbellPoll s (fun e =>
          (∀ o, e.word o = if o = Reg.JFE_DB_POLLS.off then d.word o + 1 else d.word o) ∧ e.jfe.flagged = [] ∧
          (∀ n ∈ d.jfe.flagged, d.sqRuns n = true → asks e n) ∧
          (∀ w : Fin 4, d.bit Reg.JFE_DB_CFG_QMASK w.val = true →
            w.val ∈ e.jfe.swaps ∧ Out.swap (d.iova Reg.JFE_DB_ADDR_LO.off 5 + 8 * w.val) ∈ e.out) ∧
          d.out <+: e.out ∧ e.jfe.jobs = d.jfe.jobs ∧ e.mem = d.mem) ∧
        (d.get Reg.JFE_DB_SWEEP_US ≠ 0 →
          Completes .doorbellSweep s (fun e => (∀ n < 256, d.sqRuns n = true → asks e n) ∧ e.regs = d.regs ∧ d.out <+: e.out ∧
            e.jfe.jobs = d.jfe.jobs ∧ e.mem = d.mem))) ∧
      (d.on Reg.JFE_DB_CFG_MODE = true →
        Completes .doorbellPoll s (fun e => e.jfe.scanRead = true ∧
          e.out = if d.jfe.scanRead then d.out else d.out ++ [array]) ∧
        (d.get Reg.JFE_DB_SWEEP_US ≠ 0 → Completes .doorbellSweep s (fun e => e.jfe.scanRead = true ∧
          e.out = if d.jfe.scanRead then d.out else d.out ++ [array])))) ∧
    (q.val ∈ d.jfe.swaps → d.on Reg.JFE_DB_CFG_MODE = false →
      Completes (.atomicSwapComplete q (.data v)) s (fun e =>
        (∀ n ∈ rings, v.getLsbD (n - 64 * q.val) = true → d.sqRuns n = true → asks e n) ∧
        e.get Reg.JFE_DB_STRAY =
          (d.get Reg.JFE_DB_STRAY + (rings.filter (fun n => v.getLsbD (n - 64 * q.val) && !d.sqRuns n)).length) % 2 ^ 32 ∧
        q.val ∉ e.jfe.swaps) ∧
      (∀ r : Reply (BitVec 64), r = .error ∨ r = .poison →
        Completes (.atomicSwapComplete q r) s (fun e =>
          e.get Reg.JFE_DB_ATOMIC_ERR = (d.get Reg.JFE_DB_ATOMIC_ERR + 1) % 2 ^ 32 ∧
          (∀ n ∈ rings, d.sqRuns n = true → e.on (Reg.JFE_SQ_ATTN_DB_ERR n) = true ∧ asks e n) ∧ q.val ∉ e.jfe.swaps)))

/-- R59, R60, R62, R65, R68: a producer count leads to one read of descriptors, stops a ring with INDEX, or flags a ring whose read failed;
descriptors are taken in order and each is checked; waiting work is taken up in round-robin order. What the rules leave open here is the
model's choice (log entries 3, 29). -/
def Obligations.CountsTaken : Prop :=
  ∀ (s : State) (n : Fin 256) (v : BitVec 32) (k : Nat),
    let d := s.dev
    let ci := d.get (Reg.JFE_SQ_CI n)
    let size := d.sqSize n.val
    let fetches (work : Nat) (e : Dev) : Prop :=
      let k := min (min work (d.fetchRoom n.val)) (min 64 (size - ci % size))
      if k = 0 ∨ (∃ x ∈ d.jfe.fetches, x.1 = n.val) then e.jfe.fetches = d.jfe.fetches ∧ e.out = d.out
      else e.jfe.fetches = d.jfe.fetches ++ [(n.val, ci, k)] ∧ e.jfe.lastRing = n.val ∧
        e.out = d.out ++ [.read (d.sqFunc n.val) (d.iova (Reg.JFE_SQ_BASE n).off 12 + 64 * (ci % size)) (64 * k)]
    let faulted (e : Dev) (code : Nat) : Prop :=
      e.get (Fn.sq n).fault = code ∧ e.stopping (.sq n) = true ∧ e.on (Reg.JFE_SQ_ATTN_FAULT n) = true ∧ e.get (Reg.JFE_SQ_CI n) = ci
    (n.val ∈ d.jfe.countReads → d.sqRuns n.val = true →
      (d.power.paused = false → countDiff v.toNat ci ≤ size →
        Completes (.producerCountReadComplete n (.data v)) s (fun e => e.get (Reg.JFE_SQ_PI_SEEN n) = v.toNat ∧
          fetches (countDiff v.toNat ci) e)) ∧
      (size < countDiff v.toNat ci →
        Completes (.producerCountReadComplete n (.data v)) s (fun e =>
          faulted e 0x04 ∧ e.jfe.fetches = d.jfe.fetches ∧ e.out = d.out)) ∧
      (∀ r : Reply (BitVec 32), r = .error ∨ r = .poison →
        Completes (.producerCountReadComplete n r) s (fun e => e.on (Reg.JFE_SQ_ATTN_DB_ERR n) = true ∧
          e.get Reg.JFE_DB_ATOMIC_ERR = (d.get Reg.JFE_DB_ATOMIC_ERR + 1) % 2 ^ 32 ∧ n.val ∈ e.jfe.flagged ∧
          e.running (.sq n) = true ∧ e.out = d.out))) ∧
    (d.jfe.scanRead = true →
      (∀ vs : List (BitVec 32), vs.length = 256 → Completes (.scanArrayReadComplete (.data vs)) s (fun e =>
        e.jfe.scanRead = false ∧ ∀ m < 256, d.sqRuns m = true → e.get (Reg.JFE_SQ_PI_SEEN m) = (vs.getD m 0).toNat)) ∧
      (∀ r : Reply (List (BitVec 32)), r = .error ∨ r = .poison →
        Completes (.scanArrayReadComplete r) s (fun e => e.jfe.scanRead = false ∧
          e.get Reg.JFE_DB_ATOMIC_ERR = (d.get Reg.JFE_DB_ATOMIC_ERR + 1) % 2 ^ 32 ∧
          ∀ m < 256, d.sqRuns m = true → e.on (Reg.JFE_SQ_ATTN_DB_ERR m) = true ∧ e.sqRuns m = true))) ∧
    (((upFrom 1 256).map (fun i => (d.jfe.lastRing + i) % 256)).find? d.mayFetch = some n.val →
      Completes .fetchResume s (fun e => fetches (d.sqWork n.val) e)) ∧
    (d.jfe.fetches.find? (fun x => x.1 == n.val) = some (n.val, ci, k) → d.sqRuns n.val = true →
      (∀ r : Reply (List (BitVec 512)), r = .error ∨ r = .poison →
        Completes (.descriptorReadComplete n r) s (fun e => faulted e 0x05 ∧ e.jfe.jobs = d.jfe.jobs)) ∧
      (∀ desc : BitVec 512, k = 1 → d.power.paused = false → (∀ j ∈ d.jfe.jobs, j.id < d.jfe.nextJob) →
        let j : Job := { id := d.jfe.nextJob, sq := n.val, desc := desc, phase := .held, unit := 4096, seq := 0, status := 0, result := 0,
                         time := 0, targets := [], named := false, verdict := none, uncorr := false, poison := false, params := [] }
        let taken (e : Dev) : Prop := e.get (Reg.JFE_SQ_CI n) = (ci + 1) % 2 ^ 32 ∧ e.jfe.nextJob = j.id + 1 ∧
          Out.write (d.sqFunc n.val) (d.iova (Reg.JFE_SQ_CI_ADDR n).off 2) (leBytes ((ci + 1) % 2 ^ 32) 4) false ∈ e.out
        (∀ st, d.headerCheck j = some st → Completes (.descriptorReadComplete n (.data [desc])) s (fun e =>
          taken e ∧ e.job j.id = some (d.endedJob j st 0))) ∧
        (d.headerCheck j = none → j.opcode = 0 → Completes (.descriptorReadComplete n (.data [desc])) s (fun e => taken e ∧
          if j.bytes 32 32 ≠ 0 then e.job j.id = some (d.endedJob { j with named := j.carrier != 0xFFFF } stCONFIG 0)
          else e.job j.id = some { j with named := j.carrier != 0xFFFF, unit := 0, time := d.now }))))

/-- R64, R66–R68, R76, R77: a held job starts once nothing holds it; a NOP completes OK; a started job enters its queue, or completes with
CONFIG when the block is not in RUN; a CANCEL ends its targets and counts them. What the rules leave open here is the model's choice (log
entries 25, 27). -/
def Obligations.JobsMove : Prop :=
  ∀ (s : State) (j : Job),
    let d := s.dev
    d.job j.id = some j →
    (j.phase = .held → j.opcode ≠ 1 → (j.opcode = 0xB0 ∨ j.notBefore = 0 ∨ d.due j.notBefore = true) → d.heldBack j = false →
      Gives (.jobStart j.id) s (d.setJob { j with phase := .started })) ∧
    (j.phase = .held → j.opcode ≠ 0xB0 → j.notBefore ≠ 0 → d.due j.notBefore = false → Gives (.jobStart j.id) s d) ∧
    (j.phase = .held → d.heldBack j = true → Gives (.jobStart j.id) s d) ∧
    (j.phase = .started → j.opcode = 0 →
      Completes (.nopJob j.id) s (fun e => e.job j.id = some (d.endedJob j 0 0) ∧ e.mem = d.mem ∧ e.regs = d.regs ∧ e.out = d.out)) ∧
    (j.phase = .started → 0x10 ≤ j.opcode →
      (d.queueOf j = none → Gives (.jobReachesQueue j.id) s (d.enqueueJob j)) ∧
      (∀ fn held limit, d.queueOf j = some (fn, held, limit) → (∀ x ∈ d.jfe.jobs, x.phase = .started → j.id ≤ x.id) →
        (held < limit → d.queueOpen j fn = true → Gives (.jobReachesQueue j.id) s (d.enqueueJob j)) ∧
        (held < limit → d.queueOpen j fn = false → j.isCipher = false →
          Completes (.jobReachesQueue j.id) s (fun e => e.job j.id = some (d.endedJob j stCONFIG 0))) ∧
        (limit ≤ held → Gives (.jobReachesQueue j.id) s d))) ∧
    ((d.enqueueJob j).job j.id = some { j with phase := .queued, seq := d.jfe.nextSeq }) ∧
    (j.phase = .held → j.opcode = 1 → (d.jfe.jobs.map (·.id)).Nodup →
      let ts := (d.jfe.jobs.filter (fun x => x.matches j)).map (·.id)
      (∀ x ∈ d.jfe.jobs, x.matches j = true → x.isCipher = false ∧ (x.phase = .held ∨ x.phase = .started ∨ x.phase = .queued)) →
      Completes (.cancelJob j.id) s (fun e =>
        e.job j.id = some { d.endedJob j 0 (ts.length % 2 ^ 16) with targets := ts } ∧
        (∀ x ∈ d.jfe.jobs, x.matches j = true → e.job x.id = some (d.endedJob x stCANCELLED 0)) ∧
        (∀ x ∈ d.jfe.jobs, x.matches j = false → x.id ≠ j.id → e.job x.id = some x) ∧ e.mem = d.mem ∧ e.regs = d.regs)) ∧
    (∀ c : Job, c.matches j = true → c.sq = j.targetSq ∧ c.opcode ≠ 1 ∧ c.id < j.id ∧ c.phase ≠ .taken ∧
      (j.bits 35 0 1 = 1 ∨ c.tag = j.bytes 32 2))

/-- R70–R72, R74, R75: the end of a job is taken and its record goes to its slot with the fields and the phase of the rules, and the job
leaves flight; a full ring holds the record and has its consumer count read, which releases it or raises the ring's fault. -/
def Obligations.RecordsWritten : Prop :=
  ∀ (s : State) (j : Job) (m : Fin 256) (v : BitVec 32),
    let d := s.dev
    let pi := d.get (Reg.JFE_CQ_PI m)
    let lg := d.get (Reg.JFE_CQ_CFG_LOG2SIZE m)
    let asked := Out.read (d.cqFunc m.val) (d.iova (Reg.JFE_CQ_CI_ADDR m).off 2) 4
    (d.job j.id = some j → (d.jfe.jobs.map (·.id)).Nodup → j.phase = .ended → j.targets = [] → d.jobCq j = m.val → d.jfe.waiting = [] →
      j.sq < 256 → (j.named = true → j.carrier < 384) → d.stopped (.cq m) = false → d.mayMaster (d.cqFunc m.val) = true →
      (d.cqFull m.val = false → Completes (.jobCompletion j.id) s (fun e => ∃ r : BitVec 256,
        e.out = d.out ++ [.record (d.cqFunc m.val) (d.iova (Reg.JFE_CQ_BASE m).off 12 + 32 * (pi % 2 ^ lg)) r] ∧
        r.extractLsb' 0 16 = BitVec.ofNat 16 j.tag ∧ r.extractLsb' 16 8 = BitVec.ofNat 8 j.status ∧
        r.extractLsb' 24 8 = BitVec.ofNat 8 j.sq ∧ r.extractLsb' 32 128 = j.result ∧ r.extractLsb' 160 64 = j.time ∧
        r.extractLsb' 224 6 = BitVec.ofNat 6 (d.jobFunc j) ∧ r.getLsbD 230 = j.world ∧ r.extractLsb' 231 24 = 0 ∧
        r.getLsbD 255 = ((pi >>> lg).testBit 0 ^^ true) ∧
        e.get (Reg.JFE_CQ_PI m) = (pi + 1) % 2 ^ 32 ∧ e.job j.id = none ∧ e.jfe.waiting = [] ∧
        (j.completionEvent = true → ⟨0x340 + m.val, d.sourceWorld (0x340 + m.val)⟩ ∈ e.evt.queue) ∧ e.mem = d.mem)) ∧
      (d.cqFull m.val = true → Completes (.jobCompletion j.id) s (fun e =>
        e.job j.id = some { j with phase := .taken } ∧ e.jfe.waiting = [j.id] ∧ e.get (Reg.JFE_CQ_PI m) = pi ∧
        e.out = if m.val ∈ d.jfe.stalled ∨ m.val ∈ d.jfe.ciReads then d.out else d.out ++ [asked]))) ∧
    (m.val ∈ d.jfe.stalled → m.val ∉ d.jfe.ciReads →
      Completes (.cqFullRecheck m) s (fun e => e.out = d.out ++ [asked] ∧ m.val ∈ e.jfe.ciReads ∧ e.regs = d.regs)) ∧
    (m.val ∈ d.jfe.ciReads →
      let stalls (e : Dev) : Prop := m.val ∈ e.jfe.stalled ∧ e.jfe.waiting = d.jfe.waiting ∧ e.jfe.jobs = d.jfe.jobs ∧
        e.get (Reg.JFE_CQ_STALLS m) = (d.get (Reg.JFE_CQ_STALLS m) + if m.val ∈ d.jfe.stalled then 0 else 1) % 2 ^ 32
      let faulted (e : Dev) (code : Nat) : Prop := e.get (Fn.cq m).fault = code ∧ e.get (Fn.cq m).state = d.get (Fn.cq m).state ∧
        e.on (Reg.JFE_CQ_ATTN_FAULT m) = true ∧ e.cachedCi m.val = d.cachedCi m.val
      (d.cqSize m.val < countDiff pi v.toNat → Completes (.cqCiReadComplete m (.data v)) s (fun e => faulted e 0x04 ∧ stalls e)) ∧
      (countDiff pi v.toNat = d.cqSize m.val → Completes (.cqCiReadComplete m (.data v)) s (fun e =>
        e.get (Reg.JFE_CQ_CI_SEEN m) = v.toNat ∧ e.cachedCi m.val = v.toNat ∧ stalls e)) ∧
      (countDiff pi v.toNat < d.cqSize m.val →
        let e := (d.onJfe (fun x => { x with ciReads := x.ciReads.filter (· != m.val) })).set (Reg.JFE_CQ_CI_SEEN m) v.toNat
        let e := e.onJfe (fun x => { x with cached := update (fun _ => 0) x.cached m.val v })
        e.cqFull m.val = false ∧ Gives (.cqCiReadComplete m (.data v)) s (e.flush m.val)) ∧
      (∀ r : Reply (BitVec 32), r = .error ∨ r = .poison →
        Completes (.cqCiReadComplete m r) s (fun e => faulted e 0x05 ∧ stalls e)))

/-- R79, R80: loss of Bus Master Enable stops every ring and channel of the function with FAULT BME; a function-level reset ends the
function's jobs without records, and leaves its rings STOPPED with their registers at their reset values but for CFG.FUNC. What the rules
leave open here is the model's choice (log entry 19). -/
def Obligations.FunctionsLost : Prop :=
  ∀ (s : State) (f : Fin 64),
    let d := s.dev
    let off (d : Dev) : Dev := d.onJfe (fun j => { j with busMaster := j.busMaster &&& ~~~(BitVec.ofNat 64 (2 ^ f.val)) })
    (∀ g : Fin 64, (off d).mayMaster g = (d.mayMaster g && g != f)) ∧
    (∃ e, e = ((off d).masters f).foldl (fun d fn => d.faultAbort fn []) (off d) ∧
      Gives (.busMasterEnableClear f) s (((upFrom 0 256).filter (fun m => e.cqFunc m == f)).foldl Dev.flush e)) ∧
    (d.jfe.jobs = [] → Completes (.busMasterEnableClear f) s (fun e => e.mayMaster f = false ∧
      (∀ fn : Fn, ((∃ n : Fin 256, fn = .sq n ∧ d.sqFunc n.val = f.val) ∨ (∃ m : Fin 256, fn = .cq m ∧ d.cqFunc m.val = f.val)) →
        d.running fn = true ∨ d.stopping fn = true →
        e.stopping fn = true ∧ e.get fn.fault = 3 ∧ e.on fn.abort = true ∧ ∀ a n, fn.attn = some (a, n) → e.on a = true))) ∧
    (d.boot.powered = true → d.boot.perst = true → d.devState < 3 →
      let e := (((d.jfe.jobs.filter (fun j => d.jobFunc j == f.val)).map (·.id)).foldl Dev.loseJob d).freeResidents f
      let e := ((off e).owned f).foldl Dev.flrStop (off e)
      Gives (.functionLevelReset f) s (((e.resetRings f).clearDesk f).clearPage f)) ∧
    (∀ n : Fin 256, d.sqFunc n.val = f.val → (d.resetRings f).stopped (.sq n) = true ∧ (d.resetRings f).sqFunc n.val = f.val ∧
      ∀ k < 16, k ≠ 1 → (d.resetRings f).word ((Reg.JFE_SQ_CTL n).off + 4 * k) = regReset ((Reg.JFE_SQ_CTL n).off + 4 * k)) ∧
    (∀ n : Fin 256, d.sqFunc n.val ≠ f.val → ∀ k < 16,
      (d.resetRings f).word ((Reg.JFE_SQ_CTL n).off + 4 * k) = d.word ((Reg.JFE_SQ_CTL n).off + 4 * k)) ∧
    (∀ m : Fin 256, d.cqFunc m.val = f.val → (d.resetRings f).stopped (.cq m) = true ∧ (d.resetRings f).cqFunc m.val = f.val)

/-- R86–R88, R97, R118, R129, R328, R338: a request or posted write that has reached its memory is served: a read answers with the stored
words, a write stores and answers WACK or SACK, a refusal answers ERR or NOTICE with its status; a packet that meets a fence reaches no
memory. What the rules leave open here is the model's choice (log entries 33, 92). -/
def Obligations.MemoryPackets : Prop :=
  ∀ (s : State) (p : Packet) (o : Owner) (d : Dev),
    let e := p.dstEp.val
    let b := packetAddr p
    let f := (o.func.map Fin.val).getD 0
    let q := reqOf p o
    let fenced := s.dev.noc.arrived.contains p = false ∧ s.dev.slotFenced e = true
    let served := (s.dev.noc.arrived.contains p = true ∧ d = s.dev.onNoc (fun n => { n with arrived := n.arrived.erase p })) ∨
      (s.dev.noc.arrived.contains p = false ∧ s.dev.slotFenced e = false ∧ d = s.dev)
    let refused (d : Dev) (st : Nat) : Dev := d.enterMesh (d.answerTo p (if p.type = .swr then .notice else .err) st []) e
    (p.is .rd = true → served →
      (p.value.getLsbD 53 = true → d.jfe.busMaster.getLsbD f = true → Gives (.rd p o) s (d.send (.read f b (8 * (p.count.val + 1))))) ∧
      (p.value.getLsbD 53 = true → d.jfe.busMaster.getLsbD f = false → Gives (.rd p o) s (refused d stCONFIG)) ∧
      (p.value.getLsbD 53 = false →
        let d1 := (groupsOf b (p.count.val + 1)).foldl (fun d g => d.countRead g.1) d
        (∀ d2 ws, d1.readRun q b (p.count.val + 1) = (d2, ws, none) →
          Gives (.rd p o) s (d2.enterMesh (d2.answerTo p .rdata 0 ws) e)) ∧
        (∀ d2 ws st, d1.readRun q b (p.count.val + 1) = (d2, ws, some st) → Gives (.rd p o) s (refused d2 st)))) ∧
    (p.is .wr = true ∨ p.is .swr = true → served →
      let c := if p.type = .wr then Instr.wr p o else Instr.swr p o
      let ok (d' : Dev) : Dev := d'.enterMesh (d.answerTo p (if p.type = .wr then .wack else .sack) 0 []) e
      (p.value.getLsbD 53 = true → d.jfe.busMaster.getLsbD f = false → Gives c s (refused d stCONFIG)) ∧
      (p.value.getLsbD 53 = true → d.jfe.busMaster.getLsbD f = true → 
        Gives c s (ok (d.send (.write f b (p.words.map hostBytes).flatten (d.on Reg.JFE_CFG_RO_DATA))))) ∧
      (p.value.getLsbD 53 = false →
        (∀ d2, d.writeRun q b p.words = (d2, none) →
          Gives c s (ok ((groupsOf b p.words.length).foldl (fun d g => d.countWrite g.1 g.2) d2))) ∧
        (∀ d2 st, d.writeRun q b p.words = (d2, some st) → Gives c s (refused d2 st)))) ∧
    (p.is .wrn = true → served → p.value.getLsbD 53 = false →
      (∀ d2, d.writeNarrow q b (dataOf (p.words.headD 0).toNat) p.byteView p.mask.toNat = (d2, none) →
        ∃ d3, d3 = (groupsOf b 1).foldl (fun d g => d.countWrite g.1 g.2) d2 ∧
          Gives (.wrn p o) s (d3.enterMesh (d2.answerTo p .wack 0 []) e)) ∧
      (∀ d2 st, d.writeNarrow q b (dataOf (p.words.headD 0).toNat) p.byteView p.mask.toNat = (d2, some st) →
        Gives (.wrn p o) s (refused d2 st))) ∧
    (fenced →
      (p.is .rd = true → Gives (.rd p o) s (refused (s.dev.bump (Reg.NOC_EP_FENCED_RSP e)) stFENCED)) ∧
      (p.is .wr = true → Gives (.wr p o) s (refused (s.dev.bump (Reg.NOC_EP_FENCED_RSP e)) stFENCED)) ∧
      (p.is .wrn = true → Gives (.wrn p o) s (refused (s.dev.bump (Reg.NOC_EP_FENCED_RSP e)) stFENCED)) ∧
      (p.is .swr = true → Gives (.swr p o) s (refused (s.dev.bump (Reg.NOC_EP_FENCE_DROPS e)) stFENCED))) ∧
    (∀ n, (∀ k < n, ∃ r, regionOf (b + 8 * k) = some r ∧ d.readable r = true ∧ d.refuse q r ((b + 8 * k) / 8) false = none ∧
        d.outOfService r.ctrl = false ∧ (∀ i, r ≠ .hbm i) ∧ classify (d.raw ((b + 8 * k) / 8)) = .clean) →
      d.readRun q b n = (d, (upFrom 0 n).map (fun k => BitVec.ofNat 80 (d.raw ((b + 8 * k) / 8))), none))

/-- R101, R118, R119, R328, R340: an answer reaches its requester: it ends what waited for it, delivers words corrected or as poison, and
tells the job that a read was lost or which status stops it. What the rules leave open here is the model's choice (log entry 92). -/
def Obligations.AnswersArrive : Prop :=
  ∀ (s : State) (p : Packet) (o : Owner),
    let d := s.dev
    let t := p.tag.val
    let waits (posted : Bool) (x : Unanswered) : Bool := x.ep == p.dstEp.val && x.tag == t && x.posted == posted
    let ends (posted : Bool) (n : Nat) (e : Dev) : Prop :=
      (e.noc.waiting.filter (waits posted)).length = (d.noc.waiting.filter (waits posted)).length - n ∧
      e.noc.waiting.filter (fun x => !waits posted x) = d.noc.waiting.filter (fun x => !waits posted x) ∧
      e.noc.arrived = d.noc.arrived.erase p
    (p.is .wack = true → Completes (.wack p o) s (fun e => ends false 1 e ∧ e.jfe = d.jfe ∧ e.mem = d.mem ∧ e.regs = d.regs)) ∧
    (p.is .sack = true → Completes (.sack p o) s (fun e => ends true (p.value.toNat % 16 + 1) e ∧ e.jfe = d.jfe ∧ e.mem = d.mem)) ∧
    (p.is .rdata = true →
      let words := p.words.map (fun w => (receivedWord w).1)
      let lost := p.words.any (fun w => (receivedWord w).2 == some true)
      let poison := p.words.any (fun w => (receivedWord w).2 == some false)
      (∀ w : BitVec 80, (classify w.toNat = .clean → receivedWord w = (.word (dataOf w.toNat), none)) ∧
        (∀ v, classify w.toNat = .corrected v → receivedWord w = (.word v, none)) ∧
        (classify w.toNat = .poison → receivedWord w = (.poison, some false)) ∧
        (classify w.toNat = .uncorrectable → receivedWord w = (.poison, some true))) ∧
      Completes (.rdata p o) s (fun e => ends false 1 e ∧ lookup (fun _ => []) e.noc.delivered (1024 * p.dstEp.val + t) = words) ∧
      (∀ j, o.job = some j.id → d.job j.id = some j →
        (¬(0xA0 ≤ j.opcode ∧ j.opcode < 0xB0) → Completes (.rdata p o) s (fun e =>
          e.job j.id = some { j with uncorr := j.uncorr || lost, poison := j.poison || poison })) ∧
        (0xA0 ≤ j.opcode → j.opcode < 0xB0 → j.unit < 64 → j.phase = .running → lost = true →
          Completes (.rdata p o) s (fun e => e.stopping (.dmv (Fin.ofNat 64 j.unit)) = true ∧
            e.get (Fn.dmv (Fin.ofNat 64 j.unit)).fault = 1 ∧
            e.get (Reg.DMV_CH_HALT_TAG j.unit) = j.tag ∧
            e.job j.id = some (d.endedJob j stUNCORR 0))))) ∧
    (∀ (c : Instr), (p.is .err = true ∧ c = .errPacket p o) ∨ (p.is .notice = true ∧ c = .noticePacket p o) →
      Completes c s (fun e => ends (p.type == .notice) 1 e ∧ e.mem = d.mem) ∧
      (∀ j, o.job = some j.id → d.job j.id = some j → j.phase ≠ .ended → j.phase ≠ .taken →
        Completes c s (fun e => e.job j.id = some
          (if statusOf p = stUNCORR then { j with uncorr := true }
           else { j with verdict := some (j.verdict.getD (statusOf p)) })))) ∧
    (∀ (slot : Fin 96) (v : BitVec 56), Completes (.powerPacket slot v) s (fun e =>
      lookup (fun _ => 0) e.noc.powerSeen slot = v ∧ ∀ k : Fin 96, k ≠ slot →
        lookup (fun _ => 0) e.noc.powerSeen k = lookup (fun _ => 0) d.noc.powerSeen k))

/-- R337, R339: FENCE and UNFENCE move a slot between its states as the table gives, and are ignored in every other state; a FENCING slot
with nothing unanswered becomes DRAINED, and its report reaches the power controller. What the rules leave open here is the model's
choice (log entry 3). -/
def Obligations.SlotsFenced : Prop :=
  ∀ (s : State) (e : Fin 96),
    let d := s.dev
    let becomes (n : Nat) (x : Dev) : Prop := x.slotState e = n ∧
      (∀ o, o ≠ (Reg.NOC_EP_STATE e).off → x.word o = d.word o) ∧ x.mem = d.mem ∧ x.jfe = d.jfe ∧ x.noc.waiting = d.noc.waiting
    (d.slotState e = 0 → Completes (.fencePacket e false) s (becomes 1) ∧
      ((uldPort e).isSome = true → Completes (.fencePacket e true) s (becomes 4)) ∧
      ((uldPort e).isSome = false → Gives (.fencePacket e true) s d)) ∧
    (d.slotState e ≠ 0 → ∀ link, Gives (.fencePacket e link) s d) ∧
    (d.slotState e = 2 → Completes (.unfencePacket e false) s (fun x => becomes 0 x ∧ e.val ∉ x.noc.drained ∧
      ∀ p, uldPort e = some p → (x.link p).sentLine = (d.link p).sentLine ++ [.unfence])) ∧
    (d.slotState e = 4 → Completes (.unfencePacket e true) s (becomes 0)) ∧
    (d.slotState e ≠ 2 → Gives (.unfencePacket e false) s d) ∧ (d.slotState e ≠ 4 → Gives (.unfencePacket e true) s d) ∧
    (d.slotState e = 1 → (∀ x ∈ d.noc.waiting, x.ep ≠ e.val) → (∀ k ∈ d.noc.arrived, k.dstEp ≠ e) →
      Completes (.slotDrained e) s (fun x => becomes 2 x ∧ e.val ∈ x.noc.toPower ∧
        ∀ p, uldPort e = some p → (x.link p).sentLine = (d.link p).sentLine ++ [.fence])) ∧
    (d.slotState e = 1 → (∃ x ∈ d.noc.waiting, x.ep = e.val) → Gives (.slotDrained e) s d) ∧
    (e.val ∈ d.noc.toPower → Completes (.drainedPacket e) s (fun x =>
      e.val ∈ x.noc.drained ∧ e.val ∉ x.noc.toPower ∧ x.regs = d.regs ∧ x.mem = d.mem))

/-- R330–R332, R335: a packet enters the mesh at its slot with the current epoch, leaves a router by the exit of its table when its output
grants it, and is counted and answered where it is unreachable; a held packet gains urgency with age. What the rules leave open here is
the model's choice (log entry 34). -/
def Obligations.PacketsRoute : Prop :=
  ∀ (s : State) (p : Packet) (k waited : Nat),
    let d := s.dev
    let e := p.srcEp.val
    let p' := { p with urg := injectUrgency p, srcDev := Fin.ofNat 4 d.ownId, epoch := d.epochAt e }
    let quiet := ∀ i : Fin 16, d.running (.probe i) = false
    let waits (d : Dev) : Dev := if isReq p = true ∨ isPosted p = true then
        d.onNoc (fun n => { n with waiting := n.waiting ++ [⟨e, p.tag.val, isPosted p, p.value.toNat⟩] }) else d
    (d.slotState e = 0 → ∀ t, d.targetSlot p' = some t → Gives (.packetRoute (.inject p) waited) s ((waits d).enterMesh p' e) ∧
      (quiet → Completes (.packetRoute (.inject p) waited) s (fun x =>
        x.noc.held = d.noc.held ++ [⟨p', e / 2, 16 + 4 * (e % 2) + p.srcLink.val⟩]))) ∧
    (d.slotState e = 0 → d.targetSlot p' = none → Gives (.packetRoute (.inject p) waited) s ((waits d).unreachable p' e stLINK)) ∧
    (d.slotFenced e = true → isReq p = true ∨ isPosted p = true → Completes (.packetRoute (.inject p) waited) s (fun x =>
      x.noc.held = d.noc.held ∧ x.noc.arrived = d.noc.arrived ++ [d.answerTo p' (if isReq p then .err else .notice) stFENCED []])) ∧
    (∀ h, d.noc.held[k]? = some h →
      let granted (n : NocState) := update (fun _ => 23) n.granted (d.outputOf h) h.inLink
      let d1 := (d.onNoc (fun n => { n with held := n.held.eraseIdx k, granted := granted n })).recount
      (d.granted h = true →
        (d.exitOf h = .unreachable →
          Gives (.packetRoute (.held k) waited) s (d1.unreachable h.pkt (2 * h.router) stLINK) ∧
          (quiet → Completes (.packetRoute (.held k) waited) s (fun x =>
            x.get Reg.NOC_UNREACH = (d.get Reg.NOC_UNREACH + 1) % 2 ^ Reg.NOC_UNREACH.w))) ∧
        (∀ i, d.exitOf h = .eject i →
          Gives (.packetRoute (.held k) waited) s ((d1.probePoint h.pkt h.router (4 + i) waited).arrive h.pkt (2 * h.router + i)) ∧
          (quiet → d.targetSlot h.pkt = some (2 * h.router + i) → d.slotState (2 * h.router + i) = 0 → 2 * h.router + i < 96 →
            d.destDevice h.pkt = d.ownId → Completes (.packetRoute (.held k) waited) s (fun x =>
              x.noc.held = d.noc.held.eraseIdx k ∧ x.noc.arrived = d.noc.arrived ++ [h.pkt]))) ∧
        (∀ c r, d.exitOf h = .go c → neighbour h.router c = some r → quiet →
          Completes (.packetRoute (.held k) waited) s (fun x => x.noc.arrived = d.noc.arrived ∧
            x.noc.held = d.noc.held.eraseIdx k ++
              [⟨h.pkt, r, 4 * (if c % 2 = 0 then c + 1 else c - 1) + channelLink h.pkt⟩]))) ∧
      (d.granted h = false → Gives (.packetRoute (.held k) waited) s d) ∧
      (h.pkt.scrub = false → Completes (.ageQuantum k) s (fun x => x.noc.held = d.noc.held.set k
        { h with pkt := { h.pkt with urg := Fin.ofNat 16 (min 15 (h.pkt.urg.val + 1)) } } ∧ x.regs = d.regs ∧ x.mem = d.mem)) ∧
      (h.pkt.scrub = true → Gives (.ageQuantum k) s d))

/-- R334, R336: CHECK walks the inactive table and ends in CHECK_OK, or CHECK_FAIL with router, endpoint and cause; FLIP is taken only after
a good check and switches the epoch; each injection point switches, and the former epoch is released once it is drained. What the rules
leave open here is the model's choice (log entry 35). -/
def Obligations.EpochsFlip : Prop :=
  ∀ (s : State) (e : Fin 96),
    let d := s.dev
    (d.reaches .secure Reg.NOC_EPOCH_CMD_CHECK.off = true →
      Completes (.nocCheck .secure) s (fun x => x.on Reg.NOC_EPOCH_CHECK_BUSY = true)) ∧
    (∀ f, d.reaches (.func f) Reg.NOC_EPOCH_CMD_CHECK.off = true →
      Gives (.nocCheck (.func f)) s (d.regViolation (.func f) Reg.NOC_EPOCH_CMD_CHECK.off) ∧
      Gives (.nocFlip (.func f)) s (d.regViolation (.func f) Reg.NOC_EPOCH_CMD_FLIP.off)) ∧
    (d.on Reg.NOC_EPOCH_CHECK_BUSY = true →
      (d.checkTable (!d.on Reg.NOC_EPOCH_CUR) = none → Completes .nocCheckDone s (fun x =>
        x.on Reg.NOC_EPOCH_CHECK_OK = true ∧ x.on Reg.NOC_EPOCH_CHECK_BUSY = false ∧
        ⟨0x642, d.sourceWorld 0x642⟩ ∈ x.evt.queue)) ∧
      (∀ i t c, d.checkTable (!d.on Reg.NOC_EPOCH_CUR) = some (i, t, c) → Completes .nocCheckDone s (fun x =>
        x.on Reg.NOC_EPOCH_CHECK_OK = false ∧ x.on Reg.NOC_EPOCH_CHECK_BUSY = false ∧ x.on Reg.NOC_ATTN_CHECK_FAIL = true ∧
        x.get Reg.NOC_EPOCH_FAIL_ROUTER = i ∧ x.get Reg.NOC_EPOCH_FAIL_EP = t ∧ x.get Reg.NOC_EPOCH_CHECK_CAUSE = c))) ∧
    (d.checkTable (!d.on Reg.NOC_EPOCH_CUR) = none → ∀ i < 48, ∀ t < 96, RegTable.occupied t = true →
      d.walk (!d.on Reg.NOC_EPOCH_CUR) t 24 i false = none) ∧
    (d.reaches .secure Reg.NOC_EPOCH_CMD_FLIP.off = true →
      (d.on Reg.NOC_EPOCH_CHECK_OK = true → d.on Reg.NOC_EPOCH_FLIP_BUSY = false → Completes (.nocFlip .secure) s (fun x =>
        x.get Reg.NOC_EPOCH_CUR = 1 - d.get Reg.NOC_EPOCH_CUR ∧ x.on Reg.NOC_EPOCH_FLIP_BUSY = true ∧ x.noc.draining = true ∧
        ∀ t < 96, RegTable.occupied t = true → x.epochAt t = d.on Reg.NOC_EPOCH_CUR)) ∧
      ((d.on Reg.NOC_EPOCH_CHECK_OK && !d.on Reg.NOC_EPOCH_FLIP_BUSY) = false →
        Gives (.nocFlip .secure) s (d.cfgReject .secure Reg.NOC_EPOCH_CMD_FLIP.off))) ∧
    (e.val ∈ d.noc.unswitched → Completes (.epochPacket e) s (fun x =>
      x.epochAt e = d.on Reg.NOC_EPOCH_CUR ∧ (∀ t : Fin 96, t ≠ e → x.epochAt t = d.epochAt t) ∧
      ((∀ t ∈ d.noc.unswitched, t = e.val) → x.on Reg.NOC_EPOCH_FLIP_BUSY = false))) ∧
    (d.noc.draining = true → d.get (Reg.NOC_DRAIN_COUNT (1 - d.get Reg.NOC_EPOCH_CUR)) = 0 →
      Completes .nocEpochDrained s (fun x => x.noc.draining = false ∧ x.regs = d.regs ∧
        x.evt.queue = d.evt.queue ++ [⟨0x641, d.sourceWorld 0x641⟩]))

/-- R85, R90, R97, R98, R119: the memory window reads and writes the internal address its page selects, in the byte view and as the physical
function: a served word is shown or merged, a refused one reads zero, and a host sees the stored data of a lost word. What the rules
leave open here is the model's choice (log entries 3, 15). -/
def Obligations.MemoryWindow : Prop :=
  ∀ (s : State) (off : BitVec 25) (size : Nat) (v : BitVec 64) (e0 e1 : Ext) (b : Nat),
    let d := s.dev
    let a := d.get Reg.GLB_MEMWIN_PAGE * 2 ^ 25 + off.toNat
    let sound := off.toNat % 4 = 0 ∧ (size = 4 ∨ size = 8)
    let read (n : Nat) := Instr.memoryWindowRead off n e0 e1
    d.served (.func 0) 0x2000000 = true →
    (¬sound → Gives (read size) s (d.send (.window off.toNat (leBytes 0 size))) ∧
      Gives (.memoryWindowWrite off size v) s d) ∧
    (off.toNat % 4 = 0 → d.target a = .mem b →
      (∀ r, regionOf b = some r → d.readable r = true → d.refuse windowReq r (b / 8) false = none → d.outOfService r.ctrl = false →
        (∀ i, r ≠ .hbm i) → classify (d.raw (b / 8)) = .clean →
        Gives (read 4) s (d.send (.window off.toNat (leBytes (bitsOf (d.raw (b / 8)) (8 * (b % 8)) 32) 4)))) ∧
      (∀ d2, d.readWord windowReq b = (d2, .poison) ∨ d.readWord windowReq b = (d2, .uncorrectable) →
        Gives (read 4) s (d2.send (.window off.toNat (leBytes (bitsOf (d.raw (b / 8)) (8 * (b % 8)) 32) 4)))) ∧
      (∀ d2 st, d.readWord windowReq b = (d2, .err st) → Gives (read 4) s (d2.send (.window off.toNat (leBytes 0 4)))) ∧
      (∀ d2 ack, d.writeNarrow windowReq b (BitVec.ofNat 72 (v.toNat % 2 ^ 32 * 2 ^ (8 * (b % 8)))) true (15 * 2 ^ (b % 8)) = (d2, ack) →
        Gives (.memoryWindowWrite off 4 v) s d2)) ∧
    (off.toNat % 4 = 0 → (∀ b, d.target a ≠ .mem b) → Gives (.memoryWindowWrite off 4 v) s d ∧
      (∀ w, e0 = .word w → (∃ dev x, d.target a = .remote dev x) →
        Gives (read 4) s (d.send (.window off.toNat (leBytes (bitsOf w.toNat (8 * (a % 8)) 32) 4))))) ∧
    (off.toNat % 4 = 0 → ∀ d1 lo d2 hi, windowRead4 a e0 d = (d1, lo) → windowRead4 (d1.windowAddr (off.toNat + 4)) e1 d1 = (d2, hi) →
      Gives (read 8) s (d2.send (.window off.toNat (leBytes lo 4 ++ leBytes hi 4)))) ∧
    (off.toNat % 4 = 0 → ∀ d1, exec (.memoryWindowWrite off 4 v) s = .next { s with dev := d1 } →
      Gives (.memoryWindowWrite off 8 v) s (windowWrite4 (d1.windowAddr (off.toNat + 4)) (v.toNat / 2 ^ 32) d1))

/-- R112, R113, R114, R116: the code: its columns, the check byte as the XOR of the columns of the set data bits, and the class of each
syndrome. A word stored whole is clean, every single-bit error of it is corrected, every double-bit error is detected, and some errors of
three bits are miscorrected or read as poison. A poisoned word reads as poison, and as uncorrectable under any single-bit error. -/
def Obligations.CodeCorrects : Prop :=
  let weight (n : Nat) : Nat := ((List.range 8).filter (fun i => n.testBit i)).length
  (eccColumns.length = 72 ∧ eccColumns.take 56 = (List.range 256).filter (fun n => weight n == 3) ∧
    eccColumns.drop 56 = ((List.range 256).filter (fun n => weight n == 5)).take 16) ∧
  (checkOf 0 = 0 ∧ ∀ v : Word, ∀ k < 72, checkOf (v.toNat ^^^ 2 ^ k) = checkOf v.toNat ^^^ eccColumns.getD k 0) ∧
  (∀ raw : Nat, raw < 2 ^ 80 →
    let syn := syndrome raw
    syn = checkOf (dataOf raw).toNat ^^^ raw / 2 ^ 72 ∧ (syn = 0 → classify raw = .clean) ∧ (syn = 0x7F → classify raw = .poison) ∧
    (∀ k < 8, syn = 2 ^ k → classify raw = .corrected (dataOf raw)) ∧
    (∀ k < 72, syn = eccColumns.getD k 0 → classify raw = .corrected (dataOf (raw ^^^ 2 ^ k))) ∧
    (syn ≠ 0 → syn ≠ 0x7F → (∀ k < 8, syn ≠ 2 ^ k) → syn ∉ eccColumns → classify raw = .uncorrectable)) ∧
  ∀ v : Word,
    classify (encodeWord v) = .clean ∧ dataOf (encodeWord v) = v ∧
    (∀ k < 80, classify (encodeWord v ^^^ 2 ^ k) = .corrected v) ∧
    (∀ j k, j < k → k < 80 → classify (encodeWord v ^^^ 2 ^ j ^^^ 2 ^ k) = .uncorrectable) ∧
    (∃ w, w ≠ v ∧ classify (encodeWord v ^^^ 7) = .corrected w) ∧ classify (encodeWord v ^^^ 2 ^ 56 ^^^ 2 ^ 77 ^^^ 2 ^ 78) = .poison ∧
    dataOf (poisonWord v) = v ∧ syndrome (poisonWord v) = 0x7F ∧ classify (poisonWord v) = .poison ∧
    (∀ k < 80, classify (poisonWord v ^^^ 2 ^ k) = .uncorrectable)

/-- R84–R87: an accepted write leaves its word holding the data with good check bits and every other word as it was; a narrow write replaces
exactly the samples or bytes it names, and one of the byte view clears bits [71:64]; memory keeps its canonical form. What the rules
leave open here is the model's choice (log entry 15). -/
def Obligations.WritesStore : Prop :=
  ∀ (d : Dev) (q : Req) (b : Nat) (r : Region) (v : Word),
    let w := b / 8
    regionOf b = some r → d.writable r = true → d.refuse q r w true = none → d.outOfService r.ctrl = false →
    (d.on Reg.MEM_INJECT_ARMED = false →
      (d.writeWord q b v).2 = none ∧ (d.writeWord q b v).1.raw w = encodeWord v ∧
      (∀ x, x ≠ w → (d.writeWord q b v).1.raw x = d.raw x) ∧
      (Memory.wf d.mem = true → Memory.wf (d.writeWord q b v).1.mem = true) ∧
      (d.writePoison q b).2 = none ∧ classify ((d.writePoison q b).1.raw w) = .poison) ∧
    ((∀ i, r ≠ .hbm i) → classify (d.raw w) = .clean → ∀ (byteView : Bool) (mask : Nat),
      let e := (d.writeNarrow q b v byteView mask).1
      let old := dataOf (d.raw w)
      let new := dataOf (e.raw w)
      (d.writeNarrow q b v byteView mask).2 = none ∧ classify (e.raw w) = .clean ∧ (∀ x, x ≠ w → e.raw x = d.raw x) ∧
      (byteView = false → ∀ i < 4, new.extractLsb' (18 * i) 18 = if bitOf mask i then v.extractLsb' (18 * i) 18
        else old.extractLsb' (18 * i) 18) ∧
      (byteView = true → new.extractLsb' 64 8 = 0 ∧
        ∀ i < 8, new.extractLsb' (8 * i) 8 = if bitOf mask i then v.extractLsb' (8 * i) 8 else old.extractLsb' (8 * i) 8)) ∧
    ((∀ i, r ≠ .hbm i) → classify (d.raw w) = .poison ∨ classify (d.raw w) = .uncorrectable → ∀ (byteView : Bool) (mask : Nat),
      let e := (d.writeNarrow q b v byteView mask).1
      classify (e.raw w) = .poison ∧ e.on Reg.MEM_ATTN_WRITE_DROP = true)

/-- R117, R123–R127, R131: scrubbing, tracking, hourly counts, injection and soft repair: what the memory system does of itself. What the
rules leave open here is the model's choice (log entries 3, 32). -/
def Obligations.MemoryCare : Prop :=
  ∀ (s : State) (n : Fin 197) (w : Nat) (i : Fin 2) (pc : Fin 32) (left : BitVec 8),
    let d := s.dev
    (∀ t ∈ d.tracker n, t.word = w → 86400 * 10 ^ 9 * 2 ^ 16 ≤ (d.now - t.time).toNat →
      Completes (.trackerEntryExpiry n w) s (fun e => e.tracker n = (d.tracker n).filter (fun t => t.word != w) ∧ e.mem = d.mem)) ∧
    ((∀ t ∈ d.tracker n, t.word = w → (d.now - t.time).toNat < 86400 * 10 ^ 9 * 2 ^ 16) → Gives (.trackerEntryExpiry n w) s d) ∧
    (d.get Reg.MEM_SCRUB_CFG_ONCHIP_H = 0 → Gives (.scrubRead false) s d) ∧
    (d.get Reg.MEM_SCRUB_CFG_HBM_H = 0 → Gives (.scrubRead true) s d) ∧
    (∀ k r, d.get Reg.MEM_SCRUB_CFG_ONCHIP_H ≠ 0 → d.nextScrub d.ram.scrubWord 240 = k → k + 1 < onChipWords →
      regionOf (8 * scrubWordAt k) = some r → let x := scrubWordAt k
      (classify (d.raw x) = .clean → Completes (.scrubRead false) s (fun e =>
        e.ram.scrubWord = k + 1 ∧ e.mem = d.mem ∧ e.regs = d.regs)) ∧
      (∀ v, classify (d.raw x) = .corrected v → (d.tracker r.ctrl).length < 64 → (∀ t ∈ d.tracker r.ctrl, t.word ≠ x) →
        Completes (.scrubRead false) s (fun e => e.ram.scrubWord = k + 1 ∧ e.raw x = encodeWord v ∧
          e.tracker r.ctrl = ⟨x, true, d.now⟩ :: d.tracker r.ctrl ∧
          e.get Reg.MEM_TOTAL_CORR = (d.get Reg.MEM_TOTAL_CORR + 1) % 2 ^ Reg.MEM_TOTAL_CORR.w)) ∧
      (classify (d.raw x) = .poison → Completes (.scrubRead false) s (fun e => e.ram.scrubWord = k + 1 ∧ e.mem = d.mem ∧
        e.get (Reg.MEM_CTRL_POISON_SEEN r.ctrl) =
          (d.get (Reg.MEM_CTRL_POISON_SEEN r.ctrl) + 1) % 2 ^ (Reg.MEM_CTRL_POISON_SEEN r.ctrl).w)) ∧
      (classify (d.raw x) = .uncorrectable → Completes (.scrubRead false) s (fun e => e.ram.scrubWord = k + 1 ∧
        classify (e.raw x) = .poison ∧ e.on Reg.MEM_ATTN_UNCORR = true ∧
        (⟨0x780, d.secureWord r x⟩ : Occurrence) ∈ e.evt.queue))) ∧
    (d.get Reg.MEM_SCRUB_CFG_ONCHIP_H ≠ 0 → d.nextScrub d.ram.scrubWord 240 = onChipWords →
      Completes (.scrubRead false) s (fun e => e.ram.scrubWord = 0 ∧ e.mem = d.mem ∧
        e.get Reg.MEM_SCRUB_STATUS_ONCHIP_PASSES =
          (d.get Reg.MEM_SCRUB_STATUS_ONCHIP_PASSES + 1) % 2 ^ Reg.MEM_SCRUB_STATUS_ONCHIP_PASSES.w)) ∧
    (let k := d.ram.scrubGroup
     d.get Reg.MEM_SCRUB_CFG_HBM_H ≠ 0 → k + 1 < hbmGroups → d.get (Reg.HBM_STACK_STATE 0) = 2 → d.outOfService 195 = false →
      (∀ j < 32, classify (d.raw (hbmBase 0 / 8 + 32 * k + j)) = .clean) →
      Completes (.scrubRead true) s (fun e => e.ram.scrubGroup = k + 1 ∧ e.mem = d.mem ∧
        e.get (Reg.HBM_STACK_PC_READ_GROUPS 0 (k % 32)) =
          (d.get (Reg.HBM_STACK_PC_READ_GROUPS 0 (k % 32)) + 1) % 2 ^ (Reg.HBM_STACK_PC_READ_GROUPS 0 (k % 32)).w)) ∧
    Completes .corrHourEnd s (fun e => e.ram.hourCount = [] ∧ e.mem = d.mem ∧
      ∀ m < 197, e.get (Reg.MEM_CTRL_CORR_HOUR m) = min (lookup (fun _ => 0) d.ram.hourCount m) 65535) ∧
    (d.reaches .secure Reg.MEM_INJECT_ARMED.off = true → Completes (.memInjectArm .secure) s (fun e =>
      e.on Reg.MEM_INJECT_ARMED = true ∧ e.mem = d.mem)) ∧
    (d.reaches .steward Reg.MEM_INJECT_ARMED.off = true →
      Gives (.memInjectArm .steward) s (d.regViolation .steward Reg.MEM_INJECT_ARMED.off)) ∧
    (∀ x : Nat × Nat × Nat, d.ram.repairs.find? (fun x => x.1 == i.val && x.2.1 == pc.val) = some x →
      Completes (.hbmRepairComplete i pc left) s (fun e => e.ram.repairs = d.ram.repairs.erase x ∧
        e.get (Reg.HBM_STACK_REPAIRS i) = (d.get (Reg.HBM_STACK_REPAIRS i) + 1) % 2 ^ (Reg.HBM_STACK_REPAIRS i).w ∧
        e.get (Reg.HBM_STACK_PC_REPAIRS_LEFT i pc) = left.toNat ∧ e.on (Reg.HBM_STACK_ATTN_REPAIR i) = true)) ∧
    (∀ r : Region, (∀ j, r ≠ .hbm j) → d.sparesUsed r.ctrl (r.bank w) < r.spares →
      (d.hardFault r w).ram.remapped = d.ram.remapped ++ [(r.ctrl, r.bank w, r.row w)])

/-- R100–R107, R121: a channel begins the job that has waited longest; a data-mover job that executes ends with its record's fields set,
whatever it meets, and leaves all other jobs alone; a word is copied, or filled with the pattern, into accepted memory. What the rules
leave open here is the model's choice (log entries 3, 25). -/
def Obligations.MoverJobs : Prop :=
  ∀ (s : State) (ch : Fin 64) (j : Job) (ext : List Ext),
    let d := s.dev
    let queue := d.atUnit 0xA0 0xB0 ch .queued
    (d.running (.dmv ch) = true ∨ d.stopping (.dmv ch) = true → d.dmvHalted ch = false → d.domainOn 18 = true →
      d.atUnit 0xA0 0xB0 ch .running = [] → firstInQueue queue = some j →
      Gives (.dmvJobStart ch) s (d.setJob { j with phase := .running }) ∧ j ∈ queue ∧ ∀ x ∈ queue, j.seq ≤ x.seq) ∧
    (d.dmvHalted ch = true ∨ d.domainOn 18 = false ∨ d.atUnit 0xA0 0xB0 ch .running ≠ [] → Gives (.dmvJobStart ch) s d) ∧
    (d.job j.id = some j → j.phase = .running →
      (j.opcode = 0xA0 → Completes (.dmvCopy j.id ext) s (d.jobEnds j)) ∧
      (j.opcode = 0xA1 → Completes (.dmvConvert j.id ext) s (d.jobEnds j)) ∧
      (j.opcode = 0xA2 → Completes (.dmvFill j.id ext) s (d.jobEnds j)) ∧
      (j.opcode = 0xA2 → j.untouched → j.unit < 64 → j.dmvRows = 1 → j.dmvCount = 1 → ∀ b, d.target j.dmvDst = .mem b →
        d.accepts (d.dmvReq j) b → Completes (.dmvFill j.id ext) s (fun e => e.raw (b / 8) = encodeWord j.dmvPattern ∧
          (∀ w, w ≠ b / 8 → e.raw w = d.raw w) ∧ e.job j.id = some (d.endedJob j 0 1) ∧ e.out = d.out)) ∧
      (j.opcode = 0xA0 → j.untouched → j.unit < 64 → j.dmvRows = 1 → j.dmvCount = 1 → ∀ a b, d.target j.dmvSrc = .mem a →
        d.target j.dmvDst = .mem b → d.clearRead (d.dmvReq j) a → d.accepts (d.dmvReq j) b →
        Completes (.dmvCopy j.id ext) s (fun e => e.raw (b / 8) = d.raw (a / 8) ∧ (∀ w, w ≠ b / 8 → e.raw w = d.raw w) ∧
          e.job j.id = some (d.endedJob j 0 1) ∧ e.out = d.out)) ∧
      (j.opcode = 0xA3 →
        let t := j.txTemplate
        let len := d.get (Reg.ETH_TPL_LEN t) + j.txCount * if j.dmvWidth = 0 then 48 else dmvPackedBytes 2 j.dmvWidth
        let fits := len + d.frameExtra j.txPort ≤ d.get (Reg.ETH_PORT_CFG_MAX_FRAME j.txPort)
        let serves := d.tplServes t (d.jobFunc j) j.world = true
        (j.untouched → ¬serves → Completes (.dmvTxFrame j.id) s (fun e => e.job j.id = some (d.endedJob j stWORLD 0) ∧ e.eth = d.eth)) ∧
        (j.untouched → serves → ¬fits → Completes (.dmvTxFrame j.id) s (fun e =>
          e.job j.id = some (d.endedJob j stLENGTH 0) ∧ e.eth = d.eth)) ∧
        (serves → fits → d.frameRoom j.txPort j.txQueue len = false → Gives (.dmvTxFrame j.id) s d) ∧
        (serves → fits → d.frameRoom j.txPort j.txQueue len = true → Completes (.dmvTxFrame j.id) s (d.jobEnds j))))

/-- R237, R247–R249, R252, R259: a matrix engine begins its next job when its parameter block is whole and sound, and ends it with a status
when it is not; a transform unit begins its next job; every matrix and transform job that executes ends, and leaves all other jobs alone.
What the rules leave open here is the model's choice (log entries 25, 50, 51, 52). -/
def Obligations.EngineJobs : Prop :=
  ∀ (s : State) (m : Fin 4) (u : Fin 32) (j : Job),
    let d := s.dev
    (d.nextJob 0x10 0x30 m 13 (mxeFn m) = some j → d.job j.id = some j →
      (d.engineRun j.mxParam 8 = false → Completes (.mxeJobBegin m) s (fun e => ∃ r, e.job j.id = some (d.endedJob j stCONFIG r))) ∧
      (d.engineRun j.mxParam 8 = true → ∀ io ws, (Io.start d j []).readAll (d.mxeReq j) (gridWords j.mxParam 1 8 0) = (io, ws) →
        let j' := { j with params := ws }
        (io.stop = none → io.lost = none → io.done.mxParamOk j' = true →
          Gives (.mxeJobBegin m) s (io.done.setJob { j' with phase := .running })) ∧
        (io.stop = none → io.lost = none → io.done.mxParamOk j' = false →
          Completes (.mxeJobBegin m) s (fun e => ∃ r, e.job j.id = some (d.endedJob j' stCONFIG r))) ∧
        (∀ st, io.stop = some st ∨ (io.stop = none ∧ io.lost = some st) →
          Completes (.mxeJobBegin m) s (fun e => ∃ r, e.job j.id = some (d.endedJob j' st r))))) ∧
    (d.nextJob 0x30 0x40 u 14 (xfmFn u) = some j → Gives (.xfmJobBegin u) s (d.setJob { j with phase := .running })) ∧
    (∀ lo hi unit domain fn, d.nextJob lo hi unit domain fn = some j →
      d.domainOn domain = true ∧ j.unit = unit ∧ j.phase = .queued ∧ lo ≤ j.opcode ∧ j.opcode < hi ∧
      (d.running fn = true ∨ (d.stopping fn = true ∧ d.on fn.abort = false)) ∧ d.atUnit lo hi unit .running = [] ∧
      ∀ x ∈ d.atUnit lo hi unit .queued, j.seq ≤ x.seq) ∧
    (d.job j.id = some j → j.phase = .running →
      (j.opcode = 0x10 → Completes (.mxMatmul j.id) s (d.jobEnds j)) ∧ (j.opcode = 0x11 → Completes (.mxGram j.id) s (d.jobEnds j)) ∧
      (j.opcode = 0x12 → Completes (.mxCombine j.id) s (d.jobEnds j)) ∧ (j.opcode = 0x13 → Completes (.mxChol j.id) s (d.jobEnds j)) ∧
      (j.opcode = 0x14 → Completes (.mxTrsm j.id) s (d.jobEnds j)) ∧ (j.opcode = 0x15 → Completes (.mxPosv j.id) s (d.jobEnds j)) ∧
      (j.opcode = 0x30 → Completes (.xfFft j.id) s (d.jobEnds j)) ∧ (j.opcode = 0x31 → Completes (.xfDft j.id) s (d.jobEnds j)))

/-- R238, R243, R244, R246: the products of the matrix engines are exact, and one shift, given or automatic, rounds and limits every element;
the exponent follows from the shift, and one outside eight bits fails the instance. What the rules leave open here is the model's choice
(log entry 50). -/
def Obligations.EngineProducts : Prop :=
  ∀ (j : Job) (a b : Mat) (e : Int),
    let m := j.mxD 0 + 1
    let n := j.mxD 1 + 1
    let k := j.mxD 2 + 1
    let product (x : Mat) (rows cols : Nat) (f : Nat → Nat → Cx) : Prop :=
      x.length = rows ∧ (∀ r ∈ x, r.length = cols) ∧ ∀ r < rows, ∀ c < cols, elem x r c = f r c
    (j.opcode = 0x10 → shaped a (if j.mxConjA then k else m) (if j.mxConjA then m else k) →
      shaped b (if j.mxConjB then n else k) (if j.mxConjB then k else n) →
      ∃ x, product x m n (fun r c => dot k (fun i => opElem j.mxConjA a r i) (fun i => opElem j.mxConjB b i c)) ∧
        j.mxCompute a b e = mxScaled j.mxShift (e + j.mxBExp) x) ∧
    (j.opcode = 0x12 → shaped a (if j.mxConjA then k else m) (if j.mxConjA then m else k) → shaped b k j.mxGroup →
      ∃ x, product x m j.mxGroup (fun r c => dot k (fun i => opElem j.mxConjA a r i) (fun i => elem b i c)) ∧
        j.mxCompute a b e = mxScaled j.mxShift (e + j.mxBExp) x) ∧
    (j.opcode = 0x11 → shaped a k n → ∃ g, product g n n (fun r c => dot k (fun i => (elem a i r).conj) (fun i => elem a i c)) ∧
      (j.mxDiag = false → j.mxCompute a b e = mxScaled j.mxShift (2 * e) g) ∧
      (j.mxDiag = true → ∀ t : Int, t = j.mxLambdaExp - 2 * e + 17 →
        (29 < t → (j.mxCompute a b e).status = stNUMERIC ∧ (j.mxCompute a b e).c = none) ∧
        (t ≤ 29 → let load : Int := if 0 ≤ t then (j.mxLambda * 2 ^ t.toNat : Nat) else roundShift j.mxLambda (-t).toNat
          ∃ x, product x n n (fun r c => ⟨(elem g r c).re + if r = c then load else 0, (elem g r c).im⟩) ∧
            j.mxCompute a b e = mxScaled j.mxShift (2 * e) x))) ∧
    (∀ (shift : Nat) (x : Mat), let s := if shift = 0xFF then 30 - matHeadroom x else shift
      let r := mxScaled shift e x
      (-128 ≤ e + s - 17 → e + s - 17 ≤ 127 → r.status = stOK ∧ r.exp = e + s - 17 ∧ r.shift = s ∧
        r.c = some (x.map (fun r => r.map (fun z => ⟨limited 18 (roundShift z.re s), limited 18 (roundShift z.im s)⟩))) ∧
        (r.sat = true ↔ shift ≠ 0xFF ∧ ∃ l ∈ x, ∃ z ∈ l, ¬inRange 18 (roundShift z.re s) ∨ ¬inRange 18 (roundShift z.im s))) ∧
      (e + s - 17 < -128 ∨ 127 < e + s - 17 → r.status = stNUMERIC ∧ r.c = none ∧ r.exp = 0)) ∧
    (∀ x : Mat, (∀ l ∈ x, ∀ z ∈ l, inRange 48 z.re ∧ inRange 48 z.im) →
      (∀ l ∈ x, ∀ z ∈ l, ∃ p q, IsHeadroom 48 z.re p ∧ IsHeadroom 48 z.im q ∧ matHeadroom x ≤ p ∧ matHeadroom x ≤ q) ∧
      (matHeadroom x = 47 ∨ ∃ l ∈ x, ∃ z ∈ l, IsHeadroom 48 z.re (matHeadroom x) ∨ IsHeadroom 48 z.im (matHeadroom x)))

/-- R264–R267, R271–R282: a free coding unit takes the instance served first; the instances of a job compute at their units; an instance ends
at its unit and the last one ends the job; a CRC job ends with the remainder; bits with their CRC attached leave no remainder. What the
rules leave open here is the model's choice (log entries 53, 55). -/
def Obligations.CodingJobs : Prop :=
  ∀ (s : State) (u : Fin 36) (j : Job) (ext : List Ext) (r : CodeRun),
    let d := s.dev
    let mine (x : Job) : Bool := decide (0x40 ≤ x.opcode) && decide (x.opcode < 0x48) && decide ((codeUnits x.opcode).1 ≤ u.val) &&
      decide (u.val < (codeUnits x.opcode).1 + (codeUnits x.opcode).2) && (x.phase == .queued || x.phase == .running)
    let takes (d : Dev) (r : CodeRun) (e : Dev) : Prop :=
      e.code.units = d.code.units ++ [{ unit := u, job := j.id, inst := r.next, out := none }] ∧
      e.codeRun j.id = some { r with next := r.next + 1 } ∧ e.bit (codeBusy u).1 (codeBusy u).2 = true ∧ e.mem = d.mem ∧ e.jfe = d.jfe
    (d.serves .code = true → d.domainOn 15 = true → (∀ x ∈ d.code.units, x.unit ≠ u.val) →
      firstServed (d.jfe.jobs.filter (fun x => mine x && d.codeReady x)) = some j →
      (j.phase = .running → d.codeRun j.id = some r → Completes (.codeInstanceStart u) s (takes d r)) ∧
      (j.phase = .queued → d.job j.id = some j →
        (∀ d1, d.codeBegin j = (d1, none) → Gives (.codeInstanceStart u) s d1 ∧ (d1.job j.id).map (·.phase) = some .ended) ∧
        (∀ d1 j1, d.codeBegin j = (d1, some j1) → j1.id = j.id → d1.codeRun j.id = some r → d1.codeReady j1 = true →
          Completes (.codeInstanceStart u) s (takes d1 r)))) ∧
    (d.job j.id = some j → j.phase = .running → d.codeRun j.id = some r →
      ∀ c op, (c, op) ∈ [(Instr.cdLdpc j.id, 0x40), (.ceLdpc j.id ext, 0x41), (.cdPolar j.id, 0x42), (.cePolar j.id ext, 0x43),
          (.cdTurbo j.id, 0x44), (.ceTurbo j.id ext, 0x45), (.cdTbcc j.id, 0x46), (.ceTbcc j.id ext, 0x47)] → j.opcode = op →
        Completes c s (fun e => e.job j.id = some j ∧ (∀ x ∈ e.code.units, x.job = j.id → x.out.isSome = true) ∧
          e.code.units.map (fun x => (x.unit, x.job, x.inst)) = d.code.units.map (fun x => (x.unit, x.job, x.inst)) ∧
          (∀ x ∈ d.code.units, x.job ≠ j.id ∨ x.out.isSome = true → x ∈ e.code.units) ∧ d.keepsOthers e j.id)) ∧
    (∀ (x : CodeUnit) (o : CodeOut), d.code.units.find? (fun x => x.unit == u.val) = some x → x.job = j.id → d.job j.id = some j →
      d.codeRun j.id = some r → x.out = some o → Completes (.codeInstanceEnd u) s (fun e =>
        e.code.units = d.code.units.filter (fun y => y.unit != u.val) ∧ e.bit (codeBusy u).1 (codeBusy u).2 = false ∧
        d.keepsOthers e j.id ∧ (e.job j.id = some j ∨ ∃ st res, e.job j.id = some (d.endedJob j st res)) ∧
        ((∀ y ∈ d.code.units, y.unit ≠ u.val → y.job ≠ j.id) →
          (r.done + 1 = j.cdInstances → r.stop = none → ∃ st res, e.job j.id = some (d.endedJob j st res)) ∧
          (∀ st, r.stop = some st → ∃ res, e.job j.id = some (d.endedJob j st res))))) ∧
    (d.job j.id = some j → j.opcode = 0x48 → j.phase = .queued → d.serves .code = true → d.domainOn 15 = true →
      Completes (.ccCrc j.id ext) s (d.jobEnds j) ∧
      (∀ io bs b, ((Io.start d j ext).checkWorld (d.codeReq j)
          (if bitOf j.ccSrc 53 then [] else gridWords j.ccSrc 1 (((j.ccLen + 7) / 8 + 7) / 8) 0) []).readBytes (d.codeReq j) j.ccSrc
            ((j.ccLen + 7) / 8) = (io, bs, b) → io.stop = none → io.lost = none →
        let bits := (bitsOfBytes bs).take j.ccLen
        let v := (if j.ccCheck then crcCheck j.sbCrc bits else crcOf j.sbCrc bits) ^^^ if maskApplies j.sbCrc then j.bytes 40 2 else 0
        Completes (.ccCrc j.id ext) s (fun e => e.job j.id = some (d.endedJob j
          (if j.ccCheck = true ∧ v ≠ 0 then stDECODEFAIL else stOK) (v + if v = 0 then 2 ^ 24 else 0))))) ∧
    (∀ (code mask : Nat) (bits : List Bool), 1 ≤ code → code ≤ 7 → mask < 2 ^ 16 →
      crcCheck code (withCrc code mask bits) = if maskApplies code then mask else 0)

/-- R294, R296–R298, R300, R301: a release ends the context it names by its state, or counts as stale; a READY context held too long ends
LATE; an OPEN context is confirmed or ends at full length; a capture accepted makes its context READY, and a failed one ends it. The
reports stand in a ring in the host window that has room. What the rules leave open here is the model's choice (log entry 58). -/
def Obligations.BurstContexts : Prop :=
  ∀ (s : State) (b : Fin 16) (k : Fin 64) (id power symbol : Nat) (time : ShortTime) (ext : List Ext) (j : Job),
    let d := s.dev
    let state := d.get (Reg.BRX_CTX_STATE b k)
    (d.queuedJob id 0x60 = some j → j.bits 32 0 4 = b.val → j.bits 33 0 6 = k.val →
      (state = 0 ∨ d.get (Reg.BRX_CTX_GEN b k) ≠ j.bytes 34 2 → Completes (.brxRelease id ext) s (fun e =>
        e.get (Reg.BRX_STALE b) = (d.get (Reg.BRX_STALE b) + 1) % 2 ^ 16 ∧ e.job id = some (d.endedJob j stOK 0) ∧ e.brx = d.brx ∧
        (∀ l, e.get (Reg.BRX_CTX_STATE b l) = d.get (Reg.BRX_CTX_STATE b l)) ∧ e.out = d.out ∧ e.mem = d.mem ∧ d.keepsOthers e id)) ∧
      (state ≠ 0 → d.get (Reg.BRX_CTX_GEN b k) = j.bytes 34 2 → d.reportsFit b 1 → Completes (.brxRelease id ext) s (fun e =>
        d.ctxEnded e b k 0 (if state ≠ 3 then stCANCELLED else if j.bits 36 0 1 = 1 then stOK else stDECODEFAIL)
          (decide (state = 3 ∧ j.bits 36 0 1 = 0)) j.time ∧
        e.job id = some (d.endedJob j stOK 1) ∧ e.mem = d.mem ∧ d.keepsOthers e id))) ∧
    (let t := (d.brxCtx b k).ready + nsTime (1000 * d.get (Reg.BRX_HOLD_US b));
      (state = 3 → d.due t = true → d.reportsFit b 1 → Completes (.holdTimeout b k ext) s (fun e =>
        d.ctxEnded e b k 2 stLATE false t ∧ e.bit (Reg.BRX_ATTN b) 3 = true ∧ d.brxFrame e)) ∧
      (state ≠ 3 ∨ d.due t = false → Gives (.holdTimeout b k ext) s d)) ∧
    (let slot := d.get (Reg.BRX_CTX_SLOT b k)
      let m := (d.metricOf b slot power).1
      let thresh : Int := d.get (Reg.BRX_FMT_CONFIRM_THRESH b (8 * slot + d.get (Reg.BRX_CTX_FMT b k)));
      (state ≠ 1 → Gives (.fullLengthConfirm b k power time ext) s d) ∧
      (state = 1 → d.reportsFit b 1 → thresh ≤ m → Completes (.fullLengthConfirm b k power time ext) s (fun e =>
        e.get (Reg.BRX_CTX_STATE b k) = 2 ∧ signed (e.get (Reg.BRX_CTX_METRIC b k)) 16 = m ∧
        d.reported e b { d.ctxReport b k 2 0 0 0 time with metric := m } ∧ d.keepsContexts e b k ∧ d.brxFrame e)) ∧
      (state = 1 → d.reportsFit b 1 → m < thresh → Completes (.fullLengthConfirm b k power time ext) s (fun e =>
        (d.set (Reg.BRX_CTX_METRIC b k) (wrapTo 16 m)).ctxEnded e b k 1 stDECODEFAIL true time ∧ d.brxFrame e))) ∧
    (state ≠ 2 ∨ d.stopped (brxFn b) = true → Gives (.captureAccepted b k symbol time ext) s d) ∧
    (state = 2 → d.stopped (brxFn b) = false → ∀ io, (Io.ofBlock d ext).capture b k symbol = io → io.dev.reportsFit b 1 →
      (io.stop = none → Completes (.captureAccepted b k symbol time ext) s (fun e =>
        e.get (Reg.BRX_CTX_STATE b k) = 3 ∧ (e.brxCtx b k).ready = time ∧
        io.dev.reported e b (io.dev.ctxReport b k 3 0 0 0 time) ∧ io.dev.keepsContexts e b k ∧ io.dev.brxFrame e)) ∧
      (∀ st, io.stop = some st → st < 256 → Completes (.captureAccepted b k symbol time ext) s (fun e =>
        (∃ t, io.dev.ctxEnded e b k 5 st false t) ∧ io.dev.brxFrame e)))

/-- R290, R291, R293, R298–R304: an occasion's detections are the peaks that reach the threshold; each opens the lowest FREE context, takes
that of the weakest, or is reported without one; quiet windows measure the noise floor; metrics and floors are levels in 0.1 dB rounded
half up. What the rules leave open here is the model's choice (log entries 58, 59). -/
def Obligations.BurstSearch : Prop :=
  ∀ (s : State) (b : Fin 16) (slot : Fin 24) (fmt : Fin 8) (n : Nat) (o : Fin 32) (f : Fin 8) (time until_ : ShortTime)
    (peaks : List Peak) (ext : List Ext) (x : Detection),
    let d := s.dev
    let entry := 8 * slot.val + fmt.val
    let cmd : Instr := .occasionEnd b slot fmt n o f time until_ peaks ext
    let found := d.detections b slot entry peaks
    let start := d.occasionStart b entry n o
    let loud (p : Peak) : Bool := decide ((d.get (Reg.BRX_FMT_THRESH b entry) : Int) ≤ (d.metricOf b slot p.power).1)
    let vacant (k : Nat) : Prop := d.get (Reg.BRX_CTX_STATE b k) = 0 ∧ ∀ t, (d.brxCtx b k).ended = some t → 0 < timeDiff time t
    let taken (k : Nat) : Prop := d.get (Reg.BRX_CTX_STATE b k) = 1 ∨ d.get (Reg.BRX_CTX_STATE b k) = 2
    let metric (k : Nat) : Int := signed (d.get (Reg.BRX_CTX_METRIC b k)) 16
    let flags (without preempts : Bool) : Nat :=
      b2n x.collision + 2 * b2n without + 4 * b2n x.cold + 16 * b2n preempts
    (∀ q : BitVec 8, (found.filter (fun x => x.peak.seq == q)).length = min 4 (peaks.filter (fun p => loud p && p.seq == q)).length ∧
      (∀ x ∈ found, x.peak ∈ peaks ∧ loud x.peak = true ∧ (x.metric, x.cold) = d.metricOf b slot x.peak.power ∧
        (x.collision = true ↔ 1 < (peaks.filter (fun p => loud p && p.seq == x.peak.seq)).length))) ∧
    found.Pairwise (fun x y => y.metric ≤ x.metric) ∧
    (d.searches b slot entry n o f = false → Gives cmd s d) ∧
    (d.searches b slot entry n o f = true →
      (found = [] → Gives cmd s d) ∧
      (found = [x] →
        let counted (e : Dev) : Prop := e.get (Reg.BRX_DETECTIONS b) = (d.get (Reg.BRX_DETECTIONS b) + 1) % 2 ^ 32 ∧ d.brxFrame e ∧
          e.brx.detected = d.brx.detected ++ [(24 * b.val + slot.val, start, until_)];
        (d.on (Reg.BRX_FMT_PAYLOAD b entry) = false → d.reportsFit b 1 → Completes cmd s (fun e => counted e ∧
          d.reported e b (x.bare slot fmt false time) ∧ d.keepsContexts e b 64)) ∧
        (d.on (Reg.BRX_FMT_PAYLOAD b entry) = true →
          (∀ k < 64, vacant k → (∀ l < k, ¬vacant l) → d.reportsFit b 1 → Completes cmd s (fun e => counted e ∧
            d.opened e b k slot fmt x start time ∧ d.reported e b { e.ctxReport b k 1 0 0 0 time with flags := flags false false } ∧
            d.agcIs b slot true e ∧ d.keepsContexts e b k)) ∧
          ((∀ k < 64, ¬vacant k) →
            (∀ k < 64, taken k → (∀ l < 64, taken l → metric k ≤ metric l ∧ (metric l = metric k → k ≤ l)) →
              (metric k + (d.get (Reg.BRX_PREEMPT_MARGIN b) : Int) ≤ x.metric → d.reportsFit b 2 → Completes cmd s (fun e => counted e ∧
                (∃ m, d.reported m b (d.ctxReport b k 4 0 3 stPREEMPTED time) ∧
                  m.reported e b { e.ctxReport b k 1 0 0 0 time with flags := flags false true }) ∧
                d.opened e b k slot fmt x start time ∧ d.agcIs b slot true e ∧ d.keepsContexts e b k ∧
                e.get (Reg.BRX_PREEMPTED b) = (d.get (Reg.BRX_PREEMPTED b) + 1) % 2 ^ 32)) ∧
              (x.metric < metric k + (d.get (Reg.BRX_PREEMPT_MARGIN b) : Int) → d.reportsFit b 1 → Completes cmd s (fun e => counted e ∧
                d.reported e b (x.bare slot fmt true time) ∧ d.keepsContexts e b 64 ∧
                e.get (Reg.BRX_NO_CONTEXT b) = (d.get (Reg.BRX_NO_CONTEXT b) + 1) % 2 ^ 32))) ∧
            ((∀ l < 64, ¬taken l) → d.reportsFit b 1 → Completes cmd s (fun e => counted e ∧
              d.reported e b (x.bare slot fmt true time) ∧ d.keepsContexts e b 64 ∧
              e.get (Reg.BRX_NO_CONTEXT b) = (d.get (Reg.BRX_NO_CONTEXT b) + 1) % 2 ^ 32)))))) ∧
    (∀ id j symbols powers,
      (d.queuedJob id 0x61 = some j → Gives (.brxQuiet id) s (d.setJob { j with phase := .running })) ∧
      (d.executing id 0x61 = some j → j.bits 32 0 4 = b.val → j.bits 33 0 5 = slot.val →
        let w := j.quietWindow;
        (d.due w.2 = false → Gives (.quietWindowEnd id symbols powers) s d) ∧
        (d.due w.2 = true → d.quietLong b slot w symbols = false → Gives (.quietWindowEnd id symbols powers) s (d.endJob j stOK 0x200)) ∧
        (d.due w.2 = true → d.quietLong b slot w symbols = true → d.quietSpoilt b slot w = true →
          Gives (.quietWindowEnd id symbols powers) s (d.endJob j stOK 0x100)) ∧
        (d.due w.2 = true → d.quietLong b slot w symbols = true → d.quietSpoilt b slot w = false →
          let first := d.get (Reg.BRX_SLOT_FIRST_STREAM b slot);
          powers.length = d.get (Reg.BRX_SLOT_NANT b slot) → first + powers.length ≤ 64 →
          Completes (.quietWindowEnd id symbols powers) s (fun e => e.job id = some (d.endedJob j stOK powers.length) ∧
            (∀ (i p : Nat), powers[i]? = some p → let ps := (p :: d.streamPowers b (first + i)).take 64
              e.streamPowers b (first + i) = ps ∧ e.get (Reg.BRX_NF_COUNT b (first + i)) = ps.length ∧
              e.on (Reg.BRX_NF_VALID b (first + i)) = decide (ps.length = 64) ∧
              (ps.sum ≠ 0 → signed (e.get (Reg.BRX_NF_LEVEL b (first + i))) 16 = level10 ps.sum (ps.length * 2 ^ 64))) ∧
            (∀ i < 64, i < first ∨ first + powers.length ≤ i → e.streamPowers b i = d.streamPowers b i ∧
              e.get (Reg.BRX_NF_LEVEL b i) = d.get (Reg.BRX_NF_LEVEL b i)) ∧
            e.mem = d.mem ∧ e.out = d.out ∧ d.keepsOthers e id)))) ∧
    (∀ p q : Nat, 0 < p → 0 < q → |100 * Real.logb 10 ((p : ℝ) / q)| ≤ 16000 →
      (level10 p q : ℝ) - 1 / 2 ≤ 100 * Real.logb 10 ((p : ℝ) / q) ∧ 100 * Real.logb 10 ((p : ℝ) / q) < (level10 p q : ℝ) + 1 / 2)

/-- R307, R308, R310–R315: a commit sets COMMITTED or ends with a status; a bank is loaded whole or stays; a transmit chain takes each block
at its time; a receive chain completes each block with its header; a window of the AGC moves the gain; a mask monitor judges the chain it
dwells on; clearing ATTN.MASK unmutes. What the rules leave open here is the model's choice (log entry 60). -/
def Obligations.DfeChains : Prop :=
  ∀ (s : State) (id : Nat) (j : Job) (t r : Fin 128) (k : Fin 4) (m : Fin 8) (power : Nat) (spectrum : List Nat) (who : Accessor)
    (ext : List Ext),
    let d := s.dev
    let ahead (a b : Nat) : Int := (BitVec.ofNat 32 a - BitVec.ofNat 32 b).toInt
    let airTime (start rate n : Nat) : Int := start + ⌊((n * 1024 * 2 ^ rate : Nat) : ℚ) * 65536000 / (12288 / 100) + 1 / 2⌋
    (d.queuedJob id 0x70 = some j → j.bits 32 0 7 = t.val → j.bits 33 0 2 = k.val →
      let count := j.bytes 36 4
      let back := ahead count (d.get (Reg.DFE_TX_CAR_COMMITTED t k))
      let beyond := ahead count (d.get (Reg.DFE_TX_CAR_CONSUMED t k))
      let room : Int := d.get (Reg.DFE_TX_CAR_BLOCKS t k);
      (back < 0 → Gives (.dfeTxCommit id) s (d.endJob j stCONFIG 0)) ∧
      (0 ≤ back → room < beyond → Gives (.dfeTxCommit id) s (d.endJob j stLENGTH 0)) ∧
      (0 ≤ back → beyond ≤ room → Completes (.dfeTxCommit id) s (fun e => e.get (Reg.DFE_TX_CAR_COMMITTED t k) = count ∧
        e.job id = some (d.endedJob j stOK (d.get (Reg.DFE_TX_CAR_CONSUMED t k) + 2 ^ 32 * d.get (Reg.DFE_TX_UNDERRUN t))) ∧
        (∀ off, off ≠ (Reg.DFE_TX_CAR_COMMITTED t k).off → e.word off = d.word off) ∧ e.mem = d.mem ∧ e.out = d.out ∧ e.eth = d.eth ∧
        d.keepsOthers e id))) ∧
    (d.queuedJob id 0x71 = some j →
      (d.bankInUse (j.bits 32 0 6) = true → Gives (.dfeLoadCoef id) s (d.endJob j stCONFIG 0)) ∧
      (d.bankInUse (j.bits 32 0 6) = false → ∀ io ws,
        (Io.start d j []).readAll (d.dfeReq j) ((List.range 32).map (fun i => j.bits 40 0 56 + 8 * i)) = (io, ws) →
        let bank (e : Dev) (b : Nat) : List Word := lookup (fun _ => List.replicate 32 0) e.dfe.coefs b;
        (io.stop = none → io.lost = none → Completes (.dfeLoadCoef id) s (fun e => bank e (j.bits 32 0 6) = ws ∧
          (∀ b, b ≠ j.bits 32 0 6 → bank e b = bank d b) ∧ e.job id = some (d.endedJob j stOK 0) ∧ d.keepsOthers e id)) ∧
        (∀ st, io.stop = some st ∨ (io.stop = none ∧ io.lost = some st) → Completes (.dfeLoadCoef id) s (fun e =>
          e.dfe = d.dfe ∧ e.job id = some (d.endedJob j st 0) ∧ d.keepsOthers e id)))) ∧
    (let n := d.dfeBlocks (4 * t.val + k.val)
      let works := d.running (dfeTxFn t) = true ∨
        (d.stopping (dfeTxFn t) = true ∧ d.on (dfeTxFn t).abort = false ∧ d.committed t k n = true)
      let late := d.committed t k n = false ∨ d.due (d.fetchTime t k (n + 1)) = true
      let now := works ∧ d.domainOn 16 = true ∧ d.on (Reg.DFE_TX_CAR_ENABLE t k) = true ∧ d.due (d.fetchTime t k n) = true
      let passed (e : Dev) : Prop := e.get (Reg.DFE_TX_CAR_CONSUMED t k) = (n + 1) % 2 ^ 32 ∧ e.dfeBlocks (4 * t.val + k.val) = n + 1;
      (∀ i, d.fetchTime t k i = BitVec.ofInt 64 (airTime (d.get64 (Reg.DFE_TX_START t)) (d.get (Reg.DFE_TX_CAR_RATE t k)) i -
        (d.get (Reg.DFE_TX_ADVANCE_NS t) + 25000 : Nat) * 65536)) ∧
      (∀ i < 2 ^ 32, d.committed t k i = true ↔ 0 < ahead (d.get (Reg.DFE_TX_CAR_COMMITTED t k)) i) ∧
      (¬now → Gives (.txBlockFetch t k ext) s d) ∧
      (now → late → Completes (.txBlockFetch t k ext) s (fun e => passed e ∧ e.mem = d.mem ∧ e.out = d.out ∧ e.jfe = d.jfe ∧
        e.get (Reg.DFE_TX_UNDERRUN t) = (d.get (Reg.DFE_TX_UNDERRUN t) + 1) % 2 ^ 32 ∧ e.bit (Reg.DFE_TX_ATTN t) 1 = true)) ∧
      (now → ¬late → ∀ d1 lost, d.readBlock t k n ext = (d1, lost) → Completes (.txBlockFetch t k ext) s (fun e => passed e ∧
        e.mem = d1.mem ∧ e.out = d1.out ∧ e.get (Reg.DFE_TX_UNDERRUN t) = d1.get (Reg.DFE_TX_UNDERRUN t) ∧
        e.get (Reg.DFE_TX_POISON t) = (d1.get (Reg.DFE_TX_POISON t) + b2n lost) % 2 ^ 32 ∧
        (lost = true → e.bit (Reg.DFE_TX_ATTN t) 3 = true)))) ∧
    (let n := d.dfeBlocks (512 + 4 * r.val + k.val)
      let f := d.get (Reg.DFE_RX_CFG_FUNC r)
      let start := d.get64 (Reg.DFE_RX_START r)
      let rate := d.get (Reg.DFE_RX_CAR_RATE r k)
      let place := n % d.get (Reg.DFE_RX_CAR_BLOCKS r k)
      let until_ := BitVec.ofInt 64 (airTime start rate (n + 1))
      let gain := d.get (Reg.DFE_RX_CAR_GAIN_NOW r k);
      (d.stopped (dfeRxFn r) = true ∨ d.domainOn 16 = false ∨ d.on (Reg.DFE_RX_CAR_ENABLE r k) = false ∨ d.due until_ = false →
        Gives (.rxBlockComplete r k ext) s d) ∧
      (∀ ring hdr, d.running (dfeRxFn r) = true → d.domainOn 16 = true → d.on (Reg.DFE_RX_CAR_ENABLE r k) = true → d.due until_ = true →
        d.jfe.busMaster.getLsbD f = true →
        (∀ i < 512, d.target (d.addr56 (Reg.DFE_RX_CAR_RING r k).off 3 + place * 4096 + 8 * i) = .host (ring + 8 * i)) →
        d.target (d.addr56 (Reg.DFE_RX_CAR_HDR r k).off 3 + 16 * place) = .host hdr →
        Completes (.rxBlockComplete r k ext) s (fun e => ∃ (samples : List (List Byte)) (bytes : List Byte) (sat : Nat) (ro : Bool),
          samples.length = 512 ∧ (∀ x ∈ samples, x.length = 8) ∧ sat ≤ 65536 ∧ bytes.length = 16 ∧
          e.out = d.out ++ (List.range 512).map (fun i => Out.write f (ring + 8 * i) (samples.getD i []) ro) ++ [.write f hdr bytes ro] ∧
          (let v := ofLE bytes;
            (bitsOf v 0 64 : Int) = airTime start rate n % 2 ^ 64 ∧ bitsOf v 64 8 = gain ∧
            bitOf v 72 = d.on (Reg.DFE_RX_CAR_FROZEN r k) ∧ bitOf v 73 = d.blockMissing r k n ∧ bitOf v 74 = decide (0 < sat) ∧
            bitsOf v 75 5 = 0 ∧ bitsOf v 80 16 = min sat 65535 ∧ bitsOf v 96 32 = n % 2 ^ 32) ∧
          e.get (Reg.DFE_RX_CAR_CONSUMED r k) = (n + 1) % 2 ^ 32 ∧ e.dfeBlocks (512 + 4 * r.val + k.val) = n + 1 ∧
          e.get (Reg.DFE_RX_UNDERRUN r) = (d.get (Reg.DFE_RX_UNDERRUN r) + b2n (d.blockMissing r k n)) % 2 ^ 32 ∧
          e.get (Reg.DFE_RX_SAT r) = (d.get (Reg.DFE_RX_SAT r) + sat) % 2 ^ 32 ∧
          (d.on (Reg.DFE_RX_CFG_AGC_EN r) = false ∨ d.on (Reg.DFE_RX_CAR_FROZEN r k) = true →
            e.get (Reg.DFE_RX_CAR_GAIN_NOW r k) = gain) ∧
          e.mem = d.mem ∧ e.jfe = d.jfe ∧ e.eth = d.eth))) ∧
    (let window (e : Dev) : Nat := lookup (fun _ => 0) e.dfe.window (4 * r.val + k.val)
      let code := d.get (Reg.DFE_RX_CAR_GAIN_NOW r k)
      let level : ℝ := 100 * Real.logb 10 ((power : ℝ) / 2 ^ 64) + 5 / 2 * ((code : ℝ) - 96)
      let target : ℝ := (signed (d.get (Reg.DFE_RX_AGC_TARGET r)) 16 : ℝ)
      let hyst : ℝ := (d.get (Reg.DFE_RX_AGC_HYST r) : ℝ)
      let moves := d.stopped (dfeRxFn r) = false ∧ d.on (Reg.DFE_RX_CFG_AGC_EN r) = true ∧ d.on (Reg.DFE_RX_CAR_FROZEN r k) = false ∧
        d.get (Reg.DFE_RX_AGC_WIN r) ≤ window d
      let becomes (g : Nat) : Prop := Completes (.agcWindowEnd r k power) s (fun e => e.get (Reg.DFE_RX_CAR_GAIN_NOW r k) = g ∧
        window e = 0 ∧ (∀ off, off ≠ (Reg.DFE_RX_CAR_GAIN_NOW r k).off → e.word off = d.word off) ∧ e.mem = d.mem ∧ e.out = d.out ∧
        e.jfe = d.jfe ∧ e.evt = d.evt);
      (¬moves → Gives (.agcWindowEnd r k power) s d) ∧
      (moves → 0 < power → target + hyst < level → becomes (code - d.get (Reg.DFE_RX_AGC_STEP_DN r))) ∧
      (moves → power = 0 ∨ level < target - hyst → becomes (min 255 (code + d.get (Reg.DFE_RX_AGC_STEP_UP r)))) ∧
      (moves → 0 < power → target - hyst ≤ level → level ≤ target + hyst → becomes code)) ∧
    (spectrum.length = 4096 →
      let first := d.get (Reg.DFE_MON_CUR_CHAIN m) % 16
      let chain (i : Nat) : Nat := 16 * m.val + (first + i) % 16;
      ((∀ i < 16, d.maskWatches (chain i) = false) → Gives (.maskDwellEnd m spectrum) s d) ∧
      (∀ i < 16, d.maskWatches (chain i) = true → (∀ l < i, d.maskWatches (chain l) = false) →
        let c := chain i
        let prof := d.get (Reg.DFE_TX_CFG_MASK_PROF c)
        let ref := d.bandPowers prof 0 spectrum
        let top (l : Nat) : Nat := (d.bandPowers prof l spectrum).foldl max 0
        let excess (l : Nat) : ℝ := 100 * Real.logb 10 ((top l * ref.length : Nat) / (ref.sum : ℝ)) -
          (signed (d.get (Reg.DFE_PROF_BAND_LIMIT prof l)) 16 : ℝ)
        let runs (e : Dev) : Nat := lookup (fun _ => 0) e.dfe.violations c
        let next (e : Dev) : Prop := ∀ l < 16, e.maskWatches (16 * m.val + (first + i + 1 + l) % 16) = true →
          (∀ n < l, e.maskWatches (16 * m.val + (first + i + 1 + n) % 16) = false) →
          e.get (Reg.DFE_MON_CUR_CHAIN m) = 16 * m.val + (first + i + 1 + l) % 16
        let judged := 0 < ref.length ∧ (ref.length : ℝ) * 2 ^ 64 ≤ (ref.sum : ℝ) * 10 ^ 8
        let violated (l : Nat) : Prop := 1 ≤ l ∧ l < 8 ∧ d.on (Reg.DFE_PROF_BAND_BAND_EN prof l) = true ∧ 0 < top l ∧ 0 < excess l
        let due := d.get (Reg.DFE_MON_VIOL_N m) ≤ runs d + 1
        let met (e : Dev) : Prop := next e ∧ e.mem = d.mem ∧ e.out = d.out ∧ e.jfe = d.jfe;
        (¬judged → Completes (.maskDwellEnd m spectrum) s (fun e => met e ∧ e.dfe = d.dfe ∧ e.eth = d.eth)) ∧
        (judged → (∀ l, ¬violated l) → Completes (.maskDwellEnd m spectrum) s (fun e => met e ∧ runs e = 0 ∧ e.eth = d.eth ∧
          e.get (Reg.DFE_MON_VIOLATIONS m) = d.get (Reg.DFE_MON_VIOLATIONS m))) ∧
        (judged → (∃ l, violated l) → Completes (.maskDwellEnd m spectrum) s (fun e => met e ∧
          e.get (Reg.DFE_MON_VIOLATIONS m) = (d.get (Reg.DFE_MON_VIOLATIONS m) + 1) % 2 ^ 32 ∧
          (¬due → runs e = runs d + 1 ∧ e.eth = d.eth) ∧
          (due → runs e = 0 ∧ e.get Reg.DFE_MASK_REC_CHAIN = c ∧ violated (e.get Reg.DFE_MASK_REC_BAND) ∧
            e.get64 Reg.DFE_MASK_REC_TIME = d.now.toNat ∧ e.bit (Reg.DFE_TX_ATTN c) 4 = true ∧ ⟨0x60A, false⟩ ∈ e.evt.queue ∧
            e.on (Reg.DFE_TX_STATUS_MUTED c) = (d.on (Reg.DFE_TX_STATUS_MUTED c) || d.on (Reg.DFE_TX_CFG_MUTE_EN c))))))) ∧
    (d.reaches who (Reg.DFE_TX_ATTN t).off = true → Completes (.attnMaskClear who t) s (fun e =>
      e.bit (Reg.DFE_TX_ATTN t) 4 = false ∧ e.on (Reg.DFE_TX_STATUS_MUTED t) = false ∧ e.eth = d.eth ∧ e.mem = d.mem ∧ e.jfe = d.jfe ∧
      (∀ b < 4, e.bit (Reg.DFE_TX_ATTN t) b = d.bit (Reg.DFE_TX_ATTN t) b))) ∧
    (d.reaches who (Reg.DFE_TX_ATTN t).off = false → Gives (.attnMaskClear who t) s d)

/-- R352, R357, R361, R362: a link trains through its states on the events of the table, and leaves them with the faults of the table; an
ACTIVE link goes into RETRAIN with its traffic held; a lane slips, loses its signal and counts the errors of a test. What the rules leave
open here is the model's choice (log entry 62). -/
def Obligations.LinkTraining : Prop :=
  ∀ (s : State) (p : Fin 3) (l : Fin 56) (who : Accessor) (eyes : List (BitVec 16)) (skew errors : Nat) (order : List (Fin 8)) (f : Frame)
    (body : TrainBody) (w : BitVec 64),
    let d := s.dev
    let train := d.get (Reg.ULD_STATE_TRAIN p)
    let run := d.running (uldFn p) = true
    let port := (l.val - 32) / 8
    let lane := (l.val - 32) % 8
    let portIn (n : Nat) : Prop := 32 ≤ l.val ∧ d.running (uldFn port) = true ∧ d.get (Reg.ULD_STATE_TRAIN port) = n
    let own := (d.activeLanes p).map (fun x => x - 32 - 8 * p.val)
    let got := order.map Fin.val
    let locked (e : Dev) (n : Nat) : Prop := e.get (Reg.ULD_STATE_TRAIN p) = n ∧
      (∀ x ∈ d.activeLanes p, e.on (Reg.LANE_STATUS_SIGNAL x) = true ∧ e.on (Reg.LANE_STATUS_CDR_LOCK x) = true) ∧ d.linkFrame e p
    let ms := 10 ^ 6 * 2 ^ 16
    -- slips
    (let off := (Reg.LANE_SLIP_GO l).off;
      (l.val < 16 ∨ d.reaches who off = false → Gives (.slipGo who l) s d) ∧
      (16 ≤ l.val → d.reaches who off = true → ¬portIn 3 → Gives (.slipGo who l) s (d.cfgReject who off)) ∧
      (d.reaches who off = true → portIn 3 → Completes (.slipGo who l) s (fun e =>
        e.get (Reg.LANE_STATUS_SLIP l) = (d.get (Reg.LANE_STATUS_SLIP l) + 1) % 32 ∧ e.on (Reg.LANE_STATUS_MATCH l) = false ∧
        e.on (Reg.LANE_STATUS_INVERTED l) = false ∧ (∀ o, o ≠ (Reg.LANE_STATUS_SLIP l).off → e.word o = d.word o) ∧ e.links = d.links ∧
        d.linkFrame e p))) ∧
    -- the training states
    (run → train = 1 → Completes (.uldSignalLock p) s (locked · 2)) ∧ (run → train = 7 → Completes (.retrainLock p) s (locked · 3)) ∧
    (run → train = 2 → eyes.length = (d.activeLanes p).length → Completes (.uldEqualiseConverged p eyes) s (fun e =>
      e.get (Reg.ULD_STATE_TRAIN p) = 3 ∧ d.linkFrame e p ∧ ∀ (i x : Nat) (y : BitVec 16), (d.activeLanes p)[i]? = some x → eyes[i]? = some y →
        e.get (Reg.LANE_EYE_HEIGHT x) = y.toNat % 256 ∧ e.get (Reg.LANE_EYE_WIDTH x) = y.toNat / 256)) ∧
    (run → train = 3 → (∀ x ∈ d.activeLanes p, d.on (Reg.LANE_STATUS_MATCH x) = true) →
      Gives (.uldAlignMatch p) s (d.set (Reg.ULD_STATE_TRAIN p) 4)) ∧
    (run → train = 3 → (∃ x ∈ d.activeLanes p, d.on (Reg.LANE_STATUS_MATCH x) = false) → Gives (.uldAlignMatch p) s d) ∧
    (run → train = 4 → skew ≤ 16 → got = own ∨ got = own.reverse → Completes (.uldDeskewDone p skew order) s (fun e =>
      e.get (Reg.ULD_STATE_TRAIN p) = 5 ∧ e.on (Reg.ULD_STATE_REVERSED p) = decide (got ≠ own) ∧
      (e.link p).sentLine = (d.link p).sentLine ++ [.train] ∧ (e.link p).goodTrain = 0 ∧ d.linkFrame e p)) ∧
    (run → train = 4 → 16 < skew ∨ (got ≠ own ∧ got ≠ own.reverse) →
      Completes (.uldDeskewDone p skew order) s (fun e => d.linkFails e p 6)) ∧
    (run → train ≠ 1 → Gives (.uldSignalLock p) s d) ∧ (run → train ≠ 2 → Gives (.uldEqualiseConverged p eyes) s d) ∧
    (run → train ≠ 4 → Gives (.uldDeskewDone p skew order) s d) ∧ (run → train ≠ 7 → Gives (.retrainLock p) s d) ∧
    -- TRAIN and BYE frames
    (body.wf = true →
      (¬run → Gives (.trainFrame p f body) s d) ∧
      (run → f.good = false → Gives (.trainFrame p f body) s (d.bump (Reg.ULD_CRC_ERRORS p))) ∧
      (run → f.good = true → train = 6 → Completes (.trainFrame p f body) s (fun e => d.retrains e p)) ∧
      (run → f.good = true → train = 5 →
        let alike := body.dev.val ≠ d.ownId ∧ body.width.val = d.get (Reg.ULD_CFG_WIDTH p) ∧ body.rate = d.on (Reg.ULD_CFG_RATE p) ∧
          ∀ x ∈ d.activeLanes p, body.precode.getLsbD (x - 32 - 8 * p.val) = d.on (Reg.LANE_CFG_RX_PRECODE x)
        let met (e : Dev) : Prop := e.get (Reg.ULD_STATE_PEER_ID p) = body.dev ∧ e.get (Reg.ULD_STATE_PEER_PORT p) = body.port ∧
          e.on (Reg.ULD_STATE_PEER_VALID p) = true ∧
          (d.portOf (d.epochAt (uldEndpoint p)) body.dev ≠ p.val → e.on (Reg.ULD_ATTN_TOPOLOGY p) = true);
        (¬alike → Completes (.trainFrame p f body) s (fun e => met e ∧ d.linkFails e p 4)) ∧
        (alike → body.ready = false → Completes (.trainFrame p f body) s (fun e => met e ∧ e.links = d.links ∧ d.linkFrame e p)) ∧
        (alike → body.ready = true → (d.link p).goodTrain < 7 → Completes (.trainFrame p f body) s (fun e => met e ∧ d.linkFrame e p ∧
          (e.link p).goodTrain = (d.link p).goodTrain + 1 ∧ (e.link p).sentLine = (d.link p).sentLine ++ [.train] ∧
          e.get (Reg.ULD_STATE_TRAIN p) = 5)) ∧
        (alike → body.ready = true → 7 ≤ (d.link p).goodTrain → Completes (.trainFrame p f body) s (fun e => met e ∧ d.linkFrame e p ∧
          e.get (Reg.ULD_STATE_TRAIN p) = 6 ∧ (e.link p).limits = body.limits.map Fin.val ∧ (e.link p).wasActive = true ∧
          (e.link p).retraining = false ∧ ⟨0x6C8 + p.val, false⟩ ∈ e.evt.queue)))) ∧
    (run → train = 6 → f.good = true → Completes (.byeFrame p f) s (fun e => d.linkFails e p 7)) ∧
    -- timeouts
    (run → (d.link p).wasActive = false →
      max 1 (d.get (Reg.ULD_TRAIN_MS p)) * ms ≤ (d.now - (d.link p).since).toNat →
      Completes (.trainTimeout p) s (fun e => d.linkFails e p 2)) ∧
    (run → (d.link p).wasActive = true → Gives (.trainTimeout p) s d) ∧
    (run → (d.link p).retraining = true → max 1 (d.get (Reg.ULD_RETRAIN_MS p)) * ms ≤ (d.now - (d.link p).since).toNat →
      Completes (.retrainTimeout p) s (fun e => d.linkFails e p 3)) ∧
    (run → (d.link p).retraining = false → Gives (.retrainTimeout p) s d) ∧
    -- markers
    (portIn 3 → Completes (.markerWord l w) s (fun e =>
      (∀ n, w = markerFor n → e.on (Reg.LANE_STATUS_MATCH l) = true ∧ e.get (Reg.LANE_STATUS_LANE_ID l) = n) ∧
      ((∀ n, w ≠ markerFor n) → e.on (Reg.LANE_STATUS_MATCH l) = false ∧
        e.get (Reg.LANE_STATUS_LANE_ID l) = d.get (Reg.LANE_STATUS_LANE_ID l)) ∧
      (e.on (Reg.LANE_STATUS_INVERTED l) = true ↔ ∃ n, w = markerFor n ^^^ 0xAAAAAAAAAAAAAAAA#64) ∧ e.links = d.links ∧
      d.linkFrame e p)) ∧
    (portIn 6 → l.val ∈ d.activeLanes port →
      let right := ∃ n : Fin 8, w = markerFor n ∧ d.get (Reg.LANE_STATUS_LANE_ID l) = n
      let bad := (d.link port).badMarkers.getD lane 0;
      (right → d.on (Reg.ULD_STATE_RX_SLEEP port) = true → Completes (.markerWord l w) s (fun e =>
        e.on (Reg.ULD_STATE_RX_SLEEP port) = false ∧ (∀ x ∈ d.activeLanes port, e.get (Reg.LANE_STATUS_RX_PWR x) = 2) ∧
        (e.link port).badMarkers.getD lane 0 = 0 ∧ d.linkFrame e port)) ∧
      (right → d.on (Reg.ULD_STATE_RX_SLEEP port) = false → Completes (.markerWord l w) s (fun e =>
        (e.link port).badMarkers.getD lane 0 = 0 ∧ e.regs = d.regs ∧ d.linkFrame e port)) ∧
      (¬right → d.on (Reg.ULD_STATE_RX_SLEEP port) = true ∨ 3 ≤ bad →
        Completes (.markerWord l w) s (fun e => d.retrains e port)) ∧
      (¬right → d.on (Reg.ULD_STATE_RX_SLEEP port) = false → bad < 3 → Completes (.markerWord l w) s (fun e =>
        e.regs = d.regs ∧ (lane < (d.link port).badMarkers.length → (e.link port).badMarkers.getD lane 0 = bad + 1) ∧
        d.linkFrame e port))) ∧
    -- signals and tests of lanes
    (d.running (.lane l) = false → Gives (.lossOfSignal l) s d ∧ Gives (.prbsLock l errors) s d) ∧
    (16 ≤ l.val → d.running (.lane l) = true → l.val < 32 ∨ d.on (Reg.ULD_STATE_RX_SLEEP port) = false →
      Completes (.lossOfSignal l) s (fun e => e.on (Reg.LANE_STATUS_SIGNAL l) = false ∧ e.on (Reg.LANE_STATUS_CDR_LOCK l) = false ∧
        e.on (Reg.LANE_ATTN_LOS l) = true ∧ (portIn 6 → l.val ∈ d.activeLanes port → d.retrains e port) ∧
        (l.val < 32 → e.links = d.links ∧ d.linkFrame e 0))) ∧
    (32 ≤ l.val → d.on (Reg.ULD_STATE_RX_SLEEP port) = true → Gives (.lossOfSignal l) s d) ∧
    (16 ≤ l.val → d.running (.lane l) = true →
      (1 ≤ d.get (Reg.LANE_CFG_TEST l) → d.get (Reg.LANE_CFG_TEST l) ≤ 5 → Completes (.prbsLock l errors) s (fun e =>
        e.on (Reg.LANE_STATUS_PRBS_LOCK l) = true ∧ e.get (Reg.LANE_PRBS_ERR l) = (d.get (Reg.LANE_PRBS_ERR l) + errors) % 2 ^ 32 ∧
        (errors ≠ 0 → e.on (Reg.LANE_ATTN_PRBS_ERR l) = true) ∧ e.links = d.links ∧ d.linkFrame e p)) ∧
      (d.get (Reg.LANE_CFG_TEST l) = 0 ∨ 5 < d.get (Reg.LANE_CFG_TEST l) → Gives (.prbsLock l errors) s d))

/-- R356, R359, R360, R365, R366: an ACTIVE link takes frames in order, replays what is not acknowledged, sends a packet when its class has
credit, sleeps when it is idle, and measures the offset and the delay of its peer. What the rules leave open here is the model's choice
(log entry 62). -/
def Obligations.LinkFrames : Prop :=
  ∀ (s : State) (p : Fin 3) (f : Frame) (seq : Fin 4096) (flit : Flit) (tseq rseq : BitVec 8) (prevTx rseqRx arrived crossing : BitVec 96),
    let d := s.dev
    let l := d.link p
    let up := d.uldActive p = true
    let timedOut (t : ShortTime) : Prop := d.get (Reg.ULD_REPLAY_TIMEOUT_NS p) * 2 ^ 16 ≤ (d.now - t).toNat
    let most := max 1 (d.get (Reg.ULD_REPLAY_MAX p))
    (d.uldActive p = false → Gives (.idleFrame p f) s d ∧ Gives (.sleepFrame p f) s d ∧ Gives (.byeFrame p f) s d ∧
      Gives (.timeFrame p f tseq rseq prevTx rseqRx arrived) s d ∧ (flit.wf = true → Gives (.dataFrame p f seq flit) s d) ∧
      Gives (.replayTimeout p) s d ∧ Gives (.sleepIdleExpiry p) s d ∧ Gives (.timeIntervalExpiry p crossing) s d) ∧
    -- ACK, NAK and credit
    (up → f.good = false → Gives (.idleFrame p f) s (d.bump (Reg.ULD_CRC_ERRORS p)) ∧
      Gives (.byeFrame p f) s (d.bump (Reg.ULD_CRC_ERRORS p)) ∧ Gives (.sleepFrame p f) s (d.bump (Reg.ULD_CRC_ERRORS p))) ∧
    (up → f.good = true → l.queue = [] → f.nak = false → ∀ pre x post, l.replay = pre ++ (f.ack.val, x) :: post →
      (∀ y ∈ pre, y.1 ≠ f.ack.val) → Completes (.idleFrame p f) s (fun e => (e.link p).replay = post ∧
        (e.link p).replayCount = 0 ∧ (e.link p).sentLine = l.sentLine ∧ e.regs = d.regs ∧ d.linkFrame e p)) ∧
    (up → f.good = true → l.queue = [] → f.nak = true → (∀ y ∈ l.replay, y.1 ≠ f.ack.val) → l.replay ≠ [] →
      l.lastReplay = none ∨ (∃ t, l.lastReplay = some t ∧ timedOut t) →
      (l.replayCount < most → Completes (.idleFrame p f) s (fun e => d.replays e p)) ∧
      (most ≤ l.replayCount → Completes (.idleFrame p f) s (fun e => d.retrains e p))) ∧
    (up → f.good = true → l.queue = [] → f.nak = true → (∀ y ∈ l.replay, y.1 ≠ f.ack.val) → ∀ t, l.lastReplay = some t → ¬timedOut t →
      Completes (.idleFrame p f) s (fun e => (e.link p).sentLine = l.sentLine ∧ e.regs = d.regs ∧ d.linkFrame e p)) ∧
    (up → l.replay ≠ [] → timedOut l.ackTime →
      (l.replayCount < most → Completes (.replayTimeout p) s (fun e => d.replays e p ∧ (e.link p).ackTime = d.now)) ∧
      (most ≤ l.replayCount → Completes (.replayTimeout p) s (fun e => d.retrains e p))) ∧
    (up → l.replay = [] ∨ ¬timedOut l.ackTime → Gives (.replayTimeout p) s d) ∧
    -- DATA frames
    (up → flit.wf = true → d.plainFrame p f →
      let next := (l.lastSeq + 1) % 4096
      let ahead := (seq.val + 4096 - next) % 4096
      let kept (e : Dev) : Prop := (e.link p).lastSeq = l.lastSeq ∧ (e.link p).freed = l.freed ∧ (e.link p).partials = l.partials ∧
        e.get (Reg.ULD_RX_FRAMES p) = d.get (Reg.ULD_RX_FRAMES p) ∧ e.noc = d.noc ∧ d.linkFrame e p;
      (f.good = false → Completes (.dataFrame p f seq flit) s (fun e => kept e ∧ (e.link p).nak = true ∧
        e.get (Reg.ULD_CRC_ERRORS p) = (d.get (Reg.ULD_CRC_ERRORS p) + 1) % 2 ^ 32)) ∧
      (f.good = true → 0 < ahead → ahead < 2048 → Completes (.dataFrame p f seq flit) s (fun e => kept e ∧ (e.link p).nak = true)) ∧
      (f.good = true → 2048 ≤ ahead → Completes (.dataFrame p f seq flit) s (fun e => kept e ∧ (e.link p).nak = l.nak)) ∧
      (f.good = true → ahead = 0 → Completes (.dataFrame p f seq flit) s (fun e => (e.link p).lastSeq = seq ∧ (e.link p).nak = false ∧
        e.get (Reg.ULD_RX_FRAMES p) = (d.get (Reg.ULD_RX_FRAMES p) + 1) % 2 ^ 32 ∧ d.linkFrame e p ∧
        (∀ k, flit.head = some k → k.len.val = 0 → network k ≠ 1 → k.type ≠ .notice → d.destDevice k = d.ownId →
          ∃ h ∈ e.noc.held, h.pkt = { k with words := flit.words, epoch := d.epochAt (uldEndpoint p) })))) ∧
    -- credit
    (∀ hop k, up → l.queue = [(hop, k)] →
      let c := classOf hop k
      let n := k.len.val + 1
      let room := l.limits.getD c 0 - (l.sent.getD c 0 + 4096 - l.freedPeer.getD c 0) % 4096;
      (room < n ∨ 1024 < l.replay.length + n → d.pump p = d) ∧
      (n ≤ room → l.replay.length + n ≤ 1024 →
        let sent := (List.range n).map (fun i => ((l.nextSeq + i) % 4096, (flitsOf hop k).getD i flit))
        l.nextSeq < 4096 → ((d.pump p).link p).queue = [] ∧ ((d.pump p).link p).replay = l.replay ++ sent ∧
          ((d.pump p).link p).sentLine = l.sentLine ++ sent.map (fun x => Line.data x.1 x.2))) ∧
    -- sleep
    (up → f.good = true → d.plainFrame p f → Completes (.sleepFrame p f) s (fun e => e.on (Reg.ULD_STATE_RX_SLEEP p) = true ∧
      (∀ x ∈ d.activeLanes p, e.get (Reg.LANE_STATUS_RX_PWR x) = 1) ∧ d.linkFrame e p)) ∧
    (let idle := d.on (Reg.ULD_CFG_SLEEP_EN p) = true ∧ l.replay = [] ∧ l.queue = [] ∧ d.on (Reg.ULD_STATE_TX_SLEEP p) = false;
      (up → idle → Completes (.sleepIdleExpiry p) s (fun e => e.on (Reg.ULD_STATE_TX_SLEEP p) = true ∧
        (∀ x ∈ d.activeLanes p, e.get (Reg.LANE_STATUS_TX_PWR x) = 1) ∧
        (e.link p).sentLine = l.sentLine ++ List.replicate 8 Line.sleep ∧ d.linkFrame e p)) ∧
      (up → ¬idle → Gives (.sleepIdleExpiry p) s d)) ∧
    -- time transfer
    (up → d.on (Reg.ULD_CFG_TIME_EN p) = true → Completes (.timeIntervalExpiry p crossing) s (fun e =>
      (e.link p).sentLine = l.sentLine ++ [.time l.tseq l.rseq (lookup (fun _ => 0) l.crossings (l.tseq - 1).toNat) (l.arrival.getD 0)] ∧
      lookup (fun _ => 0) (e.link p).crossings l.tseq.toNat = crossing ∧ (e.link p).tseq = l.tseq + 1 ∧
      e.on (Reg.ULD_STATE_TX_SLEEP p) = false ∧ d.linkFrame e p)) ∧
    (up → d.on (Reg.ULD_CFG_TIME_EN p) = false → Gives (.timeIntervalExpiry p crossing) s d) ∧
    (up → f.good = true → d.plainFrame p f → d.on (Reg.ULD_CFG_TIME_EN p) = true →
      Completes (.timeFrame p f tseq rseq prevTx rseqRx arrived) s (fun e =>
        (e.link p).rseq = tseq ∧ (e.link p).arrival = some arrived ∧ d.linkFrame e p ∧
        (l.arrival = none ∨ tseq ≠ l.rseq + 1 → e.regs = d.regs ∧ e.evt = d.evt) ∧
        (∀ t4, l.arrival = some t4 → tseq = l.rseq + 1 → (∃ x ∈ l.crossings, x.1 = rseq.toNat) →
          let ns (t : BitVec 96) : ℚ := ((t.toNat / 2 ^ 48 * 10 ^ 9 : Nat) : ℚ) + ((t.toNat % 2 ^ 48 : Nat) : ℚ) / 2 ^ 16
          let t1 := ns (lookup (fun _ => 0) l.crossings rseq.toNat)
          let t2 := ns rseqRx
          let t3 := ns prevTx
          let asym : ℚ := (signed (d.get (Reg.ULD_ASYM_PS p)) 16 : ℚ) / 1000
          let offset := ⌊((t2 - t1) - (ns t4 - t3) - asym) / 2 * 2 ^ 16 + 1 / 2⌋
          (-2 ^ 63 ≤ offset → offset < 2 ^ 63 → (BitVec.ofNat 64 (e.get64 (Reg.ULD_TIME_OFFSET p))).toInt = offset) ∧
          (2 ^ 63 ≤ offset → e.get64 (Reg.ULD_TIME_OFFSET p) = 2 ^ 63 - 1) ∧
          (offset < -2 ^ 63 → e.get64 (Reg.ULD_TIME_OFFSET p) = 2 ^ 63) ∧
          ((e.get (Reg.ULD_TIME_DELAY p) : Int) = ⌊((t2 - t1) + (ns t4 - t3)) / 2 * 2 ^ 16 + 1 / 2⌋ % 2 ^ 32) ∧
          e.get64 (Reg.ULD_TIME_AT p) = d.now.toNat ∧ e.on (Reg.ULD_TIME_VALID p) = true ∧
          e.evt.queue = d.evt.queue ++ [⟨0x6D0 + p.val, false⟩])))

/-- R29, R371–R378, R401: the counter counts at F and slews; the host steers a stopped servo; the DPLL takes the first valid reference; a
correction of the steward sets F within its limits and moves the time state by its table. The counts are exact to the fraction the
counter carries. What the rules leave open here is the model's choice (log entries 7, 68). -/
def Obligations.TimeServo : Prop :=
  ∀ (s : State) (who : Accessor) (code gm : BitVec 8) (on_ accepted : Bool) (value freq slew : BitVec 32) (offset : BitVec 64),
    let d := s.dev
    let runs := d.timeRuns = true
    let free := d.stopped .servo = true
    let may (f : Fld) : Prop := d.reaches who f.off = true
    let st := d.timeState
    let f : Int := signed (d.get Reg.TB_SERVO_FREQ) 32
    let rate : Int := 16 * 2 ^ 48 + 16 * f * 2 ^ 40 / 10 ^ 9
    let part := min d.time.slew (16 * d.get Reg.TB_SERVO_SLEW_PPB * 2 ^ 48 / 10 ^ 9)
    let phase := signed (d.get64 Reg.TB_ADJ_PHASE) 64
    -- counting
    (¬runs → Gives .shortTimeBroadcast s d ∧ Gives (.referenceInvalid code) s d ∧ Gives (.referenceValid code) s d ∧
      Gives (.servoUpdate offset freq slew accepted gm) s d ∧ Gives .measurementLoss s d) ∧
    (runs → Completes .shortTimeBroadcast s (fun e => d.counted e (if d.time.slewNeg then rate - part else rate + part) ∧
      e.time.slew = d.time.slew - part ∧ e.regs = d.regs ∧ e.evt = d.evt ∧ d.clockFrame e ∧ e.out = d.out)) ∧
    Gives .slewComplete s (if d.on Reg.TB_ADJ_SLEWING = true ∧ d.time.slew = 0 then d.set Reg.TB_ADJ_SLEWING 0 else d) ∧
    -- steering by the host
    (¬may Reg.TB_ADJ_FREQ → Gives (.tbAdjFreqWrite who value) s d) ∧ (¬may Reg.TB_SET_GO → Gives (.tbSetGo who) s d) ∧
    (¬may Reg.TB_ADJ_GO → Gives (.tbAdjGoStep who) s d ∧ Gives (.tbAdjGoSlew who) s d) ∧
    (may Reg.TB_ADJ_FREQ → ¬free → Gives (.tbAdjFreqWrite who value) s (d.cfgReject who Reg.TB_ADJ_FREQ.off)) ∧
    (may Reg.TB_ADJ_FREQ → free → Completes (.tbAdjFreqWrite who value) s (fun e => e.get Reg.TB_ADJ_FREQ = value.toNat ∧
      e.get Reg.TB_SERVO_FREQ = value.toNat ∧ e.time = d.time ∧ e.evt = d.evt ∧ d.clockFrame e ∧ e.out = d.out)) ∧
    (may Reg.TB_ADJ_GO → ¬free ∨ d.on Reg.TB_ADJ_SLEWING = true → Gives (.tbAdjGoStep who) s (d.cfgReject who Reg.TB_ADJ_GO.off) ∧
      Gives (.tbAdjGoSlew who) s (d.cfgReject who Reg.TB_ADJ_GO.off)) ∧
    (may Reg.TB_ADJ_GO → free → d.on Reg.TB_ADJ_SLEWING = false →
      Completes (.tbAdjGoStep who) s (fun e => d.stepped e phase ∧ d.clockFrame e ∧ e.out = d.out) ∧
      (d.get Reg.TB_SERVO_SLEW_PPB = 0 → Completes (.tbAdjGoSlew who) s (fun e => d.stepped e phase ∧ d.clockFrame e ∧ e.out = d.out)) ∧
      (d.get Reg.TB_SERVO_SLEW_PPB ≠ 0 → Completes (.tbAdjGoSlew who) s (fun e => e.time.slew = phase.natAbs * 2 ^ 32 ∧
        e.time.slewNeg = decide (phase < 0) ∧ e.on Reg.TB_ADJ_SLEWING = true ∧ e.time.short = d.time.short ∧ e.time.full = d.time.full ∧
        e.evt = d.evt ∧ d.clockFrame e ∧ e.out = d.out))) ∧
    (may Reg.TB_SET_GO → ¬free ∨ 10 ^ 9 ≤ d.get Reg.TB_SET_NS → Gives (.tbSetGo who) s (d.cfgReject who Reg.TB_SET_GO.off)) ∧
    (may Reg.TB_SET_GO → free → d.get Reg.TB_SET_NS < 10 ^ 9 → Completes (.tbSetGo who) s (fun e =>
      e.time.full = ((d.get Reg.TB_SET_SEC + 2 ^ 32 * d.get Reg.TB_SET_SEC_HI) * 10 ^ 9 + d.get Reg.TB_SET_NS) * 65536 ∧
      e.time.short = d.time.short ∧ e.time.slew = 0 ∧ e.on Reg.TB_ADJ_SLEWING = false ∧ d.timeBecomes e (if st = 4 then 0 else st) ∧
      d.clockFrame e ∧ e.out = d.out)) ∧
    (may Reg.TB_SNAP_GO → d.time.full < 2 ^ 48 * 10 ^ 9 * 65536 → Completes (.tbSnapGo who) s (fun e =>
      e.get64 Reg.TB_SNAP_SHORT = d.time.short.toNat ∧ e.get Reg.TB_SNAP_NS < 10 ^ 9 ∧
      ((e.get Reg.TB_SNAP_SEC + 2 ^ 32 * e.get Reg.TB_SNAP_SEC_HI) * 10 ^ 9 + e.get Reg.TB_SNAP_NS) * 65536 + e.get Reg.TB_SNAP_FRAC =
        d.time.full ∧ e.time = d.time ∧ e.evt = d.evt ∧ d.clockFrame e ∧ e.out = d.out)) ∧
    -- references
    (∀ good : Bool, runs → Completes (if good then .referenceValid code else .referenceInvalid code) s (fun e =>
      let sel := [d.get Reg.TB_DPLL_SEL0, d.get Reg.TB_DPLL_SEL1, d.get Reg.TB_DPLL_SEL2]
      let usable (c : Nat) : Prop := c ≠ 0 ∧ c ∈ e.time.refs
      let act := d.get Reg.TB_DPLL_ACTIVE
      let keeps := usable act ∧ act ∈ sel ∧ d.on Reg.TB_DPLL_REVERT = false
      (∀ c, c ∈ e.time.refs ↔ (if good then c = code.toNat ∨ c ∈ d.time.refs else c ≠ code.toNat ∧ c ∈ d.time.refs)) ∧
      (keeps → e.get Reg.TB_DPLL_ACTIVE = act ∧ e.on Reg.TB_DPLL_HOLD = false) ∧
      (¬keeps → ∀ pre c post, sel = pre ++ c :: post → usable c → (∀ x ∈ pre, ¬usable x) →
        e.get Reg.TB_DPLL_ACTIVE = c ∧ e.on Reg.TB_DPLL_HOLD = false ∧ (act ≠ 0 → act ≠ c → e.bit Reg.TB_ATTN 2 = true)) ∧
      ((∀ c ∈ sel, ¬usable c) → e.on Reg.TB_DPLL_HOLD = true ∧ (d.on Reg.TB_DPLL_HOLD = false →
        e.get Reg.TB_DPLL_ACTIVE = 0 ∧ e.bit Reg.TB_ATTN 3 = true ∧
        d.timeBecomes e (if st = 2 then 1 else if st = 3 then 0 else st))) ∧
      e.time.short = d.time.short ∧ d.clockFrame e ∧ e.out = d.out)) ∧
    (let now := d.on Reg.TB_DPLL_SYNCE_TX;
      (¬may Reg.TB_DPLL_SYNCE_TX ∨ on_ = now → Gives (.synceTxWrite who on_) s d) ∧
      (may Reg.TB_DPLL_SYNCE_TX → on_ ≠ now → (∀ n < 16, d.stopped (ethFn n) = true) →
        Gives (.synceTxWrite who on_) s (d.set Reg.TB_DPLL_SYNCE_TX (b2n on_))) ∧
      (may Reg.TB_DPLL_SYNCE_TX → on_ ≠ now → (∃ n < 16, d.stopped (ethFn n) = false) →
        Gives (.synceTxWrite who on_) s (d.cfgReject who Reg.TB_DPLL_SYNCE_TX.off))) ∧
    -- the servo
    (d.running .servo = false → Gives (.servoUpdate offset freq slew accepted gm) s d ∧ Gives .measurementLoss s d ∧
      Gives (.tbHostMeasCommit who) s d) ∧
    (runs → d.running .servo = true → Completes (.servoUpdate offset freq slew accepted gm) s (fun e =>
      let lim : Int := d.get Reg.TB_SERVO_SLEW_PPB * 256
      let off := offset.toInt.natAbs
      let lock := d.get Reg.TB_SERVO_LOCK_NS * 65536
      let near := if off ≤ lock then d.time.near + 1 else 0
      let far := if 4 * lock < off then d.time.far + 1 else 0
      let traceable := if d.get Reg.TB_SERVO_SOURCE = 0 then gm = 6 else d.on Reg.TB_SERVO_EXT_TRACE = true
      let jumps := st = 1 ∧ d.time.stepped = false ∧ d.get Reg.TB_SERVO_STEP_NS * 65536 < off
      e.get64 Reg.TB_SERVO_OFFSET = offset.toNat ∧ d.clockFrame e ∧ e.out = d.out ∧
      (d.get Reg.TB_SERVO_SOURCE = 0 → e.get Reg.TB_SERVO_GM_CLASS = gm.toNat) ∧
      signed (e.get Reg.TB_SERVO_FREQ) 32 = max (-100000 * 256) (min (100000 * 256) (freq.toInt + max (-lim) (min lim slew.toInt))) ∧
      (jumps → d.stepped e offset.toInt ∧ e.time.stepped = true ∧ e.timeState = 1) ∧
      (st = 1 → ¬jumps → 16 ≤ near → traceable → d.on Reg.TB_DPLL_HOLD = false → d.timeBecomes e 2) ∧
      (st = 1 → ¬jumps → near < 16 ∨ ¬traceable ∨ d.on Reg.TB_DPLL_HOLD = true → e.timeState = 1 ∧ e.time.near = near) ∧
      (st = 2 → 4 ≤ far ∨ ¬traceable → d.timeBecomes e 1) ∧ (st = 2 → far < 4 → traceable → e.timeState = 2 ∧ e.time.far = far) ∧
      (st = 0 ∨ st = 3 ∨ st = 4 → (accepted = true → d.timeBecomes e 1) ∧ (accepted = false → e.timeState = st)) ∧
      (¬jumps → st = 1 ∨ st = 2 → e.time.short = d.time.short ∧ e.time.full = d.time.full))) ∧
    (let at_ : ShortTime := BitVec.ofNat 64 (d.get64 Reg.TB_HOST_MEAS_AT);
      let fresh := -(10 ^ 9 * 65536) ≤ timeDiff at_ d.time.short;
      (may Reg.TB_HOST_MEAS_COMMIT → d.running .servo = true → d.get Reg.TB_SERVO_SOURCE = 3 → fresh →
        Completes (.tbHostMeasCommit who) s (fun e => e.time.measured = d.time.short ∧
          d.timeBecomes e (if st = 0 ∨ st = 3 ∨ st = 4 then 1 else st) ∧ e.time.short = d.time.short ∧ d.clockFrame e ∧ e.out = d.out)) ∧
      (¬may Reg.TB_HOST_MEAS_COMMIT ∨ d.get Reg.TB_SERVO_SOURCE ≠ 3 ∨ ¬fresh → Gives (.tbHostMeasCommit who) s d)) ∧
    (let lost (t : ShortTime) : Prop := (d.get Reg.TB_SERVO_LOSS_MS : Int) * (10 ^ 6 * 65536) ≤ timeDiff d.time.short t;
      (runs → d.running .servo = true → lost d.time.measured ∨ lost d.time.corrected → st = 1 ∨ st = 2 →
        Completes .measurementLoss s (fun e => d.timeBecomes e (if st = 2 then 3 else 0) ∧ e.bit Reg.TB_ATTN 4 = true ∧
          e.time.short = d.time.short ∧ d.clockFrame e ∧ e.out = d.out ∧
          (st = 1 → e.get Reg.TB_SERVO_FREQ = d.get Reg.TB_SERVO_FREQ) ∧
          (∀ t1 t0 : ShortTime, ∀ f1 f0 : Int, st = 2 → d.time.freqs = [(t1, f1), (t0, f0)] →
            let a := timeDiff d.time.short t1
            let b := timeDiff t1 t0
            0 < a → 0 < b → a + b ≤ 60 * 10 ^ 9 * 65536 → -2 ^ 31 ≤ f1 → f1 < 2 ^ 31 → -2 ^ 31 ≤ f0 → f0 < 2 ^ 31 →
            signed (e.get Reg.TB_SERVO_FREQ) 32 = (f1 * a + f0 * b) / (a + b)))) ∧
      (¬(lost d.time.measured ∨ lost d.time.corrected) ∨ (st ≠ 1 ∧ st ≠ 2) → Gives .measurementLoss s d))

/-- R375, R379, R384–R387: the pulse of each second and its end, the edges of PPS_IN and of the timed pins, PTM answers, and the PTP messages
of a port. What the rules leave open here is the model's choice (log entry 68). -/
def Obligations.TimePins : Prop :=
  ∀ (s : State) (falling : Bool) (t : ShortTime) (i n : Fin 16) (bs : List Byte),
    let d := s.dev
    let runs := d.timeRuns = true
    let second : Nat := 10 ^ 9 * 65536
    let adj : Int := ⌊(signed (d.get Reg.TB_PPS_OUT_ADJ_PS) 16 : ℚ) * 65536 / 1000 + 1 / 2⌋
    let sec := (((d.time.full : Int) - adj) / second).toNat
    let mode := d.get Reg.TB_PPS_OUT_MODE
    let st := d.timeState
    let source1 := d.running .servo = true ∧ d.get Reg.TB_SERVO_SOURCE = 1
    (¬runs → Gives .secondBoundary s d ∧ Gives .ppsPulseEnd s d ∧ Gives (.ppsInEdge falling t) s d ∧ Gives .ptmRequest s d ∧
      Gives (.timedIoInputEdge i falling t) s d ∧ Gives (.timedIoOutputEdge i) s d ∧ Gives (.ptpSyncInterval n t [bs]) s d) ∧
    -- seconds
    (runs → sec ≤ d.time.ppsSecond → Gives .secondBoundary s d) ∧
    (runs → d.time.ppsSecond < sec → Completes .secondBoundary s (fun e =>
      e.time.ppsSecond = sec ∧ e.time.ppsIn = none ∧ e.on Reg.TB_COARSE_VALID = true ∧ e.time.coarse = d.time.full / second * 2 ^ 15 ∧
      (source1 → d.time.ppsIn = none → e.bit Reg.TB_ATTN 5 = true) ∧
      (let pulses := d.on Reg.TB_PPS_OUT_EN = true ∧ (mode = 0 ∨ (mode = 1 ∧ (st = 2 ∨ st = 3)) ∨ (mode = 2 ∧ st = 2));
        (pulses → e.time.ppsOut = some true ∧ (e.time.ppsEnd.toNat : Int) = (d.time.short.toNat + ((sec * second : Nat) + adj - d.time.full) +
          (d.get Reg.TB_PPS_WIDTH_NS * 65536 : Nat)) % 2 ^ 64) ∧
        (¬pulses → e.time.ppsOut = d.time.ppsOut ∧ e.time.ppsEnd = d.time.ppsEnd)) ∧
      e.time.short = d.time.short ∧ e.time.full = d.time.full ∧ d.clockFrame e ∧ e.out = d.out)) ∧
    (runs → (d.time.ppsOut = some true → timeDiff d.time.ppsEnd d.time.short ≤ 0 →
        Gives .ppsPulseEnd s { d with time := { d.time with ppsOut := some false } }) ∧
      (d.time.ppsOut ≠ some true ∨ 0 < timeDiff d.time.ppsEnd d.time.short → Gives .ppsPulseEnd s d)) ∧
    -- PPS_IN
    (d.on Reg.TB_PPS_IN_EN = false ∨ d.on Reg.TB_PPS_IN_FALLING ≠ falling → Gives (.ppsInEdge falling t) s d) ∧
    (runs → d.on Reg.TB_PPS_IN_EN = true → d.on Reg.TB_PPS_IN_FALLING = falling →
      let past : Int := ((d.time.full : Int) + timeDiff t d.time.short) % (2 ^ 48 * second : Nat) % second
      let wide := 10 ^ 6 * 65536 < past ∧ past < second - 10 ^ 6 * 65536
      Completes (.ppsInEdge falling t) s (fun e => e.get64 Reg.TB_PPS_IN_TIME = t.toNat ∧
        e.get Reg.TB_PPS_IN_COUNT = (d.get Reg.TB_PPS_IN_COUNT + 1) % 2 ^ 32 ∧ ⟨0x742, false⟩ ∈ e.evt.queue ∧
        (source1 → wide → e.bit Reg.TB_ATTN 5 = true ∧ e.time = d.time) ∧
        (source1 → ¬wide → e.time.measured = d.time.short ∧ e.time.ppsIn = some t ∧
          d.timeBecomes e (if st = 0 ∨ st = 3 ∨ st = 4 then 1 else st)) ∧
        (¬source1 → e.time = d.time) ∧ d.clockFrame e ∧ e.out = d.out)) ∧
    -- timed pins
    (d.running (.tio i) = false → Gives (.timedIoInputEdge i falling t) s d ∧ Gives (.timedIoOutputEdge i) s d) ∧
    (d.on (Reg.TB_TIO_CFG_MODE i) = true ∨ d.on (Reg.TB_TIO_CFG_FALLING i) ≠ falling → Gives (.timedIoInputEdge i falling t) s d) ∧
    (runs → d.running (.tio i) = true → d.on (Reg.TB_TIO_CFG_MODE i) = false → d.on (Reg.TB_TIO_CFG_FALLING i) = falling →
      Completes (.timedIoInputEdge i falling t) s (fun e => e.get64 (Reg.TB_TIO_LAST i) = t.toNat ∧
        e.get (Reg.TB_TIO_COUNT i) = (d.get (Reg.TB_TIO_COUNT i) + 1) % 2 ^ 32 ∧ e.evt.queue = d.evt.queue ++ [⟨0x750 + i.val, false⟩] ∧
        e.time = d.time ∧ d.clockFrame e ∧ e.out = d.out)) ∧
    (runs → d.running (.tio i) = true → d.on (Reg.TB_TIO_CFG_MODE i) = true →
      let p := d.pin i
      let period := d.get (Reg.TB_TIO_PERIOD_NS i)
      let enabled (j : Nat) : Prop := j < 8 ∧ d.on (Reg.TB_TIO_EDGE_EN i j) = true
      let comes (k j : Nat) : Prop := enabled j ∧
        ((k = p.period ∧ p.edge ≤ j ∧ ∀ l < j, p.edge ≤ l → ¬enabled l) ∨
          (k = p.period + 1 ∧ period ≠ 0 ∧ (∀ l, p.edge ≤ l → ¬enabled l) ∧ ∀ l < j, ¬enabled l))
      let time (k j : Nat) : ShortTime :=
        BitVec.ofNat 64 (d.get64 (Reg.TB_TIO_START i) + (k * period + d.get (Reg.TB_TIO_EDGE_OFS_NS i j)) * 65536)
      (∀ k j, comes k j →
        (timeDiff (time k j) d.time.short ≤ 0 → Completes (.timedIoOutputEdge i) s (fun e =>
          e.get64 (Reg.TB_TIO_LAST i) = (time k j).toNat ∧ e.pin i = ⟨k, j + 1, some (d.on (Reg.TB_TIO_EDGE_LEVEL i j))⟩ ∧
          (∀ l, l ≠ i.val → e.pin l = d.pin l) ∧ e.time.short = d.time.short ∧ d.clockFrame e ∧ e.out = d.out)) ∧
        (0 < timeDiff (time k j) d.time.short → Gives (.timedIoOutputEdge i) s d)) ∧
      ((∀ k j, ¬comes k j) → Gives (.timedIoOutputEdge i) s d)) ∧
    -- PTM and PTP
    (runs → d.boot.perst = true → Completes .ptmRequest s (fun e =>
      e.out = d.out ++ [.ptm ⌊(d.time.full : ℚ) / 65536 + 1 / 2⌋.toNat] ∧
      e.get Reg.TB_PTM_RESPONSES = (d.get Reg.TB_PTM_RESPONSES + 1) % 2 ^ 32 ∧ e.time = d.time ∧ e.evt = d.evt ∧ d.clockFrame e)) ∧
    (d.boot.perst = false → Gives .ptmRequest s d) ∧
    (let carries := d.running .servo = true ∧ d.get Reg.TB_SERVO_SOURCE = 0 ∧ d.running (.eth n) = true ∧
        d.on (Reg.ETH_PORT_STATUS_LINK_UP n) = true;
      (¬carries → Gives (.ptpSyncInterval n t [bs]) s d) ∧
      (runs → carries → d.ptpSends n bs = false → Gives (.ptpSyncInterval n t [bs]) s d) ∧
      (runs → carries → d.ptpSends n bs = true → d.on (Reg.ETH_PORT_CFG_MACSEC_EN n) = false →
        Completes (.ptpSyncInterval n t [bs]) s (fun e => (e.port n).wire = (d.port n).wire ++ [(t, bs)] ∧
          (e.port n).frames = (d.port n).frames ∧ (∀ m, m ≠ n.val → e.port m = d.port m) ∧
          e.get (Reg.ETH_PORT_TX_FRAMES n) = (d.get (Reg.ETH_PORT_TX_FRAMES n) + 1) % 2 ^ 32 ∧ e.mem = d.mem ∧ e.jfe = d.jfe ∧
          e.cores = d.cores ∧ e.time = d.time ∧ e.out = d.out)))

/-- R388, R390–R392, R395–R399, R402: quads and steering entries take writes under their rules; a port gains and loses its link; the frame
whose turn it is departs, is late or is dropped; the TX ring brings frames in; a received frame goes where the first rule that applies
sends it. The rings stand in the host window, and MACsec is off. What the rules leave open here is the model's choice (log entries 64,
65, 66). -/
def Obligations.EthernetPorts : Prop :=
  ∀ (s : State) (who : Accessor) (q : Fin 4) (n : Fin 16) (i : Fin 1024) (w : Fin 16) (value : BitVec 32) (an mismatch good : Bool)
    (t : ShortTime) (ext : List Ext) (bs : List Byte) (f : TxFrame),
    let d := s.dev
    let port := d.port n
    let up := d.on (Reg.ETH_PORT_STATUS_LINK_UP n) = true
    let plain := d.on (Reg.ETH_PORT_CFG_MACSEC_EN n) = false
    -- quads
    (let off := (Reg.ETH_QUAD_SPLIT q).off;
      (d.reaches who off = false → Gives (.ethQuadWrite who q value) s d) ∧
      (d.reaches who off = true → (∃ k < 4, d.stopped (ethFn (4 * q.val + k)) = false) →
        Gives (.ethQuadWrite who q value) s (d.cfgReject who off)) ∧
      (d.reaches who off = true → (∀ k < 4, d.stopped (ethFn (4 * q.val + k)) = true) → Completes (.ethQuadWrite who q value) s (fun e =>
        e.get (Reg.ETH_QUAD_SPLIT q) = bitsOf value.toNat 0 2 ∧ e.get (Reg.ETH_QUAD_RATE q) = bitsOf value.toNat 2 2 ∧
        e.get (Reg.ETH_QUAD_C2M q) = bitsOf value.toNat 4 1 ∧ (∀ o, o ≠ off → e.word o = d.word o) ∧ e.eth = d.eth ∧ e.evt = d.evt ∧
        e.out = d.out ∧ d.ethFrame e))) ∧
    -- links
    (d.stopped (.eth n) = true → Gives (.linkUp n an) s d ∧ Gives (.linkDown n) s d) ∧
    (d.stopped (.eth n) = false → Completes (.linkUp n an) s (fun e => e.on (Reg.ETH_PORT_STATUS_LINK_UP n) = true ∧
      e.on (Reg.ETH_PORT_STATUS_CAL_DONE n) = true ∧
      e.on (Reg.ETH_PORT_STATUS_AN_DONE n) = (an && d.on (Reg.ETH_PORT_CFG_AN_EN n)) ∧ e.eth = d.eth ∧ e.out = d.out ∧ d.ethFrame e)) ∧
    (¬up → Gives (.linkDown n) s d) ∧
    (d.stopped (.eth n) = false → up → Completes (.linkDown n) s (fun e => e.on (Reg.ETH_PORT_STATUS_LINK_UP n) = false ∧
      e.on (Reg.ETH_PORT_STATUS_CAL_DONE n) = false ∧ e.bit (Reg.ETH_PORT_ATTN n) 1 = true ∧
      e.get (Fn.state (.eth n)) = d.get (Fn.state (.eth n)) ∧ e.eth = d.eth ∧ e.out = d.out ∧ d.ethFrame e)) ∧
    -- departures
    (let stamp := t + BitVec.ofInt 64 ⌊(signed (d.get (Reg.ETH_PORT_TS_TX_ADJ_PS n)) 16 : ℚ) * 65536 / 1000 + 1 / 2⌋
      let asap (k : Nat) : Bool := d.on (Reg.ETH_PORT_QUEUE_ASAP n k)
      let turn (g : TxFrame) : Prop := asap g.queue = true ∨ timeDiff g.launch stamp ≤ 0
      let cmd : Instr := .frameLaunch n t mismatch ext
      let late : Int := if asap f.queue then 0 else timeDiff stamp f.launch
      let limit : Int := d.get (Reg.ETH_PORT_LATE_NS n) * 65536;
      (d.stopped (.eth n) = true ∨ d.on (Fn.abort (.eth n)) = true → Gives cmd s d) ∧
      ((∀ k < 8, ∀ g, port.frames.find? (fun x => x.queue == k) = some g → ¬turn g) → Gives cmd s d) ∧
      (∀ pre post, d.stopped (.eth n) = false → d.on (Fn.abort (.eth n)) = false → port.frames = pre ++ f :: post →
        (∀ x ∈ pre, x.queue ≠ f.queue) → f.queue < 8 → turn f →
        (∀ k < f.queue, ∀ g, port.frames.find? (fun x => x.queue == k) = some g → ¬turn g) → d.entryInHost n f → f.oneStep = none →
        let left (e : Dev) : Prop := (e.port n).frames = pre ++ post ∧ (∀ m, m ≠ n.val → e.port m = d.port m) ∧ d.ethFrame e
        let sent (e : Dev) (flag : Nat) : Prop := (e.port n).wire = port.wire ++ [(t, f.bytes)] ∧
          e.get (Reg.ETH_PORT_TX_FRAMES n) = (d.get (Reg.ETH_PORT_TX_FRAMES n) + 1) % 2 ^ 32 ∧
          d.entryOver e n f (if f.tsReq then stamp else 0) stOK (b2n (f.tsReq && decide (d.timeState = 2)) + flag)
        let counts (e : Dev) (c : Fld) : Prop := e.get c = (d.get c + 1) % 2 ^ 32;
        (¬up → Completes cmd s (fun e => left e ∧ (e.port n).wire = port.wire ∧ counts e (Reg.ETH_PORT_DOWN_DROPS n) ∧
          d.entryOver e n f 0 stLINK 0)) ∧
        (up → plain → late ≤ 0 → Completes cmd s (fun e => left e ∧ sent e 0 ∧
          e.get (Reg.ETH_PORT_DEFERRED n) = d.get (Reg.ETH_PORT_DEFERRED n))) ∧
        (up → plain → 0 < late → late ≤ limit → Completes cmd s (fun e => left e ∧ sent e 0 ∧ counts e (Reg.ETH_PORT_DEFERRED n))) ∧
        (up → limit < late → 0 < late → d.get (Reg.ETH_PORT_QUEUE_POLICY n f.queue) = 0 → Completes cmd s (fun e => left e ∧
          (e.port n).wire = port.wire ∧ counts e (Reg.ETH_PORT_LATE_DROPS n) ∧ e.bit (Reg.ETH_PORT_ATTN n) 2 = true ∧
          d.entryOver e n f 0 stLATE 0)) ∧
        (up → plain → limit < late → 0 < late → d.get (Reg.ETH_PORT_QUEUE_POLICY n f.queue) = 1 → Completes cmd s (fun e => left e ∧
          sent e 2 ∧ counts e (Reg.ETH_PORT_LATE_SENT n) ∧ e.bit (Reg.ETH_PORT_ATTN n) 2 = true)))) ∧
    -- the TX ring
    (d.running (.eth n) = false → Gives (.txRingPoll n ext) s d) ∧
    (∀ (pi slot src : Nat) (count : Word) (v : BitVec 256) (data : List Word), d.running (.eth n) = true → d.jfe.busMaster.getLsbD 0 = true →
      let ci := d.get (Reg.ETH_PORT_TXR_CI n)
      let len := bitsOf v.toNat 64 16
      let parts := (List.range 4).map (fun k => Ext.word ((v.extractLsb' (64 * k) 64).setWidth 72))
      d.target (d.addr56 (Reg.ETH_PORT_TXR_PI_ADDR n).off 2) = .host pi → pi + 8 ≤ 2 ^ 53 →
      (count.toNat % 2 ^ 32 = ci → ext = [.word count] → Completes (.txRingPoll n ext) s (fun e => e.eth = d.eth ∧ e.regs = d.regs ∧
        e.out = d.out ++ [.read 0 pi 8] ∧ d.ethFrame e)) ∧
      (count.toNat % 2 ^ 32 = (ci + 1) % 2 ^ 32 → d.target (d.txrSlot n ci) = .host slot → slot + 32 ≤ 2 ^ 53 →
        d.target (bitsOf v.toNat 0 56) = .host src → src + 8 * data.length ≤ 2 ^ 53 → data.length = (len + 7) / 8 → 0 < len →
        len + 4 + (if plain then 0 else 32) ≤ d.get (Reg.ETH_PORT_CFG_MAX_FRAME n) → d.frameRoom n (bitsOf v.toNat 80 3) len = true →
        bitOf v.toNat 84 = false → ext = [.word count] ++ parts ++ data.map Ext.word → Completes (.txRingPoll n ext) s (fun e =>
          (e.port n).frames = port.frames ++ [⟨bitsOf v.toNat 80 3, (data.flatMap (fun x => leBytes x.toNat 8)).take len,
            BitVec.ofNat 64 (bitsOf v.toNat 128 64), none, some ci, bitOf v.toNat 83, none⟩] ∧
          e.get (Reg.ETH_PORT_TXR_CI n) = (ci + 1) % 2 ^ 32 ∧ (∀ m, m ≠ n.val → e.port m = d.port m) ∧ d.ethFrame e))) ∧
    -- received frames
    (d.running (.eth n) = false ∨ ¬up → Gives (.frameReceive n good t bs mismatch ext) s d) ∧
    (d.running (.eth n) = true → up →
      let r : RxFrame := { bytes := bs, time := t, protected_ := false }
      let cmd : Instr := .frameReceive n good t bs mismatch ext
      let misshapen := bs.length < 60 ∨ d.get (Reg.ETH_PORT_CFG_MAX_FRAME n) < bs.length + 4 ∨ etherType bs = 0x8808
      let taken (e : Dev) : Prop := e.get (Reg.ETH_PORT_RX_FRAMES n) = (d.get (Reg.ETH_PORT_RX_FRAMES n) + 1) % 2 ^ 32 ∧ d.ethFrame e
      let stamp := if r.ptpEvent = true ∨ d.on (Reg.ETH_PORT_CFG_TS_ALL n) = true
        then t + BitVec.ofInt 64 ⌊(signed (d.get (Reg.ETH_PORT_TS_RX_ADJ_PS n)) 16 : ℚ) * 65536 / 1000 + 1 / 2⌋ else 0
      let drops (e : Dev) : Prop := e.get (Reg.ETH_PORT_RX_DROPS n) = (d.get (Reg.ETH_PORT_RX_DROPS n) + 1) % 2 ^ 32;
      (good = false → Gives cmd s (d.bump (Reg.ETH_PORT_RX_FCS_ERR n))) ∧
      (good = true → misshapen → Gives cmd s (d.bump (Reg.ETH_PORT_RX_DROPS n))) ∧
      (good = true → ¬misshapen → plain →
        (∀ c, d.chainFor n r = some c →
          let m := ofBE (r.payload.take 8)
          let count := (r.payload.length - 8) / 4
          let got (e : Dev) : List (Nat × Nat) := lookup (fun _ => []) e.dfe.got c;
          (0 < count → count ≤ 2048 → d.nextIndex c ≤ m → Completes cmd s (fun e => taken e ∧ got e = got d ++ [(m, count)] ∧
            e.eth = d.eth ∧ e.out = d.out)) ∧
          (count = 0 ∨ 2048 < count → Completes cmd s (fun e => taken e ∧ drops e ∧ e.dfe = d.dfe ∧ e.out = d.out))) ∧
        (d.chainFor n r = none → ∀ k, d.steerFor n r = some k →
          let sym := symbolNumber r.payload (d.get (Reg.ETH_STEER_MU k))
          d.on (Reg.ETH_STEER_TARGET k) = false → d.get (Reg.ETH_STEER_NSLOT k) < 2 * d.steerBehind k sym → Completes cmd s (fun e =>
            taken e ∧ e.get (Reg.ETH_STEER_FRAMES k) = (d.get (Reg.ETH_STEER_FRAMES k) + 1) % 2 ^ 32 ∧
            e.get (Reg.ETH_STEER_LATE k) = (d.get (Reg.ETH_STEER_LATE k) + 1) % 2 ^ 32 ∧ e.out = d.out)) ∧
        (d.chainFor n r = none → d.steerFor n r = none →
          let ptp := r.etype = 0x88F7 ∧ d.ptpPort n = true ∧ d.on (Reg.ETH_PORT_CFG_PTP_TO_RING n) = false
          let ring := d.on (Reg.ETH_PORT_CFG_RX_RING_EN n) = true
          let k := d.get (Reg.ETH_PORT_RXR_PI n)
          let lg := d.get (Reg.ETH_PORT_RXR_LOG2 n);
          (ptp → Completes cmd s (fun e => taken e ∧ e.eth.toSteward = d.eth.toSteward ++ [(n.val, stamp, bs)] ∧ e.out = d.out)) ∧
          (¬ptp → ¬ring → Completes cmd s (fun e => taken e ∧ drops e ∧ e.eth = d.eth ∧ e.out = d.out)) ∧
          (¬ptp → ring → (k + 2 ^ 32 - port.rxCi) % 2 ^ 32 < 2 ^ lg → d.jfe.busMaster.getLsbD 0 = true → ∀ buf rec,
            d.target (d.addr56 (Reg.ETH_PORT_RXB_BASE n).off 12 + k % 2 ^ lg * 10240) = .host buf →
            d.target (d.addr56 (Reg.ETH_PORT_RXR_BASE n).off 12 + 32 * (k % 2 ^ lg)) = .host rec → bs.length < 2 ^ 16 →
            Completes cmd s (fun e => taken e ∧ e.get (Reg.ETH_PORT_RXR_PI n) = (k + 1) % 2 ^ 32 ∧ ⟨0x6F0 + n.val, false⟩ ∈ e.evt.queue ∧
              ∃ ro, ∃ v : BitVec 256, e.out = d.out ++ [.write 0 buf bs ro, .record 0 rec v] ∧ bitsOf v.toNat 0 16 = bs.length ∧
                bitsOf v.toNat 16 8 = r.cls ∧ bitOf v.toNat 24 = (decide (stamp ≠ 0 ∨ r.ptpEvent = true ∨
                  d.on (Reg.ETH_PORT_CFG_TS_ALL n) = true) && decide (d.timeState = 2)) ∧ bitOf v.toNat 25 = false ∧
                bitsOf v.toNat 64 64 = stamp.toNat ∧ bitsOf v.toNat 128 127 = 0 ∧ bitsOf v.toNat 255 1 = (k / 2 ^ lg + 1) % 2))))) ∧
    -- steering entries
    (let off := (Reg.ETH_STEER_EN i).off + 4 * w.val
      let old := d.word off
      let mask := BitVec.ofNat 32 (steerMask w)
      let secure := w.val = 0 ∧ who ≠ .secure
      let new := (old &&& ~~~mask ||| value &&& mask)
      let kept := if secure then (new &&& ~~~0x80#32 ||| old &&& 0x80#32) else new
      let changes := if w.val = 0 then old >>> 1 ≠ kept >>> 1 else old ≠ kept
      let d1 := if secure ∧ value.getLsbD 7 = true then d.regViolation who off else d;
      (d.reaches who off = false → Gives (.ethSteerWrite who i w value) s d) ∧
      (d.reaches who off = true → d.on (Reg.ETH_STEER_EN i) = true → changes →
        Gives (.ethSteerWrite who i w value) s (d1.cfgReject who off)) ∧
      (d.reaches who off = true → d.on (Reg.ETH_STEER_EN i) = false ∨ ¬changes → Completes (.ethSteerWrite who i w value) s (fun e =>
        e.word off = kept ∧ (∀ o, o ≠ off → e.word o = d1.word o) ∧ e.out = d.out ∧ d.ethFrame e ∧
        (w.val = 0 → old.getLsbD 0 = false → kept.getLsbD 0 = true → i.val ∉ e.eth.seen))))

/-- R408, R410–R412, R414: a key command that its desk takes: refusals change no drawer; LOAD, LOAD_KW and CLEAR fill or empty a drawer that
is granted and not in use, and keep its grants; GRANT and REVOKE change one grant; the end of the command shows its RESULT. What the
rules leave open here is the model's choice (log entries 70, 74, 75). -/
def Obligations.KeyCommands : Prop :=
  ∀ (s : State) (who : Accessor) (k : Fin 64) (ext : List Ext),
    let d := s.dev
    let c := d.kcmd who k
    let commands := [(1, Instr.keyLoad who k ext), (2, .keyLoadKw who k ext), (3, .keyClear who k), (4, .keyGrant who k),
      (5, .keyRevoke who k), (6, .kekImport who k ext), (7, .lockOwner who k)]
    let busy := d.on (Reg.CIPH_DESK_KCMD_BUSY k) = true
    let taken (op : Nat) : Prop := d.deskServed who k = true ∧ ¬busy ∧ d.get (Reg.CIPH_DESK_KCMD_OP k) = op
    let ends (x : Instr) (r : Nat) (key : Option Nat) (P : Dev → Prop) : Prop := Completes x s (fun e =>
      e.on (Reg.CIPH_DESK_KCMD_BUSY k) = true ∧ e.sec.kcmds = d.sec.kcmds ++ [(k.val, r, key)] ∧ P e ∧ e.jfe = d.jfe ∧ e.cores = d.cores ∧
      e.tsu = d.tsu ∧ e.noc = d.noc ∧ e.links = d.links ∧ e.eth = d.eth ∧ e.time = d.time ∧ e.power = d.power ∧ e.sec.jobs = d.sec.jobs)
    let drawersKept (e : Dev) : Prop := e.sec.drawers = d.sec.drawers
    let changes (y : Drawer) (e : Dev) : Prop := e.drawer c.drawer = y ∧ (∀ i, i ≠ c.drawer → e.drawer i = d.drawer i)
    let quiet (e : Dev) : Prop := e.mem = d.mem ∧ e.out = d.out
    let granted (i op : Nat) : Prop := (d.drawer i).grants.getLsbD k = true ∨ (k.val = 0 ∧ (op = 1 ∨ op = 3))
    let inUse := d.drawerInUse c.drawer = true
    let x := d.drawer c.drawer
    let target := BitVec.ofNat 64 (2 ^ c.target)
    -- a GO that no command takes
    (∀ op i, (op, i) ∈ commands →
      (d.deskServed who k = false → Gives i s d) ∧
      (d.deskServed who k = true → busy → Gives i s (d.cfgReject who (Reg.CIPH_DESK_KCMD_GO k).off)) ∧
      (d.deskServed who k = true → ¬busy → d.get (Reg.CIPH_DESK_KCMD_OP k) ≠ op → Gives i s d)) ∧
    -- LOAD
    (taken 1 →
      (¬granted c.drawer 1 ∨ (c.root = false ∧ ¬granted c.kek 1) →
        ends (.keyLoad who k ext) 2 none (fun e => drawersKept e ∧ quiet e)) ∧
      (granted c.drawer 1 → (c.root = false → granted c.kek 1) → inUse →
        ends (.keyLoad who k ext) 3 none (fun e => drawersKept e ∧ quiet e)) ∧
      (∀ d1 r, d.loadBytes c 56 ext = (d1, .error r) → ends (.keyLoad who k ext) r none drawersKept) ∧
      (∀ d1 key ct, d.loadBytes c 56 ext = (d1, .ok (key, ct)) →
        (kwpUnwrap key ct = none → ends (.keyLoad who k ext) 1 none drawersKept) ∧
        (∀ b r, kwpUnwrap key ct = some b → recordDrawer (who == .secure) b = .error r →
          ends (.keyLoad who k ext) r none drawersKept) ∧
        (∀ b y, kwpUnwrap key ct = some b → recordDrawer (who == .secure) b = .ok y →
          ends (.keyLoad who k ext) 0 (some y.keyId.toNat) (changes { y with grants := x.grants })))) ∧
    (∀ secure b y, recordDrawer secure b = .ok y → b.length = 48 ∧ b.getD 0 0 = 1 ∧ y.loaded = true ∧ 1 ≤ y.cls ∧ y.cls ≤ 4 ∧
      (y.usage.getLsbD 5 = true → y.cls = 4) ∧ (y.secure = true → secure = true) ∧ y.uses = 0) ∧
    -- LOAD_KW
    (taken 2 →
      (¬granted c.drawer 2 ∨ ¬granted c.kek 2 → ends (.keyLoadKw who k ext) 2 none (fun e => drawersKept e ∧ quiet e)) ∧
      (granted c.drawer 2 → granted c.kek 2 → inUse → ends (.keyLoadKw who k ext) 3 none (fun e => drawersKept e ∧ quiet e)) ∧
      (∀ d1 r, d.loadBytes { c with root := false } (if c.wide then 40 else 24) ext = (d1, .error r) →
        ends (.keyLoadKw who k ext) r none drawersKept) ∧
      (∀ d1 key ct, d.loadBytes { c with root := false } (if c.wide then 40 else 24) ext = (d1, .ok (key, ct)) →
        (kwUnwrap key ct = none → ends (.keyLoadKw who k ext) 1 none drawersKept) ∧
        (∀ b, kwUnwrap key ct = some b → ends (.keyLoadKw who k ext) 0 none (fun e =>
          (∀ i, i ≠ c.drawer → e.drawer i = d.drawer i) ∧ (e.drawer c.drawer).loaded = true ∧
          (e.drawer c.drawer).cls = (if c.wide then 2 else 1) ∧ (e.drawer c.drawer).usage = 16 ∧ (e.drawer c.drawer).secure = false ∧
          (e.drawer c.drawer).grants = x.grants)))) ∧
    -- CLEAR, GRANT, REVOKE
    (taken 3 →
      (¬granted c.drawer 3 → ends (.keyClear who k) 2 none (fun e => drawersKept e ∧ quiet e)) ∧
      (granted c.drawer 3 → inUse → ends (.keyClear who k) 3 none (fun e => drawersKept e ∧ quiet e)) ∧
      (granted c.drawer 3 → ¬inUse → ends (.keyClear who k) 0 none (fun e =>
        changes { Drawer.empty with grants := x.grants } e ∧ quiet e))) ∧
    (taken 4 → (k.val ≠ 0 → ends (.keyGrant who k) 5 none (fun e => drawersKept e ∧ quiet e)) ∧
      (k.val = 0 → ends (.keyGrant who k) 0 none (fun e => changes { x with grants := x.grants ||| target } e ∧ quiet e))) ∧
    (taken 5 → (k.val ≠ 0 → ends (.keyRevoke who k) 5 none (fun e => drawersKept e ∧ quiet e)) ∧
      (k.val = 0 → ends (.keyRevoke who k) 0 none (fun e => changes { x with grants := x.grants &&& ~~~target } e ∧ quiet e))) ∧
    -- KEK_IMPORT, LOCK_OWNER
    (taken 6 →
      (who ≠ .secure → ends (.kekImport who k ext) 5 none (fun e => drawersKept e ∧ quiet e)) ∧
      (who = .secure → d.sec.ownerLocked = true → ends (.kekImport who k ext) 6 none (fun e => drawersKept e ∧ quiet e)) ∧
      (who = .secure → d.sec.ownerLocked = false → ∃ r, (r = 0 ∨ r = 1 ∨ r = 7) ∧ ends (.kekImport who k ext) r none drawersKept) ∧
      (who = .secure → d.sec.ownerLocked = false → d.sec.rootKey = true → ∀ a : Nat, a % 8 = 0 →
        (∀ i < 11, d.target (c.addr + 8 * i) = .mem (a + 8 * i) ∧ d.accepts (kcmdReq who k) (a + 8 * i)) →
        (∀ i < 4, d.clearRead (kcmdReq who k) (a + 8 * i)) → ends (.kekImport who k ext) 0 none (fun e => drawersKept e ∧
          (∀ i < 4, dataOf (e.raw (a / 8 + i)) = 0) ∧ (∀ w, (w < a / 8 ∨ a / 8 + 11 ≤ w) → e.raw w = d.raw w) ∧ e.out = d.out))) ∧
    (taken 7 → (who ≠ .secure → ends (.lockOwner who k) 5 none (fun e => drawersKept e ∧ quiet e)) ∧
      (who = .secure → d.on Reg.PWR_THERM_FUSE_OK = false → ends (.lockOwner who k) 8 none (fun e => drawersKept e ∧ quiet e)) ∧
      (who = .secure → d.on Reg.PWR_THERM_FUSE_OK = true → ends (.lockOwner who k) 0 none (fun e => drawersKept e ∧ quiet e ∧
        e.sec.ownerLocked = true ∧ e.on Reg.SEC_STATUS_OWNER_LOCKED = true))) ∧
    -- the end of a command
    (d.sec.kcmds.find? (fun y => y.1 == k.val) = none → Gives (.kcmdComplete k) s d) ∧
    (∀ f r key, d.sec.kcmds.find? (fun y => y.1 == k.val) = some (f, r, key) → Completes (.kcmdComplete k) s (fun e =>
      e.get (Reg.CIPH_DESK_KCMD_RESULT k) = r % 2 ^ 8 ∧ e.on (Reg.CIPH_DESK_KCMD_BUSY k) = false ∧
      e.bit (Reg.CIPH_DESK_ATTN k) 4 = true ∧ e.sec.kcmds = d.sec.kcmds.filter (fun y => y.1 != k.val) ∧
      e.get (Reg.CIPH_DESK_KCMD_KEY_ID k) = (match key with
        | some n => n % 2 ^ 32
        | none => d.get (Reg.CIPH_DESK_KCMD_KEY_ID k)) ∧ drawersKept e ∧ e.mem = d.mem ∧ e.jfe = d.jfe ∧ e.out = d.out))

/-- R412, R416, R418–R424, R426: a free unit takes a waiting job it can serve, of the highest priority, and seals the job's window; every
cipher job that executes ends, and leaves all other jobs alone; held output goes out only when its tag verifies; a mismatch of the
duplicated datapaths is counted; and what one direction of GCM, CTR, the 3GPP ciphers and PDCP makes, the other takes back. What the
rules leave open here is the model's choice (log entries 70, 71, 76). -/
def Obligations.CipherJobs : Prop :=
  ∀ (s : State) (u : Fin 24) (j : Job) (ext : List Ext) (cut : Nat),
    let d := s.dev
    let runs (n : Option Nat) : List (Instr × Nat) :=
      [(.ciGcm j.id n ext, 0x80), (.ciCtr j.id n ext, 0x81), (.ciCmac j.id n ext, 0x82), (.ciNea j.id n ext, 0x83),
       (.ciNia j.id n ext, 0x84), (.ciPdcp j.id n ext, 0x85)]
    let executes := d.job j.id = some j ∧ j.phase = .running
    -- start
    (d.serves .ciph = false ∨ d.domainOn 17 = false ∨ u.val ∈ d.ciphBusy ∨ d.nextCipher u = none → Gives (.ciphJobStart u) s d) ∧
    (d.serves .ciph = true → d.domainOn 17 = true → u.val ∉ d.ciphBusy → d.nextCipher u = some j →
      j ∈ d.jfe.jobs ∧ j.phase = .queued ∧ d.canServe u j = true ∧
      (∀ x ∈ d.jfe.jobs, x.isCipher = true → x.phase = .queued → d.canServe u x = true → x.priority ≤ j.priority) ∧
      (j.qwin = 0 → j.held = true → 0 < d.holdFree) ∧ (j.qwin ≠ 0 → d.get (Reg.SEC_QW_STATE (j.qwin - 1)) = 1) ∧
      Completes (.ciphJobStart u) s (fun e => (∃ v, e.job j.id = some { j with phase := .running, unit := v } ∧
          ∀ us, d.unitsFor u j = some us → v = us.getLastD u) ∧
        (j.qwin ≠ 0 → e.get (Reg.SEC_QW_STATE (j.qwin - 1)) = 2) ∧ d.keepsOthers e j.id ∧ e.mem = d.mem ∧ e.out = d.out)) ∧
    -- end
    (executes → ∀ c op, (c, op) ∈ runs none → j.opcode = op → Completes c s (d.jobEnds j)) ∧
    (∀ c op, (c, op) ∈ runs none ++ runs (some cut) → d.job j.id = some j → j.phase ≠ .running ∨ j.opcode ≠ op → Gives c s d) ∧
    (executes → ∀ io bs b, (Io.start d j ext).readBytes (d.ciphReq j) j.cSrc (16 + j.aadLen + j.cLen + j.tagIn) = (io, bs, b) →
      io.stop = none → io.lost = none → let o := d.ciphCompute j (toNats bs)
      (j.held = true → o.ok = false → ∀ c op, (c, op) ∈ runs none → j.opcode = op → Completes c s (fun e =>
        e.job j.id = some (d.endedJob j stTAGFAIL (ciphResult j 0 false [])) ∧ e.out = io.done.out ∧
        (j.qwin = 0 → e.mem = io.done.mem))) ∧
      (j.held = false ∨ o.ok = true → ∀ io2 n, io.release (d.ciphReq j) j.cDst (ofNats o.out) false = (io2, n) →
        ∀ c op, (c, op) ∈ runs none → j.opcode = op → Completes c s (fun e =>
          e.job j.id = some (d.endedJob j (io2.status (if o.ok then stOK else stTAGFAIL))
            (ciphResult j n (j.verifies && o.ok) (if j.held then [] else o.tag))) ∧ e.mem = io2.done.mem ∧ e.out = io2.done.out))) ∧
    (executes → ∀ c op, (c, op) ∈ runs (some cut) → j.opcode = op → Completes c s (fun e =>
      (e.job j.id).map (·.phase) = some .ended ∧ e.get Reg.CIPH_FAULTS = (d.get Reg.CIPH_FAULTS + 1) % 2 ^ Reg.CIPH_FAULTS.w ∧
      e.cores = d.cores ∧ e.tsu = d.tsu ∧ e.time = d.time)) ∧
    -- the operations
    (∀ (j1 j2 : Job) (k k2 : List Nat) (x y : CiphIn), k.length = 16 ∨ k.length = 32 → k2.length = 16 ∨ k2.length = 32 →
      y.iv = x.iv → y.aad = x.aad → j1.cDir = false → j2.cDir = true →
      (j2.tagLen = j1.tagLen → j1.tagLen ≤ 16 → y.data = (ciGcm j1 k x).out.take x.data.length →
        y.tag = (ciGcm j1 k x).out.drop x.data.length →
        (ciGcm j2 k y).out = x.data ∧ (ciGcm j2 k y).ok = true ∧ (ciGcm j1 k x).out.length = x.data.length + j1.tagLen) ∧
      (y.data = (ciCtr k x).out → (ciCtr k y).out = x.data) ∧
      (j2.cAlg = j1.cAlg → y.data = (ciNea j1 k x).out → (ciNea j2 k y).out = x.data) ∧
      (j2.iAlg = j1.iAlg → y.data = x.data → y.tag = (ciNia j1 k x).out → (ciNia j2 k y).ok = true) ∧
      (j2.cAlg = j1.cAlg → j2.iAlg = j1.iAlg → y.data = (ciPdcp j1 k k2 x).out → j2.cLen = x.data.length + 4 →
        (ciPdcp j2 k k2 y).out = x.data ∧ (ciPdcp j2 k k2 y).ok = true))

/-- R405, R413, R425, R426, R432, R433, R439, R464: the secure world changes the world of a granule or a core, whose memory is filled with
zero, enables quarantine windows and commits SVNs; a debug token opens what it permits; tamper and supply glitches zeroise every drawer,
and reset a device in service. What the rules leave open here is the model's choice (log entry 79). -/
def Obligations.SecurityCommands : Prop :=
  ∀ (s : State) (who : Accessor) (c : Fin 104) (w : Fin 16) (world idOk keyOk sigOk : Bool) (challenge : BitVec 256) (permit : BitVec 2),
    let d := s.dev
    let may (f : Fld) : Prop := d.reaches .secure f.off = true
    let core := Reg.ERG_CORE_CFG_WORLD (c.val / 8) (c.val % 8)
    -- only the secure world
    (∀ f : Fld, ∀ i ∈ ([(Reg.SEC_REGION_CMD_GO, fun a => Instr.secRegionGo a), (core, fun a => .coreWorldWrite a c world),
        (Reg.SEC_QW_EN w, fun a => .quarantineEnable a w), (Reg.SEC_SVN_COMMIT_GO, fun a => .svnCommit a)] : List (Fld × (Accessor → Instr))),
      i.1 = f → (d.reaches who f.off = false → Gives (i.2 who) s d) ∧
        (d.reaches who f.off = true → who ≠ .secure → Gives (i.2 who) s (d.regViolation who f.off))) ∧
    -- granules
    (may Reg.SEC_REGION_CMD_GO → d.on Reg.SEC_REGION_STATUS_BUSY = true →
      Gives (.secRegionGo .secure) s (d.cfgReject .secure Reg.SEC_REGION_CMD_GO.off)) ∧
    (may Reg.SEC_REGION_CMD_GO → d.on Reg.SEC_REGION_STATUS_BUSY = false →
      let g := granuleOf (d.get Reg.SEC_REGION_CMD_KIND) (d.get Reg.SEC_REGION_CMD_STACK) (d.get Reg.SEC_REGION_CMD_INDEX)
      (g = none ↔ (d.get Reg.SEC_REGION_CMD_KIND = 0 ∧ 104 ≤ d.get Reg.SEC_REGION_CMD_INDEX) ∨
        (d.get Reg.SEC_REGION_CMD_KIND = 1 ∧ 80 ≤ d.get Reg.SEC_REGION_CMD_INDEX) ∨
        (d.get Reg.SEC_REGION_CMD_KIND = 2 ∧ 20 ≤ d.get Reg.SEC_REGION_CMD_INDEX) ∨
        (d.get Reg.SEC_REGION_CMD_KIND = 3 ∧ 19661 ≤ d.get Reg.SEC_REGION_CMD_INDEX)) ∧
      (g = none → Completes (.secRegionGo .secure) s (fun e => e.on Reg.SEC_REGION_STATUS_BAD = true ∧
        e.on Reg.SEC_REGION_STATUS_BUSY = false ∧ e.sec = d.sec ∧ e.mem = d.mem ∧ d.secFrame e)) ∧
      (∀ f k a n, g = some (f, k, a, n) → Completes (.secRegionGo .secure) s (fun e => e.on Reg.SEC_REGION_STATUS_BUSY = true ∧
        e.on Reg.SEC_REGION_STATUS_BAD = false ∧ e.sec.region = some ⟨f.off, k, a, n, d.on Reg.SEC_REGION_CMD_WORLD⟩ ∧ e.mem = d.mem ∧
        e.sec.drawers = d.sec.drawers ∧ d.secFrame e))) ∧
    (d.sec.region = none → Gives .regionDone s d) ∧
    (∀ kind stack index f k a n, kind ≤ 3 → stack ≤ 1 → granuleOf kind stack index = some (f, k, a, n) →
      d.sec.region = some ⟨f.off, k, a, n, world⟩ → Completes .regionDone s (fun e =>
        (∀ x, e.raw x = if a ≤ x ∧ x < a + n then encodeWord 0 else d.raw x) ∧ e.on ⟨f.off, k, 1⟩ = world ∧
        e.on Reg.SEC_REGION_STATUS_BUSY = false ∧ e.sec.region = none ∧ e.sec.drawers = d.sec.drawers ∧ ⟨0x7E3, d.sourceWorld 0x7E3⟩ ∈ e.evt.queue ∧
        d.secFrame e)) ∧
    (may core → (d.stopped (ergFn (c.val / 8)) = false → Gives (.coreWorldWrite .secure c world) s (d.cfgReject .secure core.off)) ∧
      (d.stopped (ergFn (c.val / 8)) = true → d.on core = world → Gives (.coreWorldWrite .secure c world) s d) ∧
      (d.stopped (ergFn (c.val / 8)) = true → d.on core ≠ world → Completes (.coreWorldWrite .secure c world) s (fun e =>
        e.on core = world ∧ (∀ r, r = Region.core c false ∨ r = Region.core c true → ∀ x, r.firstWord ≤ x → x < r.firstWord + r.words →
          e.raw x = encodeWord 0) ∧
        (∀ x, regionOf (8 * x) ≠ some (.core c false) → regionOf (8 * x) ≠ some (.core c true) → e.raw x = d.raw x) ∧ e.sec = d.sec ∧
        e.evt = d.evt ∧ d.secFrame e))) ∧
    -- quarantine windows
    (let lo := 0x20000000
     let base (k : Nat) : Nat := 8 * d.get (Reg.SEC_QW_BASE k)
     let top (k : Nat) : Nat := base k + 8 * d.get (Reg.SEC_QW_LEN k)
     let sound := base w < top w ∧ d.get (Reg.SEC_QW_LEN w) ≤ 262144 ∧ lo ≤ base w ∧ top w ≤ lo + 40 * 2 ^ 20 ∧
        (∀ b, base w ≤ b → b < top w →
          d.bit (Reg.SEC_RGN_MESA ((b - lo) / 2 ^ 19 / 32)) ((b - lo) / 2 ^ 19 % 32) = d.on (Reg.SEC_QW_WORLD w)) ∧
        (∀ k < 16, k ≠ w.val → d.on (Reg.SEC_QW_EN k) = true → top w ≤ base k ∨ top k ≤ base w)
     may (Reg.SEC_QW_EN w) → (d.on (Reg.SEC_QW_EN w) = true → Gives (.quarantineEnable .secure w) s d) ∧
      (d.on (Reg.SEC_QW_EN w) = false → ¬sound →
        Gives (.quarantineEnable .secure w) s (d.cfgReject .secure (Reg.SEC_QW_EN w).off)) ∧
      (d.on (Reg.SEC_QW_EN w) = false → sound → Completes (.quarantineEnable .secure w) s (fun e => e.on (Reg.SEC_QW_EN w) = true ∧
        e.get (Reg.SEC_QW_STATE w) = (if d.get (Reg.SEC_QW_STATE w) = 2 then 2 else 1) ∧ e.sec = d.sec ∧ e.mem = d.mem ∧ e.evt = d.evt ∧
        d.secFrame e))) ∧
    -- SVN
    (may Reg.SEC_SVN_COMMIT_GO →
      (d.on Reg.PWR_THERM_FUSE_OK = false → Gives (.svnCommit .secure) s (d.cfgReject .secure Reg.SEC_SVN_COMMIT_GO.off)) ∧
      (d.on Reg.PWR_THERM_FUSE_OK = true →
        (d.get Reg.SEC_SVN_COMMIT_TYPE = 1 → Completes (.svnCommit .secure) s (fun e =>
          e.sec = { d.sec with svnSs := max d.sec.svnSs (d.get Reg.SEC_SVN_RUN_SS) } ∧ e.get Reg.SEC_SVN_FUSED_SS = e.sec.svnSs % 2 ^ 7 ∧
          e.mem = d.mem ∧ d.secFrame e)) ∧
        (d.get Reg.SEC_SVN_COMMIT_TYPE = 2 → Completes (.svnCommit .secure) s (fun e =>
          e.sec = { d.sec with svnNs := max d.sec.svnNs (d.get Reg.SEC_SVN_RUN_NS) } ∧ e.get Reg.SEC_SVN_FUSED_NS = e.sec.svnNs % 2 ^ 7 ∧
          e.mem = d.mem ∧ d.secFrame e)))) ∧
    -- debug
    (let token := Instr.debugToken challenge idOk keyOk sigOk permit
     let served := d.boot.powered = true ∧ d.get Reg.PWR_STATUS_STATE < 2
     let fresh := ∀ i < 8, bitsOf challenge.toNat (32 * i) 32 = d.get (Reg.SEC_DEBUG_CHALLENGE i)
     let opensS := permit.getLsbD 1 = true ∧ d.on Reg.SEC_DEBUG_S_OPEN = false
     let shows (v : Nat) : Prop := Completes token s (fun e => e.get Reg.SEC_DEBUG_TOKEN_RESULT = v ∧
        e.on Reg.SEC_DEBUG_NS_OPEN = d.on Reg.SEC_DEBUG_NS_OPEN ∧ e.on Reg.SEC_DEBUG_S_OPEN = d.on Reg.SEC_DEBUG_S_OPEN ∧ e.sec = d.sec ∧
        e.mem = d.mem ∧ d.secFrame e)
     (¬served → Gives token s d) ∧ (served → idOk = false ∨ ¬fresh → shows 4) ∧
      (served → idOk = true → fresh → (keyOk = false → shows 3) ∧ (keyOk = true → sigOk = false → shows 2) ∧
        (keyOk = true → sigOk = true → Completes token s (fun e => e.get Reg.SEC_DEBUG_TOKEN_RESULT = 1 ∧
          e.on Reg.SEC_DEBUG_NS_OPEN = (d.on Reg.SEC_DEBUG_NS_OPEN || permit.getLsbD 0) ∧
          e.on Reg.SEC_DEBUG_S_OPEN = (d.on Reg.SEC_DEBUG_S_OPEN || permit.getLsbD 1) ∧
          (permit ≠ 0 → 0x7E4 ∈ e.evt.live) ∧ (opensS → e.sec.drawers = [] ∧ e.sec.debugKey = true) ∧
          (¬opensS → e.sec = d.sec ∧ d.secFrame e) ∧ e.mem = d.mem ∧ e.cores = d.cores ∧ e.out = d.out)))) ∧
    -- tamper
    (∀ x ∈ [(Instr.tamper, 0), (.supplyGlitch, 1)],
      (d.boot.powered = true → d.devState < 3 → Completes x.1 s (fun e => e.sec.drawers = [] ∧ d.logged e 4 x.2 ∧ e.coldDue 6 ∧
        e.boot.tamper = true ∧ e.out = d.out)) ∧
      (d.boot.powered = false ∨ 3 ≤ d.devState → Completes x.1 s (fun e => e.sec.drawers = [] ∧ d.logged e 4 x.2 ∧
        e.boot = { d.boot with tamper := true } ∧ e.devState = d.devState ∧ e.cores = d.cores ∧ e.mem = d.mem ∧ e.out = d.out)))

/-- R443–R446, R448–R453: a request for a device state starts, merges, waits or is discarded by the seven rules; a drain that has lasted its
time ends every job; a transition that may complete puts every domain in its state; domains change by the host's requests; wakes are
requests for ACTIVE, and a cold boot in OFF. What the rules leave open here is the model's choice (log entries 80, 81). -/
def Obligations.PowerRequests : Prop :=
  ∀ (s : State) (who : Accessor) (k : Fin 22) (req : Fin 4) (i : Fin 32),
    let d := s.dev
    let st := d.devState
    let busy := d.on Reg.PWR_STATUS_IN_PROGRESS
    let goal := d.get Reg.PWR_STATUS_TARGET
    let waits := if d.on Reg.PWR_STATUS_PENDING then some (d.get Reg.PWR_STATUS_PENDING_TARGET, d.on Reg.PWR_STATUS_HELD) else none
    let going := if busy then some goal else none
    let replaced (n : Nat) : Nat := (d.get Reg.PWR_STATUS_REPLACED + n) % 2 ^ 16
    let merged := (d.get Reg.PWR_STATUS2_MERGED + 1) % 2 ^ 16
    let drops := if d.on Reg.PWR_STATUS_PENDING then 1 else 0
    let thermal := d.on Reg.PWR_STATUS_PENDING = true ∧ d.get Reg.PWR_STATUS_PENDING_TARGET = 2 ∧ d.power.pendCause = 2
    let crit := d.on Reg.PWR_THERM_CRIT = true ∨ d.on Reg.PWR_THERM_HBM_CRIT = true
    -- the commands
    (∀ x ∈ [(Instr.requestActive who, 0, some 7), (.requestStandby who, 1, none), (.requestDormant who, 2, none), (.requestOff who, 4, none)],
      (d.reaches who Reg.PWR_REQ_TARGET.off = false → Gives x.1 s d) ∧
      (d.reaches who Reg.PWR_REQ_TARGET.off = true → Gives x.1 s (powerRequest x.2.1 0 x.2.2 d))) ∧
    -- the rules
    (∀ (t cause : Nat) (code : Option Nat), t = 0 ∨ t = 1 ∨ t = 2 ∨ t = 4 → cause < 8 →
      let e := powerRequest t cause code d
      (d.ready = false ∨ 3 ≤ st → e = d) ∧
      (d.ready = true → st < 3 → d.powerFrame e ∧ e.devState = st ∧
        (t ≤ 1 → thermal → e.requestsAre going waits ∧ e.get Reg.PWR_STATUS_REPLACED = replaced 1) ∧
        (t ≤ 1 → ¬thermal → crit → e.requestsAre going (some (t, true)) ∧ e.get Reg.PWR_STATUS_REPLACED = replaced drops) ∧
        (2 ≤ t ∨ (¬thermal ∧ ¬crit) →
          (busy = false → t = st → e = d) ∧
          (busy = false → t ≠ st → e.requestsAre (some t) waits ∧ e.get Reg.PWR_STATUS2_LAST_CAUSE = cause ∧
            (st = 0 → e.power.paused = true ∧ e.power.drainFrom = some d.now) ∧
            (∀ c, t = 0 → code = some c → c < 16 → e.get Reg.PWR_WAKE_REC_SOURCE = c ∧ e.get64 Reg.PWR_WAKE_REC_TIME = d.now.toNat)) ∧
          (busy = true → t = goal → e.requestsAre going none ∧ e.get Reg.PWR_STATUS2_MERGED = merged ∧
            e.get Reg.PWR_STATUS_REPLACED = replaced drops) ∧
          (busy = true → t ≠ goal → t = 2 → thermal → e.requestsAre going waits ∧ e.get Reg.PWR_STATUS2_MERGED = merged) ∧
          (busy = true → t ≠ goal → ¬(t = 2 ∧ thermal) → e.requestsAre going (some (t, false)) ∧
            e.get Reg.PWR_STATUS_REPLACED = replaced drops ∧ e.power.pendCause = cause)))) ∧
    -- drain
    (let due (t : ShortTime) : Prop := d.entering = true ∧ st = 0 ∧ timeDiff (t + nsTime (d.get Reg.PWR_DRAIN_US * 1000)) d.now ≤ 0
     (∀ t, d.power.drainFrom = none ∨ (d.power.drainFrom = some t ∧ ¬due t) → Gives .drainTimeout s d) ∧
     (∀ t, d.power.drainFrom = some t → due t → Completes .drainTimeout s (fun e => e.power = { d.power with drainFrom := none } ∧
        (∀ (n : Nat) (j : Job), d.job n = some j → j.phase ≠ .taken → j.opcode ≠ 0xB0 ∨ j.phase ≠ .running →
          ∃ x, e.job n = some x ∧ x.phase = .ended ∧ x.status = stPOWER) ∧
        e.mem = d.mem ∧ e.out = d.out ∧ e.time = d.time))) ∧
    -- the end of a transition
    (d.mayComplete = false → Gives .transitionComplete s d) ∧
    (d.mayComplete = true → d.get Reg.PWR_WAKE_EN % 8 = 0 →
      (goal ≠ 4 → d.on Reg.PWR_STATUS_PENDING = false ∨ d.on Reg.PWR_STATUS_HELD = true → Completes .transitionComplete s (fun e =>
        e.devState = goal ∧ e.requestsAre none waits ∧ (∀ k < 24, e.domState k = d.domainIn goal k) ∧ ⟨0x7CA, false⟩ ∈ e.evt.queue ∧
        e.power.drainFrom = none ∧ (goal = 0 → e.power.paused = (d.power.awaitRound || decide (st = 2))) ∧ e.jfe = d.jfe ∧ e.cores = d.cores ∧
        e.tsu = d.tsu ∧ e.time = d.time ∧ e.sec = d.sec ∧ e.out = d.out)) ∧
      (goal = 4 → ¬(d.on Reg.PWR_STATUS_PENDING = true ∧ d.power.pendCause = 1) → Completes .transitionComplete s (fun e =>
        e.devState = 4 ∧ e.workLost ∧ e.requestsAre none none ∧ e.boot.due = none ∧ e.out = d.out)) ∧
      (goal = 4 → d.on Reg.PWR_STATUS_PENDING = true ∧ d.power.pendCause = 1 →
        Completes .transitionComplete s (fun e => e.coldDue 2 ∧ e.out = d.out))) ∧
    -- domains
    (let allowed := req.val = 0 ∨ ((req.val = 2 ∨ (req.val = 1 ∧ (k.val < 13 ∨ 19 ≤ k.val))) ∧ (∀ fn ∈ domainFns k, d.stopped fn = true) ∧
        ¬(k.val < 13 ∧ d.get Reg.TSU_STANDBY_ERG = k.val))
     let reached := d.reaches who (Reg.PWR_DOM_REQ k).off = true
     let begins := st = 0 ∧ busy = false ∧ d.on (Reg.PWR_DOM_BUSY k) = false ∧ d.domState k ≠ req.val
     (¬reached → Gives (.domainRequest who k req) s d) ∧
      (reached → ¬allowed → Gives (.domainRequest who k req) s (d.cfgReject who (Reg.PWR_DOM_REQ k).off)) ∧
      (reached → allowed → Completes (.domainRequest who k req) s (fun e => e.get (Reg.PWR_DOM_REQ k) = req.val ∧ e.domState k = d.domState k ∧
        (begins → e.on (Reg.PWR_DOM_BUSY k) = true ∧ lookup (fun _ => 3) e.power.domTarget k = req.val) ∧
        (¬begins → e.on (Reg.PWR_DOM_BUSY k) = d.on (Reg.PWR_DOM_BUSY k) ∧ e.power = d.power) ∧ d.powerFrame e ∧ e.evt = d.evt))) ∧
    (d.power.domTarget.find? (fun x => x.1 == k.val) = none → Gives (.domainChangeComplete k) s d) ∧
    (∀ x : Nat × Nat, d.power.domTarget.find? (fun x => x.1 == k.val) = some x → x.2 < 3 →
      (d.domState k = 0 → d.domainDrained k = false → Gives (.domainChangeComplete k) s d) ∧
      (d.domState k ≠ 0 ∨ d.domainDrained k = true → d.get (Reg.PWR_DOM_REQ k) = x.2 → Completes (.domainChangeComplete k) s (fun e =>
        e.domState k = x.2 ∧ e.on (Reg.PWR_DOM_BUSY k) = false ∧ (∀ l < 24, l ≠ k.val → e.domState l = d.domState l) ∧
        (∀ y ∈ e.power.domTarget, y.1 ≠ k.val) ∧ (x.2 ≠ 0 → d.domState k = 0 → ∀ p ∈ domainSlots k, d.slotState p ≠ 0 → e.slotState p = 3) ∧
        e.jfe = d.jfe ∧ e.cores = d.cores ∧ e.tsu = d.tsu ∧ e.time = d.time ∧ e.out = d.out))) ∧
    -- wakes
    (let awakes (c : Instr) (code : Nat) (level : Bool) (d1 : Dev) : Prop :=
      let enabled := d1.bit Reg.PWR_WAKE_EN (code - 1) = true
      (¬enabled → Gives c s d1) ∧
      (enabled → st = 4 → (d1.power.tripLow = true → Gives c s d1) ∧
        (d1.power.tripLow = false → Completes c s (fun e => e.coldDue 2 ∧ e.out = d.out))) ∧
      (enabled → st ≠ 4 → (level = true → d.entering = true → Gives c s d1) ∧
        (level = false ∨ d.entering = false → st = 1 ∨ st = 2 ∨ d.entering = true → Gives c s (powerRequest 0 1 (some code) d1)) ∧
        (d.entering = false → st ≠ 1 → st ≠ 2 → Gives c s d1))
     let low (b : Bool) : Dev := { d with power := { d.power with wakeLow := b } }
     let link (b : Bool) : Dev := { d with power := { d.power with linkWake := b } }
     let linked := d.boot.powered = true ∧ st < 3
     Gives (.wakeN false) s (low false) ∧ awakes (.wakeN true) 1 true (low true) ∧
      (¬linked → Gives (.pcieL12Exit true) s d ∧ Gives (.pcieL12Exit false) s d) ∧
      (linked → Gives (.pcieL12Exit false) s (link false) ∧ awakes (.pcieL12Exit true) 2 true (link true)) ∧
      (d.timerLevel = false → Gives .wakeTimer s d) ∧ (d.timerLevel = true → awakes .wakeTimer 3 true d) ∧
      (d.bit Reg.PWR_WAKE_GPIO i = false → Gives (.gpioWakeEdge i false) s d ∧ Gives (.gpioWakeEdge i true) s d) ∧
      (d.bit Reg.PWR_WAKE_GPIO i = true → awakes (.gpioWakeEdge i false) 4 false d ∧
        Gives (.gpioWakeEdge i true) s (if d.entering = true ∧ d.bit Reg.PWR_WAKE_EN 3 = true then
          d.set Reg.PWR_WAKE_REC_LOST_EDGES (d.get Reg.PWR_WAKE_REC_LOST_EDGES + 1) else d)))

/-- R413, R440–R442, R447, R454–R457, R463, R467, R496: a main supply failure and a thermal trip take the device out of service at once, with
an entry of the log; power brings a cold boot; the oasis domain switches its source, and a brown-out takes what it keeps; the charger's
end; retention monitors. What the rules leave open here is the model's choice (log entries 82, 83). -/
def Obligations.SupplyEvents : Prop :=
  ∀ (s : State) (holdup toMain : Bool) (n : Fin 32) (b : Fin 8) (ran : Nat),
    let d := s.dev
    let powered := d.boot.powered = true
    let st := d.devState
    -- main supplies
    (¬powered ∨ st = 3 → Gives (.mainSupplyFailure holdup) s d) ∧
    (powered → st ≠ 3 → Completes (.mainSupplyFailure holdup) s (fun e =>
      d.unpowered e 3 ∧ d.logged e 1 (d.word Reg.PWR_STATUS_STATE.off).toNat ∧ e.on Reg.PWR_SUPPLY_POWER_FAIL = true ∧
      e.on Reg.PWR_SUPPLY_PWR_GOOD = false ∧ e.get Reg.PWR_STATUS2_LAST_CAUSE = 3 ∧ e.timeState = 4 ∧ e.boot.powered = false ∧
      e.power.tripLow = false ∧ (d.domState 20 = 0 → ∀ k sig, (∃ w, (k, sig, w) ∈ e.power.sigs) ↔
        (holdup = true ∧ k < 8 ∧ d.keptBanks.getLsbD k = true ∧ sig = d.chestSignature k)) ∧
      (d.domState 20 ≠ 0 → e.power.sigs = d.power.sigs) ∧ e.sec.rootKey = d.sec.rootKey ∧ (d.sec.drawers = [] → e.sec.drawers = []))) ∧
    (powered → Gives (.powerOn ran) s d) ∧
    (¬powered → Completes (.powerOn ran) s (fun e => e.coldDue (if st = 3 then 1 else 0) ∧ e.on Reg.PWR_SUPPLY_PWR_GOOD = true ∧
      e.on Reg.PWR_SUPPLY_VAON_MAIN_OK = !d.on Reg.PWR_SUPPLY_ON_BAK ∧ e.evt.log = d.evt.log ∧
      (d.on Reg.TB_COARSE_VALID = true → e.time.coarse = d.time.coarse + ran ∧ e.time.full = (d.time.coarse + ran) * 10 ^ 9 * 2 ^ 16 / 2 ^ 15 ∧
        e.timeState = 4) ∧
      (d.on Reg.TB_COARSE_VALID = false → e.time.full = 0 ∧ e.timeState = 0) ∧ e.out = d.out)) ∧
    -- the trip
    (¬powered ∨ 3 ≤ st ∨ d.on (Reg.PWR_HK_MASK n) = true → Gives (.thermalTrip n) s d) ∧
    (powered → st < 3 → d.on (Reg.PWR_HK_MASK n) = false → Completes (.thermalTrip n) s (fun e =>
      d.unpowered e 4 ∧ d.logged e 2 n ∧ e.on Reg.PWR_SUPPLY_TRIP = true ∧ e.get Reg.PWR_STATUS2_LAST_CAUSE = 4 ∧ e.power.tripLow = true ∧
      e.boot.powered = true)) ∧
    -- the oasis domain
    (let switch := if toMain then Instr.vaonSwitchToMain else .vaonSwitchToBak
     (d.on Reg.PWR_SUPPLY_ON_BAK = !toMain → Gives switch s d) ∧
      (d.on Reg.PWR_SUPPLY_ON_BAK = toMain → Completes switch s (fun e => e.on Reg.PWR_SUPPLY_ON_BAK = !toMain ∧
        e.on Reg.PWR_SUPPLY_VAON_MAIN_OK = toMain ∧ d.logged e 3 (b2n toMain) ∧ e.bit Reg.PWR_ATTN 2 = true ∧
        (d.on Reg.PWR_CHG_EN = false → e.get Reg.PWR_CHG_STATUS_STATE = 0) ∧
        (d.on Reg.PWR_CHG_EN = true → toMain = false → e.get Reg.PWR_CHG_STATUS_STATE = 3 ∧ e.power.charging = none) ∧
        e.devState = st ∧ e.boot = d.boot ∧ e.mem = d.mem ∧ e.jfe = d.jfe ∧ e.cores = d.cores ∧ e.sec = d.sec ∧ e.time = d.time ∧
        e.out = d.out))) ∧
    (powered → st ≠ 3 → Gives .oasisBrownout s d) ∧
    (¬powered ∨ st = 3 → Completes .oasisBrownout s (fun e => e.sec.drawers = [] ∧ e.sec.rootKey = false ∧ e.evt.log = [] ∧
      e.get Reg.PWR_WAKE_REC_SOURCE = 0 ∧ e.get64 Reg.PWR_WAKE_REC_TIME = 0 ∧ e.on Reg.PWR_STATUS_PENDING = false ∧
      e.on Reg.PWR_SUPPLY_BROWNOUT = true ∧ e.power.sigs = [] ∧ e.power.retain = d.power.retain ∧ e.devState = st ∧ e.mem = d.mem ∧
      e.time = d.time ∧ e.out = d.out)) ∧
    Completes .coarseCounterStop s (fun e => e.on Reg.TB_COARSE_VALID = false ∧ e.on Reg.PWR_SUPPLY_VAON_BAK_OK = false ∧
      e.timeState = (if d.timeRuns then d.timeState else 0) ∧ d.secFrame { e with power := d.power } ∧ e.sec = d.sec ∧ e.mem = d.mem ∧
      (d.on Reg.PWR_SUPPLY_ON_BAK = false → e.power = d.power)) ∧
    -- the charger
    (let limit (t : ShortTime) : Prop := d.get Reg.PWR_CHG_STATUS_STATE = 1 ∧ d.get Reg.PWR_CHG_TIMEOUT_S ≠ 0 ∧
        timeDiff (t + nsTime (d.get Reg.PWR_CHG_TIMEOUT_S * 10 ^ 9)) d.now ≤ 0
     (∀ t, d.power.charging = none ∨ (d.power.charging = some t ∧ ¬limit t) → Gives .chargeTimeout s d) ∧
      (∀ t, d.power.charging = some t → limit t → Completes .chargeTimeout s (fun e => e.get Reg.PWR_CHG_STATUS_STATE = 3 ∧
        e.get Reg.PWR_CHG_STATUS_CAUSE = 5 ∧ e.bit Reg.PWR_ATTN 4 = true ∧ e.power = { d.power with charging := none } ∧ d.secFrame { e with power := d.power } ∧
        e.mem = d.mem)) ∧
      (d.get Reg.PWR_CHG_STATUS_STATE ≠ 1 → Gives .chargeTargetReached s d) ∧
      (d.get Reg.PWR_CHG_STATUS_STATE = 1 → Completes .chargeTargetReached s (fun e => e.get Reg.PWR_CHG_STATUS_STATE = 2 ∧
        e.power = { d.power with charging := none } ∧ d.secFrame { e with power := d.power } ∧ e.mem = d.mem ∧ e.evt = d.evt))) ∧
    -- retention
    Gives (.vddRetDip b) s { d with power := { d.power with flags := d.power.flags ||| (d.power.retain &&& BitVec.ofNat 8 (2 ^ b.val)) } } ∧
    (∀ k < 8, d.power.retain.getLsbD k = true →
      let e := d.chestReturns k
      let kept := d.power.flags.getLsbD k = false ∧ ∃ y, d.power.sigs.find? (fun x => x.1 == k) = some y ∧ y.2.1 = d.chestSignature k
      (kept → e = d) ∧ (¬kept → e.bit Reg.PWR_CHEST_RETAIN_LOST k = true ∧ e.bit Reg.PWR_ATTN 3 = true ∧
        ∀ w, e.raw w = if chestWord k ≤ w ∧ w < chestWord k + 131072 then encodeWord 0 else d.raw w))

/-- R31, R33, R35, R36, R38, R448, R458–R461, R464: a housekeeping round takes the readings, finds faulty sensors, and judges the levels of
temperature, the critical ones by the power rules; a window of the pace monitors ends; an update of the pace loop sets the target and the
command of each rail. What the rules leave open here is the model's choice (log entries 56, 84). -/
def Obligations.RoundsAndPace : Prop :=
  ∀ (s : State) (codes : List (Option Int)) (readings : List Nat) (avs : BitVec 4),
    let d := s.dev
    let took := d.timeRuns = true ∧ d.ready = true
    -- the round
    (codes.length = 64 → ¬took → Gives (.housekeepingRound codes) s d) ∧
    (codes.length = 64 → took → Completes (.housekeepingRound codes) s (fun e =>
      e.get Reg.PWR_THERM_ROUNDS = (d.get Reg.PWR_THERM_ROUNDS + 1) % 2 ^ 32 ∧ e.on Reg.PWR_THERM_FIRST_ROUND = true ∧
      e.power.rounds = ((codes.take 35) :: d.power.rounds).take 1000 ∧ e.mem = d.mem ∧ e.jfe = d.jfe ∧ e.cores = d.cores ∧ e.tsu = d.tsu ∧
      e.sec = d.sec ∧ e.time = d.time ∧ e.out = d.out ∧ e.devState = d.devState ∧
      (∀ n < 64, ∀ t : Int, codes[n]? = some (some t) → -2 ^ 15 ≤ t → t < 2 ^ 15 → signed (e.get (Reg.PWR_HK_VALUE n)) 16 = t) ∧
      (∀ n < 35,
        (codes[n]? = some none → e.on (Reg.PWR_HK_FAULT n) = true ∧
          e.get (Reg.PWR_HK_CAUSE n) = if d.on (Reg.PWR_HK_FAULT n) then d.get (Reg.PWR_HK_CAUSE n) else 2) ∧
        (∀ t : Int, codes[n]? = some (some t) →
          (t < -320 ∨ 1200 < t → e.on (Reg.PWR_HK_FAULT n) = true ∧
            e.get (Reg.PWR_HK_CAUSE n) = if d.on (Reg.PWR_HK_FAULT n) then d.get (Reg.PWR_HK_CAUSE n) else 1) ∧
          (-320 ≤ t → t ≤ 1200 → d.power.rounds.length < 999 → e.on (Reg.PWR_HK_FAULT n) = false))) ∧
      -- sound and unmasked sensors
      (∀ t : Nat → Int, d.power.rounds.length < 999 →
        (∀ n < 34, d.on (Reg.PWR_HK_MASK n) = false ∧ codes[n]? = some (some (t n)) ∧ -320 ≤ t n ∧ t n ≤ 1200) →
        ∀ J H : Int, (∀ n < 32, t n ≤ J) → (∃ n < 32, t n = J) → H = max (t 32) (t 33) →
        let level (f : Fld) (x up down : Int) : Prop := e.on f = true ↔ up ≤ x ∨ (d.on f = true ∧ down ≤ x)
        signed (e.get Reg.PWR_THERM_HOTTEST) 16 = J ∧ t (e.get Reg.PWR_THERM_HOT_SENSOR) = J ∧
        level Reg.PWR_THERM_WARN J 760 744 ∧ level Reg.PWR_THERM_CRIT J 880 800 ∧ level Reg.PWR_THERM_HBM_WARN H 680 664 ∧
        level Reg.PWR_THERM_HBM_CRIT H 760 680 ∧
        (e.on Reg.PWR_THERM_THROTTLE = true ↔ 800 ≤ J ∨ (d.on Reg.PWR_THERM_THROTTLE = true ∧ (776 ≤ J ∨ d.power.coolRounds < 99))) ∧
        (e.on Reg.PWR_THERM_HBM_THROTTLE = true ↔
          720 ≤ H ∨ (d.on Reg.PWR_THERM_HBM_THROTTLE = true ∧ (696 ≤ H ∨ d.power.hbmCoolRounds < 99))) ∧
        e.power.coolRounds = (if J < 776 then d.power.coolRounds + 1 else 0) ∧
        (∀ k < 2, e.bit Reg.HBM_STATUS_REFRESH_2X k = true ↔ 680 ≤ t (32 + k) ∨ (d.bit Reg.HBM_STATUS_REFRESH_2X k = true ∧ 664 ≤ t (32 + k))) ∧
        (e.on Reg.PWR_THERM_FUSE_OK = true ↔ ∀ n < 32, 120 ≤ t n ∧ t n ≤ 680) ∧
        (let rises := (880 ≤ J ∧ d.on Reg.PWR_THERM_CRIT = false) ∨ (760 ≤ H ∧ d.on Reg.PWR_THERM_HBM_CRIT = false)
         rises → d.devState < 3 → e.bit Reg.PWR_ATTN 5 = true ∧
          (d.on Reg.PWR_STATUS_IN_PROGRESS = false → d.devState ≤ 1 → e.requestsAre (some 2) none ∧ e.get Reg.PWR_STATUS2_LAST_CAUSE = 2) ∧
          (d.on Reg.PWR_STATUS_IN_PROGRESS = true → d.get Reg.PWR_STATUS_TARGET = 2 → e.requestsAre (some 2) none) ∧
          (d.on Reg.PWR_STATUS_IN_PROGRESS = true → d.get Reg.PWR_STATUS_TARGET ≠ 2 →
            e.requestsAre (some (d.get Reg.PWR_STATUS_TARGET)) (some (2, false)) ∧ e.power.pendCause = 2)) ∧
        (d.on Reg.PWR_THERM_CRIT = true ∨ d.on Reg.PWR_THERM_HBM_CRIT = true → J < 800 → H < 680 → d.on Reg.PWR_STATUS_PENDING = true →
          d.on Reg.PWR_STATUS_HELD = true → d.on Reg.PWR_STATUS_IN_PROGRESS = false → d.get Reg.PWR_STATUS_PENDING_TARGET ≠ d.devState →
          e.requestsAre (some (d.get Reg.PWR_STATUS_PENDING_TARGET)) none)))) ∧
    -- the monitors
    (readings.length = 64 → Completes (.monitorWindowEnd readings) s (fun e =>
      (∀ m < 64, e.get (Reg.PWR_PACE_MON_READING m) = if d.monOn m then min 2047 (readings.getD m 0) else 0) ∧
      (∀ m < 64, m ∈ e.pace.taking ↔ d.monWhole m = true) ∧ e.pace.windowed = true ∧ e.pace.broken = [] ∧
      (∀ m < 64, e.on (Reg.PWR_PACE_MON_FAULT m) = true ↔ d.on (Reg.PWR_PACE_MON_FAULT m) = true ∨
        (d.monWhole m = true ∧ (readings.getD m 0 = 0 ∨ 2047 ≤ readings.getD m 0))) ∧
      (∀ r < 4, e.get (Reg.PWR_PACE_RAIL_SETPOINT r) = d.get (Reg.PWR_PACE_RAIL_SETPOINT r)) ∧ d.powerFrame e ∧ e.power = d.power)) ∧
    -- the pace loop
    (d.pace.began = none ∨ d.pace.windowed = false → Gives (.paceLoopUpdate avs) s d) ∧
    (∀ t0, d.pace.began = some t0 → d.pace.windowed = true → d.pace.slackHigh.length = 4 → d.pace.late.length = 4 →
      Completes (.paceLoopUpdate avs) s (fun e => d.powerFrame e ∧ e.power = d.power ∧ ∀ r < 4,
        let ceil := d.get (Reg.PWR_PACE_RAIL_CEILING r)
        let T := d.get (Reg.PWR_PACE_RAIL_TARGET r)
        let T' := e.get (Reg.PWR_PACE_RAIL_TARGET r)
        let cmd := d.get (Reg.PWR_PACE_RAIL_SETPOINT r)
        let cmd' := e.get (Reg.PWR_PACE_RAIL_SETPOINT r)
        let lo := d.get Reg.PWR_PACE_SLACK_SLACK_LO
        let hi := d.get Reg.PWR_PACE_SLACK_SLACK_HI
        let throttle := d.on Reg.PWR_THERM_THROTTLE = true ∨ d.on Reg.PWR_THERM_HBM_THROTTLE = true
        let boost := d.on Reg.PWR_PACE_CTL_BOOST_EN = true ∧ (d.slack r < lo ∨ d.pace.late.getD r false = true)
        let relaxed := lo < hi ∧ hi < d.slack r ∧ 9 ≤ d.pace.slackHigh.getD r 0
        let rail := railMonitors r
        600 ≤ cmd' ∧ cmd' ≤ max 600 ceil ∧ e.pace.late.getD r true = false ∧
        (e.bit Reg.PWR_PACE_STATUS_AT_CEIL r = true ↔ cmd' = ceil) ∧ e.bit Reg.PWR_PACE_STATUS_AVS_FAULT r = avs.getLsbD r ∧
        T' = (if throttle then 891 else if boost then min (T + 16) (d.get Reg.PWR_PACE_TGT_MAX_TGT_MAX)
          else if relaxed then max (T - 8) 891 else T) ∧
        ((∀ m ∈ rail, m ∉ d.pace.taking) → cmd' = 600) ∧
        ((∃ m ∈ rail, m ∈ d.pace.taking) → d.on Reg.PWR_PACE_CTL_ENABLE = false ∨ avs.getLsbD r = true ∨
          d.bit Reg.PWR_PACE_STATUS_MON_FAULT r = true → cmd' = max 600 ceil) ∧
        (d.on Reg.PWR_PACE_CTL_ENABLE = true → avs.getLsbD r = false → d.bit Reg.PWR_PACE_STATUS_MON_FAULT r = false →
          (∀ m ∈ rail, d.on (Reg.PWR_PACE_MON_FAULT m) = false ∧ 0 < d.reading m ∧ d.reading m < 2047 ∧
            ∀ l ∈ rail, d.reading m ≤ d.reading l + 128) →
          ∀ m ∈ rail, m ∈ d.pace.taking → (∀ l ∈ rail, l ∈ d.pace.taking → d.reading m ≤ d.reading l) →
            let P := d.reading m
            e.get (Reg.PWR_PACE_RAIL_PACE_MIN r) = P ∧ (e.bit Reg.PWR_PACE_STATUS_SHORT r = true ↔ P < 871) ∧
            cmd' = max 600 (min ceil (if P + 32 < T' then cmd + 25 else if P < T' then cmd + 10 else if P ≤ T' + 24 then cmd else cmd - 5)))))

/-- R431, R469–R471, R372, R376, R430, R432, R455, R467, R468, R482, R485: what starts a cold or a warm boot; an image is accepted by the
rule's conditions, and the accepted one of higher SVN starts; a boot runs to READY, or waits for the host's image of a TYPE. What the
rules leave open here is the model's choice (log entries 85, 86). -/
def Obligations.ResetsAndBoot : Prop :=
  ∀ (s : State) (who : Accessor) (input : BootInput) (digestOk sigOk : Bool),
    let d := s.dev
    let powered := d.boot.powered = true
    let st := d.devState
    let restarts (c : Instr) (cause : Nat) : Prop :=
      (d.boot.due = some true → Completes c s (fun e => e.coldDue d.boot.cause ∧ e.out = d.out)) ∧
      (d.boot.due ≠ some true → Completes c s (fun e => d.warmDue e cause ∧ e.sec.drawers.length = d.sec.drawers.length ∧
        e.sec.rootKey = d.sec.rootKey ∧ e.evt.log = d.evt.log ∧ e.out = d.out))
    -- causes
    (d.boot.perst = false → Gives .perstNFall s d) ∧
    (d.boot.perst = true → ¬powered ∨ d.boot.seenHigh = false ∨ 3 ≤ st →
      Gives .perstNFall s { d with boot := { d.boot with perst := false } }) ∧
    (d.boot.perst = true → powered → d.boot.seenHigh = true → st < 3 → restarts .perstNFall 3) ∧
    (powered → st = 4 → d.power.tripLow = false → Completes .perstNRise s (fun e => e.coldDue 2 ∧ e.boot.perst = true ∧ e.out = d.out)) ∧
    (¬powered ∨ st ≠ 4 ∨ d.power.tripLow = true →
      Gives .perstNRise s { d with boot := { d.boot with perst := true, seenHigh := d.boot.seenHigh || d.boot.powered } }) ∧
    (d.reaches who Reg.GLB_RESET_WARM.off = false → Gives (.warm who) s d) ∧
    (d.reaches who Reg.GLB_RESET_WARM.off = true → who ≠ .secure → Gives (.warm who) s (d.regViolation who Reg.GLB_RESET_WARM.off)) ∧
    (d.reaches .secure Reg.GLB_RESET_WARM.off = true → restarts (.warm .secure) 4) ∧
    (let on := d.on Reg.STW_STATE_SS_RUN = true ∧ st < 2 ∧ d.get Reg.STW_WDOG_SS_MS ≠ 0
     (¬on → Gives .secureWatchdogExpiry s d) ∧ (on → restarts .secureWatchdogExpiry 5)) ∧
    (let on := d.on Reg.STW_STATE_NS_RUN = true ∧ st < 2 ∧ d.get Reg.STW_WDOG_NS_MS ≠ 0
     (¬on → Gives .nsWatchdogExpiry s d) ∧
      (on → Completes .nsWatchdogExpiry s (fun e => e.get Reg.STW_STATE_NS_RESTARTS = (d.get Reg.STW_STATE_NS_RESTARTS + 1) % 2 ^ 16 ∧
        e.evt.queue = d.evt.queue ++ [⟨0x705, d.sourceWorld 0x705⟩] ∧ d.secFrame e ∧ e.mem = d.mem ∧ e.sec = d.sec ∧ e.boot = d.boot))) ∧
    -- images
    (∀ (want fused : Nat) (revoked : BitVec 4) (x : ImageIn), imageCode want fused revoked x = none ↔
      (x.read = true ∧ x.magic = 0x39485259#32 ∧ x.type.toNat = want ∧ x.len.toNat + 8192 ≤ 4 * 2 ^ 20 ∧ x.keySlot.toNat < 4 ∧
        x.digestOk = true ∧ revoked.getLsbD x.keySlot.toNat = false ∧ x.sigOk = true ∧ fused ≤ x.svn.toNat)) ∧
    (∀ (ca cb : Option Nat) (a b : ImageIn),
      (chooseSlot ca cb a b = none ↔ ca ≠ none ∧ cb ≠ none) ∧
      (∀ i v, chooseSlot ca cb a b = some (i, v) → (i = 0 ∧ ca = none ∧ v = a.svn.toNat ∧ (cb = none → b.svn.toNat ≤ v)) ∨
        (i = 1 ∧ cb = none ∧ v = b.svn.toNat ∧ (ca = none → a.svn.toNat < v)))) ∧
    -- the boot
    (input.codes.length = 64 → (d.boot.due = none ∨ ¬powered ∨ d.boot.input ≠ none ∨ (d.boot.due = some false ∧ d.boot.perst = false)) →
      Gives (.bootSequence input) s d) ∧
    (input.codes.length = 64 → powered → d.boot.input = none → d.boot.cause < 16 → ∀ cold : Bool, d.boot.due = some cold →
      (cold = true ∨ d.boot.perst = true) →
      let slot (k : Nat) : ImageIn := input.slots.getD k noImage
      let svnSs := max d.sec.svnSs input.svnSs
      let svnNs := max d.sec.svnNs input.svnNs
      let code (want k : Nat) : Option Nat := imageCode want (if want = 1 then svnSs else svnNs) (d.sec.revoked ||| input.revoked) (slot k)
      let ss := chooseSlot (code 1 0) (code 1 1) (slot 0) (slot 1)
      let ns := chooseSlot (code 2 2) (code 2 3) (slot 2) (slot 3)
      let chest (k w : Nat) : Prop := d.power.retain.getLsbD k = true ∧ chestWord k ≤ w ∧ w < chestWord k + 131072
      let common (e : Dev) : Prop := e.get Reg.GLB_RESET_CAUSE = d.boot.cause ∧ d.logged e 5 d.boot.cause ∧
        e.on Reg.SEC_STATUS_CABINET_OK = (if cold then input.keysOk else d.sec.rootKey) ∧ e.on Reg.SEC_STATUS_HBM_KEY_OK = true ∧
        e.sec.svnSs = svnSs ∧ e.sec.svnNs = svnNs ∧ e.on Reg.SEC_STATUS_OWNER_LOCKED = (d.sec.ownerLocked || input.ownerLocked) ∧
        e.get (Reg.GLB_BOOT_REJECT 0) = (code 1 0).getD 0 ∧ e.get (Reg.GLB_BOOT_REJECT 1) = (code 1 1).getD 0 ∧
        (cold = true → e.get Reg.GLB_ID_DEVID = input.strap.toNat) ∧ e.boot.powered = true ∧ e.out = d.out
      (ss = none → Completes (.bootSequence input) s (fun e => common e ∧ e.get Reg.GLB_BOOT_STAGE = 3 ∧ e.boot.input = some input ∧
        e.boot.due = some cold ∧ ∀ b < 4, ∀ w, (Region.mesa b).firstWord ≤ w → w < (Region.mesa b).firstWord + 131072 →
          e.raw w = encodeWord 0)) ∧
      (∀ i v, ss = some (i, v) →
        (ns = none → Completes (.bootSequence input) s (fun e => common e ∧ e.get Reg.GLB_BOOT_STAGE = 6 ∧ e.boot.input = some input ∧
          e.boot.due = some cold ∧ e.get Reg.GLB_BOOT_SS_SOURCE = i + 1 ∧ e.on Reg.STW_STATE_SS_RUN = true)) ∧
        (∀ i' v', ns = some (i', v') → Completes (.bootSequence input) s (fun e => common e ∧ e.ready = true ∧ e.boot.input = none ∧
          e.boot.due = none ∧ e.get Reg.GLB_BOOT_SS_SOURCE = i + 1 ∧ e.get Reg.GLB_BOOT_NS_SOURCE = i' + 1 ∧
          e.get Reg.SEC_SVN_RUN_SS = v % 2 ^ 7 ∧ e.get Reg.SEC_SVN_RUN_NS = v' % 2 ^ 7 ∧ e.on Reg.STW_STATE_SS_RUN = true ∧
          e.on Reg.STW_STATE_NS_RUN = true ∧ e.get64 Reg.GLB_READY_TIME = d.now.toNat ∧ ⟨0x706, false⟩ ∈ e.evt.queue ∧
          e.on Reg.PWR_THERM_FIRST_ROUND = true ∧ (∀ w, (∀ k < 8, ¬chest k w) → e.raw w = encodeWord 0) ∧
          (∀ k < 8, ∀ w y, chest k w → d.power.flags.getLsbD k = false → d.power.sigs.filter (fun x => x.1 == k) = [y] →
            y.2.1 = d.chestSignature k → y.2.2 = 0 → e.raw w = d.raw w))))) ∧
    -- the host's image
    (let c := Instr.glbBootHostGo who digestOk sigOk
     let reached := d.reaches who Reg.GLB_BOOT_HOST_GO.off = true
     (¬reached ∨ d.boot.input = none → Gives c s d) ∧
      (reached → ∀ b, d.boot.input = some b →
        let found := d.hostImage digestOk sigOk
        let x := if d.get Reg.GLB_BOOT_HOST_LEN < found.len.toNat + 8192 then { found with len := 0xFFFFFFFF } else found
        let want := if d.get Reg.GLB_BOOT_STAGE = 3 then 1 else 2
        let code := imageCode want (d.fusedSvn want) d.sec.revoked x
        (∀ n, code = some n → Completes c s (fun e => e.get Reg.GLB_BOOT_ERROR = n ∧ e.on Reg.GLB_BOOT_HOST_GO = false ∧
          e.boot = d.boot ∧ e.get Reg.GLB_BOOT_STAGE = d.get Reg.GLB_BOOT_STAGE ∧ e.mem = d.mem ∧ e.sec = d.sec ∧ d.secFrame e)) ∧
        (code = none → d.get Reg.GLB_BOOT_STAGE = 3 → Completes c s (fun e => e.get Reg.GLB_BOOT_ERROR = 0 ∧
          e.on Reg.GLB_BOOT_HOST_GO = false ∧ e.get Reg.GLB_BOOT_SS_SOURCE = 3 ∧ e.on Reg.STW_STATE_SS_RUN = true ∧
          (e.get Reg.GLB_BOOT_STAGE = 6 ∨ e.ready = true))) ∧
        (code = none → d.get Reg.GLB_BOOT_STAGE ≠ 3 → Completes c s (fun e => e.get Reg.GLB_BOOT_ERROR = 0 ∧
          e.on Reg.GLB_BOOT_HOST_GO = false ∧ e.get Reg.GLB_BOOT_NS_SOURCE = 3 ∧ e.on Reg.STW_STATE_NS_RUN = true ∧ e.ready = true ∧
          e.boot.due = none ∧ e.boot.input = none ∧ ⟨0x706, false⟩ ∈ e.evt.queue ∧ e.mem = d.mem))))

/-- R473–R478, R481, R483, R485: an occurrence latches, counts and is delivered to its target when it makes its source pending; a clear of
LATCHED; MSI-X messages, masked, deferred and owed; the log's selection; steward mailboxes; the PCIe link. What the rules leave open here
is the model's choice (log entries 20, 87). -/
def Obligations.EventCommands : Prop :=
  ∀ (s : State) (who : Accessor) (n v : Fin 2048) (f : Fin 64) (i : Fin 2) (seq : BitVec 32) (result : BitVec 8)
      (reply : List (BitVec 32)) (speed : BitVec 4) (width : BitVec 5) (l12 : Bool) (errors : BitVec 2),
    let d := s.dev
    let counts (k : Nat) : Nat := (d.get (Reg.EVT_SRC_COUNT n) + k) % 2 ^ 16
    let key (f v : Nat) : Nat := 4096 * f + v
    let size (f : Nat) : Nat := if f = 0 then 2048 else 64
    let sends (f v : Nat) : Prop := d.evt.enabled.getLsbD f = true ∧ d.evt.fnMask.getLsbD f = false ∧ (d.vector f v).masked = false ∧
      d.jfe.busMaster.getLsbD f = true
    let message (f v : Nat) : Out := .message f v (d.vector f v).addr (d.vector f v).data
    -- occurrences
    (d.evt.queue.find? (fun o => o.source == n.val) = none → Gives (.eventPacket n) s d) ∧
    (∀ o, d.evt.queue.find? (fun o => o.source == n.val) = some o →
      (d.fabricTakes n = false → Gives (.eventPacket n) s d) ∧
      (d.fabricTakes n = true →
        let kind := d.get (Reg.EVT_SRC_KIND n)
        let delivers := d.on (Reg.EVT_SRC_EN n) = true ∧ d.on (Reg.EVT_SRC_LATCHED n) = false
        let F := d.get (Reg.EVT_SRC_FUNC n)
        let V := d.get (Reg.EVT_SRC_VECTOR n)
        let latched (e : Dev) : Prop := e.on (Reg.EVT_SRC_LATCHED n) = true ∧ e.get (Reg.EVT_SRC_COUNT n) = counts 1 ∧
          e.on (Reg.EVT_SRC_WORLD n) = o.world ∧ e.mem = d.mem ∧ e.noc = d.noc ∧ e.sec = d.sec ∧ e.eth = d.eth ∧ e.time = d.time
        (¬delivers ∨ kind = 0 → Completes (.eventPacket n) s (fun e => latched e ∧ e.evt.queue = d.evt.queue.erase o ∧ e.out = d.out ∧
          e.evt.toSteward = d.evt.toSteward ∧ e.tsu = d.tsu ∧ e.power = d.power)) ∧
        (delivers → kind = 2 ∨ kind = 3 → Completes (.eventPacket n) s (fun e => latched e ∧ e.evt.queue = d.evt.queue.erase o ∧
          e.out = d.out ∧ e.evt.toSteward = d.evt.toSteward ++ [(decide (kind = 2), n.val)])) ∧
        (delivers → kind = 1 →
          (size F ≤ V → Completes (.eventPacket n) s (fun e => latched e ∧ e.out = d.out ∧
            e.get Reg.EVT_BAD_TARGET = (d.get Reg.EVT_BAD_TARGET + 1) % 2 ^ 32 ∧ e.evt.toSteward = d.evt.toSteward)) ∧
          (V < size F → ¬sends F V → Completes (.eventPacket n) s (fun e => latched e ∧ e.out = d.out ∧ key F V ∈ e.evt.pba)) ∧
          (V < size F → sends F V → d.withinSpacing F V = true → Completes (.eventPacket n) s (fun e => latched e ∧ e.out = d.out ∧
            e.on (Reg.EVT_VEC_DEFERRED F V) = true)) ∧
          (V < size F → sends F V → d.withinSpacing F V = false → Completes (.eventPacket n) s (fun e => latched e ∧
            e.out = d.out ++ [message F V] ∧ key F V ∉ e.evt.pba)))) ) ∧
    -- LATCHED cleared
    (let off := (Reg.EVT_SRC_LIVE n).off
     let secure := d.on (Reg.EVT_SRC_WORLD n) = true
     let c := Instr.evtLatchedClear who n
     let vf := ∃ g : Fin 64, who = .func g ∧ g ≠ 0
     let page (g : Fin 64) : Prop := ¬secure ∧ ∃ j < 64, d.on (Reg.EVT_FN_MAP_VALID g j) = true ∧ d.get (Reg.EVT_FN_MAP_SOURCE g j) = n.val
     let may := (¬vf ∧ d.reaches who off = true ∧ (secure → who = .secure)) ∨ (∃ g, who = .func g ∧ g ≠ 0 ∧ d.served who off = true ∧ page g)
     (¬may → ¬(¬vf ∧ d.reaches who off = true) → Gives c s d) ∧
      (¬vf → d.reaches who off = true → secure → who ≠ .secure → Gives c s (d.regViolation who off)) ∧
      (may → n.val ∉ d.evt.live → Gives c s (d.set (Reg.EVT_SRC_LATCHED n) 0)) ∧
      (may → n.val ∈ d.evt.live → d.get (Reg.EVT_SRC_KIND n) = 0 ∨ d.on (Reg.EVT_SRC_EN n) = false → Completes c s (fun e =>
        e.on (Reg.EVT_SRC_LATCHED n) = true ∧ e.get (Reg.EVT_SRC_COUNT n) = counts 1 ∧ e.evt.queue = d.evt.queue ∧ e.mem = d.mem ∧
        e.out = d.out))) ∧
    -- vectors
    (let held := d.evt.pba.contains (key f v) = true ∧ d.evt.enabled.getLsbD f = true ∧ d.evt.fnMask.getLsbD f = false ∧
        d.jfe.busMaster.getLsbD f = true ∧ d.withinSpacing f v = false
     (size f ≤ v.val ∨ d.served (.func f) 0x1400000 = false → Gives (.msixUnmask f v) s d) ∧
      (v.val < size f → d.served (.func f) 0x1400000 = true → Completes (.msixUnmask f v) s (fun e => (e.vector f v).masked = false ∧
        (e.vector f v).addr = (d.vector f v).addr ∧ (e.vector f v).data = (d.vector f v).data ∧
        (held → e.out = d.out ++ [message f v] ∧ key f v ∉ e.evt.pba) ∧ (¬held → e.out = d.out ∧ e.evt.pba = d.evt.pba) ∧
        e.regs = d.regs ∧ e.mem = d.mem ∧ e.jfe = d.jfe))) ∧
    (let c := Instr.moderationIntervalEnd f v
     let fires := d.evt.pba.contains (key f v) = true ∨ (d.on (Reg.EVT_VEC_DEFERRED f v) = true ∧ ∃ m < 2048,
        d.on (Reg.EVT_SRC_LATCHED m) = true ∧ d.on (Reg.EVT_SRC_EN m) = true ∧ d.get (Reg.EVT_SRC_KIND m) = 1 ∧
        d.get (Reg.EVT_SRC_FUNC m) = f.val ∧ d.get (Reg.EVT_SRC_VECTOR m) = v.val)
     (size f ≤ v.val ∨ d.withinSpacing f v = true → Gives c s d) ∧
      (v.val < size f → d.withinSpacing f v = false → Completes c s (fun e => e.on (Reg.EVT_VEC_DEFERRED f v) = false ∧
        (fires → sends f v → e.out = d.out ++ [message f v] ∧ key f v ∉ e.evt.pba) ∧
        (fires → ¬sends f v → e.out = d.out ∧ key f v ∈ e.evt.pba) ∧ (¬fires → e.out = d.out ∧ e.evt = d.evt) ∧ e.mem = d.mem ∧
        e.jfe = d.jfe))) ∧
    -- the log, the mailboxes, the link
    (d.reaches who Reg.EVT_LOG_SEL.off = true → Gives (.evtLogSel who seq) s (d.set Reg.EVT_LOG_SEL seq.toNat)) ∧
    (d.reaches who Reg.EVT_LOG_SEL.off = false → Gives (.evtLogSel who seq) s d) ∧
    (let off := (Reg.STW_MB_SEND i).off
     (d.reaches who off = false → Gives (.stwMbSend who i) s d) ∧
      (d.reaches who off = true → d.on (Reg.STW_MB_BUSY i) = true → Gives (.stwMbSend who i) s (d.cfgReject who off)) ∧
      (d.reaches who off = true → d.on (Reg.STW_MB_BUSY i) = false → Completes (.stwMbSend who i) s (fun e =>
        e.on (Reg.STW_MB_BUSY i) = true ∧ e.get (Reg.STW_MB_RESULT i) = d.get (Reg.STW_MB_RESULT i) ∧
        (∀ w, w ≠ (Reg.STW_MB_BUSY i).off → e.word w = d.word w) ∧ e.mem = d.mem ∧ e.evt = d.evt ∧ d.secFrame e))) ∧
    (reply.length ≤ 64 →
      let on := d.on (Reg.STW_MB_BUSY i) = true ∧ d.devState < 2 ∧
        d.on (if i.val = 0 then Reg.STW_STATE_SS_RUN else Reg.STW_STATE_NS_RUN) = true
      (¬on → Gives (.stwMbDone i result reply) s d) ∧
      (on → Completes (.stwMbDone i result reply) s (fun e => e.on (Reg.STW_MB_BUSY i) = false ∧ e.on (Reg.STW_MB_DONE i) = true ∧
        e.get (Reg.STW_MB_RESULT i) = result.toNat ∧ e.on (Reg.STW_MB_ATTN_DONE i) = true ∧
        (∀ w < 64, e.word (Reg.STW_MB_DATA i w).off = reply.getD w (d.word (Reg.STW_MB_DATA i w).off)) ∧
        e.evt.queue = d.evt.queue ++ [⟨0x703 + i.val, d.sourceWorld (0x703 + i.val)⟩] ∧ e.mem = d.mem ∧ d.secFrame e))) ∧
    (let c := Instr.pcieLink speed width l12 errors
     (d.boot.powered = false ∨ 3 ≤ d.devState → Gives c s d) ∧
      (d.boot.powered = true → d.devState < 3 → Completes c s (fun e => e.get Reg.GLB_PCIE_SPEED = speed.toNat ∧
        e.get Reg.GLB_PCIE_WIDTH = width.toNat ∧ e.on Reg.GLB_PCIE_L12 = l12 ∧
        (∀ k < 2, e.bit Reg.GLB_PCIE_ATTN k = (d.bit Reg.GLB_PCIE_ATTN k || errors.getLsbD k)) ∧
        (d.get Reg.GLB_PCIE_SPEED ≠ speed.toNat ∨ d.get Reg.GLB_PCIE_WIDTH ≠ width.toNat → ⟨0x700, false⟩ ∈ e.evt.queue) ∧
        e.mem = d.mem ∧ d.secFrame e)))

/-- R8–R12, R47–R49, R80, R477: a register write of another size, off its alignment or out of reach writes nothing; each field of a word
takes what its access code gives it; a write to an RWS field whose function is not STOPPED is rejected; the (S) fields are the secure
world's; eight bytes are two words; Bus Master Enable and the MSI-X control bits are their function's. What the rules leave open here is
the model's choice (log entries 17, 18, 19). -/
def Obligations.RegisterWrites : Prop :=
  ∀ (s : State) (who : Accessor) (f : Fin 64) (off size : Nat) (value : BitVec 64) (v : BitVec 32),
    let d := s.dev
    let write (n : Nat) (x : BitVec 64) : Instr := .registerWrite who .bar off n x
    let secure := who = .secure
    let fs := fieldsAt off
    let word := v.zeroExtend 64
    let plain := plainWord off = true ∧ d.reaches who off = true ∧ off % 4 = 0 ∧ off < 0x2000000
    let keeps (e : Dev) : Prop := (∀ w, w ≠ off → e.word w = d.word w) ∧ e.sec = d.sec ∧ e.mem = d.mem ∧ d.secFrame e
    let new (xs : List (FieldSpec × Nat)) : BitVec 32 := BitVec.ofNat 32 (d.wordAfter off v.toNat xs)
    -- what writes nothing
    (off % 4 ≠ 0 ∨ (size ≠ 4 ∧ size ≠ 8) → Gives (write size value) s d) ∧
    (d.served who off = false → wholeMap who = true → Gives (write 4 value) s d) ∧
    (0x2000000 ≤ off → wholeMap who = true → Gives (write 4 value) s d) ∧
    (wholeMap who = false → d.served who 0x100000 = false → Gives (write 4 value) s d) ∧
    (∀ g : Fin 64, who = .func g → g ≠ 0 → (off < 0x4000 → d.get (Reg.JFE_SQ_CFG_FUNC (off / 0x40)) ≠ g.val → Gives (write 4 value) s d) ∧
      (0x4000 ≤ off → off < 0x8000 → d.get (Reg.JFE_CQ_CFG_FUNC ((off - 0x4000) / 0x40)) ≠ g.val → Gives (write 4 value) s d) ∧
      (0x9D00 ≤ off → Gives (write 4 value) s d)) ∧
    -- a word
    (plain → secure ∨ (∀ x ∈ fs, x.1.sec = false) →
      (d.rwsRefused fs = false → Completes (write 4 word) s (fun e => e.word off = new fs ∧ keeps e)) ∧
      (d.rwsRefused fs = true → off ∉ [Reg.GLB_CFG_REJECT_ADDR.off, Reg.GLB_CFG_REJECT_FUNC.off, Reg.GLB_CFG_REJECT_COUNT.off] →
        Completes (write 4 word) s (fun e => e.word off = new fs ∧
          e.get Reg.GLB_CFG_REJECT_COUNT = (d.get Reg.GLB_CFG_REJECT_COUNT + 1) % 2 ^ 32 ∧ e.on Reg.GLB_CFG_REJECT_VALID = true ∧
          (d.on Reg.GLB_CFG_REJECT_VALID = false → e.get Reg.GLB_CFG_REJECT_ADDR = off % 2 ^ 26) ∧ e.mem = d.mem ∧ e.sec = d.sec ∧
          d.secFrame e))) ∧
    (plain → ¬secure → fs ≠ [] → (∀ x ∈ fs, x.1.sec = true) → Gives (write 4 word) s (d.regViolation who off)) ∧
    (plain → ¬secure → (∃ x ∈ fs, x.1.sec = false) →
      let mine := fs.filter (fun x => !x.1.sec)
      let hidden := maskOf ((fs.filter (fun x => x.1.sec)).map (·.1))
      d.rwsRefused mine = false → v.toNat &&& hidden = 0 →
        Completes (write 4 word) s (fun e => e.word off = new mine ∧ keeps e)) ∧
    (∀ xs : List (FieldSpec × Nat), Apart xs → ∀ x ∈ xs,
      let old := bitsOf (d.word off).toNat x.1.lo x.1.w
      let val := ranged off x.1.lo (bitsOf v.toNat x.1.lo x.1.w)
      bitsOf (d.wordAfter off v.toNat xs) x.1.lo x.1.w = (match x.1.acc with
        | .rw => val
        | .w1c => old &&& (val ^^^ (2 ^ x.1.w - 1))
        | .rws => if d.get ⟨x.2, 4, 2⟩ = 0 then val else old
        | .rwl => if (off, x.1.lo) ∈ d.locked then old else val
        | .ro | .wo | .ctl | .row => old) % 2 ^ x.1.w) ∧
    -- eight bytes
    (off % 4 = 0 → ∀ d1, Gives (write 4 (value % 2 ^ 32)) s d1 →
      ∀ d2, Gives (.registerWrite who .bar (off + 4) 4 (value >>> 32)) { s with dev := d1 } d2 → Gives (write 8 value) s d2) ∧
    -- configuration space
    (∀ sp : RegSpace, sp ≠ .bar → (∀ g, who ≠ .func g) → Gives (.registerWrite who sp off size value) s d) ∧
    (∀ sp : RegSpace, sp ≠ .bar → d.served (.func f) 0 = false → Gives (.registerWrite (.func f) sp off size value) s d) ∧
    (d.served (.func f) 0 = true →
      (d.jfe.busMaster.getLsbD f = value.getLsbD 0 → Gives (.registerWrite (.func f) .busMaster off size value) s d) ∧
      (d.jfe.busMaster.getLsbD f = true → value.getLsbD 0 = false → ∀ e, Gives (.busMasterEnableClear f) s e →
        Gives (.registerWrite (.func f) .busMaster off size value) s e) ∧
      (d.jfe.busMaster.getLsbD f = false → value.getLsbD 0 = true → Completes (.registerWrite (.func f) .busMaster off size value) s (fun e =>
        (∀ g < 64, e.jfe.busMaster.getLsbD g = (d.jfe.busMaster.getLsbD g || decide (g = f.val))) ∧ e.regs = d.regs ∧ e.mem = d.mem)) ∧
      Completes (.registerWrite (.func f) .msix off size value) s (fun e => e.regs = d.regs ∧ e.mem = d.mem ∧ e.jfe = d.jfe ∧
        ∀ g < 64, e.evt.enabled.getLsbD g = (if g = f.val then value.getLsbD 1 else d.evt.enabled.getLsbD g) ∧
          e.evt.fnMask.getLsbD g = (if g = f.val then value.getLsbD 0 else d.evt.fnMask.getLsbD g)))

/-- A step takes the command at the front of the queue: it is exec of that command on the state with the queue's rest. With no command
waiting the block idles. What the rules leave open here is the model's choice (log entries 1, 2). -/
def Obligations.StepTakesFront : Prop :=
  ∀ (c : Instr) (rest : List Instr) (s : State),
    step { s with pending := c :: rest } = exec c { s with pending := rest } ∧ (s.pending = [] → step s = .next s)

/-- R81, R88, R376, R467: after reset no command waits, memory and the queue are in their form, no job, task or event exists, power is off
and every register reads the value its table gives for reset. What the rules leave open here is the model's choice (log entries 6, 11,
12, 13). -/
def Obligations.ResetState : Prop :=
  State.reset.pending = [] ∧ State.reset.queueWf = true ∧ State.reset.memWf = true ∧ State.reset.dev.jfe.jobs = [] ∧
    State.reset.dev.tsu.tasks = [] ∧ State.reset.dev.evt.queue = [] ∧ State.reset.dev.boot.powered = false ∧
    State.reset.dev.get Reg.GLB_BOOT_STAGE = 0 ∧ State.reset.dev.get Reg.GLB_ID_REV = 2 ∧ State.reset.dev.get Reg.GLB_ID_PART = 0x9612 ∧
    State.reset.dev.get Reg.PWR_DRAIN_US = 1000 ∧ State.reset.dev.get Reg.PWR_WAKE_EN = 3 ∧
    State.reset.dev.get Reg.TSU_STANDBY_ERG = 12 ∧ State.reset.dev.get Reg.STW_WDOG_SS_MS = 1000 ∧
    ∀ off, State.reset.dev.word off = regReset off

/-- The commands that wait stay well formed, and no well-formed command ends a run: from every state whose waiting commands the device can
meet, k steps have done the first k of them, in order, with neither a fault nor a refusal. What the rules leave open here is the model's
choice (log entries 1, 2, 4). -/
def Obligations.QueueRuns : Prop :=
  ∀ (k : Nat) (s : State), s.queueWf = true →
    ∃ t, s.runsTo k t ∧ t.queueWf = true ∧ t.pending = s.pending.drop k ∧
      (k < s.pending.length → ∀ c, s.pending[k]? = some c → ∃ u, exec c { t with pending := s.pending.drop (k + 1) } = .next u ∧
        s.runsTo (k + 1) u)
end

