-- ==== Sys2Proof/Laws/Sparse.lean ====
section
/-! SUPPORT. Laws of the sparse maps that hold registers, memory and tables: a read after a write, and the canonical form. -/

namespace Sys2Proof.Machine

variable {α : Type}

theorem lookup_dropKey_self (dflt : Nat → α) (m : List (Nat × α)) (k : Nat) : lookup dflt (dropKey k m) k = dflt k := by
  induction m with
  | nil => rfl
  | cons x m ih =>
    obtain ⟨k', v⟩ := x
    by_cases h : k' = k <;> simp [dropKey, lookup, h, ih]

theorem lookup_dropKey_ne (dflt : Nat → α) (m : List (Nat × α)) {k j : Nat} (h : j ≠ k) :
    lookup dflt (dropKey k m) j = lookup dflt m j := by
  induction m with
  | nil => rfl
  | cons x m ih =>
    obtain ⟨k', v⟩ := x
    by_cases hk : k' = k
    · subst hk
      simp [dropKey, lookup, ih, Ne.symm h]
    · simp [dropKey, lookup, hk, ih]

theorem lookup_putKey_ne (dflt : Nat → α) (m : List (Nat × α)) (v : α) {k j : Nat} (h : j ≠ k) :
    lookup dflt (putKey k v m) j = lookup dflt m j := by
  induction m with
  | nil => simp [putKey, lookup, Ne.symm h]
  | cons x m ih =>
    obtain ⟨k', v'⟩ := x
    by_cases hk : k < k' <;> simp [putKey, lookup, hk, ih, Ne.symm h]

theorem lookup_putKey_dropKey_self (dflt : Nat → α) (m : List (Nat × α)) (k : Nat) (v : α) :
    lookup dflt (putKey k v (dropKey k m)) k = v := by
  induction m with
  | nil => simp [putKey, dropKey, lookup]
  | cons x m ih =>
    obtain ⟨k', v'⟩ := x
    by_cases h : k' = k
    · simpa [dropKey, h] using ih
    · by_cases hk : k < k' <;> simp [dropKey, putKey, lookup, h, hk, ih]

/-- A read of the key just written. -/
@[simp] theorem lookup_update_self [DecidableEq α] (dflt : Nat → α) (m : List (Nat × α)) (k : Nat) (v : α) :
    lookup dflt (update dflt m k v) k = v := by
  by_cases h : v = dflt k
  · simp [update, h, lookup_dropKey_self]
  · simp [update, h, lookup_putKey_dropKey_self]

/-- A read of another key. -/
theorem lookup_update_ne [DecidableEq α] (dflt : Nat → α) (m : List (Nat × α)) (v : α) {k j : Nat} (h : j ≠ k) :
    lookup dflt (update dflt m k v) j = lookup dflt m j := by
  by_cases hv : v = dflt k
  · simp [update, hv, lookup_dropKey_ne dflt m h]
  · simp [update, hv, lookup_putKey_ne dflt _ v h, lookup_dropKey_ne dflt m h]

/-- The canonical form in two parts: rising keys, and no entry that an unlisted key would read as. -/
theorem canonical_iff [DecidableEq α] (dflt : Nat → α) (m : List (Nat × α)) :
    canonical dflt m = true ↔ m.Pairwise (fun x y => x.1 < y.1) ∧ ∀ x ∈ m, x.2 ≠ dflt x.1 := by
  induction m with
  | nil => simp [canonical]
  | cons x m ih =>
    obtain ⟨k, v⟩ := x
    cases m with
    | nil => simp [canonical]
    | cons y m =>
      obtain ⟨k', v'⟩ := y
      simp only [canonical, Bool.and_eq_true, decide_eq_true_eq, ih, List.pairwise_cons]
      constructor
      · rintro ⟨⟨hv, hk⟩, ⟨h1, h2⟩, h3⟩
        refine ⟨⟨?_, h1, h2⟩, ?_⟩
        · intro z hz
          rcases List.mem_cons.1 hz with rfl | hz
          · exact hk
          · exact Nat.lt_trans hk (h1 z hz)
        · intro z hz
          rcases List.mem_cons.1 hz with rfl | hz
          · exact hv
          · exact h3 z hz
      · rintro ⟨⟨h1, h2, h3⟩, h4⟩
        exact ⟨⟨h4 (k, v) (by simp), h1 (k', v') (by simp)⟩, ⟨h2, h3⟩, fun z hz => h4 z (List.mem_cons_of_mem _ hz)⟩

theorem dropKey_eq_filter (k : Nat) (m : List (Nat × α)) : dropKey k m = m.filter (fun x => x.1 != k) := by
  induction m with
  | nil => rfl
  | cons x m ih =>
    obtain ⟨k', v⟩ := x
    by_cases h : k' = k <;> simp [dropKey, h, ih]

theorem mem_putKey (k : Nat) (v : α) (m : List (Nat × α)) (x : Nat × α) : x ∈ putKey k v m ↔ x = (k, v) ∨ x ∈ m := by
  induction m with
  | nil => simp [putKey]
  | cons y m ih =>
    obtain ⟨k', v'⟩ := y
    by_cases h : k < k'
    · simp [putKey, h]
    · simp only [putKey, h, if_false, List.mem_cons, ih]
      tauto

theorem pairwise_putKey (k : Nat) (v : α) (m : List (Nat × α)) (h : m.Pairwise (fun x y => x.1 < y.1))
    (hk : ∀ x ∈ m, x.1 ≠ k) : (putKey k v m).Pairwise (fun x y => x.1 < y.1) := by
  induction m with
  | nil => simp [putKey]
  | cons y m ih =>
    obtain ⟨k', v'⟩ := y
    rw [List.pairwise_cons] at h
    by_cases hlt : k < k'
    · simp only [putKey, hlt, if_true, List.pairwise_cons]
      refine ⟨?_, h⟩
      intro z hz
      rcases List.mem_cons.1 hz with rfl | hz
      · exact hlt
      · exact Nat.lt_trans hlt (h.1 z hz)
    · simp only [putKey, hlt, if_false, List.pairwise_cons]
      refine ⟨?_, ih h.2 (fun x hx => hk x (List.mem_cons_of_mem _ hx))⟩
      intro z hz
      rcases (mem_putKey k v m z).1 hz with rfl | hz
      · exact Nat.lt_of_le_of_ne (Nat.le_of_not_lt hlt) (hk (k', v') (by simp))
      · exact h.1 z hz

/-- Entries left out of a canonical map leave it canonical. -/
theorem canonical_filter [DecidableEq α] (dflt : Nat → α) (m : List (Nat × α)) (p : Nat × α → Bool)
    (h : canonical dflt m = true) : canonical dflt (m.filter p) = true := by
  rw [canonical_iff] at h ⊢
  exact ⟨h.1.filter p, fun x hx => h.2 x (List.mem_of_mem_filter hx)⟩

/-- A write keeps the canonical form. -/
theorem canonical_update [DecidableEq α] (dflt : Nat → α) (m : List (Nat × α)) (k : Nat) (v : α)
    (h : canonical dflt m = true) : canonical dflt (update dflt m k v) = true := by
  have hd : canonical dflt (dropKey k m) = true := by
    rw [dropKey_eq_filter]; exact canonical_filter dflt m _ h
  by_cases hv : v = dflt k
  · simpa [update, hv] using hd
  · rw [canonical_iff] at hd
    simp only [update, hv, if_false]
    rw [canonical_iff]
    refine ⟨pairwise_putKey k v _ hd.1 ?_, ?_⟩
    · intro x hx
      rw [dropKey_eq_filter, List.mem_filter] at hx
      simpa using hx.2
    · intro x hx
      rcases (mem_putKey k v _ x).1 hx with rfl | hx
      · exact hv
      · exact hd.2 x hx

end Sys2Proof.Machine
end

