-- ==== Sys2Proof/Laws/Memory.lean ====
section
/-! SUPPORT. Laws of memory: a word reads as it was stored, a store leaves every other word alone, and every operation that changes memory
keeps its canonical form. -/

namespace Sys2Proof.Machine

theorem lookup_putBytes_out (m : List Host.Cell) (v : Nat) (n : Nat) {k j : Nat} (h : j < k ∨ k + n ≤ j) :
    lookup memDefault (putBytes m k v n) j = lookup memDefault m j := by
  induction n generalizing m k v with
  | zero => rfl
  | succ n ih =>
    rw [putBytes, ih _ _ (by omega), lookup_update_ne _ _ _ (by omega)]

/-- Bytes read as they were put. -/
theorem rawBytes_putBytes (m : List Host.Cell) (k v n : Nat) : rawBytes (putBytes m k v n) k n = v % 256 ^ n := by
  induction n generalizing m k v with
  | zero => simp [rawBytes, Nat.mod_one]
  | succ n ih =>
    rw [rawBytes, putBytes, ih, lookup_putBytes_out _ _ _ (by omega), lookup_update_self, BitVec.toNat_ofNat]
    have e : v % 256 ^ (n + 1) = v % 256 + 256 * (v / 256 % 256 ^ n) := by rw [Nat.pow_succ, Nat.mul_comm, Nat.mod_mul]
    rw [e]

/-- Bytes elsewhere read as before. -/
theorem rawBytes_putBytes_out (m : List Host.Cell) (v n a : Nat) {k j : Nat} (h : j + a ≤ k ∨ k + n ≤ j) :
    rawBytes (putBytes m k v n) j a = rawBytes m j a := by
  induction a generalizing j with
  | zero => rfl
  | succ a ih =>
    rw [rawBytes, rawBytes, ih (by omega), lookup_putBytes_out _ _ _ (by omega)]

/-- A word reads as its 80 bits were stored. -/
theorem Dev.raw_setRaw (d : Dev) (w v : Nat) : (d.setRaw w v).raw w = v % 2 ^ 80 := by
  rw [Dev.raw, Dev.setRaw, rawBytes_putBytes]; norm_num

/-- Every other word reads as before. -/
theorem Dev.raw_setRaw_ne (d : Dev) (v : Nat) {w x : Nat} (h : x ≠ w) : (d.setRaw w v).raw x = d.raw x := by
  rw [Dev.raw, Dev.setRaw, rawBytes_putBytes_out _ _ _ _ (by omega)]; rfl

/-! ### The canonical form -/

theorem wf_putBytes (m : List Host.Cell) (k v n : Nat) (h : Memory.wf m = true) : Memory.wf (putBytes m k v n) = true := by
  induction n generalizing m k v with
  | zero => exact h
  | succ n ih => exact ih _ _ _ (canonical_update _ _ _ _ h)

theorem wf_zeroCells (m : List Host.Cell) (lo len : Nat) (h : Memory.wf m = true) : Memory.wf (zeroCells m lo len) = true :=
  canonical_filter _ _ _ h

theorem wf_copyCells (m : List Host.Cell) (src dst len : Nat) (h : Memory.wf m = true) : Memory.wf (copyCells m src dst len) = true := by
  unfold copyCells
  generalize m.filter (fun c => decide (src ≤ c.1) && decide (c.1 < src + len)) = part
  have hr := canonical_filter memDefault m (fun c => !(decide (dst ≤ c.1) && decide (c.1 < dst + len))) h
  generalize m.filter (fun c => !(decide (dst ≤ c.1) && decide (c.1 < dst + len))) = rest at hr ⊢
  induction part generalizing rest with
  | nil => exact hr
  | cons x xs ih => exact ih _ (canonical_update _ _ _ _ hr)

theorem wf_setRaw (d : Dev) (w v : Nat) (h : Memory.wf d.mem = true) : Memory.wf (d.setRaw w v).mem = true := wf_putBytes _ _ _ _ h

theorem wf_zeroWords (d : Dev) (w n : Nat) (h : Memory.wf d.mem = true) : Memory.wf (d.zeroWords w n).mem = true := wf_zeroCells _ _ _ h

theorem wf_zeroCore (d : Dev) (c : Nat) (h : Memory.wf d.mem = true) : Memory.wf (d.zeroCore c).mem = true := wf_zeroCells _ _ _ h

theorem wf_zeroMemory (d : Dev) (h : Memory.wf d.mem = true) : Memory.wf d.zeroMemory.mem = true := canonical_filter _ _ _ h

theorem wf_reset : Memory.wf State.reset.dev.mem = true := rfl

end Sys2Proof.Machine
end

