-- ==== Sys2Proof/Laws/Ops.lean ====
section
/-! SUPPORT. What the shared operations can do: those of the events, the attention bits and the violations change the registers and the
event fabric alone; those of a controller change besides them only the memory, which keeps its form, and the controllers' own state. -/

namespace Sys2Proof.Machine

/-- The second device differs from the first in registers and the event fabric alone. -/
def OnlyRegs (d e : Dev) : Prop := ∃ rs ev, e = { d with regs := rs, evt := ev }

/-- The second device differs from the first in memory, the controllers' state, registers and the event fabric alone, and a memory of the
canonical form keeps it. -/
def OnlyMem (d e : Dev) : Prop :=
  ∃ m rs ev ra, e = { d with mem := m, regs := rs, evt := ev, ram := ra } ∧ (Memory.wf d.mem = true → Memory.wf m = true)

theorem OnlyRegs.refl (d : Dev) : OnlyRegs d d := ⟨d.regs, d.evt, rfl⟩

theorem OnlyRegs.trans {d e f : Dev} (h : OnlyRegs d e) (g : OnlyRegs e f) : OnlyRegs d f := by
  obtain ⟨_, _, rfl⟩ := h; obtain ⟨rs, ev, rfl⟩ := g; exact ⟨rs, ev, rfl⟩

theorem OnlyMem.trans {d e f : Dev} (h : OnlyMem d e) (g : OnlyMem e f) : OnlyMem d f := by
  obtain ⟨_, _, _, _, rfl, hm⟩ := h; obtain ⟨m, rs, ev, ra, rfl, gm⟩ := g
  exact ⟨m, rs, ev, ra, rfl, fun w => gm (hm w)⟩

theorem OnlyRegs.mem {d e : Dev} (h : OnlyRegs d e) : OnlyMem d e := by
  obtain ⟨rs, ev, rfl⟩ := h; exact ⟨d.mem, rs, ev, d.ram, rfl, id⟩

theorem OnlyRegs.set {d e : Dev} (h : OnlyRegs d e) (f : Fld) (v : Nat) : OnlyRegs d (e.set f v) := h.trans ⟨_, e.evt, rfl⟩

theorem OnlyRegs.bump {d e : Dev} (h : OnlyRegs d e) (f : Fld) : OnlyRegs d (e.bump f) := h.trans ⟨_, e.evt, rfl⟩

theorem OnlyRegs.set64 {d e : Dev} (h : OnlyRegs d e) (f : Fld) (v : Nat) : OnlyRegs d (e.set64 f v) := h.trans ⟨_, e.evt, rfl⟩

theorem OnlyRegs.raiseWorld {d e : Dev} (h : OnlyRegs d e) (n : Nat) (w : Bool) : OnlyRegs d (e.raiseWorld n w) := h.trans ⟨e.regs, _, rfl⟩

theorem OnlyRegs.raise {d e : Dev} (h : OnlyRegs d e) (n : Nat) : OnlyRegs d (e.raise n) := h.raiseWorld _ _

theorem OnlyRegs.memEvent {d e : Dev} (h : OnlyRegs d e) (n : Nat) (w : Bool) : OnlyRegs d (e.memEvent n w) := h.raiseWorld _ _

/-- Whichever way a choice falls. -/
theorem OnlyRegs.ite {d e f : Dev} {c : Prop} [Decidable c] (h : OnlyRegs d e) (g : OnlyRegs d f) : OnlyRegs d (if c then e else f) := by
  split
  · exact h
  · exact g

theorem OnlyMem.refl (d : Dev) : OnlyMem d d := (OnlyRegs.refl d).mem

theorem OnlyMem.wf {d e : Dev} (h : OnlyMem d e) (w : Memory.wf d.mem = true) : Memory.wf e.mem = true := by
  obtain ⟨m, rs, ev, ra, rfl, hm⟩ := h; exact hm w

/-- A chain of such operations is one. -/
theorem OnlyMem.foldl {α : Type} {f : Dev → α → Dev} (h : ∀ d a, OnlyMem d (f d a)) (xs : List α) (d : Dev) :
    OnlyMem d (xs.foldl f d) := by
  induction xs generalizing d with
  | nil => exact .refl d
  | cons x xs ih => exact (h d x).trans (ih _)

/-! ### Registers and events -/

theorem Dev.set_only (d : Dev) (f : Fld) (v : Nat) : OnlyRegs d (d.set f v) := ⟨_, d.evt, rfl⟩

theorem Dev.bump_only (d : Dev) (f : Fld) : OnlyRegs d (d.bump f) := ⟨_, d.evt, rfl⟩

theorem Dev.set64_only (d : Dev) (f : Fld) (v : Nat) : OnlyRegs d (d.set64 f v) := ⟨_, d.evt, rfl⟩

theorem Dev.raiseWorld_only (d : Dev) (n : Nat) (w : Bool) : OnlyRegs d (d.raiseWorld n w) := ⟨d.regs, _, rfl⟩

theorem Dev.raise_only (d : Dev) (n : Nat) : OnlyRegs d (d.raise n) := ⟨d.regs, _, rfl⟩

theorem Dev.memEvent_only (d : Dev) (n : Nat) (w : Bool) : OnlyRegs d (d.memEvent n w) := ⟨d.regs, _, rfl⟩

theorem Dev.relevel_only (d : Dev) (n : Nat) : OnlyRegs d (d.relevel n) := by
  unfold Dev.relevel
  dsimp only
  split <;> split
  · exact .refl d
  · exact ⟨d.regs, _, rfl⟩
  · exact ⟨d.regs, _, rfl⟩
  · exact .refl d

theorem Dev.attend_only (d : Dev) (f : Fld) (n : Nat) : OnlyRegs d (d.attend f n) := (d.set_only f 1).trans (Dev.relevel_only _ n)

theorem Dev.fnAttend_only (d : Dev) (fn : Fn) : OnlyRegs d (d.fnAttend fn) := by
  unfold Dev.fnAttend
  split
  · exact d.attend_only _ _
  · exact .refl d

theorem Dev.cfgReject_only (d : Dev) (who : Accessor) (off : Nat) : OnlyRegs d (d.cfgReject who off) := by
  unfold Dev.cfgReject
  have h := (OnlyRegs.refl d).bump Reg.GLB_CFG_REJECT_COUNT
  exact (OnlyRegs.ite h ((((h.set _ _).set _ _).set _ _).set _ _)).raise _

theorem Dev.worldViolation_only (d : Dev) (ep : Nat) (func : Option Nat) (addr : Nat) (write reg : Bool) :
    OnlyRegs d (d.worldViolation ep func addr write reg) := by
  unfold Dev.worldViolation
  have h := (OnlyRegs.refl d).bump Reg.SEC_VIOL_COUNT
  have g := fun a b c => (OnlyRegs.ite (c := (d.bump Reg.SEC_VIOL_COUNT).on Reg.SEC_VIOL_VALID = true) h
    (((((((((h.set Reg.SEC_VIOL_ADDR addr).set Reg.SEC_VIOL_ADDR_HI (addr / 2 ^ 32)).set Reg.SEC_VIOL_EP ep).set
      Reg.SEC_VIOL_FUNC a).set Reg.SEC_VIOL_FUNC_VALID b).set Reg.SEC_VIOL_WRITE (b2n write)).set Reg.SEC_VIOL_REG
      (b2n reg)).set64 Reg.SEC_VIOL_TIME c).set Reg.SEC_VIOL_VALID 1)).raise 0x7E0
  cases func with
  | none => exact g _ _ _
  | some f => exact ((g _ _ _).bump _).trans (Dev.attend_only _ _ _)

theorem Dev.regViolation_only (d : Dev) (who : Accessor) (off : Nat) : OnlyRegs d (d.regViolation who off) := by
  cases who with
  | func f => exact d.worldViolation_only 80 (some f.val) off true true
  | secure => exact .refl d
  | steward => exact d.worldViolation_only 88 none off true true

theorem Dev.enterRun_only (d : Dev) (fn : Fn) : OnlyRegs d (d.enterRun fn) :=
  (((OnlyRegs.refl d).set _ _).set _ _).set _ _

theorem Dev.enterStopping_only (d : Dev) (fn : Fn) (abort : Bool) : OnlyRegs d (d.enterStopping fn abort) :=
  ((OnlyRegs.refl d).set _ _).set _ _

theorem Dev.enterStopped_only (d : Dev) (fn : Fn) : OnlyRegs d (d.enterStopped fn) :=
  ((OnlyRegs.refl d).set _ _).set _ _

theorem Dev.startFails_only (d : Dev) (fn : Fn) (code : Nat) : OnlyRegs d (d.startFails fn code) :=
  (d.set_only _ _).trans (Dev.fnAttend_only _ _)

theorem Dev.fnFault_only (d : Dev) (fn : Fn) (code : Nat) (abort : Bool) : OnlyRegs d (d.fnFault fn code abort) := by
  unfold Dev.fnFault
  split
  · exact ((d.set_only _ _).trans (Dev.enterStopping_only _ _ _)).trans (Dev.fnAttend_only _ _)
  · exact .refl d

/-! ### A controller's operations -/

theorem Dev.logUncorr_only (d : Dev) (w ctrl synd reader : Nat) (secure : Bool) : OnlyRegs d (d.logUncorr w ctrl synd reader secure) := by
  unfold Dev.logUncorr
  have h := OnlyRegs.ite (c := d.on (Reg.MEM_ULOG_VALID (d.get Reg.MEM_ULOG_HEAD)) = true)
    ((OnlyRegs.refl d).set Reg.MEM_ATTN_LOG_WRAP 1) (.refl d)
  exact ((((((((h.set _ _).set _ _).set _ _).set _ _).set _ _).set _ _).set64 _ _).set _ _).set _ _

theorem Dev.setRaw_only (d : Dev) (w v : Nat) : OnlyMem d (d.setRaw w v) := ⟨_, d.regs, d.evt, d.ram, rfl, wf_setRaw d w v⟩

theorem Dev.detectUncorr_only (d : Dev) (r : Region) (w reader : Nat) : OnlyMem d (d.detectUncorr r w reader) := by
  unfold Dev.detectUncorr
  exact (d.setRaw_only _ _).trans (((((Dev.logUncorr_only _ _ _ _ _ _).bump _).bump _).set _ _).memEvent _ _).mem

theorem Dev.detectIfUncorr_only (d : Dev) (r : Region) (reader w : Nat) : OnlyMem d (d.detectIfUncorr r reader w) := by
  unfold Dev.detectIfUncorr
  split
  · exact d.detectUncorr_only _ _ _
  · exact .refl d

theorem Dev.correctInPlace_only (d : Dev) (w : Nat) : OnlyMem d (d.correctInPlace w) := by
  unfold Dev.correctInPlace
  split
  · exact d.setRaw_only _ _
  · exact .refl d

theorem Dev.setTracker_only (d : Dev) (n : Nat) (ts : List Track) : OnlyMem d (d.setTracker n ts) := ⟨d.mem, _, d.evt, _, rfl, id⟩

theorem Dev.hardFault_only (d : Dev) (r : Region) (w : Nat) : OnlyMem d (d.hardFault r w) := by
  have h0 := (((OnlyRegs.refl d).bump (Reg.MEM_CTRL_HARD r.ctrl)).set Reg.MEM_ATTN_HARD 1).mem
  unfold Dev.hardFault
  dsimp only
  refine h0.trans ?_
  generalize d.secureWord r w = sec
  generalize (d.bump (Reg.MEM_CTRL_HARD r.ctrl)).set Reg.MEM_ATTN_HARD 1 = e
  have hd : ∀ n, OnlyMem e ((e.set (Reg.MEM_CTRL_STATE n) 2).relevel 0x783) := fun n =>
    ((e.set_only _ _).trans (Dev.relevel_only _ _)).mem
  have hr : ∀ (e : Dev) (x : Nat × Nat × Nat), OnlyMem e { e with ram := { e.ram with remapped := e.ram.remapped ++ [x] } } :=
    fun e x => ⟨e.mem, e.regs, e.evt, _, rfl, id⟩
  split
  · split
    · exact hd _
    · exact ⟨e.mem, e.regs, e.evt, _, rfl, id⟩
  · split
    · exact ((OnlyMem.foldl Dev.correctInPlace_only _ e).trans (hr _ _)).trans (((OnlyRegs.refl _).set _ _).memEvent _ _).mem
    · exact hd _

theorem Dev.trackCorrection_only (d : Dev) (r : Region) (w : Nat) (scrub : Bool) : OnlyMem d (d.trackCorrection r w scrub) := by
  have h0 := (((OnlyRegs.refl d).bump Reg.MEM_TOTAL_CORR).bump (Reg.MEM_CTRL_CORR r.ctrl)).mem
  have hc : ∀ (e : Dev) m, OnlyMem e { e with ram := { e.ram with hourCount := m } } := fun e m => ⟨e.mem, e.regs, e.evt, _, rfl, id⟩
  have h1 : ∀ (e : Dev) (g b : Bool), OnlyMem e (if g = true then (e.set Reg.MEM_ATTN_OVERFLOW 1).memEvent 0x784 b else e) :=
    fun e g b => (OnlyRegs.ite (((OnlyRegs.refl e).set _ _).memEvent _ _) (.refl e)).mem
  unfold Dev.trackCorrection
  dsimp only
  have hs : ∀ m n ts, OnlyMem d (Dev.setTracker _ n ts) := fun m n ts => (h0.trans (hc _ m)).trans (Dev.setTracker_only _ n ts)
  split
  · split
    · exact (hs _ _ _).trans (Dev.hardFault_only _ _ _)
    · exact (hs _ _ _).trans (Dev.correctInPlace_only _ _)
  · split
    · exact ((hs _ _ _).trans (h1 _ _ _)).trans (Dev.correctInPlace_only _ _)
    · exact (hs _ _ _).trans (h1 _ _ _)

theorem Dev.trackWrite_only (d : Dev) (r : Region) (w : Nat) : OnlyMem d (d.trackWrite r w) := by
  unfold Dev.trackWrite
  dsimp only
  split
  · split
    · exact .refl d
    · exact d.setTracker_only _ _
  · exact .refl d

theorem Dev.spreadXts_only (d : Dev) (r : Region) (w reader : Nat) : OnlyMem d (d.spreadXts r w reader).1 := by
  have hp : ∀ (xs : List Nat) (e : Dev), OnlyMem e (xs.foldl (fun d x => d.setRaw x (poisonWord (dataOf (d.raw x)))) e) :=
    fun xs e => OnlyMem.foldl (fun e x => e.setRaw_only x _) xs e
  have hu : ∀ (xs : List Nat) (r : Region), OnlyMem d (xs.foldl (fun d x => d.detectIfUncorr r reader x) d) :=
    fun xs r => OnlyMem.foldl (fun e x => e.detectIfUncorr_only r reader x) xs d
  unfold Dev.spreadXts
  cases r with
  | hbm s =>
    dsimp only
    split
    · split
      · exact .refl d
      · exact (hu _ _).trans (hp _ _)
    · exact .refl d
  | _ => exact .refl d

/-- What delivering a word to a reader can do. -/
theorem Dev.fetchWord_only (d : Dev) (r : Region) (w reader : Nat) : OnlyMem d (d.fetchWord r w reader).1 := by
  have h := d.spreadXts_only r w reader
  unfold Dev.fetchWord
  generalize d.spreadXts r w reader = x at h ⊢
  dsimp only
  split
  · exact h
  · split
    · exact h
    · split
      · exact h
      · exact h.trans (Dev.trackCorrection_only _ _ _ _)
      · exact h
      · exact h.trans (Dev.detectUncorr_only _ _ _ _)

theorem Dev.refuse_only {d e : Dev} {q : Req} {r : Region} {w st : Nat} {write : Bool} (h : d.refuse q r w write = some (e, st)) :
    OnlyRegs d e := by
  unfold Dev.refuse at h
  dsimp only at h
  split at h
  · cases h; exact d.bump_only _
  · split at h
    · cases h; exact d.worldViolation_only _ _ _ _ _
    · cases h

/-- What a request to read a word can do. -/
theorem Dev.readWord_only (d : Dev) (q : Req) (b : Nat) : OnlyMem d (d.readWord q b).1 := by
  unfold Dev.readWord
  split
  · exact .refl d
  · split
    · exact .refl d
    · split
      · next h => exact (Dev.refuse_only h).mem
      · exact d.fetchWord_only _ _ _

theorem Dev.inject_only (d : Dev) (w raw : Nat) : OnlyRegs d (d.inject w raw).1 := by
  unfold Dev.inject
  split
  · exact d.set_only _ _
  · exact .refl d

theorem Dev.storeRaw_only (d : Dev) (r : Region) (w raw : Nat) : OnlyMem d (d.storeRaw r w raw) :=
  ((d.inject_only w raw).mem.trans (Dev.setRaw_only _ _ _)).trans (Dev.trackWrite_only _ _ _)

/-- What a request to write the 80 bits of a word can do. -/
theorem Dev.writeRaw_only (d : Dev) (q : Req) (b raw : Nat) : OnlyMem d (d.writeRaw q b raw).1 := by
  unfold Dev.writeRaw
  split
  · exact .refl d
  · split
    · exact .refl d
    · split
      · next h => exact (Dev.refuse_only h).mem
      · split
        · exact (((OnlyRegs.refl d).set _ _).memEvent _ _).mem
        · exact d.storeRaw_only _ _ _

/-- What a narrow write can do. -/
theorem Dev.writeNarrow_only (d : Dev) (q : Req) (b : Nat) (v : Word) (byteView : Bool) (mask : Nat) :
    OnlyMem d (d.writeNarrow q b v byteView mask).1 := by
  unfold Dev.writeNarrow
  split
  · exact .refl d
  · next r _ =>
    dsimp only
    split
    · exact .refl d
    · split
      · next h => exact (Dev.refuse_only h).mem
      · split
        · exact (((OnlyRegs.refl d).set _ _).memEvent _ _).mem
        · have h := d.fetchWord_only r (b / 8) 6
          split
          · rename_i e; rw [e] at h; exact (h.trans (Dev.setRaw_only _ _ _)).trans (Dev.trackWrite_only _ _ _)
          · rename_i e; rw [e] at h; exact h.trans (((OnlyRegs.refl _).set _ _).memEvent _ _).mem

end Sys2Proof.Machine
end

