-- ==== Sys2Proof/Laws/Jobs.lean ====
section
/-! SUPPORT. What the shared operations on jobs can do: a job's end changes the jobs in flight and the rails' late marks alone; a job's
access to memory changes what a controller may change, and what is sent to the host. -/

namespace Sys2Proof.Machine

theorem Dev.setJob_only (d : Dev) (j : Job) : ∃ js, d.setJob j = { d with jfe := { d.jfe with jobs := js } } := ⟨_, rfl⟩

theorem Dev.dropJob_only (d : Dev) (id : Nat) :
    ∃ js ws, d.dropJob id = { d with jfe := { d.jfe with jobs := js, waiting := ws } } := ⟨_, _, rfl⟩

/-- A job's end. -/
theorem Dev.endJob_only (d : Dev) (j : Job) (status result : Nat) :
    ∃ js l, d.endJob j status result = { d with jfe := { d.jfe with jobs := js }, pace := { d.pace with late := l } } := by
  unfold Dev.endJob
  dsimp only
  split
  · exact ⟨_, _, rfl⟩
  · exact ⟨_, d.pace.late, rfl⟩

/-- A job's accesses: the second device differs from the first as a controller's operation allows, and in what was sent. -/
def OnlyIo (d e : Dev) : Prop := ∃ o, OnlyMem { d with out := o } e

theorem OnlyMem.io {d e : Dev} (h : OnlyMem d e) : OnlyIo d e := ⟨d.out, h⟩

theorem OnlyIo.refl (d : Dev) : OnlyIo d d := (OnlyMem.refl d).io

theorem OnlyIo.trans {d e f : Dev} (h : OnlyIo d e) (g : OnlyIo e f) : OnlyIo d f := by
  obtain ⟨o, m, rs, ev, ra, rfl, hm⟩ := h
  obtain ⟨o', m', rs', ev', ra', rfl, gm⟩ := g
  exact ⟨o', m', rs', ev', ra', rfl, fun w => gm (hm w)⟩

theorem OnlyIo.wf {d e : Dev} (h : OnlyIo d e) (w : Memory.wf d.mem = true) : Memory.wf e.mem = true := by
  obtain ⟨o, h⟩ := h
  exact h.wf w

theorem Io.noteRead_only (s : Io) (w : Nat) : OnlyRegs s.dev (s.noteRead w).dev := by
  unfold Io.noteRead
  split
  · exact .refl _
  · split
    · exact .refl _
    · exact (OnlyRegs.refl _).bump _

theorem Io.halt_dev (s : Io) (st : Nat) : (s.halt st).dev = s.dev := by
  unfold Io.halt
  split <;> rfl

theorem Io.nextExt_dev (s : Io) : s.nextExt.1.dev = s.dev := by
  unfold Io.nextExt
  split <;> rfl

/-- What a job's read of a word can do. -/
theorem Io.read_only (s : Io) (q : Req) (a : Nat) : OnlyIo s.dev (s.read q a).1.dev := by
  unfold Io.read
  split
  · exact .refl _
  · split
    · rw [Io.halt_dev]; exact .refl _
    · next b _ =>
      have h := ((s.noteRead_only (b / 8)).mem.trans ((s.noteRead (b / 8)).dev.readWord_only q b)).io
      dsimp only
      split
      all_goals rename_i e; rw [e] at h
      · exact h
      · exact h
      · exact h
      · rw [Io.halt_dev]; exact h
    · next iova _ =>
      split
      · have h : OnlyIo s.dev ({ s with dev := s.dev.send (.read q.asFunc iova 8) } : Io).nextExt.1.dev := by
          rw [Io.nextExt_dev]; exact ⟨_, .refl _⟩
        dsimp only
        split <;> exact h
      · exact .refl _
    · split
      · rw [Io.halt_dev]; exact .refl _
      · have h : OnlyIo s.dev s.nextExt.1.dev := by rw [Io.nextExt_dev]; exact .refl _
        dsimp only
        split
        · exact h
        · exact h
        · rw [Io.halt_dev]; exact h

end Sys2Proof.Machine
end

