-- ==== Sys2Proof/Laws/Pemer.lean ====
section
/-! SUPPORT. What an operation of a core leaves behind: the bundle it stages, and lanes of vectors and accumulators read after they are
written. -/

namespace Sys2Proof.Machine

/-- An operation that a core takes stages the bundle its function makes. -/
theorem Dev.op_takes (d : Dev) (b : Bnd) (f : Arch → Bundle → Bundle) (h : d.takes b = true) :
    d.op b f = d.stage b (f (d.core b.core.val).arch (d.core b.core.val).current) := by
  simp only [Dev.takes] at h
  simp only [Dev.op, Dev.opWith, h, if_true, Dev.stage, Dev.stageFrom]

/-- The same for an operation that may wait or touch the device: where it does neither. -/
theorem Dev.opWith_takes (d : Dev) (b : Bnd) (f : Dev → Core → Bundle → Option (Dev × Bundle)) (n : Bundle) (h : d.takes b = true)
    (hf : f d (d.core b.core.val) (d.core b.core.val).current = some (d, n)) : d.opWith b f = d.stage b n := by
  simp only [Dev.takes] at h
  simp only [Dev.opWith, h, if_true, hf, Dev.stage, Dev.stageFrom]

@[simp] theorem upFrom_length (k n : Nat) : (upFrom k n).length = n := by
  induction n generalizing k with
  | zero => rfl
  | succ n ih => simp [upFrom, ih]

@[simp] theorem mem_upFrom (k n i : Nat) : i ∈ upFrom k n ↔ k ≤ i ∧ i < k + n := by
  induction n generalizing k with
  | zero => simp [upFrom]
  | succ n ih => simp only [upFrom, List.mem_cons, ih]; omega

theorem upFrom_nodup (k n : Nat) : (upFrom k n).Nodup := by
  induction n generalizing k with
  | zero => simp [upFrom]
  | succ n ih => simp only [upFrom, List.nodup_cons, mem_upFrom, ih, and_true]; omega

theorem wrapTo_lt (w : Nat) (z : Int) : wrapTo w z < 2 ^ w := by
  have h1 : (0 : Int) < ((2 ^ w : Nat) : Int) := by positivity
  have h2 := Int.emod_lt_of_pos z h1
  have h3 := Int.emod_nonneg z (ne_of_gt h1)
  unfold wrapTo; omega

theorem add_mul_div_pow (a q w : Nat) (h : a < 2 ^ w) : (a + 2 ^ w * q) / 2 ^ w = q := by
  rw [Nat.add_mul_div_left _ _ (by positivity), Nat.div_eq_of_lt h, Nat.zero_add]

theorem add_mul_mod_pow (a q w : Nat) (h : a < 2 ^ w) : (a + 2 ^ w * q) % 2 ^ w = a := by
  rw [Nat.add_mul_mod_self_left, Nat.mod_eq_of_lt h]

theorem add_mul_lt_pow (a q w n : Nat) (h : a < 2 ^ w) (hq : q < 2 ^ n) : a + 2 ^ w * q < 2 ^ (w + n) := by
  rw [Nat.pow_add]
  calc a + 2 ^ w * q < 2 ^ w + 2 ^ w * q := Nat.add_lt_add_right h _
    _ = 2 ^ w * (q + 1) := by rw [Nat.mul_succ, Nat.add_comm]
    _ ≤ 2 ^ w * 2 ^ n := Nat.mul_le_mul_left _ hq

/-- A lane of a packed vector, as a number. -/
theorem packLanes_div (f : Nat → Int) (k n i : Nat) (h : i < n) :
    packLanes f k n / 2 ^ (18 * i) % 2 ^ 18 = wrapTo 18 (f (k + i)) := by
  induction n generalizing k i with
  | zero => exact absurd h (Nat.not_lt_zero _)
  | succ n ih =>
    have hw := wrapTo_lt 18 (f k)
    cases i with
    | zero =>
      rw [packLanes, Nat.mul_zero, Nat.pow_zero, Nat.div_one, add_mul_mod_pow _ _ _ hw]
      rfl
    | succ i =>
      rw [packLanes, Nat.mul_succ, Nat.add_comm (18 * i) 18, Nat.pow_add, ← Nat.div_div_eq_div_mul, add_mul_div_pow _ _ _ hw,
        ih (k + 1) i (Nat.lt_of_succ_lt_succ h), Nat.add_right_comm, Nat.add_assoc]

theorem packLanes_lt (f : Nat → Int) (k n : Nat) : packLanes f k n < 2 ^ (18 * n) := by
  induction n generalizing k with
  | zero => exact Nat.zero_lt_one
  | succ n ih =>
    rw [packLanes, Nat.mul_succ, Nat.add_comm (18 * n) 18]
    exact add_mul_lt_pow _ _ _ _ (wrapTo_lt 18 (f k)) (ih (k + 1))

theorem ofLanes_eq (f : Nat → Int) (p : Nat) (h : packLanes f 0 32 = p) : ofLanes f = BitVec.ofNat 576 p := by
  subst h; rfl

theorem extract_ofNat (p i : Nat) (z : Int) (hp : p < 2 ^ 576) (h : p / 2 ^ (18 * i) % 2 ^ 18 = wrapTo 18 z) :
    (BitVec.ofNat 576 p).extractLsb' (18 * i) 18 = BitVec.ofInt 18 z := by
  apply BitVec.eq_of_toNat_eq
  rw [BitVec.extractLsb'_toNat, BitVec.toNat_ofNat, Nat.mod_eq_of_lt hp, Nat.shiftRight_eq_div_pow, h, BitVec.toNat_ofInt, wrapTo]

/-- R134, R182: lane i of a vector of 32 lanes is the value written there, wrapped to 18 bits. -/
theorem laneOf_ofLanes (f : Nat → Int) (i : Nat) (h : i < 32) : laneOf (ofLanes f) i = wrapped 18 (f i) := by
  have h1 := packLanes_div f 0 32 i h
  have h2 := packLanes_lt f 0 32
  rw [Nat.zero_add] at h1
  generalize hp : packLanes f 0 32 = p at h1 h2
  rw [ofLanes_eq f p hp, laneOf, wrapped, extract_ofNat p i (f i) h2 h1]

theorem laneOf_inRange (v : BitVec 576) (i : Nat) : inRange 18 (laneOf v i) := by
  have h1 := BitVec.le_toInt (v.extractLsb' (18 * i) 18)
  have h2 := BitVec.toInt_lt (x := v.extractLsb' (18 * i) 18)
  simp only [inRange, laneOf]
  constructor <;> norm_num at * <;> omega

theorem wrapped_of_inRange (n : Nat) (hn : 0 < n) (z : Int) (h : inRange n z) : wrapped n z = z := by
  obtain ⟨m, rfl⟩ : ∃ m, n = m + 1 := ⟨n - 1, by omega⟩
  simp only [inRange, Nat.add_sub_cancel] at h
  rw [wrapped, BitVec.toInt_ofInt, Int.bmod_eq_of_le]
  · have e : (2 : Nat) ^ (m + 1) = 2 * 2 ^ m := by rw [Nat.pow_succ]; omega
    rw [e]; omega
  · have e : (2 : Nat) ^ (m + 1) = 2 * 2 ^ m := by rw [Nat.pow_succ]; omega
    rw [e]; omega

theorem wrapped_inRange (n : Nat) (hn : 0 < n) (z : Int) : inRange n (wrapped n z) := by
  obtain ⟨m, rfl⟩ : ∃ m, n = m + 1 := ⟨n - 1, by omega⟩
  have h1 := BitVec.le_toInt (BitVec.ofInt (m + 1) z)
  have h2 := BitVec.toInt_lt (x := BitVec.ofInt (m + 1) z)
  simp only [inRange, wrapped, Nat.add_sub_cancel] at *
  constructor
  · exact_mod_cast h1
  · have : (BitVec.ofInt (m + 1) z).toInt < ((2 ^ m : Nat) : Int) := by exact_mod_cast h2
    omega

theorem satTo_eq (n : Nat) (z : Int) : satTo n z = limited n z := by
  have : (0 : Int) < ((2 ^ (n - 1) : Nat) : Int) := by positivity
  simp only [satTo, limited]
  split
  · omega
  · split <;> omega

theorem fits_iff (n : Nat) (z : Int) : fits n z = true ↔ inRange n z := by
  have : (0 : Int) < ((2 ^ (n - 1) : Nat) : Int) := by positivity
  simp only [fits, satTo_eq, limited, inRange, decide_eq_true_eq]
  omega

theorem limited_inRange (n : Nat) (z : Int) : inRange n (limited n z) := by
  have : (0 : Int) < ((2 ^ (n - 1) : Nat) : Int) := by positivity
  simp only [limited, inRange]; omega

theorem selected_eq (x : Arch) (b : Bnd) (cplx : Bool) : x.selected b cplx = laneSelected x b cplx := by
  funext i
  cases cplx
  · rfl
  · simp only [Arch.selected, laneSelected, pairOn, if_true]; congr 1; omega

@[simp] theorem Arch.physV_wV (x : Arch) (p : Nat) (v : BitVec 576) : (x.wV p v).physV p = v := lookup_update_self _ _ _ _

theorem Arch.physV_wV_ne (x : Arch) (v : BitVec 576) {p q : Nat} (h : q ≠ p) : (x.wV p v).physV q = x.physV q :=
  lookup_update_ne _ _ _ h

/-- XSAT set leaves every bit of ACCST below 16 alone. -/
theorem setXsat_bits (x : Arch) (k : Nat) (h : k < 17) :
    x.setXsat.accSt.getLsbD k = (x.accSt.getLsbD k || decide (k = 16)) := by
  simp only [Arch.setXsat, BitVec.getLsbD_or]
  congr 1
  have : ∀ k < 17, (BitVec.ofNat 17 (2 ^ 16)).getLsbD k = decide (k = 16) := by decide
  exact this k h

/-- R139, R145, R182: a vector written in the selected lanes, some of them limited. -/
theorem vectorWritten (b : Bnd) (v : Nat) (cplx : Bool) (lim : Nat → Bool) (f : Arch → Nat → Int) (x : Arch) (B0 : Bundle) :
    VectorWritten b v cplx lim f x B0
      ((B0.vector x v (x.selected b cplx) (fun i => if lim i then satTo 18 (f x i) else f x i)).xsat (x.selected b cplx)
        (fun i => lim i && !fits 18 (f x i))) := by
  rw [selected_eq]
  set on := laneSelected x b cplx with hon
  set g : Nat → Int := fun i => if on i then (if lim i then satTo 18 (f x i) else f x i) else laneOf (x.rV v) i with hg
  have hany : (upFrom 0 32).any (fun i => on i && (lim i && !fits 18 (f x i))) = true ↔
      ∃ i < 32, on i = true ∧ lim i = true ∧ ¬inRange 18 (f x i) := by
    simp only [List.any_eq_true, mem_upFrom, Bool.and_eq_true, Bool.not_eq_true', ← Bool.not_eq_true, fits_iff]
    constructor
    · rintro ⟨i, ⟨-, hi⟩, h⟩; exact ⟨i, by omega, h⟩
    · rintro ⟨i, hi, h⟩; exact ⟨i, ⟨by omega, by omega⟩, h⟩
  have hlane : ∀ i < 32, laneOf (ofLanes g) i =
      if on i then (if lim i then limited 18 (f x i) else wrapped 18 (f x i)) else laneOf (x.rV v) i := by
    intro i hi
    rw [laneOf_ofLanes _ _ hi, hg]
    by_cases h1 : on i = true
    · by_cases h2 : lim i = true
      · simp only [h1, h2, if_true, satTo_eq]
        exact wrapped_of_inRange 18 (by omega) _ (limited_inRange 18 _)
      · simp [h1, h2]
    · simp only [h1]
      exact wrapped_of_inRange 18 (by omega) _ (laneOf_inRange _ _)
  have hvec : B0.vector x v on (fun i => if lim i then satTo 18 (f x i) else f x i) =
      (B0.note [nameV (x.phys v)]).withNext (fun y => y.wV (x.phys v) (ofLanes g)) := rfl
  rw [hvec]
  generalize ofLanes g = G at hlane
  unfold Bundle.xsat
  by_cases h : (upFrom 0 32).any (fun i => on i && (lim i && !fits 18 (f x i))) = true
  · rw [if_pos h]
    refine ⟨?_, ?_, ?_, rfl⟩
    · intro i hi
      exact (congrArg (fun z => laneOf z i) (Arch.physV_wV B0.next (x.phys v) G)).trans (hlane i hi)
    · intro q hq; exact Arch.physV_wV_ne _ _ hq
    · intro k hk
      refine (iff_of_eq (congrArg (· = true) (setXsat_bits (B0.next.wV (x.phys v) G) k hk))).trans ?_
      have hx := hany.mp h
      rw [Bool.or_eq_true, decide_eq_true_eq]
      exact or_congr Iff.rfl ⟨fun e => ⟨e, hx⟩, fun e => e.1⟩
  · rw [if_neg h]
    refine ⟨?_, ?_, ?_, rfl⟩
    · intro i hi
      exact (congrArg (fun z => laneOf z i) (Arch.physV_wV B0.next (x.phys v) G)).trans (hlane i hi)
    · intro q hq; exact Arch.physV_wV_ne _ _ hq
    · intro k hk
      have hx := mt hany.mpr h
      exact ⟨fun e => .inl e, fun e => e.elim id (fun e => absurd e.2 hx)⟩

/-- The same where no lane is limited. -/
theorem vectorWritten_wrap (b : Bnd) (v : Nat) (cplx : Bool) (f : Arch → Nat → Int) (x : Arch) (B0 : Bundle) :
    VectorWritten b v cplx unlimited f x B0 (B0.vector x v (x.selected b cplx) (f x)) := by
  have h := vectorWritten b v cplx unlimited f x B0
  have e : (upFrom 0 32).any (fun i => x.selected b cplx i && (unlimited i && !fits 18 (f x i))) = false := by
    simp [unlimited]
  simpa [Bundle.xsat, e, unlimited] using h

@[simp] theorem Arch.rAcc_wAcc (x : Arch) (a i : Nat) (z : Int) : (x.wAcc a i z).rAcc a i = wrapped 48 z := by
  simp [Arch.rAcc, Arch.wAcc, wrapped]

theorem Arch.rAcc_wAcc_ne (x : Arch) (z : Int) {a i a' i' : Nat} (h : 32 * a' + i' ≠ 32 * a + i) :
    (x.wAcc a i z).rAcc a' i' = x.rAcc a' i' := by
  simp [Arch.rAcc, Arch.wAcc, lookup_update_ne _ _ _ h]

/-- A flag bit of ACCST set. -/
theorem flag_bits (v : BitVec 17) (n k : Nat) (hn : n < 17) (hk : k < 17) :
    (v ||| BitVec.ofNat 17 (2 ^ n)).getLsbD k = true ↔ (v.getLsbD k = true ∨ k = n) := by
  have h : ∀ n < 17, ∀ k < 17, (BitVec.ofNat 17 (2 ^ n)).getLsbD k = decide (k = n) := by decide
  rw [BitVec.getLsbD_or, h n hn k hk, Bool.or_eq_true, decide_eq_true_eq]

/-- R143: what one lane's accumulation leaves. -/
structure LaneDone (sat : Bool) (a i : Nat) (z : Int) (x y : Arch) : Prop where
  here : y.rAcc a i = if sat then (if (32 * a + i) ∈ x.hold then x.rAcc a i else limited 48 (x.rAcc a i + z))
    else wrapped 48 (x.rAcc a i + z)
  else_ : ∀ a' i', 32 * a' + i' ≠ 32 * a + i → y.rAcc a' i' = x.rAcc a' i'
  flags : ∀ k < 17, y.accSt.getLsbD k = true ↔
    (x.accSt.getLsbD k = true ∨ (k = a ∧ sat = false ∧ ¬inRange 48 (x.rAcc a i + z)) ∨
      (k = 8 + a ∧ sat = true ∧ (32 * a + i) ∉ x.hold ∧ ¬inRange 48 (x.rAcc a i + z)))
  held : sat = true → ∀ k, k ∈ y.hold ↔ (k ∈ x.hold ∨
    (k = 32 * a + i ∧ (32 * a + i) ∉ x.hold ∧ ¬inRange 48 (x.rAcc a i + z)))
  kept : ∀ k, k ≠ 32 * a + i → (k ∈ y.hold ↔ k ∈ x.hold)
  rest : y = { x with acc := y.acc, accSt := y.accSt, hold := y.hold }

theorem accumulate_lane (sat : Bool) (a i : Nat) (ha : a < 8) (z : Int) (x : Arch) (t o : Bool) :
    LaneDone sat a i z x (accumulate sat a i z (x, t, o)).1 := by
  unfold accumulate
  cases sat
  · by_cases hf : fits 48 (x.rAcc a i + z) = true
    · have hr := (fits_iff _ _).mp hf
      simp only [hf, if_true, Bool.false_eq_true, if_false]
      refine ⟨Arch.rAcc_wAcc _ _ _ _, fun a' i' h => Arch.rAcc_wAcc_ne _ _ h, fun k _ => ?_, fun h => (by simp at h), fun k h => ?_,
        rfl⟩
      · simp [hr, Arch.wAcc]
      · simp [h]
    · have hr := mt (fits_iff _ _).mpr hf
      simp only [hf, Bool.false_eq_true, if_false]
      refine ⟨Arch.rAcc_wAcc _ _ _ _, fun a' i' h => Arch.rAcc_wAcc_ne _ _ h, fun k hk => ?_, fun h => (by simp at h), fun k h => ?_,
        rfl⟩
      · refine (flag_bits _ a k (by omega) hk).trans ?_
        simp [hr, Arch.wAcc]
      · simp [h]
  · by_cases hc : (32 * a + i) ∈ x.hold
    · have hc' : x.hold.contains (32 * a + i) = true := by simpa using hc
      simp only [hc', if_true]
      refine ⟨by simp [hc], fun _ _ _ => rfl, fun k _ => by simp [hc], fun _ k => by simp [hc], fun k _ => Iff.rfl, rfl⟩
    · have hc' : x.hold.contains (32 * a + i) = false := by simpa using hc
      simp only [hc', if_true, Bool.false_eq_true, if_false]
      by_cases hf : fits 48 (x.rAcc a i + z) = true
      · have hr := (fits_iff _ _).mp hf
        simp only [hf, if_true]
        refine ⟨?_, fun a' i' h => Arch.rAcc_wAcc_ne _ _ h, fun k _ => ?_, fun _ k => ?_, fun k h => Iff.rfl, rfl⟩
        · rw [Arch.rAcc_wAcc]; simp only [hc, if_true, if_false]
          rw [wrapped_of_inRange 48 (by omega) _ hr]; simp only [limited, inRange] at *; omega
        · simp [hr, Arch.wAcc]
        · simp [hr, Arch.wAcc]
      · have hr := mt (fits_iff _ _).mpr hf
        simp only [hf]
        refine ⟨?_, fun a' i' h => Arch.rAcc_wAcc_ne _ _ h, fun k hk => ?_, fun _ k => ?_, fun k h => ?_, rfl⟩
        · refine (Arch.rAcc_wAcc x a i (satTo 48 (x.rAcc a i + z))).trans ?_
          simp only [hc, if_true, if_false]
          rw [satTo_eq, wrapped_of_inRange 48 (by omega) _ (limited_inRange _ _)]
        · refine (flag_bits _ (8 + a) k (by omega) hk).trans ?_
          simp [hr, hc, Arch.wAcc]
        · simp [hr, hc, Arch.wAcc, or_comm]
        · simp [h, Arch.wAcc]

/-- R143: what the accumulations of a list of distinct lanes leave. -/
structure LanesDone (sat : Bool) (a : Nat) (f : Nat → Int) (L : List Nat) (x y : Arch) : Prop where
  here : ∀ i ∈ L, y.rAcc a i = if sat then (if (32 * a + i) ∈ x.hold then x.rAcc a i else limited 48 (x.rAcc a i + f i))
    else wrapped 48 (x.rAcc a i + f i)
  else_ : ∀ a' i', (∀ i ∈ L, 32 * a' + i' ≠ 32 * a + i) → y.rAcc a' i' = x.rAcc a' i'
  flags : ∀ k < 17, y.accSt.getLsbD k = true ↔
    (x.accSt.getLsbD k = true ∨ (k = a ∧ sat = false ∧ ∃ i ∈ L, ¬inRange 48 (x.rAcc a i + f i)) ∨
      (k = 8 + a ∧ sat = true ∧ ∃ i ∈ L, (32 * a + i) ∉ x.hold ∧ ¬inRange 48 (x.rAcc a i + f i)))
  held : sat = true → ∀ k, k ∈ y.hold ↔ (k ∈ x.hold ∨ ∃ i ∈ L, k = 32 * a + i ∧ ¬inRange 48 (x.rAcc a i + f i))
  rest : y = { x with acc := y.acc, accSt := y.accSt, hold := y.hold }

theorem join_flags (A ka s0 P kb s1 Q E F : Prop) :
    ((A ∨ (ka ∧ s0 ∧ P) ∨ (kb ∧ s1 ∧ Q ∧ P)) ∨ (ka ∧ s0 ∧ E) ∨ (kb ∧ s1 ∧ F)) ↔
      (A ∨ (ka ∧ s0 ∧ (P ∨ E)) ∨ (kb ∧ s1 ∧ ((Q ∧ P) ∨ F))) := by tauto

theorem join_held (A k H P F : Prop) (hx : ¬H) : ((A ∨ (k ∧ ¬H ∧ P)) ∨ F) ↔ (A ∨ (k ∧ P) ∨ F) := by tauto

theorem accumulate_lanes (sat : Bool) (a : Nat) (ha : a < 8) (f : Nat → Int) (L : List Nat) (hL : L.Nodup) (x : Arch) (t o : Bool) :
    LanesDone sat a f L x (L.foldl (fun s i => accumulate sat a i (f i) s) (x, t, o)).1 := by
  induction L generalizing x t o with
  | nil =>
    refine ⟨by simp, fun _ _ _ => rfl, fun k _ => by simp, fun _ k => by simp, rfl⟩
  | cons j L ih =>
    rw [List.nodup_cons] at hL
    have h1 := accumulate_lane sat a j ha (f j) x t o
    rw [List.foldl_cons]
    generalize accumulate sat a j (f j) (x, t, o) = p at h1 ⊢
    obtain ⟨y, t', o'⟩ := p
    have h2 := ih hL.2 y t' o'
    simp only at h1
    have hk : ∀ i ∈ L, 32 * a + i ≠ 32 * a + j := fun i hi e => hL.1 (by rwa [show j = i by omega])
    have hacc : ∀ i ∈ L, y.rAcc a i = x.rAcc a i := fun i hi => h1.else_ a i (hk i hi)
    have hhold : ∀ i ∈ L, ((32 * a + i) ∈ y.hold ↔ (32 * a + i) ∈ x.hold) := fun i hi => h1.kept _ (hk i hi)
    refine ⟨?_, ?_, ?_, ?_, ?_⟩
    · intro i hi
      rcases List.mem_cons.mp hi with rfl | hi
      · rw [h2.else_ a i (fun i' hi' => (hk i' hi').symm), h1.here]
      · rw [h2.here i hi, hacc i hi]; simp only [hhold i hi]
    · intro a' i' h
      rw [h2.else_ a' i' (fun i hi => h i (List.mem_cons_of_mem _ hi)), h1.else_ a' i' (h j List.mem_cons_self)]
    · intro k hk'
      rw [h2.flags k hk', h1.flags k hk']
      have e1 : (∃ i ∈ L, ¬inRange 48 (y.rAcc a i + f i)) ↔ ∃ i ∈ L, ¬inRange 48 (x.rAcc a i + f i) :=
        exists_congr fun i => and_congr_right fun hi => by rw [hacc i hi]
      have e2 : (∃ i ∈ L, (32 * a + i) ∉ y.hold ∧ ¬inRange 48 (y.rAcc a i + f i)) ↔
          ∃ i ∈ L, (32 * a + i) ∉ x.hold ∧ ¬inRange 48 (x.rAcc a i + f i) :=
        exists_congr fun i => and_congr_right fun hi => by rw [hacc i hi, hhold i hi]
      rw [e1, e2]
      simp only [List.mem_cons, exists_eq_or_imp]
      exact join_flags ..
    · intro hs k
      rw [h2.held hs k, h1.held hs k]
      have e1 : (∃ i ∈ L, k = 32 * a + i ∧ ¬inRange 48 (y.rAcc a i + f i)) ↔
          ∃ i ∈ L, k = 32 * a + i ∧ ¬inRange 48 (x.rAcc a i + f i) :=
        exists_congr fun i => and_congr_right fun hi => by rw [hacc i hi]
      rw [e1]
      simp only [List.mem_cons, exists_eq_or_imp]
      by_cases hx : (32 * a + j) ∈ x.hold
      · constructor
        · rintro ((h | h) | h)
          · exact .inl h
          · exact absurd hx h.2.1
          · exact .inr (.inr h)
        · rintro (h | h | h)
          · exact .inl (.inl h)
          · exact .inl (.inl (h.1 ▸ hx))
          · exact .inr h
      · exact join_held _ _ _ _ _ hx
    · generalize (L.foldl (fun s i => accumulate sat a i (f i) s) (y, t', o')).1 = z at h2
      exact h2.rest.trans (congrArg (fun w : Arch => { w with acc := z.acc, accSt := z.accSt, hold := z.hold }) h1.rest)

/-- R143, R144, R181: a multiply-accumulate of the selected lanes. -/
theorem accumulated (b : Bnd) (a : Fin 8) (cplx : Bool) (f : Arch → Nat → Int) (x : Arch) (B0 : Bundle) :
    Accumulated b a.val cplx f x B0
      (let r := ((upFrom 0 32).filter (x.selected b cplx)).foldl
          (fun s i => accumulate (x.sat a.val) a.val i (f x i) s) (B0.next, B0.tovf, B0.sovf)
       { B0.note [nameAcc a.val] with next := r.1, tovf := r.2.1, sovf := r.2.2 }) := by
  have h := accumulate_lanes (x.sat a.val) a.val a.isLt (f x) ((upFrom 0 32).filter (x.selected b cplx))
    ((upFrom_nodup 0 32).filter _) B0.next B0.tovf B0.sovf
  rw [selected_eq] at h ⊢
  generalize ((upFrom 0 32).filter (laneSelected x b cplx)).foldl
    (fun s i => accumulate (x.sat a.val) a.val i (f x i) s) (B0.next, B0.tovf, B0.sovf) = r at h
  have hm : ∀ i, i ∈ (upFrom 0 32).filter (laneSelected x b cplx) ↔ i < 32 ∧ laneSelected x b cplx i = true := by
    intro i; simp [List.mem_filter]
  have hex : ∀ P : Nat → Prop, (∃ i ∈ (upFrom 0 32).filter (laneSelected x b cplx), P i) ↔
      ∃ i < 32, laneSelected x b cplx i = true ∧ P i := by
    intro P; simp only [hm, and_assoc]
  have hs : x.sat a.val = x.accMode.getLsbD a.val := rfl
  rw [hs] at h
  refine ⟨?_, ?_, ?_, ?_, ?_⟩
  · intro i hi
    by_cases hl : laneSelected x b cplx i = true
    · simp only [hl, if_true]; exact h.here i ((hm i).mpr ⟨hi, hl⟩)
    · simp only [hl]
      exact h.else_ _ _ (fun j hj e => hl (by rw [show i = j by omega]; exact ((hm j).mp hj).2))
  · intro a' i ha hi
    exact h.else_ _ _ (fun j hj e => ha (by have := ((hm j).mp hj).1; omega))
  · intro k hk
    refine (h.flags k hk).trans ?_
    rw [hex, hex]
  · intro hmode k
    refine (h.held hmode k).trans ?_
    rw [hex]
  · refine Eq.trans ?_ (b := { B0 with writes := B0.writes ++ [nameAcc a.val], tovf := r.2.1, sovf := r.2.2, next := r.1 }) rfl |>.trans ?_
    · rfl
    · exact congrArg (fun z => { B0 with writes := B0.writes ++ [nameAcc a.val], tovf := r.2.1, sovf := r.2.2, next := z }) h.rest

/-- R181: lanes of ACC[a] set. -/
theorem accSet (b : Bnd) (a : Nat) (cplx : Bool) (f : Arch → Nat → Int) (x : Arch) (B0 : Bundle) :
    AccSet b a cplx f x B0
      ((B0.note [nameAcc a]).withNext (fun y =>
        ((upFrom 0 32).filter (x.selected b cplx)).foldl (fun y i => y.setLane a i (f x i)) y)) := by
  rw [selected_eq]
  have key : ∀ (L : List Nat) (y : Arch), L.Nodup →
      (∀ i ∈ L, (L.foldl (fun y i => y.setLane a i (f x i)) y).rAcc a i = wrapped 48 (f x i)) ∧
      (∀ a' i', (∀ i ∈ L, 32 * a' + i' ≠ 32 * a + i) →
        (L.foldl (fun y i => y.setLane a i (f x i)) y).rAcc a' i' = y.rAcc a' i') ∧
      (∀ k, k ∈ (L.foldl (fun y i => y.setLane a i (f x i)) y).hold ↔ k ∈ y.hold ∧ ¬∃ i ∈ L, k = 32 * a + i) ∧
      L.foldl (fun y i => y.setLane a i (f x i)) y =
        { y with acc := (L.foldl (fun y i => y.setLane a i (f x i)) y).acc,
                 hold := (L.foldl (fun y i => y.setLane a i (f x i)) y).hold } := by
    intro L
    induction L with
    | nil => intro y _; simp
    | cons j L ih =>
      intro y hL
      rw [List.nodup_cons] at hL
      rw [List.foldl_cons]
      obtain ⟨i1, i2, i3, i4⟩ := ih (y.setLane a j (f x j)) hL.2
      refine ⟨?_, ?_, ?_, ?_⟩
      · intro i hi
        rcases List.mem_cons.mp hi with rfl | hi
        · rw [i2 a i (fun i' hi' e => hL.1 (by rwa [show i = i' by omega]))]
          exact Arch.rAcc_wAcc _ _ _ _
        · exact i1 i hi
      · intro a' i' h
        rw [i2 a' i' (fun i hi => h i (List.mem_cons_of_mem _ hi))]
        exact Arch.rAcc_wAcc_ne _ _ (h j List.mem_cons_self)
      · intro k
        rw [i3 k]
        have e : k ∈ (y.setLane a j (f x j)).hold ↔ k ∈ y.hold ∧ k ≠ 32 * a + j := by
          simp [Arch.setLane, Arch.wAcc, List.mem_filter]
        rw [e]; simp only [List.mem_cons, exists_eq_or_imp, not_or, and_assoc, ne_eq]
      · exact i4.trans rfl
  have hm : ∀ i, i ∈ (upFrom 0 32).filter (laneSelected x b cplx) ↔ i < 32 ∧ laneSelected x b cplx i = true := by
    intro i; simp [List.mem_filter]
  obtain ⟨h1, h2, h3, h4⟩ := key ((upFrom 0 32).filter (laneSelected x b cplx)) B0.next ((upFrom_nodup 0 32).filter _)
  refine ⟨?_, ?_, ?_, ?_⟩
  · intro i hi
    by_cases hl : laneSelected x b cplx i = true
    · simp only [hl, if_true]; exact h1 i ((hm i).mpr ⟨hi, hl⟩)
    · simp only [hl]
      exact h2 _ _ (fun j hj e => hl (by rw [show i = j by omega]; exact ((hm j).mp hj).2))
  · intro a' i ha hi
    exact h2 _ _ (fun j hj e => ha (by have := ((hm j).mp hj).1; omega))
  · intro k
    refine (h3 k).trans ?_
    simp only [hm, and_assoc]
  · exact congrArg (fun z => { B0 with writes := B0.writes ++ [nameAcc a], next := z }) h4

/-- R147: the headroom of a value in the range of its width is what the rule says. -/
theorem isHeadroom (n : Nat) (hn : 0 < n) (v : Int) (h : inRange n v) : IsHeadroom n v (headroom n v) := by
  obtain ⟨m, rfl⟩ : ∃ m, n = m + 1 := ⟨n - 1, by omega⟩
  simp only [inRange, IsHeadroom, headroom, Nat.add_sub_cancel] at *
  set u : Nat := if v < 0 then (-v - 1).toNat else v.toNat with hu
  have hb : ∀ k : Nat, (-((2 ^ k : Nat) : Int) ≤ v ∧ v < ((2 ^ k : Nat) : Int)) ↔ u < 2 ^ k := by
    intro k
    rw [hu]
    generalize (2 : Nat) ^ k = P
    split <;> omega
  have hum : u < 2 ^ m := (hb m).mp ⟨h.1, by omega⟩
  by_cases h0 : u = 0
  · simp only [h0, if_true]
    refine ⟨le_refl _, ?_⟩
    rw [← and_assoc, hb]
    exact ⟨by rw [h0]; positivity, fun hlt => absurd hlt (lt_irrefl _)⟩
  · simp only [h0, if_false]
    have hl1 : 2 ^ Nat.log2 u ≤ u := Nat.log2_self_le h0
    have hl2 : u < 2 ^ (Nat.log2 u + 1) := Nat.lt_log2_self
    have hlm : Nat.log2 u < m := (Nat.log2_lt h0).mpr hum
    refine ⟨by omega, ?_⟩
    rw [← and_assoc, hb, hb]
    refine ⟨?_, fun _ => ?_⟩
    · rwa [show m - (m - (Nat.log2 u + 1)) = Nat.log2 u + 1 by omega]
    · rw [show m + 1 - 2 - (m - (Nat.log2 u + 1)) = Nat.log2 u by omega]; omega

theorem minD_spec (d : Nat) (L : List Nat) : (∀ x ∈ L, minD d L ≤ x) ∧ minD d L ≤ d ∧ (minD d L ∈ L ∨ minD d L = d) := by
  induction L with
  | nil => simp [minD]
  | cons x L ih =>
    obtain ⟨h1, h2, h3⟩ := ih
    simp only [minD, List.mem_cons]
    refine ⟨?_, by omega, ?_⟩
    · rintro y (rfl | hy)
      · omega
      · have := h1 y hy; omega
    · rcases Nat.le_total x (minD d L) with h | h
      · left; left; omega
      · rw [Nat.min_eq_right h]
        rcases h3 with h3 | h3
        · exact .inl (.inr h3)
        · exact .inr h3

/-- R147: the block exponent is the smallest headroom of the selected lanes. -/
theorem leastHeadroom (n : Nat) (hn : 0 < n) (x : Arch) (b : Bnd) (f : Nat → Int) (h : ∀ i < 32, inRange n (f i)) :
    LeastHeadroom n (laneSelected x b false) f (blockExponent n (x.rP b.pred.val) f) := by
  have hsel : laneOn (x.rP b.pred.val) = laneSelected x b false := by
    funext i; rfl
  rw [blockExponent, hsel]
  set L := ((upFrom 0 32).filter (laneSelected x b false)).map (fun i => headroom n (f i)) with hL
  obtain ⟨h1, h2, h3⟩ := minD_spec (n - 1) L
  have hmem : ∀ i < 32, laneSelected x b false i = true → headroom n (f i) ∈ L := by
    intro i hi hs; rw [hL]; exact List.mem_map.mpr ⟨i, by simp [List.mem_filter, hi, hs], rfl⟩
  refine ⟨fun i hi hs => ⟨_, isHeadroom n hn _ (h i hi), h1 _ (hmem i hi hs)⟩, ?_⟩
  by_cases hany : ∃ i < 32, laneSelected x b false i = true
  · left
    obtain ⟨i, hi, hs⟩ := hany
    rcases h3 with h3 | h3
    · rw [hL] at h3
      obtain ⟨j, hj, he⟩ := List.mem_map.mp h3
      simp only [List.mem_filter, mem_upFrom] at hj
      exact ⟨j, by omega, hj.2, by rw [← hL] at he; rw [← he]; exact isHeadroom n hn _ (h j (by omega))⟩
    · have hh := isHeadroom n hn _ (h i hi)
      have := h1 _ (hmem i hi hs)
      have e : headroom n (f i) = minD (n - 1) L := by have := hh.1; omega
      exact ⟨i, hi, hs, e ▸ hh⟩
  · right
    have hn : ∀ i < 32, laneSelected x b false i = false := by
      intro i hi; by_contra hc; exact hany ⟨i, hi, by simpa using hc⟩
    refine ⟨hn, ?_⟩
    have : L = [] := by
      rw [hL, List.map_eq_nil_iff, List.filter_eq_nil_iff]
      intro i hi; simp only [mem_upFrom] at hi; simp [hn i (by omega)]
    rw [this]; rfl

end Sys2Proof.Machine
end

