-- ==== Sys2Proof/Laws/Regs.lean ====
section
/-! SUPPORT. Laws of register fields: a field reads as it was last set, and setting it leaves every other field and every other word as
it was. -/

namespace Sys2Proof.Machine

/-- A number cut at two places. -/
theorem split_bits (v lo w : Nat) : v = v % 2 ^ lo + 2 ^ lo * (bitsOf v lo w + 2 ^ w * (v / 2 ^ (lo + w))) := by
  have h1 := Nat.mod_add_div v (2 ^ lo)
  have h2 := Nat.mod_add_div (v / 2 ^ lo) (2 ^ w)
  have h3 : v / 2 ^ (lo + w) = v / 2 ^ lo / 2 ^ w := by rw [Nat.pow_add, Nat.div_div_eq_div_mul]
  rw [bitsOf, h3, h2, h1]

theorem putBits_eq (v lo w x : Nat) : putBits v lo w x = v % 2 ^ lo + 2 ^ lo * (x % 2 ^ w + 2 ^ w * (v / 2 ^ (lo + w))) := by
  have h := split_bits v lo w
  unfold putBits
  have e : v - bitsOf v lo w * 2 ^ lo = v % 2 ^ lo + 2 ^ lo * (2 ^ w * (v / 2 ^ (lo + w))) := by
    have : v % 2 ^ lo + 2 ^ lo * (bitsOf v lo w + 2 ^ w * (v / 2 ^ (lo + w)))
        = bitsOf v lo w * 2 ^ lo + (v % 2 ^ lo + 2 ^ lo * (2 ^ w * (v / 2 ^ (lo + w)))) := by ring
    omega
  rw [e]; ring

theorem putBits_mod (v lo w x : Nat) : putBits v lo w x % 2 ^ lo = v % 2 ^ lo := by
  rw [putBits_eq, Nat.add_mul_mod_self_left, Nat.mod_mod]

theorem putBits_div (v lo w x : Nat) : putBits v lo w x / 2 ^ lo = x % 2 ^ w + 2 ^ w * (v / 2 ^ (lo + w)) := by
  rw [putBits_eq, Nat.add_mul_div_left _ _ (by positivity), Nat.div_eq_of_lt (Nat.mod_lt _ (by positivity)), Nat.zero_add]

theorem putBits_div_above (v lo w x : Nat) : putBits v lo w x / 2 ^ (lo + w) = v / 2 ^ (lo + w) := by
  rw [Nat.pow_add, ← Nat.div_div_eq_div_mul, putBits_div, Nat.add_mul_div_left _ _ (by positivity),
    Nat.div_eq_of_lt (Nat.mod_lt _ (by positivity)), Nat.zero_add, Nat.pow_add]

/-- A field reads as it was put. -/
@[simp] theorem bitsOf_putBits_self (v lo w x : Nat) : bitsOf (putBits v lo w x) lo w = x % 2 ^ w := by
  rw [bitsOf, putBits_div, Nat.add_mul_mod_self_left, Nat.mod_mod]

/-- A field below one that is put. -/
theorem bitsOf_putBits_below (v lo w x : Nat) {l n : Nat} (h : l + n ≤ lo) : bitsOf (putBits v lo w x) l n = bitsOf v l n := by
  have e : ∀ y : Nat, bitsOf y l n = bitsOf (y % 2 ^ lo) l n := by
    intro y
    unfold bitsOf
    have h1 : 2 ^ lo = 2 ^ l * 2 ^ (lo - l) := by rw [← Nat.pow_add]; congr 1; omega
    rw [h1, Nat.mod_mul_right_div_self, Nat.mod_mod_of_dvd _ (Nat.pow_dvd_pow 2 (by omega))]
  rw [e, putBits_mod, ← e]

/-- A field above one that is put. -/
theorem bitsOf_putBits_above (v lo w x : Nat) {l n : Nat} (h : lo + w ≤ l) : bitsOf (putBits v lo w x) l n = bitsOf v l n := by
  have e : ∀ y : Nat, bitsOf y l n = bitsOf (y / 2 ^ (lo + w)) (l - (lo + w)) n := by
    intro y
    unfold bitsOf
    rw [Nat.div_div_eq_div_mul, ← Nat.pow_add]
    congr 4; omega
  rw [e, putBits_div_above, ← e]

theorem bitsOf_lt (v lo w : Nat) : bitsOf v lo w < 2 ^ w := Nat.mod_lt _ (by positivity)

theorem putBits_lt (v lo w x : Nat) {n : Nat} (hv : v < 2 ^ n) (h : lo + w ≤ n) : putBits v lo w x < 2 ^ n := by
  have e : putBits v lo w x / 2 ^ n = 0 := by
    have h1 : 2 ^ n = 2 ^ (lo + w) * 2 ^ (n - (lo + w)) := by rw [← Nat.pow_add]; congr 1; omega
    rw [h1, ← Nat.div_div_eq_div_mul, putBits_div_above, Nat.div_div_eq_div_mul, ← h1, Nat.div_eq_of_lt hv]
  exact (Nat.div_eq_zero_iff_lt (by positivity)).1 e

/-! ### Words -/

@[simp] theorem Dev.word_setWord (d : Dev) (o : Nat) (v : Reg32) : (d.setWord o v).word o = v := lookup_update_self _ _ _ _

theorem Dev.word_setWord_ne (d : Dev) (v : Reg32) {o p : Nat} (h : p ≠ o) : (d.setWord o v).word p = d.word p :=
  lookup_update_ne _ _ _ h

theorem Dev.word_set_ne (d : Dev) (f : Fld) (v : Nat) {p : Nat} (h : p ≠ f.off) : (d.set f v).word p = d.word p :=
  Dev.word_setWord_ne d _ h

/-- A word after one of its fields has been set. -/
theorem Dev.word_set_toNat (d : Dev) (f : Fld) (v : Nat) (h : f.lo + f.w ≤ 32) :
    ((d.set f v).word f.off).toNat = putBits (d.word f.off).toNat f.lo f.w v := by
  rw [Dev.set, Dev.word_setWord, BitVec.toNat_ofNat]
  exact Nat.mod_eq_of_lt (putBits_lt _ _ _ _ (d.word f.off).isLt h)

/-! ### Fields -/

/-- A field reads as it was set, modulo its width. -/
theorem Dev.get_set_self (d : Dev) (f : Fld) (v : Nat) (h : f.lo + f.w ≤ 32) : (d.set f v).get f = v % 2 ^ f.w := by
  rw [Dev.get, Dev.word_set_toNat d f v h, bitsOf_putBits_self]

/-- A field of another word keeps its value. -/
theorem Dev.get_set_off (d : Dev) (f g : Fld) (v : Nat) (h : g.off ≠ f.off) : (d.set f v).get g = d.get g := by
  rw [Dev.get, Dev.get, Dev.word_set_ne d f v h]

/-- Another field of the same word keeps its value. -/
theorem Dev.get_set_field (d : Dev) (f g : Fld) (v : Nat) (hf : f.lo + f.w ≤ 32) (ho : g.off = f.off)
    (h : g.lo + g.w ≤ f.lo ∨ f.lo + f.w ≤ g.lo) : (d.set f v).get g = d.get g := by
  rw [Dev.get, Dev.get, ho, Dev.word_set_toNat d f v hf]
  rcases h with h | h
  · exact bitsOf_putBits_below _ _ _ _ h
  · exact bitsOf_putBits_above _ _ _ _ h

/-- The value of a field fits it. -/
theorem Dev.get_lt (d : Dev) (f : Fld) : d.get f < 2 ^ f.w := bitsOf_lt _ _ _

end Sys2Proof.Machine
end

