-- ==== Sys2Proof/Laws/State.lean ====
section
/-! SUPPORT. What each update of the device leaves alone, and what it makes of the field it changes: one lemma per field and update. -/

namespace Sys2Proof.Machine

/-! ### `Dev.setWord` -/

@[simp] theorem Dev.setWord_mem (d : Dev) (o : Nat) (v : Reg32) : (d.setWord o v).mem = d.mem := rfl
@[simp] theorem Dev.setWord_locked (d : Dev) (o : Nat) (v : Reg32) : (d.setWord o v).locked = d.locked := rfl
@[simp] theorem Dev.setWord_out (d : Dev) (o : Nat) (v : Reg32) : (d.setWord o v).out = d.out := rfl
@[simp] theorem Dev.setWord_jfe (d : Dev) (o : Nat) (v : Reg32) : (d.setWord o v).jfe = d.jfe := rfl
@[simp] theorem Dev.setWord_evt (d : Dev) (o : Nat) (v : Reg32) : (d.setWord o v).evt = d.evt := rfl
@[simp] theorem Dev.setWord_ram (d : Dev) (o : Nat) (v : Reg32) : (d.setWord o v).ram = d.ram := rfl
@[simp] theorem Dev.setWord_pace (d : Dev) (o : Nat) (v : Reg32) : (d.setWord o v).pace = d.pace := rfl
@[simp] theorem Dev.setWord_power (d : Dev) (o : Nat) (v : Reg32) : (d.setWord o v).power = d.power := rfl
@[simp] theorem Dev.setWord_boot (d : Dev) (o : Nat) (v : Reg32) : (d.setWord o v).boot = d.boot := rfl
@[simp] theorem Dev.setWord_noc (d : Dev) (o : Nat) (v : Reg32) : (d.setWord o v).noc = d.noc := rfl
@[simp] theorem Dev.setWord_cores (d : Dev) (o : Nat) (v : Reg32) : (d.setWord o v).cores = d.cores := rfl
@[simp] theorem Dev.setWord_tsu (d : Dev) (o : Nat) (v : Reg32) : (d.setWord o v).tsu = d.tsu := rfl
@[simp] theorem Dev.setWord_links (d : Dev) (o : Nat) (v : Reg32) : (d.setWord o v).links = d.links := rfl
@[simp] theorem Dev.setWord_code (d : Dev) (o : Nat) (v : Reg32) : (d.setWord o v).code = d.code := rfl
@[simp] theorem Dev.setWord_brx (d : Dev) (o : Nat) (v : Reg32) : (d.setWord o v).brx = d.brx := rfl
@[simp] theorem Dev.setWord_dfe (d : Dev) (o : Nat) (v : Reg32) : (d.setWord o v).dfe = d.dfe := rfl
@[simp] theorem Dev.setWord_eth (d : Dev) (o : Nat) (v : Reg32) : (d.setWord o v).eth = d.eth := rfl
@[simp] theorem Dev.setWord_sec (d : Dev) (o : Nat) (v : Reg32) : (d.setWord o v).sec = d.sec := rfl
@[simp] theorem Dev.setWord_time (d : Dev) (o : Nat) (v : Reg32) : (d.setWord o v).time = d.time := rfl
@[simp] theorem Dev.setWord_free (d : Dev) (o : Nat) (v : Reg32) : (d.setWord o v).free = d.free := rfl

/-! ### `Dev.set` -/

@[simp] theorem Dev.set_mem (d : Dev) (f : Fld) (v : Nat) : (d.set f v).mem = d.mem := rfl
@[simp] theorem Dev.set_locked (d : Dev) (f : Fld) (v : Nat) : (d.set f v).locked = d.locked := rfl
@[simp] theorem Dev.set_out (d : Dev) (f : Fld) (v : Nat) : (d.set f v).out = d.out := rfl
@[simp] theorem Dev.set_jfe (d : Dev) (f : Fld) (v : Nat) : (d.set f v).jfe = d.jfe := rfl
@[simp] theorem Dev.set_evt (d : Dev) (f : Fld) (v : Nat) : (d.set f v).evt = d.evt := rfl
@[simp] theorem Dev.set_ram (d : Dev) (f : Fld) (v : Nat) : (d.set f v).ram = d.ram := rfl
@[simp] theorem Dev.set_pace (d : Dev) (f : Fld) (v : Nat) : (d.set f v).pace = d.pace := rfl
@[simp] theorem Dev.set_power (d : Dev) (f : Fld) (v : Nat) : (d.set f v).power = d.power := rfl
@[simp] theorem Dev.set_boot (d : Dev) (f : Fld) (v : Nat) : (d.set f v).boot = d.boot := rfl
@[simp] theorem Dev.set_noc (d : Dev) (f : Fld) (v : Nat) : (d.set f v).noc = d.noc := rfl
@[simp] theorem Dev.set_cores (d : Dev) (f : Fld) (v : Nat) : (d.set f v).cores = d.cores := rfl
@[simp] theorem Dev.set_tsu (d : Dev) (f : Fld) (v : Nat) : (d.set f v).tsu = d.tsu := rfl
@[simp] theorem Dev.set_links (d : Dev) (f : Fld) (v : Nat) : (d.set f v).links = d.links := rfl
@[simp] theorem Dev.set_code (d : Dev) (f : Fld) (v : Nat) : (d.set f v).code = d.code := rfl
@[simp] theorem Dev.set_brx (d : Dev) (f : Fld) (v : Nat) : (d.set f v).brx = d.brx := rfl
@[simp] theorem Dev.set_dfe (d : Dev) (f : Fld) (v : Nat) : (d.set f v).dfe = d.dfe := rfl
@[simp] theorem Dev.set_eth (d : Dev) (f : Fld) (v : Nat) : (d.set f v).eth = d.eth := rfl
@[simp] theorem Dev.set_sec (d : Dev) (f : Fld) (v : Nat) : (d.set f v).sec = d.sec := rfl
@[simp] theorem Dev.set_time (d : Dev) (f : Fld) (v : Nat) : (d.set f v).time = d.time := rfl
@[simp] theorem Dev.set_free (d : Dev) (f : Fld) (v : Nat) : (d.set f v).free = d.free := rfl

/-! ### `Dev.setBit` -/

@[simp] theorem Dev.setBit_mem (d : Dev) (f : Fld) (k : Nat) : (d.setBit f k).mem = d.mem := rfl
@[simp] theorem Dev.setBit_locked (d : Dev) (f : Fld) (k : Nat) : (d.setBit f k).locked = d.locked := rfl
@[simp] theorem Dev.setBit_out (d : Dev) (f : Fld) (k : Nat) : (d.setBit f k).out = d.out := rfl
@[simp] theorem Dev.setBit_jfe (d : Dev) (f : Fld) (k : Nat) : (d.setBit f k).jfe = d.jfe := rfl
@[simp] theorem Dev.setBit_evt (d : Dev) (f : Fld) (k : Nat) : (d.setBit f k).evt = d.evt := rfl
@[simp] theorem Dev.setBit_ram (d : Dev) (f : Fld) (k : Nat) : (d.setBit f k).ram = d.ram := rfl
@[simp] theorem Dev.setBit_pace (d : Dev) (f : Fld) (k : Nat) : (d.setBit f k).pace = d.pace := rfl
@[simp] theorem Dev.setBit_power (d : Dev) (f : Fld) (k : Nat) : (d.setBit f k).power = d.power := rfl
@[simp] theorem Dev.setBit_boot (d : Dev) (f : Fld) (k : Nat) : (d.setBit f k).boot = d.boot := rfl
@[simp] theorem Dev.setBit_noc (d : Dev) (f : Fld) (k : Nat) : (d.setBit f k).noc = d.noc := rfl
@[simp] theorem Dev.setBit_cores (d : Dev) (f : Fld) (k : Nat) : (d.setBit f k).cores = d.cores := rfl
@[simp] theorem Dev.setBit_tsu (d : Dev) (f : Fld) (k : Nat) : (d.setBit f k).tsu = d.tsu := rfl
@[simp] theorem Dev.setBit_links (d : Dev) (f : Fld) (k : Nat) : (d.setBit f k).links = d.links := rfl
@[simp] theorem Dev.setBit_code (d : Dev) (f : Fld) (k : Nat) : (d.setBit f k).code = d.code := rfl
@[simp] theorem Dev.setBit_brx (d : Dev) (f : Fld) (k : Nat) : (d.setBit f k).brx = d.brx := rfl
@[simp] theorem Dev.setBit_dfe (d : Dev) (f : Fld) (k : Nat) : (d.setBit f k).dfe = d.dfe := rfl
@[simp] theorem Dev.setBit_eth (d : Dev) (f : Fld) (k : Nat) : (d.setBit f k).eth = d.eth := rfl
@[simp] theorem Dev.setBit_sec (d : Dev) (f : Fld) (k : Nat) : (d.setBit f k).sec = d.sec := rfl
@[simp] theorem Dev.setBit_time (d : Dev) (f : Fld) (k : Nat) : (d.setBit f k).time = d.time := rfl
@[simp] theorem Dev.setBit_free (d : Dev) (f : Fld) (k : Nat) : (d.setBit f k).free = d.free := rfl

/-! ### `Dev.clearBit` -/

@[simp] theorem Dev.clearBit_mem (d : Dev) (f : Fld) (k : Nat) : (d.clearBit f k).mem = d.mem := rfl
@[simp] theorem Dev.clearBit_locked (d : Dev) (f : Fld) (k : Nat) : (d.clearBit f k).locked = d.locked := rfl
@[simp] theorem Dev.clearBit_out (d : Dev) (f : Fld) (k : Nat) : (d.clearBit f k).out = d.out := rfl
@[simp] theorem Dev.clearBit_jfe (d : Dev) (f : Fld) (k : Nat) : (d.clearBit f k).jfe = d.jfe := rfl
@[simp] theorem Dev.clearBit_evt (d : Dev) (f : Fld) (k : Nat) : (d.clearBit f k).evt = d.evt := rfl
@[simp] theorem Dev.clearBit_ram (d : Dev) (f : Fld) (k : Nat) : (d.clearBit f k).ram = d.ram := rfl
@[simp] theorem Dev.clearBit_pace (d : Dev) (f : Fld) (k : Nat) : (d.clearBit f k).pace = d.pace := rfl
@[simp] theorem Dev.clearBit_power (d : Dev) (f : Fld) (k : Nat) : (d.clearBit f k).power = d.power := rfl
@[simp] theorem Dev.clearBit_boot (d : Dev) (f : Fld) (k : Nat) : (d.clearBit f k).boot = d.boot := rfl
@[simp] theorem Dev.clearBit_noc (d : Dev) (f : Fld) (k : Nat) : (d.clearBit f k).noc = d.noc := rfl
@[simp] theorem Dev.clearBit_cores (d : Dev) (f : Fld) (k : Nat) : (d.clearBit f k).cores = d.cores := rfl
@[simp] theorem Dev.clearBit_tsu (d : Dev) (f : Fld) (k : Nat) : (d.clearBit f k).tsu = d.tsu := rfl
@[simp] theorem Dev.clearBit_links (d : Dev) (f : Fld) (k : Nat) : (d.clearBit f k).links = d.links := rfl
@[simp] theorem Dev.clearBit_code (d : Dev) (f : Fld) (k : Nat) : (d.clearBit f k).code = d.code := rfl
@[simp] theorem Dev.clearBit_brx (d : Dev) (f : Fld) (k : Nat) : (d.clearBit f k).brx = d.brx := rfl
@[simp] theorem Dev.clearBit_dfe (d : Dev) (f : Fld) (k : Nat) : (d.clearBit f k).dfe = d.dfe := rfl
@[simp] theorem Dev.clearBit_eth (d : Dev) (f : Fld) (k : Nat) : (d.clearBit f k).eth = d.eth := rfl
@[simp] theorem Dev.clearBit_sec (d : Dev) (f : Fld) (k : Nat) : (d.clearBit f k).sec = d.sec := rfl
@[simp] theorem Dev.clearBit_time (d : Dev) (f : Fld) (k : Nat) : (d.clearBit f k).time = d.time := rfl
@[simp] theorem Dev.clearBit_free (d : Dev) (f : Fld) (k : Nat) : (d.clearBit f k).free = d.free := rfl

/-! ### `Dev.add` -/

@[simp] theorem Dev.add_mem (d : Dev) (f : Fld) (n : Nat) : (d.add f n).mem = d.mem := rfl
@[simp] theorem Dev.add_locked (d : Dev) (f : Fld) (n : Nat) : (d.add f n).locked = d.locked := rfl
@[simp] theorem Dev.add_out (d : Dev) (f : Fld) (n : Nat) : (d.add f n).out = d.out := rfl
@[simp] theorem Dev.add_jfe (d : Dev) (f : Fld) (n : Nat) : (d.add f n).jfe = d.jfe := rfl
@[simp] theorem Dev.add_evt (d : Dev) (f : Fld) (n : Nat) : (d.add f n).evt = d.evt := rfl
@[simp] theorem Dev.add_ram (d : Dev) (f : Fld) (n : Nat) : (d.add f n).ram = d.ram := rfl
@[simp] theorem Dev.add_pace (d : Dev) (f : Fld) (n : Nat) : (d.add f n).pace = d.pace := rfl
@[simp] theorem Dev.add_power (d : Dev) (f : Fld) (n : Nat) : (d.add f n).power = d.power := rfl
@[simp] theorem Dev.add_boot (d : Dev) (f : Fld) (n : Nat) : (d.add f n).boot = d.boot := rfl
@[simp] theorem Dev.add_noc (d : Dev) (f : Fld) (n : Nat) : (d.add f n).noc = d.noc := rfl
@[simp] theorem Dev.add_cores (d : Dev) (f : Fld) (n : Nat) : (d.add f n).cores = d.cores := rfl
@[simp] theorem Dev.add_tsu (d : Dev) (f : Fld) (n : Nat) : (d.add f n).tsu = d.tsu := rfl
@[simp] theorem Dev.add_links (d : Dev) (f : Fld) (n : Nat) : (d.add f n).links = d.links := rfl
@[simp] theorem Dev.add_code (d : Dev) (f : Fld) (n : Nat) : (d.add f n).code = d.code := rfl
@[simp] theorem Dev.add_brx (d : Dev) (f : Fld) (n : Nat) : (d.add f n).brx = d.brx := rfl
@[simp] theorem Dev.add_dfe (d : Dev) (f : Fld) (n : Nat) : (d.add f n).dfe = d.dfe := rfl
@[simp] theorem Dev.add_eth (d : Dev) (f : Fld) (n : Nat) : (d.add f n).eth = d.eth := rfl
@[simp] theorem Dev.add_sec (d : Dev) (f : Fld) (n : Nat) : (d.add f n).sec = d.sec := rfl
@[simp] theorem Dev.add_time (d : Dev) (f : Fld) (n : Nat) : (d.add f n).time = d.time := rfl
@[simp] theorem Dev.add_free (d : Dev) (f : Fld) (n : Nat) : (d.add f n).free = d.free := rfl

/-! ### `Dev.bump` -/

@[simp] theorem Dev.bump_mem (d : Dev) (f : Fld) : (d.bump f).mem = d.mem := rfl
@[simp] theorem Dev.bump_locked (d : Dev) (f : Fld) : (d.bump f).locked = d.locked := rfl
@[simp] theorem Dev.bump_out (d : Dev) (f : Fld) : (d.bump f).out = d.out := rfl
@[simp] theorem Dev.bump_jfe (d : Dev) (f : Fld) : (d.bump f).jfe = d.jfe := rfl
@[simp] theorem Dev.bump_evt (d : Dev) (f : Fld) : (d.bump f).evt = d.evt := rfl
@[simp] theorem Dev.bump_ram (d : Dev) (f : Fld) : (d.bump f).ram = d.ram := rfl
@[simp] theorem Dev.bump_pace (d : Dev) (f : Fld) : (d.bump f).pace = d.pace := rfl
@[simp] theorem Dev.bump_power (d : Dev) (f : Fld) : (d.bump f).power = d.power := rfl
@[simp] theorem Dev.bump_boot (d : Dev) (f : Fld) : (d.bump f).boot = d.boot := rfl
@[simp] theorem Dev.bump_noc (d : Dev) (f : Fld) : (d.bump f).noc = d.noc := rfl
@[simp] theorem Dev.bump_cores (d : Dev) (f : Fld) : (d.bump f).cores = d.cores := rfl
@[simp] theorem Dev.bump_tsu (d : Dev) (f : Fld) : (d.bump f).tsu = d.tsu := rfl
@[simp] theorem Dev.bump_links (d : Dev) (f : Fld) : (d.bump f).links = d.links := rfl
@[simp] theorem Dev.bump_code (d : Dev) (f : Fld) : (d.bump f).code = d.code := rfl
@[simp] theorem Dev.bump_brx (d : Dev) (f : Fld) : (d.bump f).brx = d.brx := rfl
@[simp] theorem Dev.bump_dfe (d : Dev) (f : Fld) : (d.bump f).dfe = d.dfe := rfl
@[simp] theorem Dev.bump_eth (d : Dev) (f : Fld) : (d.bump f).eth = d.eth := rfl
@[simp] theorem Dev.bump_sec (d : Dev) (f : Fld) : (d.bump f).sec = d.sec := rfl
@[simp] theorem Dev.bump_time (d : Dev) (f : Fld) : (d.bump f).time = d.time := rfl
@[simp] theorem Dev.bump_free (d : Dev) (f : Fld) : (d.bump f).free = d.free := rfl

/-! ### `Dev.set64` -/

@[simp] theorem Dev.set64_mem (d : Dev) (f : Fld) (v : Nat) : (d.set64 f v).mem = d.mem := rfl
@[simp] theorem Dev.set64_locked (d : Dev) (f : Fld) (v : Nat) : (d.set64 f v).locked = d.locked := rfl
@[simp] theorem Dev.set64_out (d : Dev) (f : Fld) (v : Nat) : (d.set64 f v).out = d.out := rfl
@[simp] theorem Dev.set64_jfe (d : Dev) (f : Fld) (v : Nat) : (d.set64 f v).jfe = d.jfe := rfl
@[simp] theorem Dev.set64_evt (d : Dev) (f : Fld) (v : Nat) : (d.set64 f v).evt = d.evt := rfl
@[simp] theorem Dev.set64_ram (d : Dev) (f : Fld) (v : Nat) : (d.set64 f v).ram = d.ram := rfl
@[simp] theorem Dev.set64_pace (d : Dev) (f : Fld) (v : Nat) : (d.set64 f v).pace = d.pace := rfl
@[simp] theorem Dev.set64_power (d : Dev) (f : Fld) (v : Nat) : (d.set64 f v).power = d.power := rfl
@[simp] theorem Dev.set64_boot (d : Dev) (f : Fld) (v : Nat) : (d.set64 f v).boot = d.boot := rfl
@[simp] theorem Dev.set64_noc (d : Dev) (f : Fld) (v : Nat) : (d.set64 f v).noc = d.noc := rfl
@[simp] theorem Dev.set64_cores (d : Dev) (f : Fld) (v : Nat) : (d.set64 f v).cores = d.cores := rfl
@[simp] theorem Dev.set64_tsu (d : Dev) (f : Fld) (v : Nat) : (d.set64 f v).tsu = d.tsu := rfl
@[simp] theorem Dev.set64_links (d : Dev) (f : Fld) (v : Nat) : (d.set64 f v).links = d.links := rfl
@[simp] theorem Dev.set64_code (d : Dev) (f : Fld) (v : Nat) : (d.set64 f v).code = d.code := rfl
@[simp] theorem Dev.set64_brx (d : Dev) (f : Fld) (v : Nat) : (d.set64 f v).brx = d.brx := rfl
@[simp] theorem Dev.set64_dfe (d : Dev) (f : Fld) (v : Nat) : (d.set64 f v).dfe = d.dfe := rfl
@[simp] theorem Dev.set64_eth (d : Dev) (f : Fld) (v : Nat) : (d.set64 f v).eth = d.eth := rfl
@[simp] theorem Dev.set64_sec (d : Dev) (f : Fld) (v : Nat) : (d.set64 f v).sec = d.sec := rfl
@[simp] theorem Dev.set64_time (d : Dev) (f : Fld) (v : Nat) : (d.set64 f v).time = d.time := rfl
@[simp] theorem Dev.set64_free (d : Dev) (f : Fld) (v : Nat) : (d.set64 f v).free = d.free := rfl

/-! ### `Dev.send` -/

@[simp] theorem Dev.send_mem (d : Dev) (o : Out) : (d.send o).mem = d.mem := rfl
@[simp] theorem Dev.send_regs (d : Dev) (o : Out) : (d.send o).regs = d.regs := rfl
@[simp] theorem Dev.send_locked (d : Dev) (o : Out) : (d.send o).locked = d.locked := rfl
@[simp] theorem Dev.send_out (d : Dev) (o : Out) : (d.send o).out = d.out ++ [o] := rfl
@[simp] theorem Dev.send_jfe (d : Dev) (o : Out) : (d.send o).jfe = d.jfe := rfl
@[simp] theorem Dev.send_evt (d : Dev) (o : Out) : (d.send o).evt = d.evt := rfl
@[simp] theorem Dev.send_ram (d : Dev) (o : Out) : (d.send o).ram = d.ram := rfl
@[simp] theorem Dev.send_pace (d : Dev) (o : Out) : (d.send o).pace = d.pace := rfl
@[simp] theorem Dev.send_power (d : Dev) (o : Out) : (d.send o).power = d.power := rfl
@[simp] theorem Dev.send_boot (d : Dev) (o : Out) : (d.send o).boot = d.boot := rfl
@[simp] theorem Dev.send_noc (d : Dev) (o : Out) : (d.send o).noc = d.noc := rfl
@[simp] theorem Dev.send_cores (d : Dev) (o : Out) : (d.send o).cores = d.cores := rfl
@[simp] theorem Dev.send_tsu (d : Dev) (o : Out) : (d.send o).tsu = d.tsu := rfl
@[simp] theorem Dev.send_links (d : Dev) (o : Out) : (d.send o).links = d.links := rfl
@[simp] theorem Dev.send_code (d : Dev) (o : Out) : (d.send o).code = d.code := rfl
@[simp] theorem Dev.send_brx (d : Dev) (o : Out) : (d.send o).brx = d.brx := rfl
@[simp] theorem Dev.send_dfe (d : Dev) (o : Out) : (d.send o).dfe = d.dfe := rfl
@[simp] theorem Dev.send_eth (d : Dev) (o : Out) : (d.send o).eth = d.eth := rfl
@[simp] theorem Dev.send_sec (d : Dev) (o : Out) : (d.send o).sec = d.sec := rfl
@[simp] theorem Dev.send_time (d : Dev) (o : Out) : (d.send o).time = d.time := rfl
@[simp] theorem Dev.send_free (d : Dev) (o : Out) : (d.send o).free = d.free := rfl

/-! ### `Dev.raiseWorld` -/

@[simp] theorem Dev.raiseWorld_mem (d : Dev) (n : Nat) (w : Bool) : (d.raiseWorld n w).mem = d.mem := rfl
@[simp] theorem Dev.raiseWorld_regs (d : Dev) (n : Nat) (w : Bool) : (d.raiseWorld n w).regs = d.regs := rfl
@[simp] theorem Dev.raiseWorld_locked (d : Dev) (n : Nat) (w : Bool) : (d.raiseWorld n w).locked = d.locked := rfl
@[simp] theorem Dev.raiseWorld_out (d : Dev) (n : Nat) (w : Bool) : (d.raiseWorld n w).out = d.out := rfl
@[simp] theorem Dev.raiseWorld_jfe (d : Dev) (n : Nat) (w : Bool) : (d.raiseWorld n w).jfe = d.jfe := rfl
@[simp] theorem Dev.raiseWorld_evt (d : Dev) (n : Nat) (w : Bool) : (d.raiseWorld n w).evt = { d.evt with queue := d.evt.queue ++ [⟨n, w⟩] } := rfl
@[simp] theorem Dev.raiseWorld_ram (d : Dev) (n : Nat) (w : Bool) : (d.raiseWorld n w).ram = d.ram := rfl
@[simp] theorem Dev.raiseWorld_pace (d : Dev) (n : Nat) (w : Bool) : (d.raiseWorld n w).pace = d.pace := rfl
@[simp] theorem Dev.raiseWorld_power (d : Dev) (n : Nat) (w : Bool) : (d.raiseWorld n w).power = d.power := rfl
@[simp] theorem Dev.raiseWorld_boot (d : Dev) (n : Nat) (w : Bool) : (d.raiseWorld n w).boot = d.boot := rfl
@[simp] theorem Dev.raiseWorld_noc (d : Dev) (n : Nat) (w : Bool) : (d.raiseWorld n w).noc = d.noc := rfl
@[simp] theorem Dev.raiseWorld_cores (d : Dev) (n : Nat) (w : Bool) : (d.raiseWorld n w).cores = d.cores := rfl
@[simp] theorem Dev.raiseWorld_tsu (d : Dev) (n : Nat) (w : Bool) : (d.raiseWorld n w).tsu = d.tsu := rfl
@[simp] theorem Dev.raiseWorld_links (d : Dev) (n : Nat) (w : Bool) : (d.raiseWorld n w).links = d.links := rfl
@[simp] theorem Dev.raiseWorld_code (d : Dev) (n : Nat) (w : Bool) : (d.raiseWorld n w).code = d.code := rfl
@[simp] theorem Dev.raiseWorld_brx (d : Dev) (n : Nat) (w : Bool) : (d.raiseWorld n w).brx = d.brx := rfl
@[simp] theorem Dev.raiseWorld_dfe (d : Dev) (n : Nat) (w : Bool) : (d.raiseWorld n w).dfe = d.dfe := rfl
@[simp] theorem Dev.raiseWorld_eth (d : Dev) (n : Nat) (w : Bool) : (d.raiseWorld n w).eth = d.eth := rfl
@[simp] theorem Dev.raiseWorld_sec (d : Dev) (n : Nat) (w : Bool) : (d.raiseWorld n w).sec = d.sec := rfl
@[simp] theorem Dev.raiseWorld_time (d : Dev) (n : Nat) (w : Bool) : (d.raiseWorld n w).time = d.time := rfl
@[simp] theorem Dev.raiseWorld_free (d : Dev) (n : Nat) (w : Bool) : (d.raiseWorld n w).free = d.free := rfl

/-! ### `Dev.raise` -/

@[simp] theorem Dev.raise_mem (d : Dev) (n : Nat) : (d.raise n).mem = d.mem := rfl
@[simp] theorem Dev.raise_regs (d : Dev) (n : Nat) : (d.raise n).regs = d.regs := rfl
@[simp] theorem Dev.raise_locked (d : Dev) (n : Nat) : (d.raise n).locked = d.locked := rfl
@[simp] theorem Dev.raise_out (d : Dev) (n : Nat) : (d.raise n).out = d.out := rfl
@[simp] theorem Dev.raise_jfe (d : Dev) (n : Nat) : (d.raise n).jfe = d.jfe := rfl
@[simp] theorem Dev.raise_evt (d : Dev) (n : Nat) : (d.raise n).evt = { d.evt with queue := d.evt.queue ++ [⟨n, d.sourceWorld n⟩] } := rfl
@[simp] theorem Dev.raise_ram (d : Dev) (n : Nat) : (d.raise n).ram = d.ram := rfl
@[simp] theorem Dev.raise_pace (d : Dev) (n : Nat) : (d.raise n).pace = d.pace := rfl
@[simp] theorem Dev.raise_power (d : Dev) (n : Nat) : (d.raise n).power = d.power := rfl
@[simp] theorem Dev.raise_boot (d : Dev) (n : Nat) : (d.raise n).boot = d.boot := rfl
@[simp] theorem Dev.raise_noc (d : Dev) (n : Nat) : (d.raise n).noc = d.noc := rfl
@[simp] theorem Dev.raise_cores (d : Dev) (n : Nat) : (d.raise n).cores = d.cores := rfl
@[simp] theorem Dev.raise_tsu (d : Dev) (n : Nat) : (d.raise n).tsu = d.tsu := rfl
@[simp] theorem Dev.raise_links (d : Dev) (n : Nat) : (d.raise n).links = d.links := rfl
@[simp] theorem Dev.raise_code (d : Dev) (n : Nat) : (d.raise n).code = d.code := rfl
@[simp] theorem Dev.raise_brx (d : Dev) (n : Nat) : (d.raise n).brx = d.brx := rfl
@[simp] theorem Dev.raise_dfe (d : Dev) (n : Nat) : (d.raise n).dfe = d.dfe := rfl
@[simp] theorem Dev.raise_eth (d : Dev) (n : Nat) : (d.raise n).eth = d.eth := rfl
@[simp] theorem Dev.raise_sec (d : Dev) (n : Nat) : (d.raise n).sec = d.sec := rfl
@[simp] theorem Dev.raise_time (d : Dev) (n : Nat) : (d.raise n).time = d.time := rfl
@[simp] theorem Dev.raise_free (d : Dev) (n : Nat) : (d.raise n).free = d.free := rfl

/-! ### `Dev.onJfe` -/

@[simp] theorem Dev.onJfe_mem (d : Dev) (g : JfeState → JfeState) : (d.onJfe g).mem = d.mem := rfl
@[simp] theorem Dev.onJfe_regs (d : Dev) (g : JfeState → JfeState) : (d.onJfe g).regs = d.regs := rfl
@[simp] theorem Dev.onJfe_locked (d : Dev) (g : JfeState → JfeState) : (d.onJfe g).locked = d.locked := rfl
@[simp] theorem Dev.onJfe_out (d : Dev) (g : JfeState → JfeState) : (d.onJfe g).out = d.out := rfl
@[simp] theorem Dev.onJfe_jfe (d : Dev) (g : JfeState → JfeState) : (d.onJfe g).jfe = g d.jfe := rfl
@[simp] theorem Dev.onJfe_evt (d : Dev) (g : JfeState → JfeState) : (d.onJfe g).evt = d.evt := rfl
@[simp] theorem Dev.onJfe_ram (d : Dev) (g : JfeState → JfeState) : (d.onJfe g).ram = d.ram := rfl
@[simp] theorem Dev.onJfe_pace (d : Dev) (g : JfeState → JfeState) : (d.onJfe g).pace = d.pace := rfl
@[simp] theorem Dev.onJfe_power (d : Dev) (g : JfeState → JfeState) : (d.onJfe g).power = d.power := rfl
@[simp] theorem Dev.onJfe_boot (d : Dev) (g : JfeState → JfeState) : (d.onJfe g).boot = d.boot := rfl
@[simp] theorem Dev.onJfe_noc (d : Dev) (g : JfeState → JfeState) : (d.onJfe g).noc = d.noc := rfl
@[simp] theorem Dev.onJfe_cores (d : Dev) (g : JfeState → JfeState) : (d.onJfe g).cores = d.cores := rfl
@[simp] theorem Dev.onJfe_tsu (d : Dev) (g : JfeState → JfeState) : (d.onJfe g).tsu = d.tsu := rfl
@[simp] theorem Dev.onJfe_links (d : Dev) (g : JfeState → JfeState) : (d.onJfe g).links = d.links := rfl
@[simp] theorem Dev.onJfe_code (d : Dev) (g : JfeState → JfeState) : (d.onJfe g).code = d.code := rfl
@[simp] theorem Dev.onJfe_brx (d : Dev) (g : JfeState → JfeState) : (d.onJfe g).brx = d.brx := rfl
@[simp] theorem Dev.onJfe_dfe (d : Dev) (g : JfeState → JfeState) : (d.onJfe g).dfe = d.dfe := rfl
@[simp] theorem Dev.onJfe_eth (d : Dev) (g : JfeState → JfeState) : (d.onJfe g).eth = d.eth := rfl
@[simp] theorem Dev.onJfe_sec (d : Dev) (g : JfeState → JfeState) : (d.onJfe g).sec = d.sec := rfl
@[simp] theorem Dev.onJfe_time (d : Dev) (g : JfeState → JfeState) : (d.onJfe g).time = d.time := rfl
@[simp] theorem Dev.onJfe_free (d : Dev) (g : JfeState → JfeState) : (d.onJfe g).free = d.free := rfl

/-! ### `Dev.onEvt` -/

@[simp] theorem Dev.onEvt_mem (d : Dev) (g : EvtState → EvtState) : (d.onEvt g).mem = d.mem := rfl
@[simp] theorem Dev.onEvt_regs (d : Dev) (g : EvtState → EvtState) : (d.onEvt g).regs = d.regs := rfl
@[simp] theorem Dev.onEvt_locked (d : Dev) (g : EvtState → EvtState) : (d.onEvt g).locked = d.locked := rfl
@[simp] theorem Dev.onEvt_out (d : Dev) (g : EvtState → EvtState) : (d.onEvt g).out = d.out := rfl
@[simp] theorem Dev.onEvt_jfe (d : Dev) (g : EvtState → EvtState) : (d.onEvt g).jfe = d.jfe := rfl
@[simp] theorem Dev.onEvt_evt (d : Dev) (g : EvtState → EvtState) : (d.onEvt g).evt = g d.evt := rfl
@[simp] theorem Dev.onEvt_ram (d : Dev) (g : EvtState → EvtState) : (d.onEvt g).ram = d.ram := rfl
@[simp] theorem Dev.onEvt_pace (d : Dev) (g : EvtState → EvtState) : (d.onEvt g).pace = d.pace := rfl
@[simp] theorem Dev.onEvt_power (d : Dev) (g : EvtState → EvtState) : (d.onEvt g).power = d.power := rfl
@[simp] theorem Dev.onEvt_boot (d : Dev) (g : EvtState → EvtState) : (d.onEvt g).boot = d.boot := rfl
@[simp] theorem Dev.onEvt_noc (d : Dev) (g : EvtState → EvtState) : (d.onEvt g).noc = d.noc := rfl
@[simp] theorem Dev.onEvt_cores (d : Dev) (g : EvtState → EvtState) : (d.onEvt g).cores = d.cores := rfl
@[simp] theorem Dev.onEvt_tsu (d : Dev) (g : EvtState → EvtState) : (d.onEvt g).tsu = d.tsu := rfl
@[simp] theorem Dev.onEvt_links (d : Dev) (g : EvtState → EvtState) : (d.onEvt g).links = d.links := rfl
@[simp] theorem Dev.onEvt_code (d : Dev) (g : EvtState → EvtState) : (d.onEvt g).code = d.code := rfl
@[simp] theorem Dev.onEvt_brx (d : Dev) (g : EvtState → EvtState) : (d.onEvt g).brx = d.brx := rfl
@[simp] theorem Dev.onEvt_dfe (d : Dev) (g : EvtState → EvtState) : (d.onEvt g).dfe = d.dfe := rfl
@[simp] theorem Dev.onEvt_eth (d : Dev) (g : EvtState → EvtState) : (d.onEvt g).eth = d.eth := rfl
@[simp] theorem Dev.onEvt_sec (d : Dev) (g : EvtState → EvtState) : (d.onEvt g).sec = d.sec := rfl
@[simp] theorem Dev.onEvt_time (d : Dev) (g : EvtState → EvtState) : (d.onEvt g).time = d.time := rfl
@[simp] theorem Dev.onEvt_free (d : Dev) (g : EvtState → EvtState) : (d.onEvt g).free = d.free := rfl

/-! ### `Dev.onRam` -/

@[simp] theorem Dev.onRam_mem (d : Dev) (g : MemState → MemState) : (d.onRam g).mem = d.mem := rfl
@[simp] theorem Dev.onRam_regs (d : Dev) (g : MemState → MemState) : (d.onRam g).regs = d.regs := rfl
@[simp] theorem Dev.onRam_locked (d : Dev) (g : MemState → MemState) : (d.onRam g).locked = d.locked := rfl
@[simp] theorem Dev.onRam_out (d : Dev) (g : MemState → MemState) : (d.onRam g).out = d.out := rfl
@[simp] theorem Dev.onRam_jfe (d : Dev) (g : MemState → MemState) : (d.onRam g).jfe = d.jfe := rfl
@[simp] theorem Dev.onRam_evt (d : Dev) (g : MemState → MemState) : (d.onRam g).evt = d.evt := rfl
@[simp] theorem Dev.onRam_ram (d : Dev) (g : MemState → MemState) : (d.onRam g).ram = g d.ram := rfl
@[simp] theorem Dev.onRam_pace (d : Dev) (g : MemState → MemState) : (d.onRam g).pace = d.pace := rfl
@[simp] theorem Dev.onRam_power (d : Dev) (g : MemState → MemState) : (d.onRam g).power = d.power := rfl
@[simp] theorem Dev.onRam_boot (d : Dev) (g : MemState → MemState) : (d.onRam g).boot = d.boot := rfl
@[simp] theorem Dev.onRam_noc (d : Dev) (g : MemState → MemState) : (d.onRam g).noc = d.noc := rfl
@[simp] theorem Dev.onRam_cores (d : Dev) (g : MemState → MemState) : (d.onRam g).cores = d.cores := rfl
@[simp] theorem Dev.onRam_tsu (d : Dev) (g : MemState → MemState) : (d.onRam g).tsu = d.tsu := rfl
@[simp] theorem Dev.onRam_links (d : Dev) (g : MemState → MemState) : (d.onRam g).links = d.links := rfl
@[simp] theorem Dev.onRam_code (d : Dev) (g : MemState → MemState) : (d.onRam g).code = d.code := rfl
@[simp] theorem Dev.onRam_brx (d : Dev) (g : MemState → MemState) : (d.onRam g).brx = d.brx := rfl
@[simp] theorem Dev.onRam_dfe (d : Dev) (g : MemState → MemState) : (d.onRam g).dfe = d.dfe := rfl
@[simp] theorem Dev.onRam_eth (d : Dev) (g : MemState → MemState) : (d.onRam g).eth = d.eth := rfl
@[simp] theorem Dev.onRam_sec (d : Dev) (g : MemState → MemState) : (d.onRam g).sec = d.sec := rfl
@[simp] theorem Dev.onRam_time (d : Dev) (g : MemState → MemState) : (d.onRam g).time = d.time := rfl
@[simp] theorem Dev.onRam_free (d : Dev) (g : MemState → MemState) : (d.onRam g).free = d.free := rfl

/-! ### `Dev.onPace` -/

@[simp] theorem Dev.onPace_mem (d : Dev) (g : PaceState → PaceState) : (d.onPace g).mem = d.mem := rfl
@[simp] theorem Dev.onPace_regs (d : Dev) (g : PaceState → PaceState) : (d.onPace g).regs = d.regs := rfl
@[simp] theorem Dev.onPace_locked (d : Dev) (g : PaceState → PaceState) : (d.onPace g).locked = d.locked := rfl
@[simp] theorem Dev.onPace_out (d : Dev) (g : PaceState → PaceState) : (d.onPace g).out = d.out := rfl
@[simp] theorem Dev.onPace_jfe (d : Dev) (g : PaceState → PaceState) : (d.onPace g).jfe = d.jfe := rfl
@[simp] theorem Dev.onPace_evt (d : Dev) (g : PaceState → PaceState) : (d.onPace g).evt = d.evt := rfl
@[simp] theorem Dev.onPace_ram (d : Dev) (g : PaceState → PaceState) : (d.onPace g).ram = d.ram := rfl
@[simp] theorem Dev.onPace_pace (d : Dev) (g : PaceState → PaceState) : (d.onPace g).pace = g d.pace := rfl
@[simp] theorem Dev.onPace_power (d : Dev) (g : PaceState → PaceState) : (d.onPace g).power = d.power := rfl
@[simp] theorem Dev.onPace_boot (d : Dev) (g : PaceState → PaceState) : (d.onPace g).boot = d.boot := rfl
@[simp] theorem Dev.onPace_noc (d : Dev) (g : PaceState → PaceState) : (d.onPace g).noc = d.noc := rfl
@[simp] theorem Dev.onPace_cores (d : Dev) (g : PaceState → PaceState) : (d.onPace g).cores = d.cores := rfl
@[simp] theorem Dev.onPace_tsu (d : Dev) (g : PaceState → PaceState) : (d.onPace g).tsu = d.tsu := rfl
@[simp] theorem Dev.onPace_links (d : Dev) (g : PaceState → PaceState) : (d.onPace g).links = d.links := rfl
@[simp] theorem Dev.onPace_code (d : Dev) (g : PaceState → PaceState) : (d.onPace g).code = d.code := rfl
@[simp] theorem Dev.onPace_brx (d : Dev) (g : PaceState → PaceState) : (d.onPace g).brx = d.brx := rfl
@[simp] theorem Dev.onPace_dfe (d : Dev) (g : PaceState → PaceState) : (d.onPace g).dfe = d.dfe := rfl
@[simp] theorem Dev.onPace_eth (d : Dev) (g : PaceState → PaceState) : (d.onPace g).eth = d.eth := rfl
@[simp] theorem Dev.onPace_sec (d : Dev) (g : PaceState → PaceState) : (d.onPace g).sec = d.sec := rfl
@[simp] theorem Dev.onPace_time (d : Dev) (g : PaceState → PaceState) : (d.onPace g).time = d.time := rfl
@[simp] theorem Dev.onPace_free (d : Dev) (g : PaceState → PaceState) : (d.onPace g).free = d.free := rfl

/-! ### `Dev.onPower` -/

@[simp] theorem Dev.onPower_mem (d : Dev) (g : PowerState → PowerState) : (d.onPower g).mem = d.mem := rfl
@[simp] theorem Dev.onPower_regs (d : Dev) (g : PowerState → PowerState) : (d.onPower g).regs = d.regs := rfl
@[simp] theorem Dev.onPower_locked (d : Dev) (g : PowerState → PowerState) : (d.onPower g).locked = d.locked := rfl
@[simp] theorem Dev.onPower_out (d : Dev) (g : PowerState → PowerState) : (d.onPower g).out = d.out := rfl
@[simp] theorem Dev.onPower_jfe (d : Dev) (g : PowerState → PowerState) : (d.onPower g).jfe = d.jfe := rfl
@[simp] theorem Dev.onPower_evt (d : Dev) (g : PowerState → PowerState) : (d.onPower g).evt = d.evt := rfl
@[simp] theorem Dev.onPower_ram (d : Dev) (g : PowerState → PowerState) : (d.onPower g).ram = d.ram := rfl
@[simp] theorem Dev.onPower_pace (d : Dev) (g : PowerState → PowerState) : (d.onPower g).pace = d.pace := rfl
@[simp] theorem Dev.onPower_power (d : Dev) (g : PowerState → PowerState) : (d.onPower g).power = g d.power := rfl
@[simp] theorem Dev.onPower_boot (d : Dev) (g : PowerState → PowerState) : (d.onPower g).boot = d.boot := rfl
@[simp] theorem Dev.onPower_noc (d : Dev) (g : PowerState → PowerState) : (d.onPower g).noc = d.noc := rfl
@[simp] theorem Dev.onPower_cores (d : Dev) (g : PowerState → PowerState) : (d.onPower g).cores = d.cores := rfl
@[simp] theorem Dev.onPower_tsu (d : Dev) (g : PowerState → PowerState) : (d.onPower g).tsu = d.tsu := rfl
@[simp] theorem Dev.onPower_links (d : Dev) (g : PowerState → PowerState) : (d.onPower g).links = d.links := rfl
@[simp] theorem Dev.onPower_code (d : Dev) (g : PowerState → PowerState) : (d.onPower g).code = d.code := rfl
@[simp] theorem Dev.onPower_brx (d : Dev) (g : PowerState → PowerState) : (d.onPower g).brx = d.brx := rfl
@[simp] theorem Dev.onPower_dfe (d : Dev) (g : PowerState → PowerState) : (d.onPower g).dfe = d.dfe := rfl
@[simp] theorem Dev.onPower_eth (d : Dev) (g : PowerState → PowerState) : (d.onPower g).eth = d.eth := rfl
@[simp] theorem Dev.onPower_sec (d : Dev) (g : PowerState → PowerState) : (d.onPower g).sec = d.sec := rfl
@[simp] theorem Dev.onPower_time (d : Dev) (g : PowerState → PowerState) : (d.onPower g).time = d.time := rfl
@[simp] theorem Dev.onPower_free (d : Dev) (g : PowerState → PowerState) : (d.onPower g).free = d.free := rfl

/-! ### `Dev.onBoot` -/

@[simp] theorem Dev.onBoot_mem (d : Dev) (g : BootState → BootState) : (d.onBoot g).mem = d.mem := rfl
@[simp] theorem Dev.onBoot_regs (d : Dev) (g : BootState → BootState) : (d.onBoot g).regs = d.regs := rfl
@[simp] theorem Dev.onBoot_locked (d : Dev) (g : BootState → BootState) : (d.onBoot g).locked = d.locked := rfl
@[simp] theorem Dev.onBoot_out (d : Dev) (g : BootState → BootState) : (d.onBoot g).out = d.out := rfl
@[simp] theorem Dev.onBoot_jfe (d : Dev) (g : BootState → BootState) : (d.onBoot g).jfe = d.jfe := rfl
@[simp] theorem Dev.onBoot_evt (d : Dev) (g : BootState → BootState) : (d.onBoot g).evt = d.evt := rfl
@[simp] theorem Dev.onBoot_ram (d : Dev) (g : BootState → BootState) : (d.onBoot g).ram = d.ram := rfl
@[simp] theorem Dev.onBoot_pace (d : Dev) (g : BootState → BootState) : (d.onBoot g).pace = d.pace := rfl
@[simp] theorem Dev.onBoot_power (d : Dev) (g : BootState → BootState) : (d.onBoot g).power = d.power := rfl
@[simp] theorem Dev.onBoot_boot (d : Dev) (g : BootState → BootState) : (d.onBoot g).boot = g d.boot := rfl
@[simp] theorem Dev.onBoot_noc (d : Dev) (g : BootState → BootState) : (d.onBoot g).noc = d.noc := rfl
@[simp] theorem Dev.onBoot_cores (d : Dev) (g : BootState → BootState) : (d.onBoot g).cores = d.cores := rfl
@[simp] theorem Dev.onBoot_tsu (d : Dev) (g : BootState → BootState) : (d.onBoot g).tsu = d.tsu := rfl
@[simp] theorem Dev.onBoot_links (d : Dev) (g : BootState → BootState) : (d.onBoot g).links = d.links := rfl
@[simp] theorem Dev.onBoot_code (d : Dev) (g : BootState → BootState) : (d.onBoot g).code = d.code := rfl
@[simp] theorem Dev.onBoot_brx (d : Dev) (g : BootState → BootState) : (d.onBoot g).brx = d.brx := rfl
@[simp] theorem Dev.onBoot_dfe (d : Dev) (g : BootState → BootState) : (d.onBoot g).dfe = d.dfe := rfl
@[simp] theorem Dev.onBoot_eth (d : Dev) (g : BootState → BootState) : (d.onBoot g).eth = d.eth := rfl
@[simp] theorem Dev.onBoot_sec (d : Dev) (g : BootState → BootState) : (d.onBoot g).sec = d.sec := rfl
@[simp] theorem Dev.onBoot_time (d : Dev) (g : BootState → BootState) : (d.onBoot g).time = d.time := rfl
@[simp] theorem Dev.onBoot_free (d : Dev) (g : BootState → BootState) : (d.onBoot g).free = d.free := rfl

/-! ### `Dev.onLink` -/

@[simp] theorem Dev.onLink_mem (d : Dev) (p : Nat) (g : LinkPort → LinkPort) : (d.onLink p g).mem = d.mem := rfl
@[simp] theorem Dev.onLink_regs (d : Dev) (p : Nat) (g : LinkPort → LinkPort) : (d.onLink p g).regs = d.regs := rfl
@[simp] theorem Dev.onLink_locked (d : Dev) (p : Nat) (g : LinkPort → LinkPort) : (d.onLink p g).locked = d.locked := rfl
@[simp] theorem Dev.onLink_out (d : Dev) (p : Nat) (g : LinkPort → LinkPort) : (d.onLink p g).out = d.out := rfl
@[simp] theorem Dev.onLink_jfe (d : Dev) (p : Nat) (g : LinkPort → LinkPort) : (d.onLink p g).jfe = d.jfe := rfl
@[simp] theorem Dev.onLink_evt (d : Dev) (p : Nat) (g : LinkPort → LinkPort) : (d.onLink p g).evt = d.evt := rfl
@[simp] theorem Dev.onLink_ram (d : Dev) (p : Nat) (g : LinkPort → LinkPort) : (d.onLink p g).ram = d.ram := rfl
@[simp] theorem Dev.onLink_pace (d : Dev) (p : Nat) (g : LinkPort → LinkPort) : (d.onLink p g).pace = d.pace := rfl
@[simp] theorem Dev.onLink_power (d : Dev) (p : Nat) (g : LinkPort → LinkPort) : (d.onLink p g).power = d.power := rfl
@[simp] theorem Dev.onLink_boot (d : Dev) (p : Nat) (g : LinkPort → LinkPort) : (d.onLink p g).boot = d.boot := rfl
@[simp] theorem Dev.onLink_noc (d : Dev) (p : Nat) (g : LinkPort → LinkPort) : (d.onLink p g).noc = d.noc := rfl
@[simp] theorem Dev.onLink_cores (d : Dev) (p : Nat) (g : LinkPort → LinkPort) : (d.onLink p g).cores = d.cores := rfl
@[simp] theorem Dev.onLink_tsu (d : Dev) (p : Nat) (g : LinkPort → LinkPort) : (d.onLink p g).tsu = d.tsu := rfl
@[simp] theorem Dev.onLink_code (d : Dev) (p : Nat) (g : LinkPort → LinkPort) : (d.onLink p g).code = d.code := rfl
@[simp] theorem Dev.onLink_brx (d : Dev) (p : Nat) (g : LinkPort → LinkPort) : (d.onLink p g).brx = d.brx := rfl
@[simp] theorem Dev.onLink_dfe (d : Dev) (p : Nat) (g : LinkPort → LinkPort) : (d.onLink p g).dfe = d.dfe := rfl
@[simp] theorem Dev.onLink_eth (d : Dev) (p : Nat) (g : LinkPort → LinkPort) : (d.onLink p g).eth = d.eth := rfl
@[simp] theorem Dev.onLink_sec (d : Dev) (p : Nat) (g : LinkPort → LinkPort) : (d.onLink p g).sec = d.sec := rfl
@[simp] theorem Dev.onLink_time (d : Dev) (p : Nat) (g : LinkPort → LinkPort) : (d.onLink p g).time = d.time := rfl
@[simp] theorem Dev.onLink_free (d : Dev) (p : Nat) (g : LinkPort → LinkPort) : (d.onLink p g).free = d.free := rfl

/-! ### `Dev.onCode` -/

@[simp] theorem Dev.onCode_mem (d : Dev) (g : CodeState → CodeState) : (d.onCode g).mem = d.mem := rfl
@[simp] theorem Dev.onCode_regs (d : Dev) (g : CodeState → CodeState) : (d.onCode g).regs = d.regs := rfl
@[simp] theorem Dev.onCode_locked (d : Dev) (g : CodeState → CodeState) : (d.onCode g).locked = d.locked := rfl
@[simp] theorem Dev.onCode_out (d : Dev) (g : CodeState → CodeState) : (d.onCode g).out = d.out := rfl
@[simp] theorem Dev.onCode_jfe (d : Dev) (g : CodeState → CodeState) : (d.onCode g).jfe = d.jfe := rfl
@[simp] theorem Dev.onCode_evt (d : Dev) (g : CodeState → CodeState) : (d.onCode g).evt = d.evt := rfl
@[simp] theorem Dev.onCode_ram (d : Dev) (g : CodeState → CodeState) : (d.onCode g).ram = d.ram := rfl
@[simp] theorem Dev.onCode_pace (d : Dev) (g : CodeState → CodeState) : (d.onCode g).pace = d.pace := rfl
@[simp] theorem Dev.onCode_power (d : Dev) (g : CodeState → CodeState) : (d.onCode g).power = d.power := rfl
@[simp] theorem Dev.onCode_boot (d : Dev) (g : CodeState → CodeState) : (d.onCode g).boot = d.boot := rfl
@[simp] theorem Dev.onCode_noc (d : Dev) (g : CodeState → CodeState) : (d.onCode g).noc = d.noc := rfl
@[simp] theorem Dev.onCode_cores (d : Dev) (g : CodeState → CodeState) : (d.onCode g).cores = d.cores := rfl
@[simp] theorem Dev.onCode_tsu (d : Dev) (g : CodeState → CodeState) : (d.onCode g).tsu = d.tsu := rfl
@[simp] theorem Dev.onCode_links (d : Dev) (g : CodeState → CodeState) : (d.onCode g).links = d.links := rfl
@[simp] theorem Dev.onCode_code (d : Dev) (g : CodeState → CodeState) : (d.onCode g).code = g d.code := rfl
@[simp] theorem Dev.onCode_brx (d : Dev) (g : CodeState → CodeState) : (d.onCode g).brx = d.brx := rfl
@[simp] theorem Dev.onCode_dfe (d : Dev) (g : CodeState → CodeState) : (d.onCode g).dfe = d.dfe := rfl
@[simp] theorem Dev.onCode_eth (d : Dev) (g : CodeState → CodeState) : (d.onCode g).eth = d.eth := rfl
@[simp] theorem Dev.onCode_sec (d : Dev) (g : CodeState → CodeState) : (d.onCode g).sec = d.sec := rfl
@[simp] theorem Dev.onCode_time (d : Dev) (g : CodeState → CodeState) : (d.onCode g).time = d.time := rfl
@[simp] theorem Dev.onCode_free (d : Dev) (g : CodeState → CodeState) : (d.onCode g).free = d.free := rfl

/-! ### `Dev.onBrx` -/

@[simp] theorem Dev.onBrx_mem (d : Dev) (g : BrxState → BrxState) : (d.onBrx g).mem = d.mem := rfl
@[simp] theorem Dev.onBrx_regs (d : Dev) (g : BrxState → BrxState) : (d.onBrx g).regs = d.regs := rfl
@[simp] theorem Dev.onBrx_locked (d : Dev) (g : BrxState → BrxState) : (d.onBrx g).locked = d.locked := rfl
@[simp] theorem Dev.onBrx_out (d : Dev) (g : BrxState → BrxState) : (d.onBrx g).out = d.out := rfl
@[simp] theorem Dev.onBrx_jfe (d : Dev) (g : BrxState → BrxState) : (d.onBrx g).jfe = d.jfe := rfl
@[simp] theorem Dev.onBrx_evt (d : Dev) (g : BrxState → BrxState) : (d.onBrx g).evt = d.evt := rfl
@[simp] theorem Dev.onBrx_ram (d : Dev) (g : BrxState → BrxState) : (d.onBrx g).ram = d.ram := rfl
@[simp] theorem Dev.onBrx_pace (d : Dev) (g : BrxState → BrxState) : (d.onBrx g).pace = d.pace := rfl
@[simp] theorem Dev.onBrx_power (d : Dev) (g : BrxState → BrxState) : (d.onBrx g).power = d.power := rfl
@[simp] theorem Dev.onBrx_boot (d : Dev) (g : BrxState → BrxState) : (d.onBrx g).boot = d.boot := rfl
@[simp] theorem Dev.onBrx_noc (d : Dev) (g : BrxState → BrxState) : (d.onBrx g).noc = d.noc := rfl
@[simp] theorem Dev.onBrx_cores (d : Dev) (g : BrxState → BrxState) : (d.onBrx g).cores = d.cores := rfl
@[simp] theorem Dev.onBrx_tsu (d : Dev) (g : BrxState → BrxState) : (d.onBrx g).tsu = d.tsu := rfl
@[simp] theorem Dev.onBrx_links (d : Dev) (g : BrxState → BrxState) : (d.onBrx g).links = d.links := rfl
@[simp] theorem Dev.onBrx_code (d : Dev) (g : BrxState → BrxState) : (d.onBrx g).code = d.code := rfl
@[simp] theorem Dev.onBrx_brx (d : Dev) (g : BrxState → BrxState) : (d.onBrx g).brx = g d.brx := rfl
@[simp] theorem Dev.onBrx_dfe (d : Dev) (g : BrxState → BrxState) : (d.onBrx g).dfe = d.dfe := rfl
@[simp] theorem Dev.onBrx_eth (d : Dev) (g : BrxState → BrxState) : (d.onBrx g).eth = d.eth := rfl
@[simp] theorem Dev.onBrx_sec (d : Dev) (g : BrxState → BrxState) : (d.onBrx g).sec = d.sec := rfl
@[simp] theorem Dev.onBrx_time (d : Dev) (g : BrxState → BrxState) : (d.onBrx g).time = d.time := rfl
@[simp] theorem Dev.onBrx_free (d : Dev) (g : BrxState → BrxState) : (d.onBrx g).free = d.free := rfl

/-! ### `Dev.onEth` -/

@[simp] theorem Dev.onEth_mem (d : Dev) (g : EthState → EthState) : (d.onEth g).mem = d.mem := rfl
@[simp] theorem Dev.onEth_regs (d : Dev) (g : EthState → EthState) : (d.onEth g).regs = d.regs := rfl
@[simp] theorem Dev.onEth_locked (d : Dev) (g : EthState → EthState) : (d.onEth g).locked = d.locked := rfl
@[simp] theorem Dev.onEth_out (d : Dev) (g : EthState → EthState) : (d.onEth g).out = d.out := rfl
@[simp] theorem Dev.onEth_jfe (d : Dev) (g : EthState → EthState) : (d.onEth g).jfe = d.jfe := rfl
@[simp] theorem Dev.onEth_evt (d : Dev) (g : EthState → EthState) : (d.onEth g).evt = d.evt := rfl
@[simp] theorem Dev.onEth_ram (d : Dev) (g : EthState → EthState) : (d.onEth g).ram = d.ram := rfl
@[simp] theorem Dev.onEth_pace (d : Dev) (g : EthState → EthState) : (d.onEth g).pace = d.pace := rfl
@[simp] theorem Dev.onEth_power (d : Dev) (g : EthState → EthState) : (d.onEth g).power = d.power := rfl
@[simp] theorem Dev.onEth_boot (d : Dev) (g : EthState → EthState) : (d.onEth g).boot = d.boot := rfl
@[simp] theorem Dev.onEth_noc (d : Dev) (g : EthState → EthState) : (d.onEth g).noc = d.noc := rfl
@[simp] theorem Dev.onEth_cores (d : Dev) (g : EthState → EthState) : (d.onEth g).cores = d.cores := rfl
@[simp] theorem Dev.onEth_tsu (d : Dev) (g : EthState → EthState) : (d.onEth g).tsu = d.tsu := rfl
@[simp] theorem Dev.onEth_links (d : Dev) (g : EthState → EthState) : (d.onEth g).links = d.links := rfl
@[simp] theorem Dev.onEth_code (d : Dev) (g : EthState → EthState) : (d.onEth g).code = d.code := rfl
@[simp] theorem Dev.onEth_brx (d : Dev) (g : EthState → EthState) : (d.onEth g).brx = d.brx := rfl
@[simp] theorem Dev.onEth_dfe (d : Dev) (g : EthState → EthState) : (d.onEth g).dfe = d.dfe := rfl
@[simp] theorem Dev.onEth_eth (d : Dev) (g : EthState → EthState) : (d.onEth g).eth = g d.eth := rfl
@[simp] theorem Dev.onEth_sec (d : Dev) (g : EthState → EthState) : (d.onEth g).sec = d.sec := rfl
@[simp] theorem Dev.onEth_time (d : Dev) (g : EthState → EthState) : (d.onEth g).time = d.time := rfl
@[simp] theorem Dev.onEth_free (d : Dev) (g : EthState → EthState) : (d.onEth g).free = d.free := rfl

/-! ### `Dev.onSec` -/

@[simp] theorem Dev.onSec_mem (d : Dev) (g : SecState → SecState) : (d.onSec g).mem = d.mem := rfl
@[simp] theorem Dev.onSec_regs (d : Dev) (g : SecState → SecState) : (d.onSec g).regs = d.regs := rfl
@[simp] theorem Dev.onSec_locked (d : Dev) (g : SecState → SecState) : (d.onSec g).locked = d.locked := rfl
@[simp] theorem Dev.onSec_out (d : Dev) (g : SecState → SecState) : (d.onSec g).out = d.out := rfl
@[simp] theorem Dev.onSec_jfe (d : Dev) (g : SecState → SecState) : (d.onSec g).jfe = d.jfe := rfl
@[simp] theorem Dev.onSec_evt (d : Dev) (g : SecState → SecState) : (d.onSec g).evt = d.evt := rfl
@[simp] theorem Dev.onSec_ram (d : Dev) (g : SecState → SecState) : (d.onSec g).ram = d.ram := rfl
@[simp] theorem Dev.onSec_pace (d : Dev) (g : SecState → SecState) : (d.onSec g).pace = d.pace := rfl
@[simp] theorem Dev.onSec_power (d : Dev) (g : SecState → SecState) : (d.onSec g).power = d.power := rfl
@[simp] theorem Dev.onSec_boot (d : Dev) (g : SecState → SecState) : (d.onSec g).boot = d.boot := rfl
@[simp] theorem Dev.onSec_noc (d : Dev) (g : SecState → SecState) : (d.onSec g).noc = d.noc := rfl
@[simp] theorem Dev.onSec_cores (d : Dev) (g : SecState → SecState) : (d.onSec g).cores = d.cores := rfl
@[simp] theorem Dev.onSec_tsu (d : Dev) (g : SecState → SecState) : (d.onSec g).tsu = d.tsu := rfl
@[simp] theorem Dev.onSec_links (d : Dev) (g : SecState → SecState) : (d.onSec g).links = d.links := rfl
@[simp] theorem Dev.onSec_code (d : Dev) (g : SecState → SecState) : (d.onSec g).code = d.code := rfl
@[simp] theorem Dev.onSec_brx (d : Dev) (g : SecState → SecState) : (d.onSec g).brx = d.brx := rfl
@[simp] theorem Dev.onSec_dfe (d : Dev) (g : SecState → SecState) : (d.onSec g).dfe = d.dfe := rfl
@[simp] theorem Dev.onSec_eth (d : Dev) (g : SecState → SecState) : (d.onSec g).eth = d.eth := rfl
@[simp] theorem Dev.onSec_sec (d : Dev) (g : SecState → SecState) : (d.onSec g).sec = g d.sec := rfl
@[simp] theorem Dev.onSec_time (d : Dev) (g : SecState → SecState) : (d.onSec g).time = d.time := rfl
@[simp] theorem Dev.onSec_free (d : Dev) (g : SecState → SecState) : (d.onSec g).free = d.free := rfl

/-! ### `Dev.onTime` -/

@[simp] theorem Dev.onTime_mem (d : Dev) (g : TimeState → TimeState) : (d.onTime g).mem = d.mem := rfl
@[simp] theorem Dev.onTime_regs (d : Dev) (g : TimeState → TimeState) : (d.onTime g).regs = d.regs := rfl
@[simp] theorem Dev.onTime_locked (d : Dev) (g : TimeState → TimeState) : (d.onTime g).locked = d.locked := rfl
@[simp] theorem Dev.onTime_out (d : Dev) (g : TimeState → TimeState) : (d.onTime g).out = d.out := rfl
@[simp] theorem Dev.onTime_jfe (d : Dev) (g : TimeState → TimeState) : (d.onTime g).jfe = d.jfe := rfl
@[simp] theorem Dev.onTime_evt (d : Dev) (g : TimeState → TimeState) : (d.onTime g).evt = d.evt := rfl
@[simp] theorem Dev.onTime_ram (d : Dev) (g : TimeState → TimeState) : (d.onTime g).ram = d.ram := rfl
@[simp] theorem Dev.onTime_pace (d : Dev) (g : TimeState → TimeState) : (d.onTime g).pace = d.pace := rfl
@[simp] theorem Dev.onTime_power (d : Dev) (g : TimeState → TimeState) : (d.onTime g).power = d.power := rfl
@[simp] theorem Dev.onTime_boot (d : Dev) (g : TimeState → TimeState) : (d.onTime g).boot = d.boot := rfl
@[simp] theorem Dev.onTime_noc (d : Dev) (g : TimeState → TimeState) : (d.onTime g).noc = d.noc := rfl
@[simp] theorem Dev.onTime_cores (d : Dev) (g : TimeState → TimeState) : (d.onTime g).cores = d.cores := rfl
@[simp] theorem Dev.onTime_tsu (d : Dev) (g : TimeState → TimeState) : (d.onTime g).tsu = d.tsu := rfl
@[simp] theorem Dev.onTime_links (d : Dev) (g : TimeState → TimeState) : (d.onTime g).links = d.links := rfl
@[simp] theorem Dev.onTime_code (d : Dev) (g : TimeState → TimeState) : (d.onTime g).code = d.code := rfl
@[simp] theorem Dev.onTime_brx (d : Dev) (g : TimeState → TimeState) : (d.onTime g).brx = d.brx := rfl
@[simp] theorem Dev.onTime_dfe (d : Dev) (g : TimeState → TimeState) : (d.onTime g).dfe = d.dfe := rfl
@[simp] theorem Dev.onTime_eth (d : Dev) (g : TimeState → TimeState) : (d.onTime g).eth = d.eth := rfl
@[simp] theorem Dev.onTime_sec (d : Dev) (g : TimeState → TimeState) : (d.onTime g).sec = d.sec := rfl
@[simp] theorem Dev.onTime_time (d : Dev) (g : TimeState → TimeState) : (d.onTime g).time = g d.time := rfl
@[simp] theorem Dev.onTime_free (d : Dev) (g : TimeState → TimeState) : (d.onTime g).free = d.free := rfl

/-! ### `Dev.setRaw` -/

@[simp] theorem Dev.setRaw_regs (d : Dev) (w v : Nat) : (d.setRaw w v).regs = d.regs := rfl
@[simp] theorem Dev.setRaw_locked (d : Dev) (w v : Nat) : (d.setRaw w v).locked = d.locked := rfl
@[simp] theorem Dev.setRaw_out (d : Dev) (w v : Nat) : (d.setRaw w v).out = d.out := rfl
@[simp] theorem Dev.setRaw_jfe (d : Dev) (w v : Nat) : (d.setRaw w v).jfe = d.jfe := rfl
@[simp] theorem Dev.setRaw_evt (d : Dev) (w v : Nat) : (d.setRaw w v).evt = d.evt := rfl
@[simp] theorem Dev.setRaw_ram (d : Dev) (w v : Nat) : (d.setRaw w v).ram = d.ram := rfl
@[simp] theorem Dev.setRaw_pace (d : Dev) (w v : Nat) : (d.setRaw w v).pace = d.pace := rfl
@[simp] theorem Dev.setRaw_power (d : Dev) (w v : Nat) : (d.setRaw w v).power = d.power := rfl
@[simp] theorem Dev.setRaw_boot (d : Dev) (w v : Nat) : (d.setRaw w v).boot = d.boot := rfl
@[simp] theorem Dev.setRaw_noc (d : Dev) (w v : Nat) : (d.setRaw w v).noc = d.noc := rfl
@[simp] theorem Dev.setRaw_cores (d : Dev) (w v : Nat) : (d.setRaw w v).cores = d.cores := rfl
@[simp] theorem Dev.setRaw_tsu (d : Dev) (w v : Nat) : (d.setRaw w v).tsu = d.tsu := rfl
@[simp] theorem Dev.setRaw_links (d : Dev) (w v : Nat) : (d.setRaw w v).links = d.links := rfl
@[simp] theorem Dev.setRaw_code (d : Dev) (w v : Nat) : (d.setRaw w v).code = d.code := rfl
@[simp] theorem Dev.setRaw_brx (d : Dev) (w v : Nat) : (d.setRaw w v).brx = d.brx := rfl
@[simp] theorem Dev.setRaw_dfe (d : Dev) (w v : Nat) : (d.setRaw w v).dfe = d.dfe := rfl
@[simp] theorem Dev.setRaw_eth (d : Dev) (w v : Nat) : (d.setRaw w v).eth = d.eth := rfl
@[simp] theorem Dev.setRaw_sec (d : Dev) (w v : Nat) : (d.setRaw w v).sec = d.sec := rfl
@[simp] theorem Dev.setRaw_time (d : Dev) (w v : Nat) : (d.setRaw w v).time = d.time := rfl
@[simp] theorem Dev.setRaw_free (d : Dev) (w v : Nat) : (d.setRaw w v).free = d.free := rfl

/-! ### `Dev.zeroWords` -/

@[simp] theorem Dev.zeroWords_regs (d : Dev) (w n : Nat) : (d.zeroWords w n).regs = d.regs := rfl
@[simp] theorem Dev.zeroWords_locked (d : Dev) (w n : Nat) : (d.zeroWords w n).locked = d.locked := rfl
@[simp] theorem Dev.zeroWords_out (d : Dev) (w n : Nat) : (d.zeroWords w n).out = d.out := rfl
@[simp] theorem Dev.zeroWords_jfe (d : Dev) (w n : Nat) : (d.zeroWords w n).jfe = d.jfe := rfl
@[simp] theorem Dev.zeroWords_evt (d : Dev) (w n : Nat) : (d.zeroWords w n).evt = d.evt := rfl
@[simp] theorem Dev.zeroWords_ram (d : Dev) (w n : Nat) : (d.zeroWords w n).ram = d.ram := rfl
@[simp] theorem Dev.zeroWords_pace (d : Dev) (w n : Nat) : (d.zeroWords w n).pace = d.pace := rfl
@[simp] theorem Dev.zeroWords_power (d : Dev) (w n : Nat) : (d.zeroWords w n).power = d.power := rfl
@[simp] theorem Dev.zeroWords_boot (d : Dev) (w n : Nat) : (d.zeroWords w n).boot = d.boot := rfl
@[simp] theorem Dev.zeroWords_noc (d : Dev) (w n : Nat) : (d.zeroWords w n).noc = d.noc := rfl
@[simp] theorem Dev.zeroWords_cores (d : Dev) (w n : Nat) : (d.zeroWords w n).cores = d.cores := rfl
@[simp] theorem Dev.zeroWords_tsu (d : Dev) (w n : Nat) : (d.zeroWords w n).tsu = d.tsu := rfl
@[simp] theorem Dev.zeroWords_links (d : Dev) (w n : Nat) : (d.zeroWords w n).links = d.links := rfl
@[simp] theorem Dev.zeroWords_code (d : Dev) (w n : Nat) : (d.zeroWords w n).code = d.code := rfl
@[simp] theorem Dev.zeroWords_brx (d : Dev) (w n : Nat) : (d.zeroWords w n).brx = d.brx := rfl
@[simp] theorem Dev.zeroWords_dfe (d : Dev) (w n : Nat) : (d.zeroWords w n).dfe = d.dfe := rfl
@[simp] theorem Dev.zeroWords_eth (d : Dev) (w n : Nat) : (d.zeroWords w n).eth = d.eth := rfl
@[simp] theorem Dev.zeroWords_sec (d : Dev) (w n : Nat) : (d.zeroWords w n).sec = d.sec := rfl
@[simp] theorem Dev.zeroWords_time (d : Dev) (w n : Nat) : (d.zeroWords w n).time = d.time := rfl
@[simp] theorem Dev.zeroWords_free (d : Dev) (w n : Nat) : (d.zeroWords w n).free = d.free := rfl

/-! ### `Dev.setCore` -/

@[simp] theorem Dev.setCore_mem (d : Dev) (c : Nat) (x : Core) : (d.setCore c x).mem = d.mem := rfl
@[simp] theorem Dev.setCore_regs (d : Dev) (c : Nat) (x : Core) : (d.setCore c x).regs = d.regs := rfl
@[simp] theorem Dev.setCore_locked (d : Dev) (c : Nat) (x : Core) : (d.setCore c x).locked = d.locked := rfl
@[simp] theorem Dev.setCore_out (d : Dev) (c : Nat) (x : Core) : (d.setCore c x).out = d.out := rfl
@[simp] theorem Dev.setCore_jfe (d : Dev) (c : Nat) (x : Core) : (d.setCore c x).jfe = d.jfe := rfl
@[simp] theorem Dev.setCore_evt (d : Dev) (c : Nat) (x : Core) : (d.setCore c x).evt = d.evt := rfl
@[simp] theorem Dev.setCore_ram (d : Dev) (c : Nat) (x : Core) : (d.setCore c x).ram = d.ram := rfl
@[simp] theorem Dev.setCore_pace (d : Dev) (c : Nat) (x : Core) : (d.setCore c x).pace = d.pace := rfl
@[simp] theorem Dev.setCore_power (d : Dev) (c : Nat) (x : Core) : (d.setCore c x).power = d.power := rfl
@[simp] theorem Dev.setCore_boot (d : Dev) (c : Nat) (x : Core) : (d.setCore c x).boot = d.boot := rfl
@[simp] theorem Dev.setCore_noc (d : Dev) (c : Nat) (x : Core) : (d.setCore c x).noc = d.noc := rfl
@[simp] theorem Dev.setCore_tsu (d : Dev) (c : Nat) (x : Core) : (d.setCore c x).tsu = d.tsu := rfl
@[simp] theorem Dev.setCore_links (d : Dev) (c : Nat) (x : Core) : (d.setCore c x).links = d.links := rfl
@[simp] theorem Dev.setCore_code (d : Dev) (c : Nat) (x : Core) : (d.setCore c x).code = d.code := rfl
@[simp] theorem Dev.setCore_brx (d : Dev) (c : Nat) (x : Core) : (d.setCore c x).brx = d.brx := rfl
@[simp] theorem Dev.setCore_dfe (d : Dev) (c : Nat) (x : Core) : (d.setCore c x).dfe = d.dfe := rfl
@[simp] theorem Dev.setCore_eth (d : Dev) (c : Nat) (x : Core) : (d.setCore c x).eth = d.eth := rfl
@[simp] theorem Dev.setCore_sec (d : Dev) (c : Nat) (x : Core) : (d.setCore c x).sec = d.sec := rfl
@[simp] theorem Dev.setCore_time (d : Dev) (c : Nat) (x : Core) : (d.setCore c x).time = d.time := rfl
@[simp] theorem Dev.setCore_free (d : Dev) (c : Nat) (x : Core) : (d.setCore c x).free = d.free := rfl

/-! ### `Dev.setTask` -/

@[simp] theorem Dev.setTask_mem (d : Dev) (n : Nat) (t : Task) : (d.setTask n t).mem = d.mem := rfl
@[simp] theorem Dev.setTask_regs (d : Dev) (n : Nat) (t : Task) : (d.setTask n t).regs = d.regs := rfl
@[simp] theorem Dev.setTask_locked (d : Dev) (n : Nat) (t : Task) : (d.setTask n t).locked = d.locked := rfl
@[simp] theorem Dev.setTask_out (d : Dev) (n : Nat) (t : Task) : (d.setTask n t).out = d.out := rfl
@[simp] theorem Dev.setTask_jfe (d : Dev) (n : Nat) (t : Task) : (d.setTask n t).jfe = d.jfe := rfl
@[simp] theorem Dev.setTask_evt (d : Dev) (n : Nat) (t : Task) : (d.setTask n t).evt = d.evt := rfl
@[simp] theorem Dev.setTask_ram (d : Dev) (n : Nat) (t : Task) : (d.setTask n t).ram = d.ram := rfl
@[simp] theorem Dev.setTask_pace (d : Dev) (n : Nat) (t : Task) : (d.setTask n t).pace = d.pace := rfl
@[simp] theorem Dev.setTask_power (d : Dev) (n : Nat) (t : Task) : (d.setTask n t).power = d.power := rfl
@[simp] theorem Dev.setTask_boot (d : Dev) (n : Nat) (t : Task) : (d.setTask n t).boot = d.boot := rfl
@[simp] theorem Dev.setTask_noc (d : Dev) (n : Nat) (t : Task) : (d.setTask n t).noc = d.noc := rfl
@[simp] theorem Dev.setTask_cores (d : Dev) (n : Nat) (t : Task) : (d.setTask n t).cores = d.cores := rfl
@[simp] theorem Dev.setTask_links (d : Dev) (n : Nat) (t : Task) : (d.setTask n t).links = d.links := rfl
@[simp] theorem Dev.setTask_code (d : Dev) (n : Nat) (t : Task) : (d.setTask n t).code = d.code := rfl
@[simp] theorem Dev.setTask_brx (d : Dev) (n : Nat) (t : Task) : (d.setTask n t).brx = d.brx := rfl
@[simp] theorem Dev.setTask_dfe (d : Dev) (n : Nat) (t : Task) : (d.setTask n t).dfe = d.dfe := rfl
@[simp] theorem Dev.setTask_eth (d : Dev) (n : Nat) (t : Task) : (d.setTask n t).eth = d.eth := rfl
@[simp] theorem Dev.setTask_sec (d : Dev) (n : Nat) (t : Task) : (d.setTask n t).sec = d.sec := rfl
@[simp] theorem Dev.setTask_time (d : Dev) (n : Nat) (t : Task) : (d.setTask n t).time = d.time := rfl
@[simp] theorem Dev.setTask_free (d : Dev) (n : Nat) (t : Task) : (d.setTask n t).free = d.free := rfl

/-! ### `Dev.onDfe` -/

@[simp] theorem Dev.onDfe_mem (d : Dev) (g : DfeState → DfeState) : (d.onDfe g).mem = d.mem := rfl
@[simp] theorem Dev.onDfe_regs (d : Dev) (g : DfeState → DfeState) : (d.onDfe g).regs = d.regs := rfl
@[simp] theorem Dev.onDfe_locked (d : Dev) (g : DfeState → DfeState) : (d.onDfe g).locked = d.locked := rfl
@[simp] theorem Dev.onDfe_out (d : Dev) (g : DfeState → DfeState) : (d.onDfe g).out = d.out := rfl
@[simp] theorem Dev.onDfe_jfe (d : Dev) (g : DfeState → DfeState) : (d.onDfe g).jfe = d.jfe := rfl
@[simp] theorem Dev.onDfe_evt (d : Dev) (g : DfeState → DfeState) : (d.onDfe g).evt = d.evt := rfl
@[simp] theorem Dev.onDfe_ram (d : Dev) (g : DfeState → DfeState) : (d.onDfe g).ram = d.ram := rfl
@[simp] theorem Dev.onDfe_pace (d : Dev) (g : DfeState → DfeState) : (d.onDfe g).pace = d.pace := rfl
@[simp] theorem Dev.onDfe_power (d : Dev) (g : DfeState → DfeState) : (d.onDfe g).power = d.power := rfl
@[simp] theorem Dev.onDfe_boot (d : Dev) (g : DfeState → DfeState) : (d.onDfe g).boot = d.boot := rfl
@[simp] theorem Dev.onDfe_noc (d : Dev) (g : DfeState → DfeState) : (d.onDfe g).noc = d.noc := rfl
@[simp] theorem Dev.onDfe_cores (d : Dev) (g : DfeState → DfeState) : (d.onDfe g).cores = d.cores := rfl
@[simp] theorem Dev.onDfe_tsu (d : Dev) (g : DfeState → DfeState) : (d.onDfe g).tsu = d.tsu := rfl
@[simp] theorem Dev.onDfe_links (d : Dev) (g : DfeState → DfeState) : (d.onDfe g).links = d.links := rfl
@[simp] theorem Dev.onDfe_code (d : Dev) (g : DfeState → DfeState) : (d.onDfe g).code = d.code := rfl
@[simp] theorem Dev.onDfe_brx (d : Dev) (g : DfeState → DfeState) : (d.onDfe g).brx = d.brx := rfl
@[simp] theorem Dev.onDfe_dfe (d : Dev) (g : DfeState → DfeState) : (d.onDfe g).dfe = g d.dfe := rfl
@[simp] theorem Dev.onDfe_eth (d : Dev) (g : DfeState → DfeState) : (d.onDfe g).eth = d.eth := rfl
@[simp] theorem Dev.onDfe_sec (d : Dev) (g : DfeState → DfeState) : (d.onDfe g).sec = d.sec := rfl
@[simp] theorem Dev.onDfe_time (d : Dev) (g : DfeState → DfeState) : (d.onDfe g).time = d.time := rfl
@[simp] theorem Dev.onDfe_free (d : Dev) (g : DfeState → DfeState) : (d.onDfe g).free = d.free := rfl

/-! ### `Dev.onNoc` -/

@[simp] theorem Dev.onNoc_mem (d : Dev) (g : NocState → NocState) : (d.onNoc g).mem = d.mem := rfl
@[simp] theorem Dev.onNoc_regs (d : Dev) (g : NocState → NocState) : (d.onNoc g).regs = d.regs := rfl
@[simp] theorem Dev.onNoc_locked (d : Dev) (g : NocState → NocState) : (d.onNoc g).locked = d.locked := rfl
@[simp] theorem Dev.onNoc_out (d : Dev) (g : NocState → NocState) : (d.onNoc g).out = d.out := rfl
@[simp] theorem Dev.onNoc_jfe (d : Dev) (g : NocState → NocState) : (d.onNoc g).jfe = d.jfe := rfl
@[simp] theorem Dev.onNoc_evt (d : Dev) (g : NocState → NocState) : (d.onNoc g).evt = d.evt := rfl
@[simp] theorem Dev.onNoc_ram (d : Dev) (g : NocState → NocState) : (d.onNoc g).ram = d.ram := rfl
@[simp] theorem Dev.onNoc_pace (d : Dev) (g : NocState → NocState) : (d.onNoc g).pace = d.pace := rfl
@[simp] theorem Dev.onNoc_power (d : Dev) (g : NocState → NocState) : (d.onNoc g).power = d.power := rfl
@[simp] theorem Dev.onNoc_boot (d : Dev) (g : NocState → NocState) : (d.onNoc g).boot = d.boot := rfl
@[simp] theorem Dev.onNoc_noc (d : Dev) (g : NocState → NocState) : (d.onNoc g).noc = g d.noc := rfl
@[simp] theorem Dev.onNoc_cores (d : Dev) (g : NocState → NocState) : (d.onNoc g).cores = d.cores := rfl
@[simp] theorem Dev.onNoc_tsu (d : Dev) (g : NocState → NocState) : (d.onNoc g).tsu = d.tsu := rfl
@[simp] theorem Dev.onNoc_links (d : Dev) (g : NocState → NocState) : (d.onNoc g).links = d.links := rfl
@[simp] theorem Dev.onNoc_code (d : Dev) (g : NocState → NocState) : (d.onNoc g).code = d.code := rfl
@[simp] theorem Dev.onNoc_brx (d : Dev) (g : NocState → NocState) : (d.onNoc g).brx = d.brx := rfl
@[simp] theorem Dev.onNoc_dfe (d : Dev) (g : NocState → NocState) : (d.onNoc g).dfe = d.dfe := rfl
@[simp] theorem Dev.onNoc_eth (d : Dev) (g : NocState → NocState) : (d.onNoc g).eth = d.eth := rfl
@[simp] theorem Dev.onNoc_sec (d : Dev) (g : NocState → NocState) : (d.onNoc g).sec = d.sec := rfl
@[simp] theorem Dev.onNoc_time (d : Dev) (g : NocState → NocState) : (d.onNoc g).time = d.time := rfl
@[simp] theorem Dev.onNoc_free (d : Dev) (g : NocState → NocState) : (d.onNoc g).free = d.free := rfl

/-! ### Commands -/

@[simp] theorem State.onDev_eq (s : State) (f : Dev → Dev) : s.onDev f = .next { s with dev := f s.dev } := rfl
@[simp] theorem State.onDevIf_true (s : State) (f : Dev → Dev) : s.onDevIf true f = .next { s with dev := f s.dev } := rfl
@[simp] theorem State.onDevIf_false (s : State) (f : Dev → Dev) : s.onDevIf false f = .fault .malformedCommand := rfl

/-- A command of sound shape changes the device as its meaning says. -/
theorem State.onDevIf_pos (s : State) (f : Dev → Dev) {ok : Bool} (h : ok = true) :
    s.onDevIf ok f = .next { s with dev := f s.dev } := by simp [h]

end Sys2Proof.Machine
end

