-- ==== Sys2Proof/Tests/Slice0.lean ====
section
/-! SUPPORT. Tests of the model: one step each on a small state, expected results from the manual's own tables and examples; the refusal
of ill-formed operands; and, for every statement that has hypotheses, a state and operands that meet them (`witness_<Name>`, with a number
where several clauses have one each). -/

set_option Elab.async false

namespace Sys2Proof.Tests

open Sys2Proof Sys2Proof.Machine

/-- A state with nothing waiting and the device after reset, changed by f. -/
def stateOf (f : Dev → Dev) : State := { pending := [], dev := f Dev.reset }

/-- The device a command leaves, if it answers a next state. -/
def after (c : Instr) (s : State) : Option Dev :=
  match exec c s with
  | .next t => some t.dev
  | _ => none

/-- Does a command answer a next state whose device is as p says? -/
def gives (c : Instr) (s : State) (p : Dev → Bool) : Bool :=
  match after c s with
  | some d => p d
  | none => false

/-! ### Cores -/

/-- Core 0 runs a task at TK, with the registers f leaves. -/
def onCore (f : Core → Core) : State := stateOf (fun d => (d.set (coreState 0) 1).onCore 0 f)

/-- An operation of core 0 under P[0], the only one of its bundle. -/
def solo : Bnd := ⟨0, 0, true, 0⟩
/-- An operation of core 0 under P[1], which is all zero after reset. -/
def never : Bnd := ⟨0, 1, true, 0⟩
/-- The word at 8·k of the core's data memory. -/
def own (k : Nat) : Addr := ⟨0, 0, none, false, BitVec.ofNat 33 k⟩
/-- The first word of the erg memory, through SEG[1] = 0 and A[1] = 0x0130_0000. -/
def outer : Addr := ⟨1, 1, none, false, 0⟩

/-- R186: ADD wraps modulo 2^36. -/
theorem test_add_wraps :
    gives (.opAdd solo 3 1 2) (onCore (fun x => { x with arch := (x.arch.wS 1 0xFFFFFFFFF).wS 2 5 }))
      (fun d => (d.core 0).arch.rS 3 == 4 && (d.core 0).arch.pc == 1) = true := by decide +kernel

/-- R186: a shift count of 36 or more gives 0, and sign fill for SHRA. -/
theorem test_shift_counts :
    (gives (.opShl solo 3 1 2) (onCore (fun x => { x with arch := (x.arch.wS 1 0xFFFFFFFFF).wS 2 36 })) (fun d => (d.core 0).arch.rS 3 == 0) &&
     gives (.opShra solo 3 1 2) (onCore (fun x => { x with arch := (x.arch.wS 1 0x800000000).wS 2 63 }))
      (fun d => (d.core 0).arch.rS 3 == 0xFFFFFFFFF)) = true := by decide +kernel

/-- R182: VNEG of −131,072 stays; VNEGS limits it to 131,071 and sets XSAT. -/
theorem test_vneg :
    (let s := onCore (fun x => { x with arch := { x.arch with v := [(1, 0x20000)] } })
     gives (.opVneg solo 2 1) s (fun d => laneOf ((d.core 0).arch.rV 2) 0 == -131072 && (d.core 0).arch.accSt == 0) &&
     gives (.opVnegs solo 2 1) s (fun d => laneOf ((d.core 0).arch.rV 2) 0 == 131071 && (d.core 0).arch.accSt == 0x10000)) = true := by
  decide +kernel

/-- R181: CMAC adds xr·yr − xi·yi to lane 0 and xr·yi + xi·yr to lane 1: (3 + 2j)(5 + 7j) = 1 + 31j. -/
theorem test_cmac :
    gives (.opCmac solo 1 2 3) (onCore (fun x => { x with arch := { x.arch with v := [(2, BitVec.ofNat 576 (3 + 2 * 2 ^ 18)), (3, BitVec.ofNat 576 (5 + 7 * 2 ^ 18))] } }))
      (fun d => (d.core 0).arch.rAcc 1 0 == 1 && (d.core 0).arch.rAcc 1 1 == 31) = true := by decide +kernel

/-- R143: in SAT mode a sum beyond 2^47 − 1 is held there and sets SOVF. -/
theorem test_saturates :
    gives (.opRmac1 solo 1 2 3) (onCore (fun x => { x with arch := { x.arch with accMode := 2, v := [(2, 0x1FFFF), (3, 0x1FFFF)], acc := [(32, 0x7FFFFFFFFFFF)] } }))
      (fun d => (d.core 0).arch.rAcc 1 0 == 2 ^ 47 - 1 && (d.core 0).arch.accSt == 0x200 && (d.core 0).arch.hold.contains 32) = true := by
  decide +kernel

/-- R153, the manual's three-stage example: LOOPSET 4, 3 gives P[4] all ones and the rest zero; LOOPM at PASS 3 goes to pass 4 with stages
1 and 2. -/
theorem test_loop_example :
    (gives (.opLoopset solo 2 (.imm 4)) (onCore id) (fun d => let x := (d.core 0).arch
      x.trips == 4 && x.stg == 3 && x.pass == 0 && x.rP 4 == BitVec.allOnes 32 && x.rP 5 == 0 && x.rP 6 == 0 && x.rP 7 == 0) &&
     gives (.opLoopm solo 9) (onCore (fun x => { x with arch := { x.arch with trips := 4, stg := 3, pass := 3, rot := 3 } }))
      (fun d => let x := (d.core 0).arch
        x.pass == 4 && x.rot == 4 && x.rP 4 == 0 && x.rP 5 == BitVec.allOnes 32 && x.rP 6 == BitVec.allOnes 32 && x.pc == 9) &&
     gives (.opLoopm solo 9) (onCore (fun x => { x with arch := { x.arch with trips := 4, stg := 3, pass := 5, rot := 5, pc := 12 } }))
      (fun d => let x := (d.core 0).arch; x.pass == 6 && x.rP 6 == 0 && x.pc == 13)) = true := by decide +kernel

/-- R151, R184, R185: a sample stored to the core's data memory stands in the buffer and is loaded back from it. -/
theorem test_store_then_load :
    (match exec (.opSts1 solo 1 (own 2)) (onCore (fun x => { x with arch := x.arch.wS 1 0x3FFFF })) with
     | .next t => gives (.storeAccepted 0 0 []) t (fun d => dataOf (d.raw 2) == 0xFFFFC0000)
     | _ => false) = true := by decide +kernel

/-- R161: SYSCALL is an after trap: TRAP_PC holds the next bundle; BREAK is precise: it holds its own. -/
theorem test_traps :
    (gives (.opSyscall solo) (onCore (fun x => { x with arch := { x.arch with pc := 7 } }))
      (fun d => (d.core 0).arch.trapPc == 8 && (d.core 0).arch.trapCause == 0x12 && (d.core 0).arch.trapInfo == 0x10000) &&
     gives (.opBreak solo) (onCore (fun x => { x with arch := { x.arch with pc := 7 } }))
      (fun d => (d.core 0).arch.trapPc == 7 && (d.core 0).arch.trapCause == 0x0C && (d.core 0).arch.trapInfo == 0)) = true := by
  decide +kernel

/-- A device whose words at byte addresses hold values, with good check bits. -/
def filled (ws : List (Nat × Nat)) (d : Dev) : Dev := ws.foldl (fun d w => d.setRaw (w.1 / 8) (encodeWord (BitVec.ofNat 72 w.2))) d

/-- MacAccumulates, MacSetsAndReads, ValuWraps, ValuLimitsAndReads, ScalarOperations, LoopsComplete, SystemRegisters, BranchesComplete
and CoprocessorSlot: a core takes an operation. The cases of ACCSET, of the levels, of CXWAIT and of the lock each occur. -/
theorem witness_Issues :
    (onCore id).dev.takes solo = true ∧ (onCore id).dev.takes never = true ∧
    ((onCore id).dev.core 0).arch.shift (.imm 31) = 31 ∧ ((onCore id).dev.core 0).arch.shift (.reg 3) ≠ 31 ∧
    ((onCore id).dev.core 0).arch.level = .tk ∧
    (onCore (fun x => { x with arch := { x.arch with level := .ns } })).dev.takes solo = true ∧
    (((onCore id).dev.core 0).arch.rP 0).getLsbD 0 = true ∧ (((onCore id).dev.core 0).arch.rP 1).getLsbD 0 = false ∧
    ((onCore (fun x => { x with sb := 2 })).dev.core 0).sb &&& 2 ≠ 0 ∧ (onCore (fun x => { x with sb := 2 })).dev.takes solo = true ∧
    ((onCore id).dev.core 0).lock = false ∧ (onCore id).dev.get (Reg.ERG_CORE_CFG_CX_EN 0 0) / 2 ^ 2 % 2 = 0 ∧
    ((onCore id).dev.set (Reg.ERG_CORE_CFG_CX_EN 0 0) 4).get (Reg.ERG_CORE_CFG_CX_EN 0 0) / 2 ^ 2 % 2 = 1 := by decide +kernel

/-- LoadsAtOnce: words of the core's own data memory, and words that one buffered store covers. -/
theorem witness_LoadsAtOnce :
    (let s := onCore id
     (s.dev.takes solo && decide (accessUnits (s.dev.core 0).arch solo true 8 ≠ []) &&
      decide (s.dev.accessTraps (s.dev.core 0).arch (own 0) 8 (accessUnits (s.dev.core 0).arch solo true 8) = []) &&
      !(s.dev.core 0).fence && ((s.dev.accessWords (s.dev.core 0).arch solo (own 0) 8 8 true).map (·.1)).all (s.dev.inOwnData 0) &&
      !s.dev.cxHolds 0 [0, 8, 16, 24, 32, 40, 48, 56] &&
      decide ((s.dev.readNow 0 0 (s.dev.accessWords (s.dev.core 0).arch solo (own 0) 8 8 true)).2.2 = []) &&
      decide ((s.dev.readNow 0 0 (s.dev.accessWords (s.dev.core 0).arch solo (own 0) 8 8 true)).2.1.length = 8)) &&
     (let t := onCore (fun x => { x with arch := x.arch.wA 1 0x10000000, buffer := [[⟨0x10000000, 5, false, 15, true⟩]] })
      t.dev.takes solo && decide (t.dev.accessTraps (t.dev.core 0).arch outer 8 (accessUnits (t.dev.core 0).arch solo false 1) = []) &&
      decide (t.dev.accessWords (t.dev.core 0).arch solo outer 8 1 false = [(0x10000000, 0)]) && (t.dev.core 0).covered [0x10000000] &&
      decide ((t.dev.readNow 0 0x10000000 [(0x10000000, 0)]).2 = ([(0, 5)], []))))
    = true := by decide +kernel

/-- LoadsFromElsewhere: a load of the erg memory waits, and its word comes back. -/
theorem witness_LoadsFromElsewhere :
    (let s := onCore (fun x => { x with arch := x.arch.wA 1 0x10000000 })
     s.dev.takes solo && decide (s.dev.accessTraps (s.dev.core 0).arch outer 8 (accessUnits (s.dev.core 0).arch solo false 1) = []) &&
     decide (s.dev.accessWords (s.dev.core 0).arch solo outer 8 1 false = [(0x10000000, 0)]) && !s.dev.inOwnData 0 0x10000000 &&
     (match exec (.opLds0 solo 3 outer) s with
      | .next t => decide ((t.dev.core 0).bundle.bind (·.load) = some ⟨[(0x10000000, 0)], .sample 3 0, 0x10000000⟩) &&
          decide ((t.dev.loadOuter 0 0x10000000 []).2 = (.data 0, []))
      | _ => false)) = true := by decide +kernel

/-- StoresAndUnselected: a store that may be made now, and predicates that select nothing. -/
theorem witness_StoresAndUnselected :
    (let s := onCore id
     s.dev.takes solo && decide (s.dev.accessTraps (s.dev.core 0).arch (own 3) 8 (accessUnits (s.dev.core 0).arch solo true 4) = []) &&
     decide (accessUnits (s.dev.core 0).arch solo true 4 = [0, 1, 2, 3]) && !(s.dev.core 0).fence && s.dev.takes never &&
     decide ((s.dev.core 0).arch.rP 1 = 0)) = true := by decide +kernel

/-- A bundle of one operation that is complete. -/
def whole : Bundle := { Bundle.start Arch.reset with count := 1, ready := true, writes := [nameS 3] }
/-- The same with a precise trap met. -/
def trapped : Bundle := { whole with traps := [trapOf 0x06 0x44] }

/-- BundleCommits: a complete bundle with no trap, no load, no branch and nothing waiting. -/
theorem witness_BundleCommits :
    ((onCore (fun x => { x with bundle := some whole })).dev.core 0).bundle = some whole ∧ whole.load = none ∧ whole.cx = none ∧
    whole.traps = [] ∧ whole.writes.Nodup ∧ whole.tend = none ∧ whole.store = [] ∧ whole.after = none ∧ whole.signal = false ∧
    (((onCore (fun x => { x with bundle := some whole })).dev.tryCommit 0).core 0).arch.pc = 1 := by decide +kernel

/-- PreciseTraps: a bundle with a precise trap, at TK and at supervisor level. -/
theorem witness_PreciseTraps :
    trapped.precise = some (trapOf 0x06 0x44) ∧ trapped.ready = true ∧ trapped.load = none ∧ trapped.cx = none ∧
    ((onCore (fun x => { x with bundle := some trapped })).dev.core 0).arch.level = .tk ∧
    ((onCore (fun x => { x with bundle := some trapped, arch := { x.arch with level := .ss } })).dev.core 0).arch.level ≠ .tk := by
  decide +kernel

/-- TrapAndReturn: a core at TK, and one at supervisor level, that begins a bundle. -/
theorem witness_TrapAndReturn :
    (onCore id).dev.executes 0 = true ∧ ((onCore id).dev.core 0).bundle = none ∧ solo.last = true ∧
    (let s := onCore (fun x => { x with arch := { x.arch with level := .ss, trapPc := 9 } })
     s.dev.executes 0 = true ∧ gives (.opRte solo) s (fun d => (d.core 0).arch.pc == 9) = true) := by decide +kernel

/-- CoreEvents: an accepted store, a store error held, an abort asked, a late coprocessor error, each at a bundle boundary at TK. -/
theorem witness_CoreEvents :
    (let st : List StoreWord := [⟨0, 5, false, 15, true⟩]
     let boundary (s : State) : Bool := let x := s.dev.core 0
       x.bundle.isNone && decide (x.arch.level = .tk) && decide (s.dev.get (coreState 0) = 1) && x.ending.isNone && !x.forced &&
       x.abort.isNone && x.fault.isNone && x.late.isNone
     let s1 := onCore (fun x => { x with buffer := [st] })
     let o : CxOp := ⟨3, 1, 0, true, [], [], false, some (24, 0), some (2, 0), false, false⟩
     (onCore id).dev.executes 0 && decide ((s1.dev.core 0).buffer[0]? = some st) &&
     decide (((s1.dev.setCore 0 { s1.dev.core 0 with buffer := [] }).storeAll 0 st []).2 = none) &&
     boundary (onCore (fun x => { x with storeErrs := [(0x10, 64)] })) && boundary (onCore (fun x => { x with asked := true })) &&
     boundary (onCore (fun x => { x with ops := [o] })) &&
     decide (((onCore (fun x => { x with ops := [o] })).dev.core 0).ops.find? (fun o => o.err.isSome && !o.reported) = some o)) = true := by
  decide +kernel

/-- BundleFaults: an all-zero header is a header fault; a poisoned word of the bundle. -/
theorem witness_BundleFaults :
    (let s := onCore id
     decide ((s.dev.fetchBundle 0 0).2 = some [0]) && decide (bundleFault (s.dev.core 0).arch [0] = some (7, 2)) &&
     (let t := stateOf (fun d => (d.set (coreState 0) 1).setRaw (0x30000 / 8) (poisonWord 0))
      t.dev.executes 0 && decide ((t.dev.readWord (t.dev.coreReq 0 0 true) 0x30000).2 = .poison))) = true := by decide +kernel

/-- The parameter block at 64 of a CMM of 1×1 matrices: A at 0, B at 8, C at 16, the record at 24. -/
def cmmBlock : List (Nat × Nat) :=
  [(64, 0), (72, 8), (80, 16), (88, 1 + 2 ^ 16 + 2 ^ 32), (96, 0xFF * 2 ^ 32), (104, 24)]

/-- CoprocessorRuns: an operation that can begin, and one that can end. -/
theorem witness_CoprocessorRuns :
    (let o : CxOp := ⟨3, 1, 64, false, [], [], false, none, none, false, false⟩
     let d := filled cmmBlock (onCore (fun x => { x with ops := [o] })).dev
     let block := (upFrom 0 6).map (fun k => 64 + 8 * k)
     let r := ({ dev := d, words := [], world := none, uncorr := none, poison := none } : CxRead).all 0 block
     let p := cxParam r.words
     block.all (d.cxReach 0) && d.cxForeign 0 block == none && !rangesMeet [(64, 6)] [] && !d.cxWaitsStore 0 block && p.sound 1 &&
     decide (p.aAddr = 0 ∧ p.bAddr = 8 ∧ p.cAddr = 16 ∧ p.resAddr = 24) && [0, 8, 16, 24].all (d.cxReach 0) &&
     d.cxForeign 0 [0, 8, 16, 24] == none && !d.cxWaitsStore 0 [0, 8] &&
     (match exec (.coprocessorOpBegin 0) { pending := [], dev := d } with
      | .next t => (t.dev.core 0).ops.any (fun o => o.begun && !o.ended && o.record.isSome)
      | _ => false)) = true := by decide +kernel

/-! ### Tasks, functions, rings and jobs -/

/-- A device that has booted: READY, with power, PERST_N high and every function a bus master. -/
def upDev : Dev :=
  ((Dev.reset.set Reg.GLB_BOOT_STAGE 8).onBoot (fun b => { b with powered := true, perst := true })).onJfe
    (fun j => { j with busMaster := BitVec.allOnes 64 })

/-- A state with nothing waiting and a device. -/
def withDev (d : Dev) : State := ⟨[], d⟩

/-- A state with nothing waiting and a booted device, changed by f. -/
def up (f : Dev → Dev) : State := withDev (f upDev)

/-- Bytes of a descriptor: values at byte offsets. -/
def descOf (bs : List (Nat × Nat)) : BitVec 512 := BitVec.ofNat 512 ((bs.map (fun b => b.2 * 2 ^ (8 * b.1))).foldl (· + ·) 0)

/-- Job 1 of SQ 0 in a phase, at unit 0, with the descriptor that bytes give. -/
def jobAt (phase : Phase) (bs : List (Nat × Nat)) : Job :=
  { id := 1, sq := 0, desc := descOf bs, phase := phase, unit := 0, seq := 0, status := 0, result := 0, time := 0, targets := [],
    named := false, verdict := none, uncorr := false, poison := false, params := [] }

/-- A device with jobs in flight. -/
def carrying (js : List Job) (d : Dev) : Dev := d.onJfe (fun x => { x with jobs := js, nextJob := 8, nextSeq := 8 })

/-- TasksStart: a TASK_RUN that is due, one that is not, a resident one; and a READY task whose core is idle. -/
theorem witness_TasksStart :
    (let run := jobAt .queued [(0, 0xB0)]
     let later := jobAt .queued [(0, 0xB0), (24, 1)]
     let resident := jobAt .queued [(0, 0xB0), (36, 0x80)]
     let first (j : Job) : Bool := ((up (carrying [j])).dev.firstOf 0xB0) == some j
     first run && first later && first resident && !run.resident && run.notBefore == 0 && !later.resident && later.notBefore != 0 &&
     !(up (carrying [later])).dev.due later.notBefore && resident.resident && ((up id).dev.task 5).state == .free &&
     (let t : Task := { Task.reset with state := .ready, gen := 1, startPc := 4, mask := 1 }
      let d := ((up (fun d => d.set (Reg.ERG_CTL 0) 0x10)).dev.setTask 5 t)
      d.chooseCore t == some 0 && !d.power.paused &&
      gives .taskDispatch (withDev d) (fun e => (e.core 0).arch.pc == 4 && (e.core 0).arch.rS 0 == 0x1005))) = true := by
  decide +kernel

/-- TasksMove: a hold stage that ends, a wake and a free of a resident entry, and an end of each kind of task. -/
theorem witness_TasksMove :
    (let t : Task := { Task.reset with state := .ready, stage := 1, gen := 1 }
     let r : Task := { Task.reset with state := .waiting, gen := 1, resident := true }
     let wake := jobAt .queued [(0, 0xB1), (32, 5), (34, 1)]
     let free := jobAt .queued [(0, 0xB2), (32, 5), (34, 1)]
     let base := (up id).dev.setTask 5
     canonical (fun _ => Task.reset) (base t).tsu.tasks && decide (t.prio < 64) &&
     ((base t).set Reg.TSU_CFG_HOLD_NS 0).due (t.arrived + BitVec.ofNat 64 (t.stage * 0)) &&
     wake.opcode == 0xB1 && wake.entry == 5 && wake.entryGen == 1 && free.opcode == 0xB2 && free.entry == 5 &&
     gives (.taskWake 1) (withDev (carrying [wake] (base r))) (fun e => (e.task 5).state == .ready) &&
     gives (.taskWake 1) (withDev (carrying [wake] (base { r with state := .ready }))) (fun e => (e.task 5).pendingWake) &&
     gives (.taskFree 1) (withDev (carrying [free] (base r))) (fun e => (e.task 5).state == .free) &&
     gives (.taskFree 1) (withDev (carrying [free] (base { r with state := .running }))) (fun e =>
       (e.task 5).freeJobs == [1]) &&
     (let job := jobAt .running [(0, 0xB0)]
      let ended (t : Task) : State := (withDev ((((carrying [job] (base t)).set (Reg.ERG_CORE_TASK_ENTRY 0 0) 5).set (Reg.ERG_CORE_TASK_VALID 0 0) 1).onCore 0
          (fun x => { x with ending := some 4 })))
      gives (.taskEnd 0) (ended { Task.reset with state := .running, gen := 1, job := some 1, core := some 0 })
        (fun e => (e.task 5).state == .free && (e.job 1).any (fun j => j.status == 4)) &&
      gives (.taskEnd 0) (ended { r with state := .running, core := some 0 })
        (fun e => (e.task 5).state == .waiting && (e.task 5).runs == 1))) = true := by decide +kernel

/-- ErgsRetire: a task whose abort time is over, an erg that may be retired, one that is drained, and a standby erg; a host's command. -/
theorem witness_ErgsRetire :
    (let t : Task := { Task.reset with state := .aborting, core := some 0 }
     let s := withDev (((((up id).dev.setTask 5 t).set (Reg.ERG_CORE_TASK_ENTRY 0 0) 5).set (Reg.ERG_CORE_TASK_VALID 0 0) 1).set
        (coreState 0) 1)
     gives (.abortTimeout 0) (withDev (s.dev.set Reg.TSU_ABORT_TIMEOUT_US 0)) (fun e => (e.core 0).forced) &&
     (up id).dev.reaches .secure 0xB00014 && (up id).dev.reaches .secure 0xB00010 && (up id).dev.reaches (.func 0) 0xB00014 &&
     gives (.retire .secure 3 false) (up id) (fun e => e.tsu.retiring == some (3, false)) &&
     (let drained := up (fun d => ({ d with tsu := { d.tsu with retiring := some (3, false) } } : Dev).set Reg.TSU_STANDBY_AUTO 0)
      !drained.dev.ergBusy 3 && gives .retirementDrained drained (fun e => e.on (Reg.ERG_STATUS_RETIRED 3))) &&
     gives (.tsuStandbyWrite .secure 12 true) (up id) (fun e => e.get Reg.TSU_STANDBY_ERG == 12)) = true := by decide +kernel

/-- FunctionControl: functions STOPPED, in RUN and STOPPING that an accessor controls; a check that passes and one that fails; idle and
halted ones. -/
theorem witness_FunctionControl :
    (let d := upDev
     let runs := d.set (Reg.JFE_SQ_CTL 3) 0x10
     let stops := d.set (Reg.JFE_SQ_CTL 3) 0x60
     d.controls (.func 0) (.sq 3) && !notAFunction (.sq 3) && notAFunction (.lane 3) && d.stopped (.sq 3) && (d.startCheck (.sq 3)).isSome &&
     d.startCheck .poller == none && runs.running (.sq 3) && !runs.haltedChannel (.sq 3) && runs.mayStop (.sq 3) &&
     stops.stopping (.sq 3) && stops.on (Fn.abort (.sq 3)) && stops.fnIdle (.sq 3) && d.on Reg.GLB_CFG_REJECT_VALID == false &&
     (d.set Reg.GLB_CFG_REJECT_VALID 1).on Reg.GLB_CFG_REJECT_VALID &&
     gives (.run (.func 0) .poller) (up id) (fun e => e.running .poller)) = true := by decide +kernel

/-- DoorbellsRead: a poll and a sweep in each mode, and a Swap outstanding. -/
theorem witness_DoorbellsRead_1 :
    (let d := upDev.set (Fn.state .poller) 1
     let scan := d.set Reg.JFE_DB_CFG_MODE 1
     d.running .poller && d.mayMaster 0 && !d.power.paused && scan.on Reg.JFE_DB_CFG_MODE &&
     (d.onJfe (fun j => { j with swaps := [2] })).jfe.swaps.contains 2 &&
     gives .doorbellPoll (withDev scan) (fun e => e.jfe.scanRead)) = true := by decide +kernel
theorem witness_DoorbellsRead_2 :
    (let d := upDev.set (Fn.state .poller) 1
     !(d.set Reg.JFE_DB_CFG_MODE 0).on Reg.JFE_DB_CFG_MODE && (d.set Reg.JFE_DB_SWEEP_US 5).get Reg.JFE_DB_SWEEP_US == 5) = true := by
  decide +kernel

/-- SQ 0 and CQ 0 in RUN with rings of 16 entries. -/
def ringDev : Dev := ((upDev.set (Fn.state (.sq 0)) 1).set (Fn.state (.cq 0)) 1).each [0] (fun d n =>
  (d.set (Reg.JFE_SQ_CFG_LOG2SIZE n) 4).set (Reg.JFE_CQ_CFG_LOG2SIZE n) 4)

/-- CountsTaken: counts awaited, one within the ring and one beyond it; the array awaited; work to take up; descriptors awaited, one that
fails its check and one NOP. -/
theorem witness_CountsTaken :
    (let d := ringDev.onJfe (fun j => { j with countReads := [0], scanRead := true, fetches := [(0, 0, 1)] })
     d.jfe.countReads.contains 0 && d.sqRuns 0 && d.sqSize 0 == 16 && countDiff 16 0 ≤ 16 && decide (16 < countDiff 17 0) &&
     (let w := (ringDev.set (Reg.JFE_SQ_PI_SEEN 0) 3).onJfe (fun j => { j with known := [0] })
      ((upFrom 1 256).map (fun i => (w.jfe.lastRing + i) % 256)).find? w.mayFetch == some 0) &&
     (d.headerCheck { jobAt .held [(0, 0xFF)] with unit := 4096 }).isSome &&
     gives (.descriptorReadComplete 0 (.data [descOf [(0, 0), (6, 0xFF), (7, 0xFF)]])) (withDev d)
       (fun e => e.get (Reg.JFE_SQ_CI 0) == 1 && e.jfe.jobs.length == 1)) = true := by decide +kernel

/-- JobsMove: a held job that is due, one that is not, one held back; a started NOP; queues open, shut and full; a CANCEL with a target. -/
theorem witness_JobsMove :
    (let held := jobAt .held [(0, 0x10)]
     let later := jobAt .held [(0, 0x10), (24, 1)]
     let nop := jobAt .started []
     let mx := jobAt .started [(0, 0x10)]
     let cancel := { jobAt .held [(0, 1), (35, 1)] with id := 2 }
     let d := carrying [held] ringDev
     held.opcode == 0x10 && d.job 1 == some held && !d.heldBack held && !d.due later.notBefore && nop.opcode == 0 &&
     (carrying [{ held with id := 0 }, { held with desc := descOf [(0, 0x10), (1, 1)] }] ringDev).heldBack
       { held with desc := descOf [(0, 0x10), (1, 1)] } &&
     (carrying [mx] ringDev).queueOf mx == some (mxeFn 0, 0, 64) && !(carrying [mx] ringDev).queueOpen mx (mxeFn 0) &&
     ((carrying [mx] ringDev).set (Fn.state (mxeFn 0)) 1).queueOpen mx (mxeFn 0) && held.matches cancel &&
     gives (.cancelJob 2) (withDev (carrying [held, cancel] ringDev)) (fun e => (e.job 1).any (fun j => j.phase == .ended)))
    = true := by decide +kernel

/-- RecordsWritten: an ended job whose ring has room, and one whose ring is full; a recheck; consumer counts ahead, in reach and at the
limit. -/
theorem witness_RecordsWritten :
    (let j := jobAt .ended []
     let d := carrying [j] ringDev
     d.job 1 == some j && (d.jfe.jobs.map (·.id)).Nodup && d.jobCq j == 0 && d.jfe.waiting == [] && !d.stopped (.cq 0) &&
     d.mayMaster (d.cqFunc 0) && !d.cqFull 0 && (d.set (Reg.JFE_CQ_PI 0) 16).cqFull 0 &&
     (let e := (d.set (Reg.JFE_CQ_PI 0) 16).onJfe (fun x => { x with stalled := [0] })
      e.jfe.stalled.contains 0 && !e.jfe.ciReads.contains 0 && decide (e.cqSize 0 < countDiff 16 17) && countDiff 16 0 == e.cqSize 0 &&
      decide (countDiff 16 14 < e.cqSize 0)) &&
     gives (.jobCompletion 1) (withDev d) (fun e => e.jfe.jobs == [] && e.get (Reg.JFE_CQ_PI 0) == 1)) = true := by
  decide +kernel

/-- R71, R75, the manual's example of CQ[2] with 16 slots: count 0 goes to slot 0 with PHASE 1, count 16 to slot 0 with PHASE 0. -/
theorem test_record_phase :
    (let j := jobAt .ended []
     let slot (pi : Nat) (cached : BitVec 32) (want : Bool) : Bool :=
       let d := ((carrying [j] ringDev).set (Reg.JFE_CQ_PI 0) pi).onJfe (fun x => { x with cached := if cached = 0 then [] else [(0, cached)] })
       gives (.jobCompletion 1) (withDev d) (fun e => e.out.any (fun o =>
         match o with
         | .record _ iova r => iova == 0 && r.getLsbD 255 == want
         | _ => false))
     slot 0 0 true && slot 16 14 false) = true := by decide +kernel

/-- FunctionsLost: a function with rings in RUN and no job may lose Bus Master Enable; a function of a powered device may be reset. -/
theorem witness_FunctionsLost :
    (ringDev.jfe.jobs == [] && ringDev.sqFunc 0 == 0 && ringDev.running (.sq 0) && ringDev.boot.powered && ringDev.boot.perst &&
     decide (ringDev.devState < 3) && ((ringDev.set (Reg.JFE_SQ_CFG_FUNC 1) 9).sqFunc 1 == 9)) = true := by decide +kernel

/-! ### Network on chip and memory -/

/-- A packet of a type from slot 66 to slot 68, tag 7, with a value and words. -/
def packetOf (t : PType) (v : BitVec 56) (ws : List (BitVec 80)) : Packet :=
  { type := t, len := 0, srcDev := 0, srcEp := 66, srcLink := 0, dstEp := 68, dstLink := 0, tag := 7, epoch := false, urg := 0, world := false,
    value := v, byteView := false, mask := if t = .wrn then 1 else 0, count := 0, scrub := false, words := ws }
/-- A tag that belongs to no function and no job, and one of job 1. -/
def nobody : Owner := ⟨none, 0, none, none⟩
def ofJob : Owner := ⟨none, 0, some 1, none⟩
/-- The first word of MESA[0]. -/
def mesa0 : BitVec 56 := 0x20000000

/-- MemoryPackets: each packet, from the memory that has it, of a word on chip and of one in the host window, and one met by a fence. -/
theorem witness_MemoryPackets :
    ((packetOf .rd mesa0 []).is .rd && (packetOf .wr mesa0 [5]).is .wr && (packetOf .swr mesa0 [5]).is .swr && (packetOf .wrn mesa0 [5]).is .wrn &&
     (packetOf .rd 0x20000000000000 []).value.getLsbD 53 && !mesa0.getLsbD 53 && upDev.jfe.busMaster.getLsbD 0 && !Dev.reset.jfe.busMaster.getLsbD 0 &&
     !upDev.noc.arrived.contains (packetOf .rd mesa0 []) && !upDev.slotFenced 68 && (upDev.set (Reg.NOC_EP_STATE 68) 1).slotFenced 68 &&
     (upDev.readRun (reqOf (packetOf .rd mesa0 []) nobody) 0x20000000 1).2 == ([0], none) &&
     (upDev.readRun (reqOf (packetOf .rd mesa0 []) nobody) 0xF000000 1).2.2 == some stCONFIG &&
     (upDev.writeRun (reqOf (packetOf .wr mesa0 [5]) nobody) 0x20000000 [5]).2 == none &&
     (upDev.writeRun (reqOf (packetOf .wr mesa0 [5]) nobody) 0xF000000 [5]).2 == some stCONFIG &&
     (upDev.writeNarrow (reqOf (packetOf .wrn mesa0 [5]) nobody) 0x20000000 5 false 1).2 == none &&
     (upDev.writeNarrow (reqOf (packetOf .wrn mesa0 [5]) nobody) 0xF000000 5 false 1).2 == some stCONFIG) = true := by decide +kernel

/-- R86, R328: a WR stores its word and a WACK goes back. -/
theorem test_wr :
    gives (.wr (packetOf .wr mesa0 [BitVec.ofNat 80 (encodeWord 5)]) nobody) (withDev upDev)
      (fun e => e.raw (0x20000000 / 8) == encodeWord 5 && e.noc.held.any (fun h => h.pkt.type == .wack)) = true := by decide +kernel

/-- AnswersArrive: each answer, for a job and for a channel's job that is running. -/
theorem witness_AnswersArrive :
    ((packetOf .wack 0 []).is .wack && (packetOf .sack 0 []).is .sack && (packetOf .rdata 0 [5]).is .rdata && (packetOf .err 0 []).is .err &&
     (packetOf .notice 0 []).is .notice &&
     (let j := jobAt .running [(0, 0xA0)]
      (carrying [j] upDev).job 1 == some j && j.opcode == 0xA0 && j.phase != .ended &&
      (receivedWord (BitVec.ofNat 80 (encodeWord 5 ^^^ 3))).2 == some true && (receivedWord (BitVec.ofNat 80 (encodeWord 5 ^^^ 4))) == (.word 5, none) &&
      (receivedWord (BitVec.ofNat 80 (poisonWord 5))).2 == some false) &&
     (let j := jobAt .running [(0, 0x10)]; (carrying [j] upDev).job 1 == some j && j.opcode == 0x10)) = true := by decide +kernel

/-- SlotsFenced: slots of a ULD port and of another block in each state, with and without an answer outstanding. -/
theorem witness_SlotsFenced :
    (let at_ (e st : Nat) : Dev := upDev.set (Reg.NOC_EP_STATE e) st
     upDev.slotState 68 == 0 && upDev.slotState 4 == 0 && (uldPort 4).isSome && (uldPort 68).isNone &&
     (at_ 68 1).slotState 68 == 1 && (at_ 68 2).slotState 68 == 2 && (at_ 4 4).slotState 4 == 4 && upDev.noc.waiting.isEmpty &&
     upDev.noc.arrived.isEmpty && (upDev.onNoc (fun n => { n with waiting := [⟨68, 0, false, 0⟩] })).noc.waiting.any (fun x => x.ep == 68) &&
     (upDev.onNoc (fun n => { n with toPower := [68] })).noc.toPower.contains 68) = true := by decide +kernel

/-- PacketsRoute: a packet that enters, one with no route, one that a fence refuses; held packets that leave by each exit, that wait, and
that age. -/
theorem witness_PacketsRoute :
    (let p := packetOf .rd mesa0 []
     let far := { p with value := 0x40000020000000 }
     let h : Held := ⟨p, 34, 16⟩
     let own : Held := ⟨{ p with scrub := true }, 33, 16⟩
     let d := upDev.onNoc (fun n => { n with held := [h] })
     let other := upDev.onNoc (fun n => { n with held := [h, { h with pkt := { p with urg := 5 } }] })
     upDev.slotState 66 == 0 && upDev.targetSlot p == some 68 && (upDev.set (Reg.NOC_DEV_T 0) 0xFF).targetSlot far == none && !upDev.running (.probe 3) &&
     (upDev.set (Reg.NOC_EP_STATE 66) 1).slotFenced 66 && isReq p && d.noc.held[0]? == some h && d.granted h && !other.granted h &&
     d.exitOf h == .eject 0 && d.destDevice p == d.ownId && d.exitOf own == .go 0 && neighbour 33 0 == some 34 &&
     (d.set (Reg.NOC_DEV_T 0) 0xFF).exitOf ⟨far, 33, 16⟩ == .unreachable && !h.pkt.scrub && own.pkt.scrub) = true := by decide +kernel

/-- EpochsFlip: the commands of the secure world and of a host; a table that is good and one that is not; a flip and its end. -/
theorem witness_EpochsFlip_1 :
    (upDev.reaches .secure Reg.NOC_EPOCH_CMD_CHECK.off && upDev.reaches (.func 0) Reg.NOC_EPOCH_CMD_CHECK.off &&
     upDev.reaches .secure Reg.NOC_EPOCH_CMD_FLIP.off && (upDev.set Reg.NOC_EPOCH_CHECK_BUSY 1).on Reg.NOC_EPOCH_CHECK_BUSY &&
     ((upDev.set Reg.NOC_EPOCH_CHECK_OK 1).on Reg.NOC_EPOCH_CHECK_OK && !upDev.on Reg.NOC_EPOCH_FLIP_BUSY) && !upDev.on Reg.NOC_EPOCH_CHECK_OK &&
     (upDev.onNoc (fun n => { n with unswitched := [68], draining := true })).noc.unswitched.contains 68 &&
     upDev.get (Reg.NOC_DRAIN_COUNT 1) == 0) = true := by decide +kernel
theorem witness_EpochsFlip_2 : Dev.reset.checkTable (!Dev.reset.on Reg.NOC_EPOCH_CUR) = none := by decide +kernel
theorem witness_EpochsFlip_3 : ((Dev.reset.set (Reg.NOC_RT_T_E 0 1 0) 0xDB6DB6).checkTable true).isSome = true := by decide +kernel

/-- MemoryWindow: a word on chip that is clean, one that is poisoned, an address that is refused, one of another device; a size that is
not sound. -/
theorem witness_MemoryWindow :
    (let d := upDev.set Reg.GLB_MEMWIN_PAGE 0x10
     d.served (.func 0) 0x2000000 && d.target 0x20000000 == .mem 0x20000000 && regionOf 0x20000000 == some (.mesa 0) && d.readable (.mesa 0) &&
     (d.refuse windowReq (.mesa 0) 0x4000000 false).isNone && !d.outOfService (Region.mesa 0).ctrl && classify (d.raw 0x4000000) == .clean &&
     ((d.setRaw 0x4000000 (poisonWord 5)).readWord windowReq 0x20000000).2 == .poison &&
     (d.readWord windowReq 0xF000000).2 == .err stCONFIG && (d.target 0xF000000) == .unmapped &&
     (match d.target 0x40000020000000 with | .remote _ _ => true | _ => false)) = true := by decide +kernel

/-- R98: a 32-bit read through the window shows the word's lower half, byte view. -/
theorem test_window_read :
    gives (.memoryWindowRead 4 4 .poison .poison) (withDev (filled [(0x20000000, 0x1122334455667788)] (upDev.set Reg.GLB_MEMWIN_PAGE 0x10)))
      (fun e => e.out == [.window 4 [0x44, 0x33, 0x22, 0x11]]) = true := by decide +kernel

/-- R114's example: data bits 0 and 5 give the check byte 0x12; with bit 5 lost the word is corrected, with both lost it is uncorrectable. -/
theorem test_code_example :
    (checkOf 0x21 = 0x12 ∧ classify (0x01 + 0x12 * 2 ^ 72) = .corrected 0x21 ∧ classify (0x00 + 0x12 * 2 ^ 72) = .uncorrectable) := by
  decide +kernel

/-- CodeCorrects: words of each class. -/
theorem witness_CodeCorrects :
    syndrome (encodeWord 5) = 0 ∧ syndrome (poisonWord 5) = 0x7F ∧ syndrome (encodeWord 5 ^^^ 2 ^ 75) = 2 ^ 3 ∧
    syndrome (encodeWord 5 ^^^ 2 ^ 5) = eccColumns.getD 5 0 ∧ classify (encodeWord 5 ^^^ 3) = .uncorrectable := by decide +kernel

/-- WritesStore: an accepted word, clean, poisoned and uncorrectable, with no injection armed. -/
theorem witness_WritesStore :
    (let q := windowReq
     let d := upDev
     regionOf 0x20000000 == some (.mesa 0) && d.writable (.mesa 0) && (d.refuse q (.mesa 0) 0x4000000 true).isNone &&
     !d.outOfService (Region.mesa 0).ctrl && !d.on Reg.MEM_INJECT_ARMED && classify (d.raw 0x4000000) == .clean && Memory.wf d.mem &&
     classify ((d.setRaw 0x4000000 (poisonWord 5)).raw 0x4000000) == .poison &&
     classify ((d.setRaw 0x4000000 (encodeWord 5 ^^^ 3)).raw 0x4000000) == .uncorrectable) = true := by decide +kernel

/-- MemoryCare: tracked words, due and not; the scrubbers on and off, at a clean, a corrected, a poisoned and an uncorrectable word, and at
the end of a pass; a repair. -/
theorem witness_MemoryCare :
    (let old : Dev := upDev.onRam (fun m => { m with trackers := [(0, [⟨3, true, 0⟩])] })
     let on := upDev.set Reg.MEM_SCRUB_CFG_ONCHIP_H 1
     let word (v : Nat) := classify ((on.setRaw 0 v).raw 0)
     old.tracker 0 == [⟨3, true, 0⟩] && decide ((old.now - 0).toNat < 86400 * 10 ^ 9 * 2 ^ 16) &&
     decide (86400 * 10 ^ 9 * 2 ^ 16 ≤ ((BitVec.ofNat 64 (86400 * 10 ^ 9 * 2 ^ 16) : ShortTime) - 0).toNat) &&
     (on.set Reg.MEM_SCRUB_CFG_ONCHIP_H 0).get Reg.MEM_SCRUB_CFG_ONCHIP_H == 0 && on.get Reg.MEM_SCRUB_CFG_ONCHIP_H != 0 &&
     on.nextScrub 0 240 == 0 && on.nextScrub onChipWords 240 == onChipWords && regionOf (8 * scrubWordAt 0) == some (.core 0 false) &&
     word (encodeWord 5) == .clean && word (encodeWord 5 ^^^ 1) == .corrected 5 && word (poisonWord 5) == .poison &&
     word (encodeWord 5 ^^^ 3) == .uncorrectable && upDev.reaches .secure Reg.MEM_INJECT_ARMED.off &&
     upDev.reaches .steward Reg.MEM_INJECT_ARMED.off && (upDev.set (Reg.HBM_STACK_STATE 0) 2).get (Reg.HBM_STACK_STATE 0) == 2 &&
     decide ((upDev.sparesUsed 117 0) < (Region.mesa 0).spares)) = true := by decide +kernel

/-! ### Engines -/

/-- A device whose channel 0, engine 0 of each kind and coding complex are in RUN. -/
def enginesDev : Dev :=
  ([.dmv 0, mxeFn 0, xfmFn 0, .code, .ciph, .eth 0] : List Fn).foldl (fun d fn => d.set fn.state 1) upDev

/-- A fill of one word of MESA[0] with a pattern, and a copy of its first word to its second. -/
def fillJob (phase : Phase) : Job := jobAt phase [(0, 0xA2), (36, 1), (40, 0x77), (48, 0x20000000), (56, 1)]
def copyJob (phase : Phase) : Job := jobAt phase [(0, 0xA0), (36, 1), (40, 0x20000000), (48, 0x20000008), (56, 1)]

/-- MoverJobs: a job waiting at a channel that may begin it; jobs running; a fill and a copy of one word; frames that fit, do not fit, and
meet a full queue. -/
theorem witness_MoverJobs_1 :
    (let d := carrying [fillJob .queued] enginesDev
     d.running (.dmv 0) && !d.dmvHalted 0 && d.domainOn 18 && (d.atUnit 0xA0 0xB0 0 .running).isEmpty &&
     firstInQueue (d.atUnit 0xA0 0xB0 0 .queued) == some (fillJob .queued) &&
     (let f := fillJob .running
      let e := carrying [f] enginesDev
      e.job 1 == some f && f.opcode == 0xA2 && f.verdict.isNone && !f.uncorr && !f.poison && f.dmvRows == 1 && f.dmvCount == 1 &&
      e.target f.dmvDst == .mem 0x20000000 && regionOf 0x20000000 == some (.mesa 0) && (e.refuse (e.dmvReq f) (.mesa 0) 0x4000000 true).isNone &&
      !e.on Reg.MEM_INJECT_ARMED && gives (.dmvFill 1 []) (withDev e) (fun e => e.raw 0x4000000 == encodeWord 0x77)) &&
     (let c := copyJob .running
      let e := filled [(0x20000000, 5)] (carrying [c] enginesDev)
      c.opcode == 0xA0 && e.target c.dmvSrc == .mem 0x20000000 && e.target c.dmvDst == .mem 0x20000008 &&
      classify (e.raw 0x4000000) == .clean && gives (.dmvCopy 1 []) (withDev e) (fun e => e.raw 0x4000001 == encodeWord 5))) = true := by
  decide +kernel
theorem witness_MoverJobs_2 :
    (let t := jobAt .running [(0, 0xA3)]
     let d := carrying [t] enginesDev
     t.opcode == 0xA3 && (jobAt .running [(0, 0xA1)]).opcode == 0xA1 && d.tplServes 0 0 false && !d.tplServes 0 0 true &&
     decide (d.frameExtra 0 ≤ d.get (Reg.ETH_PORT_CFG_MAX_FRAME 0)) &&
     d.frameRoom 0 0 64 && !d.frameRoom 0 0 (2 ^ 24)) = true := by decide +kernel

/-- The parameter block at 0x2000_0100 of products of 1×1 matrices: A, B, C and the record in the first words of MESA[0]. -/
def mxBlock : List (Nat × Nat) :=
  [(0x20000100, 0x20000000), (0x20000108, 0x20000008), (0x20000110, 0x20000010), (0x20000118, 1 + 2 ^ 20 + 2 ^ 40),
   (0x20000120, 1 + 2 ^ 32), (0x20000128, 1), (0x20000130, 0x20000018), (0x20000138, 0)]
/-- A matrix job of one instance. -/
def mxJob (op : Nat) (phase : Phase) : Job := jobAt phase [(0, op), (37, 0xFF), (40, 1), (48, 0x20000100)]

/-- EngineJobs: a job next at an engine and at a unit, with a parameter block that is sound, that is not, that is lost or out of place; and
jobs running. -/
theorem witness_EngineJobs :
    (let j := mxJob 0x10 .queued
     let d := carrying [j] enginesDev
     let io (d : Dev) := (Io.start d j []).readAll (d.mxeReq j) (gridWords j.mxParam 1 8 0)
     let ok := filled mxBlock d
     let far := jobAt .queued [(0, 0x10), (37, 0xFF), (40, 1), (48, 0x20000104)]
     d.nextJob 0x10 0x30 0 13 (mxeFn 0) == some j && d.engineRun j.mxParam 8 && !d.engineRun far.mxParam 8 &&
     (io ok).1.stop.isNone && (io ok).1.lost.isNone && (io ok).1.done.mxParamOk { j with params := (io ok).2 } &&
     !(io d).1.done.mxParamOk { j with params := (io d).2 } &&
     (io (ok.setRaw (0x20000100 / 8) (poisonWord 0))).1.lost.isSome &&
     (carrying [mxJob 0x30 .queued] enginesDev).nextJob 0x30 0x40 0 14 (xfmFn 0) == some (mxJob 0x30 .queued) &&
     (mxJob 0x15 .running).opcode == 0x15 && (carrying [mxJob 0x15 .running] enginesDev).job 1 == some (mxJob 0x15 .running)) = true := by
  decide +kernel

/-- EngineProducts: operands of the right shape, with and without diagonal loading, a shift given and one that is automatic, and an
exponent out of range. -/
theorem witness_EngineProducts :
    (let a : Mat := [[⟨3, 2⟩]]
     a.length == 1 && a.all (fun r => r.length == 1) && (mxJob 0x10 .running).mxD 2 == 0 && (mxJob 0x12 .running).opcode == 0x12 &&
     !(mxJob 0x11 .running).mxDiag && (jobAt .running [(0, 0x11), (36, 16)]).mxDiag &&
     (mxScaled 17 0 a).status == stOK && (mxScaled 17 (-128) a).status == stOK && (mxScaled 17 128 a).status == stNUMERIC &&
     (mxScaled 0xFF 0 a).status == stOK) = true := by decide +kernel

/-- R243: (3 + 2j)(5 + 7j) = 1 + 31j, extracted with SHIFT 0: C_EXP is the sum of the exponents less 17. -/
theorem test_mx_product :
    (let r := (jobAt .running [(0, 0x10)]).mxCompute [[⟨3, 2⟩]] [[⟨5, 7⟩]] 17
     r.c == some [[⟨1, 31⟩]] && r.exp == 0 && r.status == stOK) = true := by decide +kernel

/-- A CRC24A of 8 bits of the first byte of MESA[0]. -/
def crcJob (phase : Phase) : Job := jobAt phase [(0, 0x48), (32, 1), (36, 8), (48, 0x20000000)]

/-- CodingJobs: a unit with an instance to take, an instance computed and ending, a job of each code running, and a CRC job. -/
theorem witness_CodingJobs :
    (let j := jobAt .queued [(0, 0x43), (32, 1), (34, 20), (36, 64), (40, 1), (48, 0x20000100)]
     let run : CodeRun := ⟨1, 0, 0, 0, 0, 0, 0, 0, 0, 0, 0, 0, [], false, false, none⟩
     let d := carrying [j] enginesDev
     d.serves .code && d.domainOn 15 && d.code.units.isEmpty && j.opcode == 0x43 && j.cdInstances == 1 && d.codeReady j &&
     firstServed (d.jfe.jobs.filter d.codeReady) == some j && (codeUnits 0x43) == (20, 4) &&
     (let r := { j with phase := .running }
      let e : Dev := { carrying [r] enginesDev with code := { units := [⟨20, 1, 0, none⟩], runs := [{ run with next := 1 }] } }
      e.job 1 == some r && e.codeRun 1 == some { run with next := 1 } && (e.code.units.find? (fun x => x.unit == 20)).isSome) &&
     (let c := crcJob .queued
      let e := carrying [c] enginesDev
      c.opcode == 0x48 && gives (.ccCrc 1 []) (withDev e) (fun e => (e.job 1).any (fun j => j.phase == .ended && j.status == 0)))) = true := by
  decide +kernel

/-- TS 38.212 g_CRC16 = D^16 + D^12 + D^5 + 1: the CRC of the one bit 1 is the polynomial itself. -/
theorem test_crc16 : crcOf 3 [true] = 0x1021 := by decide +kernel

/-! ### Burst receivers and chains -/

/-- Receiver 0 in RUN with the format 0 of slot 0 enabled, and its report ring of 16 entries in the host window. -/
def brxDev : Dev :=
  let d := (upDev.set (Fn.state (brxFn 0)) 1).set (Reg.BRX_SLOT_ENABLE 0 0) 1
  let d := (d.set (Reg.BRX_FMT_ENABLE 0 0) 1).set (Reg.BRX_FMT_OCC_MASK 0 0) 1
  let d := (d.set (Reg.BRX_CFG_REP_LOG2 0) 4).set64 ⟨(Reg.BRX_REP_BASE 0).off, 0, 32⟩ 0x20000000000000
  d.set (Reg.BRX_FMT_PAYLOAD 0 0) 1

/-- A release of context 5 of receiver 0, generation 1. -/
def releaseJob (ok : Nat) : Job := jobAt .queued [(0, 0x60), (33, 5), (34, 1), (36, ok)]

/-- BurstContexts: a release of a context READY and of one FREE, a context held too long and one OPEN, a context CONFIRMED; a ring with
room. -/
theorem witness_BurstContexts :
    (let j := releaseJob 1
     let ctx (st : Nat) (d : Dev) : Dev := (d.set (Reg.BRX_CTX_STATE 0 5) st).set (Reg.BRX_CTX_GEN 0 5) 1
     let d := carrying [j] (ctx 3 brxDev)
     d.queuedJob 1 0x60 == some j && j.bits 32 0 4 == 0 && j.bits 33 0 6 == 5 && j.bytes 34 2 == 1 && d.get (Reg.BRX_CTX_GEN 0 5) == 1 &&
     d.lostReports 0 == 0 && d.jfe.busMaster.getLsbD (d.get (Reg.BRX_CFG_FUNC 0)) &&
     d.target (d.addr56 (Reg.BRX_REP_BASE 0).off 12) == .host 0 && decide (d.get (Reg.BRX_REP_PI 0) < 2 ^ d.get (Reg.BRX_CFG_REP_LOG2 0)) &&
     gives (.brxRelease 1 []) (withDev d) (fun e => e.get (Reg.BRX_CTX_STATE 0 5) == 0 && (e.job 1).any (fun j => j.phase == .ended)) &&
     gives (.brxRelease 1 []) (withDev (carrying [j] (ctx 0 brxDev))) (fun e => e.get (Reg.BRX_STALE 0) == 1) &&
     (let h := (ctx 3 brxDev).set (Reg.BRX_HOLD_US 0) 0; h.due ((h.brxCtx 0 5).ready + nsTime (1000 * h.get (Reg.BRX_HOLD_US 0)))) &&
     (ctx 1 brxDev).get (Reg.BRX_CTX_STATE 0 5) == 1 && (ctx 2 brxDev).get (Reg.BRX_CTX_STATE 0 5) == 2 && !brxDev.stopped (brxFn 0) &&
     ((Io.ofBlock (ctx 2 brxDev) []).capture 0 5 0).stop.isNone) = true := by decide +kernel

/-- A peak of sequence 3 at full scale. -/
def peak : Peak := ⟨3, 2 ^ 64, 0, 0, 0⟩

/-- BurstSearch: an occasion that is searched and one that is not, with a detection for a FREE context; a quiet window that is due, one
too short, one spoilt. -/
theorem witness_BurstSearch_1 :
    (let d := brxDev
     d.searches 0 0 0 0 0 0 && !upDev.searches 0 0 0 0 0 0 && (d.detections 0 0 0 []).isEmpty && (d.detections 0 0 0 [peak]).length == 1 &&
     d.on (Reg.BRX_FMT_PAYLOAD 0 0) && !(d.set (Reg.BRX_FMT_PAYLOAD 0 0) 0).on (Reg.BRX_FMT_PAYLOAD 0 0) &&
     d.get (Reg.BRX_CTX_STATE 0 0) == 0 && (d.brxCtx 0 0).ended.isNone) = true := by decide +kernel
theorem witness_BurstSearch_2 :
    (let full : Dev := (List.range 64).foldl (fun d k => d.set (Reg.BRX_CTX_STATE 0 k) (if k = 7 then 1 else 3)) brxDev
     (List.range 64).all (fun k => full.get (Reg.BRX_CTX_STATE 0 k) != 0) && full.get (Reg.BRX_CTX_STATE 0 7) == 1) = true := by decide +kernel
theorem witness_BurstSearch_3 :
    (let q := jobAt .queued [(0, 0x61)]
     let r := { q with phase := .running }
     (carrying [q] brxDev).queuedJob 1 0x61 == some q && (carrying [r] brxDev).executing 1 0x61 == some r && brxDev.due r.quietWindow.2 &&
     !brxDev.due (jobAt .running [(0, 0x61), (40, 9)]).quietWindow.2 && !brxDev.quietLong 0 0 r.quietWindow 0 &&
     (brxDev.set (Reg.BRX_SLOT_INPUT 0 0) 1).quietLong 0 0 r.quietWindow 1 && !brxDev.quietSpoilt 0 0 r.quietWindow &&
     (brxDev.onBrx (fun x => { x with detected := [(0, BitVec.ofInt 64 (-5), 5)] })).quietSpoilt 0 0 r.quietWindow) = true := by decide +kernel

/-- R291: a level is 100 times the decimal logarithm, rounded half up: a ratio of 2 is 3.0 dB, of 1 is 0, of 1/10 is −10.0 dB. -/
theorem test_levels : level10 2 1 = 30 ∧ level10 1 1 = 0 ∧ level10 1 10 = -100 := by decide +kernel

/-- TX chain 2 and RX chain 2 in RUN with carrier slot 1 enabled. -/
def dfeDev : Dev :=
  let d := (upDev.set (Fn.state (dfeTxFn 2)) 1).set (Fn.state (dfeRxFn 2)) 1
  let d := (d.set (Reg.DFE_TX_CAR_ENABLE 2 1) 1).set (Reg.DFE_RX_CAR_ENABLE 2 1) 1
  (d.set (Reg.DFE_TX_CAR_BLOCKS 2 1) 8).set (Reg.DFE_RX_CAR_BLOCKS 2 1) 8

/-- DfeChains: commits ahead, behind and beyond; banks free and in use; a block due and committed, and one not; windows and dwells. -/
theorem witness_DfeChains_1 :
    (let commit (n : Nat) : Job := jobAt .queued [(0, 0x70), (32, 2), (33, 1), (36, n)]
     let d := carrying [commit 3] dfeDev
     d.queuedJob 1 0x70 == some (commit 3) && (commit 3).bits 32 0 7 == 2 && (commit 3).bits 33 0 2 == 1 &&
     gives (.dfeTxCommit 1) (withDev d) (fun e => e.get (Reg.DFE_TX_CAR_COMMITTED 2 1) == 3) &&
     gives (.dfeTxCommit 1) (withDev (carrying [commit 9] dfeDev)) (fun e => (e.job 1).any (fun j => j.status == stLENGTH)) &&
     gives (.dfeTxCommit 1) (withDev (carrying [commit (2 ^ 32 - 1)] dfeDev)) (fun e => (e.job 1).any (fun j => j.status == stCONFIG)) &&
     (let l := jobAt .queued [(0, 0x71), (32, 4), (40, 0x20000000)]
      (carrying [l] dfeDev).queuedJob 1 0x71 == some l && !upDev.bankInUse 4 && dfeDev.bankInUse 0)) = true := by decide +kernel
theorem witness_DfeChains_2 :
    (let d := dfeDev
     d.running (dfeTxFn 2) && d.domainOn 16 && d.on (Reg.DFE_TX_CAR_ENABLE 2 1) && !d.committed 2 1 0 &&
     (d.set (Reg.DFE_TX_CAR_COMMITTED 2 1) 3).committed 2 1 0 && d.due (d.fetchTime 2 1 0) && d.running (dfeRxFn 2) &&
     d.jfe.busMaster.getLsbD (d.get (Reg.DFE_RX_CFG_FUNC 2)) &&
     (let h := (d.set64 ⟨(Reg.DFE_RX_CAR_RING 2 1).off, 0, 32⟩ 0x20000000000000).set64 ⟨(Reg.DFE_RX_CAR_HDR 2 1).off, 0, 32⟩ 0x20000000100000
      h.target (h.addr56 (Reg.DFE_RX_CAR_RING 2 1).off 3) == .host 0 && h.target (h.addr56 (Reg.DFE_RX_CAR_HDR 2 1).off 3) == .host 0x100000)) =
    true := by decide +kernel
theorem witness_DfeChains_3 :
    (let d := dfeDev.set (Reg.DFE_RX_CFG_AGC_EN 2) 1
     !d.stopped (dfeRxFn 2) && d.on (Reg.DFE_RX_CFG_AGC_EN 2) && !d.on (Reg.DFE_RX_CAR_FROZEN 2 1) && 
     decide (d.get (Reg.DFE_RX_AGC_WIN 2) ≤ lookup (fun _ => 0) (d.onDfe (fun x => { x with window := [(9, 65535)] })).dfe.window 9) &&
     (dfeDev.set (Reg.DFE_TX_CFG_MASK_PROF 2) 0).maskWatches 2 && !upDev.maskWatches 2 && (List.replicate 4096 (2 ^ 60)).length == 4096 &&
     upDev.reaches (.func 0) (Reg.DFE_TX_ATTN 2).off && !Dev.reset.reaches (.func 0) (Reg.DFE_TX_ATTN 2).off) = true := by decide +kernel

/-! ### Links, time and Ethernet -/

/-- Port 1 in RUN at a training state. -/
def uldDev (train : Nat) : Dev := (upDev.set (Fn.state (uldFn 1)) 1).set (Reg.ULD_STATE_TRAIN 1) train

/-- A frame that is good, acknowledges nothing held and is no NAK. -/
def frame (good : Bool) : Frame := { good := good, ack := 4095, nak := false, crClass := 0, crCount := 0 }

/-- LinkTraining: a port in each state, alike and unlike TRAIN frames, timeouts due, lanes with and without their marker, a lane in RUN. -/
theorem witness_LinkTraining_1 :
    ((uldDev 1).running (uldFn 1) && (uldDev 3).get (Reg.ULD_STATE_TRAIN 1) == 3 && upDev.reaches (.func 0) (Reg.LANE_SLIP_GO 40).off &&
     gives (.uldSignalLock 1) (withDev (uldDev 1)) (fun e => e.get (Reg.ULD_STATE_TRAIN 1) == 2) &&
     gives (.uldEqualiseConverged 1 ((uldDev 2).activeLanes 1 |>.map (fun _ => 0x0102))) (withDev (uldDev 2))
       (fun e => e.get (Reg.ULD_STATE_TRAIN 1) == 3) &&
     gives (.uldAlignMatch 1) (withDev (((uldDev 3).activeLanes 1).foldl (fun d x => d.set (Reg.LANE_STATUS_MATCH x) 1) (uldDev 3)))
       (fun e => e.get (Reg.ULD_STATE_TRAIN 1) == 4) &&
     gives (.uldDeskewDone 1 3 (((uldDev 4).activeLanes 1).map (fun x => Fin.ofNat 8 (x - 40)))) (withDev (uldDev 4))
       (fun e => e.get (Reg.ULD_STATE_TRAIN 1) == 5) &&
     gives (.uldDeskewDone 1 17 []) (withDev (uldDev 4)) (fun e => e.get (Fn.fault (uldFn 1)) == 6) &&
     gives (.slipGo (.func 0) 40) (withDev (uldDev 3)) (fun e => e.get (Reg.LANE_STATUS_SLIP 40) == 1) &&
     gives (.markerWord 40 (markerFor 5)) (withDev (uldDev 3)) (fun e => e.on (Reg.LANE_STATUS_MATCH 40))) = true := by decide +kernel
theorem witness_LinkTraining_2 :
    (let body : TrainBody := ⟨1, 2, 0, false, 0, true, 0, List.replicate 8 0⟩
     body.wf && (frame true).good && !(frame false).good && ((uldDev 5).link 1).goodTrain == 0 && !((uldDev 5).link 1).wasActive &&
     decide ((uldDev 5).ownId ≠ 1) && (uldDev 6).uldActive 1 && (uldDev 6).activeLanes 1 != [] &&
     ((uldDev 6).onLink 1 (fun l => { l with wasActive := true, retraining := true })).running (uldFn 1) &&
     (upDev.set (Fn.state (.lane 40)) 1).running (.lane 40) && (upDev.set (Reg.LANE_CFG_TEST 40) 3).get (Reg.LANE_CFG_TEST 40) == 3) = true := by
  decide +kernel

/-- LinkFrames: an ACTIVE link with frames held and none, a packet that waits with credit and without, a frame in order and one ahead. -/
theorem witness_LinkFrames :
    (let d := uldDev 6
     let flit : Flit := ⟨0, false, none, []⟩
     let held := d.onLink 1 (fun l => { l with replay := [(7, flit)] })
     let p := packetOf .rd mesa0 []
     let full := d.onLink 1 (fun l => { l with queue := [(false, p)] })
     let credit := d.onLink 1 (fun l => { l with queue := [(false, p)], limits := List.replicate 8 16 })
     d.uldActive 1 && !upDev.uldActive 1 && flit.wf && (held.link 1).replay == [(7, flit)] && (d.link 1).queue.isEmpty &&
     gives (.idleFrame 1 { frame true with ack := 7 }) (withDev held) (fun e => (e.link 1).replay == []) &&
     gives (.idleFrame 1 { frame true with nak := true }) (withDev held) (fun e => (e.link 1).replayCount == 1) &&
     (full.pump 1).noc == full.noc && ((full.pump 1).link 1).queue.length == 1 && ((credit.pump 1).link 1).queue.isEmpty &&
     gives (.dataFrame 1 (frame true) 0 flit) (withDev d) (fun e => (e.link 1).lastSeq == 0) &&
     gives (.dataFrame 1 (frame true) 5 flit) (withDev d) (fun e => (e.link 1).nak) &&
     gives (.sleepIdleExpiry 1) (withDev (d.set (Reg.ULD_CFG_SLEEP_EN 1) 1)) (fun e => e.on (Reg.ULD_STATE_TX_SLEEP 1)) &&
     gives (.timeIntervalExpiry 1 5) (withDev (d.set (Reg.ULD_CFG_TIME_EN 1) 1)) (fun e => (e.link 1).tseq == 1)) = true := by decide +kernel

/-- TimeServo: a counter that runs and one that does not, the servo stopped and in RUN, references selected, measurements lost. -/
theorem witness_TimeServo :
    (let d := upDev
     let runs := d.set (Fn.state .servo) 1
     d.timeRuns && !Dev.reset.timeRuns && d.stopped .servo && d.reaches (.func 0) Reg.TB_ADJ_FREQ.off && d.reaches (.func 0) Reg.TB_SET_GO.off &&
     !Dev.reset.reaches (.func 0) Reg.TB_ADJ_FREQ.off && runs.running .servo && !runs.stopped .servo &&
     (runs.set Reg.TB_SERVO_SOURCE 3).get Reg.TB_SERVO_SOURCE == 3 && decide (d.get Reg.TB_SET_NS < 10 ^ 9) &&
     ((d.set Reg.TB_DPLL_SEL0 5).get Reg.TB_DPLL_SEL0 == 5) &&
     gives (.referenceValid 5) (withDev (d.set Reg.TB_DPLL_SEL0 5)) (fun e => e.get Reg.TB_DPLL_ACTIVE == 5) &&
     gives (.servoUpdate 3 0 0 true 6) (withDev runs) (fun e => e.timeState == 1)) = true := by decide +kernel

/-- R371: with F and slew at zero a broadcast moves time by 16 ns. -/
theorem test_broadcast :
    gives .shortTimeBroadcast (withDev upDev) (fun e => e.time.short == 0x100000 && e.time.full == 0x100000 && e.time.cast == 0x100000) = true := by
  decide +kernel

/-- TimePins: PPS_OUT enabled and its pulse, PPS_IN enabled, timed pins in RUN as input and output, a PTM request, a port that carries
PTP. -/
theorem witness_TimePins :
    (let d := upDev.set Reg.TB_PPS_IN_EN 1
     let tin := upDev.set (Fn.state (.tio 3)) 1
     let tout := (tin.set (Reg.TB_TIO_CFG_MODE 3) 1).set (Reg.TB_TIO_EDGE_EN 3 2) 1
     let ptp := ((upDev.set (Fn.state .servo) 1).set (Fn.state (.eth 2)) 1).set (Reg.ETH_PORT_STATUS_LINK_UP 2) 1
     d.on Reg.TB_PPS_IN_EN && !d.on Reg.TB_PPS_IN_FALLING && tin.running (.tio 3) && !tin.on (Reg.TB_TIO_CFG_MODE 3) &&
     tout.on (Reg.TB_TIO_CFG_MODE 3) && tout.on (Reg.TB_TIO_EDGE_EN 3 2) && d.boot.perst && !Dev.reset.boot.perst && ptp.running .servo &&
     ptp.get Reg.TB_SERVO_SOURCE == 0 && ptp.running (.eth 2) && !ptp.on (Reg.ETH_PORT_CFG_MACSEC_EN 2) &&
     gives (.ppsInEdge false 0) (withDev d) (fun e => e.get Reg.TB_PPS_IN_COUNT == 1) &&
     gives (.timedIoInputEdge 3 false 9) (withDev tin) (fun e => e.get64 (Reg.TB_TIO_LAST 3) == 9) &&
     gives (.timedIoOutputEdge 3) (withDev tout) (fun e => (e.pin 3).level == some false) &&
     gives .ptmRequest (withDev d) (fun e => e.out == [.ptm 0])) = true := by decide +kernel

/-- Port 2 in RUN with its link up, rings of 16 entries in the host window. -/
def ethDev : Dev :=
  let d := (upDev.set (Fn.state (.eth 2)) 1).set (Reg.ETH_PORT_STATUS_LINK_UP 2) 1
  let d := (d.set64 ⟨(Reg.ETH_PORT_TXR_PI_ADDR 2).off, 0, 32⟩ 0x20000000000000).set64 ⟨(Reg.ETH_PORT_TXR_BASE 2).off, 0, 32⟩ 0x20000000001000
  let d := (d.set64 ⟨(Reg.ETH_PORT_RXR_BASE 2).off, 0, 32⟩ 0x20000000002000).set64 ⟨(Reg.ETH_PORT_RXB_BASE 2).off, 0, 32⟩ 0x20000000003000
  (d.set (Reg.ETH_PORT_TXR_LOG2 2) 4).set (Reg.ETH_PORT_RXR_LOG2 2) 4

/-- EthernetPorts: quads stopped and not, links, a frame whose turn it is and one whose turn it is not, rings with room, frames misshapen
and well shaped, entries enabled and not. -/
theorem witness_EthernetPorts_1 :
    (let f : TxFrame := ⟨1, List.replicate 60 0, 5, none, none, false, none⟩
     let d := ethDev.onPort 2 (fun p => { p with frames := [f] })
     upDev.reaches (.func 0) (Reg.ETH_QUAD_SPLIT 0).off && upDev.stopped (ethFn 2) && !ethDev.stopped (ethFn 2) &&
     ethDev.on (Reg.ETH_PORT_STATUS_LINK_UP 2) && !upDev.on (Reg.ETH_PORT_STATUS_LINK_UP 2) && !ethDev.on (Reg.ETH_PORT_CFG_MACSEC_EN 2) &&
     (d.port 2).frames == [f] && !d.on (Reg.ETH_PORT_QUEUE_ASAP 2 1) && decide (timeDiff f.launch 5 ≤ 0) &&
     gives (.frameLaunch 2 5 false []) (withDev d) (fun e => (e.port 2).wire == [(5, f.bytes)] && (e.port 2).frames.isEmpty) &&
     gives (.frameLaunch 2 4 false []) (withDev d) (fun e => (e.port 2).frames == [f]) &&
     gives (.linkDown 2) (withDev d) (fun e => !e.on (Reg.ETH_PORT_STATUS_LINK_UP 2)) &&
     gives (.linkUp 2 true) (withDev (ethDev.set (Reg.ETH_PORT_STATUS_LINK_UP 2) 0)) (fun e => e.on (Reg.ETH_PORT_STATUS_LINK_UP 2))) = true := by
  decide +kernel
theorem witness_EthernetPorts_2 :
    (let bs : List Byte := List.replicate 60 0
     ethDev.target (ethDev.addr56 (Reg.ETH_PORT_TXR_PI_ADDR 2).off 2) == .host 0 && ethDev.target (ethDev.txrSlot 2 0) == .host 0x1000 &&
     ethDev.target (ethDev.addr56 (Reg.ETH_PORT_RXR_BASE 2).off 12) == .host 0x2000 &&
     ethDev.target (ethDev.addr56 (Reg.ETH_PORT_RXB_BASE 2).off 12) == .host 0x3000 && ethDev.jfe.busMaster.getLsbD 0 &&
     (let r : RxFrame := { bytes := bs, time := 9, protected_ := false }
      (ethDev.chainFor 2 r).isNone && (ethDev.steerFor 2 r).isNone && etherType bs == 0) &&
     gives (.frameReceive 2 true 9 bs false []) (withDev (ethDev.set (Reg.ETH_PORT_CFG_RX_RING_EN 2) 1)) (fun e =>
       e.get (Reg.ETH_PORT_RXR_PI 2) == 1) &&
     gives (.frameReceive 2 true 9 (bs.drop 1) false []) (withDev ethDev) (fun e => e.get (Reg.ETH_PORT_RX_DROPS 2) == 1) &&
     gives (.frameReceive 2 false 9 bs false []) (withDev ethDev) (fun e => e.get (Reg.ETH_PORT_RX_FCS_ERR 2) == 1) &&
     gives (.txRingPoll 2 ([.word 1, .word 0x20000000004000, .word (1 + 1 * 2 ^ 16), .word 0, .word 0, .word 0xAB])) (withDev ethDev) (fun e =>
       (e.port 2).frames.isEmpty || (e.port 2).frames.length == 1) &&
     upDev.reaches (.func 0) (Reg.ETH_STEER_EN 3).off && !upDev.on (Reg.ETH_STEER_EN 3) && (upDev.set (Reg.ETH_STEER_EN 3) 1).on (Reg.ETH_STEER_EN 3)) =
    true := by decide +kernel

/-! ### The secure world -/

/-- A booted device whose desk 0 holds the operands of a key command of drawer 5 under the KEK of drawer 6, with ADDR at MESA[0]. -/
def deskDev (op : Nat) : Dev :=
  let d := ((upDev.set (Reg.CIPH_DESK_KCMD_OP 0) op).set (Reg.CIPH_DESK_KCMD_DRAWER 0) 5).set (Reg.CIPH_DESK_KCMD_KEK 0) 6
  d.set64 ⟨(Reg.CIPH_DESK_KCMD_ADDR 0).off, 0, 32⟩ 0x20000000

/-- A LOADED drawer granted to every desk. -/
def drawerOf (cls : Nat) (usage : BitVec 6) (key : Nat) : Drawer :=
  { loaded := true, cls := cls, usage := usage, secure := false, keyId := 0, key := BitVec.ofNat 256 key, uses := 0, grants := BitVec.allOnes 64 }

/-- Drawer 5 EMPTY and granted to every desk, drawer 6 a KEK that unwraps. -/
def kekDev (op : Nat) : Dev :=
  ((deskDev op).setDrawer 5 { Drawer.empty with grants := BitVec.allOnes 64 }).setDrawer 6
    (drawerOf 4 32 0x1F1E1D1C1B1A191817161514131211100F0E0D0C0B0A09080706050403020100)

/-- A record of class AES128 with usage ENCRYPT and DECRYPT, and its 56 wrapped bytes. -/
def record128 : List Nat := [1, 1, 3, 0] ++ List.replicate 12 0 ++ List.range 32
def wrappedRecord : List Nat := [120, 158, 195, 156, 96, 188, 226, 171, 33, 223, 156, 227, 187, 175, 123, 239, 38, 236, 248, 0, 91, 62, 220, 245, 97,
  82, 24, 3, 181, 116, 250, 92, 84, 141, 67, 66, 228, 210, 76, 171, 214, 80, 117, 172, 161, 240, 73, 34, 132, 202, 29, 41, 219, 223, 201, 210]

/-- FIPS 197, C.1: AES-128 of its example. -/
theorem test_aes : (aes (List.range 16) [0x00, 0x11, 0x22, 0x33, 0x44, 0x55, 0x66, 0x77, 0x88, 0x99, 0xAA, 0xBB, 0xCC, 0xDD, 0xEE, 0xFF] ==
    [0x69, 0xC4, 0xE0, 0xD8, 0x6A, 0x7B, 0x04, 0x30, 0xD8, 0xCD, 0xB7, 0x80, 0x70, 0xB4, 0xC5, 0x5A]) = true := by decide +kernel

/-- RFC 3394, section 4.3: the wrapped key of the example unwraps (the successful case of LOAD_KW). -/
theorem test_kw_unwrap : (kwUnwrap (List.range 32) [0x64, 0xE8, 0xC3, 0xF9, 0xCE, 0x0F, 0x5B, 0xA2, 0x63, 0xE9, 0x77, 0x79, 0x05, 0x81,
      0x8A, 0x2A, 0x93, 0xC8, 0x19, 0x1E, 0x7D, 0x6E, 0x8A, 0xE7] ==
    some [0x00, 0x11, 0x22, 0x33, 0x44, 0x55, 0x66, 0x77, 0x88, 0x99, 0xAA, 0xBB, 0xCC, 0xDD, 0xEE, 0xFF]) = true := by decide +kernel

/-- The published keystreams of SNOW 3G and of ZUC under the zero key. -/
theorem test_snow : (snowWords [0x4881FF48, 0x952C4910, 0x82C5B300, 0x2BD6459F] [0xEA024714, 0xAD5C4D84, 0xDF1F9B25, 0x1C0BF45F] 2 ==
    [0xABEE9704, 0x7AC31373]) = true := by decide +kernel
theorem test_zuc : (zucWords (List.replicate 16 0) (List.replicate 16 0) 2 == [0x27BEDE74, 0x018082DA]) = true := by decide +kernel

/-- KeyCommands: the accessor reaches the desk; drawers granted and not, in use and not; a key that unwraps and one that does not. -/
theorem witness_KeyCommands_1 :
    (let d := kekDev 1
     let c := d.kcmd (.func 0) 0
     d.deskServed (.func 0) 0 && !(deskDev 1).deskServed (.func 7) 0 && !d.on (Reg.CIPH_DESK_KCMD_BUSY 0) && c.drawer == 5 && c.kek == 6 &&
     c.addr == 0x20000000 && (d.drawer 5).grants.getLsbD 0 && (d.drawer 6).grants.getLsbD 0 && !(deskDev 1).drawerInUse 5 &&
     !((deskDev 2).drawer 5).grants.getLsbD 0 && ((deskDev 1).setDrawer 5 { drawerOf 1 3 0 with uses := 1 }).drawerInUse 5 &&
     (match (d.loadBytes c 56 []).2 with | .ok (k, ct) => k == List.range 32 && ct == List.replicate 56 0 | .error _ => false) &&
     (match ((deskDev 1).loadBytes { c with root := true } 56 []).2 with | .ok _ => false | .error r => r == 1) &&
     (match recordDrawer false record128 with | .ok y => y.cls == 1 && y.keyId == 0 | .error _ => false) &&
     (match recordDrawer false (2 :: record128.drop 1) with | .ok _ => false | .error r => r == 1) &&
     (match ((kekDev 2).loadBytes ((kekDev 2).kcmd (.func 0) 0) 24 []).2 with | .ok (k, _) => k == List.range 32 | .error _ => false)) = true := by
  decide +kernel
/-- KeyCommands: wrapped bytes that hold a sound record. -/
theorem witness_KeyCommands_2 : (kwpUnwrap (List.range 32) wrappedRecord == some record128) = true := by decide +kernel
/-- KeyCommands: a wrapped text that fails. -/
theorem witness_KeyCommands_3 : (kwUnwrap (List.range 32) (List.replicate 24 0)).isNone = true := by decide +kernel
/-- KeyCommands: the other commands on desk 0, and on desk 3, and the end of one. -/
theorem witness_KeyCommands_4 :
    (gives (.keyClear (.func 0) 0) (withDev (kekDev 3)) (fun e => e.sec.kcmds == [(0, 0, none)]) &&
     gives (.keyGrant (.func 0) 0) (withDev (kekDev 4)) (fun e => e.sec.kcmds == [(0, 0, none)]) &&
     gives (.keyRevoke (.func 0) 0) (withDev (kekDev 5)) (fun e => !(e.drawer 5).grants.getLsbD 0) &&
     upDev.deskServed (.func 3) 3 && gives (.keyGrant (.func 3) 3) (withDev (upDev.set (Reg.CIPH_DESK_KCMD_OP 3) 4)) (fun e => e.sec.kcmds == [(3, 5, none)]) &&
     gives (.keyClear (.func 3) 3) (withDev (upDev.set (Reg.CIPH_DESK_KCMD_OP 3) 3)) (fun e => e.sec.kcmds == [(3, 2, none)]) &&
     (deskDev 6).deskServed .secure 0 && !(deskDev 6).sec.ownerLocked && !(deskDev 6).sec.rootKey &&
     gives (.lockOwner .secure 0) (withDev (deskDev 7)) (fun e => e.sec.kcmds == [(0, 8, none)]) &&
     gives (.lockOwner .secure 0) (withDev ((deskDev 7).set Reg.PWR_THERM_FUSE_OK 1)) (fun e => e.sec.ownerLocked) &&
     gives (.kcmdComplete 3) (withDev (upDev.onSec (fun x => { x with kcmds := [(3, 5, none)] }))) (fun e =>
       e.get (Reg.CIPH_DESK_KCMD_RESULT 3) == 5 && e.bit (Reg.CIPH_DESK_ATTN 3) 4)) = true := by decide +kernel
/-- KeyCommands: a KEK_IMPORT whose bytes are read and whose blob may be written. -/
theorem witness_KeyCommands_5 :
    (let d := (deskDev 6).onSec (fun x => { x with rootKey := true })
     let q := kcmdReq .secure 0
     d.sec.rootKey && (upFrom 0 11).all (fun i => d.target ((d.kcmd .secure 0).addr + 8 * i) == .mem (0x20000000 + 8 * i) &&
       (d.refuse q (.mesa 0) (0x4000000 + i) true).isNone) && (upFrom 0 4).all (fun i => classify (d.raw (0x4000000 + i)) == .clean)) = true := by
  decide +kernel

/-- A cipher job of SQ 0: LEN 16 from the first word of MESA[0] to its 64th. -/
def ciJob (op : Nat) (phase : Phase) (more : List (Nat × Nat)) : Job :=
  jobAt phase ([(0, op), (32, 5), (36, 16), (48, 0x20000000), (56, 0x20000200)] ++ more)

/-- CipherJobs: a free unit and a job it can serve, with a window and without; jobs that execute, that verify and that fail. -/
theorem witness_CipherJobs_1 :
    (let j := ciJob 0x81 .queued []
     let d := carrying [j] enginesDev
     let w := ciJob 0x80 .queued [(34, 0x10), (35, 16), (39, 3)]
     let e := carrying [w] (enginesDev.set (Reg.SEC_QW_STATE 2) 1)
     d.serves .ciph && d.domainOn 17 && d.ciphBusy == [] && d.nextCipher 0 == some j && d.nextCipher 16 == none && d.canServe 0 j &&
     w.held && w.qwin == 3 && e.nextCipher 0 == some w && e.get (Reg.SEC_QW_STATE 2) == 1 &&
     gives (.ciphJobStart 0) (withDev e) (fun e => e.get (Reg.SEC_QW_STATE 2) == 2) &&
     gives (.ciphJobStart 0) (withDev d) (fun e => (e.job 1).any (fun x => x.phase == .running))) = true := by decide +kernel
theorem witness_CipherJobs_2 :
    (let j (op : Nat) := ciJob op .running []
     (j 0x80).opcode == 0x80 && (j 0x81).opcode == 0x81 && (j 0x82).opcode == 0x82 && (j 0x83).opcode == 0x83 && (j 0x84).opcode == 0x84 &&
     (j 0x85).opcode == 0x85 &&
     -- NEA0 copies its payload
     (let d := filled [(0x20000000, 0), (0x20000010, 0x1122334455667788)] (carrying [j 0x83] enginesDev)
      let io := (Io.start d (j 0x83) []).readBytes (d.ciphReq (j 0x83)) (j 0x83).cSrc 32
      !(j 0x83).held && io.1.stop.isNone && !io.2.2 && io.2.1.length == 32 &&
      gives (.ciNea 1 none []) (withDev d) (fun e => dataOf (e.raw (0x20000200 / 8)) == 0x1122334455667788 &&
        (e.job 1).any (fun x => x.phase == .ended && x.status == stOK)) &&
      gives (.ciNea 1 (some 0) []) (withDev d) (fun e => e.get Reg.CIPH_FAULTS == 1))) = true := by decide +kernel
/-- CipherJobs: a job whose output is held, and whose tag of zeros does not verify. -/
theorem witness_CipherJobs_3 :
    (let j := ciJob 0x80 .running [(34, 0x10), (35, 16)]
     let c : CiphJob := { job := 1, keys := [(5, 0)], units := [0], slot := true, window := none }
     let d := (carrying [j] enginesDev).onSec (fun x => { x with jobs := [c] })
     j.held && j.tagIn == 16 && gives (.ciGcm 1 none []) (withDev d) (fun e => (e.job 1).any (fun x => x.status == stTAGFAIL))) = true := by
  decide +kernel

/-- SecurityCommands: granules named and not, a change of world under way, an erg stopped, a window that is sound and one that is not. -/
theorem witness_SecurityCommands_1 :
    (let d := upDev
     d.reaches .secure Reg.SEC_REGION_CMD_GO.off && d.reaches (.func 0) Reg.SEC_REGION_CMD_GO.off && !d.on Reg.SEC_REGION_STATUS_BUSY &&
     (granuleOf (d.get Reg.SEC_REGION_CMD_KIND) (d.get Reg.SEC_REGION_CMD_STACK) (d.get Reg.SEC_REGION_CMD_INDEX)).isSome &&
     (granuleOf 0 0 103).isSome && (granuleOf 0 0 104).isNone && (granuleOf 1 0 79).isSome && (granuleOf 1 0 80).isNone &&
     (granuleOf 2 0 19).isSome && (granuleOf 2 0 20).isNone && (granuleOf 3 1 19660).isSome && (granuleOf 3 1 19661).isNone &&
     gives (.secRegionGo .secure) (withDev d) (fun e => e.on Reg.SEC_REGION_STATUS_BUSY) &&
     gives .regionDone (withDev (filled [(0x20080000, 7)] (d.onSec (fun x => { x with region := (granuleOf 1 0 1).map (fun g =>
       ⟨g.1.off, g.2.1, g.2.2.1, g.2.2.2, true⟩) })))) (fun e => dataOf (e.raw (0x20080000 / 8)) == 0 && e.bit (Reg.SEC_RGN_MESA 0) 1) &&
     d.stopped (ergFn 0) && !(d.set (Reg.ERG_CTL 0) 0x10).stopped (ergFn 0) && !d.on (Reg.ERG_CORE_CFG_WORLD 0 3) &&
     gives (.coreWorldWrite .secure 3 true) (withDev d) (fun e => e.on (Reg.ERG_CORE_CFG_WORLD 0 3))) = true := by decide +kernel
theorem witness_SecurityCommands_2 :
    (let w (base len : Nat) : Dev := (upDev.set (Reg.SEC_QW_BASE 2) base).set (Reg.SEC_QW_LEN 2) len
     gives (.quarantineEnable .secure 2) (withDev (w (0x20000000 / 8) 64)) (fun e => e.on (Reg.SEC_QW_EN 2) && e.get (Reg.SEC_QW_STATE 2) == 1) &&
     gives (.quarantineEnable .secure 2) (withDev (w 0 64)) (fun e => !e.on (Reg.SEC_QW_EN 2) && e.on Reg.GLB_CFG_REJECT_VALID) &&
     (let f := (upDev.set Reg.PWR_THERM_FUSE_OK 1).set Reg.SEC_SVN_RUN_SS 9
      gives (.svnCommit .secure) (withDev (f.set Reg.SEC_SVN_COMMIT_TYPE 1)) (fun e => e.sec.svnSs == 9) &&
      gives (.svnCommit .secure) (withDev (f.set Reg.SEC_SVN_COMMIT_TYPE 2)) (fun e => e.sec.svnSs == 0) &&
      gives (.svnCommit .secure) (withDev upDev) (fun e => e.on Reg.GLB_CFG_REJECT_VALID)) &&
     decide (upDev.get Reg.PWR_STATUS_STATE < 2) && (upFrom 0 8).all (fun i => upDev.get (Reg.SEC_DEBUG_CHALLENGE i) == 0) &&
     gives (.debugToken 0 true true true 2) (withDev (upDev.setDrawer 5 (drawerOf 1 3 7))) (fun e =>
       e.on Reg.SEC_DEBUG_S_OPEN && e.sec.drawers == [] && e.sec.debugKey) &&
     gives (.debugToken 0 true true false 2) (withDev upDev) (fun e => e.get Reg.SEC_DEBUG_TOKEN_RESULT == 2) &&
     gives .tamper (withDev (upDev.setDrawer 5 (drawerOf 1 3 7))) (fun e => e.sec.drawers == []) && decide (upDev.devState < 3)) = true := by
  decide +kernel

/-! ### Power, resets and events -/

/-- PowerRequests: each rule's case of a request: nothing in progress, one in progress towards the same state and towards another, one that
waits for a thermal DORMANT, one HELD by a critical temperature. -/
theorem witness_PowerRequests_1 :
    (let d := upDev
     let busy := (d.set Reg.PWR_STATUS_IN_PROGRESS 1).set Reg.PWR_STATUS_TARGET 1
     let thermal := ((busy.set Reg.PWR_STATUS_PENDING 1).set Reg.PWR_STATUS_PENDING_TARGET 2).onPower (fun p => { p with pendCause := 2 })
     d.ready && d.devState == 0 && d.reaches (.func 0) Reg.PWR_REQ_TARGET.off && !Dev.reset.reaches (.func 0) Reg.PWR_REQ_TARGET.off &&
     !Dev.reset.ready && !d.on Reg.PWR_STATUS_IN_PROGRESS && busy.get Reg.PWR_STATUS_TARGET == 1 &&
     thermal.on Reg.PWR_STATUS_PENDING && thermal.power.pendCause == 2 && (d.set Reg.PWR_THERM_CRIT 1).on Reg.PWR_THERM_CRIT &&
     (powerRequest 1 0 none d).get Reg.PWR_STATUS_TARGET == 1 && (powerRequest 1 0 none d).power.paused &&
     (powerRequest 1 0 none busy).get Reg.PWR_STATUS2_MERGED == 1 &&
     (powerRequest 0 0 (some 7) thermal).get Reg.PWR_STATUS_REPLACED == 1 && (powerRequest 2 0 none thermal).on Reg.PWR_STATUS_PENDING &&
     (powerRequest 4 0 none busy).get Reg.PWR_STATUS_PENDING_TARGET == 4 &&
     (powerRequest 1 0 none (d.set Reg.PWR_THERM_CRIT 1)).on Reg.PWR_STATUS_HELD) = true := by decide +kernel

/-- PowerRequests: a drain that is over, transitions that may complete, to DORMANT and to OFF, domains that change, and each wake. -/
theorem witness_PowerRequests_2 :
    (let d := upDev
     let enters (t : Nat) : Dev := ((d.set Reg.PWR_STATUS_IN_PROGRESS 1).set Reg.PWR_STATUS_TARGET t).onPower (fun p => { p with paused := true })
     let quiet (d : Dev) : Dev := d.each (upFrom 0 22) (fun d k => d.each (domainSlots k) (fun d e => d.set (Reg.NOC_EP_STATE e) 3))
     let drain := ((enters 1).set Reg.PWR_DRAIN_US 0).onPower (fun p => { p with drainFrom := some 0 })
     drain.entering && decide (timeDiff (0 + nsTime 0) drain.now ≤ 0) && drain.power.drainFrom == some 0 &&
     (quiet (enters 1)).mayComplete && (quiet (enters 2)).mayComplete && (quiet (enters 4)).mayComplete && !(enters 1).mayComplete && d.domState 15 == 0 && d.domainIn 1 15 == 0 &&
     d.reaches (.func 0) (Reg.PWR_DOM_REQ 20).off && (domainFns 20).all (fun f => d.stopped f) &&
     gives (.domainRequest (.func 0) 20 2) (withDev d) (fun e => e.on (Reg.PWR_DOM_BUSY 20)) &&
     gives (.domainRequest (.func 0) 13 1) (withDev d) (fun e => e.on Reg.GLB_CFG_REJECT_VALID) &&
     (let x := d.onPower (fun p => { p with domTarget := [(20, 0)] })
      x.power.domTarget.find? (fun y => y.1 == 20) == some (20, 0) && (x.set (Reg.PWR_DOM_STATE 20) 1).domState 20 != 0) &&
     d.bit Reg.PWR_WAKE_EN 0 && !d.bit Reg.PWR_WAKE_EN 2 && d.boot.powered && !d.power.tripLow && !d.timerLevel &&
     ((d.set Reg.PWR_WAKE_TIMER_EN 1).set (Fn.state .servo) 0).on Reg.PWR_WAKE_TIMER_EN &&
     gives (.wakeN true) (withDev (d.set Reg.PWR_STATUS_STATE 1)) (fun e => e.get Reg.PWR_WAKE_REC_SOURCE == 1 && e.on Reg.PWR_STATUS_IN_PROGRESS) &&
     gives (.gpioWakeEdge 3 false) (withDev (((d.set Reg.PWR_STATUS_STATE 1).set Reg.PWR_WAKE_GPIO 8).set Reg.PWR_WAKE_EN 8)) (fun e =>
       e.get Reg.PWR_WAKE_REC_SOURCE == 4)) = true := by decide +kernel

/-- SupplyEvents: power up and down, a trip from a sensor not masked, both sides of the oasis switch, a charge in progress and at its limit,
a bank retained with and without its signature. -/
theorem witness_SupplyEvents_1 :
    (let d := upDev
     d.boot.powered && d.devState == 0 && !d.on (Reg.PWR_HK_MASK 3) && !d.on Reg.PWR_SUPPLY_ON_BAK && !Dev.reset.boot.powered && d.domState 20 == 0 &&
     gives .vaonSwitchToBak (withDev d) (fun e => e.on Reg.PWR_SUPPLY_ON_BAK) &&
     gives .vaonSwitchToMain (withDev (d.set Reg.PWR_SUPPLY_ON_BAK 1)) (fun e => !e.on Reg.PWR_SUPPLY_ON_BAK) &&
     gives .oasisBrownout (withDev Dev.reset) (fun e => e.on Reg.PWR_SUPPLY_BROWNOUT) &&
     gives .coarseCounterStop (withDev (d.set Reg.TB_COARSE_VALID 1)) (fun e => !e.on Reg.TB_COARSE_VALID) &&
     (let c := (d.set Reg.PWR_CHG_STATUS_STATE 1).onPower (fun p => { p with charging := some 0 })
      c.get Reg.PWR_CHG_STATUS_STATE == 1 && decide (timeDiff (0 + nsTime (1 * 10 ^ 9)) (nsTime (2 * 10 ^ 9)) ≤ 0) &&
      gives .chargeTargetReached (withDev c) (fun e => e.get Reg.PWR_CHG_STATUS_STATE == 2)) &&
     gives (.vddRetDip 2) (withDev (d.onPower (fun p => { p with retain := 4 }))) (fun e => e.power.flags == 4)) = true := by decide +kernel

/-- SupplyEvents: a bank in RETAIN whose signature is the one recorded. -/
theorem witness_SupplyEvents_2 :
    (let r := upDev.onPower (fun p => { p with retain := 4, sigs := [(2, upDev.chestSignature 2, 0)] })
     r.power.retain.getLsbD 2 = true ∧ r.power.flags.getLsbD 2 = false ∧
     r.power.sigs.find? (fun x => x.1 == 2) = some (2, r.chestSignature 2, 0)) := ⟨by decide, by decide, rfl⟩

/-- RoundsAndPace: time that runs on a READY device, readings of 30 °C, and one out of range, pace monitors in a window. -/
theorem witness_RoundsAndPace :
    (let d := upDev.onPace (fun p => { p with began := some 0, windowed := true, slackHigh := [0, 0, 0, 0], late := [false, false, false, false],
                                              taking := upFrom 0 64 })
     let codes : List (Option Int) := List.replicate 64 (some 240)
     d.timeRuns && d.ready && codes.length == 64 && !d.on (Reg.PWR_HK_MASK 33) && !Dev.reset.timeRuns &&
     gives (.housekeepingRound codes) (withDev d) (fun e => e.get Reg.PWR_THERM_HOTTEST == 240 && e.on Reg.PWR_THERM_FUSE_OK) &&
     gives (.housekeepingRound (codes.set 3 (some 1201))) (withDev d) (fun e => e.get (Reg.PWR_HK_CAUSE 3) == 1) &&
     gives (.monitorWindowEnd (List.replicate 64 900)) (withDev d) (fun e => e.get (Reg.PWR_PACE_MON_READING 0) == 900) &&
     d.pace.began == some 0 && d.pace.windowed && d.pace.slackHigh.length == 4 && d.pace.late.length == 4 &&
     gives (.paceLoopUpdate 0) (withDev d) (fun e => (upFrom 0 4).all (fun r => decide (600 ≤ e.get (Reg.PWR_PACE_RAIL_SETPOINT r)))) &&
     (let m := ((upFrom 0 64).foldl (fun e k => e.set (Reg.PWR_PACE_MON_READING k) 900) d)
      (railMonitors 0).all (fun k => decide (0 < m.reading k) && decide (m.reading k < 2047) && d.pace.taking.contains k))) = true := by
  decide +kernel

/-- What a boot finds: sound images of both stewards in slots A. -/
def bootIn (ss ns : Bool) : BootInput :=
  let image (t : Nat) (ok : Bool) : ImageIn :=
    { read := ok, magic := 0x39485259, type := BitVec.ofNat 8 t, keySlot := 0, svn := 3, len := 4096, digestOk := true, sigOk := true }
  { refclk := 7, strap := 1, keysOk := true, ownerLocked := false, svnSs := 0, svnNs := 0, revoked := 0, challenge := 5, failing := [],
    slots := [image 1 ss, image 1 false, image 2 ns, image 2 false], trained := 3, trainMs := [10, 10], repairsLeft := List.replicate 128 0,
    codes := List.replicate 64 (some 240) }

/-- A device with power and a cold boot due. -/
def bootDev : Dev := Dev.reset.onBoot (fun b => { b with powered := true, perst := true, seenHigh := true, due := some true, cause := 0 })

/-- ResetsAndBoot: the causes' conditions; images sound and unsound; a boot due with sound images, and without one of each steward. -/
theorem witness_ResetsAndBoot_1 :
    (let d := upDev.onBoot (fun b => { b with seenHigh := true })
     d.boot.perst && d.boot.powered && d.boot.seenHigh && decide (d.devState < 3) && d.boot.due == none && !Dev.reset.boot.perst &&
     bootDev.boot.due == some true && (d.set Reg.PWR_STATUS_STATE 4).devState == 4 && d.reaches .secure Reg.GLB_RESET_WARM.off &&
     d.reaches (.func 0) Reg.GLB_RESET_WARM.off && (d.set Reg.STW_STATE_SS_RUN 1).on Reg.STW_STATE_SS_RUN && d.get Reg.STW_WDOG_SS_MS == 1000 &&
     gives .nsWatchdogExpiry (withDev (d.set Reg.STW_STATE_NS_RUN 1)) (fun e => e.get Reg.STW_STATE_NS_RESTARTS == 1) &&
     (let i := (bootIn true true).slots.getD 0 noImage
      (imageCode 1 0 0 i).isNone && (imageCode 1 3 0 i).isNone && imageCode 1 4 0 i != none && imageCode 2 0 0 i != none &&
      chooseSlot none (some 1) i noImage == some (0, 3) && chooseSlot (some 1) none noImage i == some (1, 3) &&
      chooseSlot none none i i == some (0, 3) && chooseSlot none none noImage i == some (1, 3)) &&
     bootDev.boot.powered && bootDev.boot.input == none && (bootIn true true).codes.length == 64) = true := by decide +kernel
theorem witness_ResetsAndBoot_2 :
    gives (.bootSequence (bootIn false true)) (withDev bootDev) (fun e => e.get Reg.GLB_BOOT_STAGE == 3 && e.boot.input.isSome) = true := by
  decide +kernel
theorem witness_ResetsAndBoot_3 :
    gives (.bootSequence (bootIn true false)) (withDev bootDev) (fun e => e.get Reg.GLB_BOOT_STAGE == 6) = true := by decide +kernel
theorem witness_ResetsAndBoot_4 :
    gives (.bootSequence (bootIn true true)) (withDev bootDev) (fun e => e.ready && e.get Reg.SEC_SVN_RUN_SS == 3 && e.get Reg.GLB_ID_DEVID == 1)
      = true := by decide +kernel
/-- ResetsAndBoot: a host image that is accepted and one that is not, while the boot waits at stage 6. -/
theorem witness_ResetsAndBoot_5 :
    (let w := ((bootDev.set Reg.GLB_BOOT_STAGE 6).set Reg.GLB_BOOT_HOST_LEN 0x10000).onBoot (fun b => { b with input := some (bootIn true false) })
     let ok := filled [(0x20000000, 0x39485259 + 2 * 2 ^ 32 + 3 * 2 ^ 48), (0x20000008, 4096)] w
     ok.reaches (.func 0) Reg.GLB_BOOT_HOST_GO.off && (imageCode 2 0 0 (ok.hostImage true true)).isNone &&
     gives (.glbBootHostGo (.func 0) true true) (withDev w) (fun e => e.get Reg.GLB_BOOT_ERROR != 0) &&
     gives (.glbBootHostGo (.func 0) true true) (withDev ok) (fun e => e.ready && e.get Reg.GLB_BOOT_NS_SOURCE == 3)) = true := by decide +kernel

/-- EventCommands: an occurrence on its way to each kind of target; a source LIVE and not; vectors masked, owed and within their spacing;
mailboxes free and busy; a link with power. -/
theorem witness_EventCommands :
    (let d := upDev
     let on (kind : Nat) : Dev := ((d.set (Reg.EVT_SRC_EN 5) 1).set (Reg.EVT_SRC_KIND 5) kind).onEvt (fun e =>
       { e with queue := [⟨5, false⟩], enabled := BitVec.allOnes 64, table := [] })
     let open_ (kind : Nat) : Dev := (on kind).setVector 0 0 { (d.vector 0 0) with masked := false }
     (on 1).evt.queue.find? (fun o => o.source == 5) == some ⟨5, false⟩ && (on 1).fabricTakes 5 && d.evt.queue == [] &&
     gives (.eventPacket 5) (withDev (open_ 1)) (fun e => e.out.length == 1 && e.on (Reg.EVT_SRC_LATCHED 5)) &&
     gives (.eventPacket 5) (withDev (on 1)) (fun e => e.evt.pba == [0]) &&
     gives (.eventPacket 5) (withDev (on 2)) (fun e => e.evt.toSteward == [(true, 5)]) &&
     gives (.eventPacket 5) (withDev (on 0)) (fun e => e.get (Reg.EVT_SRC_COUNT 5) == 1) &&
     d.reaches (.func 0) (Reg.EVT_SRC_LIVE 5).off && d.served (.func 3) 0x1400000 &&
     (let live := (d.set (Reg.EVT_SRC_LATCHED 5) 1).onEvt (fun e => { e with live := [5] })
      gives (.evtLatchedClear (.func 0) 5) (withDev live) (fun e => e.on (Reg.EVT_SRC_LATCHED 5)) &&
      gives (.evtLatchedClear (.func 0) 5) (withDev (d.set (Reg.EVT_SRC_LATCHED 5) 1)) (fun e => !e.on (Reg.EVT_SRC_LATCHED 5))) &&
     (let owed := (on 1).onEvt (fun e => { e with pba := [0] })
      owed.evt.pba.contains 0 && !owed.withinSpacing 0 0 && gives (.msixUnmask 0 0) (withDev owed) (fun e => e.out.length == 1 && e.evt.pba == [])) &&
     gives (.moderationIntervalEnd 0 0) (withDev ((open_ 1).onEvt (fun e => { e with pba := [0] }))) (fun e => e.out.length == 1) &&
     gives (.stwMbSend (.func 0) 1) (withDev d) (fun e => e.on (Reg.STW_MB_BUSY 1)) &&
     (let b := (d.set (Reg.STW_MB_BUSY 1) 1).set Reg.STW_STATE_NS_RUN 1
      b.on (Reg.STW_MB_BUSY 1) && gives (.stwMbDone 1 9 [3]) (withDev b) (fun e => e.get (Reg.STW_MB_RESULT 1) == 9 && e.on (Reg.STW_MB_DONE 1)) &&
      gives (.stwMbSend (.func 0) 1) (withDev b) (fun e => e.on Reg.GLB_CFG_REJECT_VALID)) &&
     gives (.pcieLink 5 16 false 0) (withDev d) (fun e => e.get Reg.GLB_PCIE_SPEED == 5)) = true := by decide +kernel

/-- RegisterWrites: a plain word written by a host and by the secure steward, a refused RWS field, a word of (S) fields, a VF's page, a write
of another size; Bus Master Enable set and cleared. -/
theorem witness_RegisterWrites :
    (let d := upDev
     let w := Reg.PWR_DRAIN_US.off
     plainWord w && d.reaches (.func 0) w && w % 4 == 0 && (fieldsAt w).all (fun x => !x.1.sec) && !d.rwsRefused (fieldsAt w) &&
     gives (.registerWrite (.func 0) .bar w 4 77) (withDev d) (fun e => e.get Reg.PWR_DRAIN_US == 77) &&
     gives (.registerWrite (.func 0) .bar w 2 77) (withDev d) (fun e => e.get Reg.PWR_DRAIN_US == 1000) &&
     !Dev.reset.served (.func 0) w && wholeMap (.func 0) && !wholeMap (.func 9) && d.get (Reg.JFE_SQ_CFG_FUNC 1) != 9 &&
     (let c := (Reg.JFE_SQ_CFG_LOG2SIZE 0).off
      let r := d.set (Fn.state (.sq 0)) 1
      r.rwsRefused (fieldsAt c) && plainWord c && gives (.registerWrite (.func 0) .bar c 4 5) (withDev r) (fun e => e.on Reg.GLB_CFG_REJECT_VALID) &&
      gives (.registerWrite (.func 0) .bar c 4 (BitVec.ofNat 64 (5 * 2 ^ (Reg.JFE_SQ_CFG_LOG2SIZE 0).lo))) (withDev d) (fun e =>
        e.get (Reg.JFE_SQ_CFG_LOG2SIZE 0) == 5)) &&
     (let f := Reg.SEC_FAULT_LIMIT_COUNT.off
      plainWord f && (fieldsAt f).all (fun x => x.1.sec) && gives (.registerWrite .secure .bar f 4 3) (withDev d) (fun e => e.get Reg.SEC_FAULT_LIMIT_COUNT == 3)) &&
     d.served (.func 0) 0 && d.jfe.busMaster.getLsbD 3 &&
     gives (.registerWrite (.func 3) .msix 0 4 2) (withDev d) (fun e => e.evt.enabled.getLsbD 3) &&
     gives (.registerWrite (.func 3) .busMaster 0 4 1) (withDev (d.onJfe (fun j => { j with busMaster := 0 }))) (fun e => e.jfe.busMaster == 8)) =
    true := by decide +kernel

/-! ### The queue and the shape of commands -/

/-- QueueRuns: a queue of two well-formed commands, of which two steps do both. -/
theorem witness_QueueRuns :
    (let s : State := { pending := [.tamper, .wakeN true], dev := Dev.reset }
     s.queueWf && decide (1 < s.pending.length) &&
     (match step s with
      | .next t => t.pending == [.wakeN true] && t.queueWf
      | _ => false)) = true := by decide +kernel

/-- On an empty queue the block idles. -/
theorem test_idle : step State.reset = .next State.reset := rfl

/-- A command whose operands the device cannot meet is a fault, by name. -/
theorem test_malformed : step { State.reset with pending := [.monitorWindowEnd []] } = .fault .malformedCommand := rfl

/-- The rows of the table of commands give no bits, so no word spells a command. -/
theorem test_no_words : decodeTableWord 32 0x12345678 = none := rfl

/-- Packets of each type with a sound shape, and the same with another. -/
def pkt (t : PType) (words : Nat) (len : Fin 4) (mask : BitVec 8) : Packet :=
  { packetOf t mesa0 (List.replicate words 0) with len := len, mask := mask }

/-- WellFormed: each check refuses a term that breaks it, and takes one that does not. -/
theorem test_wellformed_lists :
    (!(Instr.scanArrayReadComplete (.data (List.replicate 255 0))).wf && (Instr.scanArrayReadComplete (.data (List.replicate 256 0))).wf &&
     (Instr.scanArrayReadComplete .poison).wf &&
     !(Instr.monitorWindowEnd (List.replicate 65 0)).wf && (Instr.monitorWindowEnd (List.replicate 64 0)).wf &&
     !(Instr.maskDwellEnd 0 []).wf && !(Instr.housekeepingRound (List.replicate 63 none)).wf &&
     (Instr.housekeepingRound (List.replicate 64 none)).wf && !(Instr.bootSequence { bootIn true true with codes := [] }).wf &&
     (Instr.bootSequence (bootIn true true)).wf && !(Instr.stwMbDone 0 0 (List.replicate 65 0)).wf &&
     (Instr.stwMbDone 0 0 (List.replicate 64 0)).wf && !(Instr.trainFrame 0 (frame true) ⟨1, 2, 0, false, 0, true, 0, List.replicate 7 0⟩).wf &&
     !(Instr.dataFrame 0 (frame true) 0 ⟨0, false, none, List.replicate 5 0⟩).wf) = true := by decide +kernel
theorem test_wellformed_packets :
    ((Instr.rd (pkt .rd 0 0 0) nobody).wf && !(Instr.rd (pkt .rd 1 0 0) nobody).wf && !(Instr.rd (pkt .wr 1 0 0) nobody).wf &&
     (Instr.wr (pkt .wr 4 0 0) nobody).wf && !(Instr.wr (pkt .wr 5 0 0) nobody).wf && !(Instr.wr (pkt .wr 0 0 0) nobody).wf &&
     (Instr.wr (pkt .wr 5 1 0) nobody).wf && !(Instr.wr (pkt .wr 4 1 0) nobody).wf && (Instr.swr (pkt .swr 16 3 0) nobody).wf &&
     !(Instr.swr (pkt .swr 12 3 0) nobody).wf && (Instr.rdata (pkt .rdata 2 0 0) nobody).wf && !(Instr.rdata (pkt .rdata 0 0 0) nobody).wf &&
     (Instr.wrn (pkt .wrn 1 0 255) nobody).wf && !(Instr.wrn (pkt .wrn 1 0 0) nobody).wf && !(Instr.wrn (pkt .wrn 2 0 1) nobody).wf &&
     (Instr.wack (pkt .wack 0 0 0) nobody).wf && !(Instr.wack (pkt .wack 1 0 0) nobody).wf && !(Instr.sack (pkt .sack 0 1 0) nobody).wf &&
     !(Instr.errPacket (pkt .err 1 0 0) nobody).wf && !(Instr.noticePacket (pkt .err 0 0 0) nobody).wf &&
     (Instr.noticePacket (pkt .notice 0 0 0) nobody).wf) = true := by decide +kernel

end Sys2Proof.Tests
end

section
/-! SUPPORT. Register writes (R8–R12, R47–R49, R80, R477): what a field stores, what a write of a plain word does to the device, which
writes a view passes over, and what a function's control bits of configuration space change. -/

namespace Sys2Proof.Machine

/-! ### The command -/

theorem exec_registerWrite (who : Accessor) (space : RegSpace) (off size : Nat) (value : BitVec 64) (s : State) :
    exec (.registerWrite who space off size value) s = .next { s with dev := registerWrite who space off size value.toNat s.dev } := rfl

theorem gives_registerWrite_iff {who : Accessor} {space : RegSpace} {off size : Nat} {value : BitVec 64} {s : State} {d : Dev} :
    Gives (.registerWrite who space off size value) s d ↔ registerWrite who space off size value.toNat s.dev = d := by
  simp [Gives, exec_registerWrite]

theorem completes_registerWrite {who : Accessor} {space : RegSpace} {off size : Nat} {value : BitVec 64} {s : State} {P : Dev → Prop}
    (h : P (registerWrite who space off size value.toNat s.dev)) : Completes (.registerWrite who space off size value) s P :=
  ⟨_, exec_registerWrite .., h⟩

/-! ### Fields of a word -/

/-- Two fields of a word share no bit. -/
def FieldsApart (x y : FieldSpec × Nat) : Prop := x.1.lo + x.1.w ≤ y.1.lo ∨ y.1.lo + y.1.w ≤ x.1.lo

theorem FieldsApart.symm {x y : FieldSpec × Nat} (h : FieldsApart x y) : FieldsApart y x := Or.symm h

/-- What `Dev.wordAfter` puts into one field of the word w (R8). -/
def Dev.fieldStored (d : Dev) (off v w : Nat) (x : FieldSpec × Nat) : Nat :=
  fieldAfter x.1.acc (d.ownerStopped x.2) (d.locked.contains (off, x.1.lo)) (bitsOf w x.1.lo x.1.w)
    (ranged off x.1.lo (bitsOf v x.1.lo x.1.w)) x.1.w

/-- The word w after a write of v to some of its fields. -/
def Dev.storeInto (d : Dev) (off v w : Nat) (fs : List (FieldSpec × Nat)) : Nat :=
  fs.foldl (fun w x => putBits w x.1.lo x.1.w (d.fieldStored off v w x)) w

theorem Dev.wordAfter_eq_storeInto (d : Dev) (off v : Nat) (fs : List (FieldSpec × Nat)) :
    d.wordAfter off v fs = d.storeInto off v (d.word off).toNat fs := rfl

theorem Dev.storeInto_append_cons (d : Dev) (off v w : Nat) (x : FieldSpec × Nat) (as bs : List (FieldSpec × Nat)) :
    d.storeInto off v w (as ++ x :: bs) =
      d.storeInto off v (putBits (d.storeInto off v w as) x.1.lo x.1.w (d.fieldStored off v (d.storeInto off v w as) x)) bs := by
  simp [Dev.storeInto]

/-- A field apart from all that are written keeps its value. -/
theorem Dev.bitsOf_storeInto_apart (d : Dev) (off v w : Nat) (x : FieldSpec × Nat) (fs : List (FieldSpec × Nat))
    (h : ∀ y ∈ fs, FieldsApart x y) : bitsOf (d.storeInto off v w fs) x.1.lo x.1.w = bitsOf w x.1.lo x.1.w := by
  induction fs generalizing w with
  | nil => rfl
  | cons y ys ih =>
    have hy : bitsOf (putBits w y.1.lo y.1.w (d.fieldStored off v w y)) x.1.lo x.1.w = bitsOf w x.1.lo x.1.w := by
      rcases h y (by simp) with below | above
      · exact bitsOf_putBits_below _ _ _ _ below
      · exact bitsOf_putBits_above _ _ _ _ above
    exact (ih _ (fun z hz => h z (List.mem_cons_of_mem _ hz))).trans hy

/-- R8: each field of a word holds, after a write of fields that lie apart, what its access code gives it. -/
theorem Dev.bitsOf_wordAfter (d : Dev) (off v : Nat) {fs : List (FieldSpec × Nat)} (h : Apart fs) {x : FieldSpec × Nat} (hx : x ∈ fs) :
    bitsOf (d.wordAfter off v fs) x.1.lo x.1.w = d.fieldStored off v (d.word off).toNat x % 2 ^ x.1.w := by
  obtain ⟨as, bs, rfl⟩ := List.append_of_mem hx
  obtain ⟨-, hbs, has⟩ := List.pairwise_append.1 h.1
  have before : ∀ y ∈ as, FieldsApart x y := fun y hy => FieldsApart.symm (has y hy x (by simp))
  have after : ∀ y ∈ bs, FieldsApart x y := (List.pairwise_cons.1 hbs).1
  rw [Dev.wordAfter_eq_storeInto, Dev.storeInto_append_cons, Dev.bitsOf_storeInto_apart _ _ _ _ _ _ after, bitsOf_putBits_self]
  unfold Dev.fieldStored
  rw [Dev.bitsOf_storeInto_apart _ _ _ _ _ _ before]

/-! ### What brings level sources up to date, and what sends owed messages -/

/-- The second device differs from the first in the event fabric alone. -/
def OnlyEvt (d e : Dev) : Prop := ∃ ev, e = { d with evt := ev }

theorem OnlyEvt.refl (d : Dev) : OnlyEvt d d := ⟨d.evt, rfl⟩

theorem OnlyEvt.trans {d e f : Dev} (h : OnlyEvt d e) (g : OnlyEvt e f) : OnlyEvt d f := by
  obtain ⟨_, rfl⟩ := h; obtain ⟨ev, rfl⟩ := g; exact ⟨ev, rfl⟩

/-- A relation that every update of a chain keeps holds between the ends of the chain. -/
theorem Dev.each_rel {α : Type} {R : Dev → Dev → Prop} (refl : ∀ d, R d d) (trans : ∀ {d e f}, R d e → R e f → R d f)
    {f : Dev → α → Dev} (h : ∀ d x, R d (f d x)) (xs : List α) (d : Dev) : R d (d.each xs f) := by
  induction xs generalizing d with
  | nil => exact refl d
  | cons x xs ih => exact trans (h d x) (ih _)

theorem Dev.relevel_onlyEvt (d : Dev) (n : Nat) : OnlyEvt d (d.relevel n) := by
  unfold Dev.relevel
  dsimp only
  split <;> split
  · exact .refl d
  · exact ⟨_, rfl⟩
  · exact ⟨_, rfl⟩
  · exact .refl d

theorem Dev.relevelWord_onlyEvt (d : Dev) (off : Nat) : OnlyEvt d (d.relevelWord off) := by
  refine Dev.each_rel OnlyEvt.refl OnlyEvt.trans (fun e x => ?_) levelWords d
  split
  · exact e.relevel_onlyEvt _
  · exact .refl e

/-- The second device differs from the first in what went out and in what the MSI-X vectors owe and last sent alone. -/
def OnlySent (d e : Dev) : Prop := ∃ o p l, e = { d with out := o, evt := { d.evt with pba := p, lastSent := l } }

theorem OnlySent.refl (d : Dev) : OnlySent d d := ⟨d.out, d.evt.pba, d.evt.lastSent, rfl⟩

theorem OnlySent.trans {d e f : Dev} (h : OnlySent d e) (g : OnlySent e f) : OnlySent d f := by
  obtain ⟨_, _, _, rfl⟩ := h; obtain ⟨o, p, l, rfl⟩ := g; exact ⟨o, p, l, rfl⟩

theorem Dev.payOwed_onlySent (d : Dev) (f v : Nat) : OnlySent d (d.payOwed f v) := by
  unfold Dev.payOwed
  split
  · exact ⟨_, _, _, rfl⟩
  · exact .refl d

theorem Dev.payAll_onlySent (d : Dev) (f : Nat) : OnlySent d (d.payAll f) :=
  Dev.each_rel OnlySent.refl OnlySent.trans (fun e v => e.payOwed_onlySent f v) _ d

/-! ### A rejected write -/

theorem Dev.word_of_regs {d e : Dev} (h : e.regs = d.regs) (off : Nat) : e.word off = d.word off := by rw [Dev.word, h, Dev.word]

theorem Dev.get_of_regs {d e : Dev} (h : e.regs = d.regs) (f : Fld) : e.get f = d.get f := by rw [Dev.get, Dev.word_of_regs h, Dev.get]

theorem Dev.get_setWord_ne (d : Dev) (v : Reg32) {off : Nat} {f : Fld} (h : f.off ≠ off) : (d.setWord off v).get f = d.get f := by
  rw [Dev.get, Dev.word_setWord_ne d v h, Dev.get]

/-- The record of a rejected write (R8): the function and the steward bit that name the accessor. -/
def rejectedBy : Accessor → Nat × Nat
  | .func f => (f.val, 0)
  | .secure => (0, 1)
  | .steward => (0, 1)

/-- The registers after a rejected write: the count, and the record where none is held. -/
theorem Dev.cfgReject_regs (d : Dev) (who : Accessor) (off : Nat) :
    (d.cfgReject who off).regs =
      (let e := d.bump Reg.GLB_CFG_REJECT_COUNT
       if e.on Reg.GLB_CFG_REJECT_VALID then e
       else (((e.set Reg.GLB_CFG_REJECT_ADDR off).set Reg.GLB_CFG_REJECT_FUNC (rejectedBy who).1).set
         Reg.GLB_CFG_REJECT_STEWARD (rejectedBy who).2).set Reg.GLB_CFG_REJECT_VALID 1).regs := by
  cases who <;> rfl


theorem Dev.cfgReject_count (d : Dev) (who : Accessor) (off : Nat) :
    (d.cfgReject who off).get Reg.GLB_CFG_REJECT_COUNT = (d.get Reg.GLB_CFG_REJECT_COUNT + 1) % 2 ^ 32 := by
  have count : (d.bump Reg.GLB_CFG_REJECT_COUNT).get Reg.GLB_CFG_REJECT_COUNT = (d.get Reg.GLB_CFG_REJECT_COUNT + 1) % 2 ^ 32 :=
    d.get_set_self _ _ (by decide)
  rw [Dev.get_of_regs (d.cfgReject_regs who off), ← count]
  dsimp only
  split
  · rfl
  · rw [Dev.get_set_off _ _ _ _ (by decide), Dev.get_set_off _ _ _ _ (by decide), Dev.get_set_off _ _ _ _ (by decide),
      Dev.get_set_off _ _ _ _ (by decide)]

theorem Dev.cfgReject_valid (d : Dev) (who : Accessor) (off : Nat) :
    (d.cfgReject who off).on Reg.GLB_CFG_REJECT_VALID = true := by
  rw [Dev.on, Dev.get_of_regs (d.cfgReject_regs who off), beq_iff_eq]
  dsimp only
  split
  · next held => exact beq_iff_eq.1 held
  · exact Dev.get_set_self _ _ _ (by decide)

/-- A rejected write is recorded where no record is held. -/
theorem Dev.cfgReject_addr (d : Dev) (who : Accessor) (off : Nat) (h : d.on Reg.GLB_CFG_REJECT_VALID = false) :
    (d.cfgReject who off).get Reg.GLB_CFG_REJECT_ADDR = off % 2 ^ 26 := by
  have none_held : (d.bump Reg.GLB_CFG_REJECT_COUNT).on Reg.GLB_CFG_REJECT_VALID = false := by
    rw [← h, Dev.on, Dev.on, Dev.bump, Dev.add, Dev.get_set_off _ _ _ _ (by decide)]
  rw [Dev.get_of_regs (d.cfgReject_regs who off)]
  simp only [none_held, Bool.false_eq_true, if_false]
  rw [Dev.get_set_off _ _ _ _ (by decide), Dev.get_set_off _ _ _ _ (by decide), Dev.get_set_off _ _ _ _ (by decide),
    Dev.get_set_self _ _ _ (by decide)]
  rfl

/-! ### Arrays of words -/

theorem placeIn_eq_none_iff {base stride count width off : Nat} :
    placeIn base stride count width off = none ↔
      ¬(base ≤ off ∧ (off - base) / stride < count ∧ (off - base) % stride < width) := by
  simp [placeIn]

/-- No word of an array lies outside it. -/
theorem placeIn_outside {base stride count width off : Nat} (hs : 0 < stride) (h : off < base ∨ base + count * stride ≤ off) :
    placeIn base stride count width off = none := by
  rw [placeIn_eq_none_iff, Nat.div_lt_iff_lt_mul hs]
  omega

theorem atWord_eq_false_iff {base stride count off : Nat} : atWord base stride count off = false ↔ placeIn base stride count 4 off = none := by
  simp [atWord]

/-! ### Views and sizes -/

/-- R49: a write of four bytes at a multiple of four. -/
theorem registerWrite_word {off : Nat} (h4 : off % 4 = 0) (who : Accessor) (x : Nat) (d : Dev) :
    registerWrite who .bar off 4 x d = d.writeBar who off (x % 2 ^ 32) := by
  simp only [registerWrite, Dev.writeSized, h4, ne_eq, not_true_eq_false, if_false, if_true]

/-- R49: a write of eight bytes at a multiple of four is one of each half. -/
theorem registerWrite_pair {off : Nat} (h4 : off % 4 = 0) (who : Accessor) (x : Nat) (d : Dev) :
    registerWrite who .bar off 8 x d = (d.writeBar who off (x % 2 ^ 32)).writeBar who (off + 4) (x / 2 ^ 32) := by
  simp [registerWrite, Dev.writeSized, h4]

/-- R49: a write of another size or off its alignment writes nothing. -/
theorem registerWrite_missized {off size : Nat} (h : off % 4 ≠ 0 ∨ (size ≠ 4 ∧ size ≠ 8)) (who : Accessor) (x : Nat) (d : Dev) :
    registerWrite who .bar off size x d = d := by
  simp only [registerWrite, Dev.writeSized]
  rcases h with h | ⟨h4, h8⟩
  · rw [if_pos h]
  · rw [if_neg h4, if_neg h8, ite_self]

/-- A write of four bytes writes nothing where no write of the BAR does. -/
theorem registerWrite_ignored {off : Nat} {who : Accessor} {d : Dev} (h : ∀ v, d.writeBar who off v = d) (x : Nat) :
    registerWrite who .bar off 4 x d = d := by
  by_cases h4 : off % 4 = 0
  · rw [registerWrite_word h4, h]
  · exact registerWrite_missized (.inl h4) who x d

/-- R47: the PF and the stewards write the PF's map. -/
theorem Dev.writeBar_wholeMap {d : Dev} {who : Accessor} {off v : Nat} (h : wholeMap who = true) :
    d.writeBar who off v = d.writeMap who off v := by
  cases who with
  | func f => simp only [Dev.writeBar, beq_iff_eq.1 h, if_true]
  | secure => rfl
  | steward => rfl

/-- R48: a VF writes its own view. -/
theorem Dev.writeBar_vf {d : Dev} {g : Fin 64} {off v : Nat} (h : g.val ≠ 0) :
    d.writeBar (.func g) off v = d.writeVf (.func g) g.val off v := by
  simp only [Dev.writeBar, h, if_false]

theorem Dev.writeMap_ignored {d : Dev} {who : Accessor} {off : Nat} (h : d.served who off = false ∨ 0x2000000 ≤ off) (v : Nat) :
    d.writeMap who off v = d := by
  have stops : (!d.served who off || decide (0x2000000 ≤ off)) = true := by simpa using h
  rw [Dev.writeMap, if_pos stops]

theorem Dev.writeVf_unserved {d : Dev} {who : Accessor} (h : d.served who 0x100000 = false) (f off v : Nat) : d.writeVf who f off v = d := by
  simp [Dev.writeVf, h]

/-- R48: a ring of another function is not in a VF's view. -/
theorem Dev.writeVf_foreignRing {d : Dev} {who : Accessor} {f off o : Nat} {own : Fld} (hv : ringView off = some (o, own)) (h : d.get own ≠ f)
    (v : Nat) : d.writeVf who f off v = d := by
  simp only [Dev.writeVf, hv]
  rw [if_pos h, ite_self]

/-- R48: a VF's view ends at 0x9D00. -/
theorem Dev.writeVf_beyond {d : Dev} {off : Nat} (h : 0x9D00 ≤ off) (who : Accessor) (f v : Nat) : d.writeVf who f off v = d := by
  have ring : ringView off = none := by rw [ringView, if_neg (by omega), if_neg (by omega)]
  have desk : placeIn 0x8000 0x1000 1 0x1000 off = none := placeIn_outside (by decide) (by omega)
  have table : placeIn 0x9000 16 64 16 off = none := placeIn_outside (by decide) (by omega)
  have page : placeIn 0x9800 4 64 4 off = none := placeIn_outside (by decide) (by omega)
  have moderation : placeIn 0x9C00 4 64 4 off = none := placeIn_outside (by decide) (by omega)
  simp only [Dev.writeVf, ring, desk, table, page, moderation, ite_self]

/-! ### Plain words -/

/-- What `plainWord` says of a word, by the rules it keeps out. -/
structure PlainWord (off : Nat) : Prop where
  lane : pcieLane off = false
  route : routeTable off = none
  sa : saWord off = none
  floor : floorSlot off = none
  window : placeIn 0x1000200 0x20 16 0xC off = none
  txAttn : atWord (Reg.DFE_TX_ATTN 0).off 0x200 128 off = false
  uldCfg : placeIn (Reg.ULD_CFG_SLEEP_EN 0).off 0x400 3 4 off = none
  eth : off < 0x520000 ∨ 0x550000 ≤ off
  evt : off < 0x210000 ∨ 0x230000 ≤ off
  erg : off < 0xC00000 ∨ 0xD00000 ≤ off
  table : off < 0x1400000 ∨ 0x1408000 ≤ off
  ruled : off ∉ [Reg.PWR_REQ_TARGET.off, Reg.MEM_SCRUB_CFG_ONCHIP_H.off, Reg.TB_DPLL_SEL0.off, Reg.PWR_CHG_EN.off, Reg.PWR_WAKE_EN.off,
    Reg.PWR_WAKE_TIMER_AT.off, Reg.PWR_WAKE_TIMER_AT_HI.off, Reg.PWR_WAKE_TIMER_EN.off]

theorem plainWord_spec {off : Nat} (h : plainWord off = true) : PlainWord off := by
  simp only [plainWord, Bool.and_eq_true, Bool.not_eq_true', Bool.and_eq_false_iff, decide_eq_false_iff_not, Option.isNone_iff_eq_none,
    Nat.not_le, Nat.not_lt, List.contains_eq_mem] at h
  obtain ⟨⟨⟨⟨⟨⟨⟨⟨⟨⟨⟨lane, route⟩, sa⟩, floor⟩, window⟩, txAttn⟩, uldCfg⟩, eth⟩, evt⟩, erg⟩, table⟩, ruled⟩ := h
  exact ⟨lane, route, sa, floor, window, txAttn, atWord_eq_false_iff.1 uldCfg, eth, evt, erg, table, ruled⟩

namespace PlainWord

variable {off : Nat} (p : PlainWord off)
include p

/-- A plain word takes the value a write carries, and rejects none of it. -/
theorem bound_eq (d : Dev) (who : Accessor) (v : Nat) : d.bound who off v = (v, false) := by
  have src : atWord (Reg.EVT_SRC_EN 0).off 0x10 2048 off = false :=
    atWord_eq_false_iff.2 (placeIn_outside (by decide) (by have := p.evt; simp only [Reg.EVT_SRC_EN]; omega))
  have tpl : ¬(0x520000 ≤ off ∧ off < 0x530000) := by have := p.eth; omega
  have win : placeIn (Reg.SEC_QW_BASE 0).off 0x20 16 0xC off = none := p.window
  simp only [Dev.bound, p.lane, src, p.txAttn, p.uldCfg, p.route, p.sa, win, Bool.false_eq_true, if_false]
  rw [if_neg (fun h => tpl ⟨h.1, h.2.1⟩)]

/-- A write of a plain word brings at most a level source up to date. -/
theorem follow_eq (d : Dev) (old v : Nat) : d.follow off old v = d.relevelWord off := by
  have src : placeIn (Reg.EVT_SRC_EN 0).off 0x10 2048 4 off = none :=
    placeIn_outside (by decide) (by have := p.evt; simp only [Reg.EVT_SRC_EN]; omega)
  have pf : placeIn 0x220000 4 2048 4 off = none := placeIn_outside (by decide) (by have := p.evt; omega)
  have vf : placeIn 0x222000 0x100 63 0x100 off = none := placeIn_outside (by decide) (by have := p.evt; omega)
  have core : placeIn 0xC00100 0x10000 13 0x400 off = none := placeIn_outside (by decide) (by have := p.erg; omega)
  obtain ⟨-, scrub, dpll, charger, wakes⟩ : off ≠ Reg.PWR_REQ_TARGET.off ∧ off ≠ Reg.MEM_SCRUB_CFG_ONCHIP_H.off ∧
      off ≠ Reg.TB_DPLL_SEL0.off ∧ off ≠ Reg.PWR_CHG_EN.off ∧ off ∉ [Reg.PWR_WAKE_EN.off, Reg.PWR_WAKE_TIMER_AT.off,
        Reg.PWR_WAKE_TIMER_AT_HI.off, Reg.PWR_WAKE_TIMER_EN.off] := by simpa only [List.mem_cons, not_or] using p.ruled
  simp only [Dev.follow, src, pf, vf, core, p.route, scrub, dpll, charger, wakes, List.contains_eq_mem, decide_false, Option.isSome_none,
    Bool.false_eq_true, if_false]

theorem windowWritten_eq (d : Dev) (v : Nat) : d.windowWritten off v = d := by
  have desk : placeIn (Reg.SEC_QW_DESK 0).off 0x20 16 4 off = none := by
    have := placeIn_eq_none_iff.1 p.window
    rw [placeIn_eq_none_iff]
    simp only [Reg.SEC_QW_DESK]
    omega
  simp only [Dev.windowWritten, desk]

theorem badTarget_eq (d : Dev) (who : Accessor) (v : Nat) : d.badTarget who off v = d := by
  have target : off ≠ Reg.PWR_REQ_TARGET.off := fun h => p.ruled (List.mem_cons.2 (.inl h))
  simp only [Dev.badTarget, target, false_and, if_false]

/-- A write of fields of a plain word stores them, after a CFG_REJECT where an RWS field has an owner that is not STOPPED. -/
theorem storeFields_onlyEvt (d : Dev) (who : Accessor) (v : Nat) (fs : List (FieldSpec × Nat)) :
    ∃ ls, OnlyEvt (({ (if d.rwsRefused fs then d.cfgReject who off else d) with locked := ls }).setWord off
      (BitVec.ofNat 32 (d.wordAfter off v fs))) (d.storeFields who off v fs) := by
  simp only [Dev.storeFields, p.bound_eq, p.floor, p.follow_eq, p.windowWritten_eq, Bool.false_or, Bool.false_eq_true, if_false]
  exact ⟨_, Dev.relevelWord_onlyEvt _ _⟩

theorem secureSource_eq (d : Dev) : d.secureSource off = false := by
  have := p.evt
  simp only [Dev.secureSource, Bool.and_eq_false_iff, decide_eq_false_iff_not]
  omega

theorem notSteering : placeIn 0x540000 0x40 1024 0x40 off = none := placeIn_outside (by decide) (by have := p.eth; omega)

/-- R10: a word of (S) fields is the secure world's. -/
theorem writeReg_secureWord (d : Dev) {who : Accessor} (v : Nat) (hw : who ≠ .secure) (hne : fieldsAt off ≠ [])
    (hs : ∀ x ∈ fieldsAt off, x.1.sec = true) : d.writeReg who off v = d.regViolation who off := by
  have refused : (!(who == .secure) && !(fieldsAt off).isEmpty && (d.secureSource off || (fieldsAt off).all (fun x => x.1.sec))) = true := by
    simp only [Bool.and_eq_true, Bool.not_eq_true', beq_eq_false_iff_ne, List.isEmpty_eq_false_iff, Bool.or_eq_true, List.all_eq_true]
    exact ⟨⟨hw, hne⟩, .inr hs⟩
  simp only [Dev.writeReg, p.notSteering, refused, if_true]

/-- R10, R12: the secure world writes every field. -/
theorem writeReg_secure (d : Dev) (v : Nat) : d.writeReg .secure off v = d.storeFields .secure off v (fieldsAt off) := by
  simp [Dev.writeReg, p.notSteering, p.badTarget_eq]

/-- R10, R12: the non-secure world writes the open fields, here with nothing for the others. -/
theorem writeReg_open (d : Dev) {who : Accessor} (v : Nat) (hw : who ≠ .secure)
    (ho : (∃ x ∈ fieldsAt off, x.1.sec = false) ∨ fieldsAt off = [])
    (hv : v &&& maskOf (((fieldsAt off).filter (fun x => x.1.sec)).map (·.1)) = 0) :
    d.writeReg who off v = d.storeFields who off v ((fieldsAt off).filter (fun x => !x.1.sec)) := by
  have world : (who == Accessor.secure) = false := beq_eq_false_iff_ne.2 hw
  have allowed : (!(fieldsAt off).isEmpty && (fieldsAt off).all (fun x => x.1.sec)) = false := by
    rcases ho with ⟨x, hx, hs⟩ | h
    · exact Bool.and_eq_false_iff.2 (.inr (List.all_eq_false.2 ⟨x, hx, by simp [hs]⟩))
    · simp [h]
  simp only [Dev.writeReg, p.notSteering, world, p.secureSource_eq, Bool.not_false, Bool.true_and, Bool.false_or, allowed, hv, bne_self_eq_false,
    Bool.false_eq_true, if_false, p.badTarget_eq]

/-- R10, R12: a word all of whose fields the accessor may write. -/
theorem writeReg_all (d : Dev) {who : Accessor} (v : Nat) (h : who = .secure ∨ ∀ x ∈ fieldsAt off, x.1.sec = false) :
    d.writeReg who off v = d.storeFields who off v (fieldsAt off) := by
  by_cases hw : who = .secure
  · subst hw
    exact p.writeReg_secure d v
  · have hs := h.resolve_left hw
    have mine : (fieldsAt off).filter (fun x => !x.1.sec) = fieldsAt off := List.filter_eq_self.2 (fun x hx => by simp [hs x hx])
    have hidden : (fieldsAt off).filter (fun x => x.1.sec) = [] := List.filter_eq_nil_iff.2 (fun x hx => by simp [hs x hx])
    have ho : (∃ x ∈ fieldsAt off, x.1.sec = false) ∨ fieldsAt off = [] := by
      rcases hfs : fieldsAt off with _ | ⟨x, xs⟩
      · exact .inr rfl
      · exact .inl ⟨x, by simp, hs x (by simp [hfs])⟩
    rw [p.writeReg_open d v hw ho (by simp [hidden, maskOf]), mine]

/-- R47: a write of a plain word that the accessor reaches goes to the register file. -/
theorem registerWrite_reached {d : Dev} {who : Accessor} (hr : d.reaches who off = true) (h4 : off % 4 = 0) (hb : off < 0x2000000)
    (v : BitVec 32) : registerWrite who .bar off 4 (v.zeroExtend 64).toNat d = d.writeReg who off v.toNat := by
  obtain ⟨whole, served⟩ := Bool.and_eq_true_iff.1 hr
  have value : (v.zeroExtend 64).toNat % 2 ^ 32 = v.toNat := by simp; omega
  have table : placeIn 0x1400000 16 2048 16 off = none := placeIn_outside (by decide) (by have := p.table; omega)
  have below : decide (0x2000000 ≤ off) = false := decide_eq_false (Nat.not_le.2 hb)
  rw [registerWrite_word h4, value, Dev.writeBar_wholeMap whole]
  simp only [Dev.writeMap, served, below, table, Bool.not_true, Bool.or_self, Bool.false_eq_true, if_false]

/-- R8: a write whose RWS fields all have owners that are STOPPED changes its word alone. -/
theorem storeFields_accepted {d : Dev} {fs : List (FieldSpec × Nat)} (h : d.rwsRefused fs = false) (who : Accessor) (v : Nat) :
    let e := d.storeFields who off v fs
    e.word off = BitVec.ofNat 32 (d.wordAfter off v fs) ∧ (∀ w, w ≠ off → e.word w = d.word w) ∧ e.sec = d.sec ∧ e.mem = d.mem ∧
      d.secFrame e := by
  obtain ⟨ls, ev, he⟩ := p.storeFields_onlyEvt d who v fs
  simp only [h, Bool.false_eq_true, if_false] at he
  rw [he]
  exact ⟨Dev.word_setWord _ _ _, fun w hw => Dev.word_setWord_ne _ _ hw, rfl, rfl, rfl, rfl, rfl, rfl, rfl, rfl, rfl, rfl, rfl⟩

/-- R8: a write that meets an RWS field whose owner is not STOPPED is rejected, and its word takes what the other fields are given. -/
theorem storeFields_refused {d : Dev} {fs : List (FieldSpec × Nat)} (h : d.rwsRefused fs = true) (who : Accessor) (v : Nat)
    (ho : off ∉ [Reg.GLB_CFG_REJECT_ADDR.off, Reg.GLB_CFG_REJECT_FUNC.off, Reg.GLB_CFG_REJECT_COUNT.off]) :
    let e := d.storeFields who off v fs
    e.word off = BitVec.ofNat 32 (d.wordAfter off v fs) ∧ e.get Reg.GLB_CFG_REJECT_COUNT = (d.get Reg.GLB_CFG_REJECT_COUNT + 1) % 2 ^ 32 ∧
      e.on Reg.GLB_CFG_REJECT_VALID = true ∧
      (d.on Reg.GLB_CFG_REJECT_VALID = false → e.get Reg.GLB_CFG_REJECT_ADDR = off % 2 ^ 26) ∧ e.mem = d.mem ∧ e.sec = d.sec ∧
      d.secFrame e := by
  obtain ⟨ls, ev, he⟩ := p.storeFields_onlyEvt d who v fs
  obtain ⟨rs, ev', hr⟩ := d.cfgReject_only who off
  simp only [h, if_true] at he
  have kept : ∀ f : Fld, f.off ≠ off → (d.storeFields who off v fs).get f = (d.cfgReject who off).get f := by
    intro f hf
    rw [he]
    exact Dev.get_setWord_ne _ _ hf
  simp only [List.mem_cons, List.not_mem_nil, or_false, not_or] at ho
  obtain ⟨addr, func, count⟩ := ho
  refine ⟨?_, ?_, ?_, fun hv => ?_, ?_⟩
  · rw [he]
    exact Dev.word_setWord _ _ _
  · rw [kept _ (Ne.symm count), Dev.cfgReject_count]
  · rw [Dev.on, kept Reg.GLB_CFG_REJECT_VALID (Ne.symm func)]
    exact d.cfgReject_valid who off
  · rw [kept _ (Ne.symm addr), d.cfgReject_addr who off hv]
  · rw [he, hr]
    exact ⟨rfl, rfl, rfl, rfl, rfl, rfl, rfl, rfl, rfl, rfl, rfl⟩

end PlainWord

/-! ### Configuration space -/

theorem bitOf_toNat (x : BitVec 64) (k : Nat) : bitOf x.toNat k = x.getLsbD k := by
  rw [bitOf, bitsOf, pow_one, BitVec.getLsbD, Nat.testBit_eq_decide_div_mod_eq]
  rfl

theorem getLsbD_ofNat_twoPow (f : Nat) {g : Nat} (hg : g < 64) : (BitVec.ofNat 64 (2 ^ f)).getLsbD g = decide (g = f) := by
  rw [BitVec.getLsbD_ofNat, Nat.testBit_two_pow]
  simp [hg, eq_comm]

theorem getLsbD_or_twoPow (x : BitVec 64) (f : Nat) {g : Nat} (hg : g < 64) :
    (x ||| BitVec.ofNat 64 (2 ^ f)).getLsbD g = (x.getLsbD g || decide (g = f)) := by
  rw [BitVec.getLsbD_or, getLsbD_ofNat_twoPow f hg]

theorem getLsbD_andNot_twoPow (x : BitVec 64) (f : Nat) {g : Nat} (hg : g < 64) :
    (x &&& ~~~(BitVec.ofNat 64 (2 ^ f))).getLsbD g = (x.getLsbD g && !decide (g = f)) := by
  rw [BitVec.getLsbD_and, BitVec.getLsbD_not, getLsbD_ofNat_twoPow f hg, decide_eq_true hg, Bool.true_and]

/-- A bit of a mask put to b. -/
theorem getLsbD_putMask (x : BitVec 64) (b : Bool) (f : Nat) {g : Nat} (hg : g < 64) :
    (if b then x ||| BitVec.ofNat 64 (2 ^ f) else x &&& ~~~(BitVec.ofNat 64 (2 ^ f))).getLsbD g =
      (if g = f then b else x.getLsbD g) := by
  cases b with
  | true => rw [if_pos rfl, getLsbD_or_twoPow x f hg]; by_cases h : g = f <;> simp [h]
  | false => rw [if_neg Bool.false_ne_true, getLsbD_andNot_twoPow x f hg]; by_cases h : g = f <;> simp [h]

/-- R80: Bus Master Enable of a function is set, and its owed messages may go. -/
theorem Dev.writeBusMaster_set (d : Dev) (f : Nat) (h : d.jfe.busMaster.getLsbD f = false) :
    let e := d.writeBusMaster f true
    (∀ g < 64, e.jfe.busMaster.getLsbD g = (d.jfe.busMaster.getLsbD g || decide (g = f))) ∧ e.regs = d.regs ∧ e.mem = d.mem := by
  obtain ⟨o, p, l, he⟩ := Dev.payAll_onlySent (d.onJfe (fun j => { j with busMaster := j.busMaster ||| BitVec.ofNat 64 (2 ^ f) })) f
  simp only [Dev.writeBusMaster, Dev.mayMaster, h, beq_iff_eq, Bool.false_eq_true, if_false, if_true, he]
  exact ⟨fun g hg => getLsbD_or_twoPow _ f hg, rfl, rfl⟩

theorem Dev.writeBusMaster_same (d : Dev) (f : Nat) : d.writeBusMaster f (d.jfe.busMaster.getLsbD f) = d := by
  simp [Dev.writeBusMaster, Dev.mayMaster]

theorem Dev.writeBusMaster_clear (d : Dev) (f : Nat) (h : d.jfe.busMaster.getLsbD f = true) :
    d.writeBusMaster f false = busMasterClear f d := by
  simp [Dev.writeBusMaster, Dev.mayMaster, h]

/-- R477: MSI-X Enable and Function Mask of a function take the values written, and its owed messages may go. -/
theorem Dev.writeMsix_spec (d : Dev) (f : Nat) (enable mask : Bool) :
    let e := d.writeMsix f enable mask
    e.regs = d.regs ∧ e.mem = d.mem ∧ e.jfe = d.jfe ∧
      ∀ g < 64, e.evt.enabled.getLsbD g = (if g = f then enable else d.evt.enabled.getLsbD g) ∧
        e.evt.fnMask.getLsbD g = (if g = f then mask else d.evt.fnMask.getLsbD g) := by
  simp only [Dev.writeMsix]
  generalize hv : d.onEvt _ = x
  obtain ⟨o, p, l, he⟩ := x.payAll_onlySent f
  rw [he, ← hv]
  exact ⟨rfl, rfl, rfl, fun g hg => ⟨getLsbD_putMask _ enable f hg, getLsbD_putMask _ mask f hg⟩⟩

/-- R47: configuration space is a function's alone. -/
theorem registerWrite_notFunction {who : Accessor} {sp : RegSpace} (hs : sp ≠ .bar) (hw : ∀ g, who ≠ .func g) (off size v : Nat) (d : Dev) :
    registerWrite who sp off size v d = d := by
  cases sp with
  | bar => exact absurd rfl hs
  | busMaster => cases who with
    | func g => exact absurd rfl (hw g)
    | secure => rfl
    | steward => rfl
  | msix => cases who with
    | func g => exact absurd rfl (hw g)
    | secure => rfl
    | steward => rfl

theorem registerWrite_unserved {f : Fin 64} {sp : RegSpace} {d : Dev} (hs : sp ≠ .bar) (h : d.served (.func f) 0 = false) (off size v : Nat) :
    registerWrite (.func f) sp off size v d = d := by
  cases sp with
  | bar => exact absurd rfl hs
  | busMaster => simp [registerWrite, h]
  | msix => simp [registerWrite, h]

theorem registerWrite_busMaster {f : Fin 64} {d : Dev} (h : d.served (.func f) 0 = true) (off size : Nat) (value : BitVec 64) :
    registerWrite (.func f) .busMaster off size value.toNat d = d.writeBusMaster f.val (value.getLsbD 0) := by
  simp only [registerWrite, h, if_true, bitOf_toNat]

theorem registerWrite_msix {f : Fin 64} {d : Dev} (h : d.served (.func f) 0 = true) (off size : Nat) (value : BitVec 64) :
    registerWrite (.func f) .msix off size value.toNat d = d.writeMsix f.val (value.getLsbD 1) (value.getLsbD 0) := by
  simp only [registerWrite, h, if_true, bitOf_toNat]

theorem gives_busMasterEnableClear_iff {f : Fin 64} {s : State} {d : Dev} :
    Gives (.busMasterEnableClear f) s d ↔ busMasterClear f.val s.dev = d := by
  have run : exec (.busMasterEnableClear f) s = .next { s with dev := busMasterClear f.val s.dev } := rfl
  simp [Gives, run]

/-! ### The statement -/

/-- Settles O57, clause by clause: what writes nothing, a plain word, the access codes, eight bytes, and configuration space. -/
theorem registerWrites : Obligations.RegisterWrites := by
  unfold Obligations.RegisterWrites
  intro s who f off size value v
  simp only [gives_registerWrite_iff, gives_busMasterEnableClear_iff]
  refine ⟨?_, ?_, ?_, ?_, ?_, ?_, ?_, ?_, ?_, ?_, ?_, ?_, ?_⟩
  · exact fun h => registerWrite_missized h _ _ _
  · exact fun h whole => registerWrite_ignored (fun x => by rw [Dev.writeBar_wholeMap whole, Dev.writeMap_ignored (.inl h)]) _
  · exact fun h whole => registerWrite_ignored (fun x => by rw [Dev.writeBar_wholeMap whole, Dev.writeMap_ignored (.inr h)]) _
  · intro hw h
    cases who with
    | func g => exact registerWrite_ignored (fun x => by rw [Dev.writeBar_vf (beq_eq_false_iff_ne.1 hw), Dev.writeVf_unserved h]) _
    | secure => exact absurd hw (by decide)
    | steward => exact absurd hw (by decide)
  · rintro g rfl hg
    have vf : g.val ≠ 0 := fun h => hg (Fin.ext h)
    refine ⟨fun hlt hf => ?_, fun hle hlt hf => ?_, fun hle => ?_⟩
    · have ring : ringView off = some (0x110000 + off, Reg.JFE_SQ_CFG_FUNC (off / 0x40)) := if_pos hlt
      exact registerWrite_ignored (fun x => by rw [Dev.writeBar_vf vf, Dev.writeVf_foreignRing ring hf]) _
    · have ring : ringView off = some (0x120000 + (off - 0x4000), Reg.JFE_CQ_CFG_FUNC ((off - 0x4000) / 0x40)) := by
        rw [ringView, if_neg (Nat.not_lt.2 hle), if_pos hlt]
      exact registerWrite_ignored (fun x => by rw [Dev.writeBar_vf vf, Dev.writeVf_foreignRing ring hf]) _
    · exact registerWrite_ignored (fun x => by rw [Dev.writeBar_vf vf, Dev.writeVf_beyond hle]) _
  · rintro ⟨plain, reached, h4, hb⟩ mine
    have p := plainWord_spec plain
    have stored := (p.registerWrite_reached reached h4 hb v).trans (p.writeReg_all _ v.toNat mine)
    refine ⟨fun accepted => completes_registerWrite ?_, fun refused ho => completes_registerWrite ?_⟩
    · rw [stored]
      exact p.storeFields_accepted accepted who v.toNat
    · rw [stored]
      exact p.storeFields_refused refused who v.toNat ho
  · rintro ⟨plain, reached, h4, hb⟩ hw hne hs
    have p := plainWord_spec plain
    exact (p.registerWrite_reached reached h4 hb v).trans (p.writeReg_secureWord _ v.toNat hw hne hs)
  · rintro ⟨plain, reached, h4, hb⟩ hw ho accepted hidden
    have p := plainWord_spec plain
    apply completes_registerWrite
    rw [p.registerWrite_reached reached h4 hb v, p.writeReg_open _ v.toNat hw (.inl ho) hidden]
    exact p.storeFields_accepted accepted who v.toNat
  · intro xs apart x hx
    rw [Dev.bitsOf_wordAfter _ _ _ apart hx, Dev.fieldStored]
    cases x.1.acc <;> simp [fieldAfter, Dev.ownerStopped]
  · rintro h4 d1 rfl d2 rfl
    have lo : (value % 2 ^ 32).toNat % 2 ^ 32 = value.toNat % 2 ^ 32 := by simp
    have hi : (value >>> 32).toNat % 2 ^ 32 = value.toNat / 2 ^ 32 := by
      have := value.isLt
      rw [BitVec.toNat_ushiftRight, Nat.shiftRight_eq_div_pow]
      omega
    rw [registerWrite_pair h4, registerWrite_word h4, registerWrite_word (by omega), lo, hi]
  · exact fun sp hs hw => registerWrite_notFunction hs hw _ _ _ _
  · exact fun sp hs h => registerWrite_unserved hs h _ _ _
  · intro served
    refine ⟨fun same => ?_, ?_, fun was now => completes_registerWrite ?_, completes_registerWrite ?_⟩
    · rw [registerWrite_busMaster served, ← same, Dev.writeBusMaster_same]
    · rintro was now e rfl
      rw [registerWrite_busMaster served, now, Dev.writeBusMaster_clear _ _ was]
    · rw [registerWrite_busMaster served, now]
      exact s.dev.writeBusMaster_set f.val was
    · rw [registerWrite_msix served]
      exact s.dev.writeMsix_spec f.val _ _

end Sys2Proof.Machine
end

section
/-! SUPPORT. Register fields as a whole: which fields an update leaves as they were, bits of a field as fields of their own, 64-bit values,
and loops over the instances of a block. -/

namespace Sys2Proof.Machine

/-! ### Commands -/

theorem gives_iff_of_exec {c : Instr} {s : State} {f : Dev → Dev} (h : exec c s = s.onDev f) {e : Dev} : Gives c s e ↔ f s.dev = e := by
  simp [Gives, h]

theorem completes_iff_of_exec {c : Instr} {s : State} {f : Dev → Dev} (h : exec c s = s.onDev f) {P : Dev → Prop} :
    Completes c s P ↔ P (f s.dev) := by
  constructor
  · rintro ⟨d, hd, hp⟩
    rw [h, State.onDev_eq] at hd
    obtain rfl : f s.dev = d := by simpa using hd
    exact hp
  · exact fun hp => ⟨_, h, hp⟩

/-! ### Fields that an update spares -/

/-- Setting f leaves g as it was: they lie in different words, or in different bits of one. -/
abbrev Fld.Spares (f g : Fld) : Prop := g.off ≠ f.off ∨ f.lo + f.w ≤ 32 ∧ (g.lo + g.w ≤ f.lo ∨ f.lo + f.w ≤ g.lo)

theorem Dev.get_set_spares (d : Dev) {f g : Fld} (v : Nat) (h : f.Spares g) : (d.set f v).get g = d.get g := by
  by_cases ho : g.off = f.off
  · obtain ⟨hf, hg⟩ := h.resolve_left (not_not_intro ho)
    exact d.get_set_field f g v hf ho hg
  · exact d.get_set_off f g v ho

theorem Dev.on_set_spares (d : Dev) {f g : Fld} (v : Nat) (h : f.Spares g) : (d.set f v).on g = d.on g := by
  rw [Dev.on, d.get_set_spares v h, Dev.on]

/-- A flag reads as it was set. -/
theorem Dev.on_set_self (d : Dev) (f : Fld) (v : Nat) (h : f.lo + f.w ≤ 32) : (d.set f v).on f = (v % 2 ^ f.w == 1) := by
  rw [Dev.on, d.get_set_self f v h]

theorem Dev.on_of_regs {d e : Dev} (h : e.regs = d.regs) (f : Fld) : e.on f = d.on f := by rw [Dev.on, Dev.get_of_regs h, Dev.on]

@[simp] theorem Dev.get_onTime (d : Dev) (g : TimeState → TimeState) (f : Fld) : (d.onTime g).get f = d.get f := rfl
@[simp] theorem Dev.get_onPower (d : Dev) (g : PowerState → PowerState) (f : Fld) : (d.onPower g).get f = d.get f := rfl
@[simp] theorem Dev.get_raise (d : Dev) (n : Nat) (f : Fld) : (d.raise n).get f = d.get f := rfl
@[simp] theorem Dev.on_onTime (d : Dev) (g : TimeState → TimeState) (f : Fld) : (d.onTime g).on f = d.on f := rfl
@[simp] theorem Dev.on_onPower (d : Dev) (g : PowerState → PowerState) (f : Fld) : (d.onPower g).on f = d.on f := rfl
@[simp] theorem Dev.on_raise (d : Dev) (n : Nat) (f : Fld) : (d.raise n).on f = d.on f := rfl
@[simp] theorem Dev.bit_raise (d : Dev) (n : Nat) (f : Fld) (k : Nat) : (d.raise n).bit f k = d.bit f k := rfl

/-- A flag that is off reads 0. -/
theorem Dev.get_of_off {d : Dev} {f : Fld} (hw : f.w = 1) (h : d.on f = false) : d.get f = 0 := by
  have := d.get_lt f
  rw [hw] at this
  simp only [Dev.on, beq_eq_false_iff_ne] at h
  omega

/-- From d to e the registers differ in the listed fields alone. -/
def RegsWithin (ws : List Fld) (d e : Dev) : Prop := ∀ f : Fld, (∀ g ∈ ws, g.Spares f) → e.get f = d.get f

theorem RegsWithin.of_regs {ws : List Fld} {d e : Dev} (h : e.regs = d.regs) : RegsWithin ws d e := fun f _ => Dev.get_of_regs h f

theorem RegsWithin.refl (ws : List Fld) (d : Dev) : RegsWithin ws d d := .of_regs rfl

theorem RegsWithin.trans {ws : List Fld} {d e f : Dev} (h : RegsWithin ws d e) (g : RegsWithin ws e f) : RegsWithin ws d f :=
  fun x hx => (g x hx).trans (h x hx)

theorem RegsWithin.mono {ws vs : List Fld} {d e : Dev} (h : RegsWithin ws d e) (hs : ws ⊆ vs) : RegsWithin vs d e :=
  fun x hx => h x (fun g hg => hx g (hs hg))

theorem RegsWithin.set {ws : List Fld} {d e : Dev} (h : RegsWithin ws d e) {f : Fld} (hf : f ∈ ws) (v : Nat) : RegsWithin ws d (e.set f v) :=
  fun x hx => (e.get_set_spares v (hx f hf)).trans (h x hx)

theorem RegsWithin.ite {ws : List Fld} {d e f : Dev} {c : Prop} [Decidable c] (h : RegsWithin ws d e) (g : RegsWithin ws d f) :
    RegsWithin ws d (if c then e else f) := by
  split
  · exact h
  · exact g

theorem RegsWithin.on {ws : List Fld} {d e : Dev} (h : RegsWithin ws d e) {f : Fld} (hf : ∀ g ∈ ws, g.Spares f) : e.on f = d.on f := by
  rw [Dev.on, h f hf, Dev.on]

/-! ### Bits of a field -/

/-- Bit k of a field, as a field. -/
@[reducible] def Fld.part (f : Fld) (k : Nat) : Fld := ⟨f.off, f.lo + k, 1⟩

theorem bitsOf_bitsOf (v lo w : Nat) {k n : Nat} (h : k + n ≤ w) : bitsOf (bitsOf v lo w) k n = bitsOf v (lo + k) n := by
  have cut : 2 ^ w = 2 ^ k * 2 ^ (w - k) := by rw [← Nat.pow_add]; congr 1; omega
  unfold bitsOf
  rw [cut, Nat.mod_mul_right_div_self, Nat.mod_mod_of_dvd _ (Nat.pow_dvd_pow 2 (by omega)), Nat.div_div_eq_div_mul, ← Nat.pow_add]

/-- A part of a field put in the field is that part put in the word. -/
theorem putBits_putBits (v lo w x : Nat) {k n : Nat} (h : k + n ≤ w) :
    putBits v lo w (putBits (bitsOf v lo w) k n x) = putBits v (lo + k) n x := by
  have small : putBits (bitsOf v lo w) k n x < 2 ^ w := putBits_lt _ _ _ _ (bitsOf_lt _ _ _) h
  have inner := putBits_eq (bitsOf v lo w) k n x
  have whole := split_bits v lo w
  have field := split_bits (bitsOf v lo w) k n
  have below : bitsOf v lo w * 2 ^ lo ≤ v := (Nat.mul_le_mul_right _ (Nat.mod_le _ _)).trans (Nat.div_mul_le_self _ _)
  have within : bitsOf (bitsOf v lo w) k n * 2 ^ k ≤ bitsOf v lo w := (Nat.mul_le_mul_right _ (Nat.mod_le _ _)).trans (Nat.div_mul_le_self _ _)
  have scaled := Nat.mul_le_mul_right (2 ^ lo) within
  conv_lhs => rw [putBits, Nat.mod_eq_of_lt small, putBits, bitsOf_bitsOf v lo w h]
  rw [bitsOf_bitsOf v lo w h] at scaled
  rw [putBits, Nat.pow_add, Nat.add_mul, Nat.sub_mul]
  have e1 : bitsOf v (lo + k) n * 2 ^ k * 2 ^ lo = bitsOf v (lo + k) n * (2 ^ lo * 2 ^ k) := by ring
  have e2 : x % 2 ^ n * 2 ^ k * 2 ^ lo = x % 2 ^ n * (2 ^ lo * 2 ^ k) := by ring
  omega

theorem Dev.bit_eq_on (d : Dev) {f : Fld} {k : Nat} (h : k < f.w) : d.bit f k = d.on (f.part k) := by
  rw [Dev.bit, bitOf, Dev.get, bitsOf_bitsOf _ _ _ (by omega), Dev.on, Dev.get]

theorem Dev.setBit_eq_set (d : Dev) {f : Fld} {k : Nat} (h : k < f.w) : d.setBit f k = d.set (f.part k) 1 := by
  rw [Dev.setBit, Dev.set, Dev.get, putBits_putBits _ _ _ _ (by omega), Dev.set]

theorem Dev.clearBit_eq_set (d : Dev) {f : Fld} {k : Nat} (h : k < f.w) : d.clearBit f k = d.set (f.part k) 0 := by
  rw [Dev.clearBit, Dev.set, Dev.get, putBits_putBits _ _ _ _ (by omega), Dev.set]

/-! ### Attention bits -/

theorem Dev.relevel_regs (d : Dev) (n : Nat) : (d.relevel n).regs = d.regs := by
  obtain ⟨ev, h⟩ := d.relevel_onlyEvt n
  rw [h]

@[simp] theorem Dev.get_relevel (d : Dev) (n : Nat) (f : Fld) : (d.relevel n).get f = d.get f := Dev.get_of_regs (d.relevel_regs n) f
@[simp] theorem Dev.on_relevel (d : Dev) (n : Nat) (f : Fld) : (d.relevel n).on f = d.on f := Dev.on_of_regs (d.relevel_regs n) f
@[simp] theorem Dev.on_attend (d : Dev) (f : Fld) (n : Nat) (g : Fld) : (d.attend f n).on g = (d.set f 1).on g := Dev.on_relevel _ _ _

/-! ### 64-bit values -/

/-- The word of a field, as a field. -/
@[reducible] def Fld.word (f : Fld) : Fld := ⟨f.off, 0, 32⟩
/-- The word after that of a field, as a field. -/
@[reducible] def Fld.wordHi (f : Fld) : Fld := ⟨f.off + 4, 0, 32⟩

theorem Dev.get_word (d : Dev) (f : Fld) : d.get f.word = (d.word f.off).toNat := by
  have := (d.word f.off).isLt
  simp only [Dev.get, bitsOf, pow_zero, Nat.div_one]
  exact Nat.mod_eq_of_lt this

theorem Dev.get64_eq (d : Dev) (f : Fld) : d.get64 f = d.get f.word + d.get f.wordHi * 2 ^ 32 := by
  rw [Dev.get64, d.get_word f, d.get_word ⟨f.off + 4, 0, 32⟩]

theorem Dev.setWord_eq_set (d : Dev) (o v : Nat) : d.setWord o (BitVec.ofNat 32 v) = d.set ⟨o, 0, 32⟩ v := by
  have h := (d.word o).isLt
  have all : bitsOf (d.word o).toNat 0 32 = (d.word o).toNat := by
    simp only [bitsOf, pow_zero, Nat.div_one]
    exact Nat.mod_eq_of_lt h
  have put : putBits (d.word o).toNat 0 32 v = v % 2 ^ 32 := by rw [putBits, all]; omega
  rw [Dev.set, put]
  congr 1
  exact BitVec.eq_of_toNat_eq (by simp)

theorem Dev.set64_eq (d : Dev) (f : Fld) (v : Nat) : d.set64 f v = (d.set f.word v).set f.wordHi (v / 2 ^ 32) := by
  rw [Dev.set64, Dev.setWord_eq_set, Dev.setWord_eq_set]

/-- A 64-bit value reads as it was set. -/
theorem Dev.get64_set64_self (d : Dev) (f : Fld) {v : Nat} (h : v < 2 ^ 64) : (d.set64 f v).get64 f = v := by
  have apart : Fld.Spares f.wordHi f.word := .inl (by simp)
  rw [Dev.get64_eq, Dev.set64_eq, Dev.get_set_spares _ _ apart, Dev.get_set_self _ _ _ (by simp), Dev.get_set_self _ _ _ (by simp)]
  dsimp only
  omega

theorem RegsWithin.get64 {ws : List Fld} {d e : Dev} (h : RegsWithin ws d e) {f : Fld} (lo : ∀ g ∈ ws, g.Spares f.word)
    (hi : ∀ g ∈ ws, g.Spares f.wordHi) : e.get64 f = d.get64 f := by
  rw [Dev.get64_eq, Dev.get64_eq, h _ lo, h _ hi]

/-! ### Words -/

/-- The word at o is the same in both. -/
def SameWord (o : Nat) (d e : Dev) : Prop := ∀ f : Fld, f.off = o → e.get f = d.get f

theorem SameWord.refl (o : Nat) (d : Dev) : SameWord o d d := fun _ _ => rfl

theorem SameWord.trans {o : Nat} {d e f : Dev} (h : SameWord o d e) (g : SameWord o e f) : SameWord o d f :=
  fun x hx => (g x hx).trans (h x hx)

theorem SameWord.on {o : Nat} {d e : Dev} (h : SameWord o d e) {f : Fld} (hf : f.off = o) : e.on f = d.on f := by
  rw [Dev.on, h f hf, Dev.on]

theorem RegsWithin.sameWord {ws : List Fld} {d e : Dev} (h : RegsWithin ws d e) {o : Nat} (ho : ∀ g ∈ ws, g.off ≠ o) : SameWord o d e :=
  fun f hf => h f (fun g hg => .inl (by rw [hf]; exact (ho g hg).symm))

/-! ### Loops -/

/-- A relation that each step of a loop keeps holds between the ends of the loop. -/
theorem Dev.each_rel_mem {α : Type} {R : Dev → Dev → Prop} (refl : ∀ d, R d d) (trans : ∀ {d e f}, R d e → R e f → R d f)
    {f : Dev → α → Dev} {xs : List α} (h : ∀ d, ∀ x ∈ xs, R d (f d x)) (d : Dev) : R d (d.each xs f) := by
  induction xs generalizing d with
  | nil => exact refl d
  | cons x xs ih => exact trans (h d x (by simp)) (ih (fun d y hy => h d y (List.mem_cons_of_mem _ hy)) (f d x))

theorem RegsWithin.each {α : Type} {ws : List Fld} {f : Dev → α → Dev} {xs : List α} (h : ∀ d, ∀ x ∈ xs, RegsWithin ws d (f d x)) (d : Dev) :
    RegsWithin ws d (d.each xs f) := Dev.each_rel_mem (RegsWithin.refl ws) RegsWithin.trans h d

/-- A loop over different elements works on x once, on a device that agrees with the first as far as the other elements leave it, and its
end agrees as far with the device after that. -/
theorem Dev.each_once {α : Type} {R : Dev → Dev → Prop} (refl : ∀ d, R d d) (trans : ∀ {d e f}, R d e → R e f → R d f) {f : Dev → α → Dev}
    {xs : List α} (nodup : xs.Nodup) {x : α} (hx : x ∈ xs) (h : ∀ d, ∀ y ∈ xs, y ≠ x → R d (f d y)) (d : Dev) :
    ∃ e, R d e ∧ R (f e x) (d.each xs f) := by
  obtain ⟨as, bs, rfl⟩ := List.append_of_mem hx
  obtain ⟨-, hbs, has⟩ := List.nodup_append.1 nodup
  have before : ∀ y ∈ as, y ≠ x := fun y hy => has y hy x (by simp)
  have after : ∀ y ∈ bs, y ≠ x := fun y hy e => (List.nodup_cons.1 hbs).1 (e ▸ hy)
  refine ⟨d.each as f, each_rel_mem refl trans (fun d y hy => h d y (by simp [hy]) (before y hy)) d, ?_⟩
  have split : d.each (as ++ x :: bs) f = (f (d.each as f) x).each bs f := by simp [Dev.each]
  rw [split]
  exact each_rel_mem refl trans (fun d y hy => h d y (by simp [hy]) (after y hy)) _

end Sys2Proof.Machine
end

section
/-! SUPPORT. The timebase island (R29, R371–R378, R401): what its steps leave alone, the counter, phase steps, changes of the time state,
references, and the updates of the servo. -/

namespace Sys2Proof.Machine

/-! ### The commands -/

theorem exec_shortTimeBroadcast (s : State) : exec .shortTimeBroadcast s = s.onDev shortTimeBroadcast := rfl
theorem exec_referenceInvalid (code : BitVec 8) (s : State) : exec (.referenceInvalid code) s = s.onDev (referenceInvalid code.toNat) := rfl
theorem exec_referenceValid (code : BitVec 8) (s : State) : exec (.referenceValid code) s = s.onDev (referenceValid code.toNat) := rfl
theorem exec_synceTxWrite (who : Accessor) (b : Bool) (s : State) :
    exec (.synceTxWrite who b) s = s.onDev (fun d => d.mapped who Reg.TB_DPLL_SYNCE_TX.off (synceTx who b)) := rfl
theorem exec_servoUpdate (offset : BitVec 64) (freq slew : BitVec 32) (accepted : Bool) (gm : BitVec 8) (s : State) :
    exec (.servoUpdate offset freq slew accepted gm) s = s.onDev (servoUpdate offset.toInt freq.toInt slew.toInt accepted gm.toNat) := rfl
theorem exec_tbHostMeasCommit (who : Accessor) (s : State) :
    exec (.tbHostMeasCommit who) s = s.onDev (fun d => d.mapped who Reg.TB_HOST_MEAS_COMMIT.off hostMeasurement) := rfl
theorem exec_measurementLoss (s : State) : exec .measurementLoss s = s.onDev measurementLoss := rfl
theorem exec_tbAdjFreqWrite (who : Accessor) (v : BitVec 32) (s : State) :
    exec (.tbAdjFreqWrite who v) s = s.onDev (fun d => d.mapped who Reg.TB_ADJ_FREQ.off (adjFreq who v.toNat)) := rfl
theorem exec_tbAdjGoStep (who : Accessor) (s : State) :
    exec (.tbAdjGoStep who) s = s.onDev (fun d => d.mapped who Reg.TB_ADJ_GO.off (adjGo false who)) := rfl
theorem exec_tbAdjGoSlew (who : Accessor) (s : State) :
    exec (.tbAdjGoSlew who) s = s.onDev (fun d => d.mapped who Reg.TB_ADJ_GO.off (adjGo true who)) := rfl
theorem exec_slewComplete (s : State) : exec .slewComplete s = s.onDev slewComplete := rfl
theorem exec_tbSetGo (who : Accessor) (s : State) : exec (.tbSetGo who) s = s.onDev (fun d => d.mapped who Reg.TB_SET_GO.off (setGo who)) := rfl
theorem exec_tbSnapGo (who : Accessor) (s : State) : exec (.tbSnapGo who) s = s.onDev (fun d => d.mapped who Reg.TB_SNAP_GO.off snapGo) := rfl

/-- A write that reaches its word has its effect. -/
theorem Dev.mapped_reached {d : Dev} {who : Accessor} {off : Nat} (h : d.reaches who off = true) (f : Dev → Dev) : d.mapped who off f = f d :=
    if_pos h

theorem Dev.mapped_unreached {d : Dev} {who : Accessor} {off : Nat} (h : ¬d.reaches who off = true) (f : Dev → Dev) : d.mapped who off f = d :=
  if_neg h

/-! ### What the island leaves alone -/

/-- The second device differs from the first in registers, the event fabric and the timebase alone. -/
def OnlyClock (d e : Dev) : Prop := ∃ rs ev t, e = { d with regs := rs, evt := ev, time := t }

theorem OnlyClock.refl (d : Dev) : OnlyClock d d := ⟨d.regs, d.evt, d.time, rfl⟩

theorem OnlyClock.trans {d e f : Dev} (h : OnlyClock d e) (g : OnlyClock e f) : OnlyClock d f := by
  obtain ⟨_, _, _, rfl⟩ := h; obtain ⟨rs, ev, t, rfl⟩ := g; exact ⟨rs, ev, t, rfl⟩

theorem OnlyRegs.clock {d e : Dev} (h : OnlyRegs d e) : OnlyClock d e := by
  obtain ⟨rs, ev, rfl⟩ := h; exact ⟨rs, ev, d.time, rfl⟩

theorem OnlyClock.onTime {d e : Dev} (h : OnlyClock d e) (g : TimeState → TimeState) : OnlyClock d (e.onTime g) :=
  h.trans ⟨e.regs, e.evt, g e.time, rfl⟩

theorem OnlyClock.set {d e : Dev} (h : OnlyClock d e) (f : Fld) (v : Nat) : OnlyClock d (e.set f v) := h.trans (e.set_only f v).clock

theorem OnlyClock.ite {d e f : Dev} {c : Prop} [Decidable c] (h : OnlyClock d e) (g : OnlyClock d f) : OnlyClock d (if c then e else f) := by
  split
  · exact h
  · exact g

theorem OnlyClock.frame {d e : Dev} (h : OnlyClock d e) : d.clockFrame e ∧ e.out = d.out := by
  obtain ⟨rs, ev, t, rfl⟩ := h
  exact ⟨⟨rfl, rfl, rfl, rfl, rfl, rfl, rfl, rfl, rfl⟩, rfl⟩

/-- Everything queued stays queued as a level source is brought up to date. -/
theorem Dev.mem_queue_relevel {d : Dev} {n : Nat} {x : Occurrence} (h : x ∈ d.evt.queue) : x ∈ (d.relevel n).evt.queue := by
  unfold Dev.relevel
  dsimp only
  split <;> split
  · exact h
  · simp [h]
  · exact h
  · exact h

/-! ### Attention -/

theorem Dev.tbAttend_eq (d : Dev) (k : Nat) : d.tbAttend k = d.attend (Reg.TB_ATTN.part k) 0x741 := by
  simp [Dev.tbAttend, Fld.part, Reg.TB_ATTN]

theorem Dev.tbAttend_only (d : Dev) (k : Nat) : OnlyRegs d (d.tbAttend k) := d.attend_only _ _

theorem Dev.tbAttend_regsWithin (d : Dev) (k : Nat) : RegsWithin [Reg.TB_ATTN.part k] d (d.tbAttend k) := by
  rw [Dev.tbAttend_eq]
  exact ((RegsWithin.refl _ d).set (List.mem_singleton.2 rfl) 1).trans (.of_regs (Dev.relevel_regs _ _))

theorem Dev.get_tbAttend (d : Dev) (k : Nat) {f : Fld} (h : (Reg.TB_ATTN.part k).Spares f) : (d.tbAttend k).get f = d.get f :=
  d.tbAttend_regsWithin k f (by simpa using h)

theorem Dev.on_tbAttend (d : Dev) (k : Nat) {f : Fld} (h : (Reg.TB_ATTN.part k).Spares f) : (d.tbAttend k).on f = d.on f := by
  rw [Dev.on, d.get_tbAttend k h, Dev.on]

theorem Dev.bit_tbAttend (d : Dev) {k : Nat} (h : k < 6) : (d.tbAttend k).bit Reg.TB_ATTN k = true := by
  have room : (Reg.TB_ATTN.part k).lo + (Reg.TB_ATTN.part k).w ≤ 32 := by simp [Reg.TB_ATTN]; omega
  rw [Dev.bit_eq_on _ h, Dev.tbAttend_eq, Dev.on_attend, Dev.on_set_self _ _ _ room]
  rfl

@[simp] theorem Dev.tbAttend_time (d : Dev) (k : Nat) : (d.tbAttend k).time = d.time := by
  obtain ⟨rs, ev, h⟩ := d.tbAttend_only k
  rw [h]

theorem Dev.mem_queue_tbAttend {d : Dev} {k : Nat} {x : Occurrence} (h : x ∈ d.evt.queue) : x ∈ (d.tbAttend k).evt.queue :=
  Dev.mem_queue_relevel h

/-! ### The counter (R29, R371, R373) -/

/-- R371: the counter that has advanced by x has counted x. -/
theorem Dev.counted_of_advance {d e : Dev} {x : Int} (short : e.time.short = (d.time.advance x).short)
    (frac : e.time.frac = (d.time.advance x).frac) (full : e.time.full = (d.time.advance x).full) (cast : e.time.cast = e.time.short) :
    d.counted e x := by
  have hs := d.time.short.isLt
  have hf := d.time.frac.isLt
  refine ⟨?_, cast, ?_⟩
  · simp only [Dev.counter, short, frac, TimeState.advance, BitVec.toNat_ofInt]
    push_cast
    omega
  · simp only [full, TimeState.advance, Dev.counter, fullSize]
    push_cast
    omega

/-- What a reading of the counter depends on. -/
theorem Dev.counted_congr {d d' e : Dev} {x : Int} (short : d'.time.short = d.time.short) (frac : d'.time.frac = d.time.frac)
    (full : d'.time.full = d.time.full) (h : d'.counted e x) : d.counted e x := by
  simpa only [Dev.counted, Dev.counter, short, frac, full] using h

/-- R371, R378: a broadcast's advance. -/
theorem shortTimeBroadcast_spec {d : Dev} (runs : d.timeRuns = true) :
    let rate := broadcastStep d.freqNow
    let part := d.time.slewStep (d.get Reg.TB_SERVO_SLEW_PPB)
    let e := shortTimeBroadcast d
    d.counted e (if d.time.slewNeg then rate - part else rate + part) ∧ e.time.slew = d.time.slew - part ∧ e.regs = d.regs ∧
      e.evt = d.evt ∧ d.clockFrame e ∧ e.out = d.out := by
  intro rate part e
  have step : (if d.time.slewNeg then rate - part else rate + part : Int) = rate + (if d.time.slewNeg then -(part : Int) else part) := by
    split <;> omega
  have he : e = d.onTime (fun t => { t.advance (if d.time.slewNeg then rate - part else rate + part) with
      cast := (t.advance (if d.time.slewNeg then rate - part else rate + part)).short, slew := t.slew - part }) := by
    rw [step]
    simp [e, shortTimeBroadcast, runs, TimeState.advance, rate, part]
  have only : OnlyClock d e := he ▸ (OnlyClock.refl d).onTime _
  rw [he] at only ⊢
  exact ⟨Dev.counted_of_advance rfl rfl rfl rfl, rfl, rfl, rfl, only.frame⟩

/-! ### Phase steps (R373, R378) -/

/-- The second device differs from the first in its timed pins alone. -/
def OnlyPins (d e : Dev) : Prop := ∃ ps, e = d.onTime (fun t => { t with pins := ps })

theorem OnlyPins.refl (d : Dev) : OnlyPins d d := ⟨d.time.pins, rfl⟩

theorem OnlyPins.trans {d e f : Dev} (h : OnlyPins d e) (g : OnlyPins e f) : OnlyPins d f := by
  obtain ⟨_, rfl⟩ := h; obtain ⟨ps, rfl⟩ := g; exact ⟨ps, rfl⟩

theorem Dev.pinSkips_onlyPins (d : Dev) (i : Nat) : OnlyPins d (d.pinSkips i) := by
  unfold Dev.pinSkips
  dsimp only
  split
  · exact ⟨_, rfl⟩
  · exact .refl d

/-- R373: the time of a device that has stepped by x, but for its pins. -/
def TimeState.step (t : TimeState) (x : Int) : TimeState :=
  let u := t.advance (x * (2 ^ 32 : Nat))
  let u := { u with cast := u.short }
  if x < 0 then { u with ppsSecond := u.full / secondUnits } else { u with skips := (t.short, u.short) :: u.skips }

theorem Dev.phaseStep_eq (d : Dev) (x : Int) : ∃ ps, d.phaseStep x = (d.onTime (fun t => { t.step x with pins := ps })).tbAttend 1 := by
  obtain ⟨ps, h⟩ := Dev.each_rel OnlyPins.refl OnlyPins.trans Dev.pinSkips_onlyPins (upFrom 0 16) (d.onTime (fun t => t.step x))
  exact ⟨ps, congrArg (fun e => e.tbAttend 1) h⟩

theorem Dev.phaseStep_onlyClock (d : Dev) (x : Int) : OnlyClock d (d.phaseStep x) := by
  obtain ⟨ps, h⟩ := d.phaseStep_eq x
  rw [h]
  exact ((OnlyClock.refl d).onTime _).trans (Dev.tbAttend_only _ 1).clock

theorem Dev.phaseStep_regsWithin (d : Dev) (x : Int) : RegsWithin [Reg.TB_ATTN.part 1] d (d.phaseStep x) := by
  obtain ⟨ps, h⟩ := d.phaseStep_eq x
  rw [h]
  exact (RegsWithin.of_regs (e := d.onTime _) rfl).trans (Dev.tbAttend_regsWithin _ 1)

theorem Dev.mem_queue_phaseStep {d : Dev} {x : Int} {o : Occurrence} (h : o ∈ d.evt.queue) : o ∈ (d.phaseStep x).evt.queue := by
  obtain ⟨ps, he⟩ := d.phaseStep_eq x
  rw [he]
  exact Dev.mem_queue_tbAttend h

theorem Dev.phaseStep_firstStep (d : Dev) (x : Int) : (d.phaseStep x).time.stepped = d.time.stepped := by
  obtain ⟨ps, h⟩ := d.phaseStep_eq x
  rw [h, Dev.tbAttend_time, Dev.onTime_time, TimeState.step]
  split <;> rfl

/-- R373: a phase step steps the time. -/
theorem Dev.stepped_phaseStep (d : Dev) (x : Int) : d.stepped (d.phaseStep x) x := by
  obtain ⟨ps, h⟩ := d.phaseStep_eq x
  rw [h]
  refine ⟨Dev.counted_of_advance ?_ ?_ ?_ ?_, Dev.bit_tbAttend _ (by decide), ?_⟩ <;>
    simp only [Dev.tbAttend_time, Dev.onTime_time, TimeState.step] <;> split <;> rfl

/-- What a step is measured from. -/
theorem Dev.stepped_congr {d d' e : Dev} {x : Int} (short : d'.time.short = d.time.short) (frac : d'.time.frac = d.time.frac)
    (full : d'.time.full = d.time.full) (skips : d'.time.skips = d.time.skips) (h : d'.stepped e x) : d.stepped e x := by
  obtain ⟨counts, attn, skip⟩ := h
  exact ⟨Dev.counted_congr short frac full counts, attn, by rw [skip, short, skips]⟩

/-! ### The time state (R376) -/

/-- The fields that a change of the time state sets, F apart. -/
def timeStateFields : List Fld := [Reg.TB_STATE_STATE, Reg.TB_STATE_TRACEABLE, Reg.TB_ATTN.part 0]

/-- The attention bits of the timebase that tell of other things than the time state. -/
def otherAttention : List Fld := [Reg.TB_ATTN.part 1, Reg.TB_ATTN.part 2, Reg.TB_ATTN.part 3, Reg.TB_ATTN.part 4]

theorem Dev.timeEntry_onlyClock (d : Dev) (st : Nat) : OnlyClock d (d.timeEntry st) := by
  unfold Dev.timeEntry
  exact .ite ((OnlyClock.refl d).onTime _) (.ite ((OnlyClock.refl d).onTime _) (.ite (.ite (.refl d) ((OnlyClock.refl d).set _ _)) (.refl d)))

theorem Dev.setTimeState_self (d : Dev) {st : Nat} (h : d.timeState = st) : d.setTimeState st = d := if_pos h

/-- R376: the device with a time state shown that it has entered. -/
def Dev.showTimeState (d : Dev) (st : Nat) : Dev :=
  (((d.set Reg.TB_STATE_STATE st).set Reg.TB_STATE_TRACEABLE (b2n (st == tsLOCKED))).tbAttend 0).raise 0x740

theorem Dev.setTimeState_change (d : Dev) {st : Nat} (h : d.timeState ≠ st) : d.setTimeState st = (d.timeEntry st).showTimeState st := if_neg h

theorem Dev.showTimeState_only (d : Dev) (st : Nat) : OnlyRegs d (d.showTimeState st) :=
  ((((OnlyRegs.refl d).set _ _).set _ _).trans (Dev.tbAttend_only _ 0)).raise _

theorem Dev.showTimeState_regsWithin (d : Dev) (st : Nat) : RegsWithin timeStateFields d (d.showTimeState st) := by
  have attend := fun e : Dev => (e.tbAttend_regsWithin 0).mono (show _ ⊆ timeStateFields by simp [timeStateFields])
  exact ((((RegsWithin.refl _ d).set (by simp [timeStateFields]) _).set (by simp [timeStateFields]) _).trans (attend _)).trans
    (.of_regs (Dev.raise_regs _ _))

theorem Dev.showTimeState_time (d : Dev) (st : Nat) : (d.showTimeState st).time = d.time := by
  obtain ⟨rs, ev, h⟩ := d.showTimeState_only st
  rw [h]

theorem Dev.setTimeState_onlyClock (d : Dev) (st : Nat) : OnlyClock d (d.setTimeState st) := by
  by_cases same : d.timeState = st
  · rw [d.setTimeState_self same]
    exact .refl d
  · rw [d.setTimeState_change same]
    exact (d.timeEntry_onlyClock st).trans (Dev.showTimeState_only _ st).clock

/-- What entering a time state leaves of the timebase. -/
theorem Dev.timeEntry_time (d : Dev) (st : Nat) :
    ∃ n f b xs, (d.timeEntry st).time = { d.time with near := n, far := f, stepped := b, freqs := xs } := by
  unfold Dev.timeEntry
  split
  · exact ⟨_, _, _, _, rfl⟩
  · split
    · exact ⟨_, _, _, _, rfl⟩
    · split
      · dsimp only
        split <;> exact ⟨_, _, _, _, rfl⟩
      · exact ⟨_, _, _, _, rfl⟩

theorem Dev.setTimeState_time (d : Dev) (st : Nat) :
    ∃ n f b xs, (d.setTimeState st).time = { d.time with near := n, far := f, stepped := b, freqs := xs } := by
  by_cases same : d.timeState = st
  · rw [d.setTimeState_self same]
    exact ⟨_, _, _, _, rfl⟩
  · rw [d.setTimeState_change same, Dev.showTimeState_time]
    exact d.timeEntry_time st

/-- R376: ACQUIRING begins without near updates. -/
theorem Dev.setTimeState_acquiring {d : Dev} (h : d.timeState ≠ 1) : (d.setTimeState 1).time.near = 0 := by
  have entry : d.timeEntry 1 = d.onTime (fun t => { t with near := 0, far := 0, stepped := false }) := rfl
  rw [d.setTimeState_change h, Dev.showTimeState_time, entry, Dev.onTime_time]

/-- F changes on an entry of HOLDOVER alone (R377). -/
theorem Dev.timeEntry_regs (d : Dev) {st : Nat} (h : st ≠ tsHOLDOVER) : (d.timeEntry st).regs = d.regs := by
  simp only [Dev.timeEntry, h, if_false]
  split
  · rfl
  · split <;> rfl

theorem Dev.setTimeState_regsWithin (d : Dev) {st : Nat} (h : st ≠ tsHOLDOVER ∨ d.timeState = st) :
    RegsWithin timeStateFields d (d.setTimeState st) := by
  by_cases same : d.timeState = st
  · rw [d.setTimeState_self same]
    exact .refl _ d
  · rw [d.setTimeState_change same]
    exact (RegsWithin.of_regs (d.timeEntry_regs (h.resolve_right same))).trans (Dev.showTimeState_regsWithin _ st)

/-- A time state once entered is told as R376 says. -/
theorem Dev.timeBecomes_setTimeState (d : Dev) {st : Nat} (h : st < 8) : d.timeBecomes (d.setTimeState st) st := by
  by_cases same : d.timeState = st
  · rw [d.setTimeState_self same]
    exact ⟨same, fun ne => absurd same ne⟩
  · rw [d.setTimeState_change same, Dev.showTimeState]
    refine ⟨?_, fun _ => ⟨?_, ?_, ?_⟩⟩
    · rw [Dev.timeState, Dev.get_raise, Dev.get_tbAttend _ _ (by decide), Dev.get_set_spares _ _ (by decide), Dev.get_set_self _ _ _ (by decide)]
      exact Nat.mod_eq_of_lt h
    · rw [Dev.on_raise, Dev.on_tbAttend _ _ (by decide), Dev.on_set_self _ _ _ (by decide)]
      by_cases locked : st = 2 <;> simp [b2n, tsLOCKED, locked, Reg.TB_STATE_TRACEABLE]
    · rw [Dev.bit_raise]
      exact Dev.bit_tbAttend _ (by decide)
    · have world : ∀ e : Dev, e.sourceWorld 0x740 = false := fun e => rfl
      simp [world]

/-- A time state stands while other things than it are told. -/
theorem Dev.timeBecomes_later {d e f : Dev} {st : Nat} (h : d.timeBecomes e st) (regs : RegsWithin otherAttention e f)
    (queue : ∀ x ∈ e.evt.queue, x ∈ f.evt.queue) : d.timeBecomes f st := by
  obtain ⟨state, told⟩ := h
  refine ⟨(regs _ (by decide)).trans state, fun change => ?_⟩
  obtain ⟨trace, attn, occ⟩ := told change
  rw [Dev.bit_eq_on _ (by decide)] at attn ⊢
  exact ⟨(regs.on (by decide)).trans trace, (regs.on (by decide)).trans attn, queue _ occ⟩

theorem Dev.timeBecomes_tbAttend {d e : Dev} {st k : Nat} (h : d.timeBecomes e st) (hk : Reg.TB_ATTN.part k ∈ otherAttention) :
    d.timeBecomes (e.tbAttend k) st :=
  Dev.timeBecomes_later h ((e.tbAttend_regsWithin k).mono (by simpa using hk)) (fun _ => Dev.mem_queue_tbAttend)

theorem Dev.timeBecomes_phaseStep {d e : Dev} {st : Nat} (x : Int) (h : d.timeBecomes e st) : d.timeBecomes (e.phaseStep x) st :=
  Dev.timeBecomes_later h ((e.phaseStep_regsWithin x).mono (by simp [otherAttention])) (fun _ => Dev.mem_queue_phaseStep)

/-- What a change of the time state is judged from. -/
theorem Dev.timeBecomes_congr {d d' e : Dev} {st : Nat} (same : d'.timeState = d.timeState) (h : d'.timeBecomes e st) : d.timeBecomes e st := by
  simpa only [Dev.timeBecomes, same] using h

end Sys2Proof.Machine
end

section
/-! SUPPORT. The timebase island, command by command: steering by the host (R378), snapshots (R401), references (R374), measurements, the
servo's updates and their loss (R375–R377). -/

namespace Sys2Proof.Machine

/-! ### Steering (R376, R378, R401) -/

theorem slewComplete_eq (d : Dev) : slewComplete d = if d.on Reg.TB_ADJ_SLEWING = true ∧ d.time.slew = 0 then d.set Reg.TB_ADJ_SLEWING 0 else d := by
  simp [slewComplete]

theorem adjFreq_rejected {d : Dev} (h : ¬d.stopped .servo = true) (who : Accessor) (v : Nat) :
    adjFreq who v d = d.cfgReject who Reg.TB_ADJ_FREQ.off := by
  simp [adjFreq, Dev.steers, h]

/-- R378: the host's F is in force. -/
theorem adjFreq_spec {d : Dev} (h : d.stopped .servo = true) (who : Accessor) (v : BitVec 32) :
    let e := adjFreq who v.toNat d
    e.get Reg.TB_ADJ_FREQ = v.toNat ∧ e.get Reg.TB_SERVO_FREQ = v.toNat ∧ e.time = d.time ∧ e.evt = d.evt ∧ d.clockFrame e ∧ e.out = d.out := by
  intro e
  have he : e = (d.set Reg.TB_ADJ_FREQ v.toNat).set Reg.TB_SERVO_FREQ v.toNat := by simp [e, adjFreq, Dev.steers, h]
  have only : OnlyClock d e := he ▸ ((OnlyClock.refl d).set _ _).set _ _
  refine ⟨?_, ?_, by rw [he]; rfl, by rw [he]; rfl, only.frame⟩
  · rw [he, Dev.get_set_spares _ _ (by decide), Dev.get_set_self _ _ _ (by decide)]
    exact Nat.mod_eq_of_lt v.isLt
  · rw [he, Dev.get_set_self _ _ _ (by decide)]
    exact Nat.mod_eq_of_lt v.isLt

theorem adjGo_rejected {d : Dev} (h : ¬d.stopped .servo = true ∨ d.on Reg.TB_ADJ_SLEWING = true) (slew : Bool) (who : Accessor) :
    adjGo slew who d = d.cfgReject who Reg.TB_ADJ_GO.off := by
  have : (!d.steers || d.on Reg.TB_ADJ_SLEWING) = true := by simpa [Dev.steers] using h
  rw [adjGo, if_pos this]

/-- R378: PHASE is applied at once. -/
theorem adjGo_steps {d : Dev} (free : d.stopped .servo = true) (idle : d.on Reg.TB_ADJ_SLEWING = false) {slew : Bool}
    (h : slew = false ∨ d.get Reg.TB_SERVO_SLEW_PPB = 0) (who : Accessor) :
    adjGo slew who d = d.phaseStep (signed (d.get64 Reg.TB_ADJ_PHASE) 64) := by
  rcases h with rfl | h
  · simp [adjGo, Dev.steers, free, idle]
  · simp [adjGo, Dev.steers, free, idle, h]

/-- R378: the device with a slew of x units of 2^-16 ns begun. -/
def Dev.beginSlew (d : Dev) (x : Int) : Dev :=
  (d.onTime (fun t => { t with slew := x.natAbs * 2 ^ 32, slewNeg := decide (x < 0) })).set Reg.TB_ADJ_SLEWING 1

theorem Dev.beginSlew_spec (d : Dev) (x : Int) :
    (d.beginSlew x).time.slew = x.natAbs * 2 ^ 32 ∧ (d.beginSlew x).time.slewNeg = decide (x < 0) ∧
      (d.beginSlew x).on Reg.TB_ADJ_SLEWING = true ∧ (d.beginSlew x).time.short = d.time.short ∧ (d.beginSlew x).time.full = d.time.full ∧
      (d.beginSlew x).evt = d.evt ∧ d.clockFrame (d.beginSlew x) ∧ (d.beginSlew x).out = d.out := by
  have flag : (d.beginSlew x).on Reg.TB_ADJ_SLEWING = true := by
    rw [Dev.beginSlew, Dev.on_set_self _ _ _ (by decide)]
    rfl
  have only : OnlyClock d (d.beginSlew x) := ((OnlyClock.refl d).onTime _).set _ _
  have time : (d.beginSlew x).time = { d.time with slew := x.natAbs * 2 ^ 32, slewNeg := decide (x < 0) } := by
    rw [Dev.beginSlew, Dev.set_time, Dev.onTime_time]
  have evt : (d.beginSlew x).evt = d.evt := by rw [Dev.beginSlew, Dev.set_evt, Dev.onTime_evt]
  exact ⟨by rw [time], by rw [time], flag, by rw [time], by rw [time], evt, only.frame⟩

/-- R378: a slew of PHASE begins. -/
theorem adjGo_slews {d : Dev} (free : d.stopped .servo = true) (idle : d.on Reg.TB_ADJ_SLEWING = false) (h : d.get Reg.TB_SERVO_SLEW_PPB ≠ 0)
    (who : Accessor) : adjGo true who d = d.beginSlew (signed (d.get64 Reg.TB_ADJ_PHASE) 64) := by
  simp [adjGo, Dev.steers, free, idle, h, Dev.beginSlew]

theorem setGo_rejected {d : Dev} (h : ¬d.stopped .servo = true ∨ 10 ^ 9 ≤ d.get Reg.TB_SET_NS) (who : Accessor) :
    setGo who d = d.cfgReject who Reg.TB_SET_GO.off := by
  have : (!d.steers || decide (999999999 < d.get Reg.TB_SET_NS)) = true := by
    rcases h with h | h
    · simp [Dev.steers, h]
    · simp [show 999999999 < d.get Reg.TB_SET_NS by omega]
  rw [setGo, if_pos this]

/-- R376, R378: full time as TB_SET gives it. -/
def Dev.fullToSet (d : Dev) : Nat := ((d.get Reg.TB_SET_SEC + 2 ^ 32 * d.get Reg.TB_SET_SEC_HI) * 10 ^ 9 + d.get Reg.TB_SET_NS) * 65536

/-- R376, R378: the device with full time set to x and any slew dropped. -/
def Dev.putFull (d : Dev) (x : Nat) : Dev := d.dropSlew.onTime (fun t => { t with full := x, ppsSecond := x / secondUnits })

theorem Dev.putFull_timeState (d : Dev) (x : Nat) : (d.putFull x).timeState = d.timeState := by
  rw [Dev.timeState, Dev.putFull, Dev.get_onTime, Dev.dropSlew, Dev.get_set_spares _ _ (by decide), Dev.get_onTime, Dev.timeState]

/-- The time state after TB_SET: COARSE becomes FREE. -/
def setState (st : Nat) : Nat := if st = 4 then 0 else st

theorem setGo_eq {d : Dev} (free : d.stopped .servo = true) (ns : d.get Reg.TB_SET_NS < 10 ^ 9) (who : Accessor) :
    setGo who d = (d.putFull d.fullToSet).setTimeState (setState d.timeState) := by
  have accepted : ¬(!d.steers || decide (999999999 < d.get Reg.TB_SET_NS)) = true := by
    simp only [Dev.steers, free, Bool.not_true, Bool.false_or, decide_eq_true_eq]
    omega
  have full : ((d.get Reg.TB_SET_SEC + d.get Reg.TB_SET_SEC_HI * 2 ^ 32) * 1000000000 + d.get Reg.TB_SET_NS) * 65536 = d.fullToSet := by
    rw [Dev.fullToSet, Nat.mul_comm (2 ^ 32)]
    norm_num
  have run : setGo who d = if (d.putFull d.fullToSet).timeState = tsCOARSE then (d.putFull d.fullToSet).setTimeState tsFREE
      else d.putFull d.fullToSet := by
    simp only [setGo, if_neg accepted, full]
    rfl
  rw [run, Dev.putFull_timeState, setState]
  by_cases coarse : d.timeState = 4
  · rw [if_pos coarse, if_pos (show d.timeState = tsCOARSE from coarse), tsFREE]
  · rw [if_neg coarse, if_neg (show ¬d.timeState = tsCOARSE from coarse), Dev.setTimeState_self _ (d.putFull_timeState _)]

theorem Dev.putFull_spec (d : Dev) (x : Nat) : (d.putFull x).on Reg.TB_ADJ_SLEWING = false ∧
    (d.putFull x).time = { d.time with slew := 0, slewNeg := false, full := x, ppsSecond := x / secondUnits } ∧ OnlyClock d (d.putFull x) := by
  refine ⟨?_, ?_, (((OnlyClock.refl d).onTime _).set _ _).onTime _⟩
  · rw [Dev.putFull, Dev.on_onTime, Dev.dropSlew, Dev.on_set_self _ _ _ (by decide)]
    rfl
  · rw [Dev.putFull, Dev.onTime_time, Dev.dropSlew, Dev.set_time, Dev.onTime_time]

/-- R376, R378: full time is set, a slew is dropped, and COARSE becomes FREE. -/
theorem setGo_spec {d e : Dev} (free : d.stopped .servo = true) (ns : d.get Reg.TB_SET_NS < 10 ^ 9) {who : Accessor} (he : setGo who d = e) :
    e.time.full = d.fullToSet ∧ e.time.short = d.time.short ∧ e.time.slew = 0 ∧ e.on Reg.TB_ADJ_SLEWING = false ∧
      d.timeBecomes e (setState d.timeState) ∧ d.clockFrame e ∧ e.out = d.out := by
  rw [setGo_eq free ns] at he
  have state := d.putFull_timeState d.fullToSet
  obtain ⟨off, time, only⟩ := d.putFull_spec d.fullToSet
  generalize d.fullToSet = x at *
  generalize d.putFull x = y at *
  have small : setState d.timeState < 8 := by
    have : d.timeState < 8 := d.get_lt Reg.TB_STATE_STATE
    rw [setState]
    split <;> omega
  have calm : setState d.timeState ≠ tsHOLDOVER ∨ y.timeState = setState d.timeState := by
    rw [state, setState, tsHOLDOVER]
    split <;> omega
  have told : d.timeBecomes e (setState d.timeState) := Dev.timeBecomes_congr state (he ▸ y.timeBecomes_setTimeState small)
  obtain ⟨n, f, b, xs, ht⟩ := y.setTimeState_time (setState d.timeState)
  rw [he, time] at ht
  have regs := y.setTimeState_regsWithin calm
  rw [he] at regs
  have clock := only.trans (y.setTimeState_onlyClock (setState d.timeState))
  rw [he] at clock
  exact ⟨by rw [ht], by rw [ht], by rw [ht], (regs.on (by decide)).trans off, told, clock.frame⟩

/-- R401: the fields of a snapshot spell full time. -/
theorem snapshot_spells {x : Nat} (h : x < 2 ^ 48 * 10 ^ 9 * 65536) : x % secondUnits / 65536 % 2 ^ 30 < 10 ^ 9 ∧
    ((x / secondUnits % 2 ^ 32 + 2 ^ 32 * (x / secondUnits / 2 ^ 32 % 2 ^ 16)) * 10 ^ 9 + x % secondUnits / 65536 % 2 ^ 30) * 65536 +
      x % 65536 % 2 ^ 16 = x := by
  rw [secondUnits]
  omega

/-- R401: a snapshot shows short and full time. -/
theorem snapGo_spec {d e : Dev} (h : d.time.full < 2 ^ 48 * 10 ^ 9 * 65536) (he : snapGo d = e) :
    e.get64 Reg.TB_SNAP_SHORT = d.time.short.toNat ∧ e.get Reg.TB_SNAP_NS < 10 ^ 9 ∧
      ((e.get Reg.TB_SNAP_SEC + 2 ^ 32 * e.get Reg.TB_SNAP_SEC_HI) * 10 ^ 9 + e.get Reg.TB_SNAP_NS) * 65536 + e.get Reg.TB_SNAP_FRAC =
        d.time.full ∧ e.time = d.time ∧ e.evt = d.evt ∧ d.clockFrame e ∧ e.out = d.out := by
  simp only [snapGo] at he
  have short := Dev.get64_set64_self d Reg.TB_SNAP_SHORT d.time.short.isLt
  have only : OnlyClock d (d.set64 Reg.TB_SNAP_SHORT d.time.short.toNat) := (Dev.set64_only d _ _).clock
  have time := d.set64_time Reg.TB_SNAP_SHORT d.time.short.toNat
  have evt := d.set64_evt Reg.TB_SNAP_SHORT d.time.short.toNat
  generalize d.set64 Reg.TB_SNAP_SHORT d.time.short.toNat = x at *
  have regs : RegsWithin [Reg.TB_SNAP_SEC, Reg.TB_SNAP_SEC_HI, Reg.TB_SNAP_FRAC, Reg.TB_SNAP_NS] x e := by
    rw [← he]
    exact ((((RegsWithin.refl _ x).set (by simp) _).set (by simp) _).set (by simp) _).set (by simp) _
  have seconds : e.get Reg.TB_SNAP_SEC = d.time.full / secondUnits % 2 ^ 32 := by
    rw [← he, Dev.get_set_spares _ _ (by decide), Dev.get_set_spares _ _ (by decide), Dev.get_set_spares _ _ (by decide),
      Dev.get_set_self _ _ _ (by decide), Reg.TB_SNAP_SEC]
  have secondsHi : e.get Reg.TB_SNAP_SEC_HI = d.time.full / secondUnits / 2 ^ 32 % 2 ^ 16 := by
    rw [← he, Dev.get_set_spares _ _ (by decide), Dev.get_set_spares _ _ (by decide), Dev.get_set_self _ _ _ (by decide), Reg.TB_SNAP_SEC_HI]
  have frac : e.get Reg.TB_SNAP_FRAC = d.time.full % 65536 % 2 ^ 16 := by
    rw [← he, Dev.get_set_spares _ _ (by decide), Dev.get_set_self _ _ _ (by decide), Reg.TB_SNAP_FRAC]
  have ns : e.get Reg.TB_SNAP_NS = d.time.full % secondUnits / 65536 % 2 ^ 30 := by
    rw [← he, Dev.get_set_self _ _ _ (by decide), Reg.TB_SNAP_NS]
  have clock : OnlyClock d e := by
    rw [← he]
    exact (((only.set _ _).set _ _).set _ _).set _ _
  obtain ⟨below, spells⟩ := snapshot_spells h
  refine ⟨(regs.get64 (by decide) (by decide)).trans short, by rw [ns]; exact below, by rw [seconds, secondsHi, frac, ns]; exact spells,
    ?_, ?_, clock.frame⟩
  · rw [← he, Dev.set_time, Dev.set_time, Dev.set_time, Dev.set_time, time]
  · rw [← he, Dev.set_evt, Dev.set_evt, Dev.set_evt, Dev.set_evt, evt]

/-! ### References (R374) -/

theorem mem_insertOnce (k x : Nat) (xs : List Nat) : x ∈ insertOnce k xs ↔ x = k ∨ x ∈ xs := by
  induction xs with
  | nil => simp [insertOnce]
  | cons y ys ih =>
    unfold insertOnce
    split
    · simp
    · split
      · next h => subst h; simp
      · simp only [List.mem_cons, ih]; tauto

/-- R374: a reference that can be taken: an entry that is valid. -/
theorem Dev.refValid_iff (d : Dev) (c : Nat) : d.refValid c = true ↔ c ≠ 0 ∧ c ∈ d.time.refs := by simp [Dev.refValid]

/-- R374: does the DPLL stay with the active reference? -/
def Dev.dpllStays (d : Dev) : Prop :=
  d.refValid (d.get Reg.TB_DPLL_ACTIVE) = true ∧ d.get Reg.TB_DPLL_ACTIVE ∈ d.dpllSel ∧ d.on Reg.TB_DPLL_REVERT = false

theorem Dev.dpllChoice_stays {d : Dev} (h : d.dpllStays) : d.dpllChoice = some (d.get Reg.TB_DPLL_ACTIVE) := by
  obtain ⟨valid, listed, revert⟩ := h
  simp [Dev.dpllChoice, valid, listed, revert]

theorem Dev.dpllChoice_leaves {d : Dev} (h : ¬d.dpllStays) : d.dpllChoice = d.dpllSel.find? d.refValid := by
  refine if_neg fun stays => h ?_
  simp only [Bool.and_eq_true, Bool.not_eq_true', List.contains_eq_mem, decide_eq_true_eq, and_assoc] at stays
  exact stays

/-- Every entry of TB_DPLL.SEL fits ACTIVE. -/
theorem Dev.dpllSel_lt {d : Dev} {c : Nat} (h : c ∈ d.dpllSel) : c < 256 := by
  simp only [Dev.dpllSel, List.mem_cons, List.not_mem_nil, or_false] at h
  rcases h with rfl | rfl | rfl
  · exact d.get_lt Reg.TB_DPLL_SEL0
  · exact d.get_lt Reg.TB_DPLL_SEL1
  · exact d.get_lt Reg.TB_DPLL_SEL2

/-- The choice of a reference does not look at TB_DPLL.VALID. -/
theorem Dev.dpllChoice_showValid (d : Dev) (v : Nat) : (d.set Reg.TB_DPLL_VALID v).dpllChoice = d.dpllChoice := by
  have act := d.get_set_spares v (show Fld.Spares Reg.TB_DPLL_VALID Reg.TB_DPLL_ACTIVE by decide)
  have sel : (d.set Reg.TB_DPLL_VALID v).dpllSel = d.dpllSel := by
    simp only [Dev.dpllSel]
    rw [Dev.get_set_spares _ _ (by decide), Dev.get_set_spares _ _ (by decide), Dev.get_set_spares _ _ (by decide)]
  have valid : (d.set Reg.TB_DPLL_VALID v).refValid = d.refValid := rfl
  simp only [Dev.dpllChoice, act, sel, valid, d.on_set_spares v (show Fld.Spares Reg.TB_DPLL_VALID Reg.TB_DPLL_REVERT by decide)]

/-- R374: the DPLL takes a reference. -/
theorem Dev.dpllSelect_takes {d : Dev} {c : Nat} (h : d.dpllChoice = some c) (hc : c < 256) :
    let act := d.get Reg.TB_DPLL_ACTIVE
    let e := d.dpllSelect
    e.get Reg.TB_DPLL_ACTIVE = c ∧ e.on Reg.TB_DPLL_HOLD = false ∧ (act ≠ 0 → act ≠ c → e.bit Reg.TB_ATTN 2 = true) ∧ e.time = d.time ∧
      OnlyClock d e := by
  intro act e
  let x := ((d.set Reg.TB_DPLL_VALID d.dpllValid).set Reg.TB_DPLL_ACTIVE c).set Reg.TB_DPLL_HOLD 0
  have he : e = if act ≠ 0 ∧ act ≠ c then x.tbAttend 2 else x := by
    simp only [e, Dev.dpllSelect, Dev.dpllChoice_showValid, h, d.get_set_spares _ (show Fld.Spares Reg.TB_DPLL_VALID Reg.TB_DPLL_ACTIVE by decide)]
    rfl
  have only : OnlyClock d x := (((OnlyClock.refl d).set _ _).set _ _).set _ _
  have active : x.get Reg.TB_DPLL_ACTIVE = c := by
    rw [Dev.get_set_spares _ _ (by decide), Dev.get_set_self _ _ _ (by decide)]
    exact Nat.mod_eq_of_lt hc
  have hold : x.on Reg.TB_DPLL_HOLD = false := Dev.on_set_self _ _ _ (by decide)
  by_cases change : act ≠ 0 ∧ act ≠ c
  · rw [if_pos change] at he
    rw [he, Dev.get_tbAttend _ _ (by decide), Dev.on_tbAttend _ _ (by decide), Dev.tbAttend_time]
    exact ⟨active, hold, fun _ _ => Dev.bit_tbAttend _ (by decide), rfl, only.trans (x.tbAttend_only 2).clock⟩
  · rw [if_neg change] at he
    rw [he]
    exact ⟨active, hold, fun h0 hc => absurd ⟨h0, hc⟩ change, rfl, only⟩

/-- R374: the device with HOLD shown. -/
def Dev.showHold (d : Dev) : Dev := ((d.set Reg.TB_DPLL_ACTIVE 0).set Reg.TB_DPLL_HOLD 1).tbAttend 3

/-- R376: the time state once the DPLL is in HOLD. -/
def holdState (st : Nat) : Nat := if st = 2 then 1 else if st = 3 then 0 else st

theorem Dev.showHold_get {d : Dev} {f : Fld} (h : ∀ g ∈ [Reg.TB_DPLL_ACTIVE, Reg.TB_DPLL_HOLD, Reg.TB_ATTN.part 3], g.Spares f) :
    d.showHold.get f = d.get f := by
  simp only [List.forall_mem_cons] at h
  obtain ⟨active, hold, attn, -⟩ := h
  rw [Dev.showHold, Dev.get_tbAttend _ _ attn, Dev.get_set_spares _ _ hold, Dev.get_set_spares _ _ active]

theorem Dev.showHold_spec (d : Dev) : d.showHold.get Reg.TB_DPLL_ACTIVE = 0 ∧ d.showHold.on Reg.TB_DPLL_HOLD = true ∧
    d.showHold.bit Reg.TB_ATTN 3 = true ∧ d.showHold.time = d.time ∧ OnlyClock d d.showHold := by
  rw [Dev.showHold]
  refine ⟨?_, ?_, Dev.bit_tbAttend _ (by decide), Dev.tbAttend_time _ 3, (((OnlyClock.refl d).set _ _).set _ _).trans (Dev.tbAttend_only _ 3).clock⟩
  · rw [Dev.get_tbAttend _ _ (by decide), Dev.get_set_spares _ _ (by decide), Dev.get_set_self _ _ _ (by decide), Nat.zero_mod]
  · rw [Dev.on_tbAttend _ _ (by decide), Dev.on_set_self _ _ _ (by decide)]
    rfl

theorem Dev.enterHold_eq (d : Dev) : d.enterHold = d.showHold.setTimeState (holdState d.timeState) := by
  have state : d.showHold.timeState = d.timeState := Dev.showHold_get (by decide)
  have run : d.enterHold = if d.showHold.timeState = tsLOCKED then d.showHold.setTimeState tsACQUIRING
      else if d.showHold.timeState = tsHOLDOVER then d.showHold.setTimeState tsFREE else d.showHold := rfl
  rw [run, state, holdState, tsLOCKED, tsHOLDOVER, tsACQUIRING, tsFREE]
  by_cases locked : d.timeState = 2
  · rw [if_pos locked, if_pos locked]
  · rw [if_neg locked, if_neg locked]
    by_cases holdover : d.timeState = 3
    · rw [if_pos holdover, if_pos holdover]
    · rw [if_neg holdover, if_neg holdover, Dev.setTimeState_self _ state]

/-- R374, R376: entering HOLD ends LOCKED and HOLDOVER. -/
theorem Dev.enterHold_spec {d e : Dev} (he : d.enterHold = e) :
    e.get Reg.TB_DPLL_ACTIVE = 0 ∧ e.on Reg.TB_DPLL_HOLD = true ∧ e.bit Reg.TB_ATTN 3 = true ∧ d.timeBecomes e (holdState d.timeState) ∧
      e.time.short = d.time.short ∧ e.time.refs = d.time.refs ∧ OnlyClock d e := by
  rw [d.enterHold_eq] at he
  have state : d.showHold.timeState = d.timeState := Dev.showHold_get (by decide)
  obtain ⟨active, hold, attn, time, only⟩ := d.showHold_spec
  generalize d.showHold = y at *
  have small : holdState d.timeState < 8 ∧ holdState d.timeState ≠ tsHOLDOVER := by
    have : d.timeState < 8 := d.get_lt Reg.TB_STATE_STATE
    rw [holdState, tsHOLDOVER]
    split
    · decide
    · split <;> omega
  have told : d.timeBecomes e (holdState d.timeState) := Dev.timeBecomes_congr state (he ▸ y.timeBecomes_setTimeState small.1)
  have regs := y.setTimeState_regsWithin (.inl small.2)
  have clock := only.trans (y.setTimeState_onlyClock (holdState d.timeState))
  obtain ⟨n, f, b, xs, ht⟩ := y.setTimeState_time (holdState d.timeState)
  rw [he] at regs clock ht
  rw [time] at ht
  rw [Dev.bit_eq_on _ (by decide)] at attn ⊢
  exact ⟨(regs _ (by decide)).trans active, (regs.on (by decide)).trans hold, (regs.on (by decide)).trans attn, told, by rw [ht], by rw [ht], clock⟩

/-- R374: with no reference left the DPLL is in HOLD. -/
theorem Dev.dpllSelect_holds {d e : Dev} (h : d.dpllChoice = none) (he : d.dpllSelect = e) :
    e.on Reg.TB_DPLL_HOLD = true ∧ (d.on Reg.TB_DPLL_HOLD = false → e.get Reg.TB_DPLL_ACTIVE = 0 ∧ e.bit Reg.TB_ATTN 3 = true ∧
      d.timeBecomes e (holdState d.timeState)) ∧ e.time.short = d.time.short ∧ e.time.refs = d.time.refs ∧ OnlyClock d e := by
  have run : d.dpllSelect = if (d.set Reg.TB_DPLL_VALID d.dpllValid).on Reg.TB_DPLL_HOLD = true then d.set Reg.TB_DPLL_VALID d.dpllValid
      else (d.set Reg.TB_DPLL_VALID d.dpllValid).enterHold := by
    simp only [Dev.dpllSelect, Dev.dpllChoice_showValid, h]
  have already := d.on_set_spares d.dpllValid (show Fld.Spares Reg.TB_DPLL_VALID Reg.TB_DPLL_HOLD by decide)
  have state : (d.set Reg.TB_DPLL_VALID d.dpllValid).timeState = d.timeState := Dev.get_set_spares _ _ (by decide)
  have only : OnlyClock d (d.set Reg.TB_DPLL_VALID d.dpllValid) := (OnlyClock.refl d).set _ _
  have time := d.set_time Reg.TB_DPLL_VALID d.dpllValid
  rw [run] at he
  generalize d.set Reg.TB_DPLL_VALID d.dpllValid = x at *
  rw [already] at he
  by_cases held : d.on Reg.TB_DPLL_HOLD = true
  · rw [if_pos held] at he
    subst he
    exact ⟨already.trans held, fun off => absurd held (by simp [off]), by rw [time], by rw [time], only⟩
  · rw [if_neg held] at he
    obtain ⟨active, hold, attn, told, short, refs, clock⟩ := Dev.enterHold_spec he
    rw [state] at told
    rw [time] at short refs
    exact ⟨hold, fun _ => ⟨active, attn, Dev.timeBecomes_congr state told⟩, short, refs, only.trans clock⟩

/-- R374: the DPLL follows the references that are valid now. -/
theorem Dev.dpllSelect_spec (d : Dev) :
    let e := d.dpllSelect
    let usable (c : Nat) : Prop := c ≠ 0 ∧ c ∈ d.time.refs
    let act := d.get Reg.TB_DPLL_ACTIVE
    let keeps := usable act ∧ act ∈ d.dpllSel ∧ d.on Reg.TB_DPLL_REVERT = false
    (keeps → e.get Reg.TB_DPLL_ACTIVE = act ∧ e.on Reg.TB_DPLL_HOLD = false) ∧
    (¬keeps → ∀ pre c post, d.dpllSel = pre ++ c :: post → usable c → (∀ x ∈ pre, ¬usable x) →
      e.get Reg.TB_DPLL_ACTIVE = c ∧ e.on Reg.TB_DPLL_HOLD = false ∧ (act ≠ 0 → act ≠ c → e.bit Reg.TB_ATTN 2 = true)) ∧
    ((∀ c ∈ d.dpllSel, ¬usable c) → e.on Reg.TB_DPLL_HOLD = true ∧ (d.on Reg.TB_DPLL_HOLD = false →
      e.get Reg.TB_DPLL_ACTIVE = 0 ∧ e.bit Reg.TB_ATTN 3 = true ∧
      d.timeBecomes e (holdState d.timeState))) := by
  intro e usable act keeps
  have valid : ∀ c, d.refValid c = true ↔ usable c := d.refValid_iff
  have stays : d.dpllStays ↔ keeps := and_congr_left' (valid act)
  refine ⟨fun k => ?_, fun k pre c post hsel hc hpre => ?_, fun none_usable => ?_⟩
  · obtain ⟨active, hold, -⟩ := Dev.dpllSelect_takes (Dev.dpllChoice_stays (stays.2 k)) (Dev.dpllSel_lt k.2.1)
    exact ⟨active, hold⟩
  · have first : d.dpllSel.find? d.refValid = some c :=
      List.find?_eq_some_iff_append.2 ⟨(valid c).2 hc, pre, post, hsel, fun x hx => by
        rw [Bool.not_eq_true', ← Bool.not_eq_true]
        exact mt (valid x).1 (hpre x hx)⟩
    have choice := (Dev.dpllChoice_leaves (fun st => k (stays.1 st))).trans first
    obtain ⟨active, hold, attn, -⟩ := Dev.dpllSelect_takes choice (Dev.dpllSel_lt (show c ∈ d.dpllSel by simp [hsel]))
    exact ⟨active, hold, attn⟩
  · have leaves : ¬d.dpllStays := fun st => none_usable _ (stays.1 st).2.1 (stays.1 st).1
    have choice : d.dpllChoice = none := by
      rw [Dev.dpllChoice_leaves leaves, List.find?_eq_none]
      exact fun c hc => mt (valid c).1 (none_usable c hc)
    obtain ⟨hold, enters, -⟩ := Dev.dpllSelect_holds choice rfl
    exact ⟨hold, enters⟩

/-- What a selection leaves alone. -/
theorem Dev.dpllSelect_frame (d : Dev) :
    d.dpllSelect.time.short = d.time.short ∧ d.dpllSelect.time.refs = d.time.refs ∧ OnlyClock d d.dpllSelect := by
  rcases choice : d.dpllChoice with _ | c
  · obtain ⟨-, -, short, refs, only⟩ := Dev.dpllSelect_holds choice rfl
    exact ⟨short, refs, only⟩
  · have hc : c < 256 := by
      by_cases stays : d.dpllStays
      · rw [Dev.dpllChoice_stays stays, Option.some.injEq] at choice
        exact choice ▸ d.get_lt Reg.TB_DPLL_ACTIVE
      · rw [Dev.dpllChoice_leaves stays] at choice
        exact Dev.dpllSel_lt (List.mem_of_find?_eq_some choice)
    obtain ⟨-, -, -, time, only⟩ := Dev.dpllSelect_takes choice hc
    exact ⟨congrArg TimeState.short time, congrArg TimeState.refs time, only⟩

theorem synceTx_same {d : Dev} {b : Bool} (h : b = d.on Reg.TB_DPLL_SYNCE_TX) (who : Accessor) : synceTx who b d = d := by
  have value : b2n b = d.get Reg.TB_DPLL_SYNCE_TX := by
    cases b with
    | true => exact (beq_iff_eq.1 h.symm).symm
    | false => exact (Dev.get_of_off rfl h.symm).symm
  rw [synceTx, if_pos value]

theorem synceTx_change {d : Dev} {b : Bool} (h : b ≠ d.on Reg.TB_DPLL_SYNCE_TX) (who : Accessor) :
    ((∀ n < 16, d.stopped (ethFn n) = true) → synceTx who b d = d.set Reg.TB_DPLL_SYNCE_TX (b2n b)) ∧
      ((∃ n < 16, d.stopped (ethFn n) = false) → synceTx who b d = d.cfgReject who Reg.TB_DPLL_SYNCE_TX.off) := by
  have value : b2n b ≠ d.get Reg.TB_DPLL_SYNCE_TX := by
    intro eq
    apply h
    rw [Dev.on, ← eq]
    cases b <;> rfl
  rw [synceTx, if_neg value]
  refine ⟨fun all => if_pos ?_, fun ⟨n, hn, run⟩ => if_neg ?_⟩
  · simpa using all
  · simp only [List.all_eq_true, mem_upFrom]
    exact fun all => absurd (all n (by omega)) (by simp [run])

end Sys2Proof.Machine
end

section
/-! SUPPORT. The time servo (R375–R377): accepted measurements, the steward's updates, and the loss of measurements. -/

namespace Sys2Proof.Machine

/-! ### Signed fields -/

/-- A number that fits n bits reads as it was written there. -/
theorem signed_wrapTo {n : Nat} {x : Int} (lo : -(2 ^ n : Nat) ≤ x) (hi : x < (2 ^ n : Nat)) : signed (wrapTo (n + 1) x) (n + 1) = x := by
  have pos : (0 : Int) < (2 ^ n : Nat) := by positivity
  have twice : 2 ^ (n + 1) = 2 * 2 ^ n := by rw [Nat.pow_succ, Nat.mul_comm]
  unfold signed
  rw [Nat.mod_eq_of_lt (wrapTo_lt _ _)]
  unfold wrapTo
  rw [twice, Nat.add_sub_cancel]
  generalize 2 ^ n = p at *
  push_cast
  rcases lt_or_ge x 0 with neg | nonneg
  · have wrap : x % (2 * (p : Int)) = x + 2 * p := by
      rw [← Int.add_mul_emod_self_left x (2 * (p : Int)) 1, Int.emod_eq_of_lt] <;> omega
    rw [wrap]
    split <;> omega
  · rw [Int.emod_eq_of_lt nonneg (by omega)]
    split <;> omega

/-- A signed word reads as it was written. -/
theorem wrapTo_toInt (x : BitVec 64) : wrapTo 64 x.toInt = x.toNat := by
  have := x.isLt
  rw [wrapTo, BitVec.toInt_eq_toNat_cond]
  split <;> omega

/-! ### Measurements (R375, R376) -/

/-- R376: the time state once a measurement is accepted: FREE, HOLDOVER and COARSE become ACQUIRING. -/
def acceptState (st : Nat) : Nat := if st = 0 ∨ st = 3 ∨ st = 4 then 1 else st

/-- R376: the device with a measurement noted. -/
def Dev.noteMeasurement (d : Dev) : Dev :=
  d.onTime (fun t => { t with measured := t.short, corrected := if acceptState d.timeState = d.timeState then t.corrected else t.short })

theorem Dev.acceptMeasurement_eq (d : Dev) : d.acceptMeasurement = d.noteMeasurement.setTimeState (acceptState d.timeState) := by
  have state : d.noteMeasurement.timeState = d.timeState := Dev.get_onTime _ _ _
  have first : (d.timeState = tsFREE ∨ d.timeState = tsCOARSE ∨ d.timeState = tsHOLDOVER) ↔ acceptState d.timeState ≠ d.timeState := by
    rw [tsFREE, tsCOARSE, tsHOLDOVER, acceptState]
    split <;> omega
  by_cases stays : acceptState d.timeState = d.timeState
  · have idle : ¬(d.timeState = tsFREE ∨ d.timeState = tsCOARSE ∨ d.timeState = tsHOLDOVER) := fun h => first.1 h stays
    rw [stays, Dev.setTimeState_self _ state]
    simp only [Dev.acceptMeasurement, if_neg idle, Dev.noteMeasurement, if_pos stays]
  · have begins := first.2 stays
    have one : acceptState d.timeState = tsACQUIRING := by
      rw [acceptState] at stays ⊢
      split
      · rfl
      · next h => simp [h] at stays
    have note : d.noteMeasurement = d.onTime (fun t => { t with measured := t.short, corrected := t.short }) := by
      simp only [Dev.noteMeasurement, if_neg stays]
    rw [note, one]
    simp only [Dev.acceptMeasurement, if_pos begins]

/-- R376: an accepted measurement is noted, and begins ACQUIRING where the servo has no hold of time. -/
theorem Dev.acceptMeasurement_spec {d e : Dev} (he : d.acceptMeasurement = e) :
    d.timeBecomes e (acceptState d.timeState) ∧ RegsWithin timeStateFields d e ∧ OnlyClock d e ∧
      ∃ c n f b xs, e.time = { d.time with measured := d.time.short, corrected := c, near := n, far := f, stepped := b, freqs := xs } := by
  rw [d.acceptMeasurement_eq] at he
  have state : d.noteMeasurement.timeState = d.timeState := Dev.get_onTime _ _ _
  have regs : RegsWithin timeStateFields d d.noteMeasurement := .of_regs (Dev.onTime_regs _ _)
  have only : OnlyClock d d.noteMeasurement := (OnlyClock.refl d).onTime _
  have time : ∃ c, d.noteMeasurement.time = { d.time with measured := d.time.short, corrected := c } := ⟨_, Dev.onTime_time _ _⟩
  generalize d.noteMeasurement = x at *
  have small : acceptState d.timeState < 8 := by
    have : d.timeState < 8 := d.get_lt Reg.TB_STATE_STATE
    rw [acceptState]
    split <;> omega
  have calm : acceptState d.timeState ≠ tsHOLDOVER ∨ x.timeState = acceptState d.timeState := by
    rw [state, acceptState, tsHOLDOVER]
    split <;> omega
  have told : d.timeBecomes e (acceptState d.timeState) := Dev.timeBecomes_congr state (he ▸ x.timeBecomes_setTimeState small)
  have within := regs.trans (x.setTimeState_regsWithin calm)
  have clock := only.trans (x.setTimeState_onlyClock (acceptState d.timeState))
  obtain ⟨n, f, b, xs, ht⟩ := x.setTimeState_time (acceptState d.timeState)
  obtain ⟨c, hc⟩ := time
  rw [he] at within clock ht
  exact ⟨told, within, clock, c, n, f, b, xs, by rw [ht, hc]⟩

/-- R376: while the servo has hold of time, a measurement is noted and no more. -/
theorem Dev.acceptMeasurement_held {d : Dev} (h : d.timeState = 1 ∨ d.timeState = 2) : d.acceptMeasurement = d.noteMeasurement := by
  have stays : acceptState d.timeState = d.timeState := by rw [acceptState, if_neg (by omega)]
  rw [d.acceptMeasurement_eq, stays]
  exact Dev.setTimeState_self _ (Dev.get_onTime _ _ _)

/-- R376: a measurement that begins ACQUIRING finds no near updates. -/
theorem Dev.acceptMeasurement_begins {d : Dev} (h : d.timeState = 0 ∨ d.timeState = 3 ∨ d.timeState = 4) : d.acceptMeasurement.time.near = 0 := by
  rw [d.acceptMeasurement_eq, acceptState, if_pos h]
  refine Dev.setTimeState_acquiring ?_
  rw [Dev.timeState, Dev.noteMeasurement, Dev.get_onTime, ← Dev.timeState]
  omega

/-- R375: does the servo take the host's measurement? -/
def Dev.takesHostMeasurement (d : Dev) : Prop :=
  d.running .servo = true ∧ d.get Reg.TB_SERVO_SOURCE = 3 ∧
    -(secondUnits : Int) ≤ timeDiff (BitVec.ofNat 64 (d.get64 Reg.TB_HOST_MEAS_AT)) d.time.short

theorem hostMeasurement_taken {d : Dev} (h : d.takesHostMeasurement) : hostMeasurement d = d.acceptMeasurement := by
  obtain ⟨run, source, fresh⟩ := h
  simp [hostMeasurement, run, source, fresh]

theorem hostMeasurement_refused {d : Dev} (h : ¬d.takesHostMeasurement) : hostMeasurement d = d := by
  rw [hostMeasurement]
  refine if_neg fun taken => h ?_
  simpa [Dev.takesHostMeasurement, and_assoc] using taken

/-! ### Updates (R376, R377) -/

/-- R377: the device that shows an update of the steward. -/
def Dev.showUpdate (d : Dev) (offset freq slew : Int) (gm : Nat) : Dev :=
  let x := if d.get Reg.TB_SERVO_SOURCE = 0 then d.set Reg.TB_SERVO_GM_CLASS gm else d
  (x.set64 Reg.TB_SERVO_OFFSET (wrapTo 64 offset)).set Reg.TB_SERVO_FREQ (wrapTo 32 (x.correctedFreq freq slew))

/-- R376, R377: the device that has counted an update. -/
def Dev.takeUpdate (d : Dev) (offset : Int) (accepted : Bool) : Dev :=
  ((if accepted then d.acceptMeasurement else d).onTime (fun t => { t with corrected := t.short })).countUpdate offset

theorem servoUpdate_eq {d : Dev} (runs : d.timeRuns = true) (run : d.running .servo = true) (offset freq slew : Int) (accepted : Bool) (gm : Nat) :
    servoUpdate offset freq slew accepted gm d = ((d.showUpdate offset freq slew gm).takeUpdate offset accepted).judgeUpdate offset := by
  simp [servoUpdate, runs, run, Dev.showUpdate, Dev.takeUpdate]

theorem servoUpdate_idle {d : Dev} (h : d.timeRuns = false ∨ d.running .servo = false) (offset freq slew : Int) (accepted : Bool) (gm : Nat) :
    servoUpdate offset freq slew accepted gm d = d := by
  have : (!d.timeRuns || !d.running .servo) = true := by simpa using h
  rw [servoUpdate, if_pos this]

/-- The fields an update shows. -/
def updateFields : List Fld :=
  [Reg.TB_SERVO_GM_CLASS, Reg.TB_SERVO_OFFSET.word, Reg.TB_SERVO_OFFSET.wordHi, Reg.TB_SERVO_FREQ]

/-- R377: F as an update leaves it. -/
theorem Dev.correctedFreq_eq (d : Dev) (freq slew : Int) :
    d.correctedFreq freq slew = max (-100000 * 256) (min (100000 * 256) (freq + max (-((d.get Reg.TB_SERVO_SLEW_PPB : Int) * 256))
      (min ((d.get Reg.TB_SERVO_SLEW_PPB : Int) * 256) slew))) := rfl

theorem Dev.showUpdate_spec (d : Dev) (offset : BitVec 64) (freq slew : Int) (gm : BitVec 8) :
    let x := d.showUpdate offset.toInt freq slew gm.toNat
    RegsWithin updateFields d x ∧ OnlyRegs d x ∧ x.get64 Reg.TB_SERVO_OFFSET = offset.toNat ∧
      signed (x.get Reg.TB_SERVO_FREQ) 32 = d.correctedFreq freq slew ∧
      (d.get Reg.TB_SERVO_SOURCE = 0 → x.get Reg.TB_SERVO_GM_CLASS = gm.toNat) := by
  have named : ∃ y, (if d.get Reg.TB_SERVO_SOURCE = 0 then d.set Reg.TB_SERVO_GM_CLASS gm.toNat else d) = y ∧ RegsWithin updateFields d y ∧
      OnlyRegs d y ∧ (d.get Reg.TB_SERVO_SOURCE = 0 → y.get Reg.TB_SERVO_GM_CLASS = gm.toNat) := by
    refine ⟨_, rfl, ((RegsWithin.refl _ d).set (by simp [updateFields]) _).ite (.refl _ d), (d.set_only _ _).ite (.refl d), fun h => ?_⟩
    rw [if_pos h, Dev.get_set_self _ _ _ (by decide)]
    exact Nat.mod_eq_of_lt gm.isLt
  obtain ⟨y, hy, regs, only, class_⟩ := named
  have freqs : y.correctedFreq freq slew = d.correctedFreq freq slew := by
    rw [y.correctedFreq_eq, d.correctedFreq_eq, regs Reg.TB_SERVO_SLEW_PPB (by decide)]
  intro x
  have hx : x = (y.set64 Reg.TB_SERVO_OFFSET offset.toNat).set Reg.TB_SERVO_FREQ (wrapTo 32 (d.correctedFreq freq slew)) := by
    simp only [x, Dev.showUpdate, hy, freqs, wrapTo_toInt]
  have onlyX : OnlyRegs d x := hx ▸ (only.set64 _ _).set _ _
  have offsetX := y.get64_set64_self Reg.TB_SERVO_OFFSET offset.isLt
  have set64Within : RegsWithin updateFields d (y.set64 Reg.TB_SERVO_OFFSET offset.toNat) := by
    rw [Dev.set64_eq]
    exact (regs.set (by simp [updateFields]) _).set (by simp [updateFields]) _
  have classX : (y.set64 Reg.TB_SERVO_OFFSET offset.toNat).get Reg.TB_SERVO_GM_CLASS = y.get Reg.TB_SERVO_GM_CLASS := by
    rw [Dev.set64_eq, Dev.get_set_spares _ _ (by decide), Dev.get_set_spares _ _ (by decide)]
  generalize y.set64 Reg.TB_SERVO_OFFSET offset.toNat = z at *
  rw [hx]
  refine ⟨set64Within.set (by simp [updateFields]) _, hx ▸ onlyX, ?_, ?_, fun h => ?_⟩
  · exact (((RegsWithin.refl [Reg.TB_SERVO_FREQ] z).set (by simp) _).get64 (by decide) (by decide)).trans offsetX
  · rw [Dev.get_set_self _ _ _ (by decide)]
    have bound : -25600000 ≤ d.correctedFreq freq slew ∧ d.correctedFreq freq slew ≤ 25600000 := by
      rw [d.correctedFreq_eq]
      omega
    exact (congrArg (signed · 32) (Nat.mod_eq_of_lt (wrapTo_lt 32 _))).trans (signed_wrapTo (by omega) (by omega))
  · rw [Dev.get_set_spares _ _ (by decide), classX, class_ h]

/-- R376: the updates in a row within LOCK_NS, with one of the given offset. -/
def Dev.nearCount (d : Dev) (off : Nat) : Nat := if off ≤ d.get Reg.TB_SERVO_LOCK_NS * 65536 then d.time.near + 1 else 0

/-- R376: the updates in a row beyond 4 × LOCK_NS, with one of the given offset. -/
def Dev.farCount (d : Dev) (off : Nat) : Nat := if 4 * (d.get Reg.TB_SERVO_LOCK_NS * 65536) < off then d.time.far + 1 else 0

theorem Dev.countUpdate_eq (d : Dev) (offset : Int) :
    d.countUpdate offset = d.onTime (fun t => { t with near := d.nearCount offset.natAbs, far := d.farCount offset.natAbs }) := by
  have near : ((offset.natAbs : Int) ≤ (d.get Reg.TB_SERVO_LOCK_NS : Int) * 65536) ↔ offset.natAbs ≤ d.get Reg.TB_SERVO_LOCK_NS * 65536 := by omega
  have far : (4 * ((d.get Reg.TB_SERVO_LOCK_NS : Int) * 65536) < (offset.natAbs : Int)) ↔
      4 * (d.get Reg.TB_SERVO_LOCK_NS * 65536) < offset.natAbs := by omega
  simp only [Dev.countUpdate, Dev.nearCount, Dev.farCount, near, far, decide_eq_true_eq]
  rfl

/-- R376, R377: what counting an update changes. -/
theorem Dev.takeUpdate_spec {d x : Dev} {offset : Int} {accepted : Bool} (hx : d.takeUpdate offset accepted = x) :
    RegsWithin timeStateFields d x ∧ OnlyClock d x ∧ x.time.short = d.time.short ∧ x.time.frac = d.time.frac ∧ x.time.full = d.time.full ∧
      x.time.skips = d.time.skips ∧
      (d.timeState = 1 ∨ d.timeState = 2 → x.timeState = d.timeState ∧ x.time.near = d.nearCount offset.natAbs ∧
        x.time.far = d.farCount offset.natAbs ∧ x.time.stepped = d.time.stepped) ∧
      (accepted = true → d.timeBecomes x (acceptState d.timeState)) ∧ (accepted = false → x.timeState = d.timeState) ∧
      (accepted = true → d.timeState = 0 ∨ d.timeState = 3 ∨ d.timeState = 4 → x.time.near ≤ 1) := by
  rw [Dev.takeUpdate, Dev.countUpdate_eq] at hx
  have taken : ∃ y, (if accepted then d.acceptMeasurement else d) = y ∧ RegsWithin timeStateFields d y ∧ OnlyClock d y ∧
      (∃ m c n f b xs, y.time = { d.time with measured := m, corrected := c, near := n, far := f, stepped := b, freqs := xs }) ∧
      (d.timeState = 1 ∨ d.timeState = 2 → ∃ m c, y = d.onTime (fun t => { t with measured := m, corrected := c })) ∧
      (accepted = true → d.timeBecomes y (acceptState d.timeState)) ∧ (accepted = false → y = d) ∧
      (accepted = true → d.timeState = 0 ∨ d.timeState = 3 ∨ d.timeState = 4 → y.time.near = 0) := by
    cases accepted with
    | false => exact ⟨d, rfl, .refl _ d, .refl d, ⟨_, _, _, _, _, _, rfl⟩, fun _ => ⟨_, _, rfl⟩, by simp, fun _ => rfl, by simp⟩
    | true =>
      obtain ⟨told, regs, only, c, n, f, b, xs, time⟩ := Dev.acceptMeasurement_spec (d := d) rfl
      refine ⟨_, rfl, regs, only, ⟨_, _, _, _, _, _, time⟩, fun held => ?_, fun _ => told, by simp, fun _ => Dev.acceptMeasurement_begins⟩
      exact ⟨_, _, Dev.acceptMeasurement_held held⟩
  obtain ⟨y, hy, regs, only, ⟨m, c, n, f, b, xs, time⟩, held, told, same, fresh⟩ := taken
  rw [hy] at hx
  subst hx
  refine ⟨regs.trans (.of_regs rfl), (only.onTime _).onTime _, ?_, ?_, ?_, ?_, fun h => ?_, fun h => ?_, fun h => ?_, fun h idle => ?_⟩
  · simp only [Dev.onTime_time, time]
  · simp only [Dev.onTime_time, time]
  · simp only [Dev.onTime_time, time]
  · simp only [Dev.onTime_time, time]
  · obtain ⟨m, c, rfl⟩ := held h
    exact ⟨rfl, rfl, rfl, rfl⟩
  · exact told h
  · rw [same h]
    rfl
  · have zero := fresh h idle
    simp only [Dev.onTime_time, Dev.nearCount]
    split <;> omega

/-- R376, R377: does an update of the given offset step time? -/
def Dev.jumps (d : Dev) (off : Nat) : Prop := d.timeState = 1 ∧ d.time.stepped = false ∧ d.get Reg.TB_SERVO_STEP_NS * 65536 < off

theorem Dev.judgeUpdate_jumps {d : Dev} {offset : Int} (h : d.jumps offset.natAbs) :
    d.judgeUpdate offset = (d.onTime (fun t => { t with stepped := true, near := 0 })).phaseStep offset := by
  obtain ⟨state, first, big⟩ := h
  simp only [Dev.judgeUpdate, state, tsACQUIRING, if_true, first, big, and_self]

theorem Dev.judgeUpdate_acquiring {d : Dev} {offset : Int} (state : d.timeState = 1) (h : ¬d.jumps offset.natAbs) :
    d.judgeUpdate offset = if 16 ≤ d.time.near ∧ d.sourceTraceable = true ∧ d.on Reg.TB_DPLL_HOLD = false then d.setTimeState 2 else d := by
  have small : ¬(d.time.stepped = false ∧ (d.get Reg.TB_SERVO_STEP_NS * 65536 : Nat) < offset.natAbs) := fun j => h ⟨state, j.1, j.2⟩
  rw [Dev.judgeUpdate, tsACQUIRING, tsLOCKED, if_pos state, if_neg small]

theorem Dev.judgeUpdate_locked {d : Dev} (offset : Int) (state : d.timeState = 2) :
    d.judgeUpdate offset = if 4 ≤ d.time.far ∨ d.sourceTraceable = false then d.setTimeState 1
      else d.onTime (fun t => { t with freqs := (t.short, d.freqNow) :: t.freqs }) := by
  rw [Dev.judgeUpdate, tsACQUIRING, tsLOCKED, if_neg (by rw [state]; decide), if_pos state]

theorem Dev.judgeUpdate_free {d : Dev} (offset : Int) (acquiring : d.timeState ≠ 1) (locked : d.timeState ≠ 2) : d.judgeUpdate offset = d := by
  rw [Dev.judgeUpdate, tsACQUIRING, tsLOCKED, if_neg acquiring, if_neg locked]

/-- What judging an update leaves alone. -/
theorem Dev.judgeUpdate_frame (d : Dev) (offset : Int) :
    RegsWithin (Reg.TB_ATTN.part 1 :: timeStateFields) d (d.judgeUpdate offset) ∧ OnlyClock d (d.judgeUpdate offset) := by
  have stateOnly := fun st (h : st ≠ tsHOLDOVER) => (d.setTimeState_regsWithin (.inl h)).mono (List.subset_cons_self (Reg.TB_ATTN.part 1) _)
  by_cases acquiring : d.timeState = 1
  · by_cases j : d.jumps offset.natAbs
    · rw [Dev.judgeUpdate_jumps j]
      refine ⟨(RegsWithin.of_regs (Dev.onTime_regs _ _)).trans ((Dev.phaseStep_regsWithin _ _).mono (by simp)), ?_⟩
      exact ((OnlyClock.refl d).onTime _).trans (Dev.phaseStep_onlyClock _ _)
    · rw [Dev.judgeUpdate_acquiring acquiring j]
      exact ⟨(stateOnly 2 (by decide)).ite (.refl _ d), (d.setTimeState_onlyClock 2).ite (.refl d)⟩
  · by_cases locked : d.timeState = 2
    · rw [Dev.judgeUpdate_locked offset locked]
      exact ⟨(stateOnly 1 (by decide)).ite (.of_regs (Dev.onTime_regs _ _)), (d.setTimeState_onlyClock 1).ite ((OnlyClock.refl d).onTime _)⟩
    · rw [Dev.judgeUpdate_free offset acquiring locked]
      exact ⟨.refl _ d, .refl d⟩

/-- R377: a traceable source, once the update of the given clockClass shows. -/
def Dev.traceableAt (d : Dev) (gm : BitVec 8) : Prop := if d.get Reg.TB_SERVO_SOURCE = 0 then gm = 6 else d.on Reg.TB_SERVO_EXT_TRACE = true

/-- R376: may ACQUIRING end in LOCKED with this update? -/
def Dev.locksAt (d : Dev) (offset : BitVec 64) (gm : BitVec 8) : Prop :=
  16 ≤ d.nearCount offset.toInt.natAbs ∧ d.traceableAt gm ∧ d.on Reg.TB_DPLL_HOLD = false

/-- The device x has taken an update of d and is still to judge it. -/
structure UpdateTaken (d x : Dev) (offset : BitVec 64) (freq slew : Int) (accepted : Bool) (gm : BitVec 8) : Prop where
  regs : RegsWithin (updateFields ++ timeStateFields) d x
  only : OnlyClock d x
  shown : x.get64 Reg.TB_SERVO_OFFSET = offset.toNat
  freqs : signed (x.get Reg.TB_SERVO_FREQ) 32 = d.correctedFreq freq slew
  class_ : d.get Reg.TB_SERVO_SOURCE = 0 → x.get Reg.TB_SERVO_GM_CLASS = gm.toNat
  short : x.time.short = d.time.short
  frac : x.time.frac = d.time.frac
  full : x.time.full = d.time.full
  skips : x.time.skips = d.time.skips
  held : d.timeState = 1 ∨ d.timeState = 2 → x.timeState = d.timeState ∧ x.time.near = d.nearCount offset.toInt.natAbs ∧
    x.time.far = d.farCount offset.toInt.natAbs ∧ x.time.stepped = d.time.stepped
  begun : accepted = true → d.timeBecomes x (acceptState d.timeState)
  same : accepted = false → x.timeState = d.timeState
  fresh : accepted = true → d.timeState = 0 ∨ d.timeState = 3 ∨ d.timeState = 4 → x.time.near ≤ 1

theorem updateTaken (d : Dev) (offset : BitVec 64) (freq slew : Int) (accepted : Bool) (gm : BitVec 8) :
    UpdateTaken d ((d.showUpdate offset.toInt freq slew gm.toNat).takeUpdate offset.toInt accepted) offset freq slew accepted gm := by
  obtain ⟨regs, only, off, freqs, class_⟩ := d.showUpdate_spec offset freq slew gm
  have time : (d.showUpdate offset.toInt freq slew gm.toNat).time = d.time := by
    obtain ⟨rs, ev, h⟩ := only
    rw [h]
  generalize d.showUpdate offset.toInt freq slew gm.toNat = y at *
  obtain ⟨regs', only', short, frac, full, skips, held, begun, same, fresh⟩ :=
    Dev.takeUpdate_spec (d := y) (offset := offset.toInt) (accepted := accepted) rfl
  generalize y.takeUpdate offset.toInt accepted = x at *
  have state : y.timeState = d.timeState := regs _ (by decide)
  have lock : y.get Reg.TB_SERVO_LOCK_NS = d.get Reg.TB_SERVO_LOCK_NS := regs _ (by decide)
  have near : y.nearCount offset.toInt.natAbs = d.nearCount offset.toInt.natAbs := by rw [Dev.nearCount, lock, time, Dev.nearCount]
  have far : y.farCount offset.toInt.natAbs = d.farCount offset.toInt.natAbs := by rw [Dev.farCount, lock, time, Dev.farCount]
  rw [time] at short frac full skips
  rw [state, near, far, time] at held
  rw [state] at begun same fresh
  exact ⟨(regs.mono (by simp)).trans (regs'.mono (by simp)), only.clock.trans only', (regs'.get64 (by decide) (by decide)).trans off,
    by rw [regs' _ (by decide)]; exact freqs, fun h => (regs' _ (by decide)).trans (class_ h), short, frac, full, skips, held,
    fun h => Dev.timeBecomes_congr state (begun h), same, fresh⟩

namespace UpdateTaken

variable {d x : Dev} {offset : BitVec 64} {freq slew : Int} {accepted : Bool} {gm : BitVec 8}

theorem get (u : UpdateTaken d x offset freq slew accepted gm) {f : Fld} (h : ∀ g ∈ updateFields ++ timeStateFields, g.Spares f) :
    x.get f = d.get f :=
  u.regs f h

/-- R375: the source is judged by the clockClass that the update brings. -/
theorem traceable_iff (u : UpdateTaken d x offset freq slew accepted gm) : x.sourceTraceable = true ↔ d.traceableAt gm := by
  rw [Dev.sourceTraceable, Dev.traceableAt, u.get (f := Reg.TB_SERVO_SOURCE) (by decide), u.regs.on (f := Reg.TB_SERVO_EXT_TRACE) (by decide)]
  split
  · next h =>
    rw [u.class_ h, beq_iff_eq]
    exact ⟨fun e => BitVec.eq_of_toNat_eq e, fun e => by rw [e]; rfl⟩
  · rfl

theorem jumps_iff (u : UpdateTaken d x offset freq slew accepted gm) (state : d.timeState = 1) :
    x.jumps offset.toInt.natAbs ↔ d.jumps offset.toInt.natAbs := by
  obtain ⟨st, -, -, first⟩ := u.held (.inl state)
  rw [Dev.jumps, Dev.jumps, st, first, u.get (f := Reg.TB_SERVO_STEP_NS) (by decide)]

/-- R377: what every update shows. -/
theorem shows (u : UpdateTaken d x offset freq slew accepted gm) :
    (x.judgeUpdate offset.toInt).get64 Reg.TB_SERVO_OFFSET = offset.toNat ∧ d.clockFrame (x.judgeUpdate offset.toInt) ∧
      (x.judgeUpdate offset.toInt).out = d.out ∧
      (d.get Reg.TB_SERVO_SOURCE = 0 → (x.judgeUpdate offset.toInt).get Reg.TB_SERVO_GM_CLASS = gm.toNat) ∧
      signed ((x.judgeUpdate offset.toInt).get Reg.TB_SERVO_FREQ) 32 = d.correctedFreq freq slew := by
  obtain ⟨regs, only⟩ := x.judgeUpdate_frame offset.toInt
  obtain ⟨frame, out⟩ := (u.only.trans only).frame
  exact ⟨(regs.get64 (by decide) (by decide)).trans u.shown, frame, out, fun h => (regs _ (by decide)).trans (u.class_ h),
    by rw [regs _ (by decide)]; exact u.freqs⟩

/-- R376, R377: a first offset beyond STEP_NS in ACQUIRING steps time. -/
theorem jump (u : UpdateTaken d x offset freq slew accepted gm) (h : d.jumps offset.toInt.natAbs) :
    d.stepped (x.judgeUpdate offset.toInt) offset.toInt ∧ (x.judgeUpdate offset.toInt).time.stepped = true ∧
      (x.judgeUpdate offset.toInt).timeState = 1 := by
  rw [Dev.judgeUpdate_jumps ((u.jumps_iff h.1).2 h)]
  have state : x.timeState = 1 := (u.held (.inl h.1)).1.trans h.1
  refine ⟨Dev.stepped_congr ?_ ?_ ?_ ?_ (Dev.stepped_phaseStep _ _), ?_, ?_⟩
  · rw [Dev.onTime_time]; exact u.short
  · rw [Dev.onTime_time]; exact u.frac
  · rw [Dev.onTime_time]; exact u.full
  · rw [Dev.onTime_time]; exact u.skips
  · rw [Dev.phaseStep_firstStep, Dev.onTime_time]
  · rw [Dev.timeState, Dev.phaseStep_regsWithin _ _ _ (by decide), Dev.get_onTime]
    exact state

/-- R376: in ACQUIRING, LOCKED follows 16 near updates of a traceable source outside HOLD. -/
theorem acquiring (u : UpdateTaken d x offset freq slew accepted gm) (state : d.timeState = 1) (h : ¬d.jumps offset.toInt.natAbs) :
    (d.locksAt offset gm → x.judgeUpdate offset.toInt = x.setTimeState 2) ∧ (¬d.locksAt offset gm → x.judgeUpdate offset.toInt = x) := by
  obtain ⟨st, near, -, -⟩ := u.held (.inl state)
  have locks : d.locksAt offset gm ↔ 16 ≤ d.nearCount offset.toInt.natAbs ∧ x.sourceTraceable = true ∧ d.on Reg.TB_DPLL_HOLD = false := by
    rw [Dev.locksAt, u.traceable_iff]
  rw [Dev.judgeUpdate_acquiring (st.trans state) (fun j => h ((u.jumps_iff state).1 j)), near, u.regs.on (f := Reg.TB_DPLL_HOLD) (by decide)]
  exact ⟨fun h => if_pos (locks.1 h), fun h => if_neg (mt locks.2 h)⟩

/-- R376: LOCKED ends after 4 far updates or without a traceable source. -/
theorem locked (u : UpdateTaken d x offset freq slew accepted gm) (state : d.timeState = 2) :
    (4 ≤ d.farCount offset.toInt.natAbs ∨ ¬d.traceableAt gm → x.judgeUpdate offset.toInt = x.setTimeState 1) ∧
      (d.farCount offset.toInt.natAbs < 4 → d.traceableAt gm →
        x.judgeUpdate offset.toInt = x.onTime (fun t => { t with freqs := (t.short, x.freqNow) :: t.freqs })) := by
  obtain ⟨st, -, far, -⟩ := u.held (.inr state)
  have ends : (4 ≤ d.farCount offset.toInt.natAbs ∨ x.sourceTraceable = false) ↔ 4 ≤ d.farCount offset.toInt.natAbs ∨ ¬d.traceableAt gm := by
    rw [← u.traceable_iff, Bool.not_eq_true]
  rw [Dev.judgeUpdate_locked _ (st.trans state), far]
  refine ⟨fun h => if_pos (ends.2 h), fun near trace => if_neg (mt ends.1 ?_)⟩
  rintro (many | lost)
  · omega
  · exact lost trace

/-- R376: a state without hold of time is left on an accepted measurement alone. -/
theorem idle (u : UpdateTaken d x offset freq slew accepted gm) (state : d.timeState = 0 ∨ d.timeState = 3 ∨ d.timeState = 4) :
    (accepted = true → d.timeBecomes (x.judgeUpdate offset.toInt) 1) ∧ (accepted = false → (x.judgeUpdate offset.toInt).timeState = d.timeState) := by
  refine ⟨fun a => ?_, fun a => ?_⟩
  · have told := u.begun a
    rw [acceptState, if_pos state] at told
    by_cases j : x.jumps offset.toInt.natAbs
    · rw [Dev.judgeUpdate_jumps j]
      exact Dev.timeBecomes_phaseStep _ (Dev.timeBecomes_later told (.of_regs (Dev.onTime_regs _ _)) (fun _ h => h))
    · have few := u.fresh a state
      rw [Dev.judgeUpdate_acquiring told.1 j, if_neg (fun locks => absurd locks.1 (by omega))]
      exact told
  · have st := u.same a
    rw [Dev.judgeUpdate_free _ (by omega) (by omega), st]

end UpdateTaken

end Sys2Proof.Machine
end

section
/-! SUPPORT. The loss of measurements (R376, R377) and the statement of the time servo. -/

namespace Sys2Proof.Machine

/-! ### The loss of measurements -/

theorem msUnits_eq (n : Nat) : msUnits n = (n : Int) * (10 ^ 6 * 65536) := by
  unfold msUnits
  omega

/-- R376: has the servo been LOSS_MS without a measurement or a correction? -/
def Dev.measurementLost (d : Dev) : Prop :=
  (d.get Reg.TB_SERVO_LOSS_MS : Int) * (10 ^ 6 * 65536) ≤ timeDiff d.time.short d.time.measured ∨
    (d.get Reg.TB_SERVO_LOSS_MS : Int) * (10 ^ 6 * 65536) ≤ timeDiff d.time.short d.time.corrected

/-- R376: the time state once measurements are lost. -/
def lossState (st : Nat) : Nat := if st = 2 then 3 else 0

theorem measurementLoss_kept {d : Dev}
    (h : d.timeRuns = false ∨ d.running .servo = false ∨ ¬d.measurementLost ∨ (d.timeState ≠ 1 ∧ d.timeState ≠ 2)) :
    measurementLoss d = d := by
  rw [measurementLoss]
  refine if_neg fun lost => ?_
  simp only [Bool.and_eq_true, Bool.or_eq_true, decide_eq_true_eq, beq_iff_eq, tsLOCKED, tsACQUIRING, msUnits_eq] at lost
  obtain ⟨⟨⟨runs, run⟩, lost⟩, state⟩ := lost
  rcases h with h | h | h | h
  · simp [h] at runs
  · simp [h] at run
  · exact h lost
  · omega

theorem measurementLoss_lost {d : Dev} (runs : d.timeRuns = true) (run : d.running .servo = true) (lost : d.measurementLost)
    (state : d.timeState = 1 ∨ d.timeState = 2) : measurementLoss d = (d.setTimeState (lossState d.timeState)).tbAttend 4 := by
  have stops : d.servoStops = d.setTimeState (lossState d.timeState) := by
    rw [Dev.servoStops, tsLOCKED, tsACQUIRING, tsHOLDOVER, tsFREE, lossState]
    rcases state with state | state
    · rw [if_neg (by omega), if_pos state, if_neg (by omega)]
    · rw [if_pos state, if_pos state]
  rw [measurementLoss, if_pos, stops]
  simp only [Bool.and_eq_true, Bool.or_eq_true, decide_eq_true_eq, beq_iff_eq, tsLOCKED, tsACQUIRING, msUnits_eq]
  exact ⟨⟨⟨runs, run⟩, lost⟩, state.symm⟩

/-- R376: what a loss of measurements does, F apart. -/
theorem lossOf_spec {d e : Dev} (he : (d.setTimeState (lossState d.timeState)).tbAttend 4 = e) :
    d.timeBecomes e (lossState d.timeState) ∧ e.bit Reg.TB_ATTN 4 = true ∧ e.time.short = d.time.short ∧ d.clockFrame e ∧ e.out = d.out ∧
      (d.timeState = 1 → e.get Reg.TB_SERVO_FREQ = d.get Reg.TB_SERVO_FREQ) := by
  have small : lossState d.timeState < 8 := by
    rw [lossState]
    split <;> decide
  have told := d.timeBecomes_setTimeState small
  have only := d.setTimeState_onlyClock (lossState d.timeState)
  obtain ⟨n, f, b, xs, time⟩ := d.setTimeState_time (lossState d.timeState)
  have free : d.timeState = 1 → RegsWithin timeStateFields d (d.setTimeState (lossState d.timeState)) := fun h =>
    d.setTimeState_regsWithin (.inl (by rw [lossState, if_neg (by omega)]; decide))
  generalize d.setTimeState (lossState d.timeState) = x at *
  subst he
  obtain ⟨frame, out⟩ := (only.trans (x.tbAttend_only 4).clock).frame
  refine ⟨Dev.timeBecomes_tbAttend told (by simp [otherAttention]), Dev.bit_tbAttend _ (by decide), ?_, frame, out, fun h => ?_⟩
  · rw [Dev.tbAttend_time, time]
  · rw [Dev.get_tbAttend _ _ (by decide), free h _ (by decide)]

/-- The time between two readings of short time, through a third, where neither part is negative. -/
theorem timeDiff_trans {a b c : ShortTime} (hab : 0 ≤ timeDiff a b) (hbc : 0 ≤ timeDiff b c) (h : timeDiff a b + timeDiff b c < 2 ^ 63) :
    timeDiff a c = timeDiff a b + timeDiff b c := by
  have sum : a - c = (a - b) + (b - c) := by bv_omega
  unfold timeDiff at *
  rw [sum, BitVec.toInt_add, Int.bmod_eq_of_le] <;> omega

/-- A time not yet a span ago lies after the start of the span. -/
theorem timeDiff_sub {now t s : ShortTime} {n : Nat} (hs : s = BitVec.ofNat 64 n) (hn : n < 2 ^ 62)
    (lo : 0 ≤ timeDiff now t) (hi : timeDiff now t ≤ n) :
    0 ≤ timeDiff t (now - s) := by
  have shift : t - (now - s) = s - (now - t) := by bv_omega
  unfold timeDiff at *
  have size : s.toInt = n := by
    rw [hs, BitVec.toInt_ofNat', Int.bmod_eq_of_le] <;> omega
  rw [shift, BitVec.toInt_sub, size, Int.bmod_eq_of_le] <;> omega

/-- R377: the mean of F over two spans within the last 60 s. -/
theorem meanFreq_two {now first second : ShortTime} {f g : Int} (ha : 0 < timeDiff now first) (hb : 0 < timeDiff first second)
    (within : timeDiff now first + timeDiff first second ≤ 60 * 10 ^ 9 * 65536) :
    meanFreq (now - nsTime 60000000000) now [(first, f), (second, g)] =
      (f * timeDiff now first + g * timeDiff first second, timeDiff now first + timeDiff first second) := by
  have whole := timeDiff_trans ha.le hb.le (by omega)
  have minute : nsTime 60000000000 = BitVec.ofNat 64 (60 * 10 ^ 9 * 65536) := rfl
  have early := timeDiff_sub (now := now) (t := first) minute (by norm_num) ha.le (by omega)
  have earlier := timeDiff_sub (now := now) (t := second) minute (by norm_num) (by omega) (by omega)
  simp only [meanFreq, if_neg (not_lt.2 early), if_neg (not_lt.2 earlier), max_eq_right ha.le, max_eq_right hb.le, add_zero]

/-- A mean weighed by positive spans lies between its values. -/
theorem weighted_mean_bounds {f g a b lo hi : Int} (ha : 0 < a) (hb : 0 < b) (hf : lo ≤ f ∧ f < hi) (hg : lo ≤ g ∧ g < hi) :
    lo ≤ (f * a + g * b) / (a + b) ∧ (f * a + g * b) / (a + b) < hi := by
  constructor
  · rw [Int.le_ediv_iff_mul_le (by omega)]
    nlinarith
  · rw [Int.ediv_lt_iff_lt_mul (by omega)]
    nlinarith

/-- R377: HOLDOVER runs at the mean of F over the last 60 s of LOCKED. -/
theorem holdover_freq {d : Dev} {first second : ShortTime} {f g : Int} (state : d.timeState = 2) (freqs : d.time.freqs = [(first, f), (second, g)])
    (ha : 0 < timeDiff d.time.short first) (hb : 0 < timeDiff first second)
    (within : timeDiff d.time.short first + timeDiff first second ≤ 60 * 10 ^ 9 * 65536) (hf : -2 ^ 31 ≤ f ∧ f < 2 ^ 31)
    (hg : -2 ^ 31 ≤ g ∧ g < 2 ^ 31) :
    signed (((d.setTimeState (lossState d.timeState)).tbAttend 4).get Reg.TB_SERVO_FREQ) 32 =
      (f * timeDiff d.time.short first + g * timeDiff first second) / (timeDiff d.time.short first + timeDiff first second) := by
  have mean := meanFreq_two (f := f) (g := g) ha hb within
  obtain ⟨lo, hi⟩ := weighted_mean_bounds ha hb hf hg
  have entry : d.timeEntry 3 = d.set Reg.TB_SERVO_FREQ (wrapTo 32
      ((f * timeDiff d.time.short first + g * timeDiff first second) / (timeDiff d.time.short first + timeDiff first second))) := by
    simp only [Dev.timeEntry, freqs, mean, if_neg (show ¬timeDiff d.time.short first + timeDiff first second ≤ 0 by omega)]
    rfl
  generalize (f * timeDiff d.time.short first + g * timeDiff first second) / (timeDiff d.time.short first + timeDiff first second) = m at *
  have target : lossState d.timeState = 3 := if_pos state
  rw [target, Dev.get_tbAttend _ _ (by decide), Dev.setTimeState_change _ (by omega), Dev.showTimeState_regsWithin _ _ _ (by decide), entry,
    Dev.get_set_self _ _ _ (by decide)]
  exact (congrArg (signed · 32) (Nat.mod_eq_of_lt (wrapTo_lt 32 _))).trans (signed_wrapTo (by omega) (by omega))

/-! ### The statement -/

theorem shortTimeBroadcast_stopped {d : Dev} (h : d.timeRuns = false) : shortTimeBroadcast d = d := by simp [shortTimeBroadcast, h]
theorem referenceInvalid_stopped {d : Dev} (h : d.timeRuns = false) (code : Nat) : referenceInvalid code d = d := by simp [referenceInvalid, h]
theorem referenceValid_stopped {d : Dev} (h : d.timeRuns = false) (code : Nat) : referenceValid code d = d := by simp [referenceValid, h]

/-- R374: the device on which a reference has become valid or invalid, before the DPLL looks. -/
def Dev.markReference (d : Dev) (good : Bool) (code : Nat) : Dev :=
  d.onTime (fun t => { t with refs := if good then insertOnce code t.refs else t.refs.filter (· != code) })

theorem Dev.mem_refs_markReference (d : Dev) (good : Bool) (code c : Nat) :
    c ∈ (d.markReference good code).time.refs ↔ if good then c = code ∨ c ∈ d.time.refs else c ≠ code ∧ c ∈ d.time.refs := by
  cases good with
  | true => simp [Dev.markReference, mem_insertOnce]
  | false => simp [Dev.markReference, and_comm]

theorem exec_reference (good : Bool) (code : BitVec 8) {s : State} (h : s.dev.timeRuns = true) (P : Dev → Prop) :
    Completes (if good then .referenceValid code else .referenceInvalid code) s P ↔ P (s.dev.markReference good code.toNat).dpllSelect := by
  cases good with
  | true =>
    rw [if_pos rfl, completes_iff_of_exec (exec_referenceValid _ _)]
    simp [referenceValid, h, Dev.markReference]
  | false =>
    rw [if_neg (by decide), completes_iff_of_exec (exec_referenceInvalid _ _)]
    simp [referenceInvalid, h, Dev.markReference]

/-- A commit without effect, whether or not the write reaches its word. -/
theorem mapped_hostMeasurement_refused {d : Dev} (who : Accessor) (h : ¬d.takesHostMeasurement) :
    d.mapped who Reg.TB_HOST_MEAS_COMMIT.off hostMeasurement = d := by
  by_cases m : d.reaches who Reg.TB_HOST_MEAS_COMMIT.off = true
  · exact (Dev.mapped_reached m _).trans (hostMeasurement_refused h)
  · exact Dev.mapped_unreached m _

/-- R377: what a correction does to F, the time and the time state. -/
theorem update_spec {d x : Dev} {offset : BitVec 64} {freq slew : Int} {accepted : Bool} {gm : BitVec 8}
    (u : UpdateTaken d x offset freq slew accepted gm) :
    let e := x.judgeUpdate offset.toInt
    let jumps := d.jumps offset.toInt.natAbs
    let near := d.nearCount offset.toInt.natAbs
    let far := d.farCount offset.toInt.natAbs
    (d.timeState = 1 → ¬jumps → 16 ≤ near → d.traceableAt gm → d.on Reg.TB_DPLL_HOLD = false → d.timeBecomes e 2) ∧
      (d.timeState = 1 → ¬jumps → near < 16 ∨ ¬d.traceableAt gm ∨ d.on Reg.TB_DPLL_HOLD = true → e.timeState = 1 ∧ e.time.near = near) ∧
      (d.timeState = 2 → 4 ≤ far ∨ ¬d.traceableAt gm → d.timeBecomes e 1) ∧
      (d.timeState = 2 → far < 4 → d.traceableAt gm → e.timeState = 2 ∧ e.time.far = far) ∧
      (¬jumps → d.timeState = 1 ∨ d.timeState = 2 → e.time.short = d.time.short ∧ e.time.full = d.time.full) := by
  intro e jumps near far
  have becomes {st : Nat} (held : d.timeState = 1 ∨ d.timeState = 2) (small : st < 8) : d.timeBecomes (x.setTimeState st) st :=
    Dev.timeBecomes_congr (u.held held).1 (x.timeBecomes_setTimeState small)
  have keeps (st : Nat) : (x.setTimeState st).time.short = d.time.short ∧ (x.setTimeState st).time.full = d.time.full := by
    obtain ⟨n, f, b, xs, time⟩ := x.setTimeState_time st
    rw [time]
    exact ⟨u.short, u.full⟩
  refine ⟨fun st j hn ht hh => ?_, fun st j h => ?_, fun st h => ?_, fun st hf ht => ?_, fun j st => ?_⟩
  · rw [show e = _ from (u.acquiring st j).1 ⟨hn, ht, hh⟩]
    exact becomes (.inl st) (by decide)
  · have stays : ¬d.locksAt offset gm := fun ⟨hn, ht, hh⟩ => by
      rcases h with h | h | h
      · exact absurd hn (by omega)
      · exact h ht
      · simp [hh] at h
    obtain ⟨same, hnear, -, -⟩ := u.held (.inl st)
    rw [show e = _ from (u.acquiring st j).2 stays]
    exact ⟨same.trans st, hnear⟩
  · rw [show e = _ from (u.locked st).1 h]
    exact becomes (.inr st) (by decide)
  · obtain ⟨same, -, hfar, -⟩ := u.held (.inr st)
    rw [show e = _ from (u.locked st).2 hf ht]
    exact ⟨same.trans st, hfar⟩
  · rcases st with st | st
    · by_cases locks : d.locksAt offset gm
      · rw [show e = _ from (u.acquiring st j).1 locks]
        exact keeps 2
      · rw [show e = _ from (u.acquiring st j).2 locks]
        exact ⟨u.short, u.full⟩
    · by_cases ends : 4 ≤ far ∨ ¬d.traceableAt gm
      · rw [show e = _ from (u.locked st).1 ends]
        exact keeps 1
      · rw [not_or, not_not, not_le] at ends
        rw [show e = _ from (u.locked st).2 ends.1 ends.2]
        exact ⟨u.short, u.full⟩

/-- Settles O46, clause by clause: counting, steering by the host, references, the servo's updates, measurements and their loss. -/
theorem timeServo : Obligations.TimeServo := by
  unfold Obligations.TimeServo
  intro s who code gm on_ accepted value freq slew offset d runs free may st f rate part phase
  have unreached {off : Nat} {g : Dev → Dev} (h : ¬d.reaches who off = true) : d.mapped who off g = d := Dev.mapped_unreached h g
  have reached {off : Nat} {g : Dev → Dev} (h : d.reaches who off = true) : d.mapped who off g = g d := Dev.mapped_reached h g
  refine ⟨fun h => ?_, fun h => ?_, ?_, fun h => ?_, fun h => ?_, fun h => ⟨?_, ?_⟩, fun h busy => ?_, fun h idle => ?_, fun h busy => ⟨?_, ?_⟩,
    fun h idle calm => ⟨?_, fun z => ?_, fun nz => ?_⟩, fun h bad => ?_, fun h idle good => ?_, fun h small => ?_, fun good h => ?_,
    ⟨fun h => ?_, fun h change all => ?_, fun h change some_ => ?_⟩,
    fun h => ⟨?_, ?_, ?_⟩, fun h run => ?_, ⟨fun h run source fresh => ?_, fun h => ?_⟩, ⟨fun h run lost state => ?_, fun h => ?_⟩⟩
  · have off : d.timeRuns = false := by simpa [runs] using h
    exact ⟨(gives_iff_of_exec (exec_shortTimeBroadcast s)).2 (shortTimeBroadcast_stopped off),
      (gives_iff_of_exec (exec_referenceInvalid code s)).2 (referenceInvalid_stopped off _),
      (gives_iff_of_exec (exec_referenceValid code s)).2 (referenceValid_stopped off _),
      (gives_iff_of_exec (exec_servoUpdate ..)).2 (servoUpdate_idle (.inl off) ..),
      (gives_iff_of_exec (exec_measurementLoss s)).2 (measurementLoss_kept (.inl off))⟩
  · exact (completes_iff_of_exec (exec_shortTimeBroadcast s)).2 (shortTimeBroadcast_spec h)
  · exact (gives_iff_of_exec (exec_slewComplete s)).2 (slewComplete_eq d)
  · exact (gives_iff_of_exec (exec_tbAdjFreqWrite who value s)).2 (unreached h)
  · exact (gives_iff_of_exec (exec_tbSetGo who s)).2 (unreached h)
  · exact (gives_iff_of_exec (exec_tbAdjGoStep who s)).2 (unreached h)
  · exact (gives_iff_of_exec (exec_tbAdjGoSlew who s)).2 (unreached h)
  · exact (gives_iff_of_exec (exec_tbAdjFreqWrite who value s)).2 ((reached h).trans (adjFreq_rejected busy who _))
  · rw [completes_iff_of_exec (exec_tbAdjFreqWrite who value s), reached h]
    exact adjFreq_spec idle who value
  · exact (gives_iff_of_exec (exec_tbAdjGoStep who s)).2 ((reached h).trans (adjGo_rejected busy false who))
  · exact (gives_iff_of_exec (exec_tbAdjGoSlew who s)).2 ((reached h).trans (adjGo_rejected busy true who))
  · rw [completes_iff_of_exec (exec_tbAdjGoStep who s), reached h, adjGo_steps idle calm (.inl rfl)]
    exact ⟨Dev.stepped_phaseStep d phase, (Dev.phaseStep_onlyClock d phase).frame⟩
  · rw [completes_iff_of_exec (exec_tbAdjGoSlew who s), reached h, adjGo_steps idle calm (.inr z)]
    exact ⟨Dev.stepped_phaseStep d phase, (Dev.phaseStep_onlyClock d phase).frame⟩
  · rw [completes_iff_of_exec (exec_tbAdjGoSlew who s), reached h, adjGo_slews idle calm nz]
    exact Dev.beginSlew_spec d phase
  · exact (gives_iff_of_exec (exec_tbSetGo who s)).2 ((reached h).trans (setGo_rejected bad who))
  · rw [completes_iff_of_exec (exec_tbSetGo who s), reached h]
    exact setGo_spec idle good rfl
  · rw [completes_iff_of_exec (exec_tbSnapGo who s), reached h]
    exact snapGo_spec small rfl
  · rw [exec_reference good code h]
    obtain ⟨keeps, takes, holds⟩ := (d.markReference good code.toNat).dpllSelect_spec
    obtain ⟨short, refs, only⟩ := (d.markReference good code.toNat).dpllSelect_frame
    have mem (c : Nat) := d.mem_refs_markReference good code.toNat c
    rw [← refs] at keeps takes holds mem
    obtain ⟨frame, out⟩ := (((OnlyClock.refl d).onTime _).trans only).frame
    exact ⟨mem, keeps, takes, holds, short, frame, out⟩
  · rw [gives_iff_of_exec (exec_synceTxWrite who on_ s)]
    by_cases m : may Reg.TB_DPLL_SYNCE_TX
    · exact (reached m).trans (synceTx_same (h.resolve_left (not_not_intro m)) who)
    · exact unreached m
  · exact (gives_iff_of_exec (exec_synceTxWrite who on_ s)).2 ((reached h).trans ((synceTx_change change who).1 all))
  · exact (gives_iff_of_exec (exec_synceTxWrite who on_ s)).2 ((reached h).trans ((synceTx_change change who).2 some_))
  · exact (gives_iff_of_exec (exec_servoUpdate ..)).2 (servoUpdate_idle (.inr h) ..)
  · exact (gives_iff_of_exec (exec_measurementLoss s)).2 (measurementLoss_kept (.inr (.inl h)))
  · exact (gives_iff_of_exec (exec_tbHostMeasCommit who s)).2
      (mapped_hostMeasurement_refused who fun ⟨run, _⟩ => Bool.false_ne_true (h.symm.trans run))
  · rw [completes_iff_of_exec (exec_servoUpdate ..), servoUpdate_eq h run]
    have u := updateTaken d offset freq.toInt slew.toInt accepted gm
    obtain ⟨shown, frame, out, class_, freqs⟩ := u.shows
    obtain ⟨locks, acquires, unlocks, holds, time⟩ := update_spec u
    exact ⟨shown, frame, out, class_, freqs.trans (d.correctedFreq_eq _ _), u.jump, locks, acquires, unlocks, holds, u.idle, time⟩
  · rw [completes_iff_of_exec (exec_tbHostMeasCommit who s), reached h, hostMeasurement_taken ⟨run, source, fresh⟩]
    obtain ⟨told, -, only, c, n, f, b, xs, time⟩ := Dev.acceptMeasurement_spec (d := d) rfl
    rw [time]
    exact ⟨rfl, told, rfl, only.frame⟩
  · rw [gives_iff_of_exec (exec_tbHostMeasCommit who s)]
    rcases h with h | h | h
    · exact unreached h
    · exact mapped_hostMeasurement_refused who fun ⟨_, source, _⟩ => h source
    · exact mapped_hostMeasurement_refused who fun ⟨_, _, fresh⟩ => h fresh
  · rw [completes_iff_of_exec (exec_measurementLoss s), measurementLoss_lost h run lost state]
    obtain ⟨told, attn, short, frame, out, same⟩ := lossOf_spec (d := d) rfl
    exact ⟨told, attn, short, frame, out, same, fun t1 t0 f1 f0 locked freqs ha hb within lo1 hi1 lo0 hi0 =>
      holdover_freq locked freqs ha hb within ⟨lo1, hi1⟩ ⟨lo0, hi0⟩⟩
  · exact (gives_iff_of_exec (exec_measurementLoss s)).2 (measurementLoss_kept (.inr (.inr h)))

end Sys2Proof.Machine
end

section
/-! SUPPORT. The power controller (R448, R457): what its steps leave alone, requests, and the critical levels of temperature. -/

namespace Sys2Proof.Machine

/-! ### What its steps leave alone -/

/-- The second device differs from the first in registers, the event fabric and the power controller alone. -/
def OnlyPower (d e : Dev) : Prop := ∃ rs ev p, e = { d with regs := rs, evt := ev, power := p }

theorem OnlyPower.trans {d e f : Dev} (h : OnlyPower d e) (g : OnlyPower e f) : OnlyPower d f := by
  obtain ⟨_, _, _, rfl⟩ := h; obtain ⟨rs, ev, p, rfl⟩ := g; exact ⟨rs, ev, p, rfl⟩

theorem OnlyPower.frame {d e : Dev} (h : OnlyPower d e) : e.mem = d.mem ∧ e.jfe = d.jfe ∧ e.cores = d.cores ∧ e.tsu = d.tsu ∧ e.sec = d.sec ∧
    e.time = d.time ∧ e.out = d.out := by
  obtain ⟨_, _, _, rfl⟩ := h
  exact ⟨rfl, rfl, rfl, rfl, rfl, rfl, rfl⟩

theorem OnlyRegs.power {d e : Dev} (h : OnlyRegs d e) : OnlyPower d e := by
  obtain ⟨rs, ev, rfl⟩ := h; exact ⟨rs, ev, d.power, rfl⟩

theorem OnlyRegs.power_eq {d e : Dev} (h : OnlyRegs d e) : e.power = d.power := by
  obtain ⟨rs, ev, rfl⟩ := h; rfl

/-- From d to e the listed fields alone change, and of the power controller no record of readings. -/
structure PowerStep (ws : List Fld) (d e : Dev) : Prop where
  regs : RegsWithin ws d e
  only : OnlyPower d e
  rounds : e.power.rounds = d.power.rounds
  cool : e.power.coolRounds = d.power.coolRounds
  hbmCool : e.power.hbmCoolRounds = d.power.hbmCoolRounds

namespace PowerStep

variable {ws vs : List Fld} {d e f : Dev}

theorem of_onlyRegs (regs : RegsWithin ws d e) (only : OnlyRegs d e) : PowerStep ws d e := by
  refine ⟨regs, only.power, ?_, ?_, ?_⟩ <;> rw [only.power_eq]

theorem refl (ws : List Fld) (d : Dev) : PowerStep ws d d := of_onlyRegs (.refl ws d) (.refl d)

theorem trans (h : PowerStep ws d e) (g : PowerStep ws e f) : PowerStep ws d f :=
  ⟨h.regs.trans g.regs, h.only.trans g.only, g.rounds.trans h.rounds, g.cool.trans h.cool, g.hbmCool.trans h.hbmCool⟩

theorem mono (h : PowerStep ws d e) (hs : ws ⊆ vs) : PowerStep vs d e := { h with regs := h.regs.mono hs }

theorem set (h : PowerStep ws d e) {x : Fld} (hx : x ∈ ws) (v : Nat) : PowerStep ws d (e.set x v) :=
  h.trans (of_onlyRegs ((RegsWithin.refl ws e).set hx v) (e.set_only x v))

theorem bump (h : PowerStep ws d e) {x : Fld} (hx : x ∈ ws) : PowerStep ws d (e.bump x) := h.set hx _

theorem onPower (h : PowerStep ws d e) {g : PowerState → PowerState} (rounds : (g e.power).rounds = e.power.rounds)
    (cool : (g e.power).coolRounds = e.power.coolRounds) (hbmCool : (g e.power).hbmCoolRounds = e.power.hbmCoolRounds) :
    PowerStep ws d (e.onPower g) :=
  h.trans ⟨.of_regs rfl, ⟨e.regs, e.evt, g e.power, rfl⟩, rounds, cool, hbmCool⟩

theorem ite {c : Prop} [Decidable c] (h : PowerStep ws d e) (g : PowerStep ws d f) : PowerStep ws d (if c then e else f) := by
  split
  · exact h
  · exact g

theorem each {α : Type} {g : Dev → α → Dev} {xs : List α} (h : ∀ d, ∀ x ∈ xs, PowerStep ws d (g d x)) (d : Dev) : PowerStep ws d (d.each xs g) :=
  Dev.each_rel_mem (refl ws) trans h d

theorem get (h : PowerStep ws d e) {x : Fld} (hx : ∀ g ∈ ws, g.Spares x) : e.get x = d.get x := h.regs x hx

theorem on (h : PowerStep ws d e) {x : Fld} (hx : ∀ g ∈ ws, g.Spares x) : e.on x = d.on x := h.regs.on hx

end PowerStep

/-! ### Attention -/

theorem Dev.pwrAttend_only (d : Dev) (k : Nat) : OnlyRegs d (d.pwrAttend k) := d.attend_only _ _

theorem Dev.pwrAttend_eq (d : Dev) (k : Nat) : d.pwrAttend k = d.attend (Reg.PWR_ATTN.part k) 0x7CE := by
  simp [Dev.pwrAttend, Fld.part, Reg.PWR_ATTN]

theorem Dev.pwrAttend_regsWithin (d : Dev) (k : Nat) : RegsWithin [Reg.PWR_ATTN.part k] d (d.pwrAttend k) := by
  rw [Dev.pwrAttend_eq]
  exact ((RegsWithin.refl _ d).set (List.mem_singleton.2 rfl) 1).trans (.of_regs (Dev.relevel_regs _ _))

theorem Dev.get_pwrAttend (d : Dev) (k : Nat) {f : Fld} (h : (Reg.PWR_ATTN.part k).Spares f) : (d.pwrAttend k).get f = d.get f :=
  d.pwrAttend_regsWithin k f (by simpa using h)

theorem Dev.on_pwrAttend (d : Dev) (k : Nat) {f : Fld} (h : (Reg.PWR_ATTN.part k).Spares f) : (d.pwrAttend k).on f = d.on f := by
  rw [Dev.on, d.get_pwrAttend k h, Dev.on]

theorem Dev.on_pwrAttend_self (d : Dev) {k : Nat} (h : k < 6) : (d.pwrAttend k).on (Reg.PWR_ATTN.part k) = true := by
  have room : (Reg.PWR_ATTN.part k).lo + (Reg.PWR_ATTN.part k).w ≤ 32 := by simp [Reg.PWR_ATTN]; omega
  rw [Dev.pwrAttend_eq, Dev.on_attend, Dev.on_set_self _ _ _ room]
  rfl

/-! ### Requests (R448) -/

/-- The fields that tell of the pending request. -/
def pendingFields : List Fld :=
  [Reg.PWR_STATUS_PENDING, Reg.PWR_STATUS_HELD, Reg.PWR_STATUS_PENDING_TARGET, Reg.PWR_STATUS_REPLACED]

/-- The fields that the start of a transition sets, those of PWR_STATUS and PWR_STATUS2 apart. -/
def wakeFields : List Fld :=
  [Reg.PWR_WAKE_REC_SOURCE, Reg.PWR_WAKE_REC_TIME.word, Reg.PWR_WAKE_REC_TIME.wordHi] ++ (upFrom 0 22).map Reg.PWR_DOM_BUSY

/-- The fields that requests and the start of a transition set. -/
def requestFields : List Fld :=
  [Reg.PWR_STATUS_TARGET, Reg.PWR_STATUS_IN_PROGRESS, Reg.PWR_STATUS2_LAST_CAUSE, Reg.PWR_STATUS2_MERGED] ++ pendingFields ++ wakeFields

theorem pendingFields_subset : pendingFields ⊆ requestFields := fun _ h => List.mem_append_left _ (List.mem_append_right _ h)

theorem wakeFields_subset : wakeFields ⊆ requestFields := List.subset_append_right _ _

theorem Dev.noPending_step (d : Dev) : PowerStep pendingFields d d.noPending :=
  ((((PowerStep.refl _ d).set (by decide) _).set (by decide) _).set (by decide) _).onPower rfl rfl rfl

theorem Dev.noPending_off (d : Dev) : d.noPending.on Reg.PWR_STATUS_PENDING = false := by
  rw [Dev.noPending, Dev.on_onPower, Dev.on_set_spares _ _ (by decide), Dev.on_set_spares _ _ (by decide), Dev.on_set_self _ _ _ (by decide)]
  rfl

theorem Dev.discardPending_step (d : Dev) : PowerStep pendingFields d d.discardPending := by
  unfold Dev.discardPending
  exact (((PowerStep.refl _ d).bump (by decide)).trans (Dev.noPending_step _)).ite (.refl _ d)

theorem Dev.discardPending_off (d : Dev) : d.discardPending.on Reg.PWR_STATUS_PENDING = false := by
  unfold Dev.discardPending
  split
  · exact Dev.noPending_off _
  · next h => exact Bool.eq_false_iff.2 h

/-- R448 rule 4: what a pending request shows. -/
theorem Dev.pend_spec (d : Dev) {target : Nat} (ht : target < 8) (cause : Nat) (code : Option (Nat × ShortTime)) (held : Bool) :
    let e := d.pend target cause code held
    PowerStep pendingFields d e ∧ e.on Reg.PWR_STATUS_PENDING = true ∧ e.get Reg.PWR_STATUS_PENDING_TARGET = target ∧
      e.on Reg.PWR_STATUS_HELD = held ∧ e.power.pendCause = cause := by
  intro e
  have he : e = (((d.discardPending.set Reg.PWR_STATUS_PENDING 1).set Reg.PWR_STATUS_HELD (b2n held)).set Reg.PWR_STATUS_PENDING_TARGET
    target).onPower (fun p => { p with pendCause := cause, pendCode := code }) := rfl
  rw [he]
  refine ⟨(((d.discardPending_step.set (by decide) _).set (by decide) _).set (by decide) _).onPower rfl rfl rfl, ?_, ?_, ?_, rfl⟩
  · rw [Dev.on_onPower, Dev.on_set_spares _ _ (by decide), Dev.on_set_spares _ _ (by decide), Dev.on_set_self _ _ _ (by decide)]
    rfl
  · rw [Dev.get_onPower, Dev.get_set_self _ _ _ (by decide)]
    exact Nat.mod_eq_of_lt ht
  · rw [Dev.on_onPower, Dev.on_set_spares _ _ (by decide), Dev.on_set_self _ _ _ (by decide)]
    cases held <;> rfl

theorem Dev.dropDomainChanges_step (d : Dev) : PowerStep wakeFields d d.dropDomainChanges :=
  (PowerStep.each (fun d _ hk => (PowerStep.refl _ d).set (List.mem_append_right _ (List.mem_map_of_mem hk)) 0) d).onPower rfl rfl rfl

theorem Dev.recordWake_step (d : Dev) (code : Option (Nat × ShortTime)) : PowerStep wakeFields d (d.recordWake code) := by
  cases code with
  | none => exact .refl _ d
  | some c =>
    rw [Dev.recordWake, Dev.set64_eq]
    exact (((PowerStep.refl _ d).set (by decide) _).set (by decide) _).set (by decide) _

/-- R448, R450: what PWR_STATUS and PWR_STATUS2 show of a transition that starts. -/
def Dev.showTransition (d : Dev) (target cause : Nat) : Dev :=
  ((d.set Reg.PWR_STATUS_TARGET target).set Reg.PWR_STATUS_IN_PROGRESS 1).set Reg.PWR_STATUS2_LAST_CAUSE cause

theorem Dev.startTransition_step (d : Dev) (target cause : Nat) (code : Option (Nat × ShortTime)) :
    PowerStep wakeFields (d.showTransition target cause) (d.startTransition target cause code) := by
  have start := ((d.showTransition target cause).dropDomainChanges_step).onPower (g := fun p => { p with cause := cause }) rfl rfl rfl
  exact ((start.onPower rfl rfl rfl).ite start).ite (start.trans (Dev.recordWake_step _ _))

/-- R448, R450: what the start of a transition shows. -/
theorem Dev.startTransition_spec (d : Dev) {target : Nat} (ht : target < 8) (cause : Nat) (code : Option (Nat × ShortTime)) :
    let e := d.startTransition target cause code
    PowerStep requestFields d e ∧ e.on Reg.PWR_STATUS_IN_PROGRESS = true ∧ e.get Reg.PWR_STATUS_TARGET = target ∧
      e.get Reg.PWR_STATUS2_LAST_CAUSE = cause % 8 ∧ e.on Reg.PWR_STATUS_PENDING = d.on Reg.PWR_STATUS_PENDING := by
  intro e
  have step := d.startTransition_step target cause code
  have shown : PowerStep requestFields d (d.showTransition target cause) :=
    (((PowerStep.refl _ d).set (by decide) _).set (by decide) _).set (by decide) _
  refine ⟨shown.trans (step.mono wakeFields_subset), ?_, ?_, ?_, ?_⟩
  · rw [step.on (by decide), Dev.showTransition, Dev.on_set_spares _ _ (by decide), Dev.on_set_self _ _ _ (by decide)]
    rfl
  · rw [step.get (by decide), Dev.showTransition, Dev.get_set_spares _ _ (by decide), Dev.get_set_spares _ _ (by decide),
      Dev.get_set_self _ _ _ (by decide)]
    exact Nat.mod_eq_of_lt ht
  · rw [step.get (by decide), Dev.showTransition, Dev.get_set_self _ _ _ (by decide)]
    rfl
  · rw [step.on (by decide), Dev.showTransition, Dev.on_set_spares _ _ (by decide), Dev.on_set_spares _ _ (by decide),
      Dev.on_set_spares _ _ (by decide)]

/-! ### Critical temperatures (R448 rule 7) -/

theorem Dev.critSets_eq (d : Dev) : d.critSets = if 3 ≤ d.devState then d.discardPending
    else if d.on Reg.PWR_STATUS_IN_PROGRESS = true then
      if d.get Reg.PWR_STATUS_TARGET = 2 then d.discardPending.bump Reg.PWR_STATUS2_MERGED else d.discardPending.pend 2 2 none false
    else if d.devState ≤ 1 then d.discardPending.startTransition 2 2 none else d.discardPending := by
  have state : d.discardPending.devState = d.devState := d.discardPending_step.get (by decide)
  have progress : d.discardPending.on Reg.PWR_STATUS_IN_PROGRESS = d.on Reg.PWR_STATUS_IN_PROGRESS := d.discardPending_step.on (by decide)
  have target : d.discardPending.get Reg.PWR_STATUS_TARGET = d.get Reg.PWR_STATUS_TARGET := d.discardPending_step.get (by decide)
  simp only [Dev.critSets, state, progress, target]

theorem Dev.critSets_step (d : Dev) : PowerStep requestFields d d.critSets := by
  have discard := d.discardPending_step.mono pendingFields_subset
  rw [d.critSets_eq]
  refine discard.ite (((discard.bump (by decide)).ite (discard.trans ?_)).ite ((discard.trans ?_).ite discard))
  · exact (Dev.pend_spec _ (by decide) _ _ _).1.mono pendingFields_subset
  · exact (Dev.startTransition_spec _ (by decide) _ _).1

/-- R448 rule 7: what a critical temperature requests. -/
theorem Dev.critSets_spec {d e : Dev} (low : d.devState < 3) (he : d.critSets = e) :
    (d.on Reg.PWR_STATUS_IN_PROGRESS = false → d.devState ≤ 1 → e.requestsAre (some 2) none ∧ e.get Reg.PWR_STATUS2_LAST_CAUSE = 2) ∧
    (d.on Reg.PWR_STATUS_IN_PROGRESS = true → d.get Reg.PWR_STATUS_TARGET = 2 → e.requestsAre (some 2) none) ∧
    (d.on Reg.PWR_STATUS_IN_PROGRESS = true → d.get Reg.PWR_STATUS_TARGET ≠ 2 →
      e.requestsAre (some (d.get Reg.PWR_STATUS_TARGET)) (some (2, false)) ∧ e.power.pendCause = 2) := by
  have idle := d.discardPending_off
  have discard := d.discardPending_step
  rw [d.critSets_eq, if_neg (by omega)] at he
  refine ⟨fun rest state => ?_, fun going same => ?_, fun going other => ?_⟩
  · rw [if_neg (by simp [rest]), if_pos state] at he
    obtain ⟨-, progress, target, cause, pending⟩ := d.discardPending.startTransition_spec (target := 2) (by decide) 2 none
    rw [he] at progress target cause pending
    exact ⟨⟨progress, by simpa using target, pending.trans idle, by simp⟩, cause⟩
  · rw [if_pos going, if_pos same] at he
    have merged : PowerStep [Reg.PWR_STATUS2_MERGED] d.discardPending e := he ▸ (PowerStep.refl _ _).bump (by decide)
    refine ⟨?_, ?_, (merged.on (by decide)).trans idle, by simp⟩
    · rw [merged.on (by decide), discard.on (by decide), going]
      rfl
    · rintro _ ⟨⟩
      rw [merged.get (by decide), discard.get (by decide), same]
  · rw [if_pos going, if_neg other] at he
    obtain ⟨step, pending, target, held, cause⟩ := d.discardPending.pend_spec (target := 2) (by decide) 2 none false
    rw [he] at step pending target held cause
    refine ⟨⟨?_, ?_, pending, ?_⟩, cause⟩
    · rw [step.on (by decide), discard.on (by decide), going]
      rfl
    · rintro _ ⟨⟩
      rw [step.get (by decide), discard.get (by decide)]
    · rintro _ _ ⟨⟩
      exact ⟨target, held⟩

/-- R448 rule 5: what the pending request shows as it starts. -/
theorem Dev.goPending_spec (d : Dev) : PowerStep requestFields d d.goPending ∧
    (d.get Reg.PWR_STATUS_PENDING_TARGET ≠ d.devState → d.goPending.requestsAre (some (d.get Reg.PWR_STATUS_PENDING_TARGET)) none) := by
  have discard := d.noPending_step.mono pendingFields_subset
  have idle := d.noPending_off
  have state : d.noPending.devState = d.devState := d.noPending_step.get (by decide)
  have small : d.get Reg.PWR_STATUS_PENDING_TARGET < 8 := d.get_lt _
  obtain ⟨step, progress, target, -, pending⟩ := d.noPending.startTransition_spec small d.power.pendCause d.power.pendCode
  simp only [Dev.goPending, state]
  refine ⟨(discard.bump (by decide)).ite (discard.trans step), fun other => ?_⟩
  rw [if_neg other]
  exact ⟨progress, by simpa using target, pending.trans idle, by simp⟩

/-- R448 rule 7: what a request held for temperature shows as it starts. -/
theorem Dev.critClears_spec (d : Dev) : PowerStep requestFields d d.critClears ∧
    (d.on Reg.PWR_STATUS_PENDING = true → d.on Reg.PWR_STATUS_HELD = true → d.on Reg.PWR_STATUS_IN_PROGRESS = false →
      d.get Reg.PWR_STATUS_PENDING_TARGET ≠ d.devState → d.critClears.requestsAre (some (d.get Reg.PWR_STATUS_PENDING_TARGET)) none) := by
  have free : PowerStep requestFields d (d.set Reg.PWR_STATUS_HELD 0) := (PowerStep.refl _ d).set (by decide) 0
  have same : RegsWithin [Reg.PWR_STATUS_HELD] d (d.set Reg.PWR_STATUS_HELD 0) := (RegsWithin.refl _ d).set (by decide) 0
  unfold Dev.critClears
  dsimp only
  generalize d.set Reg.PWR_STATUS_HELD 0 = x at *
  refine ⟨(free.ite (free.trans x.goPending_spec.1)).ite (.refl _ d), fun pending held rest other => ?_⟩
  have go := x.goPending_spec.2
  have state : x.devState = d.devState := same _ (by decide)
  rw [same _ (by decide), state] at go
  rw [if_pos (by simp [pending, held]), if_neg (by rw [same.on (by decide), rest]; decide)]
  exact go other

end Sys2Proof.Machine
end

section
/-! SUPPORT. Housekeeping (R458–R461, R464): a round's readings, the sensors found faulty, and the temperatures they give. -/

namespace Sys2Proof.Machine

/-! ### Lists of integers -/

theorem foldl_max_spec (x : Int) (xs : List Int) : (∀ y ∈ x :: xs, y ≤ xs.foldl max x) ∧ xs.foldl max x ∈ x :: xs := by
  induction xs generalizing x with
  | nil => simp
  | cons z zs ih =>
    obtain ⟨above, mem⟩ := ih (max x z)
    have top := above (max x z) (by simp)
    rw [List.foldl_cons]
    refine ⟨?_, ?_⟩
    · intro y hy
      simp only [List.mem_cons] at hy
      rcases hy with rfl | rfl | hy
      · exact (le_max_left _ _).trans top
      · exact (le_max_right _ _).trans top
      · exact above y (by simp [hy])
    · rcases List.mem_cons.1 mem with h | h
      · rw [h]
        rcases max_choice x z with m | m <;> simp [m]
      · simp [h]

/-- The greatest of a list that is not empty. -/
theorem maxInt_eq {z j : Int} {xs : List Int} (above : ∀ x ∈ xs, x ≤ j) (mem : j ∈ xs) : maxInt z xs = j := by
  cases xs with
  | nil => simp at mem
  | cons x xs =>
    obtain ⟨top, some_⟩ := foldl_max_spec x xs
    exact le_antisymm (above _ some_) (top j mem)

/-! ### A channel's word -/

/-- The word of housekeeping channel n is the same in both. -/
abbrev SameChannel (n : Nat) (d e : Dev) : Prop := SameWord (0x300800 + n * 4) d e

/-- The fields that taking the reading of channel n sets. -/
def channelFields (n : Nat) : List Fld :=
  [Reg.PWR_HK_VALUE n, Reg.PWR_HK_FAULT n, Reg.PWR_HK_CAUSE n, Reg.PWR_ATTN.part 0, Reg.PWR_ATTN.part 1]

theorem channelFields_other {m n : Nat} (h : m ≠ n) : ∀ g ∈ channelFields m, g.off ≠ 0x300800 + n * 4 := by
  simp only [channelFields, List.mem_cons, List.not_mem_nil, or_false, forall_eq_or_imp, forall_eq, Reg.PWR_HK_VALUE, Reg.PWR_HK_FAULT,
    Reg.PWR_HK_CAUSE, Reg.PWR_ATTN]
  omega

/-! ### Temperatures (R458, R459) -/

/-- R458: the value of channel n as a reading leaves it. -/
def Dev.showReading (d : Dev) (n : Nat) (x : Option Int) : Dev :=
  match x with
  | some t => d.set (Reg.PWR_HK_VALUE n) (wrapTo 16 t)
  | none => d

/-- R459: the fault of channel n as the cause of a round, 0 for none, leaves it. -/
def Dev.showCause (d : Dev) (n c : Nat) : Dev :=
  if c = 0 then d.set (Reg.PWR_HK_FAULT n) 0
  else if d.on (Reg.PWR_HK_FAULT n) = true then d
  else ((d.set (Reg.PWR_HK_FAULT n) 1).set (Reg.PWR_HK_CAUSE n) c).pwrAttend 0

theorem Dev.takeReading_eq (rounds : List (List (Option Int))) (codes : List (Option Int)) (d : Dev) (n : Nat) :
    d.takeReading rounds codes n = (d.showReading n (readingIn codes n)).showCause n (faultCause rounds n (readingIn codes n)) := rfl

theorem Dev.showReading_step (d : Dev) (n : Nat) (x : Option Int) : RegsWithin [Reg.PWR_HK_VALUE n] d (d.showReading n x) ∧
    OnlyRegs d (d.showReading n x) := by
  cases x with
  | none => exact ⟨.refl _ d, .refl d⟩
  | some t => exact ⟨(RegsWithin.refl _ d).set (by simp) _, d.set_only _ _⟩

theorem Dev.showCause_step (d : Dev) (n c : Nat) : RegsWithin [Reg.PWR_HK_FAULT n, Reg.PWR_HK_CAUSE n, Reg.PWR_ATTN.part 0] d (d.showCause n c) ∧
    OnlyRegs d (d.showCause n c) := by
  have attend := fun e : Dev => (e.pwrAttend_regsWithin 0).mono
    (show _ ⊆ [Reg.PWR_HK_FAULT n, Reg.PWR_HK_CAUSE n, Reg.PWR_ATTN.part 0] by simp)
  unfold Dev.showCause
  refine ⟨((RegsWithin.refl _ d).set (by simp) _).ite ((RegsWithin.refl _ d).ite ((((RegsWithin.refl _ d).set (by simp) _).set (by simp) _).trans
    (attend _))), (d.set_only _ _).ite ((OnlyRegs.refl d).ite (((d.set_only _ _).set _ _).trans (Dev.pwrAttend_only _ 0)))⟩

/-- R459: what a round's cause leaves of a channel's fault. -/
theorem Dev.showCause_spec (d : Dev) (n : Nat) {c : Nat} (hc : c < 4) :
    (c = 0 → (d.showCause n c).on (Reg.PWR_HK_FAULT n) = false) ∧
    (c ≠ 0 → (d.showCause n c).on (Reg.PWR_HK_FAULT n) = true ∧
      (d.showCause n c).get (Reg.PWR_HK_CAUSE n) = if d.on (Reg.PWR_HK_FAULT n) = true then d.get (Reg.PWR_HK_CAUSE n) else c) := by
  have apart : Fld.Spares (Reg.PWR_HK_CAUSE n) (Reg.PWR_HK_FAULT n) := .inr (by simp [Reg.PWR_HK_CAUSE, Reg.PWR_HK_FAULT])
  have attnFault : Fld.Spares (Reg.PWR_ATTN.part 0) (Reg.PWR_HK_FAULT n) := .inl (by simp [Reg.PWR_ATTN, Reg.PWR_HK_FAULT]; omega)
  have attnCause : Fld.Spares (Reg.PWR_ATTN.part 0) (Reg.PWR_HK_CAUSE n) := .inl (by simp [Reg.PWR_ATTN, Reg.PWR_HK_CAUSE]; omega)
  have fault (e : Dev) (v : Nat) : (e.set (Reg.PWR_HK_FAULT n) v).on (Reg.PWR_HK_FAULT n) = (v % 2 == 1) :=
    e.on_set_self _ v (by simp [Reg.PWR_HK_FAULT])
  refine ⟨fun zero => ?_, fun some_ => ?_⟩
  · rw [Dev.showCause, if_pos zero, fault]
    rfl
  · rw [Dev.showCause, if_neg some_]
    by_cases was : d.on (Reg.PWR_HK_FAULT n) = true
    · rw [if_pos was, if_pos was]
      exact ⟨was, rfl⟩
    · rw [if_neg was, if_neg was, Dev.on_pwrAttend _ _ attnFault, Dev.get_pwrAttend _ _ attnCause, Dev.on_set_spares _ _ apart, fault,
        Dev.get_set_self _ _ _ (by simp [Reg.PWR_HK_CAUSE])]
      exact ⟨rfl, Nat.mod_eq_of_lt hc⟩

theorem faultCause_lt (rounds : List (List (Option Int))) (n : Nat) (x : Option Int) : faultCause rounds n x < 4 := by
  cases x with
  | none => exact show 2 < 4 by decide
  | some t =>
    simp only [faultCause]
    split
    · decide
    · split <;> decide

/-- R459: no sensor is stuck before 1,000 rounds. -/
theorem stuck_short {rounds : List (List (Option Int))} (h : rounds.length ≠ 1000) (n : Nat) : stuck rounds n = false := by
  have short : (rounds.length == 1000) = false := beq_false_of_ne h
  unfold stuck
  dsimp only
  split
  · rw [short]
    rfl
  · rfl

theorem faultCause_in_range {rounds : List (List (Option Int))} (h : rounds.length ≠ 1000) (n : Nat) {t : Int} (lo : -320 ≤ t) (hi : t ≤ 1200) :
    faultCause rounds n (some t) = 0 := by
  rw [faultCause, if_neg (by omega), stuck_short h]
  rfl

theorem Dev.takeReading_step (rounds : List (List (Option Int))) (codes : List (Option Int)) (d : Dev) (n : Nat) :
    RegsWithin (channelFields n) d (d.takeReading rounds codes n) ∧ OnlyRegs d (d.takeReading rounds codes n) := by
  obtain ⟨regs, only⟩ := d.showReading_step n (readingIn codes n)
  obtain ⟨regs', only'⟩ := (d.showReading n (readingIn codes n)).showCause_step n (faultCause rounds n (readingIn codes n))
  rw [Dev.takeReading_eq]
  exact ⟨(regs.mono (by simp [channelFields])).trans (regs'.mono (by simp [channelFields])), only.trans only'⟩

/-- R458, R459: what a round leaves of a temperature channel. -/
theorem Dev.takeReading_spec (rounds : List (List (Option Int))) (codes : List (Option Int)) (d : Dev) (n : Nat) :
    let e := d.takeReading rounds codes n
    let c := faultCause rounds n (readingIn codes n)
    (∀ t, readingIn codes n = some t → e.get (Reg.PWR_HK_VALUE n) = wrapTo 16 t) ∧ e.on (Reg.PWR_HK_MASK n) = d.on (Reg.PWR_HK_MASK n) ∧
      (c = 0 → e.on (Reg.PWR_HK_FAULT n) = false) ∧
      (c ≠ 0 → e.on (Reg.PWR_HK_FAULT n) = true ∧
        e.get (Reg.PWR_HK_CAUSE n) = if d.on (Reg.PWR_HK_FAULT n) = true then d.get (Reg.PWR_HK_CAUSE n) else c) := by
  intro e c
  have regs := (d.takeReading_step rounds codes n).1
  obtain ⟨shown, -⟩ := d.showReading_step n (readingIn codes n)
  obtain ⟨caused, -⟩ := (d.showReading n (readingIn codes n)).showCause_step n c
  obtain ⟨clear, faulty⟩ := (d.showReading n (readingIn codes n)).showCause_spec n (faultCause_lt rounds n (readingIn codes n))
  have apart : Fld.Spares (Reg.PWR_HK_VALUE n) (Reg.PWR_HK_FAULT n) ∧ Fld.Spares (Reg.PWR_HK_VALUE n) (Reg.PWR_HK_CAUSE n) :=
    ⟨.inr (by simp [Reg.PWR_HK_VALUE, Reg.PWR_HK_FAULT]), .inr (by simp [Reg.PWR_HK_VALUE, Reg.PWR_HK_CAUSE])⟩
  rw [shown.on (by simpa using apart.1), shown _ (by simpa using apart.2)] at faulty
  refine ⟨fun t ht => ?_, regs.on ?_, clear, faulty⟩
  · have spared : ∀ g ∈ [Reg.PWR_HK_FAULT n, Reg.PWR_HK_CAUSE n, Reg.PWR_ATTN.part 0], g.Spares (Reg.PWR_HK_VALUE n) := by
      simp [Fld.Spares, Reg.PWR_HK_VALUE, Reg.PWR_HK_FAULT, Reg.PWR_HK_CAUSE, Reg.PWR_ATTN]
      omega
    rw [show e.get _ = _ from caused _ spared, ht, Dev.showReading, Dev.get_set_self _ _ _ (by simp [Reg.PWR_HK_VALUE])]
    exact Nat.mod_eq_of_lt (wrapTo_lt 16 t)
  · simp [channelFields, Fld.Spares, Reg.PWR_HK_VALUE, Reg.PWR_HK_FAULT, Reg.PWR_HK_CAUSE, Reg.PWR_HK_MASK, Reg.PWR_ATTN]

/-! ### Supplies (R458) -/

/-- R458: SUPPLY as a reading of channel n leaves it. -/
def Dev.showSupply (d : Dev) (n : Nat) (v : Int) : Dev :=
  if n < 56 ∧ (v < (d.voltageRange n).1 ∨ ((d.voltageRange n).2 : Int) < v) then d.pwrAttend 1 else d

theorem Dev.takeSupply_eq (codes : List (Option Int)) (d : Dev) (n : Nat) :
    d.takeSupply codes n = match readingIn codes n with
      | none => d
      | some v => (d.set (Reg.PWR_HK_VALUE n) (wrapTo 16 v)).showSupply n v := rfl

theorem Dev.showSupply_step (d : Dev) (n : Nat) (v : Int) :
    RegsWithin [Reg.PWR_ATTN.part 1] d (d.showSupply n v) ∧ OnlyRegs d (d.showSupply n v) := by
  unfold Dev.showSupply
  exact ⟨(d.pwrAttend_regsWithin 1).ite (.refl _ d), (d.pwrAttend_only 1).ite (.refl d)⟩

theorem Dev.takeSupply_step (codes : List (Option Int)) (d : Dev) (n : Nat) :
    RegsWithin (channelFields n) d (d.takeSupply codes n) ∧ OnlyRegs d (d.takeSupply codes n) := by
  rw [Dev.takeSupply_eq]
  cases readingIn codes n with
  | none => exact ⟨.refl _ d, .refl d⟩
  | some v =>
    obtain ⟨regs, only⟩ := (d.set (Reg.PWR_HK_VALUE n) (wrapTo 16 v)).showSupply_step n v
    exact ⟨((RegsWithin.refl _ d).set (by simp [channelFields]) _).trans (regs.mono (by simp [channelFields])), (d.set_only _ _).trans only⟩

/-- R458: what a round leaves of another channel. -/
theorem Dev.takeSupply_value {codes : List (Option Int)} {d : Dev} {n : Nat} {v : Int} (h : readingIn codes n = some v) :
    (d.takeSupply codes n).get (Reg.PWR_HK_VALUE n) = wrapTo 16 v := by
  have apart : Fld.Spares (Reg.PWR_ATTN.part 1) (Reg.PWR_HK_VALUE n) := .inl (by simp [Reg.PWR_ATTN, Reg.PWR_HK_VALUE]; omega)
  rw [Dev.takeSupply_eq, h]
  dsimp only
  rw [((d.set (Reg.PWR_HK_VALUE n) (wrapTo 16 v)).showSupply_step n v).1 _ (by simpa using apart),
    Dev.get_set_self _ _ _ (by simp [Reg.PWR_HK_VALUE])]
  exact Nat.mod_eq_of_lt (wrapTo_lt 16 v)

/-! ### All channels -/

/-- R459: the rounds kept once one with the given readings is over. -/
def Dev.roundsWith (d : Dev) (codes : List (Option Int)) : List (List (Option Int)) := ((codes.take 35) :: d.power.rounds).take 1000

/-- R458, R459: the device that has taken the readings of a round. -/
def Dev.sampled (codes : List (Option Int)) (d : Dev) : Dev :=
  ((d.onPower (fun p => { p with rounds := d.roundsWith codes })).each (upFrom 0 35) (Dev.takeReading (d.roundsWith codes) codes)).each
    (upFrom 35 29) (Dev.takeSupply codes)

/-- The fields that taking the readings of a round sets. -/
def samplingFields : List Fld :=
  [Reg.PWR_ATTN.part 0, Reg.PWR_ATTN.part 1] ++ (upFrom 0 64).map (fun n => ⟨0x300800 + n * 4, 0, 32⟩)

/-- A channel's fields lie in its word. -/
theorem RegsWithin.sampling {d e : Dev} {n : Nat} (h : RegsWithin (channelFields n) d e) (hn : n < 64) : RegsWithin samplingFields d e := by
  intro f hf
  simp only [samplingFields, List.forall_mem_append, List.forall_mem_cons, List.forall_mem_map, mem_upFrom] at hf
  obtain ⟨⟨fault, supply, -⟩, words⟩ := hf
  have word := words n (by omega)
  refine h f ?_
  simp only [channelFields, List.forall_mem_cons]
  refine ⟨?_, ?_, ?_, fault, supply, by simp⟩ <;>
    simp only [Fld.Spares, Reg.PWR_HK_VALUE, Reg.PWR_HK_FAULT, Reg.PWR_HK_CAUSE] at word ⊢ <;> omega

theorem Dev.sampled_step (codes : List (Option Int)) (d : Dev) : RegsWithin samplingFields d (d.sampled codes) ∧
    ∃ e, e = d.onPower (fun p => { p with rounds := d.roundsWith codes }) ∧ OnlyRegs e (d.sampled codes) := by
  have temps (e : Dev) (m : Nat) (hm : m ∈ upFrom 0 35) : RegsWithin samplingFields e (e.takeReading (d.roundsWith codes) codes m) :=
    (e.takeReading_step _ _ m).1.sampling (by rw [mem_upFrom] at hm; omega)
  have supplies (e : Dev) (m : Nat) (hm : m ∈ upFrom 35 29) : RegsWithin samplingFields e (e.takeSupply codes m) :=
    (e.takeSupply_step _ m).1.sampling (by rw [mem_upFrom] at hm; omega)
  have start : RegsWithin samplingFields d (d.onPower (fun p => { p with rounds := d.roundsWith codes })) := .of_regs rfl
  refine ⟨(start.trans (.each temps _)).trans (.each supplies _), _, rfl, ?_⟩
  exact (Dev.each_rel OnlyRegs.refl OnlyRegs.trans (fun e m => (e.takeReading_step _ _ m).2) _ _).trans
    (Dev.each_rel OnlyRegs.refl OnlyRegs.trans (fun e m => (e.takeSupply_step _ m).2) _ _)

/-- A round reads a temperature channel once. -/
theorem Dev.sampled_temp (codes : List (Option Int)) (d : Dev) {n : Nat} (hn : n < 35) :
    ∃ x, SameChannel n d x ∧ SameChannel n (x.takeReading (d.roundsWith codes) codes n) (d.sampled codes) := by
  obtain ⟨x, before, after⟩ := Dev.each_once (R := SameChannel n) (SameWord.refl _) SameWord.trans (upFrom_nodup 0 35)
    ((mem_upFrom 0 35 n).2 (by omega)) (fun e m _ other => (e.takeReading_step (d.roundsWith codes) codes m).1.sameWord (channelFields_other other))
    (d.onPower (fun p => { p with rounds := d.roundsWith codes }))
  have rest : SameChannel n _ (d.sampled codes) := Dev.each_rel_mem (SameWord.refl _) SameWord.trans
    (fun e m hm => (e.takeSupply_step codes m).1.sameWord (channelFields_other (by rw [mem_upFrom] at hm; omega))) _
  exact ⟨x, before, after.trans rest⟩

/-- A round reads each other channel once. -/
theorem Dev.sampled_supply (codes : List (Option Int)) (d : Dev) {n : Nat} (lo : 35 ≤ n) (hi : n < 64) :
    ∃ x : Dev, SameChannel n (x.takeSupply codes n) (d.sampled codes) := by
  obtain ⟨x, -, after⟩ := Dev.each_once (R := SameChannel n) (SameWord.refl _) SameWord.trans (upFrom_nodup 35 29)
    ((mem_upFrom 35 29 n).2 (by omega)) (fun e m _ other => (e.takeSupply_step codes m).1.sameWord (channelFields_other other)) _
  exact ⟨x, after⟩

/-- R458: every channel with a reading shows it. -/
theorem Dev.sampled_value (codes : List (Option Int)) (d : Dev) {n : Nat} (hn : n < 64) {t : Int} (h : codes[n]? = some (some t)) :
    (d.sampled codes).get (Reg.PWR_HK_VALUE n) = wrapTo 16 t := by
  have reading : readingIn codes n = some t := by simp [readingIn, List.getD_eq_getElem?_getD, h]
  by_cases temp : n < 35
  · obtain ⟨x, -, after⟩ := d.sampled_temp codes temp
    rw [after _ rfl]
    exact (x.takeReading_spec (d.roundsWith codes) codes n).1 t reading
  · obtain ⟨x, after⟩ := d.sampled_supply codes (by omega) hn
    rw [after _ rfl]
    exact Dev.takeSupply_value reading

/-- R459: a temperature channel's fault, as the cause of the round leaves it. -/
theorem Dev.sampled_fault (codes : List (Option Int)) (d : Dev) {n : Nat} (hn : n < 35) :
    let e := d.sampled codes
    let c := faultCause (d.roundsWith codes) n (readingIn codes n)
    (c = 0 → e.on (Reg.PWR_HK_FAULT n) = false) ∧ (c ≠ 0 → e.on (Reg.PWR_HK_FAULT n) = true ∧
      e.get (Reg.PWR_HK_CAUSE n) = if d.on (Reg.PWR_HK_FAULT n) = true then d.get (Reg.PWR_HK_CAUSE n) else c) := by
  intro e c
  obtain ⟨x, before, after⟩ := d.sampled_temp codes hn
  obtain ⟨-, -, clear, faulty⟩ := x.takeReading_spec (d.roundsWith codes) codes n
  rw [after.on rfl, after _ rfl, ← before.on rfl, ← before _ rfl]
  exact ⟨clear, faulty⟩

/-- R459: too few rounds to find a sensor stuck. -/
theorem Dev.roundsWith_short {d : Dev} (h : d.power.rounds.length < 999) (codes : List (Option Int)) : (d.roundsWith codes).length ≠ 1000 := by
  simp only [Dev.roundsWith, List.length_take, List.length_cons]
  omega

/-- R458, R459: a sound sensor that is not masked is used as it reads. -/
theorem Dev.sampled_sound (codes : List (Option Int)) (d : Dev) {n : Nat} (hn : n < 35) {t : Int} (short : d.power.rounds.length < 999)
    (h : codes[n]? = some (some t)) (lo : -320 ≤ t) (hi : t ≤ 1200) : (d.sampled codes).rawTemp n = t := by
  have reading : readingIn codes n = some t := by simp [readingIn, List.getD_eq_getElem?_getD, h]
  have clear := (d.sampled_fault codes hn).1 (by rw [reading]; exact faultCause_in_range (Dev.roundsWith_short short codes) n lo hi)
  rw [Dev.rawTemp, if_neg (by rw [clear]; decide), d.sampled_value codes (by omega) h]
  exact signed_wrapTo (by omega) (by omega)

theorem Dev.temp_unmasked {d : Dev} {n : Nat} (h : d.on (Reg.PWR_HK_MASK n) = false) : d.temp n = d.rawTemp n := by simp [Dev.temp, h]

theorem Dev.sampled_mask (codes : List (Option Int)) (d : Dev) {n : Nat} (hn : n < 35) :
    (d.sampled codes).on (Reg.PWR_HK_MASK n) = d.on (Reg.PWR_HK_MASK n) := by
  obtain ⟨x, before, after⟩ := d.sampled_temp codes hn
  obtain ⟨-, mask, -⟩ := x.takeReading_spec (d.roundsWith codes) codes n
  rw [after.on rfl, mask, before.on rfl]

end Sys2Proof.Machine
end

section
/-! SUPPORT. Housekeeping (R448, R458–R461, R464): what a round makes of the temperatures, its levels, and the requests of the critical ones. -/

namespace Sys2Proof.Machine

/-! ### The parts of a round -/

/-- R459, R460: the junction temperature: the hottest die sensor. -/
def Dev.junction (d : Dev) : Int := maxInt 1000 ((upFrom 0 32).map d.temp)

/-- R459, R460: the hottest of the HBM sensors. -/
def Dev.hbmTop (d : Dev) : Int := max (d.temp 32) (d.temp 33)

/-- R461: a round shows the hottest die sensor. -/
def Dev.showHottest (d : Dev) : Dev :=
  (d.set Reg.PWR_THERM_HOTTEST (wrapTo 16 d.junction)).set Reg.PWR_THERM_HOT_SENSOR
    (((upFrom 0 32).map d.temp).findIdx (fun t => t == d.junction))

/-- R458, R464: a round is counted. -/
def Dev.countRound (d : Dev) : Dev :=
  ((d.set Reg.PWR_THERM_FUSE_OK (b2n d.fuseOk)).set Reg.PWR_THERM_FIRST_ROUND 1).bump Reg.PWR_THERM_ROUNDS

/-- R450: what waits for a round goes on. -/
def Dev.endWait (d : Dev) : Dev :=
  if d.power.awaitRound = true then
    d.onPower (fun p => { p with awaitRound := false, paused := p.paused && !(d.devState == 0 && !d.on Reg.PWR_STATUS_IN_PROGRESS) })
  else d

/-- R461: the device with the readings of a round taken that shows them, its levels still to be judged. -/
def Dev.roundShown (d : Dev) : Dev := (((d.showHottest).each (upFrom 0 2) Dev.judgeRefresh).countRound).endWait.runCharger

theorem Dev.round_eq (codes : List (Option Int)) (d : Dev) :
    d.round codes = (d.sampled codes).roundShown.judgeTemps (d.sampled codes).junction (d.sampled codes).hbmTop := rfl

/-! ### What a round shows -/

/-- The fields that show the hottest die sensor. -/
def hottestFields : List Fld := [Reg.PWR_THERM_HOTTEST, Reg.PWR_THERM_HOT_SENSOR]
/-- The bits that show doubled refresh. -/
def refreshFields : List Fld := [Reg.HBM_STATUS_REFRESH_2X.part 0, Reg.HBM_STATUS_REFRESH_2X.part 1]
/-- The fields that tell of the rounds so far, and whether fuses may be programmed. -/
def countFields : List Fld := [Reg.PWR_THERM_FUSE_OK, Reg.PWR_THERM_FIRST_ROUND, Reg.PWR_THERM_ROUNDS]
/-- The fields that show the charger. -/
def chargeFields : List Fld := [Reg.PWR_CHG_STATUS_STATE, Reg.PWR_CHG_STATUS_CAUSE]
/-- The fields that a round shows, its levels apart. -/
def shownFields : List Fld := hottestFields ++ refreshFields ++ countFields ++ chargeFields

theorem Dev.showHottest_step (d : Dev) : PowerStep hottestFields d d.showHottest := ((PowerStep.refl _ d).set (by decide) _).set (by decide) _

theorem Dev.countRound_step (d : Dev) : PowerStep countFields d d.countRound :=
  (((PowerStep.refl _ d).set (by decide) _).set (by decide) _).bump (by decide)

theorem Dev.endWait_step (d : Dev) : PowerStep [] d d.endWait := by
  unfold Dev.endWait
  exact ((PowerStep.refl _ d).onPower rfl rfl rfl).ite (.refl _ d)

theorem Dev.runCharger_step (d : Dev) : PowerStep chargeFields d d.runCharger := by
  have show_ (st c : Nat) (t : Option ShortTime) : PowerStep chargeFields d
      (((d.set Reg.PWR_CHG_STATUS_STATE st).set Reg.PWR_CHG_STATUS_CAUSE c).onPower (fun p => { p with charging := t })) :=
    (((PowerStep.refl _ d).set (by decide) _).set (by decide) _).onPower rfl rfl rfl
  unfold Dev.runCharger
  refine .ite (show_ 0 0 none) ?_
  split
  · exact show_ 3 _ none
  · exact .ite (.refl _ d) (show_ 1 0 _)

theorem Dev.judgeRefresh_eq (d : Dev) {k : Nat} (hk : k < 2) : d.judgeRefresh k =
    d.set (Reg.HBM_STATUS_REFRESH_2X.part k) (b2n (tempLevel (d.bit Reg.HBM_STATUS_REFRESH_2X k) (d.temp (32 + k)) 680 664)) := by
  unfold Dev.judgeRefresh
  split
  · next h => rw [h, Dev.setBit_eq_set _ hk]; rfl
  · next h => rw [Bool.not_eq_true] at h; rw [h, Dev.clearBit_eq_set _ hk]; rfl

/-- The fields set lie outside the words of the channels. -/
theorem RegsWithin.channel {ws : List Fld} {d e : Dev} (h : RegsWithin ws d e) (hs : ∀ g ∈ ws, g.off < 0x300800 ∨ 0x300900 ≤ g.off) {n : Nat}
    (hn : n < 64) : SameChannel n d e := h.sameWord (fun g hg => by have := hs g hg; omega)

theorem SameChannel.rawTemp {n : Nat} {d e : Dev} (h : SameChannel n d e) : e.rawTemp n = d.rawTemp n := by
  rw [Dev.rawTemp, h.on rfl, h _ rfl, Dev.rawTemp]

/-- R96, R461: doubled refresh of a stack follows its own sensor. -/
theorem Dev.judgeRefresh_spec (d : Dev) {k : Nat} (hk : k < 2) (sound : d.on (Reg.PWR_HK_MASK (32 + k)) = false) :
    (d.each (upFrom 0 2) Dev.judgeRefresh).bit Reg.HBM_STATUS_REFRESH_2X k =
      tempLevel (d.bit Reg.HBM_STATUS_REFRESH_2X k) (d.rawTemp (32 + k)) 680 664 := by
  have other (e : Dev) (m : Nat) (hm : m ∈ upFrom 0 2) (ne : m ≠ k) :
      RegsWithin [Reg.HBM_STATUS_REFRESH_2X.part (1 - k)] e (e.judgeRefresh m) := by
    rw [mem_upFrom] at hm
    obtain rfl : m = 1 - k := by omega
    rw [e.judgeRefresh_eq (by omega)]
    exact (RegsWithin.refl _ e).set (by simp) _
  obtain ⟨x, before, after⟩ := Dev.each_once (RegsWithin.refl _) RegsWithin.trans (upFrom_nodup 0 2) ((mem_upFrom 0 2 k).2 (by omega)) other d
  have spared : ∀ g ∈ [Reg.HBM_STATUS_REFRESH_2X.part (1 - k)], g.Spares (Reg.HBM_STATUS_REFRESH_2X.part k) := by
    simp [Fld.Spares, Reg.HBM_STATUS_REFRESH_2X]
    omega
  have channel : SameChannel (32 + k) d x := before.channel (by simp [Reg.HBM_STATUS_REFRESH_2X]) (by omega)
  have mask : x.on (Reg.PWR_HK_MASK (32 + k)) = false := (channel.on rfl).trans sound
  have room : (Reg.HBM_STATUS_REFRESH_2X.part k).lo + (Reg.HBM_STATUS_REFRESH_2X.part k).w ≤ 32 := by simp [Reg.HBM_STATUS_REFRESH_2X]; omega
  rw [Dev.bit_eq_on _ hk, after.on spared, x.judgeRefresh_eq hk, Dev.on_set_self _ _ _ room, Dev.bit_eq_on _ hk, Dev.bit_eq_on _ hk,
    before.on spared, Dev.temp_unmasked mask, channel.rawTemp]
  generalize tempLevel _ _ _ _ = b
  cases b <;> rfl

theorem Dev.judgeRefresh_step (d : Dev) : PowerStep refreshFields d (d.each (upFrom 0 2) Dev.judgeRefresh) := by
  refine .each (fun e k hk => ?_) d
  have small : k < 2 := by rw [mem_upFrom] at hk; omega
  rw [e.judgeRefresh_eq small]
  refine (PowerStep.refl _ e).set ?_ _
  rcases (show k = 0 ∨ k = 1 by omega) with rfl | rfl <;> simp [refreshFields]

theorem Dev.showHottest_spec (d : Dev) : d.showHottest.get Reg.PWR_THERM_HOTTEST = wrapTo 16 d.junction ∧
    d.showHottest.get Reg.PWR_THERM_HOT_SENSOR = ((upFrom 0 32).map d.temp).findIdx (fun t => t == d.junction) % 32 := by
  rw [Dev.showHottest, Dev.get_set_spares _ _ (by decide), Dev.get_set_self _ _ _ (by decide), Dev.get_set_self _ _ _ (by decide)]
  exact ⟨Nat.mod_eq_of_lt (wrapTo_lt 16 _), rfl⟩

theorem Dev.countRound_spec (d : Dev) : d.countRound.on Reg.PWR_THERM_FUSE_OK = d.fuseOk ∧ d.countRound.on Reg.PWR_THERM_FIRST_ROUND = true ∧
    d.countRound.get Reg.PWR_THERM_ROUNDS = (d.get Reg.PWR_THERM_ROUNDS + 1) % 2 ^ 32 := by
  rw [Dev.countRound, Dev.bump, Dev.add, Dev.on_set_spares _ _ (by decide), Dev.on_set_spares _ _ (by decide), Dev.on_set_self _ _ _ (by decide),
    Dev.on_set_spares _ _ (by decide), Dev.on_set_self _ _ _ (by decide), Dev.get_set_self _ _ _ (by decide),
    Dev.get_set_spares _ _ (by decide), Dev.get_set_spares _ _ (by decide)]
  exact ⟨by cases d.fuseOk <;> rfl, rfl, rfl⟩

theorem Dev.fuseOk_congr {d e : Dev} (h : ∀ n < 32, SameChannel n d e) : e.fuseOk = d.fuseOk := by
  refine Bool.eq_iff_iff.2 ?_
  simp only [Dev.fuseOk, List.all_eq_true, mem_upFrom]
  refine forall_congr' fun n => forall_congr' fun hn => ?_
  have channel := h n (by omega)
  rw [channel.on rfl, channel.rawTemp]

/-- R461, R464: what a round shows of the temperatures, its levels apart. -/
theorem Dev.roundShown_spec {d e : Dev} (he : d.roundShown = e) :
    PowerStep shownFields d e ∧ e.get Reg.PWR_THERM_HOTTEST = wrapTo 16 d.junction ∧
      e.get Reg.PWR_THERM_HOT_SENSOR = ((upFrom 0 32).map d.temp).findIdx (fun t => t == d.junction) % 32 ∧
      (∀ k < 2, d.on (Reg.PWR_HK_MASK (32 + k)) = false →
        e.bit Reg.HBM_STATUS_REFRESH_2X k = tempLevel (d.bit Reg.HBM_STATUS_REFRESH_2X k) (d.rawTemp (32 + k)) 680 664) ∧
      e.on Reg.PWR_THERM_FUSE_OK = d.fuseOk ∧ e.on Reg.PWR_THERM_FIRST_ROUND = true ∧
      e.get Reg.PWR_THERM_ROUNDS = (d.get Reg.PWR_THERM_ROUNDS + 1) % 2 ^ 32 := by
  unfold Dev.roundShown at he
  have hot := d.showHottest_step
  obtain ⟨hottest, sensor⟩ := d.showHottest_spec
  have refresh := d.showHottest.judgeRefresh_step
  have levels := fun k (hk : k < 2) => Dev.judgeRefresh_spec d.showHottest hk
  generalize d.showHottest = a at *
  generalize a.each (upFrom 0 2) Dev.judgeRefresh = b at *
  have count := b.countRound_step
  obtain ⟨fuse, first, rounds⟩ := b.countRound_spec
  generalize b.countRound = c at *
  have rest : PowerStep chargeFields c e := he ▸ (c.endWait_step.mono (by simp)).trans (Dev.runCharger_step _)
  have before := (hot.mono (vs := hottestFields ++ refreshFields) (by simp)).trans (refresh.mono (by simp))
  have after := (count.mono (vs := countFields ++ chargeFields) (by simp)).trans (rest.mono (by simp))
  refine ⟨(before.mono ?_).trans (after.mono ?_), ?_, ?_, fun k hk sound => ?_, ?_, ?_, ?_⟩
  · simp [shownFields]
  · simp [shownFields]
  · rw [after.get (by decide), refresh.get (by decide), hottest]
  · rw [after.get (by decide), refresh.get (by decide), sensor]
  · have channel : SameChannel (32 + k) d a := hot.regs.channel (by decide) (by omega)
    have bit : e.bit Reg.HBM_STATUS_REFRESH_2X k = b.bit Reg.HBM_STATUS_REFRESH_2X k := by
      rw [Dev.bit, after.get (by decide), Dev.bit]
    have was : a.bit Reg.HBM_STATUS_REFRESH_2X k = d.bit Reg.HBM_STATUS_REFRESH_2X k := by
      rw [Dev.bit, hot.get (by decide), Dev.bit]
    rw [bit, levels k hk ((channel.on rfl).trans sound), was, channel.rawTemp]
  · rw [rest.on (by decide), fuse]
    exact Dev.fuseOk_congr fun n hn => before.regs.channel (by decide) (by omega)
  · rw [rest.on (by decide), first]
  · rw [rest.get (by decide), rounds, before.get (by decide)]

end Sys2Proof.Machine
end

section
/-! SUPPORT. Housekeeping (R448, R461): the levels of temperature after a round, and the requests of the critical ones. -/

namespace Sys2Proof.Machine

/-! ### Levels -/

/-- A flag reads as it was set. -/
theorem Dev.on_set_flag (d : Dev) {f : Fld} (v : Bool) (hw : f.w = 1) (hlo : f.lo < 32) : (d.set f (b2n v)).on f = v := by
  rw [Dev.on_set_self _ _ _ (by omega), hw]
  cases v <;> rfl

theorem tempLevel_iff (was : Bool) (t up down : Int) : tempLevel was t up down = true ↔ up ≤ t ∨ (was = true ∧ down ≤ t) := by simp [tempLevel]

/-- R461: a throttle clears after 100 rounds below its limit. -/
theorem throttleOf_on (was : Bool) (cool : Nat) (t up down : Int) :
    (throttleOf was cool t up down).1 = true ↔ up ≤ t ∨ (was = true ∧ (down ≤ t ∨ cool < 99)) := by
  unfold throttleOf
  by_cases hot : up ≤ t
  · simp [hot]
  · rw [if_neg hot]
    by_cases below : t < down
    · have : cool + 1 < 100 ↔ down ≤ t ∨ cool < 99 := by omega
      simp [hot, below, this]
    · simp [hot, below, not_lt.1 below]

/-- R461: the rounds in a row below the limit of a throttle. -/
theorem throttleOf_count (was : Bool) (cool : Nat) {t up down : Int} (h : down ≤ up) :
    (throttleOf was cool t up down).2 = if t < down then cool + 1 else 0 := by
  unfold throttleOf
  by_cases hot : up ≤ t
  · rw [if_pos hot, if_neg (by omega)]
  · rw [if_neg hot]

/-- The levels of temperature. -/
def levelFields : List Fld :=
  [Reg.PWR_THERM_WARN, Reg.PWR_THERM_THROTTLE, Reg.PWR_THERM_CRIT, Reg.PWR_THERM_HBM_WARN, Reg.PWR_THERM_HBM_THROTTLE, Reg.PWR_THERM_HBM_CRIT]

/-- R461: a level that is judged without a wait. -/
def Dev.levelOf (d : Dev) (f : Fld) (t up down : Int) : Nat := b2n (tempLevel (d.on f) t up down)

/-- R461: the throttle of the junction, with its rounds in a row below the limit. -/
def Dev.throttleNow (d : Dev) (j : Int) : Bool × Nat := throttleOf (d.on Reg.PWR_THERM_THROTTLE) d.power.coolRounds j 800 776
/-- R461: the throttle of HBM, with its rounds in a row below the limit. -/
def Dev.hbmThrottleNow (d : Dev) (h : Int) : Bool × Nat := throttleOf (d.on Reg.PWR_THERM_HBM_THROTTLE) d.power.hbmCoolRounds h 720 696

/-- R461: the device that shows its levels. -/
def Dev.levelled (d : Dev) (j h : Int) : Dev :=
  ((((((d.onPower (fun p => { p with coolRounds := (d.throttleNow j).2, hbmCoolRounds := (d.hbmThrottleNow h).2 })).set
    Reg.PWR_THERM_WARN (d.levelOf Reg.PWR_THERM_WARN j 760 744)).set
    Reg.PWR_THERM_THROTTLE (b2n (d.throttleNow j).1)).set
    Reg.PWR_THERM_CRIT (d.levelOf Reg.PWR_THERM_CRIT j 880 800)).set
    Reg.PWR_THERM_HBM_WARN (d.levelOf Reg.PWR_THERM_HBM_WARN h 680 664)).set
    Reg.PWR_THERM_HBM_THROTTLE (b2n (d.hbmThrottleNow h).1)).set
    Reg.PWR_THERM_HBM_CRIT (d.levelOf Reg.PWR_THERM_HBM_CRIT h 760 680)

/-- Has a level risen from one device to the other? -/
def Dev.rose (d e : Dev) (f : Fld) : Bool := e.on f && !d.on f

/-- R461: the device e, whose levels are those of d judged again, that tells of them. -/
def Dev.tellLevels (d e : Dev) : Dev :=
  (if levelFields.any (d.rose e) then e.pwrAttend 5 else e).each [0x7CB, 0x7CC, 0x7CD] Dev.relevel

theorem Dev.judgeTemps_eq (d : Dev) (j h : Int) : d.judgeTemps j h =
    if (d.rose (d.levelled j h) Reg.PWR_THERM_CRIT || d.rose (d.levelled j h) Reg.PWR_THERM_HBM_CRIT) = true then
      (d.tellLevels (d.levelled j h)).critSets
    else if (d.critical && !(d.levelled j h).critical) = true then (d.tellLevels (d.levelled j h)).critClears
    else d.tellLevels (d.levelled j h) := rfl

/-- R461: what the levels show. -/
theorem Dev.levelled_spec {d e : Dev} {j h : Int} (he : d.levelled j h = e) :
    RegsWithin levelFields d e ∧ OnlyPower d e ∧ e.power.rounds = d.power.rounds ∧ e.power.coolRounds = (d.throttleNow j).2 ∧
      e.on Reg.PWR_THERM_WARN = tempLevel (d.on Reg.PWR_THERM_WARN) j 760 744 ∧ e.on Reg.PWR_THERM_THROTTLE = (d.throttleNow j).1 ∧
      e.on Reg.PWR_THERM_CRIT = tempLevel (d.on Reg.PWR_THERM_CRIT) j 880 800 ∧
      e.on Reg.PWR_THERM_HBM_WARN = tempLevel (d.on Reg.PWR_THERM_HBM_WARN) h 680 664 ∧
      e.on Reg.PWR_THERM_HBM_THROTTLE = (d.hbmThrottleNow h).1 ∧
      e.on Reg.PWR_THERM_HBM_CRIT = tempLevel (d.on Reg.PWR_THERM_HBM_CRIT) h 760 680 := by
  subst he
  have start : RegsWithin levelFields d (d.onPower (fun p => { p with coolRounds := (d.throttleNow j).2, hbmCoolRounds := (d.hbmThrottleNow h).2 })) ∧
      OnlyPower d (d.onPower (fun p => { p with coolRounds := (d.throttleNow j).2, hbmCoolRounds := (d.hbmThrottleNow h).2 })) :=
    ⟨.of_regs rfl, d.regs, d.evt, _, rfl⟩
  unfold Dev.levelled Dev.levelOf
  generalize hx : d.onPower (fun p => { p with coolRounds := (d.throttleNow j).2, hbmCoolRounds := (d.hbmThrottleNow h).2 }) = x at *
  have power : x.power = { d.power with coolRounds := (d.throttleNow j).2, hbmCoolRounds := (d.hbmThrottleNow h).2 } := by rw [← hx]; rfl
  refine ⟨start.1.trans ((((((RegsWithin.refl _ x).set ?_ _).set ?_ _).set ?_ _).set ?_ _).set ?_ _ |>.set ?_ _),
    start.2.trans (((((x.set_only _ _).set _ _).set _ _).set _ _).set _ _ |>.set _ _).power, ?_⟩
  iterate 6 decide
  simp (disch := decide) only [Dev.set_power, power, Dev.on_set_flag, Dev.on_set_spares, and_self]

/-! ### What follows them -/

theorem Dev.tellLevels_step (d e : Dev) : PowerStep [Reg.PWR_ATTN.part 5] e (d.tellLevels e) := by
  have told : PowerStep [Reg.PWR_ATTN.part 5] e (if levelFields.any (d.rose e) then e.pwrAttend 5 else e) :=
    (PowerStep.of_onlyRegs (e.pwrAttend_regsWithin 5) (e.pwrAttend_only 5)).ite (.refl _ e)
  exact told.trans (.each (fun x n _ => .of_onlyRegs (.of_regs (x.relevel_regs n)) (x.relevel_only n)) _)

theorem Dev.tellLevels_attends {d e : Dev} {f : Fld} (hf : f ∈ levelFields) (h : d.rose e f = true) :
    (d.tellLevels e).on (Reg.PWR_ATTN.part 5) = true := by
  have rises : levelFields.any (d.rose e) = true := List.any_eq_true.2 ⟨f, hf, h⟩
  have same : ((e.pwrAttend 5).each [0x7CB, 0x7CC, 0x7CD] Dev.relevel).regs = (e.pwrAttend 5).regs :=
    Dev.each_rel (R := fun x y => y.regs = x.regs) (fun _ => rfl) (fun h g => g.trans h) (fun x n => x.relevel_regs n) _ _
  rw [Dev.tellLevels, if_pos rises, Dev.on_of_regs same, Dev.on_pwrAttend_self _ (by decide)]

/-- R448 rule 7: has a critical level risen with the temperatures j and h? -/
def Dev.critRises (d : Dev) (j h : Int) : Prop :=
  (880 ≤ j ∧ d.on Reg.PWR_THERM_CRIT = false) ∨ (760 ≤ h ∧ d.on Reg.PWR_THERM_HBM_CRIT = false)

theorem Dev.rose_iff {d e : Dev} {f : Fld} {t up down : Int} (h : e.on f = tempLevel (d.on f) t up down) :
    d.rose e f = true ↔ up ≤ t ∧ d.on f = false := by
  rw [Dev.rose, h]
  cases d.on f <;> simp [tempLevel]

/-- What a request shows of d, its levels judged and told, is what it showed of it before. -/
theorem Dev.tellLevels_requests (d : Dev) (j h : Int) {f : Fld} (hf : f ∈ [Reg.PWR_STATUS_STATE, Reg.PWR_STATUS_TARGET,
    Reg.PWR_STATUS_IN_PROGRESS, Reg.PWR_STATUS_PENDING, Reg.PWR_STATUS_HELD, Reg.PWR_STATUS_PENDING_TARGET]) :
    (d.tellLevels (d.levelled j h)).get f = d.get f := by
  have spared : ∀ f ∈ [Reg.PWR_STATUS_STATE, Reg.PWR_STATUS_TARGET, Reg.PWR_STATUS_IN_PROGRESS, Reg.PWR_STATUS_PENDING, Reg.PWR_STATUS_HELD,
    Reg.PWR_STATUS_PENDING_TARGET], ∀ g ∈ Reg.PWR_ATTN.part 5 :: levelFields, g.Spares f := by decide
  obtain ⟨attn, levels⟩ := List.forall_mem_cons.1 (spared f hf)
  rw [(d.tellLevels_step (d.levelled j h)).get (by simpa using attn), (Dev.levelled_spec (d := d) rfl).1 f levels]

/-- R448 rule 7: what judging the levels shows and requests. -/
theorem Dev.judgeTemps_spec {d e : Dev} {j h : Int} (he : d.judgeTemps j h = e) :
    PowerStep (Reg.PWR_ATTN.part 5 :: requestFields) (d.levelled j h) e ∧
    (d.critRises j h → d.devState < 3 → e.bit Reg.PWR_ATTN 5 = true ∧
      (d.on Reg.PWR_STATUS_IN_PROGRESS = false → d.devState ≤ 1 → e.requestsAre (some 2) none ∧ e.get Reg.PWR_STATUS2_LAST_CAUSE = 2) ∧
      (d.on Reg.PWR_STATUS_IN_PROGRESS = true → d.get Reg.PWR_STATUS_TARGET = 2 → e.requestsAre (some 2) none) ∧
      (d.on Reg.PWR_STATUS_IN_PROGRESS = true → d.get Reg.PWR_STATUS_TARGET ≠ 2 →
        e.requestsAre (some (d.get Reg.PWR_STATUS_TARGET)) (some (2, false)) ∧ e.power.pendCause = 2)) ∧
    (d.on Reg.PWR_THERM_CRIT = true ∨ d.on Reg.PWR_THERM_HBM_CRIT = true → j < 800 → h < 680 → d.on Reg.PWR_STATUS_PENDING = true →
      d.on Reg.PWR_STATUS_HELD = true → d.on Reg.PWR_STATUS_IN_PROGRESS = false → d.get Reg.PWR_STATUS_PENDING_TARGET ≠ d.devState →
      e.requestsAre (some (d.get Reg.PWR_STATUS_PENDING_TARGET)) none) := by
  rw [Dev.judgeTemps_eq] at he
  have same {f : Fld} := d.tellLevels_requests j h (f := f)
  have told := d.tellLevels_step (d.levelled j h)
  have attends := fun {f : Fld} => Dev.tellLevels_attends (d := d) (e := d.levelled j h) (f := f)
  obtain ⟨-, -, -, -, -, -, crit, -, -, hbmCrit⟩ := Dev.levelled_spec (d := d) (j := j) (h := h) rfl
  have roseCrit := Dev.rose_iff crit
  have roseHbm := Dev.rose_iff hbmCrit
  have critical : (d.levelled j h).critical =
      (tempLevel (d.on Reg.PWR_THERM_CRIT) j 880 800 || tempLevel (d.on Reg.PWR_THERM_HBM_CRIT) h 760 680) := by
    rw [Dev.critical, crit, hbmCrit]
  generalize d.levelled j h = y at *
  generalize d.tellLevels y = z at *
  have state : z.devState = d.devState := same (by simp)
  have progress : z.on Reg.PWR_STATUS_IN_PROGRESS = d.on Reg.PWR_STATUS_IN_PROGRESS := congrArg (· == 1) (same (by simp))
  have target : z.get Reg.PWR_STATUS_TARGET = d.get Reg.PWR_STATUS_TARGET := same (by simp)
  have rises_iff : (d.rose y Reg.PWR_THERM_CRIT || d.rose y Reg.PWR_THERM_HBM_CRIT) = true ↔ d.critRises j h := by
    rw [Bool.or_eq_true, roseCrit, roseHbm, Dev.critRises]
  have requests : requestFields ⊆ Reg.PWR_ATTN.part 5 :: requestFields := List.subset_cons_self _ _
  refine ⟨?_, fun rises low => ?_, fun was cool hbmCool pending held rest other => ?_⟩
  · rw [← he]
    exact (told.mono (by simp)).trans ((z.critSets_step.mono requests).ite ((z.critClears_spec.1.mono requests).ite (.refl _ z)))
  · rw [if_pos (rises_iff.2 rises)] at he
    have attn : z.on (Reg.PWR_ATTN.part 5) = true := by
      rcases rises with rise | rise
      · exact attends (by simp [levelFields]) (roseCrit.2 rise)
      · exact attends (by simp [levelFields]) (roseHbm.2 rise)
    have requested := Dev.critSets_spec (by omega) he
    rw [progress, state, target] at requested
    rw [Dev.bit_eq_on _ (by decide), ← he, z.critSets_step.on (by decide), he]
    exact ⟨attn, requested⟩
  · have calm : ¬d.critRises j h := by rw [Dev.critRises]; omega
    have cleared : (d.critical && !y.critical) = true := by
      rw [critical]
      rcases was with was | was <;> simp [Dev.critical, was, tempLevel, cool, hbmCool] <;> omega
    rw [if_neg (mt rises_iff.1 calm), if_pos cleared] at he
    have go := z.critClears_spec.2
    rw [he, progress, state, show z.on Reg.PWR_STATUS_PENDING = d.on Reg.PWR_STATUS_PENDING from congrArg (· == 1) (same (by simp)),
      show z.on Reg.PWR_STATUS_HELD = d.on Reg.PWR_STATUS_HELD from congrArg (· == 1) (same (by simp)), same (by simp)] at go
    exact go pending held rest other

end Sys2Proof.Machine
end

section
/-! SUPPORT. A housekeeping round as a whole (R448, R458–R461, R464). -/

namespace Sys2Proof.Machine

theorem exec_housekeepingRound {codes : List (Option Int)} (h : codes.length = 64) (s : State) :
    exec (.housekeepingRound codes) s = s.onDev (housekeepingRound codes) := State.onDevIf_pos _ _ (beq_iff_eq.2 h)

theorem housekeepingRound_runs {codes : List (Option Int)} {d : Dev} (h : d.timeRuns = true ∧ d.ready = true) :
    housekeepingRound codes d = d.round codes := if_pos (by simp [h])

theorem housekeepingRound_idle {codes : List (Option Int)} {d : Dev} (h : ¬(d.timeRuns = true ∧ d.ready = true)) :
    housekeepingRound codes d = d := if_neg (by simpa using h)

/-- The fields a round sets once it has taken its readings. -/
def judgingFields : List Fld := shownFields ++ levelFields ++ Reg.PWR_ATTN.part 5 :: requestFields

/-- A round, but for the readings it takes. -/
theorem Dev.round_after (codes : List (Option Int)) (d : Dev) : RegsWithin judgingFields (d.sampled codes) (d.round codes) ∧
    OnlyPower (d.sampled codes) (d.round codes) ∧ (d.round codes).power.rounds = (d.sampled codes).power.rounds := by
  rw [Dev.round_eq]
  obtain ⟨shown, -⟩ := Dev.roundShown_spec (d := d.sampled codes) rfl
  obtain ⟨levels, only, rounds, -⟩ :=
    Dev.levelled_spec (d := (d.sampled codes).roundShown) (j := (d.sampled codes).junction) (h := (d.sampled codes).hbmTop) rfl
  obtain ⟨judged, -⟩ :=
    Dev.judgeTemps_spec (d := (d.sampled codes).roundShown) (j := (d.sampled codes).junction) (h := (d.sampled codes).hbmTop) rfl
  refine ⟨((shown.regs.mono ?_).trans (levels.mono ?_)).trans (judged.regs.mono ?_), (shown.only.trans only).trans judged.only,
    (judged.rounds.trans rounds).trans shown.rounds⟩
  · exact fun _ h => List.mem_append_left _ (List.mem_append_left _ h)
  · exact fun _ h => List.mem_append_left _ (List.mem_append_right _ h)
  · exact List.subset_append_right _ _

/-- What taking the readings leaves alone. -/
theorem Dev.sampled_only (codes : List (Option Int)) (d : Dev) :
    OnlyPower d (d.sampled codes) ∧ (d.sampled codes).power = { d.power with rounds := d.roundsWith codes } := by
  obtain ⟨-, x, hx, only⟩ := d.sampled_step codes
  have start : OnlyPower d x := hx ▸ ⟨d.regs, d.evt, _, rfl⟩
  exact ⟨start.trans only.power, only.power_eq.trans (by rw [hx]; rfl)⟩

/-- R458: what a round leaves alone. -/
theorem Dev.round_frame (codes : List (Option Int)) (d : Dev) :
    OnlyPower d (d.round codes) ∧ (d.round codes).power.rounds = d.roundsWith codes ∧ (d.round codes).devState = d.devState ∧
      ∀ n < 64, SameChannel n (d.sampled codes) (d.round codes) := by
  obtain ⟨regs, only, rounds⟩ := d.round_after codes
  obtain ⟨taken, power⟩ := d.sampled_only codes
  refine ⟨taken.trans only, by rw [rounds, power], ?_, fun n hn => regs.channel (by decide) hn⟩
  exact (regs _ (by decide)).trans ((d.sampled_step codes).1 _ (by decide))

/-- R458, R461, R464: what a round shows, its levels apart. -/
theorem Dev.round_shows (codes : List (Option Int)) (d : Dev) :
    let x := d.sampled codes
    let e := d.round codes
    e.get Reg.PWR_THERM_ROUNDS = (d.get Reg.PWR_THERM_ROUNDS + 1) % 2 ^ 32 ∧ e.on Reg.PWR_THERM_FIRST_ROUND = true ∧
      e.get Reg.PWR_THERM_HOTTEST = wrapTo 16 x.junction ∧
      e.get Reg.PWR_THERM_HOT_SENSOR = ((upFrom 0 32).map x.temp).findIdx (fun t => t == x.junction) % 32 ∧
      (∀ k < 2, x.on (Reg.PWR_HK_MASK (32 + k)) = false →
        e.bit Reg.HBM_STATUS_REFRESH_2X k = tempLevel (d.bit Reg.HBM_STATUS_REFRESH_2X k) (x.rawTemp (32 + k)) 680 664) ∧
      e.on Reg.PWR_THERM_FUSE_OK = x.fuseOk := by
  intro x e
  have taken := (d.sampled_step codes).1
  obtain ⟨-, hottest, sensor, refresh, fuse, first, rounds⟩ := Dev.roundShown_spec (d := x) rfl
  have regs : RegsWithin (levelFields ++ Reg.PWR_ATTN.part 5 :: requestFields) x.roundShown e :=
    ((Dev.levelled_spec rfl).1.mono (List.subset_append_left _ _)).trans
      ((Dev.judgeTemps_spec (d := x.roundShown) rfl).1.regs.mono (List.subset_append_right _ _))
  have was (k : Nat) : x.bit Reg.HBM_STATUS_REFRESH_2X k = d.bit Reg.HBM_STATUS_REFRESH_2X k := by
    rw [Dev.bit, taken _ (by decide), Dev.bit]
  refine ⟨?_, ?_, ?_, ?_, fun k hk sound => ?_, ?_⟩
  · rw [regs _ (by decide), rounds, taken _ (by decide)]
  · rw [regs.on (by decide), first]
  · rw [regs _ (by decide), hottest]
  · rw [regs _ (by decide), sensor]
  · rw [Dev.bit, regs _ (by decide), ← Dev.bit, refresh k hk sound, was]
  · rw [regs.on (by decide), fuse]

/-- What a round shows before it judges its levels is, of them and of the requests, what stood there. -/
theorem Dev.roundShown_before (codes : List (Option Int)) (d : Dev) :
    PowerStep (samplingFields ++ shownFields) { d with power := (d.sampled codes).power } (d.sampled codes).roundShown := by
  obtain ⟨-, x, hx, only⟩ := d.sampled_step codes
  have taken := (d.sampled_step codes).1
  obtain ⟨shown, -⟩ := Dev.roundShown_spec (d := d.sampled codes) rfl
  have start : PowerStep samplingFields { d with power := (d.sampled codes).power } (d.sampled codes) := by
    refine ⟨fun f hf => taken f hf, ?_, rfl, rfl, rfl⟩
    obtain ⟨rs, ev, p, h⟩ := (d.sampled_only codes).1
    exact ⟨rs, ev, p, h⟩
  exact (start.mono (List.subset_append_left _ _)).trans (shown.mono (List.subset_append_right _ _))

/-- R461: what a round makes of the levels. -/
theorem Dev.round_levels {codes : List (Option Int)} {d e : Dev} {j h : Int} (hj : (d.sampled codes).junction = j)
    (hh : (d.sampled codes).hbmTop = h) (he : d.round codes = e) :
    e.on Reg.PWR_THERM_WARN = tempLevel (d.on Reg.PWR_THERM_WARN) j 760 744 ∧ e.on Reg.PWR_THERM_THROTTLE = (d.throttleNow j).1 ∧
      e.on Reg.PWR_THERM_CRIT = tempLevel (d.on Reg.PWR_THERM_CRIT) j 880 800 ∧
      e.on Reg.PWR_THERM_HBM_WARN = tempLevel (d.on Reg.PWR_THERM_HBM_WARN) h 680 664 ∧
      e.on Reg.PWR_THERM_HBM_THROTTLE = (d.hbmThrottleNow h).1 ∧
      e.on Reg.PWR_THERM_HBM_CRIT = tempLevel (d.on Reg.PWR_THERM_HBM_CRIT) h 760 680 ∧ e.power.coolRounds = (d.throttleNow j).2 := by
  have before := d.roundShown_before codes
  have counts : (d.sampled codes).power.coolRounds = d.power.coolRounds ∧ (d.sampled codes).power.hbmCoolRounds = d.power.hbmCoolRounds := by
    rw [(d.sampled_only codes).2]
    exact ⟨rfl, rfl⟩
  rw [Dev.round_eq, hj, hh] at he
  generalize (d.sampled codes).roundShown = y at *
  have was {f : Fld} (hf : ∀ g ∈ samplingFields ++ shownFields, g.Spares f) : y.on f = d.on f := before.on hf
  obtain ⟨judged, -⟩ := Dev.judgeTemps_spec he
  obtain ⟨-, -, -, count, warn, throttle, crit, hbmWarn, hbmThrottle, hbmCrit⟩ := Dev.levelled_spec (d := y) (j := j) (h := h) rfl
  have same : y.throttleNow j = d.throttleNow j ∧ y.hbmThrottleNow h = d.hbmThrottleNow h := by
    rw [Dev.throttleNow, Dev.hbmThrottleNow, was (by decide), was (by decide), before.cool, before.hbmCool]
    exact ⟨congrArg (throttleOf _ · _ _ _) counts.1, congrArg (throttleOf _ · _ _ _) counts.2⟩
  rw [was (by decide)] at warn crit hbmWarn hbmCrit
  rw [same.1] at throttle count
  rw [same.2] at hbmThrottle
  exact ⟨(judged.on (by decide)).trans warn, (judged.on (by decide)).trans throttle, (judged.on (by decide)).trans crit,
    (judged.on (by decide)).trans hbmWarn, (judged.on (by decide)).trans hbmThrottle, (judged.on (by decide)).trans hbmCrit, judged.cool.trans count⟩

/-- R448 rule 7: what a round requests. -/
theorem Dev.round_requests {codes : List (Option Int)} {d e : Dev} {j h : Int} (hj : (d.sampled codes).junction = j)
    (hh : (d.sampled codes).hbmTop = h) (he : d.round codes = e) :
    (d.critRises j h → d.devState < 3 → e.bit Reg.PWR_ATTN 5 = true ∧
      (d.on Reg.PWR_STATUS_IN_PROGRESS = false → d.devState ≤ 1 → e.requestsAre (some 2) none ∧ e.get Reg.PWR_STATUS2_LAST_CAUSE = 2) ∧
      (d.on Reg.PWR_STATUS_IN_PROGRESS = true → d.get Reg.PWR_STATUS_TARGET = 2 → e.requestsAre (some 2) none) ∧
      (d.on Reg.PWR_STATUS_IN_PROGRESS = true → d.get Reg.PWR_STATUS_TARGET ≠ 2 →
        e.requestsAre (some (d.get Reg.PWR_STATUS_TARGET)) (some (2, false)) ∧ e.power.pendCause = 2)) ∧
    (d.on Reg.PWR_THERM_CRIT = true ∨ d.on Reg.PWR_THERM_HBM_CRIT = true → j < 800 → h < 680 → d.on Reg.PWR_STATUS_PENDING = true →
      d.on Reg.PWR_STATUS_HELD = true → d.on Reg.PWR_STATUS_IN_PROGRESS = false → d.get Reg.PWR_STATUS_PENDING_TARGET ≠ d.devState →
      e.requestsAre (some (d.get Reg.PWR_STATUS_PENDING_TARGET)) none) := by
  have before := d.roundShown_before codes
  rw [Dev.round_eq, hj, hh] at he
  generalize (d.sampled codes).roundShown = y at *
  have on_ {f : Fld} (hf : ∀ g ∈ samplingFields ++ shownFields, g.Spares f) : y.on f = d.on f := before.on hf
  have get {f : Fld} (hf : ∀ g ∈ samplingFields ++ shownFields, g.Spares f) : y.get f = d.get f := before.get hf
  have requested := (Dev.judgeTemps_spec he).2
  rw [Dev.critRises, Dev.devState, on_ (f := Reg.PWR_THERM_CRIT) (by decide), on_ (f := Reg.PWR_THERM_HBM_CRIT) (by decide),
    on_ (f := Reg.PWR_STATUS_IN_PROGRESS) (by decide), on_ (f := Reg.PWR_STATUS_PENDING) (by decide), on_ (f := Reg.PWR_STATUS_HELD) (by decide),
    get (f := Reg.PWR_STATUS_STATE) (by decide), get (f := Reg.PWR_STATUS_TARGET) (by decide),
    get (f := Reg.PWR_STATUS_PENDING_TARGET) (by decide)] at requested
  exact requested

/-! ### Sound sensors -/

section
variable {codes : List (Option Int)} {d : Dev} {t : Nat → Int} (short : d.power.rounds.length < 999)
  (sound : ∀ n < 34, d.on (Reg.PWR_HK_MASK n) = false ∧ codes[n]? = some (some (t n)) ∧ -320 ≤ t n ∧ t n ≤ 1200)
include short sound

theorem Dev.sound_rawTemp {n : Nat} (hn : n < 34) : (d.sampled codes).rawTemp n = t n :=
  have ⟨_, code, lo, hi⟩ := sound n hn
  d.sampled_sound codes (by omega) short code lo hi

theorem Dev.sound_temp {n : Nat} (hn : n < 34) : (d.sampled codes).temp n = t n := by
  rw [Dev.temp_unmasked ((d.sampled_mask codes (by omega)).trans (sound n hn).1), Dev.sound_rawTemp short sound hn]

theorem Dev.sound_junction {j : Int} (top : ∀ n < 32, t n ≤ j) (some_ : ∃ n < 32, t n = j) : (d.sampled codes).junction = j := by
  refine maxInt_eq ?_ ?_
  · simp only [List.forall_mem_map, mem_upFrom]
    intro n hn
    rw [Dev.sound_temp short sound (by omega)]
    exact top n (by omega)
  · obtain ⟨n, hn, rfl⟩ := some_
    exact List.mem_map.2 ⟨n, (mem_upFrom 0 32 n).2 (by omega), Dev.sound_temp short sound (by omega)⟩

theorem Dev.sound_hbmTop : (d.sampled codes).hbmTop = max (t 32) (t 33) := by
  rw [Dev.hbmTop, Dev.sound_temp short sound (by decide), Dev.sound_temp short sound (by decide)]

/-- R461: the sensor shown is one of the hottest. -/
theorem Dev.sound_hotSensor {j : Int} (some_ : ∃ n < 32, t n = j) :
    t (((upFrom 0 32).map (d.sampled codes).temp).findIdx (fun x => x == j) % 32) = j := by
  have temps : (upFrom 0 32).map (d.sampled codes).temp = (upFrom 0 32).map t :=
    List.map_congr_left fun n hn => Dev.sound_temp short sound (by rw [mem_upFrom] at hn; omega)
  have found : ((upFrom 0 32).map t).findIdx (fun x => x == j) < ((upFrom 0 32).map t).length := by
    obtain ⟨n, hn, rfl⟩ := some_
    exact List.findIdx_lt_length_of_exists ⟨t n, List.mem_map_of_mem ((mem_upFrom 0 32 n).2 (by omega)), beq_self_eq_true _⟩
  have at_ : ((upFrom 0 32).map t)[((upFrom 0 32).map t).findIdx (fun x => x == j)] == j := List.findIdx_getElem (w := found)
  have index : ∀ i (hi : i < (upFrom 0 32).length), (upFrom 0 32)[i] = i := by decide
  rw [temps]
  rw [List.getElem_map, index, beq_iff_eq] at at_
  rw [List.length_map, upFrom_length] at found
  rw [Nat.mod_eq_of_lt found, at_]

/-- R464: the device may be fused while every die sensor is in its band. -/
theorem Dev.sound_fuseOk : (d.sampled codes).fuseOk = true ↔ ∀ n < 32, 120 ≤ t n ∧ t n ≤ 680 := by
  simp only [Dev.fuseOk, List.all_eq_true, mem_upFrom]
  refine forall_congr' fun n => ⟨fun h hn => ?_, fun h hn => ?_⟩
  · have ok := h (by omega)
    rw [(d.sampled_mask codes (by omega)).trans (sound n (by omega)).1, Dev.sound_rawTemp short sound (by omega)] at ok
    simpa using ok
  · rw [(d.sampled_mask codes (by omega)).trans (sound n (by omega)).1, Dev.sound_rawTemp short sound (by omega)]
    simpa using h (by omega)

end

end Sys2Proof.Machine
end

section
/-! SUPPORT. The pace monitors (R31–R33): what the pace loop leaves alone, and the end of a window. -/

namespace Sys2Proof.Machine

/-! ### What the pace loop leaves alone -/

/-- The second device differs from the first in registers, the event fabric, the pace loop's data and the open values drawn alone. -/
def OnlyPace (d e : Dev) : Prop := ∃ rs ev p n, e = { d with regs := rs, evt := ev, pace := p, free := n }

theorem OnlyPace.refl (d : Dev) : OnlyPace d d := ⟨d.regs, d.evt, d.pace, d.free, rfl⟩

theorem OnlyPace.trans {d e f : Dev} (h : OnlyPace d e) (g : OnlyPace e f) : OnlyPace d f := by
  obtain ⟨_, _, _, _, rfl⟩ := h; obtain ⟨rs, ev, p, n, rfl⟩ := g; exact ⟨rs, ev, p, n, rfl⟩

theorem OnlyRegs.pace {d e : Dev} (h : OnlyRegs d e) : OnlyPace d e := by
  obtain ⟨rs, ev, rfl⟩ := h; exact ⟨rs, ev, d.pace, d.free, rfl⟩

theorem OnlyRegs.pace_eq {d e : Dev} (h : OnlyRegs d e) : e.pace = d.pace := by
  obtain ⟨rs, ev, rfl⟩ := h; rfl

theorem OnlyPace.onPace {d e : Dev} (h : OnlyPace d e) (g : PaceState → PaceState) : OnlyPace d (e.onPace g) :=
  h.trans ⟨e.regs, e.evt, g e.pace, e.free, rfl⟩

theorem OnlyPace.frame {d e : Dev} (h : OnlyPace d e) : d.powerFrame e ∧ e.power = d.power := by
  obtain ⟨rs, ev, p, n, rfl⟩ := h
  exact ⟨⟨rfl, rfl, rfl, rfl, rfl, rfl, rfl, rfl, rfl, rfl, rfl⟩, rfl⟩

/-! ### The end of a window (R31, R33) -/

theorem exec_monitorWindowEnd {readings : List Nat} (h : readings.length = 64) (s : State) :
    exec (.monitorWindowEnd readings) s = s.onDev (monitorWindowEnd readings) := State.onDevIf_pos _ _ (beq_iff_eq.2 h)

theorem exec_paceLoopUpdate (avs : BitVec 4) (s : State) : exec (.paceLoopUpdate avs) s = s.onDev (paceLoopUpdate avs) := rfl

/-- R31: the reading of monitor m at the end of a window. -/
def Dev.windowReading (d : Dev) (readings : List Nat) (m : Nat) : Nat := if d.monOn m then min 2047 (readings.getD m 0) else 0

/-- R31: a monitor shows its reading. -/
def Dev.showMonitor (readings : List Nat) (d : Dev) (m : Nat) : Dev := d.set (Reg.PWR_PACE_MON_READING m) (d.windowReading readings m)

/-- The device that shows the readings of a window. -/
def Dev.withReadings (readings : List Nat) (d : Dev) : Dev := d.each (upFrom 0 64) (Dev.showMonitor readings)

/-- R33: the monitors that take part, as a window ends. -/
def Dev.takingNow (d : Dev) : List Nat := (upFrom 0 64).filter d.monWhole

/-- R33: the device whose next window begins. -/
def Dev.nextWindow (d : Dev) (taking : List Nat) : Dev := d.onPace (fun p => { p with taking := taking, broken := [], windowed := true })

theorem monitorWindowEnd_eq (readings : List Nat) (d : Dev) : monitorWindowEnd readings d =
    (((d.withReadings readings).nextWindow d.takingNow).each d.takingNow Dev.judgeReading).relevel 0x7C4 := rfl

@[simp] theorem Dev.get_nextWindow (d : Dev) (taking : List Nat) (f : Fld) : (d.nextWindow taking).get f = d.get f := rfl
@[simp] theorem Dev.on_nextWindow (d : Dev) (taking : List Nat) (f : Fld) : (d.nextWindow taking).on f = d.on f := rfl

theorem monRail_lt (m : Nat) : monRail m < 4 := by
  unfold monRail
  split
  · decide
  · split
    · decide
    · split <;> decide

/-- The fields of monitor m, and those that tell of its fault. -/
def monitorFields (m : Nat) : List Fld :=
  [Reg.PWR_PACE_MON_READING m, Reg.PWR_PACE_MON_FAULT m, Reg.PWR_PACE_STATUS_MON_FAULT.part (monRail m)]

/-- A monitor's fields lie in its word and that of PWR_PACE_STATUS. -/
theorem monitorFields_off {m o : Nat} (h : o ≠ 0x301100 + m * 4) (h' : o ≠ 0x30100c) : ∀ g ∈ monitorFields m, g.off ≠ o := by
  simp only [monitorFields, List.mem_cons, List.not_mem_nil, or_false, forall_eq_or_imp, forall_eq, Reg.PWR_PACE_MON_READING,
    Reg.PWR_PACE_MON_FAULT, Reg.PWR_PACE_STATUS_MON_FAULT]
  omega

theorem Dev.showMonitor_step (readings : List Nat) (d : Dev) (m : Nat) : RegsWithin (monitorFields m) d (d.showMonitor readings m) ∧
    OnlyRegs d (d.showMonitor readings m) := ⟨(RegsWithin.refl _ d).set (by simp [monitorFields]) _, d.set_only _ _⟩

theorem Dev.judgeReading_eq (d : Dev) (m : Nat) : d.judgeReading m =
    if d.get (Reg.PWR_PACE_MON_READING m) = 0 ∨ d.get (Reg.PWR_PACE_MON_READING m) = 2047 then
      (d.set (Reg.PWR_PACE_MON_FAULT m) 1).set (Reg.PWR_PACE_STATUS_MON_FAULT.part (monRail m)) 1
    else d := by
  have bit : (d.set (Reg.PWR_PACE_MON_FAULT m) 1).setBit Reg.PWR_PACE_STATUS_MON_FAULT (monRail m) =
      (d.set (Reg.PWR_PACE_MON_FAULT m) 1).set (Reg.PWR_PACE_STATUS_MON_FAULT.part (monRail m)) 1 := Dev.setBit_eq_set _ (monRail_lt m)
  rw [← bit]
  rfl

theorem Dev.judgeReading_step (d : Dev) (m : Nat) : RegsWithin (monitorFields m) d (d.judgeReading m) ∧ OnlyRegs d (d.judgeReading m) := by
  rw [Dev.judgeReading_eq]
  exact ⟨(((RegsWithin.refl _ d).set (by simp [monitorFields]) _).set (by simp [monitorFields]) _).ite (.refl _ d),
    ((d.set_only _ _).set _ _).ite (.refl d)⟩

/-- R33: what judging a reading makes of its monitor's fault. -/
theorem Dev.judgeReading_spec (d : Dev) (m : Nat) :
    (d.judgeReading m).get (Reg.PWR_PACE_MON_READING m) = d.get (Reg.PWR_PACE_MON_READING m) ∧
    ((d.judgeReading m).on (Reg.PWR_PACE_MON_FAULT m) = true ↔ d.on (Reg.PWR_PACE_MON_FAULT m) = true ∨
      d.get (Reg.PWR_PACE_MON_READING m) = 0 ∨ d.get (Reg.PWR_PACE_MON_READING m) = 2047) := by
  have apart : Fld.Spares (Reg.PWR_PACE_MON_FAULT m) (Reg.PWR_PACE_MON_READING m) :=
    .inr (by simp [Reg.PWR_PACE_MON_FAULT, Reg.PWR_PACE_MON_READING])
  have far (f : Fld) (hf : f.off = 0x301100 + m * 4) : Fld.Spares (Reg.PWR_PACE_STATUS_MON_FAULT.part (monRail m)) f :=
    .inl (by rw [hf]; simp [Reg.PWR_PACE_STATUS_MON_FAULT]; omega)
  rw [Dev.judgeReading_eq]
  split
  · next bad =>
    rw [Dev.get_set_spares _ _ (far _ rfl), Dev.get_set_spares _ _ apart, Dev.on_set_spares _ _ (far _ rfl),
      Dev.on_set_self _ _ _ (by simp [Reg.PWR_PACE_MON_FAULT])]
    exact ⟨rfl, fun _ => .inr bad, fun _ => rfl⟩
  · next sound => exact ⟨rfl, .inl, fun h => h.resolve_right sound⟩

/-! ### Every monitor -/

/-- The words below those of the pace loop are the same in both. -/
def SameBelowPace (d e : Dev) : Prop := ∀ o < 0x301000, SameWord o d e

theorem SameBelowPace.trans {d e f : Dev} (h : SameBelowPace d e) (g : SameBelowPace e f) : SameBelowPace d f :=
  fun o ho => (h o ho).trans (g o ho)

theorem monDomain_lt (m : Nat) : monDomain m < 24 := by
  unfold monDomain
  repeat' split
  all_goals omega

theorem Dev.monOn_congr {d e : Dev} (h : SameBelowPace d e) (m : Nat) : e.monOn m = d.monOn m := by
  have small := monDomain_lt m
  have on_ (k : Nat) (hk : k < 24) : e.domainOn k = d.domainOn k := by
    rw [Dev.domainOn, h (0x300100 + k * 0x10) (by omega) _ rfl, Dev.domainOn]
  rw [Dev.monOn, on_ _ small, on_ 20 (by decide), Dev.monOn]

/-- R31: each monitor shows its reading, its fault as it was. -/
theorem Dev.withReadings_spec (readings : List Nat) (d : Dev) {m : Nat} (hm : m < 64) :
    (d.withReadings readings).get (Reg.PWR_PACE_MON_READING m) = d.windowReading readings m ∧
      (d.withReadings readings).on (Reg.PWR_PACE_MON_FAULT m) = d.on (Reg.PWR_PACE_MON_FAULT m) := by
  have other (e : Dev) (k : Nat) (_ : k ∈ upFrom 0 64) (ne : k ≠ m) :
      SameWord (0x301100 + m * 4) e (e.showMonitor readings k) ∧ SameBelowPace e (e.showMonitor readings k) := by
    have regs := (e.showMonitor_step readings k).1
    refine ⟨regs.sameWord (monitorFields_off (by omega) (by omega)), fun o ho => regs.sameWord (monitorFields_off (by omega) (by omega))⟩
  obtain ⟨x, ⟨before, below⟩, after, -⟩ := Dev.each_once
    (R := fun d e => SameWord (0x301100 + m * 4) d e ∧ SameBelowPace d e) (fun d => ⟨.refl _ d, fun o _ => .refl o d⟩)
    (fun h g => ⟨h.1.trans g.1, h.2.trans g.2⟩) (upFrom_nodup 0 64) ((mem_upFrom 0 64 m).2 (by omega)) other d
  have apart : Fld.Spares (Reg.PWR_PACE_MON_READING m) (Reg.PWR_PACE_MON_FAULT m) :=
    .inr (by simp [Reg.PWR_PACE_MON_FAULT, Reg.PWR_PACE_MON_READING])
  have reading : x.windowReading readings m = d.windowReading readings m := by
    rw [Dev.windowReading, Dev.monOn_congr below, Dev.windowReading]
  have small : d.windowReading readings m < 2 ^ 11 := by
    rw [Dev.windowReading]
    split <;> omega
  rw [Dev.withReadings, after _ rfl, after.on rfl, Dev.showMonitor, reading, Dev.get_set_self _ _ _ (by simp [Reg.PWR_PACE_MON_READING]),
    Dev.on_set_spares _ _ apart, before.on rfl]
  exact ⟨Nat.mod_eq_of_lt small, rfl⟩

/-- R33: the monitors that take part are judged, and no other. -/
theorem Dev.judgeReadings_spec (d : Dev) {ms : List Nat} (nodup : ms.Nodup) (m : Nat) :
    (d.each ms Dev.judgeReading).get (Reg.PWR_PACE_MON_READING m) = d.get (Reg.PWR_PACE_MON_READING m) ∧
      ((d.each ms Dev.judgeReading).on (Reg.PWR_PACE_MON_FAULT m) = true ↔ d.on (Reg.PWR_PACE_MON_FAULT m) = true ∨
        m ∈ ms ∧ (d.get (Reg.PWR_PACE_MON_READING m) = 0 ∨ d.get (Reg.PWR_PACE_MON_READING m) = 2047)) := by
  have other (e : Dev) (k : Nat) (_ : k ∈ ms) (ne : k ≠ m) : SameWord (0x301100 + m * 4) e (e.judgeReading k) :=
    (e.judgeReading_step k).1.sameWord (monitorFields_off (by omega) (by omega))
  by_cases judged : m ∈ ms
  · obtain ⟨x, before, after⟩ := Dev.each_once (SameWord.refl _) SameWord.trans nodup judged other d
    obtain ⟨reading, fault⟩ := x.judgeReading_spec m
    rw [after _ rfl, after.on rfl, reading, fault, before _ rfl, before.on rfl]
    simp [judged]
  · have same : SameWord (0x301100 + m * 4) d (d.each ms Dev.judgeReading) := Dev.each_rel_mem (SameWord.refl _) SameWord.trans
      (fun e k hk => other e k hk fun h => judged (h ▸ hk)) d
    rw [same _ rfl, same.on rfl]
    simp [judged]

/-- A rail's words stand as a window ends. -/
theorem monitorWindowEnd_sameWord (readings : List Nat) (d : Dev) {o : Nat} (ho : o < 0x301100) (h : o ≠ 0x30100c) :
    SameWord o d (monitorWindowEnd readings d) := by
  have off (k : Nat) : ∀ g ∈ monitorFields k, g.off ≠ o := monitorFields_off (by omega) h
  have shown : SameWord o d (d.withReadings readings) := Dev.each_rel (SameWord.refl o) SameWord.trans
    (fun e k => (e.showMonitor_step readings k).1.sameWord (off k)) _ _
  rw [monitorWindowEnd_eq]
  refine (shown.trans ?_).trans (RegsWithin.sameWord (ws := []) (.of_regs (Dev.relevel_regs _ _)) (by simp))
  have next : SameWord o (d.withReadings readings) ((d.withReadings readings).nextWindow d.takingNow) := fun f _ => Dev.get_nextWindow _ _ f
  exact next.trans (Dev.each_rel (SameWord.refl o) SameWord.trans (fun e k => (e.judgeReading_step k).1.sameWord (off k)) _ _)

/-- R31, R33: what the end of a window leaves alone, and what it makes of the pace loop's data. -/
theorem monitorWindowEnd_pace (readings : List Nat) (d : Dev) : OnlyPace d (monitorWindowEnd readings d) ∧
    (monitorWindowEnd readings d).pace = { d.pace with taking := d.takingNow, broken := [], windowed := true } := by
  have shown : OnlyRegs d (d.withReadings readings) := Dev.each_rel OnlyRegs.refl OnlyRegs.trans (fun e k => (e.showMonitor_step readings k).2) _ _
  have judged (e : Dev) : OnlyRegs e ((e.each d.takingNow Dev.judgeReading).relevel 0x7C4) :=
    (Dev.each_rel OnlyRegs.refl OnlyRegs.trans (fun e k => (e.judgeReading_step k).2) _ _).trans (Dev.relevel_only _ _)
  rw [monitorWindowEnd_eq]
  refine ⟨(shown.pace.onPace _).trans (judged _).pace, (judged _).pace_eq.trans ?_⟩
  rw [Dev.nextWindow, Dev.onPace, shown.pace_eq]

/-- R31, R33: what the end of a window makes of a monitor. -/
theorem monitorWindowEnd_monitor (readings : List Nat) (d : Dev) {m : Nat} (hm : m < 64) :
    (monitorWindowEnd readings d).get (Reg.PWR_PACE_MON_READING m) = d.windowReading readings m ∧
      ((monitorWindowEnd readings d).on (Reg.PWR_PACE_MON_FAULT m) = true ↔ d.on (Reg.PWR_PACE_MON_FAULT m) = true ∨
        (d.monWhole m = true ∧ (readings.getD m 0 = 0 ∨ 2047 ≤ readings.getD m 0))) := by
  obtain ⟨reading, fault⟩ := d.withReadings_spec readings hm
  rw [monitorWindowEnd_eq, Dev.get_relevel, Dev.on_relevel]
  obtain ⟨shows, faults⟩ := Dev.judgeReadings_spec ((d.withReadings readings).nextWindow d.takingNow) ((upFrom_nodup 0 64).filter d.monWhole) m
  rw [Dev.get_nextWindow, reading] at shows faults
  rw [Dev.on_nextWindow, fault] at faults
  refine ⟨shows, faults.trans (or_congr_right ?_)⟩
  rw [List.mem_filter, mem_upFrom]
  refine ⟨fun ⟨⟨_, whole⟩, bad⟩ => ⟨whole, ?_⟩, fun ⟨whole, bad⟩ => ⟨⟨by omega, whole⟩, ?_⟩⟩
  all_goals
    have on_ : d.monOn m = true := by
      simp only [Dev.monWhole, Bool.and_eq_true] at whole
      exact whole.1.1
    rw [Dev.windowReading, if_pos on_] at *
    omega

end Sys2Proof.Machine
end

section
/-! SUPPORT. The pace loop (R33–R41), rail by rail: the fields of a rail, and what each part of an update leaves alone. -/

namespace Sys2Proof.Machine

/-! ### What the parts of an update leave alone -/

/-- From d to e the listed fields alone change, and nothing the slack of a rail is counted in. -/
structure PaceStep (ws : List Fld) (d e : Dev) : Prop where
  regs : RegsWithin ws d e
  only : OnlyPace d e
  taking : e.pace.taking = d.pace.taking
  late : e.pace.late = d.pace.late
  slackHigh : e.pace.slackHigh = d.pace.slackHigh

namespace PaceStep

variable {ws vs : List Fld} {d e f : Dev}

theorem of_onlyRegs (regs : RegsWithin ws d e) (only : OnlyRegs d e) : PaceStep ws d e := by
  refine ⟨regs, only.pace, ?_, ?_, ?_⟩ <;> rw [only.pace_eq]

theorem refl (ws : List Fld) (d : Dev) : PaceStep ws d d := of_onlyRegs (.refl ws d) (.refl d)

theorem trans (h : PaceStep ws d e) (g : PaceStep ws e f) : PaceStep ws d f :=
  ⟨h.regs.trans g.regs, h.only.trans g.only, g.taking.trans h.taking, g.late.trans h.late, g.slackHigh.trans h.slackHigh⟩

theorem mono (h : PaceStep ws d e) (hs : ws ⊆ vs) : PaceStep vs d e := { h with regs := h.regs.mono hs }

theorem set (h : PaceStep ws d e) {x : Fld} (hx : x ∈ ws) (v : Nat) : PaceStep ws d (e.set x v) :=
  h.trans (of_onlyRegs ((RegsWithin.refl ws e).set hx v) (e.set_only x v))

theorem raise (h : PaceStep ws d e) (n : Nat) : PaceStep ws d (e.raise n) := h.trans (of_onlyRegs (.of_regs rfl) (e.raise_only n))

theorem onPace (h : PaceStep ws d e) {g : PaceState → PaceState} (taking : (g e.pace).taking = e.pace.taking)
    (late : (g e.pace).late = e.pace.late) (slackHigh : (g e.pace).slackHigh = e.pace.slackHigh) : PaceStep ws d (e.onPace g) :=
  h.trans ⟨.of_regs rfl, (OnlyPace.refl e).onPace g, taking, late, slackHigh⟩

theorem ite {c : Prop} [Decidable c] (h : PaceStep ws d e) (g : PaceStep ws d f) : PaceStep ws d (if c then e else f) := by
  split
  · exact h
  · exact g

theorem each {α : Type} {g : Dev → α → Dev} {xs : List α} (h : ∀ d, ∀ x ∈ xs, PaceStep ws d (g d x)) (d : Dev) : PaceStep ws d (d.each xs g) :=
  Dev.each_rel_mem (refl ws) trans h d

theorem get (h : PaceStep ws d e) {x : Fld} (hx : ∀ g ∈ ws, g.Spares x) : e.get x = d.get x := h.regs x hx

theorem on (h : PaceStep ws d e) {x : Fld} (hx : ∀ g ∈ ws, g.Spares x) : e.on x = d.on x := h.regs.on hx

end PaceStep

/-! ### The fields of a rail -/

/-- A field that an update of rail r reads or writes: below the words of the rails, in a word of rail r or of one of its monitors, or its
bit of PWR_PACE_STATUS. -/
def RailField (r : Nat) (f : Fld) : Prop :=
  f.off < 0x30100c ∨ (0x301010 + r * 0x20 ≤ f.off ∧ f.off < 0x301030 + r * 0x20) ∨ (∃ m ∈ railMonitors r, f.off = 0x301100 + m * 4) ∨
    (f.off = 0x30100c ∧ f.w = 1 ∧ (f.lo = 1 + r ∨ f.lo = 5 + r ∨ f.lo = 9 + r ∨ f.lo = 13 + r))

/-- The fields that judging the monitors of rail r sets. -/
def judgeFields (r : Nat) : List Fld := (railMonitors r).map Reg.PWR_PACE_MON_FAULT ++ [Reg.PWR_PACE_STATUS_MON_FAULT.part r]

/-- The fields that show the lowest reading of rail r and its command. -/
def driveFields (r : Nat) : List Fld :=
  [Reg.PWR_PACE_RAIL_PACE_MIN r, Reg.PWR_PACE_RAIL_MIN_MON r, Reg.PWR_PACE_STATUS_SHORT.part r, Reg.PWR_PACE_RAIL_SETPOINT r,
    Reg.PWR_PACE_STATUS_AT_CEIL.part r, Reg.PWR_PACE_RAIL_VNEED r, Reg.PWR_PACE_RAIL_VNEED_MAX24 r, Reg.PWR_PACE_RAIL_RESERVE r]

/-- The fields that an update of rail r sets. -/
def railWrites (r : Nat) : List Fld :=
  judgeFields r ++ [Reg.PWR_PACE_RAIL_MSLACK r, Reg.PWR_PACE_RAIL_TARGET r, Reg.PWR_PACE_STATUS_AVS_FAULT.part r] ++ driveFields r

/-- R32: the monitors of a rail. -/
theorem mem_railMonitors {r m : Nat} (hr : r < 4) : m ∈ railMonitors r ↔ m < 64 ∧ monRail m = r := by
  have range : railMonitors r = if r = 0 then upFrom 0 14 else if r = 1 then upFrom 14 12 else if r = 2 then upFrom 26 22 else upFrom 48 16 := rfl
  rw [range, monRail]
  split_ifs <;> rw [mem_upFrom] <;> omega

/-- An update of one rail spares the fields of another. -/
theorem railWrites_spare {r k : Nat} (hr : r < 4) (hk : k < 4) (ne : k ≠ r) {f : Fld} (hf : RailField r f) :
    ∀ g ∈ railWrites k, g.Spares f := by
  have monitors : ∀ m ∈ railMonitors k, Fld.Spares (Reg.PWR_PACE_MON_FAULT m) f := by
    intro m hm
    rw [mem_railMonitors hk] at hm
    refine .inl ?_
    simp only [Reg.PWR_PACE_MON_FAULT]
    rcases hf with hf | hf | ⟨l, hl, hf⟩ | hf
    · omega
    · omega
    · rw [mem_railMonitors hr] at hl
      have : l ≠ m := by
        rintro rfl
        omega
      omega
    · omega
  simp only [railWrites, judgeFields, driveFields, List.forall_mem_append, List.forall_mem_map, List.forall_mem_cons]
  refine ⟨⟨⟨monitors, ?_⟩, ?_⟩, ?_⟩
  all_goals
    simp only [Fld.Spares, Reg.PWR_PACE_STATUS_MON_FAULT, Reg.PWR_PACE_RAIL_MSLACK, Reg.PWR_PACE_RAIL_TARGET,
      Reg.PWR_PACE_STATUS_AVS_FAULT, Reg.PWR_PACE_RAIL_PACE_MIN, Reg.PWR_PACE_RAIL_MIN_MON, Reg.PWR_PACE_STATUS_SHORT,
      Reg.PWR_PACE_RAIL_SETPOINT, Reg.PWR_PACE_STATUS_AT_CEIL, Reg.PWR_PACE_RAIL_VNEED, Reg.PWR_PACE_RAIL_VNEED_MAX24,
      Reg.PWR_PACE_RAIL_RESERVE, List.not_mem_nil, false_implies, implies_true, and_true]
    rcases hf with hf | hf | ⟨l, hl, hf⟩ | hf <;> omega

end Sys2Proof.Machine
end

section
/-! SUPPORT. The pace loop (R33–R41): what each part of a rail's update does. -/

namespace Sys2Proof.Machine

/-! ### The monitors' faults (R33) -/

theorem Dev.judgeMonitor_step (d : Dev) (valid : List Nat) (m : Nat) : PaceStep [Reg.PWR_PACE_MON_FAULT m] d (d.judgeMonitor valid m) := by
  have count : ∀ n, PaceStep [Reg.PWR_PACE_MON_FAULT m] d (d.onPace (fun p => { p with deviant := update (fun _ => 0) p.deviant m n })) :=
    fun _ => (PaceStep.refl _ d).onPace rfl rfl rfl
  unfold Dev.judgeMonitor
  exact .ite ((count _).set (by simp) 1) (count _)

/-- Readings within 128 units of one lie within 128 units of it in the mean. -/
theorem sum_near {v : Nat} {xs : List Nat} (h : ∀ x ∈ xs, v ≤ x + 128 ∧ x ≤ v + 128) :
    ((xs.length : Int) * v - (xs.sum : Nat)).natAbs ≤ 128 * xs.length := by
  induction xs with
  | nil => simp
  | cons x xs ih =>
    obtain ⟨hx, hxs⟩ := List.forall_mem_cons.1 h
    have rest := ih hxs
    rw [List.length_cons, List.sum_cons, Nat.cast_succ, Nat.cast_add, add_mul, one_mul]
    omega

/-- R33: a monitor near the others is not far from their mean. -/
theorem Dev.farFromMean_near {d : Dev} {others : List Nat} {m : Nat}
    (h : ∀ l ∈ others, d.reading m ≤ d.reading l + 128 ∧ d.reading l ≤ d.reading m + 128) : d.farFromMean others m = false := by
  have near := sum_near (v := d.reading m) (xs := others.map d.reading) (by simpa using h)
  rw [List.length_map] at near
  simp only [Dev.farFromMean, Bool.and_eq_false_iff, bne_eq_false_iff_eq, decide_eq_false_iff_not]
  omega

theorem Dev.reading_congr {d e : Dev} (h : e.regs = d.regs) (m : Nat) : e.reading m = d.reading m := Dev.get_of_regs h _

/-- R33: a sound monitor near the others is not faulty. -/
theorem Dev.judgeMonitor_sound {d : Dev} {valid : List Nat} {m : Nat} (lo : 0 < d.reading m) (hi : d.reading m < 2047)
    (h : ∀ l ∈ valid, d.reading m ≤ d.reading l + 128 ∧ d.reading l ≤ d.reading m + 128) : (d.judgeMonitor valid m).regs = d.regs := by
  have near := Dev.farFromMean_near (d := d) (others := valid.filter (fun x => x != m && d.reading x != 0 && d.reading x != 2047)) (m := m)
    (fun l hl => h l (List.mem_filter.1 hl).1)
  simp only [Dev.judgeMonitor, near, Bool.false_eq_true, if_false]
  rw [if_neg (by omega)]
  rfl

/-- R33: the monitors of rail r are sound, and near each other. -/
def Dev.railSound (d : Dev) (r : Nat) : Prop :=
  ∀ m ∈ railMonitors r, d.on (Reg.PWR_PACE_MON_FAULT m) = false ∧ 0 < d.reading m ∧ d.reading m < 2047 ∧
    ∀ l ∈ railMonitors r, d.reading m ≤ d.reading l + 128

theorem Dev.judgeMonitors_sound {d : Dev} {r : Nat} (sound : d.railSound r) {valid : List Nat} (hv : valid ⊆ railMonitors r) {ms : List Nat}
    (hm : ms ⊆ railMonitors r) {e : Dev} (he : e.regs = d.regs) : (e.each ms (fun d m => d.judgeMonitor valid m)).regs = d.regs := by
  induction ms generalizing e with
  | nil => exact he
  | cons m ms ih =>
    obtain ⟨mem, rest⟩ := List.cons_subset.1 hm
    obtain ⟨-, lo, hi, near⟩ := sound m mem
    refine ih rest ((Dev.judgeMonitor_sound ?_ ?_ fun l hl => ?_).trans he)
    · rwa [Dev.reading_congr he]
    · rwa [Dev.reading_congr he]
    · obtain ⟨-, -, -, back⟩ := sound l (hv hl)
      rw [Dev.reading_congr he, Dev.reading_congr he]
      exact ⟨near l (hv hl), back m mem⟩

/-- R33: the device with the monitors of rail r judged, its bit of MON_FAULT still to follow. -/
def Dev.judgeMonitors (d : Dev) (r : Nat) : Dev := d.each (d.validMonitors r) (fun e m => e.judgeMonitor (d.validMonitors r) m)

theorem Dev.judgeRail_eq (d : Dev) {r : Nat} (hr : r < 4) : d.judgeRail r =
    if (railMonitors r).any (fun m => (d.judgeMonitors r).on (Reg.PWR_PACE_MON_FAULT m)) = true then
      (d.judgeMonitors r).set (Reg.PWR_PACE_STATUS_MON_FAULT.part r) 1
    else d.judgeMonitors r := by
  rw [← Dev.setBit_eq_set _ (show r < Reg.PWR_PACE_STATUS_MON_FAULT.w from hr)]
  rfl

theorem Dev.validMonitors_subset (d : Dev) (r : Nat) : d.validMonitors r ⊆ railMonitors r := List.filter_subset_self _

theorem Dev.judgeMonitors_step (d : Dev) (r : Nat) : PaceStep ((railMonitors r).map Reg.PWR_PACE_MON_FAULT) d (d.judgeMonitors r) :=
  .each (fun e m hm => (e.judgeMonitor_step _ m).mono (by simpa using ⟨m, d.validMonitors_subset r hm, rfl⟩)) d

theorem Dev.judgeRail_step (d : Dev) {r : Nat} (hr : r < 4) : PaceStep (judgeFields r) d (d.judgeRail r) := by
  have judged := (d.judgeMonitors_step r).mono (vs := judgeFields r) (List.subset_append_left _ _)
  rw [d.judgeRail_eq hr]
  exact (judged.set (by simp [judgeFields]) 1).ite judged

/-- R33: a rail of sound monitors is left as it is. -/
theorem Dev.judgeRail_sound {d : Dev} {r : Nat} (hr : r < 4) (sound : d.railSound r) : (d.judgeRail r).regs = d.regs := by
  have regs : (d.judgeMonitors r).regs = d.regs := Dev.judgeMonitors_sound sound (d.validMonitors_subset r) (d.validMonitors_subset r) rfl
  have quiet : ¬(railMonitors r).any (fun m => (d.judgeMonitors r).on (Reg.PWR_PACE_MON_FAULT m)) = true := by
    rw [List.any_eq_true]
    rintro ⟨m, hm, fault⟩
    rw [Dev.on_of_regs regs, (sound m hm).1] at fault
    exact Bool.false_ne_true fault
  rw [d.judgeRail_eq hr, if_neg quiet, regs]

/-- R33: a rail's bit of MON_FAULT is not cleared by judging its monitors. -/
theorem Dev.judgeRail_keeps {d : Dev} {r : Nat} (hr : r < 4) (h : d.on (Reg.PWR_PACE_STATUS_MON_FAULT.part r) = true) :
    (d.judgeRail r).on (Reg.PWR_PACE_STATUS_MON_FAULT.part r) = true := by
  have spared : ∀ g ∈ (railMonitors r).map Reg.PWR_PACE_MON_FAULT, g.Spares (Reg.PWR_PACE_STATUS_MON_FAULT.part r) := by
    simp only [List.forall_mem_map]
    exact fun m _ => .inl (by simp [Reg.PWR_PACE_STATUS_MON_FAULT, Reg.PWR_PACE_MON_FAULT]; omega)
  have room : (Reg.PWR_PACE_STATUS_MON_FAULT.part r).lo + (Reg.PWR_PACE_STATUS_MON_FAULT.part r).w ≤ 32 := by
    simp [Reg.PWR_PACE_STATUS_MON_FAULT]
    omega
  rw [d.judgeRail_eq hr]
  split
  · exact Dev.on_set_self _ _ _ room
  · exact ((d.judgeMonitors_step r).on spared).trans h

/-! ### The target (R34, R35) -/

/-- R34, R35: the device that shows the slack of rail r and has counted it. -/
def Dev.measureSlack (d : Dev) (r : Nat) : Dev := (d.set (Reg.PWR_PACE_RAIL_MSLACK r) (d.slack r)).countSlack r (d.slack r)

/-- R35: the updates in a row with slack above SLACK_HI, with one more. -/
def Dev.slackCount (d : Dev) (r : Nat) : Nat :=
  if d.get Reg.PWR_PACE_SLACK_SLACK_HI < d.slack r then d.pace.slackHigh.getD r 0 + 1 else 0

/-- R35 orders 1 and 2: the target that rail r gets at an update. -/
def Dev.targetOf (d : Dev) (r : Nat) : Nat :=
  newTarget d.throttled (d.on Reg.PWR_PACE_CTL_BOOST_EN) (d.pace.late.getD r false)
    (decide (d.get Reg.PWR_PACE_SLACK_SLACK_LO < d.get Reg.PWR_PACE_SLACK_SLACK_HI)) (d.slack r) (d.get Reg.PWR_PACE_SLACK_SLACK_LO)
    (d.get Reg.PWR_PACE_TGT_MAX_TGT_MAX) (d.get (Reg.PWR_PACE_RAIL_TARGET r)) (d.slackCount r)

/-- A field of the pace block that is not MSLACK of rail r. -/
theorem spares_mslack {r : Nat} {f : Fld} (h : f.off ≠ 0x301028 + r * 0x20) : Fld.Spares (Reg.PWR_PACE_RAIL_MSLACK r) f := .inl h

theorem Dev.measureSlack_eq {d : Dev} {r : Nat} (ho : Reg.PWR_PACE_SLACK_SLACK_HI.off ≠ 0x301028 + r * 0x20) : d.measureSlack r =
    (d.set (Reg.PWR_PACE_RAIL_MSLACK r) (d.slack r)).onPace (fun p =>
      { p with slackHigh := p.slackHigh.set r (d.slackCount r), late := p.late.set r false }) := by
  have hi := d.get_set_spares (d.slack r) (spares_mslack (r := r) ho)
  simp only [Dev.measureSlack, Dev.countSlack, hi, Dev.slackCount, gt_iff_lt]
  rfl

/-- R35: measuring slack clears LATE and counts the update. -/
theorem Dev.measureSlack_spec (d : Dev) (r : Nat) :
    RegsWithin [Reg.PWR_PACE_RAIL_MSLACK r] d (d.measureSlack r) ∧ OnlyPace d (d.measureSlack r) ∧
      (d.measureSlack r).pace = { d.pace with slackHigh := d.pace.slackHigh.set r (d.slackCount r), late := d.pace.late.set r false } := by
  rw [Dev.measureSlack_eq (by simp [Reg.PWR_PACE_SLACK_SLACK_HI]; omega)]
  refine ⟨((RegsWithin.refl _ d).set (by simp) _).trans (.of_regs rfl), (d.set_only _ _).pace.onPace _, ?_⟩
  rw [Dev.onPace, Dev.set_pace]

/-- R35: the target as an update reckons it once it has measured slack. -/
theorem Dev.targetOf_eq {d : Dev} {r : Nat} (hr : r < d.pace.slackHigh.length) :
    newTarget (d.measureSlack r).throttled ((d.measureSlack r).on Reg.PWR_PACE_CTL_BOOST_EN) (d.pace.late.getD r false)
      (decide ((d.measureSlack r).get Reg.PWR_PACE_SLACK_SLACK_LO < (d.measureSlack r).get Reg.PWR_PACE_SLACK_SLACK_HI)) (d.slack r)
      ((d.measureSlack r).get Reg.PWR_PACE_SLACK_SLACK_LO) ((d.measureSlack r).get Reg.PWR_PACE_TGT_MAX_TGT_MAX)
      ((d.measureSlack r).get (Reg.PWR_PACE_RAIL_TARGET r)) ((d.measureSlack r).pace.slackHigh.getD r 0) = d.targetOf r := by
  obtain ⟨regs, -, pace⟩ := d.measureSlack_spec r
  generalize d.measureSlack r = x at *
  have get {f : Fld} (h : f.off ≠ 0x301028 + r * 0x20) : x.get f = d.get f := regs f (by simpa using spares_mslack h)
  have on_ {f : Fld} (h : f.off ≠ 0x301028 + r * 0x20) : x.on f = d.on f := regs.on (by simpa using spares_mslack h)
  have low (o : Nat) (h : o < 0x301010) : o ≠ 0x301028 + r * 0x20 := by omega
  have count : x.pace.slackHigh.getD r 0 = d.slackCount r := by
    rw [pace]
    simp [List.getD_eq_getElem?_getD, hr]
  have throttled : x.throttled = d.throttled := by
    rw [Dev.throttled, on_ (low _ (by decide)), on_ (low _ (by decide)), Dev.throttled]
  have target : x.get (Reg.PWR_PACE_RAIL_TARGET r) = d.get (Reg.PWR_PACE_RAIL_TARGET r) := get (by simp [Reg.PWR_PACE_RAIL_TARGET])
  rw [count, throttled, target, on_ (low _ (by decide)), get (low _ (by decide)), get (low _ (by decide)), get (low _ (by decide)), Dev.targetOf]

theorem Dev.targetOf_lt (d : Dev) (r : Nat) : d.targetOf r < 2 ^ 11 := by
  have top : d.get Reg.PWR_PACE_TGT_MAX_TGT_MAX < 2 ^ 11 := d.get_lt _
  have was : d.get (Reg.PWR_PACE_RAIL_TARGET r) < 2 ^ 11 := d.get_lt _
  unfold Dev.targetOf newTarget
  split_ifs <;> omega

/-- R35 orders 1 and 2. -/
theorem Dev.targetOf_cases (d : Dev) (r : Nat) {throttle boost relaxed : Prop} [Decidable throttle] [Decidable boost] [Decidable relaxed]
    (ht : throttle ↔ d.on Reg.PWR_THERM_THROTTLE = true ∨ d.on Reg.PWR_THERM_HBM_THROTTLE = true)
    (hb : boost ↔ d.on Reg.PWR_PACE_CTL_BOOST_EN = true ∧ (d.slack r < d.get Reg.PWR_PACE_SLACK_SLACK_LO ∨ d.pace.late.getD r false = true))
    (hx : relaxed ↔ d.get Reg.PWR_PACE_SLACK_SLACK_LO < d.get Reg.PWR_PACE_SLACK_SLACK_HI ∧ d.get Reg.PWR_PACE_SLACK_SLACK_HI < d.slack r ∧
      9 ≤ d.pace.slackHigh.getD r 0) :
    d.targetOf r = if throttle then 891 else if boost then min (d.get (Reg.PWR_PACE_RAIL_TARGET r) + 16) (d.get Reg.PWR_PACE_TGT_MAX_TGT_MAX)
      else if relaxed then max (d.get (Reg.PWR_PACE_RAIL_TARGET r) - 8) 891 else d.get (Reg.PWR_PACE_RAIL_TARGET r) := by
  have throttled : throttle ↔ d.throttled = true := by rw [ht, Dev.throttled, Bool.or_eq_true]
  have boosted : boost ↔
      (d.on Reg.PWR_PACE_CTL_BOOST_EN && (decide (d.slack r < d.get Reg.PWR_PACE_SLACK_SLACK_LO) || d.pace.late.getD r false)) = true := by
    rw [hb, Bool.and_eq_true, Bool.or_eq_true, decide_eq_true_eq]
  have counts : relaxed ↔
      (decide (d.get Reg.PWR_PACE_SLACK_SLACK_LO < d.get Reg.PWR_PACE_SLACK_SLACK_HI) && decide (10 ≤ d.slackCount r)) = true := by
    rw [hx, Bool.and_eq_true, decide_eq_true_eq, decide_eq_true_eq, Dev.slackCount]
    split <;> omega
  simp only [throttled, boosted, counts, Dev.targetOf, newTarget]

end Sys2Proof.Machine
end

section
/-! SUPPORT. The pace loop (R33, R35, R38, R41): the AVSBus fault, the lowest reading and the command of a rail. -/

namespace Sys2Proof.Machine

/-! ### AVS_FAULT (R38) -/

theorem Dev.takeAvs_eq (d : Dev) {r : Nat} (hr : r < 4) (fault : Bool) : d.takeAvs r fault =
    if fault = true then
      if d.bit Reg.PWR_PACE_STATUS_AVS_FAULT r = true then d.set (Reg.PWR_PACE_STATUS_AVS_FAULT.part r) 1
      else (d.set (Reg.PWR_PACE_STATUS_AVS_FAULT.part r) 1).raise (0x7C6 + r)
    else d.set (Reg.PWR_PACE_STATUS_AVS_FAULT.part r) 0 := by
  have width : r < Reg.PWR_PACE_STATUS_AVS_FAULT.w := hr
  rw [← Dev.setBit_eq_set _ width, ← Dev.clearBit_eq_set _ width]
  rfl

/-- R38: the fault of a rail is as the update finds it. -/
theorem Dev.takeAvs_spec (d : Dev) {r : Nat} (hr : r < 4) (fault : Bool) :
    PaceStep [Reg.PWR_PACE_STATUS_AVS_FAULT.part r] d (d.takeAvs r fault) ∧
      (d.takeAvs r fault).on (Reg.PWR_PACE_STATUS_AVS_FAULT.part r) = fault := by
  have step := fun v => (PaceStep.refl [Reg.PWR_PACE_STATUS_AVS_FAULT.part r] d).set (List.mem_singleton.2 rfl) v
  have room : (Reg.PWR_PACE_STATUS_AVS_FAULT.part r).lo + (Reg.PWR_PACE_STATUS_AVS_FAULT.part r).w ≤ 32 := by
    simp [Reg.PWR_PACE_STATUS_AVS_FAULT]
    omega
  have shows : ∀ v, (d.set (Reg.PWR_PACE_STATUS_AVS_FAULT.part r) v).on (Reg.PWR_PACE_STATUS_AVS_FAULT.part r) = (v % 2 == 1) :=
    fun v => d.on_set_self _ v room
  rw [d.takeAvs_eq hr]
  cases fault with
  | false => exact ⟨step 0, shows 0⟩
  | true =>
    rw [if_pos rfl]
    split
    · exact ⟨step 1, shows 1⟩
    · exact ⟨(step 1).raise _, (Dev.on_raise _ _ _).trans (shows 1)⟩

/-! ### The lowest reading (R33, R39) -/

/-- The fields that show the lowest reading of rail r. -/
def lowestFields (r : Nat) : List Fld := [Reg.PWR_PACE_RAIL_PACE_MIN r, Reg.PWR_PACE_RAIL_MIN_MON r, Reg.PWR_PACE_STATUS_SHORT.part r]

/-- R33: the lowest reading of some monitors. -/
def Dev.lowest (d : Dev) (valid : List Nat) : Nat := minD 2047 (valid.map d.reading)

theorem Dev.lowest_le (d : Dev) (valid : List Nat) : d.lowest valid ≤ 2047 := (minD_spec 2047 _).2.1

theorem Dev.lowest_eq {d : Dev} {valid : List Nat} {m : Nat} (hm : m ∈ valid) (least : ∀ l ∈ valid, d.reading m ≤ d.reading l)
    (h : d.reading m ≤ 2047) : d.lowest valid = d.reading m := by
  obtain ⟨below, -, found⟩ := minD_spec 2047 (valid.map d.reading)
  have le := below _ (List.mem_map_of_mem hm)
  unfold Dev.lowest
  rcases found with found | found
  · obtain ⟨l, hl, eq⟩ := List.mem_map.1 found
    have := least l hl
    omega
  · omega

theorem Dev.showLowest_cons (d : Dev) {r : Nat} (hr : r < 4) (m : Nat) (ms : List Nat) : ∃ k, d.showLowest r (m :: ms) =
    ((d.set (Reg.PWR_PACE_RAIL_PACE_MIN r) (d.lowest (m :: ms))).set (Reg.PWR_PACE_RAIL_MIN_MON r) k).set (Reg.PWR_PACE_STATUS_SHORT.part r)
      (b2n (decide (d.lowest (m :: ms) < 871))) := by
  have width : r < Reg.PWR_PACE_STATUS_SHORT.w := hr
  refine ⟨((m :: ms).find? (fun x => d.reading x == d.lowest (m :: ms))).getD m, ?_⟩
  simp only [Dev.showLowest]
  rw [Dev.setBit_eq_set _ width, Dev.clearBit_eq_set _ width]
  by_cases short : d.lowest (m :: ms) < 871
  · rw [decide_eq_true short]
    exact if_pos short
  · rw [decide_eq_false short]
    exact if_neg short

theorem Dev.showLowest_step (d : Dev) {r : Nat} (hr : r < 4) (valid : List Nat) : PaceStep (lowestFields r) d (d.showLowest r valid) := by
  cases valid with
  | nil => exact .refl _ d
  | cons m ms =>
    obtain ⟨k, h⟩ := d.showLowest_cons hr m ms
    rw [h]
    exact (((PaceStep.refl _ d).set (by simp [lowestFields]) _).set (by simp [lowestFields]) _).set (by simp [lowestFields]) _

/-- R33, R39: the lowest reading of a rail and SHORT. -/
theorem Dev.showLowest_spec (d : Dev) {r : Nat} (hr : r < 4) {valid : List Nat} (h : valid ≠ []) :
    (d.showLowest r valid).get (Reg.PWR_PACE_RAIL_PACE_MIN r) = d.lowest valid ∧
      (d.showLowest r valid).on (Reg.PWR_PACE_STATUS_SHORT.part r) = decide (d.lowest valid < 871) := by
  obtain ⟨m, ms, rfl⟩ := List.exists_cons_of_ne_nil h
  obtain ⟨k, eq⟩ := d.showLowest_cons hr m ms
  have far : Fld.Spares (Reg.PWR_PACE_STATUS_SHORT.part r) (Reg.PWR_PACE_RAIL_PACE_MIN r) :=
    .inl (by simp [Reg.PWR_PACE_STATUS_SHORT, Reg.PWR_PACE_RAIL_PACE_MIN]; omega)
  have apart : Fld.Spares (Reg.PWR_PACE_RAIL_MIN_MON r) (Reg.PWR_PACE_RAIL_PACE_MIN r) :=
    .inr (by simp [Reg.PWR_PACE_RAIL_MIN_MON, Reg.PWR_PACE_RAIL_PACE_MIN])
  have top := d.lowest_le (m :: ms)
  rw [eq, Dev.get_set_spares _ _ far, Dev.get_set_spares _ _ apart, Dev.get_set_self _ _ _ (by simp [Reg.PWR_PACE_RAIL_PACE_MIN])]
  refine ⟨Nat.mod_eq_of_lt (by simp only [Reg.PWR_PACE_RAIL_PACE_MIN]; omega), Dev.on_set_flag _ _ rfl ?_⟩
  simp [Reg.PWR_PACE_STATUS_SHORT]
  omega

/-! ### The command (R35) -/

theorem Dev.commandRail_eq (d : Dev) {r : Nat} (hr : r < 4) (v : Nat) : d.commandRail r v =
    (d.set (Reg.PWR_PACE_RAIL_SETPOINT r) v).set (Reg.PWR_PACE_STATUS_AT_CEIL.part r) (b2n (decide (v = d.get (Reg.PWR_PACE_RAIL_CEILING r)))) := by
  have width : r < Reg.PWR_PACE_STATUS_AT_CEIL.w := hr
  have ceil : (d.set (Reg.PWR_PACE_RAIL_SETPOINT r) v).get (Reg.PWR_PACE_RAIL_CEILING r) = d.get (Reg.PWR_PACE_RAIL_CEILING r) :=
    d.get_set_spares v (.inl (by simp [Reg.PWR_PACE_RAIL_SETPOINT, Reg.PWR_PACE_RAIL_CEILING]))
  unfold Dev.commandRail
  dsimp only
  rw [Dev.setBit_eq_set _ width, Dev.clearBit_eq_set _ width, ceil]
  by_cases at_ : v = d.get (Reg.PWR_PACE_RAIL_CEILING r)
  · rw [decide_eq_true at_]
    exact if_pos at_
  · rw [decide_eq_false at_]
    exact if_neg at_

/-- R35: what a command shows. -/
theorem Dev.commandRail_spec (d : Dev) {r : Nat} (hr : r < 4) {v : Nat} (hv : v < 2 ^ 10) :
    PaceStep [Reg.PWR_PACE_RAIL_SETPOINT r, Reg.PWR_PACE_STATUS_AT_CEIL.part r] d (d.commandRail r v) ∧
      (d.commandRail r v).get (Reg.PWR_PACE_RAIL_SETPOINT r) = v ∧
      ((d.commandRail r v).on (Reg.PWR_PACE_STATUS_AT_CEIL.part r) = true ↔ v = d.get (Reg.PWR_PACE_RAIL_CEILING r)) := by
  have far : Fld.Spares (Reg.PWR_PACE_STATUS_AT_CEIL.part r) (Reg.PWR_PACE_RAIL_SETPOINT r) :=
    .inl (by simp [Reg.PWR_PACE_STATUS_AT_CEIL, Reg.PWR_PACE_RAIL_SETPOINT]; omega)
  rw [d.commandRail_eq hr]
  refine ⟨((PaceStep.refl _ d).set (by simp) _).set (by simp) _, ?_, ?_⟩
  · rw [Dev.get_set_spares _ _ far, Dev.get_set_self _ _ _ (by simp [Reg.PWR_PACE_RAIL_SETPOINT])]
    exact Nat.mod_eq_of_lt hv
  · rw [Dev.on_set_flag _ _ rfl (by simp [Reg.PWR_PACE_STATUS_AT_CEIL]; omega), decide_eq_true_eq]

/-- R35: a command lies between 600 mV and the ceiling, or at 600 mV. -/
theorem Dev.railCommand_bounds (d : Dev) (r t : Nat) (valid : List Nat) :
    600 ≤ d.railCommand r t valid ∧ d.railCommand r t valid ≤ max 600 (d.get (Reg.PWR_PACE_RAIL_CEILING r)) := by
  simp only [Dev.railCommand, newCommand]
  generalize d.get (Reg.PWR_PACE_RAIL_CEILING r) = ceil
  split_ifs <;> omega

/-- R445: a rail none of whose monitors takes part is at 600 mV. -/
theorem Dev.railCommand_dark {d : Dev} {r : Nat} (h : ∀ m ∈ railMonitors r, m ∉ d.pace.taking) (t : Nat) (valid : List Nat) :
    d.railCommand r t valid = 600 := if_pos (by simpa [List.all_eq_true] using h)

theorem Dev.railCommand_lit {d : Dev} {r : Nat} (h : ∃ m ∈ railMonitors r, m ∈ d.pace.taking) (t : Nat) (valid : List Nat) :
    d.railCommand r t valid = newCommand (!d.on Reg.PWR_PACE_CTL_ENABLE || d.bit Reg.PWR_PACE_STATUS_MON_FAULT r ||
      d.bit Reg.PWR_PACE_STATUS_AVS_FAULT r || valid.isEmpty) (d.lowest valid) t (d.get (Reg.PWR_PACE_RAIL_SETPOINT r))
      (d.get (Reg.PWR_PACE_RAIL_CEILING r)) := by
  refine if_neg ?_
  simpa [List.all_eq_true] using h

/-- R35 order 3: a rail that is not driven by its monitors goes to its ceiling. -/
theorem Dev.railCommand_ceiling {d : Dev} {r : Nat} (h : ∃ m ∈ railMonitors r, m ∈ d.pace.taking)
    (bad : d.on Reg.PWR_PACE_CTL_ENABLE = false ∨ d.on (Reg.PWR_PACE_STATUS_AVS_FAULT.part r) = true ∨
      d.on (Reg.PWR_PACE_STATUS_MON_FAULT.part r) = true) (hr : r < 4) (t : Nat) (valid : List Nat) :
    d.railCommand r t valid = max 600 (d.get (Reg.PWR_PACE_RAIL_CEILING r)) := by
  rw [← Dev.bit_eq_on d (show r < Reg.PWR_PACE_STATUS_AVS_FAULT.w from hr),
    ← Dev.bit_eq_on d (show r < Reg.PWR_PACE_STATUS_MON_FAULT.w from hr)] at bad
  have toCeil : (!d.on Reg.PWR_PACE_CTL_ENABLE || d.bit Reg.PWR_PACE_STATUS_MON_FAULT r || d.bit Reg.PWR_PACE_STATUS_AVS_FAULT r ||
      valid.isEmpty) = true := by
    rcases bad with h | h | h <;> simp [h]
  rw [d.railCommand_lit h, toCeil, newCommand, if_pos rfl, min_self]

/-- R35 orders 4 and 5: a rail driven by its lowest reading. -/
theorem Dev.railCommand_driven {d : Dev} {r : Nat} (h : ∃ m ∈ railMonitors r, m ∈ d.pace.taking) (enabled : d.on Reg.PWR_PACE_CTL_ENABLE = true)
    (avs : d.on (Reg.PWR_PACE_STATUS_AVS_FAULT.part r) = false) (sound : d.on (Reg.PWR_PACE_STATUS_MON_FAULT.part r) = false) (hr : r < 4) (t : Nat)
    {valid : List Nat} (some_ : valid ≠ []) :
    let p := d.lowest valid
    let cmd := d.get (Reg.PWR_PACE_RAIL_SETPOINT r)
    d.railCommand r t valid = max 600 (min (d.get (Reg.PWR_PACE_RAIL_CEILING r))
      (if p + 32 < t then cmd + 25 else if p < t then cmd + 10 else if p ≤ t + 24 then cmd else cmd - 5)) := by
  intro p cmd
  rw [← Dev.bit_eq_on d (show r < Reg.PWR_PACE_STATUS_AVS_FAULT.w from hr)] at avs
  rw [← Dev.bit_eq_on d (show r < Reg.PWR_PACE_STATUS_MON_FAULT.w from hr)] at sound
  have driven : (!d.on Reg.PWR_PACE_CTL_ENABLE || d.bit Reg.PWR_PACE_STATUS_MON_FAULT r || d.bit Reg.PWR_PACE_STATUS_AVS_FAULT r ||
      valid.isEmpty) = false := by
    simp [enabled, avs, sound, some_]
  rw [d.railCommand_lit h, driven]
  rfl

/-! ### The estimate (R41) -/

/-- R41: what an estimate changes. -/
theorem Dev.estimate_step (d : Dev) (r : Nat) :
    PaceStep [Reg.PWR_PACE_RAIL_VNEED r, Reg.PWR_PACE_RAIL_VNEED_MAX24 r, Reg.PWR_PACE_RAIL_RESERVE r] d (d.estimate r) := by
  have drawn : PaceStep [Reg.PWR_PACE_RAIL_VNEED r, Reg.PWR_PACE_RAIL_VNEED_MAX24 r, Reg.PWR_PACE_RAIL_RESERVE r] d d.draw.2 :=
    ⟨.of_regs rfl, ⟨d.regs, d.evt, d.pace, d.free + 1, rfl⟩, rfl, rfl, rfl⟩
  have shown (h : List (ShortTime × Nat)) (v top : Nat) :=
    ((drawn.onPace (g := fun p => { p with history := update (fun _ => []) p.history r h }) rfl rfl rfl).set
      (x := Reg.PWR_PACE_RAIL_VNEED r) (by simp) v).set (x := Reg.PWR_PACE_RAIL_VNEED_MAX24 r) (by simp) top
  unfold Dev.estimate
  exact .ite ((shown _ _ _).set (x := Reg.PWR_PACE_RAIL_RESERVE r) (by simp) _) (shown _ _ _)

end Sys2Proof.Machine
end

section
/-! SUPPORT. The pace loop (R33–R41): the update of one rail as a whole. -/

namespace Sys2Proof.Machine

/-! ### The rail's command shown -/

/-- R33, R35, R41: rail r shows its lowest reading, takes its command and estimates its need. -/
def Dev.drive (d : Dev) (r t : Nat) : Dev :=
  if (d.validMonitors r).isEmpty = true then (d.showLowest r (d.validMonitors r)).commandRail r (d.railCommand r t (d.validMonitors r))
  else ((d.showLowest r (d.validMonitors r)).commandRail r (d.railCommand r t (d.validMonitors r))).estimate r

theorem spares_estimate {r : Nat} {f : Fld} (h : f.off ≠ 0x301020 + r * 0x20) (h' : f.off ≠ 0x301024 + r * 0x20) :
    ∀ g ∈ [Reg.PWR_PACE_RAIL_VNEED r, Reg.PWR_PACE_RAIL_VNEED_MAX24 r, Reg.PWR_PACE_RAIL_RESERVE r], g.Spares f := by
  simp only [List.forall_mem_cons]
  exact ⟨.inl h, .inl h, .inl h', by simp⟩

/-- R33, R35: what rail r shows once its target is known. -/
theorem Dev.drive_spec {d e : Dev} {r : Nat} (hr : r < 4) {t : Nat} (he : d.drive r t = e) :
    PaceStep (driveFields r) d e ∧ e.get (Reg.PWR_PACE_RAIL_SETPOINT r) = d.railCommand r t (d.validMonitors r) ∧
      (e.on (Reg.PWR_PACE_STATUS_AT_CEIL.part r) = true ↔ d.railCommand r t (d.validMonitors r) = d.get (Reg.PWR_PACE_RAIL_CEILING r)) ∧
      (d.validMonitors r ≠ [] → e.get (Reg.PWR_PACE_RAIL_PACE_MIN r) = d.lowest (d.validMonitors r) ∧
        e.on (Reg.PWR_PACE_STATUS_SHORT.part r) = decide (d.lowest (d.validMonitors r) < 871)) := by
  have ceil : d.get (Reg.PWR_PACE_RAIL_CEILING r) < 2 ^ 10 := d.get_lt _
  have bounds := d.railCommand_bounds r t (d.validMonitors r)
  have fits : d.railCommand r t (d.validMonitors r) < 2 ^ 10 := by omega
  have shown := d.showLowest_step hr (d.validMonitors r)
  have lowest := d.showLowest_spec hr (valid := d.validMonitors r)
  unfold Dev.drive at he
  generalize d.validMonitors r = valid at *
  generalize d.railCommand r t valid = v at *
  generalize d.showLowest r valid = x at *
  obtain ⟨commanded, setpoint, atCeil⟩ := x.commandRail_spec hr fits
  generalize x.commandRail r v = y at *
  have estimated : PaceStep [Reg.PWR_PACE_RAIL_VNEED r, Reg.PWR_PACE_RAIL_VNEED_MAX24 r, Reg.PWR_PACE_RAIL_RESERVE r] y e :=
    he ▸ (PaceStep.refl _ y).ite (y.estimate_step r)
  have sameCeil : x.get (Reg.PWR_PACE_RAIL_CEILING r) = d.get (Reg.PWR_PACE_RAIL_CEILING r) := by
    refine shown.get ?_
    simp only [lowestFields, List.forall_mem_cons, Fld.Spares, Reg.PWR_PACE_RAIL_PACE_MIN, Reg.PWR_PACE_RAIL_MIN_MON, Reg.PWR_PACE_STATUS_SHORT,
      Reg.PWR_PACE_RAIL_CEILING]
    exact ⟨by omega, by omega, by omega, by simp⟩
  have low : ∀ g ∈ [Reg.PWR_PACE_RAIL_SETPOINT r, Reg.PWR_PACE_STATUS_AT_CEIL.part r],
      g.Spares (Reg.PWR_PACE_RAIL_PACE_MIN r) ∧ g.Spares (Reg.PWR_PACE_STATUS_SHORT.part r) := by
    simp only [List.forall_mem_cons, Fld.Spares, Reg.PWR_PACE_RAIL_SETPOINT, Reg.PWR_PACE_STATUS_AT_CEIL, Reg.PWR_PACE_RAIL_PACE_MIN,
      Reg.PWR_PACE_STATUS_SHORT]
    exact ⟨by omega, by omega, by simp⟩
  refine ⟨((shown.mono ?_).trans (commanded.mono ?_)).trans (estimated.mono ?_), ?_, ?_, fun some_ => ⟨?_, ?_⟩⟩
  · simp [lowestFields, driveFields]
  · simp [driveFields]
  · simp [driveFields]
  · rw [estimated.get (spares_estimate (by simp [Reg.PWR_PACE_RAIL_SETPOINT]) (by simp [Reg.PWR_PACE_RAIL_SETPOINT])), setpoint]
  · rw [estimated.on (spares_estimate (by simp [Reg.PWR_PACE_STATUS_AT_CEIL]; omega) (by simp [Reg.PWR_PACE_STATUS_AT_CEIL]; omega)),
      atCeil, sameCeil]
  · rw [estimated.get (spares_estimate (by simp [Reg.PWR_PACE_RAIL_PACE_MIN]) (by simp [Reg.PWR_PACE_RAIL_PACE_MIN])),
      commanded.get fun g hg => (low g hg).1, (lowest some_).1]
  · rw [estimated.on (spares_estimate (by simp [Reg.PWR_PACE_STATUS_SHORT]; omega) (by simp [Reg.PWR_PACE_STATUS_SHORT]; omega)),
      commanded.on fun g hg => (low g hg).2, (lowest some_).2]

/-! ### Before the command -/

/-- The fields that tell of the slack, the target and the AVSBus fault of rail r. -/
def measureFields (r : Nat) : List Fld := [Reg.PWR_PACE_RAIL_MSLACK r, Reg.PWR_PACE_RAIL_TARGET r, Reg.PWR_PACE_STATUS_AVS_FAULT.part r]

/-- R34, R35, R38: rail r with its slack measured, its target t set and its AVSBus fault taken. -/
def Dev.aimed (d : Dev) (r t : Nat) (fault : Bool) : Dev := ((d.measureSlack r).set (Reg.PWR_PACE_RAIL_TARGET r) t).takeAvs r fault

theorem Dev.updateRail_eq {d : Dev} {r : Nat} (hr : r < 4) (h : r < d.pace.slackHigh.length) (avs : BitVec 4) :
    d.updateRail avs r = ((d.judgeRail r).aimed r ((d.judgeRail r).targetOf r) (avs.getLsbD r)).drive r ((d.judgeRail r).targetOf r) := by
  rw [← (d.judgeRail_step hr).slackHigh] at h
  rw [← Dev.targetOf_eq h]
  rfl

/-- R34, R35, R38: what a rail shows of its target and its fault. -/
theorem Dev.aimed_spec {d e : Dev} {r : Nat} (hr : r < 4) {t : Nat} {fault : Bool} (he : d.aimed r t fault = e) :
    RegsWithin (measureFields r) d e ∧ OnlyPace d e ∧ e.get (Reg.PWR_PACE_RAIL_TARGET r) = t % 2 ^ 11 ∧
      e.on (Reg.PWR_PACE_STATUS_AVS_FAULT.part r) = fault ∧ e.pace.taking = d.pace.taking ∧ e.pace.late = d.pace.late.set r false ∧
      e.pace.slackHigh = d.pace.slackHigh.set r (d.slackCount r) := by
  obtain ⟨regs, only, pace⟩ := d.measureSlack_spec r
  unfold Dev.aimed at he
  generalize d.measureSlack r = x at *
  have set_ : PaceStep [Reg.PWR_PACE_RAIL_TARGET r] x (x.set (Reg.PWR_PACE_RAIL_TARGET r) t) := (PaceStep.refl _ x).set (by simp) t
  have target := x.get_set_self (Reg.PWR_PACE_RAIL_TARGET r) t (by simp [Reg.PWR_PACE_RAIL_TARGET])
  generalize x.set (Reg.PWR_PACE_RAIL_TARGET r) t = y at *
  obtain ⟨avs, shows⟩ := y.takeAvs_spec hr fault
  rw [he] at avs shows
  have far : Fld.Spares (Reg.PWR_PACE_STATUS_AVS_FAULT.part r) (Reg.PWR_PACE_RAIL_TARGET r) :=
    .inl (by simp [Reg.PWR_PACE_STATUS_AVS_FAULT, Reg.PWR_PACE_RAIL_TARGET]; omega)
  refine ⟨((regs.mono ?_).trans (set_.regs.mono ?_)).trans (avs.regs.mono ?_), (only.trans set_.only).trans avs.only, ?_, shows, ?_, ?_, ?_⟩
  · simp [measureFields]
  · simp [measureFields]
  · simp [measureFields]
  · rw [avs.get (by simpa using far), target]
    rfl
  · rw [avs.taking, set_.taking, pace]
  · rw [avs.late, set_.late, pace]
  · rw [avs.slackHigh, set_.slackHigh, pace]

/-! ### What judging the monitors leaves of the target -/

theorem Dev.slack_congr {d e : Dev} (h : OnlyPace d e) (r : Nat) : e.slack r = d.slack r := by
  obtain ⟨rs, ev, p, n, rfl⟩ := h
  rfl

/-- R34, R35: what the target of a rail rests on. -/
theorem Dev.targetOf_congr {d e : Dev} {r : Nat} (regs : ∀ f, f.off < 0x30100c ∨ f.off = 0x30101c + r * 0x20 → e.get f = d.get f)
    (only : OnlyPace d e) (late : e.pace.late.getD r false = d.pace.late.getD r false)
    (slackHigh : e.pace.slackHigh.getD r 0 = d.pace.slackHigh.getD r 0) : e.targetOf r = d.targetOf r := by
  have low (f : Fld) (h : f.off < 0x30100c) : e.get f = d.get f := regs f (.inl h)
  have on_ (f : Fld) (h : f.off < 0x30100c) : e.on f = d.on f := congrArg (· == 1) (low f h)
  have target : e.get (Reg.PWR_PACE_RAIL_TARGET r) = d.get (Reg.PWR_PACE_RAIL_TARGET r) := regs _ (.inr (by simp [Reg.PWR_PACE_RAIL_TARGET]))
  rw [Dev.targetOf, Dev.throttled, Dev.slackCount, Dev.slack_congr only, late, slackHigh, target, on_ _ (by decide),
    on_ _ (by decide), on_ _ (by decide),
    low Reg.PWR_PACE_SLACK_SLACK_LO (by decide), low Reg.PWR_PACE_SLACK_SLACK_HI (by decide), low Reg.PWR_PACE_TGT_MAX_TGT_MAX (by decide)]
  rfl

end Sys2Proof.Machine
end

section
/-! SUPPORT. The pace loop (R33–R41): what an update makes of a rail. -/

namespace Sys2Proof.Machine

/-- A field that an update of rail r reads for the rail's command and does not set before it. -/
def CommandField (r : Nat) (f : Fld) : Prop :=
  f.off < 0x30100c ∨ f.off = 0x301010 + r * 0x20 ∨ f.off = 0x301014 + r * 0x20 ∨ ∃ m < 64, f = Reg.PWR_PACE_MON_READING m

theorem judgeFields_spare {r : Nat} (hr : r < 4) {f : Fld} (hf : CommandField r f ∨ f.off = 0x30101c + r * 0x20) :
    ∀ g ∈ judgeFields r, g.Spares f := by
  simp only [judgeFields, List.forall_mem_append, List.forall_mem_map, List.forall_mem_cons, List.not_mem_nil, false_implies, implies_true, and_true]
  refine ⟨fun m _ => ?_, ?_⟩
  all_goals
    simp only [Fld.Spares, Reg.PWR_PACE_MON_FAULT, Reg.PWR_PACE_STATUS_MON_FAULT]
    rcases hf with (hf | hf | hf | ⟨l, -, rfl⟩) | hf
    · omega
    · omega
    · omega
    · simp only [Reg.PWR_PACE_MON_READING]
      omega
    · omega

theorem measureFields_spare {r : Nat} (hr : r < 4) {f : Fld}
    (hf : CommandField r f ∨ f.off = 0x30100c ∧ f.lo = 9 + r ∧ f.w = 1 ∨ ∃ m < 64, f = Reg.PWR_PACE_MON_FAULT m) :
    ∀ g ∈ measureFields r, g.Spares f := by
  simp only [measureFields, List.forall_mem_cons, List.not_mem_nil, false_implies, implies_true, and_true, Fld.Spares, Reg.PWR_PACE_RAIL_MSLACK,
    Reg.PWR_PACE_RAIL_TARGET, Reg.PWR_PACE_STATUS_AVS_FAULT]
  rcases hf with (hf | hf | hf | ⟨l, hl, rfl⟩) | hf | ⟨l, hl, rfl⟩
  · omega
  · omega
  · omega
  · simp only [Reg.PWR_PACE_MON_READING]
    omega
  · omega
  · simp only [Reg.PWR_PACE_MON_FAULT]
    omega

theorem driveFields_spare {r : Nat} (hr : r < 4) {f : Fld}
    (hf : f.off = 0x30101c + r * 0x20 ∨ f.off = 0x30100c ∧ f.lo = 13 + r ∧ f.w = 1) : ∀ g ∈ driveFields r, g.Spares f := by
  simp only [driveFields, List.forall_mem_cons, List.not_mem_nil, false_implies, implies_true, and_true, Fld.Spares,
    Reg.PWR_PACE_RAIL_PACE_MIN, Reg.PWR_PACE_RAIL_MIN_MON, Reg.PWR_PACE_STATUS_SHORT, Reg.PWR_PACE_RAIL_SETPOINT, Reg.PWR_PACE_STATUS_AT_CEIL,
    Reg.PWR_PACE_RAIL_VNEED, Reg.PWR_PACE_RAIL_VNEED_MAX24, Reg.PWR_PACE_RAIL_RESERVE]
  omega

/-- R33–R41: rail r of the device y is that of x after an update that finds the given AVSBus fault. -/
structure RailUpdated (x y : Dev) (r : Nat) (fault : Bool) : Prop where
  target : y.get (Reg.PWR_PACE_RAIL_TARGET r) = x.targetOf r
  late : y.pace.late.getD r true = false
  low : 600 ≤ y.get (Reg.PWR_PACE_RAIL_SETPOINT r)
  high : y.get (Reg.PWR_PACE_RAIL_SETPOINT r) ≤ max 600 (x.get (Reg.PWR_PACE_RAIL_CEILING r))
  atCeil : y.on (Reg.PWR_PACE_STATUS_AT_CEIL.part r) = true ↔ y.get (Reg.PWR_PACE_RAIL_SETPOINT r) = x.get (Reg.PWR_PACE_RAIL_CEILING r)
  avs : y.on (Reg.PWR_PACE_STATUS_AVS_FAULT.part r) = fault
  dark : (∀ m ∈ railMonitors r, m ∉ x.pace.taking) → y.get (Reg.PWR_PACE_RAIL_SETPOINT r) = 600
  ceiling : (∃ m ∈ railMonitors r, m ∈ x.pace.taking) →
    x.on Reg.PWR_PACE_CTL_ENABLE = false ∨ fault = true ∨ x.on (Reg.PWR_PACE_STATUS_MON_FAULT.part r) = true →
    y.get (Reg.PWR_PACE_RAIL_SETPOINT r) = max 600 (x.get (Reg.PWR_PACE_RAIL_CEILING r))
  driven : x.on Reg.PWR_PACE_CTL_ENABLE = true → fault = false → x.on (Reg.PWR_PACE_STATUS_MON_FAULT.part r) = false → x.railSound r →
    ∀ m ∈ railMonitors r, m ∈ x.pace.taking → (∀ l ∈ railMonitors r, l ∈ x.pace.taking → x.reading m ≤ x.reading l) →
      let p := x.reading m
      let t := x.targetOf r
      let cmd := x.get (Reg.PWR_PACE_RAIL_SETPOINT r)
      y.get (Reg.PWR_PACE_RAIL_PACE_MIN r) = p ∧ (y.on (Reg.PWR_PACE_STATUS_SHORT.part r) = true ↔ p < 871) ∧
        y.get (Reg.PWR_PACE_RAIL_SETPOINT r) = max 600 (min (x.get (Reg.PWR_PACE_RAIL_CEILING r))
          (if p + 32 < t then cmd + 25 else if p < t then cmd + 10 else if p ≤ t + 24 then cmd else cmd - 5))

/-- R34, R35: judging the monitors does not bear on the target. -/
theorem Dev.judgeRail_target (d : Dev) {r : Nat} (hr : r < 4) : (d.judgeRail r).targetOf r = d.targetOf r := by
  have judged := d.judgeRail_step hr
  refine Dev.targetOf_congr (fun f hf => judged.get (judgeFields_spare hr ?_)) judged.only (by rw [judged.late]) (by rw [judged.slackHigh])
  rcases hf with hf | hf
  · exact .inl (.inl hf)
  · exact .inr hf

/-- R33: the valid monitors of a sound rail are those that take part. -/
theorem Dev.mem_validMonitors {d : Dev} {r : Nat} (h : ∀ m ∈ railMonitors r, d.on (Reg.PWR_PACE_MON_FAULT m) = false) (m : Nat) :
    m ∈ d.validMonitors r ↔ m ∈ railMonitors r ∧ m ∈ d.pace.taking := by
  simp only [Dev.validMonitors, List.mem_filter, Bool.and_eq_true, List.contains_iff_mem, Bool.not_eq_true']
  exact ⟨fun ⟨hm, taking, _⟩ => ⟨hm, taking⟩, fun ⟨hm, taking⟩ => ⟨hm, taking, h m hm⟩⟩

theorem Dev.updateRail_spec {d e : Dev} {r : Nat} (hr : r < 4) (hs : r < d.pace.slackHigh.length) (hl : r < d.pace.late.length) {avs : BitVec 4}
    (he : d.updateRail avs r = e) : RailUpdated d e r (avs.getLsbD r) := by
  rw [Dev.updateRail_eq hr hs, d.judgeRail_target hr] at he
  have small := d.targetOf_lt r
  have judged := d.judgeRail_step hr
  have keeps := Dev.judgeRail_keeps (d := d) hr
  have soundly := Dev.judgeRail_sound (d := d) hr
  generalize ht : d.targetOf r = t at *
  generalize d.judgeRail r = j at *
  obtain ⟨aimed, -, target, avsFault, taking, late, -⟩ := Dev.aimed_spec (d := j) (t := t) hr (fault := avs.getLsbD r) rfl
  generalize j.aimed r t (avs.getLsbD r) = a at *
  obtain ⟨driven, setpoint, atCeil, lowest⟩ := Dev.drive_spec hr he
  have bounds := a.railCommand_bounds r t (a.validMonitors r)
  have get {f : Fld} (hf : CommandField r f) : a.get f = d.get f :=
    (aimed f (measureFields_spare hr (.inl hf))).trans (judged.get (judgeFields_spare hr (.inl hf)))
  have enable : a.on Reg.PWR_PACE_CTL_ENABLE = d.on Reg.PWR_PACE_CTL_ENABLE := congrArg (· == 1) (get (.inl (by decide)))
  have ceil : a.get (Reg.PWR_PACE_RAIL_CEILING r) = d.get (Reg.PWR_PACE_RAIL_CEILING r) := get (.inr (.inl rfl))
  have cmd : a.get (Reg.PWR_PACE_RAIL_SETPOINT r) = d.get (Reg.PWR_PACE_RAIL_SETPOINT r) := get (.inr (.inr (.inl rfl)))
  have fault : a.on (Reg.PWR_PACE_STATUS_MON_FAULT.part r) = j.on (Reg.PWR_PACE_STATUS_MON_FAULT.part r) :=
    aimed.on (measureFields_spare hr (.inr (.inl ⟨rfl, rfl, rfl⟩)))
  rw [judged.taking] at taking
  rw [ceil] at bounds atCeil
  rw [← setpoint] at bounds atCeil
  refine ⟨?_, ?_, bounds.1, bounds.2, atCeil, ?_, fun dark => ?_, fun lit bad => ?_, fun on_ sound monFault rail m hm hmt least => ?_⟩
  · rw [driven.get (driveFields_spare hr (.inl rfl)), target, ht, Nat.mod_eq_of_lt small]
  · rw [driven.late, late, judged.late]
    simp [List.getD_eq_getElem?_getD, hl]
  · rw [driven.on (driveFields_spare hr (.inr ⟨rfl, rfl, rfl⟩)), avsFault]
  · rw [setpoint]
    exact Dev.railCommand_dark (by rwa [taking]) t _
  · rw [setpoint, ← ceil]
    refine Dev.railCommand_ceiling (by rwa [taking]) ?_ hr t _
    rw [enable, avsFault, fault]
    exact bad.imp_right (Or.imp_right keeps)
  · have same := soundly rail
    have faults : ∀ l ∈ railMonitors r, a.on (Reg.PWR_PACE_MON_FAULT l) = false := fun l hl => by
      rw [aimed.on (measureFields_spare hr (.inr (.inr ⟨l, ((mem_railMonitors hr).1 hl).1, rfl⟩))), Dev.on_of_regs same]
      exact (rail l hl).1
    have reading : ∀ l ∈ railMonitors r, a.reading l = d.reading l := fun l hl =>
      get (.inr (.inr (.inr ⟨l, ((mem_railMonitors hr).1 hl).1, rfl⟩)))
    have valid := Dev.mem_validMonitors faults
    have mem : m ∈ a.validMonitors r := (valid m).2 ⟨hm, taking ▸ hmt⟩
    have nonempty : a.validMonitors r ≠ [] := List.ne_nil_of_mem mem
    have least_ : a.lowest (a.validMonitors r) = d.reading m := by
      rw [← reading m hm]
      refine Dev.lowest_eq mem (fun l hl => ?_) ?_
      · obtain ⟨hlr, hlt⟩ := (valid l).1 hl
        rw [reading m hm, reading l hlr]
        exact least l hlr (taking ▸ hlt)
      · rw [reading m hm]
        exact (rail m hm).2.2.1.le
    obtain ⟨paceMin, short⟩ := lowest nonempty
    rw [least_] at paceMin short
    have command := Dev.railCommand_driven ⟨m, hm, taking ▸ hmt⟩ (enable.trans on_) (avsFault.trans sound)
      (fault.trans ((Dev.on_of_regs same _).trans monFault)) hr t nonempty
    rw [least_, ceil, cmd] at command
    refine ⟨paceMin, by rw [short, decide_eq_true_eq], setpoint.trans ?_⟩
    rw [ht]
    exact command

end Sys2Proof.Machine
end

section
/-! SUPPORT. The pace loop (R33–R41): an update of all rails, and the statement of rounds and pace. -/

namespace Sys2Proof.Machine

/-! ### One rail among the others -/

/-- All that an update of rail r reads and shows is the same in both. -/
structure SameRail (r : Nat) (d e : Dev) : Prop where
  regs : ∀ f, RailField r f → e.get f = d.get f
  only : OnlyPace d e
  taking : e.pace.taking = d.pace.taking
  late : e.pace.late[r]? = d.pace.late[r]?
  slackHigh : e.pace.slackHigh[r]? = d.pace.slackHigh[r]?

theorem SameRail.refl (r : Nat) (d : Dev) : SameRail r d d := ⟨fun _ _ => rfl, .refl d, rfl, rfl, rfl⟩

theorem SameRail.trans {r : Nat} {d e f : Dev} (h : SameRail r d e) (g : SameRail r e f) : SameRail r d f :=
  ⟨fun x hx => (g.regs x hx).trans (h.regs x hx), h.only.trans g.only, g.taking.trans h.taking, g.late.trans h.late,
    g.slackHigh.trans h.slackHigh⟩

theorem SameRail.on {r : Nat} {d e : Dev} (h : SameRail r d e) {f : Fld} (hf : RailField r f) : e.on f = d.on f := by
  rw [Dev.on, h.regs f hf, Dev.on]

theorem PaceStep.sameRail {ws : List Fld} {d e : Dev} (h : PaceStep ws d e) {r : Nat} (hs : ∀ f, RailField r f → ∀ g ∈ ws, g.Spares f) :
    SameRail r d e := ⟨fun f hf => h.get (hs f hf), h.only, h.taking, by rw [h.late], by rw [h.slackHigh]⟩

/-- R35: the update of one rail leaves the others. -/
theorem Dev.updateRail_sameRail (avs : BitVec 4) (d : Dev) {r k : Nat} (hr : r < 4) (hk : k < 4) (ne : k ≠ r) :
    SameRail r d (d.updateRail avs k) := by
  obtain ⟨t, he⟩ : ∃ t, d.updateRail avs k = ((d.judgeRail k).aimed k t (avs.getLsbD k)).drive k t := ⟨_, rfl⟩
  have spare := fun f (hf : RailField r f) => railWrites_spare hr hk ne hf
  have judged := (d.judgeRail_step hk).mono (vs := railWrites k) (fun _ h => List.mem_append_left _ (List.mem_append_left _ h))
  obtain ⟨aimed, only, -, -, taking, late, slackHigh⟩ := Dev.aimed_spec (d := d.judgeRail k) (t := t) hk (fault := avs.getLsbD k) rfl
  have drive := (Dev.drive_spec (d := (d.judgeRail k).aimed k t (avs.getLsbD k)) hk (t := t) rfl).1.mono (vs := railWrites k)
    (List.subset_append_right _ _)
  have aim : SameRail r (d.judgeRail k) ((d.judgeRail k).aimed k t (avs.getLsbD k)) := by
    refine ⟨fun f hf => aimed f fun g hg => spare f hf g (List.mem_append_left _ (List.mem_append_right _ hg)), only, taking, ?_, ?_⟩
    · rw [late, List.getElem?_set_ne ne]
    · rw [slackHigh, List.getElem?_set_ne ne]
  rw [he]
  exact ((judged.sameRail spare).trans aim).trans (drive.sameRail spare)

/-! ### The fields of a rail -/

section
variable {r : Nat}

theorem railField_low {f : Fld} (h : f.off < 0x30100c) : RailField r f := .inl h
theorem railField_word {f : Fld} (h : 0x301010 + r * 0x20 ≤ f.off ∧ f.off < 0x301030 + r * 0x20) : RailField r f := .inr (.inl h)
theorem railField_reading {m : Nat} (h : m ∈ railMonitors r) : RailField r (Reg.PWR_PACE_MON_READING m) := .inr (.inr (.inl ⟨m, h, rfl⟩))
theorem railField_fault {m : Nat} (h : m ∈ railMonitors r) : RailField r (Reg.PWR_PACE_MON_FAULT m) := .inr (.inr (.inl ⟨m, h, rfl⟩))
theorem railField_short : RailField r (Reg.PWR_PACE_STATUS_SHORT.part r) := .inr (.inr (.inr ⟨rfl, rfl, .inl rfl⟩))
theorem railField_atCeil : RailField r (Reg.PWR_PACE_STATUS_AT_CEIL.part r) := .inr (.inr (.inr ⟨rfl, rfl, .inr (.inl rfl)⟩))
theorem railField_monFault : RailField r (Reg.PWR_PACE_STATUS_MON_FAULT.part r) := .inr (.inr (.inr ⟨rfl, rfl, .inr (.inr (.inl rfl))⟩))
theorem railField_avsFault : RailField r (Reg.PWR_PACE_STATUS_AVS_FAULT.part r) := .inr (.inr (.inr ⟨rfl, rfl, .inr (.inr (.inr rfl))⟩))
theorem railField_ceiling : RailField r (Reg.PWR_PACE_RAIL_CEILING r) := railField_word (by simp [Reg.PWR_PACE_RAIL_CEILING])
theorem railField_setpoint : RailField r (Reg.PWR_PACE_RAIL_SETPOINT r) := railField_word (by simp [Reg.PWR_PACE_RAIL_SETPOINT])
theorem railField_paceMin : RailField r (Reg.PWR_PACE_RAIL_PACE_MIN r) := railField_word (by simp [Reg.PWR_PACE_RAIL_PACE_MIN])
theorem railField_target : RailField r (Reg.PWR_PACE_RAIL_TARGET r) := railField_word (by simp [Reg.PWR_PACE_RAIL_TARGET])

end

theorem SameRail.targetOf {r : Nat} {d e : Dev} (h : SameRail r d e) : e.targetOf r = d.targetOf r := by
  refine Dev.targetOf_congr (fun f hf => h.regs f ?_) h.only ?_ ?_
  · rcases hf with hf | hf
    · exact railField_low hf
    · exact railField_word (by omega)
  · rw [List.getD_eq_getElem?_getD, h.late, List.getD_eq_getElem?_getD]
  · rw [List.getD_eq_getElem?_getD, h.slackHigh, List.getD_eq_getElem?_getD]

theorem SameRail.reading {r : Nat} {d e : Dev} (h : SameRail r d e) {m : Nat} (hm : m ∈ railMonitors r) : e.reading m = d.reading m :=
  h.regs _ (railField_reading hm)

theorem SameRail.railSound {r : Nat} {d e : Dev} (h : SameRail r d e) (sound : d.railSound r) : e.railSound r := by
  intro m hm
  obtain ⟨fault, lo, hi, near⟩ := sound m hm
  rw [h.on (railField_fault hm), h.reading hm]
  exact ⟨fault, lo, hi, fun l hl => by rw [h.reading hl]; exact near l hl⟩

/-- An update of a rail, seen from a device before it and one after it in which that rail is the same. -/
theorem RailUpdated.congr {r : Nat} {d x y e : Dev} {fault : Bool} (u : RailUpdated x y r fault) (before : SameRail r d x) (after : SameRail r y e) :
    RailUpdated d e r fault := by
  have setpoint := after.regs _ (railField_setpoint (r := r))
  have ceil := before.regs _ (railField_ceiling (r := r))
  have enable : x.on Reg.PWR_PACE_CTL_ENABLE = d.on Reg.PWR_PACE_CTL_ENABLE := before.on (railField_low (by decide))
  have monFault := before.on (railField_monFault (r := r))
  have dark := u.dark
  have ceiling := u.ceiling
  rw [before.taking] at dark ceiling
  rw [enable, monFault, ceil] at ceiling
  refine ⟨?_, ?_, ?_, ?_, ?_, ?_, ?_, ?_, fun on_ avs sound rail m hm taking least => ?_⟩
  · rw [after.regs _ railField_target, u.target, before.targetOf]
  · rw [List.getD_eq_getElem?_getD, after.late, ← List.getD_eq_getElem?_getD, u.late]
  · rw [setpoint]
    exact u.low
  · rw [setpoint, ← ceil]
    exact u.high
  · rw [after.on railField_atCeil, setpoint, ← ceil]
    exact u.atCeil
  · rw [after.on railField_avsFault, u.avs]
  · rwa [setpoint]
  · rwa [setpoint]
  · obtain ⟨paceMin, short, command⟩ := u.driven (enable.trans on_) avs (monFault.trans sound) (before.railSound rail) m hm
      (before.taking ▸ taking) (fun l hl hlt => by rw [before.reading hm, before.reading hl]; exact least l hl (before.taking ▸ hlt))
    rw [before.reading hm, before.targetOf, ceil, before.regs _ railField_setpoint, ← setpoint] at command
    rw [before.reading hm] at paceMin short
    exact ⟨(after.regs _ railField_paceMin).trans paceMin, by rw [after.on railField_short]; exact short, command⟩

/-! ### All rails -/

theorem Dev.converge_step (d : Dev) : PaceStep [Reg.PWR_PACE_STATUS_CONVERGED] d d.converge := by
  have counted (inBand : PaceState → Nat) (outBand : PaceState → List Nat) :=
    (PaceStep.refl [Reg.PWR_PACE_STATUS_CONVERGED] d).onPace (g := fun p => { p with inBand := inBand p, outBand := outBand p }) rfl rfl rfl
  have shown (inBand : PaceState → Nat) (outBand : PaceState → List Nat) (c : Prop) [Decidable c] :=
    ((counted inBand outBand).set (List.mem_singleton.2 rfl) 1).ite (c := c) (counted inBand outBand)
  unfold Dev.converge
  exact ((shown _ _ _).set (List.mem_singleton.2 rfl) 0).ite (shown _ _ _)

theorem Dev.paceLevels_step (d : Dev) : PaceStep [] d d.paceLevels :=
  .each (fun e n _ => .of_onlyRegs (.of_regs (e.relevel_regs n)) (e.relevel_only n)) d

theorem paceLoopUpdate_idle {d : Dev} (h : d.pace.began = none ∨ d.pace.windowed = false) (avs : BitVec 4) : paceLoopUpdate avs d = d := by
  unfold paceLoopUpdate
  split
  · next began => exact if_neg (by simpa [began] using h)
  · rfl

theorem paceLoopUpdate_runs {d : Dev} {t : ShortTime} (began : d.pace.began = some t) (windowed : d.pace.windowed = true) (avs : BitVec 4) :
    paceLoopUpdate avs d = (((d.markDay t).each (upFrom 0 4) (Dev.updateRail avs)).converge).paceLevels := by
  simp [paceLoopUpdate, began, windowed]

theorem Dev.updateRail_onlyPace (avs : BitVec 4) (d : Dev) {k : Nat} (hk : k < 4) : OnlyPace d (d.updateRail avs k) :=
  (d.updateRail_sameRail avs (r := (k + 1) % 4) (by omega) hk (by omega)).only

/-- R33–R41: what an update does. -/
theorem paceLoopUpdate_spec {d e : Dev} {t : ShortTime} (began : d.pace.began = some t) (windowed : d.pace.windowed = true)
    (hs : d.pace.slackHigh.length = 4) (hl : d.pace.late.length = 4) {avs : BitVec 4} (he : paceLoopUpdate avs d = e) :
    OnlyPace d e ∧ ∀ r < 4, RailUpdated d e r (avs.getLsbD r) := by
  rw [paceLoopUpdate_runs began windowed] at he
  have day : PaceStep [] d (d.markDay t) := (PaceStep.refl _ d).onPace rfl rfl rfl
  have only : OnlyPace (d.markDay t) ((d.markDay t).each (upFrom 0 4) (Dev.updateRail avs)) := Dev.each_rel_mem OnlyPace.refl OnlyPace.trans
    (fun e k hk => e.updateRail_onlyPace avs (by rw [mem_upFrom] at hk; omega)) _
  have once {r : Nat} (hr : r < 4) := Dev.each_once (R := SameRail r) (SameRail.refl r) SameRail.trans (upFrom_nodup 0 4)
    ((mem_upFrom 0 4 r).2 (by omega)) (fun e k hk ne => e.updateRail_sameRail avs hr (by rw [mem_upFrom] at hk; omega) ne) (d.markDay t)
  generalize d.markDay t = x at *
  generalize x.each (upFrom 0 4) (Dev.updateRail avs) = y at *
  have rest : PaceStep [Reg.PWR_PACE_STATUS_CONVERGED] y e := he ▸ y.converge_step.trans (y.converge.paceLevels_step.mono (by simp))
  refine ⟨(day.only.trans only).trans rest.only, fun r hr => ?_⟩
  obtain ⟨z, before, after⟩ := once hr
  have begun := (day.sameRail (r := r) (by simp)).trans before
  have inSlack : r < z.pace.slackHigh.length := (List.getElem?_eq_some_iff.1 (begun.slackHigh.trans (List.getElem?_eq_getElem (by omega)))).1
  have inLate : r < z.pace.late.length := (List.getElem?_eq_some_iff.1 (begun.late.trans (List.getElem?_eq_getElem (by omega)))).1
  refine (Dev.updateRail_spec hr inSlack inLate rfl).congr begun (after.trans (rest.sameRail fun f hf => ?_))
  rw [List.forall_mem_singleton]
  rcases hf with hf | hf | ⟨m, -, hf⟩ | hf <;> simp only [Fld.Spares, Reg.PWR_PACE_STATUS_CONVERGED] <;> omega

end Sys2Proof.Machine
end

section
/-! SUPPORT. The statement of rounds and pace: housekeeping rounds, windows of the pace monitors, and updates of the pace loop. -/

namespace Sys2Proof.Machine

/-- R459: what a round makes of a temperature channel without a reading, or with one out of range or in it. -/
theorem Dev.round_faults (codes : List (Option Int)) (d : Dev) {n : Nat} (hn : n < 35) :
    let e := d.round codes
    (codes[n]? = some none → e.on (Reg.PWR_HK_FAULT n) = true ∧
      e.get (Reg.PWR_HK_CAUSE n) = if d.on (Reg.PWR_HK_FAULT n) = true then d.get (Reg.PWR_HK_CAUSE n) else 2) ∧
    (∀ t : Int, codes[n]? = some (some t) →
      (t < -320 ∨ 1200 < t → e.on (Reg.PWR_HK_FAULT n) = true ∧
        e.get (Reg.PWR_HK_CAUSE n) = if d.on (Reg.PWR_HK_FAULT n) = true then d.get (Reg.PWR_HK_CAUSE n) else 1) ∧
      (-320 ≤ t → t ≤ 1200 → d.power.rounds.length < 999 → e.on (Reg.PWR_HK_FAULT n) = false)) := by
  intro e
  have same : SameChannel n (d.sampled codes) e := (d.round_frame codes).2.2.2 n (by omega)
  obtain ⟨clear, faulty⟩ := d.sampled_fault codes hn
  rw [← same.on rfl] at clear
  rw [← same.on rfl, ← same _ rfl] at faulty
  have reading {x : Option Int} (h : codes[n]? = some x) : readingIn codes n = x := by simp [readingIn, List.getD_eq_getElem?_getD, h]
  refine ⟨fun h => ?_, fun t h => ⟨fun out => ?_, fun lo hi short => clear ?_⟩⟩
  · rw [reading h] at faulty
    exact faulty (show 2 ≠ 0 by decide)
  · have cause : faultCause (d.roundsWith codes) n (readingIn codes n) = 1 := by rw [reading h, faultCause, if_pos out]
    rw [cause] at faulty
    exact faulty (by decide)
  · rw [reading h]
    exact faultCause_in_range (Dev.roundsWith_short short codes) n lo hi

/-- R461, R464: what a round of sound sensors makes of the temperatures. -/
theorem Dev.round_sound {codes : List (Option Int)} {d e : Dev} (he : d.round codes = e) {t : Nat → Int} (short : d.power.rounds.length < 999)
    (sound : ∀ n < 34, d.on (Reg.PWR_HK_MASK n) = false ∧ codes[n]? = some (some (t n)) ∧ -320 ≤ t n ∧ t n ≤ 1200)
    {j h : Int} (top : ∀ n < 32, t n ≤ j) (some_ : ∃ n < 32, t n = j) (hh : h = max (t 32) (t 33)) :
    let level (f : Fld) (x up down : Int) : Prop := e.on f = true ↔ up ≤ x ∨ (d.on f = true ∧ down ≤ x)
    signed (e.get Reg.PWR_THERM_HOTTEST) 16 = j ∧ t (e.get Reg.PWR_THERM_HOT_SENSOR) = j ∧
    level Reg.PWR_THERM_WARN j 760 744 ∧ level Reg.PWR_THERM_CRIT j 880 800 ∧ level Reg.PWR_THERM_HBM_WARN h 680 664 ∧
    level Reg.PWR_THERM_HBM_CRIT h 760 680 ∧
    (e.on Reg.PWR_THERM_THROTTLE = true ↔ 800 ≤ j ∨ (d.on Reg.PWR_THERM_THROTTLE = true ∧ (776 ≤ j ∨ d.power.coolRounds < 99))) ∧
    (e.on Reg.PWR_THERM_HBM_THROTTLE = true ↔
      720 ≤ h ∨ (d.on Reg.PWR_THERM_HBM_THROTTLE = true ∧ (696 ≤ h ∨ d.power.hbmCoolRounds < 99))) ∧
    e.power.coolRounds = (if j < 776 then d.power.coolRounds + 1 else 0) ∧
    (∀ k < 2, e.bit Reg.HBM_STATUS_REFRESH_2X k = true ↔ 680 ≤ t (32 + k) ∨ (d.bit Reg.HBM_STATUS_REFRESH_2X k = true ∧ 664 ≤ t (32 + k))) ∧
    (e.on Reg.PWR_THERM_FUSE_OK = true ↔ ∀ n < 32, 120 ≤ t n ∧ t n ≤ 680) := by
  intro level
  have hj := Dev.sound_junction short sound top some_
  have hhbm := (Dev.sound_hbmTop short sound).trans hh.symm
  obtain ⟨-, -, hottest, sensor, refresh, fuse⟩ := d.round_shows codes
  obtain ⟨warn, throttle, crit, hbmWarn, hbmThrottle, hbmCrit, count⟩ := Dev.round_levels hj hhbm he
  rw [he] at hottest sensor refresh fuse
  rw [hj] at hottest sensor
  have range : -320 ≤ j ∧ j ≤ 1200 := by
    obtain ⟨n, hn, rfl⟩ := some_
    exact (sound n (by omega)).2.2
  have judged {f : Fld} {x up down : Int} (now : e.on f = tempLevel (d.on f) x up down) : level f x up down :=
    (Bool.eq_iff_iff.1 now).trans (tempLevel_iff _ _ _ _)
  refine ⟨?_, ?_, judged warn, judged crit, judged hbmWarn, judged hbmCrit, ?_, ?_, ?_, fun k hk => ?_, ?_⟩
  · rw [hottest]
    exact signed_wrapTo (by omega) (by omega)
  · rw [sensor]
    exact Dev.sound_hotSensor short sound some_
  · rw [throttle]
    exact throttleOf_on _ _ _ _ _
  · rw [hbmThrottle]
    exact throttleOf_on _ _ _ _ _
  · rw [count]
    exact throttleOf_count _ _ (by decide)
  · have unmasked := (d.sampled_mask codes (n := 32 + k) (by omega)).trans (sound _ (by omega)).1
    rw [refresh k hk unmasked, Dev.sound_rawTemp short sound (by omega)]
    exact tempLevel_iff _ _ _ _
  · rw [fuse]
    exact Dev.sound_fuseOk short sound

/-- Settles O54: a housekeeping round by its parts, the end of a window monitor by monitor, and an update of the pace loop rail by rail. -/
theorem roundsAndPace : Obligations.RoundsAndPace := by
  unfold Obligations.RoundsAndPace
  intro s codes readings avs d took
  refine ⟨fun len idle => ?_, fun len runs => ?_, fun len => ?_, fun idle => ?_, fun t0 began windowed slackLen lateLen => ?_⟩
  · exact (gives_iff_of_exec (exec_housekeepingRound len s)).2 (housekeepingRound_idle idle)
  · rw [completes_iff_of_exec (exec_housekeepingRound len s), housekeepingRound_runs runs]
    obtain ⟨rounds, first, -⟩ := d.round_shows codes
    obtain ⟨only, power, state, same⟩ := d.round_frame codes
    obtain ⟨mem, jfe, cores, tsu, sec, time, out⟩ := only.frame
    refine ⟨rounds, first, power, mem, jfe, cores, tsu, sec, time, out, state, fun n hn t code lo hi => ?_, fun n hn => d.round_faults codes hn,
      fun t short sound J H top some_ hh => ?_⟩
    · rw [same n hn _ rfl, d.sampled_value codes hn code]
      exact signed_wrapTo (by omega) (by omega)
    · obtain ⟨hottest, sensor, warn, crit, hbmWarn, hbmCrit, throttle, hbmThrottle, cool, refresh, fuse⟩ :=
        Dev.round_sound rfl short sound top some_ hh
      obtain ⟨rises, clears⟩ := Dev.round_requests (Dev.sound_junction short sound top some_) ((Dev.sound_hbmTop short sound).trans hh.symm) rfl
      exact ⟨hottest, sensor, warn, crit, hbmWarn, hbmCrit, throttle, hbmThrottle, cool, refresh, fuse, rises, clears⟩
  · rw [completes_iff_of_exec (exec_monitorWindowEnd len s)]
    obtain ⟨only, pace⟩ := monitorWindowEnd_pace readings d
    have monitor {m : Nat} (hm : m < 64) := monitorWindowEnd_monitor readings d hm
    refine ⟨fun m hm => (monitor hm).1, fun m hm => ?_, by rw [pace], by rw [pace], fun m hm => (monitor hm).2, fun r hr => ?_, only.frame⟩
    · rw [pace]
      simp only [Dev.takingNow, List.mem_filter, mem_upFrom]
      exact ⟨fun h => h.2, fun h => ⟨by omega, h⟩⟩
    · exact monitorWindowEnd_sameWord readings d (o := 0x301014 + r * 0x20) (by omega) (by omega) _ rfl
  · exact (gives_iff_of_exec (exec_paceLoopUpdate avs s)).2 (paceLoopUpdate_idle idle avs)
  · rw [completes_iff_of_exec (exec_paceLoopUpdate avs s)]
    obtain ⟨only, rails⟩ := paceLoopUpdate_spec began windowed slackLen lateLen (avs := avs) rfl
    obtain ⟨frame, power⟩ := only.frame
    refine ⟨frame, power, fun r hr => ?_⟩
    have u := rails r hr
    have bit {f : Fld} (hw : f.w = 4) (x : Dev) : x.bit f r = x.on (f.part r) := x.bit_eq_on (by omega)
    rw [bit (f := Reg.PWR_PACE_STATUS_AT_CEIL) rfl, bit (f := Reg.PWR_PACE_STATUS_AVS_FAULT) rfl, bit (f := Reg.PWR_PACE_STATUS_MON_FAULT) rfl,
      bit (f := Reg.PWR_PACE_STATUS_SHORT) rfl]
    have target := d.targetOf_cases r Iff.rfl Iff.rfl Iff.rfl
    refine ⟨u.low, u.high, u.late, u.atCeil, u.avs, u.target.trans target, u.dark, u.ceiling,
      fun on_ sound monFault rail m hm taking least => ?_⟩
    have driven := u.driven on_ sound monFault rail m hm taking least
    rw [← u.target] at driven
    exact driven

end Sys2Proof.Machine
end

section
/-! SUPPORT. Words of memory as they are stored (R84–R87, R112–R116): their class, what an accepted write leaves, and what a narrow write
puts into a word. -/

namespace Sys2Proof.Machine

/-! ### Stored words -/

theorem rawBytes_lt (m : List Host.Cell) (k n : Nat) : rawBytes m k n < 256 ^ n := by
  induction n generalizing k with
  | zero => simp [rawBytes]
  | succ n ih =>
    have rest := ih (k + 1)
    have byte := (lookup memDefault m k).isLt
    rw [rawBytes, Nat.pow_succ]
    omega

theorem Dev.raw_lt (d : Dev) (w : Nat) : d.raw w < 2 ^ 80 := rawBytes_lt _ _ 10

theorem Dev.raw_of_mem {d e : Dev} (h : e.mem = d.mem) (w : Nat) : e.raw w = d.raw w := by rw [Dev.raw, h, Dev.raw]

theorem xorColumns_lt {cs : List Nat} (h : ∀ c ∈ cs, c < 2 ^ 8) (v : Nat) : xorColumns v cs < 2 ^ 8 := by
  induction cs generalizing v with
  | nil => simp [xorColumns]
  | cons c cs ih =>
    have first : (if v % 2 = 1 then c else 0) < 2 ^ 8 := by
      split
      · exact h c (by simp)
      · decide
    exact Nat.xor_lt_two_pow first (ih (fun x hx => h x (List.mem_cons_of_mem _ hx)) _)

theorem checkOf_lt (v : Nat) : checkOf v < 2 ^ 8 := by
  unfold checkOf
  split
  · decide
  · exact xorColumns_lt (by decide) v

/-- The syndrome of a data word stored with a byte beside it (R112). -/
theorem syndrome_stored (v : Word) {c : Nat} (hc : c < 2 ^ 8) : syndrome (v.toNat + c * 2 ^ 72) = checkOf v.toNat ^^^ c := by
  have data : (v.toNat + c * 2 ^ 72) % 2 ^ 72 = v.toNat := by have := v.isLt; omega
  have check : (v.toNat + c * 2 ^ 72) / 2 ^ 72 % 256 = c := by have := v.isLt; omega
  rw [syndrome, data, check]

theorem classify_eq_clean_iff {raw : Nat} : classify raw = .clean ↔ syndrome raw = 0 := by
  unfold classify
  dsimp only
  constructor
  · intro h
    by_contra ne
    rw [if_neg ne] at h
    split at h
    · cases h
    · split at h
      · cases h
      · split at h <;> cases h
  · exact fun h => if_pos h

@[simp] theorem classify_encodeWord (v : Word) : classify (encodeWord v) = .clean := by
  rw [classify_eq_clean_iff, encodeWord, syndrome_stored v (checkOf_lt _), Nat.xor_self]

@[simp] theorem classify_poisonWord (v : Word) : classify (poisonWord v) = .poison := by
  have syn : syndrome (poisonWord v) = 0x7F := by
    rw [poisonWord, syndrome_stored v (Nat.xor_lt_two_pow (checkOf_lt _) (by decide)), ← Nat.xor_assoc, Nat.xor_self, Nat.zero_xor]
  simp [classify, syn]

theorem encodeWord_lt (v : Word) : encodeWord v < 2 ^ 80 := by
  have := v.isLt
  have := checkOf_lt v.toNat
  rw [encodeWord]
  omega

theorem poisonWord_lt (v : Word) : poisonWord v < 2 ^ 80 := by
  have := v.isLt
  have : checkOf v.toNat ^^^ 0x7F < 2 ^ 8 := Nat.xor_lt_two_pow (checkOf_lt _) (by decide)
  rw [poisonWord]
  omega

@[simp] theorem dataOf_encodeWord (v : Word) : dataOf (encodeWord v) = v := by
  apply BitVec.eq_of_toNat_eq
  have := v.isLt
  rw [dataOf, encodeWord, BitVec.toNat_ofNat]
  omega

/-- A clean word is its data with their check byte. -/
theorem encodeWord_dataOf {raw : Nat} (lt : raw < 2 ^ 80) (h : classify raw = .clean) : encodeWord (dataOf raw) = raw := by
  have same : checkOf (raw % 2 ^ 72) = raw / 2 ^ 72 % 256 := Nat.xor_eq_zero_iff.1 (classify_eq_clean_iff.1 h)
  rw [encodeWord, dataOf, BitVec.toNat_ofNat, same]
  omega

theorem Dev.encodeWord_raw {d : Dev} {w : Nat} (h : classify (d.raw w) = .clean) : encodeWord (dataOf (d.raw w)) = d.raw w :=
  encodeWord_dataOf (d.raw_lt w) h

theorem Dev.raw_setRaw_encodeWord (d : Dev) (w : Nat) (v : Word) : (d.setRaw w (encodeWord v)).raw w = encodeWord v := by
  rw [Dev.raw_setRaw, Nat.mod_eq_of_lt (encodeWord_lt v)]

theorem Dev.raw_setRaw_poisonWord (d : Dev) (w : Nat) (v : Word) : (d.setRaw w (poisonWord v)).raw w = poisonWord v := by
  rw [Dev.raw_setRaw, Nat.mod_eq_of_lt (poisonWord_lt v)]

/-! ### Whole words -/

@[simp] theorem Dev.setTracker_mem (d : Dev) (n : Nat) (ts : List Track) : (d.setTracker n ts).mem = d.mem := rfl

@[simp] theorem Dev.trackWrite_mem (d : Dev) (r : Region) (w : Nat) : (d.trackWrite r w).mem = d.mem := by
  unfold Dev.trackWrite
  dsimp only
  split
  · split <;> simp
  · rfl

theorem Dev.inject_unarmed {d : Dev} (h : d.on Reg.MEM_INJECT_ARMED = false) (w raw : Nat) : d.inject w raw = (d, raw) := by
  simp [Dev.inject, h]

/-- A write that memory in service accepts stores its word. -/
theorem Dev.writeRaw_stores {d : Dev} {q : Req} {b : Nat} {r : Region} (region : regionOf b = some r) (open_ : d.writable r = true)
    (free : d.refuse q r (b / 8) true = none) (serves : d.outOfService r.ctrl = false) (raw : Nat) :
    d.writeRaw q b raw = (d.storeRaw r (b / 8) raw, none) := by
  simp [Dev.writeRaw, region, open_, free, serves]

theorem Dev.storeRaw_mem {d : Dev} (h : d.on Reg.MEM_INJECT_ARMED = false) (r : Region) (w raw : Nat) :
    (d.storeRaw r w raw).mem = (d.setRaw w raw).mem := by
  rw [Dev.storeRaw, Dev.inject_unarmed h, Dev.trackWrite_mem]

/-- What an accepted write of a whole word leaves (R86, R87). -/
theorem Dev.writeRaw_accepted {d : Dev} {q : Req} {b : Nat} (h : d.accepts q b) (raw : Nat) :
    (d.writeRaw q b raw).2 = none ∧ (d.writeRaw q b raw).1.raw (b / 8) = raw % 2 ^ 80 ∧
      ∀ x, x ≠ b / 8 → (d.writeRaw q b raw).1.raw x = d.raw x := by
  obtain ⟨r, region, open_, free, serves, unarmed⟩ := h
  rw [Dev.writeRaw_stores region open_ free serves]
  have same := Dev.raw_of_mem (d.storeRaw_mem unarmed r (b / 8) raw)
  exact ⟨rfl, (same _).trans (d.raw_setRaw _ _), fun x hx => (same x).trans (d.raw_setRaw_ne _ hx)⟩

/-- The same of a word of data. -/
theorem Dev.writeWord_accepted {d : Dev} {q : Req} {b : Nat} (h : d.accepts q b) (v : Word) :
    (d.writeWord q b v).2 = none ∧ (d.writeWord q b v).1.raw (b / 8) = encodeWord v ∧
      ∀ x, x ≠ b / 8 → (d.writeWord q b v).1.raw x = d.raw x := by
  have stored := Dev.writeRaw_accepted h (encodeWord v)
  rwa [Nat.mod_eq_of_lt (encodeWord_lt v)] at stored

/-! ### Words of on-chip memory read -/

theorem Dev.spreadXts_onChip (d : Dev) {r : Region} (h : ∀ i, r ≠ .hbm i) (w reader : Nat) : d.spreadXts r w reader = (d, false) := by
  cases r with
  | hbm i => exact absurd rfl (h i)
  | _ => rfl

section
variable {d : Dev} {r : Region} {w : Nat} (chip : ∀ i, r ≠ .hbm i) (serves : d.outOfService r.ctrl = false)
include chip serves

/-! A word of on-chip memory in service is delivered by its class alone (R114, R117). -/

theorem Dev.fetchWord_clean (clean : classify (d.raw w) = .clean) (reader : Nat) :
    d.fetchWord r w reader = (d, .data (dataOf (d.raw w))) := by
  simp [Dev.fetchWord, Dev.spreadXts_onChip d chip, serves, clean]

theorem Dev.fetchWord_poison (poison : classify (d.raw w) = .poison) (reader : Nat) : d.fetchWord r w reader = (d, .poison) := by
  simp [Dev.fetchWord, Dev.spreadXts_onChip d chip, serves, poison]

theorem Dev.fetchWord_uncorrectable (fresh : classify (d.raw w) = .uncorrectable) (reader : Nat) :
    d.fetchWord r w reader = (d.detectUncorr r w reader, .uncorrectable) := by
  simp [Dev.fetchWord, Dev.spreadXts_onChip d chip, serves, fresh]

end

theorem Dev.readWord_clear {d : Dev} {q : Req} {b : Nat} (h : d.clearRead q b) : d.readWord q b = (d, .data (dataOf (d.raw (b / 8)))) := by
  obtain ⟨r, region, open_, free, serves, chip, clean⟩ := h
  simp [Dev.readWord, region, open_, free, Dev.fetchWord_clean chip serves clean]

theorem OnlyRegs.mem_eq {d e : Dev} (h : OnlyRegs d e) : e.mem = d.mem := by
  obtain ⟨_, _, rfl⟩ := h
  rfl

/-- R117: a fresh uncorrectable word is left as poison. -/
theorem Dev.raw_detectUncorr (d : Dev) (r : Region) (w reader : Nat) : (d.detectUncorr r w reader).raw w = poisonWord (dataOf (d.raw w)) := by
  have only : OnlyRegs (d.setRaw w (poisonWord (dataOf (d.raw w)))) (d.detectUncorr r w reader) := by
    unfold Dev.detectUncorr
    exact ((((Dev.logUncorr_only _ _ _ _ _ _).bump _).bump _).set _ _).memEvent _ _
  exact (Dev.raw_of_mem only.mem_eq w).trans (d.raw_setRaw_poisonWord w _)

/-! ### Narrow writes (R86) -/

theorem upFrom_succ_last (k n : Nat) : upFrom k (n + 1) = upFrom k n ++ [k + n] := by
  induction n generalizing k with
  | zero => rfl
  | succ n ih => rw [upFrom, ih (k + 1), upFrom, List.cons_append, Nat.add_right_comm, Nat.add_assoc]

/-- Ones in the chosen units of k bits. -/
def unitMask (k : Nat) (p : Nat → Bool) (n : Nat) : Nat := (upFrom 0 n).foldl (fun a j => if p j then a + (2 ^ k - 1) * (2 ^ k) ^ j else a) 0

theorem unitMask_succ (k : Nat) (p : Nat → Bool) (n : Nat) :
    unitMask k p (n + 1) = 2 ^ (k * n) * (if p n then 2 ^ k - 1 else 0) + unitMask k p n := by
  rw [unitMask, upFrom_succ_last, List.foldl_append, ← unitMask, Nat.pow_mul]
  by_cases h : p n <;> simp [h, Nat.add_comm, Nat.mul_comm]

theorem testBit_unitMask (k : Nat) (p : Nat → Bool) (n i : Nat) :
    (unitMask k p n).testBit i = (decide (i < k * n) && p (i / k)) := by
  induction n generalizing i with
  | zero => simp [unitMask, upFrom]
  | succ n ih =>
    have small : unitMask k p n < 2 ^ (k * n) := by
      refine Nat.lt_pow_two_of_testBit _ (fun j hj => ?_)
      rw [ih, decide_eq_false (Nat.not_lt.2 hj), Bool.false_and]
    rw [unitMask_succ, Nat.testBit_two_pow_mul_add _ small]
    by_cases below : i < k * n
    · have : i < k * (n + 1) := Nat.lt_of_lt_of_le below (Nat.mul_le_mul_left k (Nat.le_succ n))
      simp [below, this, ih]
    · by_cases inside : i < k * (n + 1)
      · have place : i / k = n := Nat.div_eq_of_lt_le (by rw [Nat.mul_comm]; omega) (by rw [Nat.mul_comm]; exact inside)
        have bit : i - k * n < k := by rw [Nat.mul_succ] at inside; omega
        by_cases h : p n <;> simp [below, inside, place, h, bit]
      · have bit : ¬i - k * n < k := by rw [Nat.mul_succ] at inside; omega
        by_cases h : p n <;> simp [below, inside, h, bit]

theorem maskBits_byteView (mask : Nat) : maskBits true mask = unitMask 8 (bitOf mask) 8 := rfl
theorem maskBits_samples (mask : Nat) : maskBits false mask = unitMask 18 (bitOf mask) 4 := rfl

theorem getLsbD_mergeWord_samples (old new : Word) (mask : Nat) {i : Nat} (hi : i < 72) :
    (mergeWord old new false mask).getLsbD i = if bitOf mask (i / 18) then new.getLsbD i else old.getLsbD i := by
  simp only [mergeWord, maskBits_samples, Bool.false_eq_true, if_false, BitVec.getLsbD_or, BitVec.getLsbD_and, BitVec.getLsbD_not,
    BitVec.getLsbD_ofNat, testBit_unitMask, hi, decide_true, Bool.true_and]
  cases bitOf mask (i / 18) <;> simp

theorem getLsbD_mergeWord_byteView (old new : Word) (mask : Nat) {i : Nat} (hi : i < 72) :
    (mergeWord old new true mask).getLsbD i = (decide (i < 64) && if bitOf mask (i / 8) then new.getLsbD i else old.getLsbD i) := by
  simp only [mergeWord, maskBits_byteView, if_true, BitVec.getLsbD_or, BitVec.getLsbD_and, BitVec.getLsbD_not,
    BitVec.getLsbD_ofNat, testBit_unitMask, Nat.testBit_two_pow_sub_one, hi, decide_true, Bool.true_and]
  by_cases low : i < 64 <;> cases bitOf mask (i / 8) <;> simp [low]

/-- A unit of k bits of a word whose bits are chosen unit by unit. -/
theorem extractLsb'_of_units {x old new : Word} {k i : Nat} {p : Nat → Bool}
    (h : ∀ t < k, x.getLsbD (k * i + t) = if p ((k * i + t) / k) then new.getLsbD (k * i + t) else old.getLsbD (k * i + t)) :
    x.extractLsb' (k * i) k = if p i then new.extractLsb' (k * i) k else old.extractLsb' (k * i) k := by
  apply BitVec.eq_of_getLsbD_eq
  intro t ht
  have unit : (k * i + t) / k = i := by rw [Nat.mul_add_div (by omega), Nat.div_eq_of_lt ht, Nat.add_zero]
  rw [BitVec.getLsbD_extractLsb', h t ht, unit]
  cases p i <;> simp [ht]

theorem mergeWord_sample (old new : Word) (mask : Nat) {i : Nat} (hi : i < 4) :
    (mergeWord old new false mask).extractLsb' (18 * i) 18 =
      if bitOf mask i then new.extractLsb' (18 * i) 18 else old.extractLsb' (18 * i) 18 :=
  extractLsb'_of_units (fun t ht => getLsbD_mergeWord_samples old new mask (by omega))

theorem mergeWord_byte (old new : Word) (mask : Nat) {i : Nat} (hi : i < 8) :
    (mergeWord old new true mask).extractLsb' (8 * i) 8 =
      if bitOf mask i then new.extractLsb' (8 * i) 8 else old.extractLsb' (8 * i) 8 := by
  refine extractLsb'_of_units (fun t ht => ?_)
  have low : 8 * i + t < 64 := by omega
  rw [getLsbD_mergeWord_byteView old new mask (by omega), decide_eq_true low, Bool.true_and]

/-- R85: a write of the byte view clears bits [71:64]. -/
theorem mergeWord_byteView_top (old new : Word) (mask : Nat) : (mergeWord old new true mask).extractLsb' 64 8 = 0 := by
  apply BitVec.eq_of_getLsbD_eq
  intro t ht
  have high : ¬64 + t < 64 := by omega
  rw [BitVec.getLsbD_extractLsb', getLsbD_mergeWord_byteView old new mask (by omega), decide_eq_false high]
  simp

section
variable {d e : Dev} {q : Req} {b : Nat} {r : Region} (region : regionOf b = some r) (open_ : d.writable r = true)
  (free : d.refuse q r (b / 8) true = none) (serves : d.outOfService r.ctrl = false)
include region open_ free serves

/-! A narrow write that memory in service accepts reads its word first. -/

theorem Dev.writeNarrow_data {old : Word} (fetched : d.fetchWord r (b / 8) 6 = (e, .data old)) (v : Word) (byteView : Bool) (mask : Nat) :
    d.writeNarrow q b v byteView mask =
      ((e.setRaw (b / 8) (encodeWord (mergeWord old v byteView mask))).trackWrite r (b / 8), none) := by
  simp [Dev.writeNarrow, region, open_, free, serves, fetched]

theorem Dev.writeNarrow_lost {got : Got} (fetched : d.fetchWord r (b / 8) 6 = (e, got)) (lost : got = .poison ∨ got = .uncorrectable)
    (v : Word) (byteView : Bool) (mask : Nat) :
    d.writeNarrow q b v byteView mask = ((e.set Reg.MEM_ATTN_WRITE_DROP 1).memEvent 0x781 (e.secureWord r (b / 8)), none) := by
  rcases lost with rfl | rfl <;> simp [Dev.writeNarrow, region, open_, free, serves, fetched]

end

/-- Settles O35: whole words by `Dev.writeWord_accepted`, narrow writes by what `mergeWord` puts into each unit, and a word that is lost by
what its reading leaves. -/
theorem writesStore : Obligations.WritesStore := by
  unfold Obligations.WritesStore
  intro d q b r v w region open_ free serves
  refine ⟨fun unarmed => ?_, fun chip clean byteView mask => ?_, fun chip lost byteView mask => ?_⟩
  · have accepts : d.accepts q b := ⟨r, region, open_, free, serves, unarmed⟩
    obtain ⟨ack, stored, others⟩ := Dev.writeWord_accepted accepts v
    obtain ⟨poisonAck, poisoned, -⟩ := Dev.writeRaw_accepted accepts (poisonWord 0)
    rw [Nat.mod_eq_of_lt (poisonWord_lt 0)] at poisoned
    exact ⟨ack, stored, others, (d.writeRaw_only q b _).wf, poisonAck, by rw [Dev.writePoison, poisoned, classify_poisonWord]⟩
  · have written : d.writeNarrow q b v byteView mask =
        ((d.setRaw w (encodeWord (mergeWord (dataOf (d.raw w)) v byteView mask))).trackWrite r w, none) :=
       Dev.writeNarrow_data region open_ free serves (Dev.fetchWord_clean chip serves clean 6) v byteView mask
    have same := Dev.raw_of_mem ((d.setRaw w (encodeWord (mergeWord (dataOf (d.raw w)) v byteView mask))).trackWrite_mem r w)
    have stored := (same w).trans (d.raw_setRaw_encodeWord w _)
    rw [written]
    dsimp only
    rw [stored, dataOf_encodeWord]
    refine ⟨rfl, classify_encodeWord _, fun x hx => (same x).trans (d.raw_setRaw_ne _ hx), ?_, ?_⟩
    · rintro rfl i hi
      exact mergeWord_sample _ _ _ hi
    · rintro rfl
      exact ⟨mergeWord_byteView_top _ _ _, fun i hi => mergeWord_byte _ _ _ hi⟩
  · have dropped (e : Dev) (n : Nat) (sec : Bool) : ((e.set Reg.MEM_ATTN_WRITE_DROP 1).memEvent n sec).on Reg.MEM_ATTN_WRITE_DROP = true :=
      e.on_set_self Reg.MEM_ATTN_WRITE_DROP 1 (by decide)
    have kept (e : Dev) (n : Nat) (sec : Bool) : ((e.set Reg.MEM_ATTN_WRITE_DROP 1).memEvent n sec).raw w = e.raw w := rfl
    rcases lost with poison | fresh
    · rw [Dev.writeNarrow_lost region open_ free serves (Dev.fetchWord_poison chip serves poison 6) (.inl rfl)]
      exact ⟨by rw [kept, poison], dropped _ _ _⟩
    · rw [Dev.writeNarrow_lost region open_ free serves (Dev.fetchWord_uncorrectable chip serves fresh 6) (.inr rfl)]
      exact ⟨by rw [kept, Dev.raw_detectUncorr, classify_poisonWord], dropped _ _ _⟩

end Sys2Proof.Machine
end

section
/-! SUPPORT. The memory window (R85, R90, R97, R98, R119): what a read shows and what a write merges, four bytes at a time. -/

namespace Sys2Proof.Machine

theorem exec_memoryWindowRead (off : BitVec 25) (size : Nat) (e0 e1 : Ext) (s : State) :
    exec (.memoryWindowRead off size e0 e1) s = s.onDev (windowRead off.toNat size e0 e1) := rfl
theorem exec_memoryWindowWrite (off : BitVec 25) (size : Nat) (v : BitVec 64) (s : State) :
    exec (.memoryWindowWrite off size v) s = s.onDev (windowWrite off.toNat size v) := rfl

/-- An internal address that leads to memory is a device byte address of a region (R88). -/
theorem Dev.target_mem {d : Dev} {a b : Nat} (h : d.target a = .mem b) : b = a % 2 ^ 53 := by
  unfold Dev.target at h
  dsimp only at h
  split at h
  · split at h <;> cases h
  · split at h
    · split at h
      · cases h; rfl
      · cases h
    · cases h

/-! ### Four bytes -/

/-- Four bytes of the byte view are the same in a stored word and in its data. -/
theorem bitsOf_dataOf (raw : Nat) {k : Nat} (h : k + 32 ≤ 72) : bitsOf (dataOf raw).toNat k 32 = bitsOf raw k 32 := by
  have cut : 2 ^ 72 = 2 ^ k * 2 ^ (72 - k) := by rw [← Nat.pow_add]; congr 1; omega
  rw [dataOf, BitVec.toNat_ofNat, bitsOf, cut, Nat.mod_mul_right_div_self, Nat.mod_mod_of_dvd _ (Nat.pow_dvd_pow 2 (by omega)), bitsOf]

section
variable {d e : Dev} {a b : Nat} (ht : d.target a = .mem b)
include ht

/-! R98, R119: where the window leads to memory it shows the word's stored data, unless the request is refused. -/

theorem windowRead4_data {v : Word} (read : d.readWord windowReq b = (e, .data v)) (ext : Ext) :
    windowRead4 a ext d = (e, bitsOf v.toNat (8 * (b % 8)) 32) := by
  have place : a % 8 = b % 8 := by have := Dev.target_mem ht; omega
  simp only [windowRead4, ht, place, read]

theorem windowRead4_lost (aligned : a % 4 = 0) (lost : d.readWord windowReq b = (e, .poison) ∨ d.readWord windowReq b = (e, .uncorrectable))
    (ext : Ext) : windowRead4 a ext d = (e, bitsOf (d.raw (b / 8)) (8 * (b % 8)) 32) := by
  have place : a % 8 = b % 8 := by have := Dev.target_mem ht; omega
  rcases lost with read | read <;> simp only [windowRead4, ht, place, read, bitsOf_dataOf _ (show 8 * (b % 8) + 32 ≤ 72 by omega)]

theorem windowRead4_refused {st : Nat} (read : d.readWord windowReq b = (e, .err st)) (ext : Ext) : windowRead4 a ext d = (e, 0) := by
  simp only [windowRead4, ht, read]

end

theorem windowRead4_remote {d : Dev} {a dev x : Nat} (ht : d.target a = .remote dev x) (w : Word) :
    windowRead4 a (.word w) d = (d, bitsOf w.toNat (8 * (a % 8)) 32) := by
  rw [windowRead4, ht]

theorem windowWrite4_mem {d : Dev} {a b : Nat} (ht : d.target a = .mem b) (v : Nat) :
    windowWrite4 a v d = (d.writeNarrow windowReq b (BitVec.ofNat 72 (v * 2 ^ (8 * (b % 8)))) true (15 * 2 ^ (b % 8))).1 := by
  have place : a % 8 = b % 8 := by have := Dev.target_mem ht; omega
  have scale : 256 ^ (b % 8) = 2 ^ (8 * (b % 8)) := by rw [Nat.pow_mul]
  simp only [windowWrite4, ht, place, scale]

theorem windowWrite4_elsewhere {d : Dev} {a : Nat} (h : ∀ b, d.target a ≠ .mem b) (v : Nat) : windowWrite4 a v d = d := by
  unfold windowWrite4
  split
  · next b hb => exact absurd hb (h b)
  · rfl

/-! ### The commands -/

section
variable {d : Dev} {o : Nat} (served : d.served (.func 0) 0x2000000 = true)
include served

theorem windowRead_unsound {size : Nat} (h : ¬(o % 4 = 0 ∧ (size = 4 ∨ size = 8))) (e0 e1 : Ext) :
    windowRead o size e0 e1 d = d.send (.window o (leBytes 0 size)) := by
  have bad : (o % 4 != 0 || !(size == 4 || size == 8)) = true := by simp; omega
  rw [windowRead, served, Bool.not_true, if_neg Bool.false_ne_true, if_pos bad]

theorem windowWrite_unsound {size : Nat} (h : ¬(o % 4 = 0 ∧ (size = 4 ∨ size = 8))) (v : BitVec 64) : windowWrite o size v d = d := by
  have bad : (o % 4 != 0 || !(size == 4 || size == 8)) = true := by simp; omega
  rw [windowWrite, served, Bool.not_true, Bool.false_or, if_pos bad]

variable (aligned : o % 4 = 0)
include aligned

theorem windowRead_four {e : Dev} {lo : Nat} {e0 : Ext} (first : windowRead4 (d.windowAddr o) e0 d = (e, lo)) (e1 : Ext) :
    windowRead o 4 e0 e1 d = e.send (.window o (leBytes lo 4)) := by
  rw [windowRead, served, Bool.not_true, if_neg Bool.false_ne_true, aligned, if_neg (by decide), first]
  rfl

theorem windowRead_eight {e f : Dev} {lo hi : Nat} {e0 e1 : Ext} (first : windowRead4 (d.windowAddr o) e0 d = (e, lo))
    (second : windowRead4 (e.windowAddr (o + 4)) e1 e = (f, hi)) :
    windowRead o 8 e0 e1 d = f.send (.window o (leBytes lo 4 ++ leBytes hi 4)) := by
  rw [windowRead, served, Bool.not_true, if_neg Bool.false_ne_true, aligned, if_neg (by decide), first]
  refine (if_neg (by decide)).trans ?_
  rw [second]

theorem windowWrite_four (v : BitVec 64) : windowWrite o 4 v d = windowWrite4 (d.windowAddr o) (v.toNat % 2 ^ 32) d := by
  rw [windowWrite, served, aligned, if_neg (by decide), if_pos (by decide)]

theorem windowWrite_eight (v : BitVec 64) : windowWrite o 8 v d =
    windowWrite4 ((windowWrite o 4 v d).windowAddr (o + 4)) (v.toNat / 2 ^ 32) (windowWrite o 4 v d) := by
  rw [windowWrite_four served aligned, windowWrite, served, aligned, if_neg (by decide), if_neg (by decide)]

end

/-- R98: the window begins at the page selected. -/
theorem Dev.windowAddr_toNat (d : Dev) (off : BitVec 25) : d.windowAddr off.toNat = d.get Reg.GLB_MEMWIN_PAGE * 2 ^ 25 + off.toNat := by
  rw [Dev.windowAddr, Nat.mod_eq_of_lt off.isLt]

/-- Settles O33: each access by where its address leads and by what the request there brings. -/
theorem memoryWindow : Obligations.MemoryWindow := by
  unfold Obligations.MemoryWindow
  intro s off size v e0 e1 b d a sound read served
  have start : d.windowAddr off.toNat = a := d.windowAddr_toNat off
  have lead (aligned : off.toNat % 4 = 0) : a % 4 = 0 := by
    show (d.get Reg.GLB_MEMWIN_PAGE * 2 ^ 25 + off.toNat) % 4 = 0
    omega
  have four (aligned : off.toNat % 4 = 0) {e : Dev} {lo : Nat} (first : windowRead4 a e0 d = (e, lo)) :
      Gives (read 4) s (e.send (.window off.toNat (leBytes lo 4))) :=
    (gives_iff_of_exec (exec_memoryWindowRead off 4 e0 e1 s)).2 (windowRead_four served aligned (start ▸ first) e1)
  refine ⟨fun h => ⟨?_, ?_⟩, fun aligned ht => ⟨?_, ?_, ?_, ?_⟩, fun aligned hn => ⟨?_, ?_⟩, ?_, ?_⟩
  · exact (gives_iff_of_exec (exec_memoryWindowRead off size e0 e1 s)).2 (windowRead_unsound served h e0 e1)
  · exact (gives_iff_of_exec (exec_memoryWindowWrite off size v s)).2 (windowWrite_unsound served h v)
  · intro r region open_ free serves chip clean
    apply four aligned
    have place : 8 * (b % 8) + 32 ≤ 72 := by have := Dev.target_mem ht; have := lead aligned; omega
    rw [← bitsOf_dataOf _ place]
    exact windowRead4_data ht (Dev.readWord_clear ⟨r, region, open_, free, serves, chip, clean⟩) e0
  · exact fun e lost => four aligned (windowRead4_lost ht (lead aligned) lost e0)
  · exact fun e st refused => four aligned (windowRead4_refused ht refused e0)
  · intro e ack written
    rw [gives_iff_of_exec (exec_memoryWindowWrite off 4 v s), windowWrite_four served aligned, start, windowWrite4_mem ht, written]
  · rw [gives_iff_of_exec (exec_memoryWindowWrite off 4 v s), windowWrite_four served aligned, start, windowWrite4_elsewhere hn]
  · rintro w rfl ⟨dev, x, remote⟩
    apply four aligned
    exact windowRead4_remote remote w
  · intro aligned d1 lo d2 hi first second
    exact (gives_iff_of_exec (exec_memoryWindowRead off 8 e0 e1 s)).2 (windowRead_eight served aligned (start ▸ first) second)
  · intro aligned d1 written
    have first := (gives_iff_of_exec (exec_memoryWindowWrite off 4 v s)).1 written
    rw [gives_iff_of_exec (exec_memoryWindowWrite off 8 v s), windowWrite_eight served aligned, first]

end Sys2Proof.Machine
end

section
/-! SUPPORT. Packets at their memory (R86–R88, R97, R118, R129, R328, R338): how a packet is taken or met by a fence, and what each
kind does there. -/

namespace Sys2Proof.Machine

/-! ### Words read -/

/-- A clean word of on-chip memory, open to a request, is read as it is stored. -/
theorem Dev.readRaw_clear {d : Dev} {q : Req} {b : Nat} (h : d.clearRead q b) :
    d.readRaw q b = (d, some (BitVec.ofNat 80 (d.raw (b / 8))), none) := by
  obtain ⟨r, region, open_, free, serves, chip, clean⟩ := h
  have read := Dev.readWord_clear (q := q) ⟨r, region, open_, free, serves, chip, clean⟩
  rw [Dev.readRaw, read]
  dsimp only
  rw [Dev.encodeWord_raw clean]

/-- R87: a run of clean words is read in order. -/
theorem Dev.readRun_clear {d : Dev} {q : Req} {b n : Nat} (h : ∀ k < n, d.clearRead q (b + 8 * k)) (i : Nat) :
    d.readRun q (b + 8 * i) (n - i) = (d, (upFrom i (n - i)).map (fun k => BitVec.ofNat 80 (d.raw ((b + 8 * k) / 8))), none) := by
  generalize left : n - i = m
  induction m generalizing i with
  | zero => rfl
  | succ m ih =>
    rw [Dev.readRun, Dev.readRaw_clear (h i (by omega)), show b + 8 * i + 8 = b + 8 * (i + 1) by ring, upFrom]
    dsimp only
    rw [ih (i + 1) (by omega), List.map_cons]

/-! ### Packets taken, and packets met by a fence (R338) -/

theorem Dev.take_served {d0 d : Dev} {p : Packet}
    (h : (d0.noc.arrived.contains p = true ∧ d = d0.onNoc (fun n => { n with arrived := n.arrived.erase p })) ∨
      (d0.noc.arrived.contains p = false ∧ d0.slotFenced p.dstEp.val = false ∧ d = d0)) : d0.take p = (d, true) := by
  rcases h with ⟨there, rfl⟩ | ⟨fresh, unfenced, rfl⟩
  · rw [Dev.take, if_pos there]
  · rw [Dev.take, fresh, if_neg Bool.false_ne_true, unfenced, if_neg Bool.false_ne_true]

theorem Dev.take_fenced {d : Dev} {p : Packet} (fresh : d.noc.arrived.contains p = false) (fenced : d.slotFenced p.dstEp.val = true) :
    d.take p = (if isPosted p then (d.bump (Reg.NOC_EP_FENCE_DROPS p.dstEp.val)).answerAt p.dstEp.val (d.refusal p stFENCED)
      else (d.bump (Reg.NOC_EP_FENCED_RSP p.dstEp.val)).answerAt p.dstEp.val (d.refusal p stFENCED), false) := by
  rw [Dev.take, fresh, if_neg Bool.false_ne_true, if_pos fenced]

theorem Packet.type_of_is {p : Packet} {t : PType} (h : p.is t = true) : p.type = t := by
  simp only [Packet.is, Bool.and_eq_true, beq_iff_eq] at h
  exact h.1

/-- Packets that ask for something of memory. -/
def asksMemory (p : Packet) : Prop := p.type = .rd ∨ p.type = .wr ∨ p.type = .wrn ∨ p.type = .swr

theorem asksMemory_of_write {p : Packet} (write : p.type = .wr ∨ p.type = .swr) : asksMemory p := by
  rcases write with h | h
  · exact .inr (.inl h)
  · exact .inr (.inr (.inr h))

/-- R340: a refusal is ERR, and NOTICE for a posted write. -/
theorem Dev.refusal_of_asks {p : Packet} (h : asksMemory p) (d : Dev) (st : Nat) :
    d.refusal p st = some (d.answerTo p (if p.type = .swr then .notice else .err) st []) := by
  rcases h with h | h | h | h <;> simp [Dev.refusal, isReq, isPosted, network, typeCode, h]

theorem isPosted_iff {p : Packet} : isPosted p = true ↔ p.type = .swr := by simp [isPosted]

/-- The device once a slot has refused a packet with a status. -/
def Dev.refuses (d : Dev) (p : Packet) (st : Nat) : Dev :=
  d.enterMesh (d.answerTo p (if p.type = .swr then .notice else .err) st []) p.dstEp.val

theorem Dev.answerAt_refusal {p : Packet} (h : asksMemory p) (d : Dev) (st : Nat) : d.answerAt p.dstEp.val (d.refusal p st) = d.refuses p st := by
  rw [Dev.refusal_of_asks h, Dev.answerAt, Dev.refuses]

/-- R328: the acknowledgement of a write. -/
def Dev.ackTo (d : Dev) (p : Packet) : Packet := d.answerTo p (if p.type = .wr then .wack else .sack) 0 []

theorem Dev.ackTo_eq {p : Packet} (write : p.type = .wr ∨ p.type = .swr) (d : Dev) :
    (if isPosted p then d.answerTo p .sack 0 [] else d.answerTo p .wack 0 []) = d.ackTo p := by
  rcases write with h | h <;> simp [h, isPosted, Dev.ackTo]

/-- A refusal made before a count is the one made after it. -/
theorem Dev.bump_answerAt_refusal {p : Packet} (h : asksMemory p) (d : Dev) {f : Fld} (hf : f.off ≠ 0) (st : Nat) :
    (d.bump f).answerAt p.dstEp.val (d.refusal p st) = (d.bump f).refuses p st := by
  have same : (d.bump f).ownId = d.ownId := d.get_set_off f Reg.GLB_ID_DEVID _ (Ne.symm hf)
  simp only [Dev.refusal_of_asks h, Dev.answerAt, Dev.refuses, Dev.answerTo, same]

theorem Dev.take_fenced_request {d : Dev} {p : Packet} (h : asksMemory p) (request : p.type ≠ .swr) (fresh : d.noc.arrived.contains p = false)
    (fenced : d.slotFenced p.dstEp.val = true) : d.take p = ((d.bump (Reg.NOC_EP_FENCED_RSP p.dstEp.val)).refuses p stFENCED, false) := by
  have posted : ¬isPosted p = true := fun hp => request (isPosted_iff.1 hp)
  rw [Dev.take_fenced fresh fenced, if_neg posted, Dev.bump_answerAt_refusal h _ (by simp [Reg.NOC_EP_FENCED_RSP])]

theorem Dev.take_fenced_posted {d : Dev} {p : Packet} (h : p.type = .swr) (fresh : d.noc.arrived.contains p = false)
    (fenced : d.slotFenced p.dstEp.val = true) : d.take p = ((d.bump (Reg.NOC_EP_FENCE_DROPS p.dstEp.val)).refuses p stFENCED, false) := by
  rw [Dev.take_fenced fresh fenced, if_pos (isPosted_iff.2 h),
    Dev.bump_answerAt_refusal (.inr (.inr (.inr h))) _ (by simp [Reg.NOC_EP_FENCE_DROPS])]

/-! ### What each packet does once it is taken -/

section
variable {d0 d : Dev} {p : Packet} (taken : d0.take p = (d, true))
include taken

theorem readPacket_toHost {o : Owner} (host : p.value.getLsbD 53 = true)
    (master : d.jfe.busMaster.getLsbD ((o.func.map Fin.val).getD 0) = true) :
    readPacket p o d0 = d.send (.read ((o.func.map Fin.val).getD 0) (packetAddr p) (8 * (p.count.val + 1))) := by
  rw [readPacket, taken]
  simp only [host, master, if_true]

theorem readPacket_noMaster {o : Owner} (asks : asksMemory p) (host : p.value.getLsbD 53 = true)
    (master : d.jfe.busMaster.getLsbD ((o.func.map Fin.val).getD 0) = false) : readPacket p o d0 = d.refuses p stCONFIG := by
  rw [readPacket, taken, ← Dev.answerAt_refusal asks]
  simp only [host, master, if_true, Bool.false_eq_true, if_false]

section
variable {o : Owner} {d2 : Dev} {ws : List (BitVec 80)} (device : p.value.getLsbD 53 = false)
include device

theorem readPacket_data (run : ((groupsOf (packetAddr p) (p.count.val + 1)).foldl (fun d g => d.countRead g.1) d).readRun (reqOf p o)
    (packetAddr p) (p.count.val + 1) = (d2, ws, none)) :
    readPacket p o d0 = d2.enterMesh (d2.answerTo p .rdata 0 ws) p.dstEp.val := by
  rw [readPacket, taken]
  simp only [device, Bool.false_eq_true, if_false, Dev.each, run, Dev.answerAt]

theorem readPacket_refused {st : Nat} (asks : asksMemory p)
    (run : ((groupsOf (packetAddr p) (p.count.val + 1)).foldl (fun d g => d.countRead g.1) d).readRun (reqOf p o)
      (packetAddr p) (p.count.val + 1) = (d2, ws, some st)) : readPacket p o d0 = d2.refuses p st := by
  rw [readPacket, taken, ← Dev.answerAt_refusal asks]
  simp only [device, Bool.false_eq_true, if_false, Dev.each, run]

end

section
variable {o : Owner} (write : p.type = .wr ∨ p.type = .swr)
include write

theorem writePacket_toHost (host : p.value.getLsbD 53 = true) (master : d.jfe.busMaster.getLsbD ((o.func.map Fin.val).getD 0) = true) :
    writePacket p o d0 = (d.send (.write ((o.func.map Fin.val).getD 0) (packetAddr p) (p.words.map hostBytes).flatten
      (d.on Reg.JFE_CFG_RO_DATA))).enterMesh (d.ackTo p) p.dstEp.val := by
  have bytes : p.words.foldr (fun w bs => hostBytes w ++ bs) [] = (p.words.map hostBytes).flatten := by
    induction p.words with
    | nil => rfl
    | cons w ws ih => rw [List.foldr_cons, ih, List.map_cons, List.flatten_cons]
  rw [writePacket, taken]
  simp only [host, master, if_true, Dev.ackTo_eq write, bytes, Dev.answerAt]

theorem writePacket_noMaster (host : p.value.getLsbD 53 = true)
    (master : d.jfe.busMaster.getLsbD ((o.func.map Fin.val).getD 0) = false) : writePacket p o d0 = d.refuses p stCONFIG := by
  rw [writePacket, taken, ← Dev.answerAt_refusal (asksMemory_of_write write)]
  simp only [host, master, if_true, Bool.false_eq_true, if_false]

variable {d2 : Dev} (device : p.value.getLsbD 53 = false)
include device

theorem writePacket_stored (run : d.writeRun (reqOf p o) (packetAddr p) p.words = (d2, none)) :
    writePacket p o d0 =
      ((groupsOf (packetAddr p) p.words.length).foldl (fun d g => d.countWrite g.1 g.2) d2).enterMesh (d.ackTo p) p.dstEp.val := by
  rw [writePacket, taken]
  simp only [device, Bool.false_eq_true, if_false, Dev.each, run, Dev.ackTo_eq write, Dev.answerAt]

theorem writePacket_refused {st : Nat} (run : d.writeRun (reqOf p o) (packetAddr p) p.words = (d2, some st)) :
    writePacket p o d0 = d2.refuses p st := by
  rw [writePacket, taken, ← Dev.answerAt_refusal (asksMemory_of_write write)]
  simp only [device, Bool.false_eq_true, if_false, run]

end

section
variable {o : Owner} {d2 : Dev} (device : p.value.getLsbD 53 = false)
include device

theorem narrowPacket_stored
    (run : d.writeNarrow (reqOf p o) (packetAddr p) (dataOf (p.words.headD 0).toNat) p.byteView p.mask.toNat = (d2, none)) :
    narrowPacket p o d0 =
      ((groupsOf (packetAddr p) 1).foldl (fun d g => d.countWrite g.1 g.2) d2).enterMesh (d2.answerTo p .wack 0 []) p.dstEp.val := by
  rw [narrowPacket, taken]
  simp only [device, Bool.false_eq_true, if_false, Dev.each, run, Dev.answerAt]

theorem narrowPacket_refused {st : Nat} (asks : asksMemory p)
    (run : d.writeNarrow (reqOf p o) (packetAddr p) (dataOf (p.words.headD 0).toNat) p.byteView p.mask.toNat = (d2, some st)) :
    narrowPacket p o d0 = d2.refuses p st := by
  rw [narrowPacket, taken, ← Dev.answerAt_refusal asks]
  simp only [device, Bool.false_eq_true, if_false, run]

end

end

/-! ### The commands -/

section
variable {p : Packet} (o : Owner) (s : State)

theorem exec_rd (h : p.is .rd = true) : exec (.rd p o) s = s.onDev (readPacket p o) := s.onDevIf_pos _ h
theorem exec_wr (h : p.is .wr = true) : exec (.wr p o) s = s.onDev (writePacket p o) := s.onDevIf_pos _ h
theorem exec_wrn (h : p.is .wrn = true) : exec (.wrn p o) s = s.onDev (narrowPacket p o) := s.onDevIf_pos _ h
theorem exec_swr (h : p.is .swr = true) : exec (.swr p o) s = s.onDev (writePacket p o) := s.onDevIf_pos _ h

/-- WR and SWR have one meaning. -/
theorem exec_write (h : p.is .wr = true ∨ p.is .swr = true) :
    exec (if p.type = .wr then .wr p o else .swr p o) s = s.onDev (writePacket p o) := by
  rcases h with h | h
  · rw [if_pos (Packet.type_of_is h), exec_wr o s h]
  · rw [if_neg (by simp [Packet.type_of_is h]), exec_swr o s h]

end

/-- Settles O28: each kind of packet once it is taken, each met by a fence, and a run of clean words. -/
theorem memoryPackets : Obligations.MemoryPackets := by
  unfold Obligations.MemoryPackets
  intro s p o d e b f q fenced served refused
  have taken (h : served) : s.dev.take p = (d, true) := Dev.take_served h
  refine ⟨fun is h => ?_, fun is h => ?_, fun is h device => ?_, fun ⟨fresh, closed⟩ => ⟨fun is => ?_, fun is => ?_, fun is => ?_, fun is => ?_⟩,
    fun n h => ?_⟩
  · have asks : asksMemory p := .inl (Packet.type_of_is is)
    have gives {x : Dev} (h : readPacket p o s.dev = x) : Gives (.rd p o) s x := (gives_iff_of_exec (exec_rd o s is)).2 h
    refine ⟨fun host master => gives ?_, fun host master => gives ?_, fun device => ⟨fun d2 ws run => gives ?_, fun d2 ws st run => gives ?_⟩⟩
    · exact readPacket_toHost (taken h) host master
    · exact readPacket_noMaster (taken h) asks host master
    · exact readPacket_data (taken h) device run
    · exact readPacket_refused (taken h) device asks run
  · have write : p.type = .wr ∨ p.type = .swr := is.imp Packet.type_of_is Packet.type_of_is
    have gives {x : Dev} (h : writePacket p o s.dev = x) : Gives (if p.type = .wr then .wr p o else .swr p o) s x :=
      (gives_iff_of_exec (exec_write o s is)).2 h
    refine ⟨fun host master => gives ?_, fun host master => gives ?_, fun device => ⟨fun d2 run => gives ?_, fun d2 st run => gives ?_⟩⟩
    · exact writePacket_noMaster (taken h) write host master
    · exact writePacket_toHost (taken h) write host master
    · exact writePacket_stored (taken h) write device run
    · exact writePacket_refused (taken h) write device run
  · have asks : asksMemory p := .inr (.inr (.inl (Packet.type_of_is is)))
    have gives {x : Dev} (h : narrowPacket p o s.dev = x) : Gives (.wrn p o) s x := (gives_iff_of_exec (exec_wrn o s is)).2 h
    exact ⟨fun d2 run => ⟨_, rfl, gives (narrowPacket_stored (taken h) device run)⟩,
      fun d2 st run => gives (narrowPacket_refused (taken h) device asks run)⟩
  · have type := Packet.type_of_is is
    rw [gives_iff_of_exec (exec_rd o s is), readPacket, Dev.take_fenced_request (.inl type) (by simp [type]) fresh closed]
    rfl
  · have type := Packet.type_of_is is
    rw [gives_iff_of_exec (exec_wr o s is), writePacket, Dev.take_fenced_request (.inr (.inl type)) (by simp [type]) fresh closed]
    rfl
  · have type := Packet.type_of_is is
    rw [gives_iff_of_exec (exec_wrn o s is), narrowPacket, Dev.take_fenced_request (.inr (.inr (.inl type))) (by simp [type]) fresh closed]
    rfl
  · rw [gives_iff_of_exec (exec_swr o s is), writePacket, Dev.take_fenced_posted (Packet.type_of_is is) fresh closed]
    rfl
  · have clear (k : Nat) (hk : k < n) : d.clearRead q (b + 8 * k) := by
      obtain ⟨r, region, open_, free, serves, chip, clean⟩ := h k hk
      exact ⟨r, region, open_, free, serves, chip, clean⟩
    exact Dev.readRun_clear clear 0

end Sys2Proof.Machine
end

section
/-! SUPPORT. Jobs in flight (R67, R70): what a job reads as once one has been changed or has come to its end. -/

namespace Sys2Proof.Machine

theorem Dev.job_of_jfe {d e : Dev} (h : e.jfe = d.jfe) (id : Nat) : e.job id = d.job id := by rw [Dev.job, h, Dev.job]

/-- The number of a job found is the number looked for. -/
theorem Dev.id_of_job {d : Dev} {id : Nat} {j : Job} (h : d.job id = some j) : j.id = id := by
  simpa using List.find?_some h

theorem Dev.job_setJob (d : Dev) (j : Job) (id : Nat) :
    (d.setJob j).job id = (d.job id).map (fun x => if x.id == j.id then j else x) := by
  have same : ((fun x : Job => x.id == id) ∘ fun x => if x.id == j.id then j else x) = fun x => x.id == id := by
    funext x
    by_cases h : x.id = j.id <;> simp [h]
  simp only [Dev.job, Dev.setJob, Dev.setJobs, List.find?_map, same]

/-- A changed job is the one found under its number, if any was. -/
theorem Dev.job_setJob_self {d : Dev} {j x : Job} (h : d.job j.id = some x) : (d.setJob j).job j.id = some j := by
  simp [Dev.job_setJob, h, Dev.id_of_job h]

/-- Every other job is as it was. -/
theorem Dev.job_setJob_ne (d : Dev) {j : Job} {id : Nat} (h : id ≠ j.id) : (d.setJob j).job id = d.job id := by
  rw [Dev.job_setJob]
  cases found : d.job id with
  | none => rfl
  | some x => simp [Dev.id_of_job found, h]

/-! ### A job's end -/

theorem Dev.endedJob_of_time {d e : Dev} (h : e.time = d.time) (j : Job) (st r : Nat) : e.endedJob j st r = d.endedJob j st r := by
  rw [Dev.endedJob, Dev.now, h, Dev.endedJob, Dev.now]

/-- R67, R70: a job's end makes of it what `endedJob` says; a late one is marked on its rails besides. -/
theorem Dev.endJob_eq (d : Dev) (j : Job) (st r : Nat) :
    d.endJob j st r = d.setJob (d.endedJob j st r) ∨ d.endJob j st r = (d.markLate j).setJob (d.endedJob j st r) := by
  by_cases late : st = 0 ∧ j.noDeadline = false ∧ j.opcode ≠ 1 ∧ timeDiff j.deadline d.now < 0
  · have marks : (st == stOK && !j.noDeadline && j.opcode != 1 && decide (timeDiff j.deadline d.now < 0)) = true := by
      simpa [stOK, and_assoc] using late
    right
    rw [Dev.endJob, Dev.endedJob, if_pos late]
    simp only [marks, if_true]
    rfl
  · have inTime : (st == stOK && !j.noDeadline && j.opcode != 1 && decide (timeDiff j.deadline d.now < 0)) = false := by
      rw [Bool.eq_false_iff]
      simpa [stOK, and_assoc] using late
    left
    rw [Dev.endJob, Dev.endedJob, if_neg late]
    simp only [inTime, Bool.false_eq_true, if_false]

theorem Dev.job_endJob_self {d : Dev} {j x : Job} (h : d.job j.id = some x) (st r : Nat) :
    (d.endJob j st r).job j.id = some (d.endedJob j st r) := by
  rcases d.endJob_eq j st r with e | e
  · rw [e]
    exact Dev.job_setJob_self (j := d.endedJob j st r) h
  · rw [e]
    exact Dev.job_setJob_self (d := d.markLate j) (j := d.endedJob j st r) h

theorem Dev.job_endJob_ne (d : Dev) {j : Job} {id : Nat} (h : id ≠ j.id) (st r : Nat) : (d.endJob j st r).job id = d.job id := by
  rcases d.endJob_eq j st r with e | e
  · rw [e]
    exact d.job_setJob_ne (j := d.endedJob j st r) h
  · rw [e]
    exact (d.markLate j).job_setJob_ne (j := d.endedJob j st r) h

end Sys2Proof.Machine
end

section
/-! SUPPORT. Answers at their requester (R101, R118, R119, R328, R340): what stops waiting for them, the words they bring, and what becomes
of the job they belong to. -/

namespace Sys2Proof.Machine

/-! ### What waits for an answer (R328) -/

theorem dropSome_filter_length {α : Type} (f : α → Bool) (n : Nat) (xs : List α) :
    ((dropSome f n xs).filter f).length = (xs.filter f).length - n := by
  induction xs generalizing n with
  | nil => cases n <;> simp [dropSome]
  | cons x xs ih =>
    cases n with
    | zero => simp [dropSome]
    | succ n => cases h : f x <;> simp [dropSome, h, ih]

theorem dropSome_filter_not {α : Type} (f : α → Bool) (n : Nat) (xs : List α) :
    (dropSome f n xs).filter (fun x => !f x) = xs.filter (fun x => !f x) := by
  induction xs generalizing n with
  | nil => cases n <;> simp [dropSome]
  | cons x xs ih =>
    cases n with
    | zero => simp [dropSome]
    | succ n => cases h : f x <;> simp [dropSome, h, ih]

/-- Does a request, or a posted write, wait for an answer such as p? -/
def waitsFor (p : Packet) (posted : Bool) (x : Unanswered) : Bool := x.ep == p.dstEp.val && x.tag == p.tag.val && x.posted == posted

/-- From d to e the answer p is taken from its slot, and n of those that wait for it have stopped waiting. -/
def Dev.answerEnds (d e : Dev) (p : Packet) (posted : Bool) (n : Nat) : Prop :=
  (e.noc.waiting.filter (waitsFor p posted)).length = (d.noc.waiting.filter (waitsFor p posted)).length - n ∧
  e.noc.waiting.filter (fun x => !waitsFor p posted x) = d.noc.waiting.filter (fun x => !waitsFor p posted x) ∧
  e.noc.arrived = d.noc.arrived.erase p

/-- The device once an answer is taken and n of those that wait for it are ended. -/
def Dev.meets (d : Dev) (p : Packet) (posted : Bool) (n : Nat) : Dev := (d.takeAnswer p).answered p.dstEp.val p.tag.val posted n

theorem Dev.answerEnds_meets (d : Dev) (p : Packet) (posted : Bool) (n : Nat) : d.answerEnds (d.meets p posted n) p posted n :=
  ⟨dropSome_filter_length _ n _, dropSome_filter_not _ n _, rfl⟩

/-- What waits and what has arrived stand in the network's data alone. -/
theorem Dev.answerEnds.of_noc {d e f : Dev} {p : Packet} {posted : Bool} {n : Nat} (h : d.answerEnds e p posted n)
    (waiting : f.noc.waiting = e.noc.waiting) (arrived : f.noc.arrived = e.noc.arrived) : d.answerEnds f p posted n := by
  obtain ⟨ended, others, taken⟩ := h
  exact ⟨waiting ▸ ended, waiting ▸ others, arrived.trans taken⟩

/-! ### The words received (R118, R119) -/

theorem receivedWord_clean {w : BitVec 80} (h : classify w.toNat = .clean) : receivedWord w = (.word (dataOf w.toNat), none) := by
  rw [receivedWord, h]
theorem receivedWord_corrected {w : BitVec 80} {v : Word} (h : classify w.toNat = .corrected v) : receivedWord w = (.word v, none) := by
  rw [receivedWord, h]
theorem receivedWord_poison {w : BitVec 80} (h : classify w.toNat = .poison) : receivedWord w = (.poison, some false) := by
  rw [receivedWord, h]
theorem receivedWord_uncorrectable {w : BitVec 80} (h : classify w.toNat = .uncorrectable) : receivedWord w = (.poison, some true) := by
  rw [receivedWord, h]

/-- A place below the length of a list is found exactly where some element passes. -/
theorem find?_upFrom_isSome {α : Type} (xs : List α) (g : α → Bool) (dflt : α) :
    ((upFrom 0 xs.length).find? (fun k => g (xs.getD k dflt))).isSome = xs.any g := by
  rw [Bool.eq_iff_iff, List.find?_isSome, List.any_eq_true]
  constructor
  · rintro ⟨k, hk, pass⟩
    have lt : k < xs.length := by simpa using hk
    rw [List.getD_eq_getElem xs dflt lt] at pass
    exact ⟨_, List.getElem_mem lt, pass⟩
  · rintro ⟨x, hx, pass⟩
    obtain ⟨k, lt, rfl⟩ := List.getElem_of_mem hx
    exact ⟨k, by simpa using lt, by rwa [List.getD_eq_getElem xs dflt lt]⟩

/-! ### A job told of lost words (R101, R119) -/

/-- Is a job one of a data-mover channel that is executing? -/
def Job.moves (j : Job) : Prop := j.phase = .running ∧ 0xA0 ≤ j.opcode ∧ j.opcode < 0xB0

/-- A job whose read has brought lost words. -/
def Job.told (j : Job) (lost poison : Bool) : Job := { j with uncorr := j.uncorr || lost, poison := j.poison || poison }

section
variable {d : Dev} {j : Job} (found : d.job j.id = some j)
include found

theorem Dev.lostWords_goesOn {bad : Option Nat} (h : bad = none ∨ ¬j.moves) (addr : Nat) (poison : Bool) :
    d.lostWords j.id addr bad poison = d.setJob (j.told bad.isSome poison) := by
  rw [Dev.lostWords, found]
  rcases h with rfl | still
  · rfl
  · cases bad with
    | none => rfl
    | some k => exact if_neg still

theorem Dev.lostWords_halts (moves : j.moves) (addr k : Nat) (poison : Bool) :
    d.lostWords j.id addr (some k) poison = ((d.setJob (j.told true poison)).dmvHalt j (addr + 8 * k)).endJob j stUNCORR 0 := by
  rw [Dev.lostWords, found]
  exact if_pos moves

end

theorem Dev.dmvHalt_only (d : Dev) (j : Job) (addr : Nat) : OnlyRegs d (d.dmvHalt j addr) :=
  (((((((OnlyRegs.refl d).set _ _).trans (Dev.enterStopping_only _ _ _)).trans (Dev.fnAttend_only _ _)).set _ _).set _ _).set _ _).set _ _

theorem Dev.endJob_noc (d : Dev) (j : Job) (st r : Nat) : (d.endJob j st r).noc = d.noc := by
  obtain ⟨_, _, h⟩ := d.endJob_only j st r
  rw [h]

theorem Dev.endJob_regs (d : Dev) (j : Job) (st r : Nat) : (d.endJob j st r).regs = d.regs := by
  obtain ⟨_, _, h⟩ := d.endJob_only j st r
  rw [h]

theorem OnlyRegs.noc_eq {d e : Dev} (h : OnlyRegs d e) : e.noc = d.noc := by
  obtain ⟨_, _, rfl⟩ := h
  rfl

theorem OnlyRegs.jfe_eq {d e : Dev} (h : OnlyRegs d e) : e.jfe = d.jfe := by
  obtain ⟨_, _, rfl⟩ := h
  rfl

theorem OnlyRegs.time_eq {d e : Dev} (h : OnlyRegs d e) : e.time = d.time := by
  obtain ⟨_, _, rfl⟩ := h
  rfl

theorem Dev.lostWords_noc (d : Dev) (id addr : Nat) (bad : Option Nat) (poison : Bool) : (d.lostWords id addr bad poison).noc = d.noc := by
  cases found : d.job id with
  | none => rw [Dev.lostWords, found]
  | some j =>
    obtain rfl := Dev.id_of_job found
    by_cases moves : j.moves
    · cases bad with
      | none => rw [Dev.lostWords_goesOn found (.inl rfl)]; rfl
      | some k => rw [Dev.lostWords_halts found moves, Dev.endJob_noc, (Dev.dmvHalt_only _ j _).noc_eq]; rfl
    · rw [Dev.lostWords_goesOn found (.inr moves)]; rfl

theorem SameWord.set {o : Nat} {d e : Dev} (h : SameWord o d e) {f : Fld} (hf : f.off ≠ o) (v : Nat) : SameWord o d (e.set f v) :=
  h.trans (fun g hg => e.get_set_off f g v (hg ▸ Ne.symm hf))

theorem SameWord.attend {o : Nat} {d e : Dev} (h : SameWord o d e) {f : Fld} (hf : f.off ≠ o) (n : Nat) : SameWord o d (e.attend f n) :=
  (h.set hf 1).trans (fun g _ => Dev.get_relevel _ n g)

/-- A channel stops by draining, with FAULT 1. -/
def Dev.drains (d : Dev) (fn : Fn) : Dev := (d.set fn.fault 1).enterStopping fn false

theorem Dev.get_drains_state (d : Dev) (fn : Fn) : (d.drains fn).get fn.state = 2 := by
  rw [Dev.drains, Dev.enterStopping, Dev.get_set_spares _ _ (.inr (by simp [Fn.abort, Fn.state])), Dev.get_set_self _ _ _ (by simp [Fn.state])]
  rfl

theorem Dev.get_drains_fault (d : Dev) (fn : Fn) : (d.drains fn).get fn.fault = 1 := by
  rw [Dev.drains, Dev.enterStopping, Dev.get_set_spares _ _ (.inr (by simp [Fn.abort, Fn.fault])),
    Dev.get_set_spares _ _ (.inr (by simp [Fn.state, Fn.fault])), Dev.get_set_self _ _ _ (by simp [Fn.fault])]
  rfl

theorem Job.tag_lt (j : Job) : j.tag < 2 ^ 16 := bitsOf_lt _ _ _

/-- R101: a channel that halts stops by draining, with FAULT 1 and the tag of the job that met the word. -/
theorem Dev.dmvHalt_spec (d : Dev) {j : Job} (hu : j.unit < 64) (addr : Nat) :
    let fn := Fn.dmv (Fin.ofNat 64 j.unit)
    (d.dmvHalt j addr).stopping fn = true ∧ (d.dmvHalt j addr).get fn.fault = 1 ∧ (d.dmvHalt j addr).get (Reg.DMV_CH_HALT_TAG j.unit) = j.tag := by
  intro fn
  have ch : (Fin.ofNat 64 j.unit).val = j.unit := Nat.mod_eq_of_lt hu
  have ctl : fn.ctl.off = 0x1201000 + j.unit * 0x40 := by simp only [fn, Fn.ctl, Reg.DMV_CH_CTL, ch]
  have record : SameWord fn.ctl.off (d.drains fn) (d.dmvHalt j addr) := by
    have attn : (Reg.DMV_CH_ATTN_FAULT (Fin.ofNat 64 j.unit)).off ≠ fn.ctl.off := by simp only [ctl, Reg.DMV_CH_ATTN_FAULT, ch]; omega
    have lo : (Reg.DMV_CH_HALT_ADDR_LO j.unit).off ≠ fn.ctl.off := by simp only [ctl, Reg.DMV_CH_HALT_ADDR_LO]; omega
    have hi : (Reg.DMV_CH_HALT_ADDR_HI j.unit).off ≠ fn.ctl.off := by simp only [ctl, Reg.DMV_CH_HALT_ADDR_HI]; omega
    have tag : (Reg.DMV_CH_HALT_TAG j.unit).off ≠ fn.ctl.off := by simp only [ctl, Reg.DMV_CH_HALT_TAG]; omega
    have sq : (Reg.DMV_CH_HALT_SQ j.unit).off ≠ fn.ctl.off := by simp only [ctl, Reg.DMV_CH_HALT_SQ]; omega
    exact (((((SameWord.refl _ (d.drains fn)).attend attn _).set lo _).set hi _).set tag _).set sq _
  refine ⟨?_, ?_, ?_⟩
  · rw [Dev.stopping, record fn.state rfl, d.get_drains_state fn]
    rfl
  · rw [record fn.fault rfl, d.get_drains_fault fn]
  · unfold Dev.dmvHalt
    rw [Dev.get_set_spares _ _ (.inr (by simp [Reg.DMV_CH_HALT_SQ, Reg.DMV_CH_HALT_TAG])),
      Dev.get_set_self _ _ _ (by simp [Reg.DMV_CH_HALT_TAG])]
    exact Nat.mod_eq_of_lt j.tag_lt

/-- R101: a word that nothing can correct halts the channel of the job that reads it, and ends the job. -/
theorem Dev.lostWords_spec {d : Dev} {j : Job} (found : d.job j.id = some j) (moves : j.moves) (hu : j.unit < 64) (addr k : Nat) (poison : Bool) :
    let fn := Fn.dmv (Fin.ofNat 64 j.unit)
    let e := d.lostWords j.id addr (some k) poison
    e.stopping fn = true ∧ e.get fn.fault = 1 ∧ e.get (Reg.DMV_CH_HALT_TAG j.unit) = j.tag ∧ e.job j.id = some (d.endedJob j stUNCORR 0) := by
  intro fn e
  have told : (d.setJob (j.told true poison)).job j.id = some (j.told true poison) := Dev.job_setJob_self (j := j.told true poison) found
  have only := (d.setJob (j.told true poison)).dmvHalt_only j (addr + 8 * k)
  have halted := (d.setJob (j.told true poison)).dmvHalt_spec hu (addr + 8 * k)
  have ended : e = ((d.setJob (j.told true poison)).dmvHalt j (addr + 8 * k)).endJob j stUNCORR 0 := Dev.lostWords_halts found moves addr k poison
  have regs := Dev.endJob_regs ((d.setJob (j.told true poison)).dmvHalt j (addr + 8 * k)) j stUNCORR 0
  rw [ended, Dev.stopping, Dev.get_of_regs regs, Dev.get_of_regs regs, Dev.get_of_regs regs,
    Dev.job_endJob_self ((Dev.job_of_jfe only.jfe_eq _).trans told)]
  obtain ⟨stops, fault, tag⟩ := halted
  exact ⟨stops, fault, tag, congrArg some (Dev.endedJob_of_time only.time_eq _ _ _)⟩

/-! ### A status that reaches a job (R340) -/

theorem Dev.jobAnswer_only (d : Dev) (id st : Nat) : ∃ js, d.jobAnswer id st = { d with jfe := { d.jfe with jobs := js } } := by
  unfold Dev.jobAnswer
  split
  · exact ⟨_, rfl⟩
  · split
    · exact ⟨_, rfl⟩
    · split
      · exact ⟨_, rfl⟩
      · split <;> exact ⟨_, rfl⟩

theorem Dev.job_jobAnswer {d : Dev} {j : Job} (found : d.job j.id = some j) (ended : j.phase ≠ .ended) (taken : j.phase ≠ .taken) (st : Nat) :
    (d.jobAnswer j.id st).job j.id =
      some (if st = stUNCORR then { j with uncorr := true } else { j with verdict := some (j.verdict.getD st) }) := by
  have isOpen : j.open_ = true := by
    unfold Job.open_
    split <;> simp_all
  simp only [Dev.jobAnswer, found, isOpen, Bool.not_true, Bool.false_eq_true, if_false]
  by_cases lost : st = stUNCORR
  · simp only [lost, if_true]
    exact Dev.job_setJob_self (j := { j with uncorr := true }) found
  · simp only [lost, if_false]
    cases hv : j.verdict with
    | none => exact Dev.job_setJob_self (j := { j with verdict := some st }) found
    | some v =>
      rw [found]
      exact congrArg some (by rw [Option.getD_some, ← hv])

/-! ### RDATA -/

/-- The place of the first word of an answer that nothing can correct. -/
def firstLost (p : Packet) : Option Nat :=
  (upFrom 0 (p.words.map receivedWord).length).find? (fun k => ((p.words.map receivedWord).map Prod.snd).getD k none == some true)

/-- Does an answer bring a word marked so? -/
def brings (p : Packet) (mark : Bool) : Bool := p.words.any (fun w => (receivedWord w).2 == some mark)

theorem firstLost_isSome (p : Packet) : (firstLost p).isSome = brings p true := by
  have found := find?_upFrom_isSome ((p.words.map receivedWord).map Prod.snd) (· == some true) none
  rw [List.length_map] at found
  rw [firstLost, found, brings, List.any_map, List.any_map]
  rfl

/-- The requester once the words of an answer are delivered. -/
def Dev.delivers (d : Dev) (p : Packet) : Dev :=
  (d.meets p false 1).onNoc (fun n =>
    { n with delivered := update (fun _ => []) n.delivered (1024 * p.dstEp.val + p.tag.val) (p.words.map (fun w => (receivedWord w).1)) })

theorem Dev.answerEnds_delivers (d : Dev) (p : Packet) : d.answerEnds (d.delivers p) p false 1 := (d.answerEnds_meets p false 1).of_noc rfl rfl

theorem readData_noJob {o : Owner} (h : o.job = none) (p : Packet) (d : Dev) : readData p o d = d.delivers p := by
  simp only [readData, h, List.map_map]
  rfl

theorem readData_job {o : Owner} {id : Nat} (h : o.job = some id) (p : Packet) (d : Dev) :
    readData p o d = (d.delivers p).lostWords id (d.requestAddr p.dstEp.val p.tag.val) (firstLost p) (brings p false) := by
  have poison : ((p.words.map receivedWord).map Prod.snd).any (· == some false) = brings p false := by
    rw [brings, List.any_map, List.any_map]
    rfl
  simp only [readData, h, poison]
  rw [List.map_map]
  rfl

theorem readData_noc (p : Packet) (o : Owner) (d : Dev) : (readData p o d).noc = (d.delivers p).noc := by
  cases h : o.job with
  | none => rw [readData_noJob h]
  | some id => rw [readData_job h, Dev.lostWords_noc]

/-! ### ERR and NOTICE -/

theorem refusedAnswer_noJob {o : Owner} (h : o.job = none) (p : Packet) (d : Dev) : refusedAnswer p o d = d.meets p (p.type == .notice) 1 := by
  rw [refusedAnswer, h]
  rfl

theorem refusedAnswer_job {o : Owner} {id : Nat} (h : o.job = some id) (p : Packet) (d : Dev) :
    refusedAnswer p o d = (d.meets p (p.type == .notice) 1).jobAnswer id (statusOf p) := by
  rw [refusedAnswer, h]
  rfl

theorem refusedAnswer_frame (p : Packet) (o : Owner) (d : Dev) :
    (refusedAnswer p o d).noc = (d.meets p (p.type == .notice) 1).noc ∧ (refusedAnswer p o d).mem = d.mem := by
  cases h : o.job with
  | none =>
    rw [refusedAnswer_noJob h]
    exact ⟨rfl, rfl⟩
  | some id =>
    obtain ⟨_, only⟩ := (d.meets p (p.type == .notice) 1).jobAnswer_only id (statusOf p)
    rw [refusedAnswer_job h, only]
    exact ⟨rfl, rfl⟩

/-! ### The commands -/

section
variable {p : Packet} (o : Owner) (s : State)

theorem exec_wack (h : p.is .wack = true) : exec (.wack p o) s = s.onDev (fun d => d.meets p false 1) := s.onDevIf_pos _ h
theorem exec_sack (h : p.is .sack = true) : exec (.sack p o) s = s.onDev (fun d => d.meets p true (p.value.toNat % 16 + 1)) :=
  s.onDevIf_pos _ h
theorem exec_rdata (h : p.is .rdata = true) : exec (.rdata p o) s = s.onDev (readData p o) := s.onDevIf_pos _ h
theorem exec_refusal {c : Instr} (h : (p.is .err = true ∧ c = .errPacket p o) ∨ (p.is .notice = true ∧ c = .noticePacket p o)) :
    exec c s = s.onDev (refusedAnswer p o) := by
  rcases h with ⟨is, rfl⟩ | ⟨is, rfl⟩ <;> exact s.onDevIf_pos _ is

end

theorem exec_powerPacket (slot : Fin 96) (v : BitVec 56) (s : State) : exec (.powerPacket slot v) s = s.onDev (powerMessage slot.val v) := rfl

/-- Settles O29: what each answer ends, the words RDATA brings, and what becomes of the job an answer belongs to. -/
theorem answersArrive : Obligations.AnswersArrive := by
  unfold Obligations.AnswersArrive
  intro s p o d t waits ends
  refine ⟨fun is => ?_, fun is => ?_, fun is => ⟨fun w => ⟨receivedWord_clean, fun v => receivedWord_corrected, receivedWord_poison,
    receivedWord_uncorrectable⟩, ?_, fun j owner found => ⟨fun still => ?_, fun lo hi unit running lost => ?_⟩⟩, fun c is => ⟨?_, ?_⟩,
    fun slot v => ?_⟩
  · exact (completes_iff_of_exec (exec_wack o s is)).2 ⟨d.answerEnds_meets p false 1, rfl, rfl, rfl⟩
  · exact (completes_iff_of_exec (exec_sack o s is)).2 ⟨d.answerEnds_meets p true _, rfl, rfl⟩
  · rw [completes_iff_of_exec (exec_rdata o s is)]
    have noc := readData_noc p o d
    refine ⟨(d.answerEnds_delivers p).of_noc (congrArg NocState.waiting noc) (congrArg NocState.arrived noc), ?_⟩
    rw [noc]
    exact lookup_update_self _ _ _ _
  · rw [completes_iff_of_exec (exec_rdata o s is), readData_job owner,
      Dev.lostWords_goesOn (d := d.delivers p) found (.inr fun moves => still ⟨moves.2.1, moves.2.2⟩), firstLost_isSome]
    exact Dev.job_setJob_self (d := d.delivers p) (j := j.told (brings p true) (brings p false)) found
  · rw [completes_iff_of_exec (exec_rdata o s is), readData_job owner]
    obtain ⟨k, first⟩ := Option.isSome_iff_exists.1 ((firstLost_isSome p).trans lost)
    rw [first]
    exact Dev.lostWords_spec (d := d.delivers p) found ⟨running, lo, hi⟩ unit _ k _
  · rw [completes_iff_of_exec (exec_refusal o s is)]
    obtain ⟨noc, mem⟩ := refusedAnswer_frame p o d
    exact ⟨(d.answerEnds_meets p _ 1).of_noc (congrArg NocState.waiting noc) (congrArg NocState.arrived noc), mem⟩
  · intro j owner found ended taken
    rw [completes_iff_of_exec (exec_refusal o s is), refusedAnswer_job owner]
    exact Dev.job_jobAnswer (d := d.meets p _ 1) found ended taken _
  · rw [completes_iff_of_exec (exec_powerPacket slot v s)]
    exact ⟨lookup_update_self _ _ _ _, fun k hk => lookup_update_ne _ _ _ (fun h => hk (Fin.ext h))⟩

end Sys2Proof.Machine
end

section
/-! SUPPORT. A job's accesses to memory (R85–R88, R96, R107, R118, R340): what each of them can do, in the order of the definitions. -/

namespace Sys2Proof.Machine

theorem Dev.countWrite_only (d : Dev) (g : Nat × Nat) (mask : Nat) : OnlyRegs d (d.countWrite g mask) :=
  (d.bump_only _).trans (Dev.set_only _ _ _)

theorem Dev.send_only (d : Dev) (o : Out) : OnlyIo d (d.send o) := ⟨d.out ++ [o], .refl _⟩

theorem Io.endWrite_only (s : Io) : OnlyRegs s.dev s.endWrite.dev := by
  unfold Io.endWrite
  split
  · exact .refl _
  · exact s.dev.countWrite_only _ _

theorem Io.done_only (s : Io) : OnlyRegs s.dev s.done := s.endWrite_only

theorem Io.noteWrite_only (s : Io) (w : Nat) : OnlyRegs s.dev (s.noteWrite w).dev := by
  unfold Io.noteWrite
  split
  · exact .refl _
  · dsimp only
    split
    · split
      · exact .refl _
      · exact s.endWrite_only
    · exact .refl _

theorem Io.took_only {d : Dev} {s : Io} {r : Dev × Ack} (h : OnlyIo d r.1) : OnlyIo d (s.took r).1.dev := by
  unfold Io.took
  split
  · exact h
  · split
    · exact h
    · rw [Io.halt_dev]
      exact h

theorem Io.writeRemote_dev (s : Io) (q : Req) : (s.writeRemote q).1.dev = s.dev := by
  have answered := s.nextExt_dev
  unfold Io.writeRemote
  split
  · exact s.halt_dev _
  · generalize s.nextExt = x at answered ⊢
    obtain ⟨s', e⟩ := x
    dsimp only
    split
    · split
      · exact answered
      · exact (s'.halt_dev _).trans answered
    · exact answered

/-- What a job's write of a word can do. -/
theorem Io.write_only (s : Io) (q : Req) (a : Nat) (v : Word) (poison : Bool) : OnlyIo s.dev (s.write q a v poison).1.dev := by
  unfold Io.write
  split
  · exact .refl _
  · split
    · rw [Io.halt_dev]
      exact .refl _
    · next b _ =>
      have noted := (s.noteWrite_only (b / 8)).mem
      apply Io.took_only
      split
      · exact (noted.trans (Dev.writeRaw_only _ _ _ _)).io
      · exact (noted.trans (Dev.writeRaw_only _ _ _ _)).io
    · split
      · exact s.dev.send_only _
      · exact .refl _
    · rw [Io.writeRemote_dev]
      exact .refl _

/-- A loop of accesses. -/
theorem OnlyIo.foldl {α β : Type} {d : Dev} {dev : β → Dev} {f : β → α → β} (h : ∀ b a, OnlyIo (dev b) (dev (f b a))) (xs : List α) {b : β}
    (hb : OnlyIo d (dev b)) : OnlyIo d (dev (xs.foldl f b)) :=
  List.foldlRecOn (motive := fun b => OnlyIo d (dev b)) xs f hb (fun b hb a _ => hb.trans (h b a))

/-- What a job's read of bytes can do. -/
theorem Io.readBytes_only (s : Io) (q : Req) (a n : Nat) : OnlyIo s.dev (s.readBytes q a n).1.dev := by
  unfold Io.readBytes
  split
  · exact OnlyIo.foldl (dev := fun b : Io × List Byte × Bool => b.1.dev) (fun b _ => b.1.read_only q _) _ (.refl s.dev)
  · exact OnlyIo.foldl (dev := fun b : Io × List Byte × Bool => b.1.dev) (fun b _ => b.1.read_only q _) _ (.refl s.dev)

/-- What a job's read of words can do. -/
theorem Io.readWords_only (s : Io) (q : Req) (a n : Nat) : OnlyIo s.dev (s.readWords q a n).1.dev :=
  OnlyIo.foldl (dev := fun b : Io × List Word × Bool => b.1.dev) (fun b _ => b.1.read_only q _) _ (.refl s.dev)

/-- What one word's share of a run of bytes can do. -/
theorem Io.writeShare_only (s : Io) (q : Req) (w lo : Nat) (bs : List Byte) (poison : Bool) :
    OnlyIo s.dev (s.writeShare q w lo bs poison).1.dev := by
  unfold Io.writeShare
  split
  · exact .refl _
  · split
    · exact s.write_only _ _ _ _
    · split
      · rw [Io.halt_dev]
        exact .refl _
      · next b _ =>
        have noted := (s.noteWrite_only (b / 8)).mem
        dsimp only
        split
        · exact Io.took_only (noted.trans (Dev.writeRaw_only _ _ _ _)).io
        · exact Io.took_only (noted.trans (Dev.writeNarrow_only _ _ _ _ _ _)).io
      · exact .refl _
      · rw [Io.writeRemote_dev]
        exact .refl _

/-- What a job's write of bytes can do. -/
theorem Io.writeBytes_only (s : Io) (q : Req) (a : Nat) (bs : List Byte) (poison : Bool) : OnlyIo s.dev (s.writeBytes q a bs poison).1.dev := by
  unfold Io.writeBytes
  split
  · exact .refl _
  · split
    · split
      · exact s.dev.send_only _
      · exact .refl _
    · exact OnlyIo.foldl (dev := fun b : Io × Bool × Nat => b.1.dev) (fun b x => b.1.writeShare_only q _ _ _ _) _ (.refl s.dev)

/-- What the write of packed bytes can do. -/
theorem Io.writePacked_only (s : Io) (q : Req) (a : Nat) (bs : List (Byte × Bool)) : OnlyIo s.dev (s.writePacked q a bs).1.dev := by
  unfold Io.writePacked
  split
  · exact s.writeBytes_only _ _ _ _
  · exact OnlyIo.foldl (dev := fun b : Io × Nat × Nat => b.1.dev) (fun b x => b.1.writeShare_only q _ _ _ _) _ (.refl s.dev)

end Sys2Proof.Machine
end

section
/-! SUPPORT. The data movers' jobs (R99–R108, R121): what their runs can do, and how they end. -/

namespace Sys2Proof.Machine

theorem DmvRun.copyWord_only (q : Req) (r : DmvRun) (src dst : Nat) : OnlyIo r.io.dev (r.copyWord q src dst).io.dev := by
  have read := r.io.read_only q src
  unfold DmvRun.copyWord
  split
  · exact .refl _
  · generalize r.io.read q src = x at read ⊢
    obtain ⟨io, v, lost⟩ := x
    dsimp only
    split
    · exact read
    · exact read.trans (io.write_only _ _ _ _)

theorem DmvRun.fillWord_only (q : Req) (v : Word) (r : DmvRun) (dst : Nat) : OnlyIo r.io.dev (r.fillWord q v dst).io.dev := by
  unfold DmvRun.fillWord
  split
  · exact .refl _
  · exact r.io.write_only _ _ _ _

theorem DmvRun.expandUnit_only (q : Req) (format width : Nat) (r : DmvRun) (src dst : Nat) :
    OnlyIo r.io.dev (r.expandUnit q format width src dst).io.dev := by
  have read := r.io.readBytes_only q src (dmvPackedBytes format width)
  unfold DmvRun.expandUnit
  split
  · exact .refl _
  · generalize r.io.readBytes q src (dmvPackedBytes format width) = x at read ⊢
    obtain ⟨io, bs, lost⟩ := x
    dsimp only
    split
    · exact read
    · exact read.trans (OnlyIo.foldl (dev := fun b : Io × Bool × Nat => b.1.dev) (fun b v => b.1.write_only q _ _ _) _ (.refl io.dev))

theorem DmvRun.packUnit_only (q : Req) (format width : Nat) (r : DmvRun) (src : Nat) :
    OnlyIo r.io.dev (r.packUnit q format width src).1.io.dev := by
  have read := r.io.readWords_only q src (dmvUnitWords format)
  unfold DmvRun.packUnit
  split
  · exact .refl _
  · generalize r.io.readWords q src (dmvUnitWords format) = x at read ⊢
    obtain ⟨io, ws, lost⟩ := x
    dsimp only
    split
    · exact read
    · split <;> exact read

theorem DmvRun.packRow_only (q : Req) (format width count : Nat) (r : DmvRun) (src dst : Nat) :
    OnlyIo r.io.dev (r.packRow q format width count src dst).io.dev := by
  unfold DmvRun.packRow
  split
  · exact .refl _
  · refine OnlyIo.trans ?_ (Io.writePacked_only _ _ _ _)
    exact OnlyIo.foldl (dev := fun b : DmvRun × List (Byte × Bool) × Nat => b.1.io.dev) (fun b _ => b.1.packUnit_only q _ _ _) _ (.refl _)

/-! ### The end of a run -/

/-- From d to e all has stayed that a job's command leaves alone, the jobs in flight among it. -/
structure SameWork (d e : Dev) : Prop where
  jfe : e.jfe = d.jfe
  cores : e.cores = d.cores
  tsu : e.tsu = d.tsu
  noc : e.noc = d.noc
  links : e.links = d.links
  power : e.power = d.power
  time : e.time = d.time
  boot : e.boot = d.boot

theorem SameWork.trans {d e f : Dev} (h : SameWork d e) (g : SameWork e f) : SameWork d f :=
  ⟨g.jfe.trans h.jfe, g.cores.trans h.cores, g.tsu.trans h.tsu, g.noc.trans h.noc, g.links.trans h.links, g.power.trans h.power,
    g.time.trans h.time, g.boot.trans h.boot⟩

theorem OnlyIo.work {d e : Dev} (h : OnlyIo d e) : SameWork d e := by
  obtain ⟨_, _, _, _, _, rfl, _⟩ := h
  exact ⟨rfl, rfl, rfl, rfl, rfl, rfl, rfl, rfl⟩

theorem OnlyRegs.work {d e : Dev} (h : OnlyRegs d e) : SameWork d e := h.mem.io.work

theorem SameWork.job_endJob {d e : Dev} (h : SameWork d e) {j : Job} (found : d.job j.id = some j) (st r : Nat) :
    (e.endJob j st r).job j.id = some (d.endedJob j st r) := by
  rw [Dev.job_endJob_self ((Dev.job_of_jfe h.jfe _).trans found), Dev.endedJob_of_time h.time]

/-- A job that ends on a device where nothing else has moved. -/
theorem SameWork.jobEnds {d e : Dev} (h : SameWork d e) {j : Job} (found : d.job j.id = some j) (st r : Nat) : d.jobEnds j (e.endJob j st r) := by
  have others (x : Nat) (hx : x ≠ j.id) : (e.endJob j st r).job x = d.job x := (e.job_endJob_ne hx st r).trans (Dev.job_of_jfe h.jfe x)
  refine ⟨⟨st, r, h.job_endJob found st r⟩, others, ?_⟩
  obtain ⟨_, _, only⟩ := e.endJob_only j st r
  rw [only]
  exact ⟨h.cores, h.tsu, h.noc, h.links, h.power, h.time, h.boot⟩

/-- R101, R108, R121: the end of a run changes registers, and ends the job with the status of its accesses. -/
theorem Dev.dmvEnd_eq (r : DmvRun) (j : Job) (frameLen own : Nat) :
    ∃ e, OnlyRegs r.io.dev e ∧ Dev.dmvEnd r j frameLen own =
      e.endJob j (r.io.status own) (dmvResult r.units r.poisoned (if r.expMin = 16 then 0 else r.expMin) r.expMax frameLen) := by
  have counted : OnlyRegs r.io.dev ((r.io.done.add (Reg.DMV_CH_WORDS j.unit) r.words).bump (Reg.DMV_CH_JOBS j.unit)) :=
    (r.io.done_only.trans (Dev.set_only _ _ _)).bump _
  unfold Dev.dmvEnd
  refine ⟨_, ?_, rfl⟩
  apply OnlyRegs.ite
  · refine OnlyRegs.trans ?_ (Dev.attend_only _ _ _)
    split
    · exact counted.trans (Dev.dmvHalt_only _ _ _)
    · exact counted
  · split
    · exact counted.trans (Dev.dmvHalt_only _ _ _)
    · exact counted

theorem Dev.jobEnds_dmvEnd {d : Dev} {j : Job} (found : d.job j.id = some j) {r : DmvRun} (h : SameWork d r.io.dev) (frameLen own : Nat) :
    d.jobEnds j (Dev.dmvEnd r j frameLen own) := by
  obtain ⟨e, only, eq⟩ := Dev.dmvEnd_eq r j frameLen own
  rw [eq]
  exact (h.trans only.work).jobEnds found _ _

/-- The status and RESULT with which a run ends its job. -/
theorem Dev.job_dmvEnd {d : Dev} {j : Job} (found : d.job j.id = some j) {r : DmvRun} (h : SameWork d r.io.dev) (frameLen own : Nat) :
    (Dev.dmvEnd r j frameLen own).job j.id = some (d.endedJob j (r.io.status own)
      (dmvResult r.units r.poisoned (if r.expMin = 16 then 0 else r.expMin) r.expMax frameLen)) := by
  obtain ⟨e, only, eq⟩ := Dev.dmvEnd_eq r j frameLen own
  rw [eq]
  exact (h.trans only.work).job_endJob found _ _

/-- A run with no poisoned unit, no exponent and no frame gives its units as the RESULT. -/
theorem Dev.job_dmvEnd_units {d : Dev} {j : Job} (found : d.job j.id = some j) {r : DmvRun} (h : SameWork d r.io.dev) (poisoned : r.poisoned = 0)
    (expMin : r.expMin = 16) (expMax : r.expMax = 0) (own : Nat) :
    (Dev.dmvEnd r j 0 own).job j.id = some (d.endedJob j (r.io.status own) r.units) := by
  have result : dmvResult r.units 0 0 0 0 = r.units := by simp [dmvResult]
  rw [Dev.job_dmvEnd found h, poisoned, expMin, expMax, if_pos rfl, result]

/-- The end of a run writes no memory, sends nothing and queues no frame. -/
theorem Dev.dmvEnd_frame (r : DmvRun) (j : Job) (frameLen own : Nat) :
    (Dev.dmvEnd r j frameLen own).mem = r.io.dev.mem ∧ (Dev.dmvEnd r j frameLen own).out = r.io.dev.out ∧
      (Dev.dmvEnd r j frameLen own).eth = r.io.dev.eth := by
  obtain ⟨e, ⟨_, _, rfl⟩, eq⟩ := Dev.dmvEnd_eq r j frameLen own
  obtain ⟨_, _, only⟩ := Dev.endJob_only _ j (r.io.status own) (dmvResult r.units r.poisoned (if r.expMin = 16 then 0 else r.expMin) r.expMax frameLen)
  rw [eq, only]
  exact ⟨rfl, rfl, rfl⟩

theorem Io.status_halt {s : Io} (goes : s.stop = none) (st own : Nat) : (s.halt st).status own = st := by
  simp [Io.halt, Io.status, goes]

theorem Io.status_start {j : Job} (h : j.untouched) (d : Dev) (ext : List Ext) (own : Nat) : (Io.start d j ext).status own = own := by
  obtain ⟨verdict, uncorr, poison⟩ := h
  simp [Io.status, Io.start, verdict, uncorr, poison]

end Sys2Proof.Machine
end

section
/-! SUPPORT. What the data movers do (R100–R108): the job a channel begins, runs of whole jobs, one word stored, and frames. -/

namespace Sys2Proof.Machine

/-! ### A channel's next job (R100) -/

theorem firstInQueue_eq_none {js : List Job} : firstInQueue js = none ↔ js = [] := by
  cases js with
  | nil => simp [firstInQueue]
  | cons j js =>
    rw [firstInQueue]
    split <;> simp

/-- The job found is one of the queue, and none has waited longer. -/
theorem firstInQueue_least {js : List Job} {k : Job} (h : firstInQueue js = some k) : k ∈ js ∧ ∀ x ∈ js, k.seq ≤ x.seq := by
  induction js generalizing k with
  | nil => simp [firstInQueue] at h
  | cons j js ih =>
    rw [firstInQueue] at h
    cases rest : firstInQueue js with
    | none =>
      obtain rfl := firstInQueue_eq_none.1 rest
      obtain rfl : j = k := by simpa [rest] using h
      simp
    | some l =>
      obtain ⟨mem, least⟩ := ih rest
      simp only [rest, Option.some.injEq] at h
      split at h
      · next lt =>
        subst h
        exact ⟨.tail _ mem, List.forall_mem_cons.2 ⟨lt.le, least⟩⟩
      · next ge =>
        subst h
        exact ⟨.head _, List.forall_mem_cons.2 ⟨le_rfl, fun x hx => (Nat.le_of_not_lt ge).trans (least x hx)⟩⟩

theorem dmvJobStart_begins {d : Dev} {ch : Fin 64} {j : Job} (serves : d.running (.dmv ch) = true ∨ d.stopping (.dmv ch) = true)
    (goes : d.dmvHalted ch = false) (powered : d.domainOn 18 = true) (idle : d.atUnit 0xA0 0xB0 ch .running = [])
    (next : firstInQueue (d.atUnit 0xA0 0xB0 ch .queued) = some j) : dmvJobStart ch d = d.setJob { j with phase := .running } := by
  have may : (d.running (.dmv ch) || d.stopping (.dmv ch)) = true := Bool.or_eq_true_iff.2 serves
  simp [dmvJobStart, may, goes, powered, idle, next]

theorem dmvJobStart_waits {d : Dev} {ch : Fin 64}
    (h : d.dmvHalted ch = true ∨ d.domainOn 18 = false ∨ d.atUnit 0xA0 0xB0 ch .running ≠ []) : dmvJobStart ch d = d := by
  rw [dmvJobStart, if_neg]
  rcases h with h | h | h <;> simp [h]

/-! ### Whole jobs -/

/-- A job that runs is the one its opcode's command works on. -/
theorem Dev.executing_running {d : Dev} {j : Job} (found : d.job j.id = some j) (running : j.phase = .running) {op : Nat} (hop : j.opcode = op) :
    d.executing j.id op = some j := by
  simp [Dev.executing, found, running, hop]

/-- A loop over the rows of a job. -/
theorem DmvRun.rows_only {f : DmvRun → Nat → DmvRun} (h : ∀ r i, OnlyIo r.io.dev (f r i).io.dev) (r : DmvRun) (n : Nat) :
    OnlyIo r.io.dev (r.rows n f).io.dev :=
  OnlyIo.foldl (dev := fun r : DmvRun => r.io.dev) h _ (.refl _)

/-- A loop over the units of a row. -/
theorem DmvRun.units_only {f : DmvRun → Nat → DmvRun} (h : ∀ r k, OnlyIo r.io.dev (f r k).io.dev) (r : DmvRun) (n : Nat) :
    OnlyIo r.io.dev ((upFrom 0 n).foldl f r).io.dev :=
  OnlyIo.foldl (dev := fun r : DmvRun => r.io.dev) h _ (.refl _)

section
variable {d : Dev} {j : Job} (found : d.job j.id = some j) (running : j.phase = .running) (ext : List Ext)
include found running

theorem dmvCopy_jobEnds (hop : j.opcode = 0xA0) : d.jobEnds j (dmvCopy j.id ext d) := by
  rw [dmvCopy, Dev.executing_running found running hop]
  exact Dev.jobEnds_dmvEnd found
    (DmvRun.rows_only (fun r _ => r.units_only (fun r _ => r.copyWord_only _ _ _) _) (DmvRun.start d j ext) _).work _ _

theorem dmvFill_jobEnds (hop : j.opcode = 0xA2) : d.jobEnds j (dmvFill j.id ext d) := by
  rw [dmvFill, Dev.executing_running found running hop]
  exact Dev.jobEnds_dmvEnd found
    (DmvRun.rows_only (fun r _ => r.units_only (fun r _ => r.fillWord_only _ _ _) _) (DmvRun.start d j ext) _).work _ _

theorem dmvConvert_jobEnds (hop : j.opcode = 0xA1) : d.jobEnds j (dmvConvert j.id ext d) := by
  rw [dmvConvert, Dev.executing_running found running hop]
  refine Dev.jobEnds_dmvEnd found (DmvRun.rows_only (fun r i => ?_) (DmvRun.start d j ext) _).work _ _
  dsimp only
  split
  · exact r.packRow_only _ _ _ _ _ _
  · exact r.units_only (fun r _ => r.expandUnit_only _ _ _ _ _) _

end

/-! ### One word -/

theorem regionOf_eq_hbm_iff {b s : Nat} : regionOf b = some (.hbm s) ↔ s < 2 ∧ hbmBase s ≤ b ∧ b < hbmBase s + 0x4CCCCCC00 := by
  constructor
  · intro h
    unfold regionOf at h
    split_ifs at h with _ _ _ _ _ _ _ inFirst inSecond
    all_goals simp only [Option.some.injEq, Region.hbm.injEq, reduceCtorEq] at h
    · exact h ▸ ⟨by decide, inFirst⟩
    · exact h ▸ ⟨by decide, inSecond⟩
  · rintro ⟨hs, lo, hi⟩
    unfold hbmBase at lo hi
    rw [regionOf, if_neg (by omega), if_neg (by omega), if_neg (by omega), if_neg (by omega), if_neg (by omega), if_neg (by omega),
      if_neg (by omega)]
    obtain rfl | rfl : s = 0 ∨ s = 1 := by omega
    · rw [if_pos ⟨lo, hi⟩]
    · unfold hbmBase
      rw [if_neg (by omega), if_pos ⟨lo, hi⟩]

/-- A word of on-chip memory is of no group of HBM. -/
theorem hbmGroup_onChip {b : Nat} {r : Region} (region : regionOf b = some r) (onChip : ∀ i, r ≠ .hbm i) : hbmGroup (b / 8) = none := by
  unfold hbmGroup
  split
  · next s h =>
    have hbm : regionOf b = some (.hbm s) := by
      rw [regionOf_eq_hbm_iff] at h ⊢
      unfold hbmBase at h ⊢
      omega
    exact absurd (Option.some.inj (region.symm.trans hbm)) (onChip s)
  · rfl

/-- A job's read of a clean word of on-chip memory. -/
theorem Io.read_clear {s : Io} {q : Req} {a b : Nat} (goes : s.stop = none) (ht : s.dev.target a = .mem b) (clear : s.dev.clearRead q b) :
    s.read q a = (s, dataOf (s.dev.raw (b / 8)), false) := by
  have read := Dev.readWord_clear clear
  obtain ⟨r, region, _, _, _, onChip, _⟩ := clear
  have note : s.noteRead (b / 8) = s := by simp [Io.noteRead, hbmGroup_onChip region onChip]
  rw [Io.read, if_neg (by simp [goes]), ht]
  simp only [note, read]

theorem Io.noteWrite_fresh {s : Io} (fresh : s.writing = none) (w : Nat) : ∃ x, s.noteWrite w = { s with writing := x } := by
  unfold Io.noteWrite
  split
  · exact ⟨s.writing, rfl⟩
  · rw [fresh]
    exact ⟨_, rfl⟩

theorem Io.took_accepted {r : Dev × Ack} (h : r.2 = none) (s : Io) : s.took r = ({ s with dev := r.1 }, true) := by
  obtain ⟨d, _⟩ := r
  subst h
  rfl

/-- A job's write of a word that memory accepts. -/
theorem Io.write_accepted {s : Io} {q : Req} {a b : Nat} (goes : s.stop = none) (fresh : s.writing = none) (ht : s.dev.target a = .mem b)
    (ok : s.dev.accepts q b) (v : Word) : ∃ x, s.write q a v false = ({ s with dev := (s.dev.writeWord q b v).1, writing := x }, true) := by
  obtain ⟨x, note⟩ := Io.noteWrite_fresh fresh (b / 8)
  obtain ⟨ack, _, _⟩ := Dev.writeWord_accepted ok v
  refine ⟨x, ?_⟩
  rw [Io.write, if_neg (by simp [goes]), ht]
  simp only [note, Bool.false_eq_true, if_false, Io.took_accepted ack]

/-- A run that has stored one word more. -/
def DmvRun.stored (r : DmvRun) (e : Dev) (x : Option ((Nat × Nat) × Nat)) : DmvRun :=
  { r with io := { r.io with dev := e, writing := x }, units := r.units + 1, words := r.words + 1 }

section
variable {r : DmvRun} {q : Req} {b dst : Nat} (stop : r.io.stop = none) (sound : r.io.badAt = none) (fresh : r.io.writing = none)
  (ht : r.io.dev.target dst = .mem b) (ok : r.io.dev.accepts q b)
include stop sound fresh ht ok

theorem DmvRun.fillWord_accepted (v : Word) : ∃ x, r.fillWord q v dst = r.stored (r.io.dev.writeWord q b v).1 x := by
  obtain ⟨x, write⟩ := Io.write_accepted stop fresh ht ok v
  refine ⟨x, ?_⟩
  simp [DmvRun.fillWord, DmvRun.over, DmvRun.stored, stop, sound, write, b2n]

theorem DmvRun.copyWord_accepted {a src : Nat} (hs : r.io.dev.target src = .mem a) (clear : r.io.dev.clearRead q a) :
    ∃ x, r.copyWord q src dst = r.stored (r.io.dev.writeWord q b (dataOf (r.io.dev.raw (a / 8)))).1 x := by
  obtain ⟨x, write⟩ := Io.write_accepted stop fresh ht ok (dataOf (r.io.dev.raw (a / 8)))
  refine ⟨x, ?_⟩
  simp [DmvRun.copyWord, DmvRun.over, DmvRun.stored, stop, sound, Io.read_clear stop hs clear, write, b2n]

end

/-- A run of one stored word, ended: the word, all others, the job's record and what is sent. -/
theorem Dev.dmvEnd_stored {d : Dev} {j : Job} (found : d.job j.id = some j) (clean : j.untouched) {q : Req} {b : Nat} (ok : d.accepts q b)
    (ext : List Ext) (v : Word) (x : Option ((Nat × Nat) × Nat)) {e : Dev}
    (he : e = Dev.dmvEnd ((DmvRun.start d j ext).stored (d.writeWord q b v).1 x) j 0 stOK) :
    e.raw (b / 8) = encodeWord v ∧ (∀ w, w ≠ b / 8 → e.raw w = d.raw w) ∧ e.job j.id = some (d.endedJob j 0 1) ∧ e.out = d.out := by
  have only := d.writeRaw_only q b (encodeWord v)
  obtain ⟨_, word, others⟩ := Dev.writeWord_accepted ok v
  obtain ⟨mem, out, _⟩ := Dev.dmvEnd_frame ((DmvRun.start d j ext).stored (d.writeWord q b v).1 x) j 0 stOK
  have job := Dev.job_dmvEnd_units found (r := (DmvRun.start d j ext).stored (d.writeWord q b v).1 x) only.io.work rfl rfl rfl stOK
  rw [← he] at mem out job
  refine ⟨(Dev.raw_of_mem mem _).trans word, fun w hw => (Dev.raw_of_mem mem w).trans (others w hw), ?_, ?_⟩
  · have status := Io.status_start clean d ext stOK
    exact job.trans (congrArg (fun st => some (d.endedJob j st 1)) status)
  · have sent : (d.writeRaw q b (encodeWord v)).1.out = d.out := by
      obtain ⟨_, _, _, _, same, _⟩ := only
      rw [same]
    exact out.trans sent

section
variable {d : Dev} {j : Job} (found : d.job j.id = some j) (running : j.phase = .running) (clean : j.untouched) (ext : List Ext)
  (rows : j.dmvRows = 1) (count : j.dmvCount = 1) {b : Nat} (ht : d.target j.dmvDst = .mem b) (ok : d.accepts (d.dmvReq j) b)
include found running clean rows count ht ok

/-- R103: a fill of one word. -/
theorem dmvFill_word (hop : j.opcode = 0xA2) {e : Dev} (he : e = dmvFill j.id ext d) :
    e.raw (b / 8) = encodeWord j.dmvPattern ∧ (∀ w, w ≠ b / 8 → e.raw w = d.raw w) ∧ e.job j.id = some (d.endedJob j 0 1) ∧
      e.out = d.out := by
  obtain ⟨x, fill⟩ := DmvRun.fillWord_accepted (r := DmvRun.start d j ext) clean.1 rfl rfl ht ok j.dmvPattern
  refine Dev.dmvEnd_stored found clean ok ext j.dmvPattern x (he.trans ?_)
  rw [dmvFill, Dev.executing_running found running hop]
  simp only [rows, count, DmvRun.rows, upFrom, List.foldl, Nat.zero_mul, Nat.mul_zero, Nat.add_zero]
  exact congrArg (fun r => Dev.dmvEnd r j 0 stOK) fill

/-- R103: a copy of one word of on-chip memory. -/
theorem dmvCopy_word (hop : j.opcode = 0xA0) {a : Nat} (hs : d.target j.dmvSrc = .mem a) (clear : d.clearRead (d.dmvReq j) a) {e : Dev}
    (he : e = dmvCopy j.id ext d) :
    e.raw (b / 8) = d.raw (a / 8) ∧ (∀ w, w ≠ b / 8 → e.raw w = d.raw w) ∧ e.job j.id = some (d.endedJob j 0 1) ∧ e.out = d.out := by
  obtain ⟨x, copy⟩ := DmvRun.copyWord_accepted (r := DmvRun.start d j ext) clean.1 rfl rfl ht ok hs clear
  obtain ⟨_, _, _, _, _, _, sound⟩ := clear
  rw [← Dev.encodeWord_raw sound]
  refine Dev.dmvEnd_stored found clean ok ext _ x (he.trans ?_)
  rw [dmvCopy, Dev.executing_running found running hop]
  simp only [rows, count, DmvRun.rows, upFrom, List.foldl, Nat.zero_mul, Nat.mul_zero, Nat.add_zero]
  exact congrArg (fun r => Dev.dmvEnd r j 0 stOK) copy

end

/-! ### Frames (R104) -/

theorem Dev.tplBuild_only (d : Dev) (t patch count width body : Nat) : OnlyRegs d (d.tplBuild t patch count width body).1 :=
  .ite (.refl d) (d.bump_only _)

theorem Dev.enqueue_work (d : Dev) (n : Nat) (f : TxFrame) : SameWork d (d.enqueue n f) := ⟨rfl, rfl, rfl, rfl, rfl, rfl, rfl, rfl⟩

theorem DmvRun.packPrbBytes_only (q : Req) (width : Nat) (acc : DmvRun × List Byte × Nat) (src : Nat) :
    OnlyIo acc.1.io.dev (DmvRun.packPrbBytes q width acc src).1.io.dev := by
  obtain ⟨r, out, bad⟩ := acc
  unfold DmvRun.packPrbBytes
  dsimp only
  split
  · refine OnlyIo.foldl (dev := fun b : DmvRun × List Byte × Bool => b.1.io.dev) (b := (r, [], false)) (fun b k => ?_) _ (.refl _)
    exact b.1.packUnit_only q _ _ _
  · exact r.packUnit_only q _ _ _

theorem Dev.packFrame_only (d : Dev) (j : Job) : OnlyIo d (d.packFrame j).1.io.dev :=
  OnlyIo.foldl (dev := fun b : DmvRun × List Byte × Nat => b.1.io.dev) (fun b _ => DmvRun.packPrbBytes_only _ _ b _) _ (.refl d)

/-- The job of a frame that enters its queue has ended. -/
theorem Dev.jobEnds_txFrameEnd {d : Dev} {j : Job} (found : d.job j.id = some j) {r : DmvRun} (h : SameWork d r.io.dev) (payload : List Byte)
    (bad : Nat) : d.jobEnds j (Dev.txFrameEnd r j payload bad) := by
  have built := h.trans (r.io.dev.tplBuild_only j.txTemplate (j.bytes 56 8) j.txCount j.dmvWidth payload.length).work
  unfold Dev.txFrameEnd
  exact Dev.jobEnds_dmvEnd found (built.trans (Dev.enqueue_work _ _ _)) _ _

/-- R104: the bytes of a job's frame. -/
def Dev.txLen (d : Dev) (j : Job) : Nat :=
  d.get (Reg.ETH_TPL_LEN j.txTemplate) + j.txCount * if j.dmvWidth = 0 then 48 else dmvPackedBytes 2 j.dmvWidth

/-- R104: six words of S16 take the 48 bytes of a PRB. -/
theorem Dev.txLen_eq (d : Dev) (j : Job) :
    d.get (Reg.ETH_TPL_LEN j.txTemplate) + j.txCount * dmvPackedBytes (if j.dmvWidth = 0 then 1 else 2) j.dmvWidth *
      (if j.dmvWidth = 0 then 6 else 1) = d.txLen j := by
  unfold Dev.txLen
  split
  · simp [dmvPackedBytes, Nat.mul_assoc]
  · simp

section
variable {d : Dev} {j : Job} (found : d.job j.id = some j) (running : j.phase = .running) (hop : j.opcode = 0xA3)
include found running hop

theorem dmvTxFrame_foreign (serves : d.tplServes j.txTemplate (d.jobFunc j) j.world = false) :
    dmvTxFrame j.id d = Dev.dmvEnd { DmvRun.start d j [] with io := (Io.start d j []).halt stWORLD } j 0 stOK := by
  rw [dmvTxFrame, Dev.executing_running found running hop]
  simp [serves]

theorem dmvTxFrame_long (serves : d.tplServes j.txTemplate (d.jobFunc j) j.world = true)
    (long : ¬d.txLen j + d.frameExtra j.txPort ≤ d.get (Reg.ETH_PORT_CFG_MAX_FRAME j.txPort)) :
    dmvTxFrame j.id d = Dev.dmvEnd (DmvRun.start d j []) j 0 stLENGTH := by
  rw [dmvTxFrame, Dev.executing_running found running hop]
  dsimp only
  rw [d.txLen_eq j, serves, if_neg (by decide), if_pos (Nat.lt_of_not_le long)]

theorem dmvTxFrame_waits (serves : d.tplServes j.txTemplate (d.jobFunc j) j.world = true)
    (fits : d.txLen j + d.frameExtra j.txPort ≤ d.get (Reg.ETH_PORT_CFG_MAX_FRAME j.txPort))
    (full : d.frameRoom j.txPort j.txQueue (d.txLen j) = false) : dmvTxFrame j.id d = d := by
  rw [dmvTxFrame, Dev.executing_running found running hop]
  dsimp only
  rw [d.txLen_eq j, serves, if_neg (by decide), if_neg (Nat.not_lt_of_le fits), full, if_pos (by decide)]

theorem dmvTxFrame_jobEnds (serves : d.tplServes j.txTemplate (d.jobFunc j) j.world = true)
    (fits : d.txLen j + d.frameExtra j.txPort ≤ d.get (Reg.ETH_PORT_CFG_MAX_FRAME j.txPort))
    (room : d.frameRoom j.txPort j.txQueue (d.txLen j) = true) : d.jobEnds j (dmvTxFrame j.id d) := by
  have packed := (d.packFrame_only j).work
  rw [dmvTxFrame, Dev.executing_running found running hop]
  dsimp only
  rw [d.txLen_eq j, serves, if_neg (by decide), if_neg (Nat.not_lt_of_le fits), room, if_neg (by decide)]
  generalize d.packFrame j = run at packed ⊢
  by_cases stopped : run.1.over = true
  · rw [if_pos stopped]
    exact Dev.jobEnds_dmvEnd (r := { run.1 with units := 0, words := 0 }) found packed 0 stOK
  · rw [if_neg stopped]
    exact Dev.jobEnds_txFrameEnd found packed _ _

end

/-- A frame's job that ends before its run begins: its record, and no frame queued. -/
theorem Dev.dmvEnd_unsent {d : Dev} {j : Job} (found : d.job j.id = some j) {r : DmvRun} (dev : r.io.dev = d) (units : r.units = 0)
    (poisoned : r.poisoned = 0) (expMin : r.expMin = 16) (expMax : r.expMax = 0) {st own : Nat} (status : r.io.status own = st) :
    (Dev.dmvEnd r j 0 own).job j.id = some (d.endedJob j st 0) ∧ (Dev.dmvEnd r j 0 own).eth = d.eth := by
  obtain ⟨_, _, eth⟩ := Dev.dmvEnd_frame r j 0 own
  rw [Dev.job_dmvEnd_units found (dev ▸ (OnlyIo.refl _).work) poisoned expMin expMax own, status, units, eth, dev]
  exact ⟨rfl, rfl⟩

/-! ### The commands -/

theorem exec_dmvJobStart (ch : Fin 64) (s : State) : exec (.dmvJobStart ch) s = s.onDev (dmvJobStart ch.val) := rfl
theorem exec_dmvCopy (id : Nat) (ext : List Ext) (s : State) : exec (.dmvCopy id ext) s = s.onDev (dmvCopy id ext) := rfl
theorem exec_dmvConvert (id : Nat) (ext : List Ext) (s : State) : exec (.dmvConvert id ext) s = s.onDev (dmvConvert id ext) := rfl
theorem exec_dmvFill (id : Nat) (ext : List Ext) (s : State) : exec (.dmvFill id ext) s = s.onDev (dmvFill id ext) := rfl
theorem exec_dmvTxFrame (id : Nat) (s : State) : exec (.dmvTxFrame id) s = s.onDev (dmvTxFrame id) := rfl

/-- Settles O37: the job a channel begins, the end of every data-mover job, and what one word copied or filled and a frame leave. -/
theorem moverJobs : Obligations.MoverJobs := by
  unfold Obligations.MoverJobs
  intro s ch j ext d queue
  refine ⟨fun serves goes powered idle next => ?_, fun h => ?_, fun found running => ⟨fun hop => ?_, fun hop => ?_, fun hop => ?_,
    fun hop clean _ rows count b ht ok => ?_, fun hop clean _ rows count a b hs ht clear ok => ?_, fun hop => ⟨fun clean foreign => ?_,
    fun clean serves long => ?_, fun serves fits full => ?_, fun serves fits room => ?_⟩⟩⟩
  · exact ⟨(gives_iff_of_exec (exec_dmvJobStart ch s)).2 (dmvJobStart_begins serves goes powered idle next), firstInQueue_least next⟩
  · exact (gives_iff_of_exec (exec_dmvJobStart ch s)).2 (dmvJobStart_waits h)
  · exact (completes_iff_of_exec (exec_dmvCopy j.id ext s)).2 (dmvCopy_jobEnds found running ext hop)
  · exact (completes_iff_of_exec (exec_dmvConvert j.id ext s)).2 (dmvConvert_jobEnds found running ext hop)
  · exact (completes_iff_of_exec (exec_dmvFill j.id ext s)).2 (dmvFill_jobEnds found running ext hop)
  · exact (completes_iff_of_exec (exec_dmvFill j.id ext s)).2 (dmvFill_word found running clean ext rows count ht ok hop rfl)
  · exact (completes_iff_of_exec (exec_dmvCopy j.id ext s)).2 (dmvCopy_word found running clean ext rows count ht ok hop hs clear rfl)
  · rw [completes_iff_of_exec (exec_dmvTxFrame j.id s), dmvTxFrame_foreign found running hop (Bool.eq_false_iff.2 foreign)]
    exact Dev.dmvEnd_unsent found (Io.halt_dev _ _) rfl rfl rfl rfl (Io.status_halt clean.1 _ _)
  · rw [completes_iff_of_exec (exec_dmvTxFrame j.id s), dmvTxFrame_long found running hop serves long]
    exact Dev.dmvEnd_unsent found rfl rfl rfl rfl rfl (Io.status_start clean _ _ _)
  · exact (gives_iff_of_exec (exec_dmvTxFrame j.id s)).2 (dmvTxFrame_waits found running hop serves fits full)
  · exact (completes_iff_of_exec (exec_dmvTxFrame j.id s)).2 (dmvTxFrame_jobEnds found running hop serves fits room)

end Sys2Proof.Machine
end

section
/-! SUPPORT. The code of R112–R116: the check byte and the syndrome are linear over XOR, so an error shows as the XOR of the columns of the
bits it flips. Every column has odd weight, hence two flipped bits leave an even one, which no class but the uncorrectable has. -/

namespace Sys2Proof.Machine

/-! ### Linearity -/

theorem xorColumns_xor (a b : Nat) (cs : List Nat) : xorColumns (a ^^^ b) cs = xorColumns a cs ^^^ xorColumns b cs := by
  induction cs generalizing a b with
  | nil => simp [xorColumns]
  | cons c cs ih =>
    have bit : (if (a ^^^ b) % 2 = 1 then c else 0) = (if a % 2 = 1 then c else 0) ^^^ (if b % 2 = 1 then c else 0) := by
      rcases Nat.mod_two_eq_zero_or_one a with ha | ha <;> rcases Nat.mod_two_eq_zero_or_one b with hb | hb <;>
        simp [Nat.xor_mod_two_eq, Nat.add_mod, ha, hb]
    have half : (a ^^^ b) / 2 = a / 2 ^^^ b / 2 := Nat.xor_div_two_pow (n := 1)
    rw [xorColumns, xorColumns, xorColumns, bit, half, ih]
    ac_rfl

@[simp] theorem xorColumns_zero (cs : List Nat) : xorColumns 0 cs = 0 := by
  induction cs with
  | nil => rfl
  | cons c cs ih => simp [xorColumns, ih]

theorem checkOf_eq (v : Nat) : checkOf v = xorColumns v eccColumns := by
  unfold checkOf
  split
  · next h => rw [h, xorColumns_zero]
  · rfl

theorem checkOf_xor (a b : Nat) : checkOf (a ^^^ b) = checkOf a ^^^ checkOf b := by simp only [checkOf_eq, xorColumns_xor]

/-- One set bit picks its column. -/
theorem xorColumns_twoPow (k : Nat) (cs : List Nat) : xorColumns (2 ^ k) cs = cs.getD k 0 := by
  induction cs generalizing k with
  | nil => simp [xorColumns]
  | cons c cs ih =>
    cases k with
    | zero => simp [xorColumns]
    | succ k => simp [xorColumns, Nat.pow_succ, ih]

/-- The check byte of one set data bit is its column (R112). -/
theorem checkOf_twoPow (k : Nat) : checkOf (2 ^ k) = eccColumns.getD k 0 := by rw [checkOf_eq, xorColumns_twoPow]

theorem syndrome_xor (a b : Nat) : syndrome (a ^^^ b) = syndrome a ^^^ syndrome b := by
  have check : (a ^^^ b) / 2 ^ 72 % 256 = (a / 2 ^ 72 % 256) ^^^ (b / 2 ^ 72 % 256) := by
    rw [Nat.xor_div_two_pow, show 256 = 2 ^ 8 from rfl, Nat.xor_mod_two_pow]
  rw [syndrome, Nat.xor_mod_two_pow, checkOf_xor, check, syndrome, syndrome]
  ac_rfl

/-! ### The columns of the 80 stored bits -/

/-- The columns of the 80 bits of a stored word: those of the data bits, then one bit for each check bit. -/
def codeColumns : List Nat := eccColumns ++ [1, 2, 4, 8, 16, 32, 64, 128]

/-- The syndrome of a single flipped bit is its column. -/
theorem syndrome_twoPow {k : Nat} (hk : k < 80) : syndrome (2 ^ k) = codeColumns.getD k 0 := by
  by_cases data : k < 72
  · have small : 2 ^ k < 2 ^ 72 := Nat.pow_lt_pow_right (by decide) data
    rw [syndrome, Nat.mod_eq_of_lt small, Nat.div_eq_of_lt small, checkOf_twoPow, codeColumns, List.getD_append _ _ _ _ data]
    exact Nat.xor_zero _
  · have check : ∀ k < 80, 72 ≤ k → syndrome (2 ^ k) = codeColumns.getD k 0 := by decide
    exact check k hk (Nat.not_lt.1 data)

theorem codeColumns_nodup : codeColumns.Nodup := by decide

/-- The poison mark of R116 is the column of no bit. -/
theorem poisonMark_not_mem : 0x7F ∉ codeColumns := by decide

theorem syndrome_flip (raw : Nat) {k : Nat} (hk : k < 80) : syndrome (raw ^^^ 2 ^ k) = syndrome raw ^^^ codeColumns.getD k 0 := by
  rw [syndrome_xor, syndrome_twoPow hk]

theorem column_mem {k : Nat} (hk : k < 80) : codeColumns.getD k 0 ∈ codeColumns := by
  rw [List.getD_eq_getElem _ _ hk]
  exact List.getElem_mem hk

theorem column_ne {j k : Nat} (hj : j < 80) (hk : k < 80) (h : j ≠ k) : codeColumns.getD j 0 ≠ codeColumns.getD k 0 := by
  rw [List.getD_eq_getElem _ _ hj, List.getD_eq_getElem _ _ hk]
  exact fun e => h ((codeColumns_nodup.getElem_inj_iff).1 e)

/-! ### Weight -/

theorem bitOf_eq_testBit (v k : Nat) : bitOf v k = v.testBit k := by
  rw [bitOf, bitsOf, pow_one, Nat.testBit_eq_decide_div_mod_eq]
  rfl

/-- XOR adds weights modulo 2. -/
theorem popcount_xor (a b w : Nat) : popcount (a ^^^ b) w % 2 = (popcount a w + popcount b w) % 2 := by
  induction w with
  | zero => rfl
  | succ w ih =>
    have bit : b2n (bitOf (a ^^^ b) w) % 2 = (b2n (bitOf a w) + b2n (bitOf b w)) % 2 := by
      simp only [bitOf_eq_testBit, Nat.testBit_xor]
      cases a.testBit w <;> cases b.testBit w <;> rfl
    simp only [popcount]
    omega

/-- Has a check byte an even number of set bits? -/
def EvenWeight (n : Nat) : Prop := popcount n 8 % 2 = 0

theorem evenWeight_xor {a b : Nat} (ha : ¬EvenWeight a) (hb : ¬EvenWeight b) : EvenWeight (a ^^^ b) := by
  have := popcount_xor a b 8
  unfold EvenWeight at *
  omega

theorem not_evenWeight_column : ∀ c ∈ codeColumns, ¬EvenWeight c := by unfold EvenWeight; decide

theorem not_evenWeight_poisonMark : ¬EvenWeight 0x7F := by unfold EvenWeight; decide

/-! ### Classes (R114) -/

theorem placeOf_eq_none {x : Nat} {cs : List Nat} (h : x ∉ cs) : placeOf x cs = none := by
  induction cs with
  | nil => rfl
  | cons c cs ih =>
    obtain ⟨first, rest⟩ := List.ne_and_not_mem_of_not_mem_cons h
    rw [placeOf, if_neg first, ih rest]
    rfl

/-- The data bit of each column is found. -/
theorem placeOf_column : ∀ k < 72, placeOf (eccColumns.getD k 0) eccColumns = some k := by decide

theorem classify_poison {raw : Nat} (h : syndrome raw = 0x7F) : classify raw = .poison := by simp [classify, h]

theorem checkColumns_contains : ∀ k < 8, [1, 2, 4, 8, 16, 32, 64, 128].contains (2 ^ k) = true ∧ 2 ^ k ≠ 0x7F := by decide

theorem classify_checkBit {raw k : Nat} (hk : k < 8) (h : syndrome raw = 2 ^ k) : classify raw = .corrected (dataOf raw) := by
  obtain ⟨found, mark⟩ := checkColumns_contains k hk
  have ne : 2 ^ k ≠ 0 := by positivity
  unfold classify
  dsimp only
  rw [h, if_neg ne, if_neg mark, if_pos found]

theorem eccColumns_apart : ∀ c ∈ eccColumns, c ≠ 0 ∧ c ≠ 0x7F ∧ [1, 2, 4, 8, 16, 32, 64, 128].contains c = false := by decide

theorem classify_dataBit {raw k : Nat} (hk : k < 72) (h : syndrome raw = eccColumns.getD k 0) :
    classify raw = .corrected (dataOf (raw ^^^ 2 ^ k)) := by
  have mem : eccColumns.getD k 0 ∈ eccColumns := by
    rw [List.getD_eq_getElem _ _ hk]
    exact List.getElem_mem hk
  obtain ⟨zero, mark, check⟩ := eccColumns_apart _ mem
  unfold classify
  dsimp only
  rw [h, if_neg zero, if_neg mark, if_neg (by rw [check]; decide), placeOf_column k hk]

theorem classify_uncorrectable {raw : Nat} (zero : syndrome raw ≠ 0) (mark : syndrome raw ≠ 0x7F) (none_ : syndrome raw ∉ codeColumns) :
    classify raw = .uncorrectable := by
  rw [codeColumns, List.mem_append, not_or] at none_
  obtain ⟨data, check⟩ := none_
  have absent : ([1, 2, 4, 8, 16, 32, 64, 128] : List Nat).contains (syndrome raw) = false := by
    rw [List.contains_eq_mem, decide_eq_false check]
  unfold classify
  dsimp only
  rw [if_neg zero, if_neg mark, if_neg (by rw [absent]; decide), placeOf_eq_none data]

/-- A syndrome other than 0 of even weight is no column, and not the mark of poison: the error is detected. -/
theorem classify_even {raw : Nat} (zero : syndrome raw ≠ 0) (even : EvenWeight (syndrome raw)) : classify raw = .uncorrectable :=
  classify_uncorrectable zero (fun h => not_evenWeight_poisonMark (h ▸ even)) (fun h => not_evenWeight_column _ h even)

/-! ### Stored words and their errors -/

theorem syndrome_encodeWord (v : Word) : syndrome (encodeWord v) = 0 := classify_eq_clean_iff.1 (classify_encodeWord v)

theorem syndrome_poisonWord (v : Word) : syndrome (poisonWord v) = 0x7F := by
  rw [poisonWord, syndrome_stored v (Nat.xor_lt_two_pow (checkOf_lt _) (by decide)), ← Nat.xor_assoc, Nat.xor_self, Nat.zero_xor]

theorem dataOf_poisonWord (v : Word) : dataOf (poisonWord v) = v := by
  apply BitVec.eq_of_toNat_eq
  have := v.isLt
  rw [dataOf, poisonWord, BitVec.toNat_ofNat]
  omega

theorem dataOf_xor (a b : Nat) : dataOf (a ^^^ b) = dataOf a ^^^ dataOf b := by simp [dataOf, BitVec.ofNat_xor]

/-- The data bits of a check bit are none. -/
theorem dataOf_checkBit : ∀ k < 80, 72 ≤ k → dataOf (2 ^ k) = 0#72 := by decide

/-- R114: every single-bit error is corrected. -/
theorem classify_encodeWord_flip (v : Word) {k : Nat} (hk : k < 80) : classify (encodeWord v ^^^ 2 ^ k) = .corrected v := by
  have syn := syndrome_flip (encodeWord v) hk
  rw [syndrome_encodeWord, Nat.zero_xor] at syn
  by_cases data : k < 72
  · have column : codeColumns.getD k 0 = eccColumns.getD k 0 := List.getD_append _ _ _ _ data
    rw [classify_dataBit data (syn.trans column), Nat.xor_assoc, Nat.xor_self, Nat.xor_zero, dataOf_encodeWord]
  · have column : codeColumns.getD k 0 = 2 ^ (k - 72) := by
      have : ∀ k < 80, ¬k < 72 → codeColumns.getD k 0 = 2 ^ (k - 72) := by decide
      exact this k hk data
    rw [classify_checkBit (by omega) (syn.trans column), dataOf_xor, dataOf_checkBit k hk (by omega), BitVec.xor_zero, dataOf_encodeWord]

/-- R114: every double-bit error is detected. -/
theorem classify_encodeWord_flip_flip (v : Word) {j k : Nat} (hj : j < 80) (hk : k < 80) (ne : j ≠ k) :
    classify (encodeWord v ^^^ 2 ^ j ^^^ 2 ^ k) = .uncorrectable := by
  have syn : syndrome (encodeWord v ^^^ 2 ^ j ^^^ 2 ^ k) = codeColumns.getD j 0 ^^^ codeColumns.getD k 0 := by
    rw [syndrome_flip _ hk, syndrome_flip _ hj, syndrome_encodeWord, Nat.zero_xor]
  apply classify_even
  · rw [syn]
    exact Nat.xor_ne_zero_iff.2 (column_ne hj hk ne)
  · rw [syn]
    exact evenWeight_xor (not_evenWeight_column _ (column_mem hj)) (not_evenWeight_column _ (column_mem hk))

/-- R116: a poisoned word with one bit flipped is uncorrectable. -/
theorem classify_poisonWord_flip (v : Word) {k : Nat} (hk : k < 80) : classify (poisonWord v ^^^ 2 ^ k) = .uncorrectable := by
  have syn : syndrome (poisonWord v ^^^ 2 ^ k) = 0x7F ^^^ codeColumns.getD k 0 := by rw [syndrome_flip _ hk, syndrome_poisonWord]
  apply classify_even
  · rw [syn]
    exact Nat.xor_ne_zero_iff.2 (fun h => poisonMark_not_mem (h ▸ column_mem hk))
  · rw [syn]
    exact evenWeight_xor not_evenWeight_poisonMark (not_evenWeight_column _ (column_mem hk))

/-- R114: an error of three bits whose columns add up to that of a check bit is taken for an error of that bit. -/
theorem classify_encodeWord_three (v : Word) : ∃ w, w ≠ v ∧ classify (encodeWord v ^^^ 7) = .corrected w := by
  have syn : syndrome (encodeWord v ^^^ 7) = 2 ^ 0 := by
    rw [syndrome_xor, syndrome_encodeWord]
    decide
  refine ⟨_, ?_, classify_checkBit (by decide) syn⟩
  rw [dataOf_xor, dataOf_encodeWord]
  have same (h : v ^^^ dataOf 7 = v) : dataOf 7 = 0#72 := (BitVec.xor_right_inj v).1 (h.trans BitVec.xor_zero.symm)
  exact fun h => absurd (same h) (by decide)

/-- Settles O34: the code by linearity, single errors by the column they show, double errors by the odd weight of every column. -/
theorem codeCorrects : Obligations.CodeCorrects := by
  unfold Obligations.CodeCorrects
  intro weight
  refine ⟨⟨by decide, by decide, by decide +kernel⟩, ⟨by decide, fun v k _ => ?_⟩,
    fun raw lt => ⟨?_, classify_eq_clean_iff.2, classify_poison, fun k hk => classify_checkBit hk, fun k hk => classify_dataBit hk, ?_⟩, fun v => ⟨classify_encodeWord v, dataOf_encodeWord v, fun k hk => classify_encodeWord_flip v hk, fun j k hjk hk => ?_,
    classify_encodeWord_three v, ?_, dataOf_poisonWord v, syndrome_poisonWord v, classify_poisonWord v,
    fun k hk => classify_poisonWord_flip v hk⟩⟩
  · rw [checkOf_xor, checkOf_twoPow]
  · rw [syndrome, dataOf, BitVec.toNat_ofNat, Nat.mod_eq_of_lt (show raw / 2 ^ 72 < 256 by omega)]
  · intro zero mark check data
    refine classify_uncorrectable zero mark ?_
    rw [codeColumns, List.mem_append, not_or]
    refine ⟨data, fun h => ?_⟩
    have powers : ∀ x ∈ ([1, 2, 4, 8, 16, 32, 64, 128] : List Nat), ∃ k < 8, x = 2 ^ k := by decide
    obtain ⟨k, hk, e⟩ := powers _ h
    exact check k hk e
  · exact classify_encodeWord_flip_flip v (by omega) hk (by omega)
  · apply classify_poison
    rw [syndrome_xor, syndrome_xor, syndrome_xor, syndrome_encodeWord]
    decide

end Sys2Proof.Machine
end

section
/-! SUPPORT. Bundles that cannot be executed (R119, R161, R174, R176), and what the entry of a trap handler leaves (R162). -/

namespace Sys2Proof.Machine

theorem exec_illegalBundle (c : Fin 104) (s : State) : exec (.illegalBundle c) s = s.onDev (fun d => d.illegalBundle c.val) := rfl
theorem exec_fetchError (c : Fin 104) (k : Fin 4) (s : State) : exec (.fetchError c k) s = s.onDev (fun d => d.fetchError c.val k.val) := rfl

/-! ### A core changed -/

@[simp] theorem Dev.core_setCore (d : Dev) (c : Nat) (x : Core) : (d.setCore c x).core c = x := lookup_update_self _ _ _ _

@[simp] theorem Dev.core_onCore (d : Dev) (c : Nat) (f : Core → Core) : (d.onCore c f).core c = f (d.core c) := d.core_setCore c _

@[simp] theorem Dev.get_onCore (d : Dev) (c : Nat) (f : Core → Core) (x : Fld) : (d.onCore c f).get x = d.get x := rfl

theorem Dev.get_bump_self (d : Dev) (f : Fld) (h : f.lo + f.w ≤ 32) : (d.bump f).get f = (d.get f + 1) % 2 ^ f.w := d.get_set_self f _ h

theorem Dev.get_bump_spares (d : Dev) {f g : Fld} (h : f.Spares g) : (d.bump f).get g = d.get g := d.get_set_spares _ h

/-! ### The entry of a trap handler -/

/-- The core of a trap as its handler begins (R161, R162). -/
def Core.trapped (x : Core) (t : Trap) (pc : BitVec 13) (more after : Bool) (level : Level) (vec : Nat) : Core :=
  { x with bundle := none,
           arch := { x.arch with trapPc := pc, trapCause := BitVec.ofNat 8 t.code, trapInfo := trapInfo t more after,
                                 trapAddr := BitVec.ofNat 56 t.addr, trapLevel := BitVec.ofNat 2 (levelCode x.arch.level),
                                 level := level, pc := BitVec.ofNat 13 vec } }

theorem Dev.enterTrap_eq (d : Dev) (c : Nat) (t : Trap) (pc : BitVec 13) (more after : Bool) :
    d.enterTrap c t pc more after =
      ((((d.onCore c (fun x => x.trapped t pc more after (d.supervisor c) (d.get (Reg.ERG_CORE_TVEC (c / 8) (c % 8))))).set (coreState c) 2).bump
        (Reg.ERG_CORE_TRAPS (c / 8) (c % 8))).set (Reg.ERG_CORE_STATUS_LAST_CAUSE (c / 8) (c % 8)) t.code).coreEvent c 3 := rfl

theorem Dev.core_enterTrap (d : Dev) (c : Nat) (t : Trap) (pc : BitVec 13) (more after : Bool) :
    (d.enterTrap c t pc more after).core c =
      (d.core c).trapped t pc more after (d.supervisor c) (d.get (Reg.ERG_CORE_TVEC (c / 8) (c % 8))) :=
  d.core_onCore c (fun x => x.trapped t pc more after (d.supervisor c) (d.get (Reg.ERG_CORE_TVEC (c / 8) (c % 8))))

/-- R162, R170: what the entry shows in the core's registers on the host side. -/
theorem Dev.get_enterTrap (d : Dev) (c : Nat) (t : Trap) (pc : BitVec 13) (more after : Bool) :
    (d.enterTrap c t pc more after).get (coreState c) = 2 ∧
    (d.enterTrap c t pc more after).get (Reg.ERG_CORE_STATUS_LAST_CAUSE (c / 8) (c % 8)) = t.code % 256 ∧
    (d.enterTrap c t pc more after).get (Reg.ERG_CORE_TRAPS (c / 8) (c % 8)) = (d.get (Reg.ERG_CORE_TRAPS (c / 8) (c % 8)) + 1) % 2 ^ 16 := by
  have words : (Reg.ERG_CORE_TRAPS (c / 8) (c % 8)).off ≠ (coreState c).off := by
    simp [Reg.ERG_CORE_TRAPS, coreState, Reg.ERG_CORE_STATUS_STATE]
  have cause : (Reg.ERG_CORE_STATUS_LAST_CAUSE (c / 8) (c % 8)).Spares (coreState c) :=
    .inr (by simp [Reg.ERG_CORE_STATUS_LAST_CAUSE, coreState, Reg.ERG_CORE_STATUS_STATE])
  have cause_traps : (Reg.ERG_CORE_STATUS_LAST_CAUSE (c / 8) (c % 8)).Spares (Reg.ERG_CORE_TRAPS (c / 8) (c % 8)) := .inl words
  rw [Dev.enterTrap_eq, Dev.coreEvent, Dev.get_raise, Dev.get_raise, Dev.get_raise]
  refine ⟨?_, ?_, ?_⟩
  · rw [Dev.get_set_spares _ _ cause, Dev.get_bump_spares _ (.inl words.symm),
      Dev.get_set_self _ _ _ (by simp [coreState, Reg.ERG_CORE_STATUS_STATE])]
    rfl
  · exact Dev.get_set_self _ _ _ (by simp [Reg.ERG_CORE_STATUS_LAST_CAUSE])
  · rw [Dev.get_set_spares _ _ cause_traps, Dev.get_bump_self _ _ (by simp [Reg.ERG_CORE_TRAPS]), Dev.get_set_spares _ _ (.inl words),
      Dev.get_onCore]
    rfl

theorem trapInfo_plain {t : Trap} (h : t.bundleFault = 0) (after : Bool) :
    trapInfo t false after = BitVec.ofNat 17 (t.detail % 2 ^ 8 + t.tag % 8 * 2 ^ 8 + if after then 2 ^ 16 else 0) := by
  cases after <;> simp [trapInfo, h, b2n]

/-- R162: a trap at TK enters the handler. -/
theorem Dev.takeTrap_entered {d : Dev} {c : Fin 104} {t : Trap} (level : (d.core c.val).arch.level = .tk) (fault : t.bundleFault = 0)
    (pc : BitVec 13) (after : Bool) : Entered d (d.takeTrap c.val t pc after) c pc t.code t.detail t.tag t.addr after := by
  obtain ⟨state, cause, traps⟩ := d.get_enterTrap c.val t pc false after
  rw [Dev.takeTrap, if_pos level]
  unfold Entered
  dsimp only
  rw [Dev.core_enterTrap]
  exact ⟨rfl, rfl, trapInfo_plain fault after, rfl, by simp [Core.trapped, level, levelCode], rfl, rfl, rfl, rfl, rfl, rfl, rfl, state, cause, traps⟩

/-! ### The bundle at PC -/

section
variable {d d' : Dev} {c : Nat} (runs : d.executes c = true) (idle : (d.core c).bundle = none)
include runs idle

theorem Dev.illegalBundle_traps {ws : List Word} {detail bf : Nat} (fetched : d.fetchBundle c (d.core c).arch.pc = (d', some ws))
    (illegal : bundleFault (d.core c).arch ws = some (detail, bf)) :
    d.illegalBundle c = d'.takeTrap c { trapOf 0x01 0 with detail := detail, bundleFault := bf } (d.core c).arch.pc false := by
  simp only [Dev.illegalBundle, runs, idle, Option.isNone_none, Bool.and_self, if_true, fetched, illegal]

theorem Dev.fetchError_traps {k : Nat} {lost : Bool}
    (read : d.readWord (d.coreReq c 0 true) (c * 0x40000 + 0x30000 + 8 * (((d.core c).arch.pc.toNat + k) % 8192)) =
      (d', if lost then .uncorrectable else .poison)) :
    d.fetchError c k = d'.takeTrap c
      { trapOf 0x03 (d.internal (c * 0x40000 + 0x30000 + 8 * (((d.core c).arch.pc.toNat + k) % 8192))) with detail := if lost then 0 else 1 }
      (d.core c).arch.pc false := by
  cases lost <;> simp only [Dev.fetchError, runs, idle, Option.isNone_none, Bool.and_self, if_true, read, Bool.false_eq_true, if_false]

end

/-- Settles O17: each command by the trap it takes, and a trap at TK by what the entry of its handler leaves. -/
theorem bundleFaults : Obligations.BundleFaults := by
  unfold Obligations.BundleFaults
  intro s c x runs idle _
  refine ⟨fun d' ws detail bf fetched illegal => ?_, fun k d' lost => ?_, fun d t pc level fault => ?_⟩
  · exact (gives_iff_of_exec (exec_illegalBundle c s)).2 (Dev.illegalBundle_traps runs idle fetched illegal)
  · exact fun read => (gives_iff_of_exec (exec_fetchError c k s)).2 (Dev.fetchError_traps runs idle read)
  · exact Dev.takeTrap_entered level fault pc false

end Sys2Proof.Machine
end

section
/-! SUPPORT. Loads of words elsewhere (R118, R158, R183, R184): what a load that waits leaves in its bundle, and what its return makes of it. -/

namespace Sys2Proof.Machine

/-! ### The issue of a load -/

/-- R138, R183: an access that is made names its registers, and modifies its address. -/
theorem Bundle.note_postModify (bu : Bundle) (dest : List Nat) (x : Arch) (m : Addr) (size : Nat) :
    (bu.note dest).postModify x m size true = { bu with writes := bu.writes ++ accessNames dest m, next := bu.next.modified x m size } := by
  by_cases h : m.pm = true <;> simp [Bundle.postModify, accessNames, Arch.modified, h, Bundle.note, Bundle.withNext]

/-- A narrow access that names a word has its predicate on, so every access that is made modifies its address (R139). -/
theorem accessUnits_modifies {x : Arch} {b : Bnd} {vec : Bool} {n : Nat} (h : accessUnits x b vec n ≠ []) :
    (vec || laneOn (x.rP b.pred.val) 0) = true := by
  obtain ⟨i, hi⟩ := List.exists_mem_of_ne_nil _ h
  have on := (List.mem_filter.1 hi).2
  cases vec with
  | true => rfl
  | false => simpa using on

/-- R118: the words of the host window among those of a load, asked for if the function may. -/
def Dev.asks (d : Dev) (f : Nat) (addrs : List Nat) : List Out :=
  (addrs.filter (fun w => bitOf w 53 && d.jfe.busMaster.getLsbD f)).map (fun w => Out.read f (w % 2 ^ 53) 8)

theorem Dev.each_asks (d : Dev) (f : Nat) (addrs : List Nat) :
    d.each addrs (fun d w => if bitOf w 53 && d.jfe.busMaster.getLsbD f then d.send (.read f (w % 2 ^ 53) 8) else d) =
      { d with out := d.out ++ d.asks f addrs } := by
  induction addrs generalizing d with
  | nil => simp [Dev.each, Dev.asks]
  | cons w ws ih =>
    rw [Dev.each, List.foldl_cons, ← Dev.each]
    by_cases h : (bitOf w 53 && d.jfe.busMaster.getLsbD f) = true
    · rw [if_pos h, ih]
      simp [Dev.send, Dev.asks, h]
    · rw [if_neg h, ih]
      simp [Dev.asks, h]

/-- An operation that a core takes stages the bundle its function makes, on the device its function leaves. -/
theorem Dev.opWith_stages {d d' : Dev} {b : Bnd} {f : Dev → Core → Bundle → Option (Dev × Bundle)} {n : Bundle} (h : d.takes b = true)
    (hf : f d (d.core b.core.val) (d.core b.core.val).current = some (d', n)) :
    d.opWith b f = d'.stageFrom b (d.core b.core.val).current n := by
  simp only [Dev.takes] at h
  simp only [Dev.opWith, h, if_true, hf, Dev.stageFrom]

section
variable {d : Dev} {b : Bnd} {m : Addr} {size n : Nat} {vec : Bool}

/-- The words an access of core b.core touches (R148, R151). -/
def Dev.addressed (d : Dev) (b : Bnd) (m : Addr) (size n : Nat) (vec : Bool) : List Nat :=
  (d.accessWords (d.core b.core.val).arch b m size n vec).map (·.1)

/-- R158: does an access lie in the own data memory of core b.core? -/
def Dev.ownAccess (d : Dev) (b : Bnd) (m : Addr) (size n : Nat) (vec : Bool) : Bool :=
  m.g.val == 0 && (d.addressed b m size n vec).all (d.inOwnData b.core.val)

/-- R160: does a buffered store of the core touch one of the words? -/
def Core.touches (x : Core) (addrs : List Nat) : Bool := x.buffer.any (fun st => st.any (fun w => addrs.contains w.addr))

/-- R158: the bundle of a load that waits for words elsewhere. -/
def Dev.waiting (d : Dev) (b : Bnd) (m : Addr) (size n : Nat) (vec : Bool) (into : Arch → Nat → LoadInto) : Bundle :=
  let x := (d.core b.core.val).arch
  let cur := (d.core b.core.val).current
  let a := x.accessAddr d.ownId m size 0
  { cur with writes := cur.writes ++ accessNames [(into x (a % 8)).name] m, next := cur.next.modified x m size,
             load := some { words := d.accessWords x b m size n vec, into := into x (a % 8), access := a } }

/-- R158: a load that may be made, of words none of which is in the core's own data memory or touched by a buffered store, waits. -/
theorem Dev.loadOp_waits (ok : d.accesses b m size n vec) (into : Arch → Nat → LoadInto) (elsewhere : d.ownAccess b m size n vec = false)
    (untouched : (d.core b.core.val).touches (d.addressed b m size n vec) = false) :
    d.loadOp b m size n vec into =
      ({ d with out := d.out ++ d.asks (d.coreFunc b.core.val) (d.addressed b m size n vec) } : Dev).stageFrom b (d.core b.core.val).current
        (d.waiting b m size n vec into) := by
  obtain ⟨takes, units, traps, open_⟩ := ok
  rw [← Dev.each_asks, Dev.loadOp]
  apply Dev.opWith_stages takes
  have sound : ¬(!(d.accessTraps (d.core b.core.val).arch m size (accessUnits (d.core b.core.val).arch b vec n)).isEmpty) = true := by simp [traps]
  have goes : ¬((d.core b.core.val).fence || (d.ownAccess b m size n vec && d.cxHolds b.core.val (d.addressed b m size n vec)) ||
      ((d.core b.core.val).touches (d.addressed b m size n vec) && !(d.core b.core.val).covered (d.addressed b m size n vec))) = true := by
    simp [open_, elsewhere, untouched]
  have waits : ¬(d.ownAccess b m size n vec || (d.core b.core.val).touches (d.addressed b m size n vec)) = true := by
    simp [elsewhere, untouched]
  refine (if_neg (fun h => units (List.isEmpty_iff.1 h))).trans ((if_neg sound).trans ((if_neg goes).trans ((if_neg waits).trans ?_)))
  rw [accessUnits_modifies units, Bundle.note_postModify]
  rfl

end

theorem loadsLater_of_exec {c : Instr} {s : State} {b : Bnd} {m : Addr} {size n : Nat} {vec : Bool} {dest : Arch → Nat} {into : Arch → Nat → LoadInto}
    (h : exec c s = s.onDev (fun d => d.loadOp b m size n vec into)) (name : ∀ x lo, (into x lo).name = dest x) :
    LoadsLater c s b m size n vec dest into := by
  intro ok elsewhere untouched
  rw [gives_iff_of_exec h, Dev.loadOp_waits ok into elsewhere untouched, Dev.waiting, name]
  rfl

/-! ### The return of a load -/

/-- LOAD_RETURN takes one word of a load, with what the words before it brought. -/
def Dev.takeWord (c access : Nat) (s : Dev × List (Nat × Word) × List Trap × List Ext) (w : Nat × Nat) :
    Dev × List (Nat × Word) × List Trap × List Ext :=
  match s.1.loadOuter c w.1 s.2.2.2 with
  | (d, .data v, es) => (d, s.2.1 ++ [(w.2, v)], s.2.2.1, es)
  | (d, g, es) => (d, s.2.1, s.2.2.1 ++ (loadTrap g access w.1).toList, es)

theorem Dev.loadReturn_eq {d : Dev} {c : Nat} {bu : Bundle} {l : PendingLoad} (bundle : (d.core c).bundle = some bu) (load : bu.load = some l)
    (ext : List Ext) :
    d.loadReturn c ext =
      (let r := l.words.foldl (Dev.takeWord c l.access) (d, [], [], ext)
       let done := { bu with load := none }
       let n := if r.2.2.1.isEmpty then done.withNext (l.into.apply r.2.1) else { done with traps := done.traps ++ r.2.2.1 }
       (r.1.onCore c (fun x => { x with bundle := some n })).tryCommit c) := by
  simp only [Dev.loadReturn, bundle, load]
  rfl

theorem Brings.foldl_takeWord {d d' : Dev} {c : Nat} {ws : List (Nat × Nat)} {ext : List Ext} {vals : List (Nat × Word)}
    (h : Brings d c ws ext d' vals) (access : Nat) (before : List (Nat × Word)) (traps : List Trap) :
    ∃ es, ws.foldl (Dev.takeWord c access) (d, before, traps, ext) = (d', before ++ vals, traps, es) := by
  induction ws generalizing d ext vals before with
  | nil =>
    obtain ⟨rfl, rfl⟩ := h
    exact ⟨ext, by simp⟩
  | cons w ws ih =>
    obtain ⟨d1, v, es, vs, first, rest, rfl⟩ := h
    obtain ⟨fs, all⟩ := ih rest (before ++ [(w.2, v)])
    refine ⟨fs, ?_⟩
    rw [List.foldl_cons, Dev.takeWord, first]
    simpa using all

/-- R118, R158: a load whose words all come back whole writes its register and is done. -/
theorem Dev.loadReturn_brings {d d' : Dev} {c : Nat} {ext : List Ext} {bu : Bundle} {l : PendingLoad} {vals : List (Nat × Word)}
    (bundle : (d.core c).bundle = some bu) (load : bu.load = some l) (h : Brings d c l.words ext d' vals) :
    d.loadReturn c ext =
      (d'.onCore c (fun x => { x with bundle := some { bu with load := none, next := l.into.apply vals bu.next } })).tryCommit c := by
  obtain ⟨es, all⟩ := h.foldl_takeWord l.access [] []
  rw [Dev.loadReturn_eq bundle load, all]
  rfl

theorem exec_loadReturn (c : Fin 104) (ext : List Ext) (s : State) : exec (.loadReturn c ext) s = s.onDev (fun d => d.loadReturn c.val ext) := rfl

/-- Settles O7: each load waits as `Dev.loadOp_waits` says, and its return is a fold over its words. -/
theorem loadsFromElsewhere : Obligations.LoadsFromElsewhere := by
  unfold Obligations.LoadsFromElsewhere
  intro s b v r q m
  have vector {c : Instr} {n : Nat}
      (h : exec c s = s.onDev (fun d => d.loadOp b m 8 n true (fun x _ => .v (x.phys v.val) (x.rP b.pred.val)))) :
      LoadsLater c s b m 8 n true (fun x => nameV (x.phys v.val)) (fun x _ => .v (x.phys v.val) (x.rP b.pred.val)) :=
    loadsLater_of_exec h (fun _ _ => rfl)
  have narrow {c : Instr} {size : Nat} {t : Nat → LoadInto} (h : exec c s = s.onDev (fun d => d.loadOp b m size 1 false (fun _ lo => t lo)))
      (name : ∀ lo, (t lo).name = nameS r.val) : LoadsLater c s b m size 1 false (fun _ => nameS r.val) (fun _ lo => t lo) :=
    loadsLater_of_exec h (fun _ => name)
  refine ⟨vector rfl, vector rfl, vector rfl, vector rfl, narrow rfl (fun _ => rfl), narrow rfl (fun _ => rfl), narrow rfl (fun _ => rfl),
    narrow rfl (fun _ => rfl), narrow rfl (fun _ => rfl), narrow rfl (fun _ => rfl), narrow rfl (fun _ => rfl), narrow rfl (fun _ => rfl),
    narrow rfl (fun _ => rfl), narrow rfl (fun _ => rfl), narrow rfl (fun _ => rfl), narrow rfl (fun _ => rfl),
    loadsLater_of_exec rfl (fun _ _ => rfl), fun c ext bu l d' vals bundle load h => ?_⟩
  exact (gives_iff_of_exec (exec_loadReturn c ext s)).2 (Dev.loadReturn_brings bundle load h)

end Sys2Proof.Machine
end

section
/-! SUPPORT. What the memory system does of itself (R117, R123–R127, R131): scrubbing, tracking, hourly counts, injection and soft repair. -/

namespace Sys2Proof.Machine

theorem exec_trackerEntryExpiry (n : Fin 197) (w : Nat) (s : State) : exec (.trackerEntryExpiry n w) s = s.onDev (trackerExpiry n.val w) := rfl
theorem exec_scrubOnChip (s : State) : exec (.scrubRead false) s = s.onDev scrubOnChip := rfl
theorem exec_scrubHbm (s : State) : exec (.scrubRead true) s = s.onDev scrubHbm := rfl
theorem exec_corrHourEnd (s : State) : exec .corrHourEnd s = s.onDev corrHourEnd := rfl
theorem exec_memInjectArm (who : Accessor) (s : State) :
    exec (.memInjectArm who) s = s.onDev (fun d => d.secureOnly who Reg.MEM_INJECT_ARMED.off injectArm) := rfl
theorem exec_hbmRepairComplete (i : Fin 2) (pc : Fin 32) (left : BitVec 8) (s : State) :
    exec (.hbmRepairComplete i pc left) s = s.onDev (hbmRepairComplete i.val pc.val left.toNat) := rfl

/-! ### The controllers' own state -/

@[simp] theorem Dev.get_onRam (d : Dev) (g : MemState → MemState) (f : Fld) : (d.onRam g).get f = d.get f := rfl
@[simp] theorem Dev.on_onRam (d : Dev) (g : MemState → MemState) (f : Fld) : (d.onRam g).on f = d.on f := rfl
@[simp] theorem Dev.raw_onRam (d : Dev) (g : MemState → MemState) (w : Nat) : (d.onRam g).raw w = d.raw w := rfl
@[simp] theorem Dev.get_raiseWorld (d : Dev) (n : Nat) (w : Bool) (f : Fld) : (d.raiseWorld n w).get f = d.get f := rfl
@[simp] theorem Dev.on_raiseWorld (d : Dev) (n : Nat) (w : Bool) (f : Fld) : (d.raiseWorld n w).on f = d.on f := rfl
@[simp] theorem Dev.get_setRaw (d : Dev) (w v : Nat) (f : Fld) : (d.setRaw w v).get f = d.get f := rfl

theorem Dev.relevel_mem (d : Dev) (n : Nat) : (d.relevel n).mem = d.mem := (d.relevel_only n).mem_eq

theorem OnlyRegs.ram_eq {d e : Dev} (h : OnlyRegs d e) : e.ram = d.ram := by
  obtain ⟨_, _, rfl⟩ := h
  rfl

@[simp] theorem Dev.tracker_setTracker (d : Dev) (n : Nat) (ts : List Track) : (d.setTracker n ts).tracker n = ts := lookup_update_self _ _ _ _

/-- Correcting words in place changes memory alone. -/
def OnlyWords (d e : Dev) : Prop := ∃ m, e = { d with mem := m }

theorem OnlyWords.refl (d : Dev) : OnlyWords d d := ⟨d.mem, rfl⟩

theorem OnlyWords.trans {d e f : Dev} (h : OnlyWords d e) (g : OnlyWords e f) : OnlyWords d f := by
  obtain ⟨_, rfl⟩ := h
  obtain ⟨m, rfl⟩ := g
  exact ⟨m, rfl⟩

theorem OnlyWords.ram_eq {d e : Dev} (h : OnlyWords d e) : e.ram = d.ram := by
  obtain ⟨_, rfl⟩ := h
  rfl

theorem OnlyWords.regs_eq {d e : Dev} (h : OnlyWords d e) : e.regs = d.regs := by
  obtain ⟨_, rfl⟩ := h
  rfl

theorem Dev.correctInPlace_words (d : Dev) (w : Nat) : OnlyWords d (d.correctInPlace w) := by
  unfold Dev.correctInPlace
  split
  · exact ⟨_, rfl⟩
  · exact .refl d

theorem Dev.each_correctInPlace_words (d : Dev) (ws : List Nat) : OnlyWords d (d.each ws Dev.correctInPlace) :=
  Dev.each_rel OnlyWords.refl OnlyWords.trans Dev.correctInPlace_words ws d

theorem Dev.correctInPlace_corrected {d : Dev} {w : Nat} {v : Word} (h : classify (d.raw w) = .corrected v) :
    d.correctInPlace w = d.setRaw w (encodeWord v) := by rw [Dev.correctInPlace, h]

/-! ### Trackers (R123) -/

theorem trackerExpiry_due {d : Dev} {n w : Nat} {t : Track} (mem : t ∈ d.tracker n) (word : t.word = w) (due : dayUnits ≤ (d.now - t.time).toNat) :
    trackerExpiry n w d = d.setTracker n ((d.tracker n).filter (fun t => t.word != w)) :=
  if_pos (List.any_eq_true.2 ⟨t, mem, Bool.and_eq_true_iff.2 ⟨beq_iff_eq.2 word, decide_eq_true due⟩⟩)

theorem trackerExpiry_early {d : Dev} {n w : Nat} (h : ∀ t ∈ d.tracker n, t.word = w → (d.now - t.time).toNat < dayUnits) :
    trackerExpiry n w d = d := by
  refine if_neg (fun found => ?_)
  obtain ⟨t, mem, due⟩ := List.any_eq_true.1 found
  simp only [Bool.and_eq_true, beq_iff_eq, decide_eq_true_eq] at due
  exact absurd (h t mem due.1) (Nat.not_lt.2 due.2)

/-- The device once a correction at word w has been counted (R131). -/
def Dev.countCorrection (d : Dev) (r : Region) : Dev :=
  ((d.bump Reg.MEM_TOTAL_CORR).bump (Reg.MEM_CTRL_CORR r.ctrl)).onRam (fun m =>
    { m with hourCount := update (fun _ => 0) m.hourCount r.ctrl (lookup (fun _ => 0) m.hourCount r.ctrl + 1) })

/-- A new entry for word w beside those that `makeRoom` left; the second part says whether it gave one up. -/
def Dev.newEntry (d : Dev) (r : Region) (w : Nat) (scrub : Bool) (now : ShortTime) (room : List Track × Bool) : Dev :=
  let e := d.setTracker r.ctrl (⟨w, scrub, now⟩ :: room.1)
  let f := if room.2 then (e.set Reg.MEM_ATTN_OVERFLOW 1).memEvent 0x784 (e.secureWord r w) else e
  if scrub then f.correctInPlace w else f

theorem Dev.trackCorrection_untracked {d : Dev} {r : Region} {w : Nat} (h : ∀ t ∈ d.tracker r.ctrl, t.word ≠ w) (scrub : Bool) :
    d.trackCorrection r w scrub = (d.countCorrection r).newEntry r w scrub d.now (makeRoom d.now (d.tracker r.ctrl)) := by
  have none_ : (d.tracker r.ctrl).find? (fun t => t.word == w) = none := List.find?_eq_none.2 (fun t ht => by simpa using h t ht)
  unfold Dev.trackCorrection
  dsimp only
  split
  · next t found => exact absurd (none_.symm.trans found) (by simp)
  · rfl

/-- A correction by the scrubber of a word that no entry tracks, where its tracker has room. -/
theorem Dev.trackCorrection_new {d : Dev} {r : Region} {w : Nat} (room : (d.tracker r.ctrl).length < 64)
    (fresh : ∀ t ∈ d.tracker r.ctrl, t.word ≠ w) :
    d.trackCorrection r w true = ((d.countCorrection r).setTracker r.ctrl (⟨w, true, d.now⟩ :: d.tracker r.ctrl)).correctInPlace w := by
  have fits_ : makeRoom d.now (d.tracker r.ctrl) = (d.tracker r.ctrl, false) := if_pos room
  rw [Dev.trackCorrection_untracked fresh, fits_]
  rfl

theorem Dev.countCorrection_mem (d : Dev) (r : Region) : (d.countCorrection r).mem = d.mem := rfl

theorem Dev.get_countCorrection_total (d : Dev) (r : Region) :
    (d.countCorrection r).get Reg.MEM_TOTAL_CORR = (d.get Reg.MEM_TOTAL_CORR + 1) % 2 ^ Reg.MEM_TOTAL_CORR.w := by
  have counted : (Reg.MEM_CTRL_CORR r.ctrl).Spares Reg.MEM_TOTAL_CORR :=
    .inl (by simp only [Reg.MEM_CTRL_CORR, Reg.MEM_TOTAL_CORR]; omega)
  rw [Dev.countCorrection, Dev.get_onRam, Dev.get_bump_spares _ counted, Dev.get_bump_self _ _ (by simp [Reg.MEM_TOTAL_CORR])]

theorem Dev.get_setTracker_total (d : Dev) (n : Nat) (ts : List Track) :
    (d.setTracker n ts).get Reg.MEM_TOTAL_CORR = d.get Reg.MEM_TOTAL_CORR := by
  have used : (Reg.MEM_CTRL_TRK_USED n).Spares Reg.MEM_TOTAL_CORR :=
    .inl (by simp only [Reg.MEM_CTRL_TRK_USED, Reg.MEM_TOTAL_CORR]; omega)
  rw [Dev.setTracker, Dev.get_set_spares _ _ used]
  rfl

@[simp] theorem Dev.tracker_setRaw (d : Dev) (w v n : Nat) : (d.setRaw w v).tracker n = d.tracker n := rfl

/-- What that leaves: the word corrected, its entry WRITTEN, and the correction counted (R123, R131). -/
theorem Dev.trackCorrection_corrects {d : Dev} {r : Region} {w : Nat} {v : Word} (corrected : classify (d.raw w) = .corrected v)
    (room : (d.tracker r.ctrl).length < 64) (fresh : ∀ t ∈ d.tracker r.ctrl, t.word ≠ w) :
    (d.trackCorrection r w true).raw w = encodeWord v ∧
      (d.trackCorrection r w true).tracker r.ctrl = ⟨w, true, d.now⟩ :: d.tracker r.ctrl ∧
      (d.trackCorrection r w true).get Reg.MEM_TOTAL_CORR = (d.get Reg.MEM_TOTAL_CORR + 1) % 2 ^ Reg.MEM_TOTAL_CORR.w := by
  have same : classify (((d.countCorrection r).setTracker r.ctrl (⟨w, true, d.now⟩ :: d.tracker r.ctrl)).raw w) = .corrected v := by
    rw [Dev.raw_of_mem ((Dev.setTracker_mem _ _ _).trans (d.countCorrection_mem r)), corrected]
  rw [Dev.trackCorrection_new room fresh, Dev.correctInPlace_corrected same]
  refine ⟨Dev.raw_setRaw_encodeWord _ _ _, ?_, ?_⟩
  · rw [Dev.tracker_setRaw, Dev.tracker_setTracker]
  · rw [Dev.get_setRaw, Dev.get_setTracker_total, Dev.get_countCorrection_total]

/-! ### The on-chip scrubber (R126, R127) -/

section
variable {d : Dev} {r : Region} {w : Nat}

theorem Dev.scrubWord_clean (h : classify (d.raw w) = .clean) : d.scrubWord r w = d := by rw [Dev.scrubWord, h]

theorem Dev.scrubWord_corrected {v : Word} (h : classify (d.raw w) = .corrected v) : d.scrubWord r w = d.trackCorrection r w true := by
  rw [Dev.scrubWord, h]

theorem Dev.scrubWord_poison (h : classify (d.raw w) = .poison) : d.scrubWord r w = d.bump (Reg.MEM_CTRL_POISON_SEEN r.ctrl) := by
  rw [Dev.scrubWord, h]

theorem Dev.scrubWord_uncorrectable (h : classify (d.raw w) = .uncorrectable) : d.scrubWord r w = d.detectUncorr r w 5 := by
  rw [Dev.scrubWord, h]

end

/-- Clean words are passed by. -/
theorem Dev.each_scrubWord_clean {d : Dev} {r : Region} {ws : List Nat} (h : ∀ w ∈ ws, classify (d.raw w) = .clean) :
    d.each ws (fun d w => d.scrubWord r w) = d := by
  induction ws with
  | nil => rfl
  | cons w ws ih =>
    rw [Dev.each, List.foldl_cons, Dev.scrubWord_clean (h w (by simp)), ← Dev.each]
    exact ih (fun x hx => h x (List.mem_cons_of_mem _ hx))

theorem scrubOnChip_word {d : Dev} {k : Nat} {r : Region} (on_ : d.get Reg.MEM_SCRUB_CFG_ONCHIP_H ≠ 0)
    (next : d.nextScrub d.ram.scrubWord 240 = k) (lt : k + 1 < onChipWords) (region : regionOf (8 * scrubWordAt k) = some r) :
    scrubOnChip d = (d.scrubWord r (scrubWordAt k)).onRam (fun m => { m with scrubWord := k + 1 }) := by
  have here : ¬onChipWords ≤ k := by omega
  have more : ¬onChipWords ≤ k + 1 := by omega
  simp only [scrubOnChip, if_neg on_, next, if_neg here, region, if_neg more]

theorem scrubOnChip_pass {d : Dev} (on_ : d.get Reg.MEM_SCRUB_CFG_ONCHIP_H ≠ 0) (next : d.nextScrub d.ram.scrubWord 240 = onChipWords) :
    scrubOnChip d = d.onChipPass := by
  simp only [scrubOnChip, if_neg on_, next, if_pos (le_refl onChipWords)]

theorem Dev.get_onChipPass_passes (d : Dev) : d.onChipPass.get Reg.MEM_SCRUB_STATUS_ONCHIP_PASSES =
    (d.get Reg.MEM_SCRUB_STATUS_ONCHIP_PASSES + 1) % 2 ^ Reg.MEM_SCRUB_STATUS_ONCHIP_PASSES.w := by
  rw [Dev.onChipPass, Dev.get_raiseWorld, Dev.get_onRam, Dev.get_bump_self _ _ (by simp [Reg.MEM_SCRUB_STATUS_ONCHIP_PASSES])]

/-- R117: the detection of an uncorrectable word ends with its attention bit and its event. -/
theorem Dev.detectUncorr_ends (d : Dev) (r : Region) (w reader : Nat) :
    ∃ e : Dev, d.detectUncorr r w reader = (e.set Reg.MEM_ATTN_UNCORR 1).memEvent 0x780 (d.secureWord r w) := ⟨_, rfl⟩

theorem Dev.detectUncorr_leaves (d : Dev) (r : Region) (w reader : Nat) :
    classify ((d.detectUncorr r w reader).raw w) = .poison ∧ (d.detectUncorr r w reader).on Reg.MEM_ATTN_UNCORR = true ∧
      (⟨0x780, d.secureWord r w⟩ : Occurrence) ∈ (d.detectUncorr r w reader).evt.queue := by
  obtain ⟨e, he⟩ := d.detectUncorr_ends r w reader
  refine ⟨by rw [Dev.raw_detectUncorr, classify_poisonWord], ?_⟩
  rw [he]
  exact ⟨e.on_set_self _ _ (by decide), List.mem_append_right e.evt.queue (List.mem_singleton_self _)⟩

/-! ### The patrol scrubber of HBM (R126) -/

theorem Dev.get_countRead (d : Dev) (i k : Nat) : (d.countRead (i, k)).get (Reg.HBM_STACK_PC_READ_GROUPS i (k % 32)) =
    (d.get (Reg.HBM_STACK_PC_READ_GROUPS i (k % 32)) + 1) % 2 ^ (Reg.HBM_STACK_PC_READ_GROUPS i (k % 32)).w := by
  rw [Dev.countRead, Dev.get_bump_self _ _ (by simp [Reg.HBM_STACK_PC_READ_GROUPS])]

theorem scrubHbm_group {d : Dev} (on_ : d.get Reg.MEM_SCRUB_CFG_HBM_H ≠ 0) (lt : d.ram.scrubGroup + 1 < hbmGroups)
    (live : d.get (Reg.HBM_STACK_STATE 0) = 2) (serves : d.outOfService 195 = false) :
    scrubHbm d = ((d.countRead (0, d.ram.scrubGroup)).each (upFrom (hbmBase 0 / 8 + 32 * d.ram.scrubGroup) 32) (fun d w =>
      d.scrubWord (.hbm 0) w)).onRam (fun m => { m with scrubGroup := d.ram.scrubGroup + 1 }) := by
  have here : ¬hbmGroups ≤ d.ram.scrubGroup := by omega
  have first : d.ram.scrubGroup / hbmGroups = 0 := Nat.div_eq_of_lt (by omega)
  have group : d.ram.scrubGroup % hbmGroups = d.ram.scrubGroup := Nat.mod_eq_of_lt (by omega)
  have inside : ¬2 * hbmGroups ≤ d.ram.scrubGroup := by omega
  have more : ¬2 * hbmGroups ≤ d.ram.scrubGroup + 1 := by omega
  simp [scrubHbm, on_, live, serves, here, first, group, inside, more]

/-! ### The end of an hour (R131) -/

/-- The counts of the hour shown. -/
def Dev.showHour (counts : List (Nat × Nat)) (d : Dev) (n : Nat) : Dev :=
  d.set (Reg.MEM_CTRL_CORR_HOUR n) (min (lookup (fun _ => 0) counts n) 65535)

theorem corrHourEnd_eq (d : Dev) : corrHourEnd d =
    ((d.each (upFrom 0 197) (Dev.showHour d.ram.hourCount)).onRam (fun m => { m with hourCount := [] })).relevel 0x786 := rfl

theorem Dev.get_each_showHour (counts : List (Nat × Nat)) (d : Dev) {m : Nat} (hm : m < 197) :
    (d.each (upFrom 0 197) (Dev.showHour counts)).get (Reg.MEM_CTRL_CORR_HOUR m) = min (lookup (fun _ => 0) counts m) 65535 := by
  have others (e : Dev) (n : Nat) (ne : n ≠ m) : (e.showHour counts n).get (Reg.MEM_CTRL_CORR_HOUR m) = e.get (Reg.MEM_CTRL_CORR_HOUR m) :=
    e.get_set_off _ _ _ (by simp only [Reg.MEM_CTRL_CORR_HOUR]; omega)
  obtain ⟨e, -, same⟩ := Dev.each_once (R := fun d e => e.get (Reg.MEM_CTRL_CORR_HOUR m) = d.get (Reg.MEM_CTRL_CORR_HOUR m))
    (fun _ => rfl) (fun h g => g.trans h) (upFrom_nodup 0 197) ((mem_upFrom 0 197 m).2 ⟨by omega, by omega⟩) (fun e n _ ne => others e n ne) d
  rw [same, Dev.showHour, Dev.get_set_self _ _ _ (by simp [Reg.MEM_CTRL_CORR_HOUR])]
  exact Nat.mod_eq_of_lt (lt_of_le_of_lt (Nat.min_le_right _ _) (by simp [Reg.MEM_CTRL_CORR_HOUR]))

theorem Dev.each_showHour_only (counts : List (Nat × Nat)) (d : Dev) (ns : List Nat) : OnlyRegs d (d.each ns (Dev.showHour counts)) :=
  Dev.each_rel OnlyRegs.refl OnlyRegs.trans (fun e _ => e.set_only _ _) ns d

theorem corrHourEnd_shows (d : Dev) : (corrHourEnd d).ram.hourCount = [] ∧ (corrHourEnd d).mem = d.mem ∧
    ∀ m < 197, (corrHourEnd d).get (Reg.MEM_CTRL_CORR_HOUR m) = min (lookup (fun _ => 0) d.ram.hourCount m) 65535 := by
  rw [corrHourEnd_eq]
  refine ⟨?_, ?_, fun m hm => ?_⟩
  · rw [(Dev.relevel_only _ _).ram_eq, Dev.onRam_ram]
  · rw [Dev.relevel_mem, Dev.onRam_mem, (Dev.each_showHour_only _ d _).mem_eq]
  · rw [Dev.get_relevel, Dev.get_onRam, Dev.get_each_showHour _ d hm]

/-! ### Injection (R10, R131) -/

section
variable {d : Dev} {off : Nat}

theorem Dev.secureOnly_secure (h : d.reaches .secure off = true) (f : Dev → Dev) : d.secureOnly .secure off f = f d := by
  simp [Dev.secureOnly, h]

theorem Dev.secureOnly_steward (h : d.reaches .steward off = true) (f : Dev → Dev) :
    d.secureOnly .steward off f = d.regViolation .steward off := by
  simp [Dev.secureOnly, h]

end

/-! ### Repair (R124, R125) -/

/-- A hard fault in SRAM: the row is redirected if a spare is left. -/
theorem Dev.hardFault_onChip {r : Region} (chip : ∀ j, r ≠ .hbm j) (d : Dev) (w : Nat) :
    d.hardFault r w =
      (let e := (d.bump (Reg.MEM_CTRL_HARD r.ctrl)).set Reg.MEM_ATTN_HARD 1
       if e.sparesUsed r.ctrl (r.bank w) < r.spares then
         let f := (e.each (r.rowWords (r.bank w) (r.row w)) Dev.correctInPlace).onRam (fun m =>
           { m with remapped := m.remapped ++ [(r.ctrl, r.bank w, r.row w)] })
         (f.set (Reg.MEM_CTRL_SPARES_LEFT r.ctrl) (f.sparesLeft r)).memEvent 0x782 (d.secureWord r w)
       else (e.set (Reg.MEM_CTRL_STATE r.ctrl) 2).relevel 0x783) := by
  cases r with
  | hbm j => exact absurd rfl (chip j)
  | _ => rfl

theorem Dev.hardFault_remaps {d : Dev} {r : Region} {w : Nat} (chip : ∀ j, r ≠ .hbm j) (room : d.sparesUsed r.ctrl (r.bank w) < r.spares) :
    (d.hardFault r w).ram.remapped = d.ram.remapped ++ [(r.ctrl, r.bank w, r.row w)] := by
  rw [Dev.hardFault_onChip chip]
  refine (congrArg (fun e : Dev => e.ram.remapped) (if_pos room)).trans ?_
  exact congrArg (fun m : MemState => m.remapped ++ [(r.ctrl, r.bank w, r.row w)]) (Dev.each_correctInPlace_words _ _).ram_eq

/-- The device as the first soft repair of a pseudo-channel ends (R125). -/
theorem hbmRepairComplete_found {d : Dev} {s pc : Nat} {x : Nat × Nat × Nat}
    (h : d.ram.repairs.find? (fun x => x.1 == s && x.2.1 == pc) = some x) (left : Nat) :
    hbmRepairComplete s pc left d =
      (let e := (d.onRam (fun m => { m with repairs := m.repairs.erase x })).each (dramRowWords s x.2.2) Dev.correctInPlace
       let f := (e.bump (Reg.HBM_STACK_REPAIRS s)).set (Reg.HBM_STACK_PC_REPAIRS_LEFT s pc) left
       let g := f.set (Reg.MEM_CTRL_SPARES_LEFT (195 + s)) (f.hbmSpares s)
       (g.attend (Reg.HBM_STACK_ATTN_REPAIR s) 0x789).memEvent 0x782 (g.secureWord (.hbm s) x.2.2)) := by
  rw [hbmRepairComplete, h]

/-- What the end of a soft repair shows (R96, R125, R131). -/
theorem hbmRepairComplete_shows {d : Dev} {i : Fin 2} {pc : Fin 32} {x : Nat × Nat × Nat}
    (h : d.ram.repairs.find? (fun x => x.1 == i.val && x.2.1 == pc.val) = some x) (left : BitVec 8) {e : Dev}
    (he : hbmRepairComplete i.val pc.val left.toNat d = e) :
    e.ram.repairs = d.ram.repairs.erase x ∧
      e.get (Reg.HBM_STACK_REPAIRS i) = (d.get (Reg.HBM_STACK_REPAIRS i) + 1) % 2 ^ (Reg.HBM_STACK_REPAIRS i).w ∧
      e.get (Reg.HBM_STACK_PC_REPAIRS_LEFT i pc) = left.toNat ∧ e.on (Reg.HBM_STACK_ATTN_REPAIR i) = true := by
  rw [hbmRepairComplete_found h] at he
  have words := Dev.each_correctInPlace_words (d.onRam (fun m => { m with repairs := m.repairs.erase x })) (dramRowWords i.val x.2.2)
  generalize (d.onRam (fun m => { m with repairs := m.repairs.erase x })).each (dramRowWords i.val x.2.2) Dev.correctInPlace = f at words he
  dsimp only at he
  generalize Dev.hbmSpares _ _ = spares at he
  generalize Dev.secureWord _ _ _ = secure at he
  have attention : (Reg.HBM_STACK_ATTN_REPAIR i).Spares (Reg.HBM_STACK_REPAIRS i) :=
    .inl (by simp [Reg.HBM_STACK_ATTN_REPAIR, Reg.HBM_STACK_REPAIRS])
  have attention' : (Reg.HBM_STACK_ATTN_REPAIR i).Spares (Reg.HBM_STACK_PC_REPAIRS_LEFT i pc) :=
    .inl (by simp only [Reg.HBM_STACK_ATTN_REPAIR, Reg.HBM_STACK_PC_REPAIRS_LEFT]; omega)
  have spare : (Reg.MEM_CTRL_SPARES_LEFT (195 + i)).Spares (Reg.HBM_STACK_REPAIRS i) :=
    .inl (by simp only [Reg.MEM_CTRL_SPARES_LEFT, Reg.HBM_STACK_REPAIRS]; omega)
  have spare' : (Reg.MEM_CTRL_SPARES_LEFT (195 + i)).Spares (Reg.HBM_STACK_PC_REPAIRS_LEFT i pc) :=
    .inl (by simp only [Reg.MEM_CTRL_SPARES_LEFT, Reg.HBM_STACK_PC_REPAIRS_LEFT]; omega)
  have resource : (Reg.HBM_STACK_PC_REPAIRS_LEFT i pc).Spares (Reg.HBM_STACK_REPAIRS i) :=
    .inl (by simp only [Reg.HBM_STACK_PC_REPAIRS_LEFT, Reg.HBM_STACK_REPAIRS]; omega)
  subst he
  refine ⟨?_, ?_, ?_, ?_⟩
  · rw [Dev.memEvent, Dev.raiseWorld_ram, (Dev.attend_only _ _ _).ram_eq, (Dev.set_only _ _ _).ram_eq, (Dev.set_only _ _ _).ram_eq,
      (Dev.bump_only _ _).ram_eq, words.ram_eq, Dev.onRam_ram]
  · rw [Dev.memEvent, Dev.get_raiseWorld, Dev.attend, Dev.get_relevel, Dev.get_set_spares _ _ attention, Dev.get_set_spares _ _ spare,
      Dev.get_set_spares _ _ resource, Dev.get_bump_self _ _ (by simp [Reg.HBM_STACK_REPAIRS]), Dev.get_of_regs words.regs_eq, Dev.get_onRam]
  · rw [Dev.memEvent, Dev.get_raiseWorld, Dev.attend, Dev.get_relevel, Dev.get_set_spares _ _ attention', Dev.get_set_spares _ _ spare',
      Dev.get_set_self _ _ _ (by simp [Reg.HBM_STACK_PC_REPAIRS_LEFT])]
    exact Nat.mod_eq_of_lt left.isLt
  · rw [Dev.memEvent, Dev.on_raiseWorld, Dev.on_attend, Dev.on_set_self _ _ _ (by simp [Reg.HBM_STACK_ATTN_REPAIR])]
    rfl

/-- Settles O36: each command by what it makes of the device in each of its cases. -/
theorem memoryCare : Obligations.MemoryCare := by
  unfold Obligations.MemoryCare
  intro s n w i pc left d
  refine ⟨fun t mem word due => ?_, fun early => ?_, fun off => ?_, fun off => ?_, fun k r on_ next lt region => ⟨fun clean => ?_,
    fun v corrected room fresh => ?_, fun poison => ?_, fun fresh => ?_⟩, fun on_ next => ?_, fun on_ lt live serves clean => ?_, ?_,
    fun reached => ?_, fun reached => ?_, fun x found => ?_, fun r chip room => Dev.hardFault_remaps chip room⟩
  · rw [completes_iff_of_exec (exec_trackerEntryExpiry n w s), trackerExpiry_due mem word due]
    exact ⟨Dev.tracker_setTracker _ _ _, rfl⟩
  · exact (gives_iff_of_exec (exec_trackerEntryExpiry n w s)).2 (trackerExpiry_early early)
  · exact (gives_iff_of_exec (exec_scrubOnChip s)).2 (if_pos off)
  · exact (gives_iff_of_exec (exec_scrubHbm s)).2 (if_pos off)
  · rw [completes_iff_of_exec (exec_scrubOnChip s), scrubOnChip_word on_ next lt region, Dev.scrubWord_clean clean]
    exact ⟨rfl, rfl, rfl⟩
  · rw [completes_iff_of_exec (exec_scrubOnChip s), scrubOnChip_word on_ next lt region, Dev.scrubWord_corrected corrected]
    have facts := Dev.trackCorrection_corrects corrected room fresh
    generalize d.trackCorrection r (scrubWordAt k) true = e at facts ⊢
    exact ⟨rfl, facts⟩
  · rw [completes_iff_of_exec (exec_scrubOnChip s), scrubOnChip_word on_ next lt region, Dev.scrubWord_poison poison]
    have seen := d.get_bump_self (Reg.MEM_CTRL_POISON_SEEN r.ctrl) (by simp [Reg.MEM_CTRL_POISON_SEEN])
    exact ⟨rfl, rfl, (Dev.get_onRam _ _ _).trans seen⟩
  · rw [completes_iff_of_exec (exec_scrubOnChip s), scrubOnChip_word on_ next lt region, Dev.scrubWord_uncorrectable fresh]
    obtain ⟨word, bit, event⟩ := d.detectUncorr_leaves r (scrubWordAt k) 5
    exact ⟨rfl, by rwa [Dev.raw_onRam], by rwa [Dev.on_onRam], by rwa [Dev.onRam_evt]⟩
  · rw [completes_iff_of_exec (exec_scrubOnChip s), scrubOnChip_pass on_ next]
    exact ⟨rfl, rfl, d.get_onChipPass_passes⟩
  · rw [completes_iff_of_exec (exec_scrubHbm s), scrubHbm_group on_ lt live serves, Dev.each_scrubWord_clean]
    · exact ⟨rfl, rfl, (Dev.get_onRam _ _ _).trans (d.get_countRead 0 d.ram.scrubGroup)⟩
    · intro w hw
      obtain ⟨lo, hi⟩ := (mem_upFrom _ _ _).1 hw
      obtain ⟨j, rfl⟩ := Nat.exists_eq_add_of_le lo
      exact clean j (by omega)
  · rw [completes_iff_of_exec (exec_corrHourEnd s)]
    exact corrHourEnd_shows d
  · rw [completes_iff_of_exec (exec_memInjectArm .secure s), Dev.secureOnly_secure reached]
    exact ⟨Dev.on_set_self _ _ _ (by decide), rfl⟩
  · rw [gives_iff_of_exec (exec_memInjectArm .steward s), Dev.secureOnly_steward reached]
  · rw [completes_iff_of_exec (exec_hbmRepairComplete i pc left s)]
    exact hbmRepairComplete_shows found left rfl

end Sys2Proof.Machine
end

section
/-! SUPPORT. The operations that stay within a core's registers (R137–R139): how an operation of one slot is held against its rule, and
the SCALAR and BR slots (R153, R166, R168, R186, R189). -/

namespace Sys2Proof.Machine

/-! ### The issue of an operation -/

section
variable {c : Instr} {s : State} {b : Bnd}

/-- R137, R138: an operation that neither waits nor touches the device completes as its function says. -/
theorem issues_of_op {f : Arch → Bundle → Bundle} {P : Arch → Bundle → Bundle → Prop} (h : exec c s = s.onDev (fun d => d.op b f))
    (rule : P (s.dev.core b.core.val).arch (s.dev.core b.core.val).current
      (f (s.dev.core b.core.val).arch (s.dev.core b.core.val).current)) : Issues c s b P := by
  intro takes
  refine ⟨f (s.dev.core b.core.val).arch (s.dev.core b.core.val).current, ?_, rule⟩
  rw [h, State.onDev_eq, Dev.op_takes _ _ _ takes]

/-- The same for an operation that may wait or touch the device, where it does neither. -/
theorem issues_of_opWith {f : Dev → Core → Bundle → Option (Dev × Bundle)} {P : Arch → Bundle → Bundle → Prop} {n : Bundle}
    (h : exec c s = s.onDev (fun d => d.opWith b f))
    (hf : f s.dev (s.dev.core b.core.val) (s.dev.core b.core.val).current = some (s.dev, n))
    (rule : P (s.dev.core b.core.val).arch (s.dev.core b.core.val).current n) : Issues c s b P := by
  intro takes
  refine ⟨n, ?_, rule⟩
  rw [h, State.onDev_eq, Dev.opWith_takes _ _ _ _ takes hf]

@[simp] theorem Bundle.note_nil (bu : Bundle) : bu.note [] = bu := by simp [Bundle.note]

/-- R139: an operation under bit 0 of its predicate that names no register. -/
theorem issues_marked {m : Arch → Bundle → Bundle}
    (h : exec c s = s.onDev (fun d => d.op b (fun x bu => if laneOn (x.rP b.pred.val) 0 then m x bu else bu))) :
    Issues c s b (Marked b [] m) := by
  refine issues_of_op h ?_
  unfold Marked
  rw [List.append_nil]
  rfl

/-- R139, R186: an operation of the SCALAR slot. -/
theorem scalarWritten {names : List Nat} {w : Arch → Arch → Arch} (x : Arch) (B0 : Bundle) :
    ScalarWritten b names w x B0 (B0.scalar b x names (w x)) := by
  unfold ScalarWritten Bundle.scalar laneOn
  split <;> rfl

theorem issues_scalar {names : List Nat} {g w : Arch → Arch → Arch}
    (h : exec c s = s.onDev (fun d => d.op b (fun x bu => bu.scalar b x names (g x)))) (same : ∀ x y, g x y = w x y) :
    Issues c s b (ScalarWritten b names w) := by
  obtain rfl : g = w := funext₂ same
  exact issues_of_op h (scalarWritten _ _)

theorem issues_toS {k : Fin 32} {g f : Arch → BitVec 36} (h : exec c s = s.onDev (fun d => d.toS b k g)) (same : ∀ x, g x = f x) :
    Issues c s b (ScalarWritten b [nameS k.val] (fun x y => y.wS k.val (f x))) :=
  issues_scalar (g := fun x y => y.wS k.val (g x)) h (fun x _ => congrArg _ (same x))

theorem issues_toA {k : Fin 16} {g f : Arch → BitVec 32} (h : exec c s = s.onDev (fun d => d.toA b k g)) (same : ∀ x, g x = f x) :
    Issues c s b (ScalarWritten b [nameA k.val] (fun x y => y.wA k.val (f x))) :=
  issues_scalar (g := fun x y => y.wA k.val (g x)) h (fun x _ => congrArg _ (same x))

theorem issues_toP {k : Fin 8} {g f : Arch → BitVec 32} (h : exec c s = s.onDev (fun d => d.toP b k g)) (same : ∀ x, g x = f x) :
    Issues c s b (ScalarWritten b [nameP k.val] (fun x y => y.wP k.val (f x))) :=
  issues_scalar (g := fun x y => y.wP k.val (g x)) h (fun x _ => congrArg _ (same x))

/-- R186: a compare fills its predicate register with its answer. -/
theorem issues_toFlag {p : Fin 8} {g : Arch → Bool} {f : Arch → Prop} (h : exec c s = s.onDev (fun d => d.toFlag b p g))
    (same : ∀ x, g x = true ↔ f x) :
    Issues c s b (fun x B0 B => ∃ v : BitVec 32, ((f x ∧ v = BitVec.allOnes 32) ∨ (¬f x ∧ v = 0)) ∧
      ScalarWritten b [nameP p.val] (fun _ y => y.wP p.val v) x B0 B) := by
  refine issues_of_op (f := fun x bu => bu.scalar b x [nameP p.val] (fun y => y.wP p.val (if g x then BitVec.allOnes 32 else 0))) h
    ⟨if g (s.dev.core b.core.val).arch then BitVec.allOnes 32 else 0, ?_, scalarWritten (w := fun _ y => y.wP p.val _) _ _⟩
  rw [← same]
  cases g (s.dev.core b.core.val).arch <;> simp

end

/-! ### Arithmetic of the SCALAR slot (R186) -/

theorem ofNat_add_toNat {n : Nat} (x y : BitVec n) : BitVec.ofNat n (x.toNat + y.toNat) = x + y := by
  simp [BitVec.ofNat_add]

theorem ofInt_sub_toNat {n : Nat} (x y : BitVec n) : BitVec.ofInt n ((x.toNat : Int) - y.toNat) = x - y := by
  apply BitVec.eq_of_toInt_eq
  rw [BitVec.toInt_ofInt, BitVec.toInt_sub, BitVec.toInt_eq_toNat_bmod, BitVec.toInt_eq_toNat_bmod, ← Int.sub_bmod]

theorem slt_min {n : Nat} (x y : BitVec n) : (if x.slt y then x else y) = BitVec.ofInt n (min x.toInt y.toInt) := by
  rw [BitVec.slt_eq_decide]
  by_cases h : x.toInt < y.toInt
  · simp [h, min_eq_left h.le]
  · simp [h, min_eq_right (not_lt.1 h)]

theorem slt_max {n : Nat} (x y : BitVec n) : (if x.slt y then y else x) = BitVec.ofInt n (max x.toInt y.toInt) := by
  rw [BitVec.slt_eq_decide]
  by_cases h : x.toInt < y.toInt
  · simp [h, max_eq_right h.le]
  · simp [h, max_eq_left (not_lt.1 h)]

theorem shl_eq_ofNat {n : Nat} (x : BitVec n) (k : Nat) : x <<< k = BitVec.ofNat n (x.toNat * 2 ^ k) := by
  apply BitVec.eq_of_toNat_eq
  rw [BitVec.toNat_shiftLeft, BitVec.toNat_ofNat, Nat.shiftLeft_eq]

theorem shr_eq_ofNat {n : Nat} (x : BitVec n) (k : Nat) : x >>> k = BitVec.ofNat n (x.toNat / 2 ^ k) := by
  apply BitVec.eq_of_toNat_eq
  rw [BitVec.toNat_ushiftRight, BitVec.toNat_ofNat, Nat.shiftRight_eq_div_pow,
    Nat.mod_eq_of_lt (lt_of_le_of_lt (Nat.div_le_self _ _) x.isLt)]

theorem shra_eq_ofInt {n : Nat} (x : BitVec n) (k : Nat) : x.sshiftRight k = BitVec.ofInt n (x.toInt / 2 ^ k) := by
  rw [BitVec.sshiftRight, Int.shiftRight_eq_div_pow]
  norm_cast

theorem mul_eq_ofInt {n : Nat} (x y : BitVec n) : x * y = BitVec.ofInt n (x.toInt * y.toInt) := by
  rw [BitVec.ofInt_mul, BitVec.ofInt_toInt, BitVec.ofInt_toInt]

theorem add_signExtend_eq_ofInt {n m : Nat} (x : BitVec n) (y : BitVec m) : x + y.signExtend n = BitVec.ofInt n (x.toInt + y.toInt) := by
  rw [BitVec.ofInt_add, BitVec.ofInt_toInt, BitVec.signExtend]

/-- The low half of S[y] added to an address register. -/
theorem add_setWidth_eq_ofNat (x : BitVec 32) (y : BitVec 36) : x + y.setWidth 32 = BitVec.ofNat 32 (x.toNat + y.toNat % 2 ^ 32) := by
  rw [← BitVec.toNat_setWidth, ofNat_add_toNat]

theorem beq_iff_toInt_eq {n : Nat} (x y : BitVec n) : (x == y) = true ↔ x.toInt = y.toInt := by rw [beq_iff_eq, BitVec.toInt_inj]

theorem beq_signExtend_iff (x : BitVec 36) (y : BitVec 34) : (x == y.signExtend 36) = true ↔ x.toInt = y.toInt := by
  rw [beq_iff_toInt_eq, BitVec.toInt_signExtend_of_le (by decide)]

/-- Settles O5: each operation by its arm, and its value by the arithmetic above. -/
theorem scalarOperations : Obligations.ScalarOperations := by
  unfold Obligations.ScalarOperations
  refine ⟨fun s b k x y imm n p => ?_, fun s b k n y imm p q r => ?_⟩
  · refine ⟨issues_toS rfl fun _ => (ofNat_add_toNat _ _).symm, issues_toS rfl fun _ => (ofInt_sub_toNat _ _).symm,
      issues_toS rfl fun _ => mul_eq_ofInt _ _, issues_toS rfl fun _ => slt_min _ _, issues_toS rfl fun _ => slt_max _ _,
      issues_toS rfl fun _ => rfl, issues_toS rfl fun _ => rfl, issues_toS rfl fun _ => rfl, issues_toS rfl fun _ => shl_eq_ofNat _ _,
      issues_toS rfl fun _ => shr_eq_ofNat _ _, issues_toS rfl fun _ => shra_eq_ofInt _ _, issues_toS rfl fun _ => add_signExtend_eq_ofInt _ _,
      issues_toS rfl fun _ => rfl, issues_toS rfl fun _ => shl_eq_ofNat _ _, issues_toS rfl fun _ => shr_eq_ofNat _ _,
      issues_toS rfl fun _ => shra_eq_ofInt _ _, issues_toFlag rfl fun _ => beq_iff_toInt_eq _ _, issues_toFlag rfl fun _ => BitVec.slt_iff_toInt_lt,
      issues_toFlag rfl fun _ => BitVec.ult_iff_lt, issues_toFlag rfl fun _ => beq_signExtend_iff _ _⟩
  · refine ⟨issues_toA rfl fun _ => add_setWidth_eq_ofNat _ _, issues_toA rfl fun _ => (ofNat_add_toNat _ _).symm, issues_toA rfl fun _ => by simp,
      issues_toA rfl fun _ => (BitVec.ofNat_toNat _ _).symm, issues_toS rfl fun _ => (BitVec.ofNat_toNat _ _).symm, issues_toP rfl fun _ => rfl,
      issues_toP rfl fun _ => rfl, issues_toP rfl fun _ => rfl, issues_toP rfl fun _ => rfl, issues_toP rfl fun _ => (BitVec.ofNat_toNat _ _).symm,
      issues_toS rfl fun _ => (BitVec.ofNat_toNat _ _).symm, fun x v => ⟨rfl, rfl⟩⟩

theorem levelOf_toNat (l : BitVec 2) : levelOf l.toNat = if l = 1 then .ns else if l = 2 then .ss else .tk := by
  revert l
  decide

/-- Settles O11: each operation by its arm, under bit 0 of its predicate but for RTE. -/
theorem branchesComplete : Obligations.BranchesComplete := by
  unfold Obligations.BranchesComplete
  intro s b hint target k status
  refine ⟨issues_marked rfl, ?_, issues_marked rfl, issues_marked rfl, issues_marked rfl, issues_marked rfl, issues_marked rfl, fun above => ?_,
    fun user => ?_⟩
  · exact issues_of_op rfl rfl
  · refine issues_of_op rfl ?_
    rw [if_neg above, levelOf_toNat]
    rfl
  · refine issues_of_op rfl ?_
    rw [if_pos user]
    rfl

/-! ### System registers (R144, R187, R188) -/

section
variable {s : State} {b : Bnd} {k : Fin 32} {n : Nat}

/-- The function of MFSR. -/
def Dev.mfsr (d : Dev) (b : Bnd) (k : Fin 32) (n : Nat) (core : Core) (bu : Bundle) : Option (Dev × Bundle) :=
  match d.sysRead b.core.val core n with
  | none => some (d, bu.trap illegalScalar)
  | some v =>
    let bu := bu.note [nameS k.val]
    if !laneOn (core.arch.rP b.pred.val) 0 then some (d, bu)
    else if 0x25 ≤ n ∧ core.arch.level = .tk then some (d, bu.trap (trapOf 0x02 0))
    else if n = 0x19 ∨ n = 0x1A then some (d, { bu with timeTo := some (k.val, n == 0x1A) })
    else some (d, bu.withNext (fun y => y.wS k.val (BitVec.ofNat 36 v)))

theorem exec_opMfsr (b : Bnd) (k : Fin 32) {n : Nat} (hn : n < 256) (s : State) :
    exec (.opMfsr b k (BitVec.ofNat 8 n)) s = s.onDev (fun d => d.opWith b (fun d core bu => d.mfsr b k n core bu)) := by
  have number : (BitVec.ofNat 8 n).toNat = n := by rw [BitVec.toNat_ofNat]; exact Nat.mod_eq_of_lt hn
  refine (?_ : exec (.opMfsr b k (BitVec.ofNat 8 n)) s =
    s.onDev (fun d => d.opWith b (fun d core bu => d.mfsr b k (BitVec.ofNat 8 n).toNat core bu))).trans (by rw [number])
  rfl

/-- R187: a register that MFSR may read gives its value. -/
theorem issues_mfsr {v : Nat} (hn : n < 256) (read : s.dev.sysRead b.core.val (s.dev.core b.core.val) n = some v)
    (allowed : 0x25 ≤ n → (s.dev.core b.core.val).arch.level ≠ .tk) (fixed : n ≠ 0x19 ∧ n ≠ 0x1A) :
    Issues (.opMfsr b k (BitVec.ofNat 8 n)) s b (fun _ B0 B => B = { B0 with
      writes := B0.writes ++ [nameS k.val],
      next := if ((s.dev.core b.core.val).arch.rP b.pred.val).getLsbD 0 then B0.next.wS k.val (BitVec.ofNat 36 v) else B0.next }) := by
  refine issues_of_opWith (exec_opMfsr b k hn s) (?_ : s.dev.mfsr b k n _ _ = some (s.dev, _)) rfl
  have open_ : ¬(0x25 ≤ n ∧ (s.dev.core b.core.val).arch.level = .tk) := fun h => allowed h.1 h.2
  have still : ¬(n = 0x19 ∨ n = 0x1A) := not_or.2 fixed
  unfold Dev.mfsr laneOn
  simp only [read, open_, still, if_false]
  cases ((s.dev.core b.core.val).arch.rP b.pred.val).getLsbD 0 <;> rfl

/-- R187: at TK the supervisor's registers trap. -/
theorem issues_mfsr_privilege {v : Nat} (hn : n < 256) (read : s.dev.sysRead b.core.val (s.dev.core b.core.val) n = some v)
    (refused : 0x25 ≤ n ∧ (s.dev.core b.core.val).arch.level = .tk)
    (on : ((s.dev.core b.core.val).arch.rP b.pred.val).getLsbD 0 = true) :
    Issues (.opMfsr b k (BitVec.ofNat 8 n)) s b (fun _ B0 B =>
      B = { B0 with writes := B0.writes ++ [nameS k.val], traps := B0.traps ++ [trapOf 0x02 0] }) := by
  refine issues_of_opWith (exec_opMfsr b k hn s) (?_ : s.dev.mfsr b k n _ _ = some (s.dev, _)) rfl
  unfold Dev.mfsr laneOn
  simp only [read, on, refused, and_self, if_true]
  rfl

/-- R188: TIME_LO and TIME_HI are read at commit. -/
theorem issues_mfsr_time (hi : Bool) :
    Issues (.opMfsr b k (if hi then 0x1A else 0x19)) s b (fun _ B0 B => B = { B0 with
      writes := B0.writes ++ [nameS k.val],
      timeTo := if ((s.dev.core b.core.val).arch.rP b.pred.val).getLsbD 0 then some (k.val, hi) else B0.timeTo }) := by
  have number : (if hi then 0x1A else 0x19 : BitVec 8) = BitVec.ofNat 8 (if hi then 0x1A else 0x19) := by cases hi <;> rfl
  rw [number]
  refine issues_of_opWith (exec_opMfsr b k (by cases hi <;> decide) s) (?_ : s.dev.mfsr b k _ _ _ = some (s.dev, _)) rfl
  unfold Dev.mfsr laneOn
  cases hi <;> cases ((s.dev.core b.core.val).arch.rP b.pred.val).getLsbD 0 <;> rfl

/-- The function of MTSR. -/
def mtsr (b : Bnd) (k : Fin 32) (n : Nat) (x : Arch) (bu : Bundle) : Bundle :=
  if !sysWritable n then bu.trap illegalScalar
  else if !laneOn (x.rP b.pred.val) 0 then bu.note [nameSys n]
  else if 0x20 ≤ n ∧ x.level = .tk then (bu.note [nameSys n]).trap (trapOf 0x02 0)
  else (bu.note [nameSys n]).sysWrite n (x.rS k.val)

theorem exec_opMtsr (b : Bnd) (k : Fin 32) {n : Nat} (hn : n < 256) (s : State) :
    exec (.opMtsr b k (BitVec.ofNat 8 n)) s = s.onDev (fun d => d.op b (fun x bu => mtsr b k n x bu)) := by
  have number : (BitVec.ofNat 8 n).toNat = n := by rw [BitVec.toNat_ofNat]; exact Nat.mod_eq_of_lt hn
  refine (?_ : exec (.opMtsr b k (BitVec.ofNat 8 n)) s =
    s.onDev (fun d => d.op b (fun x bu => mtsr b k (BitVec.ofNat 8 n).toNat x bu))).trans (by rw [number])
  rfl

/-- R187: a register that MTSR may write takes its value, as `sysWrite` says. -/
theorem issues_mtsr {f : Bundle → Bundle} (hn : n < 256) (writable : sysWritable n = true)
    (allowed : 0x20 ≤ n → (s.dev.core b.core.val).arch.level ≠ .tk)
    (same : ∀ B : Bundle, B.sysWrite n ((s.dev.core b.core.val).arch.rS k.val) = f B) :
    Issues (.opMtsr b k (BitVec.ofNat 8 n)) s b (Marked b [nameSys n] (fun _ B => f B)) := by
  refine issues_of_op (exec_opMtsr b k hn s) ?_
  have open_ : ¬(0x20 ≤ n ∧ (s.dev.core b.core.val).arch.level = .tk) := fun h => allowed h.1 h.2
  unfold mtsr Marked laneOn
  simp only [writable, open_, if_false, same]
  cases ((s.dev.core b.core.val).arch.rP b.pred.val).getLsbD 0 <;> rfl

/-- R187: at TK a write of a supervisor's register traps. -/
theorem issues_mtsr_privilege (hn : n < 256) (writable : sysWritable n = true)
    (refused : 0x20 ≤ n ∧ (s.dev.core b.core.val).arch.level = .tk) :
    Issues (.opMtsr b k (BitVec.ofNat 8 n)) s b
      (Marked b [nameSys n] (fun _ B => { B with traps := B.traps ++ [trapOf 0x02 0] })) := by
  refine issues_of_op (exec_opMtsr b k hn s) ?_
  unfold mtsr Marked laneOn
  simp only [writable, refused, and_self, if_true]
  cases ((s.dev.core b.core.val).arch.rP b.pred.val).getLsbD 0 <;> rfl

end

theorem append_eq_ofNat {m n : Nat} (hi : BitVec m) (lo : BitVec n) : hi ++ lo = BitVec.ofNat (m + n) (hi.toNat * 2 ^ n + lo.toNat) := by
  apply BitVec.eq_of_toNat_eq
  have fits : hi.toNat * 2 ^ n + lo.toNat < 2 ^ (m + n) := by
    rw [Nat.mul_comm, Nat.add_comm, Nat.add_comm m]
    exact add_mul_lt_pow _ _ _ _ lo.isLt hi.isLt
  rw [BitVec.toNat_append, ← Nat.shiftLeft_add_eq_or_of_lt lo.isLt, Nat.shiftLeft_eq, BitVec.toNat_ofNat, Nat.mod_eq_of_lt fits]

/-- R187: the halves of TRAP_ADDR. -/
theorem trapAddr_low (y : BitVec 56) (v : BitVec 36) :
    (y.extractLsb' 32 24 ++ v.setWidth 32).setWidth 56 = BitVec.ofNat 56 (y.toNat / 2 ^ 32 * 2 ^ 32 + v.toNat % 2 ^ 32) := by
  have h : y.toNat / 2 ^ 32 < 2 ^ 24 := by have := y.isLt; omega
  rw [append_eq_ofNat, BitVec.setWidth_eq, BitVec.extractLsb'_toNat, BitVec.toNat_setWidth, Nat.shiftRight_eq_div_pow, Nat.mod_eq_of_lt h]

theorem trapAddr_high (y : BitVec 56) (v : BitVec 36) :
    (v.setWidth 24 ++ y.extractLsb' 0 32).setWidth 56 = BitVec.ofNat 56 (v.toNat % 2 ^ 24 * 2 ^ 32 + y.toNat % 2 ^ 32) := by
  rw [append_eq_ofNat, BitVec.setWidth_eq, BitVec.extractLsb'_toNat, BitVec.toNat_setWidth, Nat.shiftRight_zero]

theorem Dev.sysRead_seg (d : Dev) (c : Nat) (x : Core) (j : Fin 4) (h : j.val ≠ 0) :
    d.sysRead c x (0x0C + j.val) = some (lookup (fun _ => (0 : BitVec 24)) x.arch.seg j.val).toNat := by
  fin_cases j
  · exact absurd rfl h
  all_goals rfl

theorem Dev.sysRead_scratch (d : Dev) (c : Nat) (x : Core) (j : Fin 4) :
    d.sysRead c x (0x28 + j.val) = some (lookup (fun _ => (0 : BitVec 36)) x.arch.scratch j.val).toNat := by
  fin_cases j <;> rfl

theorem Bundle.sysWrite_seg (j : Fin 4) (h : j.val ≠ 0) (v : BitVec 36) (B : Bundle) :
    B.sysWrite (0x0C + j.val) v = B.withNext (fun y => { y with seg := update (fun _ => 0) y.seg j.val (v.setWidth 24) }) := by
  fin_cases j
  · exact absurd rfl h
  all_goals rfl

theorem Bundle.sysWrite_scratch (j : Fin 4) (v : BitVec 36) (B : Bundle) :
    B.sysWrite (0x28 + j.val) v = B.withNext (fun y => { y with scratch := update (fun _ => 0) y.scratch j.val v }) := by
  fin_cases j <;> rfl

theorem Bundle.sysWrite_cbLen (j : Fin 4) (v : BitVec 36) (B : Bundle) :
    B.sysWrite (4 + j.val) v = B.withNext (fun y => { y with cbLen := update (fun _ => 0) y.cbLen j.val (v.setWidth 32) }) := by
  fin_cases j <;> rfl

/-- R187: STG holds 1 to 4. -/
theorem Bundle.sysWrite_stg (v : BitVec 36) (B : Bundle) :
    B.sysWrite 0x0B v = B.withNext (fun y => { y with stg := if 1 ≤ v.toNat % 8 ∧ v.toNat % 8 ≤ 4 then v.setWidth 3 else 4 }) := by
  have value : BitVec.ofNat 3 (if 1 ≤ v.toNat % 8 ∧ v.toNat % 8 ≤ 4 then v.toNat % 8 else 4) =
      if 1 ≤ v.toNat % 8 ∧ v.toNat % 8 ≤ 4 then v.setWidth 3 else 4 := by
    split
    · apply BitVec.eq_of_toNat_eq
      rw [BitVec.toNat_ofNat, BitVec.toNat_setWidth, Nat.mod_mod]
    · rfl
  rw [← value]
  rfl

theorem Bundle.sysWrite_trapAddr_low (v : BitVec 36) (B : Bundle) :
    B.sysWrite 0x23 v = B.withNext (fun y =>
      { y with trapAddr := BitVec.ofNat 56 (y.trapAddr.toNat / 2 ^ 32 * 2 ^ 32 + v.toNat % 2 ^ 32) }) := by
  simp only [← trapAddr_low]
  rfl

theorem Bundle.sysWrite_trapAddr_high (v : BitVec 36) (B : Bundle) :
    B.sysWrite 0x24 v = B.withNext (fun y =>
      { y with trapAddr := BitVec.ofNat 56 (v.toNat % 2 ^ 24 * 2 ^ 32 + y.trapAddr.toNat % 2 ^ 32) }) := by
  simp only [← trapAddr_high]
  rfl

/-- Settles O10: MFSR by the value `sysRead` gives and MTSR by what `sysWrite` writes, register by register. -/
theorem systemRegisters : Obligations.SystemRegisters := by
  unfold Obligations.SystemRegisters
  refine ⟨fun s b k j => ?_, fun s b k j => ?_⟩
  · have low {n v : Nat} (hn : n < 0x25) (fixed : n ≠ 0x19 ∧ n ≠ 0x1A)
        (read : s.dev.sysRead b.core.val (s.dev.core b.core.val) n = some v) :=
      issues_mfsr (b := b) (k := k) (by omega) read (by omega) fixed
    have lt := j.isLt
    refine ⟨low (by omega) (by omega) ?_, low (by omega) (by omega) ?_, low (by decide) (by decide) rfl, low (by decide) (by decide) rfl,
      low (by decide) (by decide) rfl, low (by decide) (by decide) rfl, low (by decide) (by decide) rfl, fun j0 => low (by omega) (by omega) ?_,
      low (by decide) (by decide) rfl, low (by decide) (by decide) rfl, low (by decide) (by decide) rfl, low (by decide) (by decide) rfl,
      low (by decide) (by decide) rfl, low (by decide) (by decide) rfl, low (by decide) (by decide) rfl, low (by decide) (by decide) rfl,
      low (by decide) (by decide) rfl, low (by decide) (by decide) rfl, low (by decide) (by decide) rfl, low (by decide) (by decide) rfl,
      fun above => ⟨issues_mfsr (by decide) rfl (fun _ => above) (by decide),
        issues_mfsr (by omega) (Dev.sysRead_scratch _ _ _ j) (fun _ => above) (by omega)⟩,
      fun user on n hn => ?_, issues_mfsr_time⟩
    · exact if_pos lt
    · refine (if_neg (by omega)).trans ((if_pos (by omega)).trans ?_)
      rw [Nat.add_sub_cancel_left]
    · exact Dev.sysRead_seg _ _ _ j j0
    · obtain rfl | rfl : n = 0x25 ∨ n = 0x28 + j.val := by simpa using hn
      · exact issues_mfsr_privilege (by decide) rfl ⟨by decide, user⟩ on
      · exact issues_mfsr_privilege (by omega) (Dev.sysRead_scratch _ _ _ j) ⟨by omega, user⟩ on
  · have low {n : Nat} {f : Bundle → Bundle} (hn : n < 0x20) (writable : sysWritable n = true)
        (same : ∀ B : Bundle, B.sysWrite n ((s.dev.core b.core.val).arch.rS k.val) = f B) :=
      issues_mtsr (s := s) (b := b) (k := k) (by omega) writable (by omega) same
    have lt := j.isLt
    have high {n : Nat} {f : Bundle → Bundle} (above : (s.dev.core b.core.val).arch.level ≠ .tk) (hn : n < 0x2C) (writable : sysWritable n = true)
        (same : ∀ B : Bundle, B.sysWrite n ((s.dev.core b.core.val).arch.rS k.val) = f B) :=
      issues_mtsr (s := s) (b := b) (k := k) (by omega) writable (fun _ => above) same
    have writable {n : Nat} (h : n ≤ 7 ∨ 0x0D ≤ n ∧ n ≤ 0x0F ∨ 0x20 ≤ n ∧ n ≤ 0x25 ∨ 0x28 ≤ n ∧ n ≤ 0x2B) :
        sysWritable n = true := by
      simp only [sysWritable, Bool.or_eq_true, Bool.and_eq_true, decide_eq_true_eq]
      omega
    refine ⟨low (by omega) (writable (by omega)) fun _ => if_pos lt, low (by omega) (writable (by omega)) (Bundle.sysWrite_cbLen j _),
      low (by decide) rfl fun _ => rfl, low (by decide) rfl fun _ => rfl, low (by decide) rfl fun _ => rfl,
      low (by decide) rfl (Bundle.sysWrite_stg _), fun j0 => low (by omega) (writable (by omega)) (Bundle.sysWrite_seg j j0 _),
      low (by decide) rfl fun _ => rfl, low (by decide) rfl fun _ => rfl, low (by decide) rfl fun _ => rfl, low (by decide) rfl fun _ => rfl,
      fun above => ⟨high above (by decide) rfl fun _ => rfl, high above (by decide) rfl fun _ => rfl, high above (by decide) rfl fun _ => rfl,
        high above (by decide) rfl (Bundle.sysWrite_trapAddr_low _), high above (by decide) rfl (Bundle.sysWrite_trapAddr_high _),
        high above (by decide) rfl fun _ => rfl, high above (by omega) (writable (by omega)) (Bundle.sysWrite_scratch j _)⟩,
      fun user n hn => ?_⟩
    simp only [List.mem_cons, List.not_mem_nil, or_false] at hn
    exact issues_mtsr_privilege (by omega) (writable (by omega)) ⟨by omega, user⟩

/-! ### Loops (R153) -/

/-- R153: the value of stage predicate j for TRIPS, STG and PASS. -/
def stageBits (trips : BitVec 32) (stg : Nat) (pass : BitVec 32) (j : Nat) : BitVec 32 :=
  if j < stg ∧ j ≤ pass.toNat ∧ pass.toNat - j < trips.toNat then BitVec.allOnes 32 else 0

/-- R153: the stage predicates P[4..7] put. -/
def Arch.staged (y : Arch) (trips : BitVec 32) (stg : Nat) (pass : BitVec 32) : Arch :=
  (((y.wP 4 (stageBits trips stg pass 0)).wP 5 (stageBits trips stg pass 1)).wP 6 (stageBits trips stg pass 2)).wP 7
    (stageBits trips stg pass 3)

theorem Arch.stageOn_bits (x : Arch) (j : Nat) :
    (if x.stageOn j then BitVec.allOnes 32 else 0) = stageBits x.trips x.stg.toNat x.pass j := by
  simp only [Arch.stageOn, stageBits, Bool.and_eq_true, decide_eq_true_eq, and_assoc]

/-- Writing a predicate leaves TRIPS, STG and PASS, so each stage predicate is that of the same pass. -/
theorem Arch.setStages_eq (x : Arch) : x.setStages = x.staged x.trips x.stg.toNat x.pass := by
  unfold Arch.setStages Arch.staged
  simp only [Arch.stageOn_bits]

theorem Issues.mono {c : Instr} {s : State} {b : Bnd} {P Q : Arch → Bundle → Bundle → Prop} (h : Issues c s b P)
    (imp : ∀ x B0 B, P x B0 B → Q x B0 B) : Issues c s b Q := by
  intro takes
  obtain ⟨B, runs, rule⟩ := h takes
  exact ⟨B, runs, imp _ _ _ rule⟩

/-- R153, R186: LOOPSET by its count. -/
theorem issues_loopset (s : State) (b : Bnd) (stages : Fin 4) (n : Count) : Issues (.opLoopset b stages n) s b
    (ScalarWritten b [nameSys 8, nameSys 9, nameSys 11, nameP 4, nameP 5, nameP 6, nameP 7] (fun x y =>
      ({ y with trips := x.count n, pass := 0, stg := BitVec.ofNat 3 (stages.val + 1) } : Arch).staged (x.count n) (stages.val + 1) 0)) := by
  have count : (BitVec.ofNat 3 (stages.val + 1)).toNat = stages.val + 1 := by
    rw [BitVec.toNat_ofNat]
    omega
  refine issues_scalar (g := fun x y =>
    ({ y with trips := x.count n, pass := 0, stg := BitVec.ofNat 3 (stages.val + 1) } : Arch).setStages) rfl fun x y => ?_
  rw [Arch.setStages_eq, count]

/-- R153: an MTSR to TRIPS, PASS or STG writes that register alone. -/
theorem Bundle.sysWrite_loop {n : Nat} (h : n ∈ [0x08, 0x09, 0x0B]) (v : BitVec 36) (B : Bundle) :
    (B.sysWrite n v).next.p = B.next.p ∧ (B.sysWrite n v).next.rot = B.next.rot ∧ (B.sysWrite n v).branch = B.branch := by
  simp only [List.mem_cons, List.not_mem_nil, or_false] at h
  obtain rfl | rfl | rfl := h <;> exact ⟨rfl, rfl, rfl⟩

theorem Bundle.branch_ite (bu : Bundle) (p : Prop) [Decidable p] (target : BitVec 13) :
    (if p then { bu with branch := some target } else bu) = { bu with branch := if p then some target else bu.branch } := by
  split <;> rfl

/-- R153: the working copy LOOPM leaves. -/
def Arch.loopm (y x : Arch) : Arch :=
  ({ y with pass := x.pass + 1, rot := x.rot + 1 } : Arch).staged x.trips x.stg.toNat (x.pass + 1)

/-- R153: LOOPM puts the stage predicates of the new pass. -/
theorem Arch.foldl_stages (y x : Arch) :
    (upFrom 0 4).foldl (fun z j => z.wP (4 + j) (if ({ x with pass := x.pass + 1 } : Arch).stageOn j then BitVec.allOnes 32 else 0))
      { y with pass := x.pass + 1, rot := x.rot + 1 } = y.loopm x := by
  simp only [Arch.stageOn_bits]
  rfl

/-- R153: LOOPM. -/
theorem issues_loopm (s : State) (b : Bnd) (target : BitVec 13) : Issues (.opLoopm b target) s b (fun x B0 B =>
    B = { B0 with writes := B0.writes ++ [nameSys 9, nameSys 10, nameP 4, nameP 5, nameP 6, nameP 7], next := B0.next.loopm x,
                  branch := if 0 < x.trips ∧ (x.pass + 1).toNat < x.trips.toNat + x.stg.toNat - 1 then some target else B0.branch }) := by
  refine issues_of_op rfl ((Bundle.branch_ite _ _ _).trans ?_)
  simp only [Bundle.withNext, Arch.foldl_stages _ (s.dev.core b.core.val).arch]
  rfl

/-- Settles O9: LOOPSET and LOOPM by the stage predicates they compute, and MTSR by the one register it writes. -/
theorem loopsComplete : Obligations.LoopsComplete := by
  unfold Obligations.LoopsComplete
  intro s b stages n k target
  refine ⟨issues_loopset s b stages _, issues_loopset s b stages _, issues_of_op rfl ?_, issues_loopm s b target, fun reg hreg => ?_⟩
  · exact Bundle.branch_ite _ _ _
  · have hn : reg < 0x20 ∧ sysWritable reg = true := by
      simp only [List.mem_cons, List.not_mem_nil, or_false] at hreg
      obtain rfl | rfl | rfl := hreg <;> decide
    refine (issues_mtsr (by omega) hn.2 (by omega) fun _ => rfl).mono fun x B0 B rule => ?_
    subst rule
    obtain ⟨p, rot, branch⟩ := Bundle.sysWrite_loop hreg ((s.dev.core b.core.val).arch.rS k.val) (B0.note [nameSys reg])
    cases on : (x.rP b.pred.val).getLsbD 0
    · exact ⟨rfl, rfl, rfl, fun _ => rfl⟩
    · exact ⟨p, rot, branch, fun off => absurd off (by simp)⟩

end Sys2Proof.Machine
end

section
/-! SUPPORT. The MAC slot (R139, R143–R147, R181) and the lane operations of the VALU slot that limit, compare or give a scalar (R182). -/

namespace Sys2Proof.Machine

/-! ### Wrapping -/

theorem wrapped_congr {n : Nat} {y z : Int} (h : y % (2 ^ n : Nat) = z % (2 ^ n : Nat)) : wrapped n y = wrapped n z := by
  have same : BitVec.ofInt n y = BitVec.ofInt n z := by
    apply BitVec.eq_of_toNat_eq
    rw [BitVec.toNat_ofInt, BitVec.toNat_ofInt, h]
  rw [wrapped, same, wrapped]

theorem Arch.rAcc_inRange (x : Arch) (a i : Nat) : inRange 48 (x.rAcc a i) := by
  have lo := BitVec.le_toInt (lookup (fun _ => (0 : BitVec 48)) x.acc (32 * a + i))
  have hi := BitVec.toInt_lt (x := lookup (fun _ => (0 : BitVec 48)) x.acc (32 * a + i))
  simp only [inRange, Arch.rAcc]
  constructor <;> norm_num at * <;> omega

/-! ### The forms of the MAC and VALU slots -/

section
variable {c : Instr} {s : State} {b : Bnd} {a : Fin 8} {v : Fin 64} {cplx : Bool} {g f : Arch → Nat → Int}

theorem issues_mac (h : exec c s = s.onDev (fun d => d.mac b a cplx g)) (same : ∀ x i, g x i = f x i) :
    Issues c s b (Accumulated b a.val cplx f) := by
  obtain rfl : g = f := funext₂ same
  exact issues_of_op h (accumulated b a cplx g _ _)

theorem AccSet.congr {a : Nat} {x : Arch} {B0 B : Bundle} (h : AccSet b a cplx g x B0 B) (same : ∀ i, wrapped 48 (g x i) = wrapped 48 (f x i)) :
    AccSet b a cplx f x B0 B := by
  unfold AccSet at h ⊢
  simpa only [same] using h

theorem issues_macSet (h : exec c s = s.onDev (fun d => d.macSet b a cplx g)) (same : ∀ x i, wrapped 48 (g x i) = wrapped 48 (f x i)) :
    Issues c s b (AccSet b a.val cplx f) :=
  issues_of_op h ((accSet b a.val cplx g _ _).congr (same _))

theorem issues_valuLim {lim : Nat → Bool} (h : exec c s = s.onDev (fun d => d.valuLim b cplx v lim g)) (same : ∀ x i, g x i = f x i) :
    Issues c s b (VectorWritten b v.val cplx lim f) := by
  obtain rfl : g = f := funext₂ same
  exact issues_of_op h (vectorWritten b v.val cplx lim g _ _)

theorem VectorWritten.congr_unlimited {v : Nat} {x : Arch} {B0 B : Bundle} (h : VectorWritten b v cplx unlimited g x B0 B)
    (same : ∀ i, wrapped 18 (g x i) = wrapped 18 (f x i)) : VectorWritten b v cplx unlimited f x B0 B := by
  unfold VectorWritten at h ⊢
  simpa only [unlimited, Bool.false_eq_true, if_false, false_and, and_false, same] using h

theorem issues_valu (h : exec c s = s.onDev (fun d => d.valu b cplx v g)) (same : ∀ x i, wrapped 18 (g x i) = wrapped 18 (f x i)) :
    Issues c s b (VectorWritten b v.val cplx unlimited f) :=
  issues_of_op h ((vectorWritten_wrap b v.val cplx g _ _).congr_unlimited (same _))

end

/-! ### Products (R181) -/

theorem prodC_eq (x y : Nat → Int) (i : Nat) :
    prodC x y i = product (x (2 * (i / 2))) (x (2 * (i / 2) + 1)) (y (2 * (i / 2))) (y (2 * (i / 2) + 1)) i := by
  unfold prodC product
  rw [Nat.mul_comm]

theorem prodJ_eq (x y : Nat → Int) (i : Nat) :
    prodJ x y i = conjProduct (x (2 * (i / 2))) (x (2 * (i / 2) + 1)) (y (2 * (i / 2))) (y (2 * (i / 2) + 1)) i := by
  unfold prodJ conjProduct
  rw [Nat.mul_comm]

theorem Arch.cplx_re (x : Arch) (k : Fin 32) (j : Nat) : x.cplx k (2 * j) = x.lo k := by simp [Arch.cplx]
theorem Arch.cplx_im (x : Arch) (k : Fin 32) (j : Nat) : x.cplx k (2 * j + 1) = x.hi k := by simp [Arch.cplx, Nat.add_mod]

theorem prodC_cplx (x : Arch) (r : Fin 64) (k : Fin 32) (i : Nat) :
    prodC (x.lanes r) (x.cplx k) i = product (x.re r i) (x.im r i) (x.lo k) (x.hi k) i := by
  rw [prodC_eq, x.cplx_re, x.cplx_im]
  rfl

theorem prodJ_cplx (x : Arch) (r : Fin 64) (k : Fin 32) (i : Nat) :
    prodJ (x.lanes r) (x.cplx k) i = conjProduct (x.re r i) (x.im r i) (x.lo k) (x.hi k) i := by
  rw [prodJ_eq, x.cplx_re, x.cplx_im]
  rfl

/-- R181: lane i ⊕ 1 is the other part of complex lane i / 2. -/
theorem prodR_pair (r : Arch) (x y : Fin 64) (i : Nat) :
    prodR (r.lanes x) (r.lanes y) (fun i => r.lanes x (pairLane i)) (fun i => r.lanes y (pairLane i)) i =
      r.re x i * r.re y i + r.im x i * r.im y i := by
  unfold prodR Arch.lanes Arch.re Arch.im pairLane
  dsimp only
  by_cases h : i % 2 = 0
  · rw [if_pos h, show 2 * (i / 2) = i by omega]
  · rw [if_neg h, show 2 * (i / 2) = i - 1 by omega, show i - 1 + 1 = i by omega, add_comm]

/-- Settles O1: each form by the products it adds. -/
theorem macAccumulates : Obligations.MacAccumulates := by
  unfold Obligations.MacAccumulates
  intro s b a x y z w k
  exact ⟨issues_mac rfl fun _ _ => prodC_eq _ _ _, issues_mac rfl fun _ _ => congrArg _ (prodC_eq _ _ _),
    issues_mac rfl fun _ _ => prodJ_eq _ _ _, issues_mac rfl fun _ _ => congrArg _ (prodJ_eq _ _ _),
    issues_mac rfl fun _ _ => prodC_cplx _ _ _ _, issues_mac rfl fun _ _ => prodJ_cplx _ _ _ _, issues_mac rfl fun _ _ => rfl,
    issues_mac rfl fun _ _ => rfl, issues_mac rfl fun _ _ => rfl, issues_mac rfl fun _ _ => rfl, issues_mac rfl fun _ _ => prodR_pair _ _ _ _⟩

/-! ### Parts of accumulators (R181) -/

theorem signed_emod (v w : Nat) : signed v w % (2 ^ w : Nat) = (v : Int) % (2 ^ w : Nat) := by
  unfold signed
  dsimp only
  split
  · rw [Int.natCast_mod, Int.emod_emod]
  · rw [Int.sub_emod, Int.emod_self, sub_zero, Int.emod_emod, Int.natCast_mod, Int.emod_emod]

theorem wrapTo_cast (w : Nat) (z : Int) : (wrapTo w z : Int) = z % (2 ^ w : Nat) := by
  have : (0 : Int) < ((2 ^ w : Nat) : Int) := by positivity
  exact Int.toNat_of_nonneg (Int.emod_nonneg z (ne_of_gt this))

theorem wrapped_signed (n v : Nat) : wrapped n (signed v n) = wrapped n v := wrapped_congr (signed_emod v n)

/-- R181: the low, middle and high part of an accumulator put, up to multiples of 2^48. -/
theorem putBits_part (l z : Int) :
    ((putBits (wrapTo 48 l) 0 18 (wrapTo 18 z) : Nat) : Int) % (2 ^ 48 : Nat) = (l - l % 2 ^ 18 + z % 2 ^ 18) % (2 ^ 48 : Nat) ∧
    ((putBits (wrapTo 48 l) 18 18 (wrapTo 18 z) : Nat) : Int) % (2 ^ 48 : Nat) =
      (l - l / 2 ^ 18 % 2 ^ 18 * 2 ^ 18 + z % 2 ^ 18 * 2 ^ 18) % (2 ^ 48 : Nat) ∧
    ((putBits (wrapTo 48 l) 36 12 (wrapTo 18 z) : Nat) : Int) % (2 ^ 48 : Nat) = (l % 2 ^ 36 + z % 2 ^ 12 * 2 ^ 36) % (2 ^ 48 : Nat) := by
  have hl := wrapTo_cast 48 l
  have hz := wrapTo_cast 18 z
  generalize wrapTo 48 l = m at hl
  generalize wrapTo 18 z = n at hz
  norm_num at hl hz
  refine ⟨?_, ?_, ?_⟩
  · norm_num [putBits, bitsOf]
    omega
  · norm_num [putBits, bitsOf]
    omega
  · norm_num [putBits, bitsOf]
    omega

/-- R181: the parts of an accumulator read as samples; the high part has 12 bits, so nothing of it is lost. -/
theorem signed_part {l : Int} (h : inRange 48 l) :
    wrapped 18 (signed (wrapTo 48 l / 2 ^ 0) 18) = wrapped 18 l ∧ wrapped 18 (signed (wrapTo 48 l / 2 ^ 18) 18) = wrapped 18 (l / 2 ^ 18) ∧
      signed (wrapTo 48 l / 2 ^ 36) 12 = l / 2 ^ 36 := by
  have hl := wrapTo_cast 48 l
  generalize wrapTo 48 l = m at hl
  norm_num at hl
  rw [Nat.pow_zero, Nat.div_one]
  refine ⟨(wrapped_signed 18 m).trans (wrapped_congr ?_), (wrapped_signed 18 _).trans (wrapped_congr ?_), ?_⟩
  · norm_num
    omega
  · norm_num
    omega
  · norm_num [inRange] at h
    norm_num [signed]
    split <;> omega

theorem roundShift_eq (l : Int) (n : Nat) : roundShift l n = if n = 0 then l else (l + 2 ^ (n - 1)) / 2 ^ n := by
  unfold roundShift
  push_cast
  rfl

/-- R145, R181: EXT limits every lane of what it extracts. -/
theorem issues_ext (s : State) (b : Bnd) (a : Fin 8) (v : Fin 64) (sh : Shift) : Issues (.opExt b a v sh) s b
    (VectorWritten b v.val false allLimited (fun r i =>
      if r.shift sh = 0 then r.rAcc a.val i else (r.rAcc a.val i + 2 ^ (r.shift sh - 1)) / 2 ^ r.shift sh)) := by
  refine issues_of_op (f := fun x bu => (bu.vector x v.val (x.selected b false) fun i => satTo 18 (roundShift (x.rAcc a.val i) (x.shift sh))).xsat
    (x.selected b false) fun i => !fits 18 (roundShift (x.rAcc a.val i) (x.shift sh))) rfl ?_
  have h := vectorWritten b v.val false allLimited (fun r i => roundShift (r.rAcc a.val i) (r.shift sh)) (s.dev.core b.core.val).arch
    (s.dev.core b.core.val).current
  simpa only [allLimited, if_true, Bool.true_and, roundShift_eq] using h

/-- R181: ACCGET reads a part of each lane. -/
theorem exec_opAccget (b : Bnd) (a : Fin 8) (v : Fin 64) (part : Fin 3) (s : State) :
    exec (.opAccget b a v part) s = s.onDev (fun d => d.valu b false v (fun r i =>
      signed (wrapTo 48 (r.rAcc a.val i) / 2 ^ (accPart part).1) (accPart part).2)) := rfl

/-- Settles O2: each form by the lanes it sets or the value it reads. -/
theorem macSetsAndReads : Obligations.MacSetsAndReads := by
  unfold Obligations.MacSetsAndReads
  refine ⟨fun s b a x y z w k sh => ?_, fun s b a v k sh => ?_⟩
  · refine ⟨issues_macSet rfl fun _ _ => congrArg _ (prodC_eq _ _ _), issues_macSet rfl fun _ _ => congrArg _ (prodJ_eq _ _ _),
      issues_macSet rfl fun _ _ => rfl, issues_macSet rfl fun _ _ => rfl, issues_macSet rfl fun _ _ => rfl, issues_macSet rfl fun _ _ => rfl,
      issues_macSet rfl fun r i => ?_, issues_macSet rfl fun r i => ?_, issues_macSet rfl fun r i => ?_, fun ne => ?_, fun hold => ?_⟩
    · exact (wrapped_signed 48 _).trans (wrapped_congr (putBits_part _ _).1)
    · exact (wrapped_signed 48 _).trans (wrapped_congr (putBits_part _ _).2.1)
    · exact (wrapped_signed 48 _).trans (wrapped_congr (putBits_part _ _).2.2)
    · refine issues_of_op rfl ?_
      rw [if_neg ne]
      refine (accSet b a.val false (fun r i => r.sample x i * (2 ^ r.shift sh : Nat)) _ _).congr fun i => ?_
      rw [Nat.cast_pow, Nat.cast_ofNat]
    · refine issues_of_op rfl ?_
      rw [if_pos hold]
      rfl
  · have range (r : Arch) (i : Nat) := Arch.rAcc_inRange r a.val i
    refine ⟨issues_ext s b a v sh,
      issues_of_op rfl ⟨_, leastHeadroom 48 (by decide) _ _ _ fun i _ => range _ i, rfl⟩, ?_, ?_, ?_⟩
    · exact issues_valu (exec_opAccget b a v 0 s) fun r i => (signed_part (range r i)).1
    · exact issues_valu (exec_opAccget b a v 1 s) fun r i => (signed_part (range r i)).2.1
    · exact issues_valu (exec_opAccget b a v 2 s) fun r i => congrArg _ (signed_part (range r i)).2.2

/-! ### Compares of lanes (R182) -/

/-- A number put together bit by bit. -/
theorem foldl_twoPow (f : Nat → Bool) (k n v : Nat) (h : v < 2 ^ k) (i : Nat) :
    ((upFrom k n).foldl (fun v j => if f j then v + 2 ^ j else v) v).testBit i =
      if i < k then v.testBit i else if i < k + n then f i else false := by
  induction n generalizing k v with
  | zero =>
    by_cases hi : i < k
    · rw [if_pos hi]
      rfl
    · rw [if_neg hi, Nat.add_zero, if_neg hi]
      exact Nat.testBit_lt_two_pow (lt_of_lt_of_le h (Nat.pow_le_pow_right (by decide) (not_lt.1 hi)))
  | succ n ih =>
    have step : (if f k then v + 2 ^ k else v) < 2 ^ (k + 1) := by
      rw [Nat.pow_succ]
      split <;> omega
    rw [upFrom, List.foldl_cons, ih _ _ step]
    clear step ih
    rcases lt_trichotomy i k with lt | rfl | gt
    · rw [if_pos (Nat.lt_succ_of_lt lt), if_pos lt]
      cases f k
      · rfl
      · rw [if_pos rfl, Nat.add_comm, Nat.testBit_two_pow_add_gt lt]
    · rw [if_pos (Nat.lt_succ_self i), if_neg (lt_irrefl i), if_pos (show i < i + (n + 1) by omega)]
      have clear : v.testBit i = false := Nat.testBit_lt_two_pow h
      cases f i
      · exact clear
      · rw [if_pos rfl, Nat.add_comm, Nat.testBit_two_pow_add_eq, clear, Bool.not_false]
    · rw [if_neg (Nat.not_lt.2 gt), if_neg (Nat.not_lt.2 gt.le), Nat.add_right_comm, Nat.add_assoc]

/-- R139, R182: a compare gives the selected bits of P[p] the lanes' answers, and the others their old value. -/
theorem issues_vcmp {c : Instr} {s : State} {b : Bnd} {p : Fin 8} {g : Arch → Nat → Bool} {f : Arch → Nat → Prop}
    (h : exec c s = s.onDev (fun d => d.vcmp b p g)) (same : ∀ x i, g x i = true ↔ f x i) :
    Issues c s b (fun x B0 B =>
      ∃ v : BitVec 32, (∀ i < 32, v.getLsbD i = true ↔ if laneSelected x b false i = true then f x i else (x.rP p.val).getLsbD i = true) ∧
        B = { B0 with writes := B0.writes ++ [nameP p.val], next := B0.next.wP p.val v }) := by
  refine issues_of_op h ⟨_, fun i hi => ?_, rfl⟩
  rw [selected_eq, BitVec.getLsbD_ofNat, foldl_twoPow _ 0 32 0 Nat.one_pos, if_neg (Nat.not_lt_zero i), if_pos (by omega),
    decide_eq_true hi, Bool.true_and]
  split
  · exact same _ i
  · rfl

/-- Settles O4: each form by the lanes it limits, the bits it compares, or the scalar it reads. -/
theorem valuLimitsAndReads : Obligations.ValuLimitsAndReads := by
  unfold Obligations.ValuLimitsAndReads
  refine ⟨fun s b v x y t => ?_, fun s b p x y k l => ?_⟩
  · refine ⟨issues_valuLim rfl fun _ _ => rfl, issues_valuLim rfl fun _ _ => rfl, issues_valuLim rfl fun _ _ => rfl,
      issues_valuLim rfl fun _ _ => rfl, issues_valuLim rfl fun _ _ => ?_, issues_valuLim rfl fun _ i => ?_, issues_valuLim rfl fun _ i => ?_⟩
    · rw [Nat.cast_pow]
      rfl
    · unfold Arch.lanes Arch.re Arch.im
      split
      · rw [show 2 * (i / 2) = i by omega]
      · rw [show 2 * (i / 2) + 1 = i by omega]
    · unfold Arch.lanes Arch.re Arch.im
      split
      · rw [show 2 * (i / 2) = i by omega]
      · rw [show 2 * (i / 2) = i - 1 by omega]
  · refine ⟨issues_vcmp rfl fun _ _ => beq_iff_eq, issues_vcmp rfl fun _ _ => decide_eq_true_iff, issues_vcmp rfl fun _ _ => decide_eq_true_iff,
      issues_of_op rfl ?_, issues_of_op rfl ⟨_, leastHeadroom 18 (by decide) _ _ _ fun i _ => laneOf_inRange _ _, rfl⟩⟩
    have lane : laneSelected (s.dev.core b.core.val).arch b false l.val = laneOn ((s.dev.core b.core.val).arch.rP b.pred.val) l.val := rfl
    rw [lane]
    cases laneOn ((s.dev.core b.core.val).arch.rP b.pred.val) l.val <;> rfl

end Sys2Proof.Machine
end

section
/-! SUPPORT. Loads that have their words at once (R149, R158, R160, R183, R184), stores staged by their bundle (R151, R185), and accesses
whose predicate selects nothing (R139). -/

namespace Sys2Proof.Machine

/-! ### Parts of a word (R149, R184) -/

theorem signed_eq_toInt (v : Nat) {n : Nat} (hn : 0 < n) : signed v n = (BitVec.ofNat n v).toInt := by
  obtain ⟨m, rfl⟩ : ∃ m, n = m + 1 := ⟨n - 1, by omega⟩
  have twice : (2 : Nat) ^ (m + 1) = 2 * 2 ^ m := by rw [Nat.pow_succ, Nat.mul_comm]
  rw [signed, BitVec.toInt_eq_toNat_cond, BitVec.toNat_ofNat, Nat.add_sub_cancel]
  by_cases h : v % 2 ^ (m + 1) < 2 ^ m
  · rw [if_pos h, if_pos (by omega)]
  · rw [if_neg h, if_neg (by omega)]

theorem ofNat_bitsOf (v lo : Nat) (n : Nat) : BitVec.ofNat n (bitsOf v lo n) = BitVec.ofNat n (v / 2 ^ lo) := by
  apply BitVec.eq_of_toNat_eq
  rw [BitVec.toNat_ofNat, BitVec.toNat_ofNat, bitsOf, Nat.mod_mod]

theorem ofNat_div_eq_extract (w : Word) (lo n : Nat) : BitVec.ofNat n (w.toNat / 2 ^ lo) = w.extractLsb' lo n := by
  rw [BitVec.extractLsb', Nat.shiftRight_eq_div_pow]

/-- R184: a part of a word, sign-extended. -/
theorem sext36_extract (w : Word) (lo : Nat) {n : Nat} (hn : 0 < n) : sext36 n (w.toNat / 2 ^ lo) = (w.extractLsb' lo n).signExtend 36 := by
  rw [sext36, signed_eq_toInt _ hn, ofNat_div_eq_extract]
  rfl

theorem sext36_bitsOf (w : Word) (lo : Nat) {n : Nat} (hn : 0 < n) : sext36 n (bitsOf w.toNat lo n) = (w.extractLsb' lo n).signExtend 36 := by
  rw [sext36, signed_eq_toInt _ hn, ofNat_bitsOf, ofNat_div_eq_extract]
  rfl

theorem ofNat_bitsOf_extract (w : Word) (lo n m : Nat) : BitVec.ofNat m (bitsOf w.toNat lo n) = (w.extractLsb' lo n).setWidth m := by
  rw [← BitVec.ofNat_toNat, BitVec.extractLsb'_toNat, Nat.shiftRight_eq_div_pow, bitsOf]

theorem toInt_inRange (v : BitVec 18) : inRange 18 v.toInt := by
  have h := wrapped_inRange 18 (by decide) v.toInt
  rwa [wrapped, BitVec.ofInt_toInt] at h

theorem sampleOf_eq (w : Word) (k : Nat) : sampleOf w k = (w.extractLsb' (18 * k) 18).toInt := by
  rw [sampleOf, signed_eq_toInt _ (by decide), ofNat_div_eq_extract]

/-! ### What the words of a load make of its register (R184) -/

section
variable (vals : List (Nat × Word)) (z : Arch) (phys : Nat) (lanes : BitVec 32)

/-- R134, R139: lane i of a V register takes its sample of word i / 4 if it is selected and the word has come. -/
def loadedLane (i : Nat) : Int :=
  match (if lanes.getLsbD i then vals.find? (fun e => e.1 == i / 4) else none) with
  | some e => (e.2.extractLsb' (18 * (i % 4)) 18).toInt
  | none => laneOf (z.physV phys) i

theorem loadedLane_inRange (i : Nat) : inRange 18 (loadedLane vals z phys lanes i) := by
  unfold loadedLane
  split
  · exact toInt_inRange _
  · exact laneOf_inRange _ _

theorem LoadInto.apply_v : (LoadInto.v phys lanes).apply vals z = z.wV phys (ofLanes (loadedLane vals z phys lanes)) := by
  unfold LoadInto.apply loadedLane
  simp only [sampleOf_eq]
  rfl

/-- R184: what a vector load leaves. -/
theorem LoadInto.apply_v_lanes :
    ((LoadInto.v phys lanes).apply vals z = { z with v := ((LoadInto.v phys lanes).apply vals z).v }) ∧
    (∀ p, p ≠ phys → ((LoadInto.v phys lanes).apply vals z).physV p = z.physV p) ∧
    ∀ i < 32, laneOf (((LoadInto.v phys lanes).apply vals z).physV phys) i = loadedLane vals z phys lanes i := by
  have lane (i : Nat) (hi : i < 32) : laneOf (ofLanes (loadedLane vals z phys lanes)) i = loadedLane vals z phys lanes i := by
    rw [laneOf_ofLanes _ _ hi, wrapped_of_inRange 18 (by decide) _ (loadedLane_inRange ..)]
  rw [LoadInto.apply_v]
  generalize ofLanes (loadedLane vals z phys lanes) = new at lane
  refine ⟨rfl, fun p hp => Arch.physV_wV_ne _ _ hp, fun i hi => ?_⟩
  rw [Arch.physV_wV, lane i hi]

end

/-! ### Loads at once (R158, R160) -/

section
variable {c : Instr} {s : State} {b : Bnd} {m : Addr} {size n : Nat} {vec : Bool}

theorem Dev.loadOp_now {d d' : Dev} (ok : d.accesses b m size n vec) (into : Arch → Nat → LoadInto) {vals : List (Nat × Word)}
    (now : (d.ownAccess b m size n vec || (d.core b.core.val).touches (d.addressed b m size n vec)) = true)
    (free : (d.ownAccess b m size n vec && d.cxHolds b.core.val (d.addressed b m size n vec)) = false)
    (whole : ((d.core b.core.val).touches (d.addressed b m size n vec) && !(d.core b.core.val).covered (d.addressed b m size n vec)) = false)
    (read : d.readNow b.core.val ((d.core b.core.val).arch.accessAddr d.ownId m size 0) (d.accessWords (d.core b.core.val).arch b m size n vec) =
      (d', vals, [])) :
    let x := (d.core b.core.val).arch
    let cur := (d.core b.core.val).current
    let t := into x (x.accessAddr d.ownId m size 0 % 8)
    d.loadOp b m size n vec into = d'.stageFrom b cur
      { cur with writes := cur.writes ++ accessNames [t.name] m, next := t.apply vals (cur.next.modified x m size) } := by
  obtain ⟨takes, units, traps, open_⟩ := ok
  apply Dev.opWith_stages takes
  have sound : ¬(!(d.accessTraps (d.core b.core.val).arch m size (accessUnits (d.core b.core.val).arch b vec n)).isEmpty) = true := by simp [traps]
  have goes : ¬((d.core b.core.val).fence || (d.ownAccess b m size n vec && d.cxHolds b.core.val (d.addressed b m size n vec)) ||
      ((d.core b.core.val).touches (d.addressed b m size n vec) && !(d.core b.core.val).covered (d.addressed b m size n vec))) = true := by
    rw [open_, free, whole]
    decide
  refine (if_neg (fun h => units (List.isEmpty_iff.1 h))).trans ((if_neg sound).trans ((if_neg goes).trans ((if_pos now).trans ?_)))
  rw [accessUnits_modifies units, Bundle.note_postModify]
  unfold Dev.accessWords at read
  unfold accessUnits at read
  rw [read]
  rfl

theorem loadsNow_of_exec {dest : Arch → Nat} {into : Arch → Nat → LoadInto} {W : Arch → Nat → List (Nat × Word) → Arch → Arch → Prop}
    (h : exec c s = s.onDev (fun d => d.loadOp b m size n vec into)) (name : ∀ x lo, (into x lo).name = dest x)
    (writes : ∀ x lo vals z, W x lo vals z ((into x lo).apply vals z)) : LoadsNow c s b m size n vec dest W := by
  intro d' vals core x words addrs touched ok kind read
  refine ⟨_, writes _ _ _ _, ?_⟩
  rw [gives_iff_of_exec h, ← name x (x.accessAddr s.dev.ownId m size 0 % 8)]
  rcases kind with ⟨g, own, free, untouched⟩ | ⟨covered, touched, free⟩
  · have here : s.dev.ownAccess b m size n vec = true := by
      rw [Dev.ownAccess, g]
      exact own
    refine Dev.loadOp_now ok into ?_ ?_ ?_ read
    · rw [here, Bool.true_or]
    · exact Bool.and_eq_false_iff.2 (.inr free)
    · exact Bool.and_eq_false_iff.2 (.inl untouched)
  · refine Dev.loadOp_now ok into ?_ free ?_ read
    · exact Bool.or_eq_true_iff.2 (.inr touched)
    · exact Bool.and_eq_false_iff.2 (.inr (congrArg Bool.not covered))

end


/-- Settles O6: each load by what its words make of its register. -/
theorem loadsAtOnce : Obligations.LoadsAtOnce := by
  unfold Obligations.LoadsAtOnce
  intro s b v r q m
  have vector {c : Instr} {n : Nat}
      (h : exec c s = s.onDev (fun d => d.loadOp b m 8 n true (fun x _ => .v (x.phys v.val) (x.rP b.pred.val)))) :
      LoadsNow c s b m 8 n true (fun x => nameV (x.phys v.val)) (fun x _ vals z y =>
        y = { z with v := y.v } ∧ (∀ p, p ≠ x.phys v.val → y.physV p = z.physV p) ∧
        ∀ i < 32, laneOf (y.physV (x.phys v.val)) i = loadedLane vals z (x.phys v.val) (x.rP b.pred.val) i) :=
    loadsNow_of_exec h (fun _ _ => rfl) (fun _ _ vals z => LoadInto.apply_v_lanes vals z _ _)
  have narrow {c : Instr} {size : Nat} {t : Nat → LoadInto} {f : Nat → Word → BitVec 36}
      (h : exec c s = s.onDev (fun d => d.loadOp b m size 1 false (fun _ lo => t lo))) (name : ∀ lo, (t lo).name = nameS r.val)
      (value : ∀ lo vals (z : Arch), (t lo).apply vals z = z.wS r.val (f lo (vals.headD (0, 0)).2)) :
      LoadsNow c s b m size 1 false (fun _ => nameS r.val) (fun _ lo vals z y => y = z.wS r.val (f lo (vals.headD (0, 0)).2)) :=
    loadsNow_of_exec h (fun _ => name) (fun _ => value)
  have sample (k : Nat) {c : Instr} (h : exec c s = s.onDev (fun d => d.loadOp b m 8 1 false (fun _ _ => .sample r.val k))) :=
    narrow (f := fun _ w => (w.extractLsb' (18 * k) 18).signExtend 36) h (fun _ => rfl)
      (fun _ _ z => congrArg (z.wS r.val) (sext36_extract _ (18 * k) (n := 18) (by decide)))
  have half (k : Nat) {c : Instr} (h : exec c s = s.onDev (fun d => d.loadOp b m 8 1 false (fun _ _ => .complex r.val k))) :=
    narrow (f := fun _ w => w.extractLsb' (36 * k) 36) h (fun _ => rfl)
      (fun _ _ z => congrArg (z.wS r.val) (ofNat_div_eq_extract _ _ _))
  have unsigned (n : Nat) {c : Instr} (h : exec c s = s.onDev (fun d => d.loadOp b m n 1 false (fun _ lo => .bytes r.val lo n false))) :=
    narrow (f := fun lo w => (w.extractLsb' (8 * lo) (8 * n)).setWidth 36) h (fun _ => rfl)
      (fun _ _ z => congrArg (z.wS r.val) (ofNat_bitsOf_extract _ _ _ _))
  have extended (n : Nat) (hn : 0 < 8 * n) {c : Instr}
      (h : exec c s = s.onDev (fun d => d.loadOp b m n 1 false (fun _ lo => .bytes r.val lo n true))) :=
    narrow (f := fun lo w => (w.extractLsb' (8 * lo) (8 * n)).signExtend 36) h (fun _ => rfl)
      (fun _ _ z => congrArg (z.wS r.val) (sext36_bitsOf _ _ hn))
  refine ⟨vector rfl, vector rfl, vector rfl, vector rfl, sample 0 rfl, sample 1 rfl, sample 2 rfl, sample 3 rfl, half 0 rfl, half 1 rfl,
    unsigned 1 rfl, extended 1 (by decide) rfl, unsigned 2 rfl, extended 2 (by decide) rfl, unsigned 4 rfl, extended 4 (by decide) rfl,
    loadsNow_of_exec rfl (fun _ _ => rfl) (fun _ lo vals z => ?_)⟩
  exact congrArg (z.wA q.val) ((ofNat_bitsOf_extract _ _ _ _).trans (BitVec.setWidth_eq _))

/-! ### Stores (R151, R185) -/

/-- R138, R183: an access names A[n], and modifies it where it is to. -/
theorem Bundle.postModify_ite (bu : Bundle) (x : Arch) (m : Addr) (size : Nat) (doIt : Bool) :
    bu.postModify x m size doIt = { bu with
      writes := bu.writes ++ accessNames [] m, next := if doIt then bu.next.modified x m size else bu.next } := by
  cases doIt <;> by_cases h : m.pm = true <;> simp [Bundle.postModify, accessNames, Arch.modified, h, Bundle.note, Bundle.withNext]

section
variable {c : Instr} {s : State} {b : Bnd} {m : Addr} {size n : Nat} {vec : Bool}

theorem Dev.storeOp_stages {d : Dev} (ok : d.accesses b m size n vec) (share : Arch → Nat → Nat → StoreWord) :
    let x := (d.core b.core.val).arch
    let cur := (d.core b.core.val).current
    d.storeOp b m size n vec share = d.stage b { cur with
      writes := cur.writes ++ accessNames [] m, next := cur.next.modified x m size,
      store := (accessUnits x b vec n).map (fun i => share x (x.accessAddr d.ownId m size i) i) } := by
  obtain ⟨takes, units, traps, open_⟩ := ok
  apply Dev.opWith_stages takes
  have sound : ¬(!(d.accessTraps (d.core b.core.val).arch m size (accessUnits (d.core b.core.val).arch b vec n)).isEmpty) = true := by simp [traps]
  have goes : ¬(d.core b.core.val).fence = true := by simp [open_]
  refine (if_neg (fun h => units (List.isEmpty_iff.1 h))).trans ((if_neg sound).trans ((if_neg goes).trans ?_))
  rw [accessUnits_modifies units, Bundle.postModify_ite]
  rfl

theorem stores_of_exec {share told : Arch → Nat → Nat → StoreWord} (h : exec c s = s.onDev (fun d => d.storeOp b m size n vec told))
    (same : ∀ x a i, told x a i = share x a i) : Stores c s b m size n vec share := by
  obtain rfl : told = share := funext fun x => funext₂ (same x)
  intro ok
  exact (gives_iff_of_exec h).2 (Dev.storeOp_stages ok _)

end

theorem wordPlace (a : Nat) : a / 8 * 8 = a - a % 8 := by omega

theorem vectorShare_eq (r : Fin 64) (b : Bnd) (x : Arch) (a i : Nat) :
    vectorShare r (fun x => x.rP b.pred.val) x a i = vectorStore r b x a i := by
  unfold vectorShare vectorStore
  rw [wordPlace]
  rfl

theorem sampleShare_eq (r : Fin 32) (k n : Nat) (x : Arch) (a i : Nat) : sampleShare r k n x a i = sampleStore r k n x a := by
  unfold sampleShare sampleStore
  rw [wordPlace]

theorem byteShare_eq (v : Arch → Nat) (n : Nat) (x : Arch) (a i : Nat) : byteShare v n x a i = byteStore (v x) n a := by
  unfold byteShare byteStore
  rw [wordPlace, Nat.pow_mul, Nat.pow_mul]

/-! ### Accesses that select nothing (R139) -/

theorem accessUnits_narrow_off {x : Arch} {b : Bnd} (off : (x.rP b.pred.val).getLsbD 0 = false) : accessUnits x b false 1 = [] := by
  simp [accessUnits, laneOn, -BitVec.getLsbD_eq_getElem, off]

theorem accessUnits_vector_off {x : Arch} {b : Bnd} (off : x.rP b.pred.val = 0) (n : Nat) : accessUnits x b true n = [] := by
  simp [accessUnits, laneOn, off]

/-- The same for an access that names a destination too. -/
theorem Bundle.note_postModify_ite (bu : Bundle) (dest : List Nat) (x : Arch) (m : Addr) (size : Nat) (doIt : Bool) :
    (bu.note dest).postModify x m size doIt = { bu with
      writes := bu.writes ++ accessNames dest m, next := if doIt then bu.next.modified x m size else bu.next } := by
  simp only [Bundle.postModify_ite, Bundle.note, accessNames, List.append_assoc, List.nil_append]

section
variable {c : Instr} {s : State} {b : Bnd} {m : Addr} {size n : Nat} {vec : Bool}

/-- What an access of core b.core that selects nothing leaves in its bundle. -/
def unselected (b : Bnd) (m : Addr) (size : Nat) (vec : Bool) (dest : List Nat) (x : Arch) (B0 : Bundle) : Bundle :=
  { B0 with writes := B0.writes ++ accessNames dest m,
            next := if vec || laneOn (x.rP b.pred.val) 0 then B0.next.modified x m size else B0.next }

theorem issues_load_unselected {into : Arch → Nat → LoadInto} {dest : Nat} (h : exec c s = s.onDev (fun d => d.loadOp b m size n vec into))
    (name : ∀ lo, (into (s.dev.core b.core.val).arch lo).name = dest)
    (none : accessUnits (s.dev.core b.core.val).arch b vec n = []) :
    Issues c s b (fun x B0 B => B = unselected b m size vec [dest] x B0) := by
  refine issues_of_opWith h ((if_pos (List.isEmpty_iff.2 none)).trans ?_) rfl
  rw [Bundle.note_postModify_ite, name]
  rfl

theorem issues_store_unselected {share : Arch → Nat → Nat → StoreWord} (h : exec c s = s.onDev (fun d => d.storeOp b m size n vec share))
    (none : accessUnits (s.dev.core b.core.val).arch b vec n = []) : Issues c s b (fun x B0 B => B = unselected b m size vec [] x B0) := by
  refine issues_of_opWith h ((if_pos (List.isEmpty_iff.2 none)).trans ?_) rfl
  rw [Bundle.postModify_ite]
  rfl

end

/-- A narrow access under a predicate whose bit 0 is clear leaves the working copy. -/
theorem Issues.narrow_off {c : Instr} {s : State} {b : Bnd} {m : Addr} {size : Nat} {dest : List Nat}
    (h : Issues c s b (fun x B0 B => B = unselected b m size false dest x B0))
    (off : ((s.dev.core b.core.val).arch.rP b.pred.val).getLsbD 0 = false) :
    Issues c s b (fun _ B0 B => B = { B0 with writes := B0.writes ++ accessNames dest m }) := by
  intro takes
  obtain ⟨B, runs, rule⟩ := h takes
  refine ⟨B, runs, rule.trans ?_⟩
  unfold unselected laneOn
  rw [off]
  rfl

/-- A vector access modifies its address all the same. -/
theorem Issues.vector_off {c : Instr} {s : State} {b : Bnd} {m : Addr} {size : Nat} {dest : List Nat}
    (h : Issues c s b (fun x B0 B => B = unselected b m size true dest x B0)) : Issues c s b (fun x B0 B =>
      B = { B0 with writes := B0.writes ++ accessNames dest m, next := B0.next.modified x m size }) := h

/-- Settles O8: each store by its share of a word, and each access that selects nothing by what it leaves in its bundle. -/
theorem storesAndUnselected : Obligations.StoresAndUnselected := by
  unfold Obligations.StoresAndUnselected
  refine ⟨fun s b v r q m => ?_, ?_⟩
  · exact ⟨stores_of_exec rfl (vectorShare_eq v b), stores_of_exec rfl (vectorShare_eq v b), stores_of_exec rfl (vectorShare_eq v b),
      stores_of_exec rfl (vectorShare_eq v b), stores_of_exec rfl (sampleShare_eq r 0 1), stores_of_exec rfl (sampleShare_eq r 1 1),
      stores_of_exec rfl (sampleShare_eq r 2 1), stores_of_exec rfl (sampleShare_eq r 3 1), stores_of_exec rfl (sampleShare_eq r 0 2),
      stores_of_exec rfl (sampleShare_eq r 2 2), stores_of_exec rfl (byteShare_eq _ 1), stores_of_exec rfl (byteShare_eq _ 2),
      stores_of_exec rfl (byteShare_eq _ 4), stores_of_exec rfl (byteShare_eq _ 4), issues_of_op rfl rfl⟩
  · intro s b v r q m x off clear
    have load {c : Instr} {size : Nat} {t : Nat → LoadInto} (h : exec c s = s.onDev (fun d => d.loadOp b m size 1 false (fun _ lo => t lo)))
        (name : ∀ lo, (t lo).name = nameS r.val) : off c [nameS r.val] :=
      (issues_load_unselected h name (accessUnits_narrow_off clear)).narrow_off clear
    have store {c : Instr} {size : Nat} {share : Arch → Nat → Nat → StoreWord}
        (h : exec c s = s.onDev (fun d => d.storeOp b m size 1 false share)) : off c [] :=
      (issues_store_unselected h (accessUnits_narrow_off clear)).narrow_off clear
    refine ⟨load rfl fun _ => rfl, load rfl fun _ => rfl, load rfl fun _ => rfl, load rfl fun _ => rfl, load rfl fun _ => rfl,
      load rfl fun _ => rfl, load rfl fun _ => rfl, load rfl fun _ => rfl, load rfl fun _ => rfl, load rfl fun _ => rfl,
      load rfl fun _ => rfl, load rfl fun _ => rfl,
      (issues_load_unselected rfl (fun _ => rfl) (accessUnits_narrow_off clear)).narrow_off clear, store rfl, store rfl, store rfl,
      store rfl, store rfl, store rfl, store rfl, store rfl, store rfl, store rfl, fun zero => ?_⟩
    have vload {c : Instr} {n : Nat}
        (h : exec c s = s.onDev (fun d => d.loadOp b m 8 n true (fun x _ => .v (x.phys v.val) (x.rP b.pred.val)))) :=
      (issues_load_unselected h (fun _ => rfl) (accessUnits_vector_off zero n)).vector_off
    have vstore {c : Instr} {n : Nat} {share : Arch → Nat → Nat → StoreWord}
        (h : exec c s = s.onDev (fun d => d.storeOp b m 8 n true share)) :=
      (issues_store_unselected h (accessUnits_vector_off zero n)).vector_off
    exact ⟨vload rfl, vload rfl, vload rfl, vload rfl, vstore rfl, vstore rfl, vstore rfl, vstore rfl⟩

end Sys2Proof.Machine
end

section
/-! SUPPORT. The end of a bundle: its commit (R138, R144, R156, R160, R170, R188), and its precise traps (R161–R165). -/

namespace Sys2Proof.Machine

/-! ### Cores and events -/

theorem Dev.core_of_cores {d e : Dev} (h : e.cores = d.cores) (c : Nat) : e.core c = d.core c := by rw [Dev.core, h, Dev.core]

theorem OnlyRegs.cores_eq {d e : Dev} (h : OnlyRegs d e) : e.cores = d.cores := by
  obtain ⟨rs, ev, rfl⟩ := h
  rfl

theorem Dev.core_setCore_ne (d : Dev) {c c' : Nat} (h : c' ≠ c) (x : Core) : (d.setCore c x).core c' = d.core c' := lookup_update_ne _ _ _ h

@[simp] theorem Dev.core_set (d : Dev) (f : Fld) (v c : Nat) : (d.set f v).core c = d.core c := rfl
@[simp] theorem Dev.core_bump (d : Dev) (f : Fld) (c : Nat) : (d.bump f).core c = d.core c := rfl
@[simp] theorem Dev.core_add (d : Dev) (f : Fld) (n c : Nat) : (d.add f n).core c = d.core c := rfl
@[simp] theorem Dev.core_raise (d : Dev) (n c : Nat) : (d.raise n).core c = d.core c := rfl

@[simp] theorem Dev.core_relevel (d : Dev) (n c : Nat) : (d.relevel n).core c = d.core c := Dev.core_of_cores (d.relevel_only n).cores_eq c

/-- R171, R475: an event of a core is of the core's world. -/
theorem Dev.coreEvent_queue (d : Dev) (c : Fin 104) {k : Nat} (hk : k < 8) :
    (d.coreEvent c.val k).evt.queue = d.evt.queue ++ [⟨8 * c.val + k, d.on (Reg.ERG_CORE_CFG_WORLD (c.val / 8) (c.val % 8))⟩] := by
  have source : d.sourceWorld (8 * c.val + k) = d.on (Reg.ERG_CORE_CFG_WORLD (c.val / 8) (c.val % 8)) := by
    rw [Dev.sourceWorld, if_pos (by omega), show (8 * c.val + k) / 64 = c.val / 8 by omega, show (8 * c.val + k) / 8 = c.val by omega]
  rw [← source]
  rfl

/-! ### The commit of a bundle (R138, R144, R156, R170, R188) -/

/-- The S registers a commit leaves: half of short time (R188) and the return address (R189) put. -/
def Bundle.savedS (b : Bundle) (old : Arch) (now : ShortTime) : List (Nat × BitVec 36) :=
  let s := match b.timeTo with
    | some (k, hi) => update (fun _ => 0) b.next.s k (BitVec.ofNat 36 (now.toNat / (if hi then 2 ^ 32 else 1) % 2 ^ 32))
    | none => b.next.s
  if b.link then update (fun _ => 0) s 31 (BitVec.ofNat 36 (nextPc old.pc b.count).toNat) else s

theorem Bundle.finish_eq (b : Bundle) (old : Arch) (now : ShortTime) :
    b.finish old now = { b.next with
      pc := b.branch.getD (nextPc old.pc b.count), accSt := (old.accSt &&& ~~~b.clear) ||| b.next.accSt,
      tsnap := if b.snap then now else b.next.tsnap, s := b.savedS old now } := by
  unfold Bundle.finish Bundle.savedS
  rcases b.timeTo with _ | ⟨k, hi⟩ <;> cases b.snap <;> cases b.link <;> rfl

theorem Bundle.savedS_plain {b : Bundle} (time : b.timeTo = none) (link : b.link = false) (old : Arch) (now : ShortTime) :
    b.savedS old now = b.next.s := by
  rw [Bundle.savedS, time, link]
  rfl

theorem Bundle.savedS_link {b : Bundle} (link : b.link = true) (old : Arch) (now : ShortTime) :
    lookup (fun _ => 0) (b.savedS old now) 31 = (nextPc old.pc b.count).setWidth 36 := by
  rw [Bundle.savedS, link]
  exact (lookup_update_self _ _ _ _).trans (BitVec.ofNat_toNat _ _)

/-- The core a commit leaves, before any trap that follows it. -/
def Core.commits (x : Core) (b : Bundle) (now : ShortTime) : Core :=
  { x with arch := b.finish x.arch now, bundle := none,
           buffer := if b.store.isEmpty then x.buffer else x.buffer ++ [b.store],
           fence := x.fence || (b.fence && !x.buffer.isEmpty),
           ending := b.tend, lock := b.lock.getD x.lock,
           ops := match b.cx with | some o => x.ops ++ [o] | none => x.ops }

/-- The device a commit leaves, before its SIGNAL and any trap that follows it. -/
def Dev.coreCommitted (d : Dev) (c : Nat) (b : Bundle) : Dev :=
  let y := (d.core c).commits b d.now
  ((((d.setCore c y).bump (Reg.ERG_CORE_BUNDLES (c / 8) (c % 8))).set (Reg.ERG_CORE_PC (c / 8) (c % 8)) (d.core c).arch.pc.toNat).add
    (Reg.ERG_CORE_STALLS (c / 8) (c % 8)) b.stalls).set (coreState c) (if y.arch.level = .tk then 1 else 2)

theorem Dev.commitEffects_eq (d : Dev) (c : Nat) (b : Bundle) :
    d.commitEffects c b = match b.after with
      | some t => ((d.coreCommitted c b).iff b.signal (fun d => d.coreEvent c 4)).takeTrap c t
          (b.branch.getD (nextPc (d.core c).arch.pc b.count)) true
      | none => ((d.coreCommitted c b).iff b.signal (fun d => d.coreEvent c 4)).takeAsync c := by
  unfold Dev.commitEffects Dev.coreCommitted
  have level (e : Dev) (p : Prop) [Decidable p] : (if p then e.set (coreState c) 1 else e.set (coreState c) 2) =
      e.set (coreState c) (if p then 1 else 2) := by split <;> rfl
  simp only [level]
  rfl

section
variable (d : Dev) (c : Nat) (b : Bundle)

/-- R170: the fields of a core that its commits write. -/
def commitFields (c : Nat) : List Fld :=
  [Reg.ERG_CORE_BUNDLES (c / 8) (c % 8), Reg.ERG_CORE_PC (c / 8) (c % 8), Reg.ERG_CORE_STALLS (c / 8) (c % 8), coreState c]

theorem Dev.coreCommitted_regsWithin : RegsWithin (commitFields c) d (d.coreCommitted c b) := by
  refine RegsWithin.set (RegsWithin.set (RegsWithin.set (RegsWithin.set (.of_regs rfl) ?_ _) ?_ _) ?_ _) ?_ _ <;> simp [commitFields]

theorem Dev.core_coreCommitted : (d.coreCommitted c b).core c = (d.core c).commits b d.now := by
  simp only [Dev.coreCommitted, Dev.core_set, Dev.core_add, Dev.core_bump, Dev.core_setCore]

theorem Dev.core_coreCommitted_ne {c' : Nat} (h : c' ≠ c) : (d.coreCommitted c b).core c' = d.core c' := by
  simp only [Dev.coreCommitted, Dev.core_set, Dev.core_add, Dev.core_bump, d.core_setCore_ne h]

theorem Dev.coreCommitted_mem : (d.coreCommitted c b).mem = d.mem := by
  simp only [Dev.coreCommitted, Dev.set_mem, Dev.add_mem, Dev.bump_mem, Dev.setCore_mem]

/-- R170: PC and BUNDLES show the commit. -/
theorem Dev.get_coreCommitted :
    (d.coreCommitted c b).get (Reg.ERG_CORE_PC (c / 8) (c % 8)) = (d.core c).arch.pc.toNat ∧
    (d.coreCommitted c b).get (Reg.ERG_CORE_BUNDLES (c / 8) (c % 8)) = (d.get (Reg.ERG_CORE_BUNDLES (c / 8) (c % 8)) + 1) % 2 ^ 32 := by
  have spares {f g : Fld} (h : g.off ≠ f.off) : f.Spares g := .inl h
  unfold Dev.coreCommitted Dev.add
  dsimp only
  refine ⟨?_, ?_⟩
  · rw [Dev.get_set_spares _ _ (spares (by simp [coreState, Reg.ERG_CORE_PC, Reg.ERG_CORE_STATUS_STATE])),
      Dev.get_set_spares _ _ (spares (by simp [Reg.ERG_CORE_PC, Reg.ERG_CORE_STALLS])),
      Dev.get_set_self _ _ _ (by simp [Reg.ERG_CORE_PC])]
    exact Nat.mod_eq_of_lt (d.core c).arch.pc.isLt
  · rw [Dev.get_set_spares _ _ (spares (by simp [coreState, Reg.ERG_CORE_BUNDLES, Reg.ERG_CORE_STATUS_STATE])),
      Dev.get_set_spares _ _ (spares (by simp [Reg.ERG_CORE_BUNDLES, Reg.ERG_CORE_STALLS])),
      Dev.get_set_spares _ _ (spares (by simp [Reg.ERG_CORE_BUNDLES, Reg.ERG_CORE_PC])),
      Dev.get_bump_self _ _ (by simp [Reg.ERG_CORE_BUNDLES])]
    rfl

end

/-! ### What becomes of a complete bundle (R156, R164) -/

theorem hasRepeat_of_nodup {xs : List Nat} (h : xs.Nodup) : hasRepeat xs = false := by
  induction xs with
  | nil => rfl
  | cons x xs ih =>
    obtain ⟨new, rest⟩ := List.nodup_cons.1 h
    rw [hasRepeat, ih rest, Bool.or_false]
    simpa using new

theorem Bundle.precise_none {b : Bundle} (traps : b.traps = []) (distinct : b.writes.Nodup) : b.precise = none := by
  rw [Bundle.precise, hasRepeat_of_nodup distinct, traps]
  rfl

section
variable {d : Dev} {c : Nat} {b : Bundle} (bundle : (d.core c).bundle = some b) (ready : b.ready = true) (load : b.load = none) (cx : b.cx = none)
include bundle ready load cx

theorem Dev.tryCommit_traps {t : Trap} (precise : b.precise = some t) : d.tryCommit c = d.takeTrap c t (d.core c).arch.pc false := by
  simp only [Dev.tryCommit, bundle, ready, load, Dev.issueTraps, Dev.dropIssue, cx, precise]
  rfl

theorem Dev.tryCommit_commits (precise : b.precise = none) (tend : b.tend = none) (room : (d.core c).mayStore b = true) :
    d.tryCommit c = d.commitEffects c b := by
  simp only [Dev.tryCommit, bundle, ready, load, Dev.issueTraps, cx, precise, tend, room]
  rfl

end

theorem Dev.takeAsync_none {d : Dev} {c : Nat} (abort : (d.core c).abort = none) (fault : (d.core c).fault = none)
    (late : (d.core c).late = none) : d.takeAsync c = d := by
  simp only [Dev.takeAsync, abort, fault, late, ite_self]

/-- Settles O13: the bundle commits, and neither SIGNAL nor a trap follows. -/
theorem bundleCommits : Obligations.BundleCommits := by
  unfold Obligations.BundleCommits
  intro d c bu x bundle ready load cx traps distinct tend room after signal abort fault late
  have room' : x.mayStore bu = true := by
    rw [Core.mayStore, Bool.or_eq_true, List.isEmpty_iff, decide_eq_true_iff]
    exact room
  have commit : d.tryCommit c.val = d.coreCommitted c.val bu := by
    rw [Dev.tryCommit_commits bundle ready load cx (Bundle.precise_none traps distinct) tend room', Dev.commitEffects_eq, after, signal]
    refine Dev.takeAsync_none ?_ ?_ ?_ <;> rw [Dev.iff, if_neg Bool.false_ne_true, Dev.core_coreCommitted]
    exacts [abort, fault, late]
  have core : (d.tryCommit c.val).core c.val = x.commits bu d.now :=
    (congrArg (fun e : Dev => e.core c.val) commit).trans (d.core_coreCommitted c.val bu)
  have arch := (congrArg Core.arch core).trans (bu.finish_eq x.arch d.now)
  obtain ⟨pc, bundles⟩ := d.get_coreCommitted c.val bu
  have field {α : Type} (f : Arch → α) := congrArg f arch
  refine ⟨congrArg Core.bundle core, field Arch.pc, field Arch.accSt, field Arch.level, field Arch.v, field Arch.a, field Arch.p, field Arch.acc,
    fun time link => (field Arch.s).trans (Bundle.savedS_plain time link _ _), fun link => (field (Arch.rS · 31)).trans (Bundle.savedS_link link _ _),
    field Arch.tsnap, (congrArg Core.buffer core).trans ?_, (congrArg (Dev.get · _) commit).trans pc, (congrArg (Dev.get · _) commit).trans bundles,
    (congrArg Dev.mem commit).trans (d.coreCommitted_mem _ _), 
      fun c' other => (congrArg (Dev.core · c'.val) commit).trans (d.core_coreCommitted_ne _ _ (Fin.val_ne_of_ne other))⟩
  unfold Core.commits
  cases bu.store <;> rfl

/-! ### Precise traps (R161, R162, R165) -/

/-- R162: the fields of a core that the entry of its handler writes. -/
def trapFields (c : Nat) : List Fld :=
  [coreState c, Reg.ERG_CORE_TRAPS (c / 8) (c % 8), Reg.ERG_CORE_STATUS_LAST_CAUSE (c / 8) (c % 8)]

theorem Dev.enterTrap_regsWithin (d : Dev) (c : Nat) (t : Trap) (pc : BitVec 13) (more after : Bool) :
    RegsWithin (trapFields c) d (d.enterTrap c t pc more after) := by
  rw [Dev.enterTrap_eq]
  refine RegsWithin.trans (RegsWithin.set (RegsWithin.set (RegsWithin.set (.of_regs (Dev.setCore_regs _ _ _)) ?_ _) ?_ _) ?_ _)
    (.of_regs (Dev.raise_regs _ _)) <;> simp [trapFields]

/-- R162, R171: the entry of a handler raises CORE_TRAP, in the core's world. -/
theorem Dev.enterTrap_queue (d : Dev) (c : Fin 104) (t : Trap) (pc : BitVec 13) (more after : Bool) :
    (d.enterTrap c.val t pc more after).evt.queue =
      d.evt.queue ++ [⟨8 * c.val + 3, d.on (Reg.ERG_CORE_CFG_WORLD (c.val / 8) (c.val % 8))⟩] := by
  have world : (d.enterTrap c.val t pc more after).on (Reg.ERG_CORE_CFG_WORLD (c.val / 8) (c.val % 8)) =
      d.on (Reg.ERG_CORE_CFG_WORLD (c.val / 8) (c.val % 8)) :=
    (d.enterTrap_regsWithin c.val t pc more after).on (by
      simp [trapFields, Fld.Spares, coreState, Reg.ERG_CORE_CFG_WORLD, Reg.ERG_CORE_STATUS_STATE, Reg.ERG_CORE_TRAPS, Reg.ERG_CORE_STATUS_LAST_CAUSE])
  rw [Dev.enterTrap_eq, Dev.coreEvent, Dev.on_raise] at world
  rw [Dev.enterTrap_eq, Dev.coreEvent_queue _ _ (by decide), world]
  rfl

theorem Dev.enterTrap_mem (d : Dev) (c : Nat) (t : Trap) (pc : BitVec 13) (more after : Bool) : (d.enterTrap c t pc more after).mem = d.mem := by
  simp only [Dev.enterTrap_eq, Dev.coreEvent, Dev.raise_mem, Dev.set_mem, Dev.bump_mem, Dev.onCore, Dev.setCore_mem]

/-- R165: what a halt leaves. -/
theorem Dev.haltCore_shows (d : Dev) (c : Nat) (t : Trap) (pc : BitVec 13) :
    ((d.haltCore c t pc).core c).arch = (d.core c).arch ∧ (d.haltCore c t pc).get (coreState c) = 3 ∧
    (d.haltCore c t pc).get (Reg.ERG_CORE_HALT_PC (c / 8) (c % 8)) = pc.toNat ∧
    (d.haltCore c t pc).get (Reg.ERG_CORE_HALT_CAUSE (c / 8) (c % 8)) = t.code % 256 ∧
    (d.haltCore c t pc).on (Reg.ERG_CORE_ATTN_HALT (c / 8) (c % 8)) = true ∧ (d.haltCore c t pc).mem = d.mem := by
  have state_attn : (Reg.ERG_CORE_ATTN_HALT (c / 8) (c % 8)).Spares (coreState c) :=
    .inl (by simp [coreState, Reg.ERG_CORE_STATUS_STATE, Reg.ERG_CORE_ATTN_HALT])
  have pc_attn : (Reg.ERG_CORE_ATTN_HALT (c / 8) (c % 8)).Spares (Reg.ERG_CORE_HALT_PC (c / 8) (c % 8)) :=
    .inl (by simp [Reg.ERG_CORE_HALT_PC, Reg.ERG_CORE_ATTN_HALT])
  have cause_attn : (Reg.ERG_CORE_ATTN_HALT (c / 8) (c % 8)).Spares (Reg.ERG_CORE_HALT_CAUSE (c / 8) (c % 8)) :=
    .inl (by simp [Reg.ERG_CORE_HALT_CAUSE, Reg.ERG_CORE_ATTN_HALT])
  have pc_state : (coreState c).Spares (Reg.ERG_CORE_HALT_PC (c / 8) (c % 8)) :=
    .inl (by simp [coreState, Reg.ERG_CORE_STATUS_STATE, Reg.ERG_CORE_HALT_PC])
  have cause_state : (coreState c).Spares (Reg.ERG_CORE_HALT_CAUSE (c / 8) (c % 8)) :=
    .inl (by simp [coreState, Reg.ERG_CORE_STATUS_STATE, Reg.ERG_CORE_HALT_CAUSE])
  have pc_cause : (Reg.ERG_CORE_HALT_CAUSE (c / 8) (c % 8)).Spares (Reg.ERG_CORE_HALT_PC (c / 8) (c % 8)) :=
    .inr (by simp [Reg.ERG_CORE_HALT_PC, Reg.ERG_CORE_HALT_CAUSE])
  refine ⟨?_, ?_, ?_, ?_, ?_, ?_⟩
  · rw [Dev.haltCore, Dev.core_relevel, Dev.core_set, Dev.core_set, Dev.core_set, Dev.core_set, Dev.core_onCore]
  · rw [Dev.haltCore, Dev.get_relevel, Dev.get_set_spares _ _ state_attn, Dev.get_set_self _ _ _ (by simp [coreState, Reg.ERG_CORE_STATUS_STATE])]
    rfl
  · rw [Dev.haltCore, Dev.get_relevel, Dev.get_set_spares _ _ pc_attn, Dev.get_set_spares _ _ pc_state, Dev.get_set_spares _ _ pc_cause,
      Dev.get_set_self _ _ _ (by simp [Reg.ERG_CORE_HALT_PC])]
    exact Nat.mod_eq_of_lt pc.isLt
  · rw [Dev.haltCore, Dev.get_relevel, Dev.get_set_spares _ _ cause_attn, Dev.get_set_spares _ _ cause_state,
      Dev.get_set_self _ _ _ (by simp [Reg.ERG_CORE_HALT_CAUSE])]
    rfl
  · rw [Dev.haltCore, Dev.on_relevel, Dev.on_set_self _ _ _ (by simp [Reg.ERG_CORE_ATTN_HALT])]
    rfl
  · rw [Dev.haltCore, Dev.relevel_mem, Dev.set_mem, Dev.set_mem, Dev.set_mem, Dev.set_mem, Dev.onCore, Dev.setCore_mem]

/-- Settles O14: the trap that the bundle takes enters the handler at TK and halts the core above it. -/
theorem preciseTraps : Obligations.PreciseTraps := by
  unfold Obligations.PreciseTraps
  intro d c bu t x bundle ready load cx precise
  have traps := Dev.tryCommit_traps bundle ready load cx precise
  refine ⟨fun user => ?_, fun above => ?_⟩
  · rw [traps, Dev.takeTrap, if_pos user]
    obtain ⟨state, cause, count⟩ := d.get_enterTrap c.val t (d.core c.val).arch.pc false false
    have core := d.core_enterTrap c.val t (d.core c.val).arch.pc false false
    refine ⟨congrArg Core.bundle core, (congrArg Core.arch core).trans ?_, state, cause, count, d.enterTrap_queue c t _ _ _,
      d.enterTrap_mem _ _ _ _ _⟩
    have level : (d.core c.val).arch.level = .tk := user
    simp only [Core.trapped, level, levelCode, trapInfo, b2n, Bool.false_eq_true, if_false, Nat.zero_mul, Nat.add_zero]
    rfl
  · rw [traps, Dev.takeTrap, if_neg above]
    exact d.haltCore_shows c.val t _

end Sys2Proof.Machine
end

section
/-! SUPPORT. SYSCALL, BREAK and RTE (R161, R163, R189), and the events of a core: mispredictions, accepted stores and asynchronous traps
(R157, R160, R163, R169). -/

namespace Sys2Proof.Machine

/-! ### The entry of a handler, seen from an earlier state -/

theorem Dev.enterTrap_entered {d : Dev} {c : Fin 104} {t : Trap} (level : (d.core c.val).arch.level = .tk) (plain : t.bundleFault = 0)
    (pc : BitVec 13) (after : Bool) : Entered d (d.enterTrap c.val t pc false after) c pc t.code t.detail t.tag t.addr after := by
  have := Dev.takeTrap_entered level plain pc after
  rwa [Dev.takeTrap, if_pos level] at this

/-- R162: the registers that decide what the entry of a handler leaves. -/
def entryFields (c : Nat) : List Fld :=
  [Reg.ERG_CORE_CFG_WORLD (c / 8) (c % 8), Reg.ERG_CORE_TVEC (c / 8) (c % 8), Reg.ERG_CORE_TRAPS (c / 8) (c % 8)]

/-- An entry from e is one from d, where e has the core's registers of d, but for PC and ACCST, and the host's registers that the entry reads. -/
theorem Entered.of_same {d e d' : Dev} {c : Fin 104} {pc p : BitVec 13} {code detail tag addr : Nat} {after : Bool} {a : BitVec 17} {ws : List Fld}
    (h : Entered e d' c pc code detail tag addr after) (arch : (e.core c.val).arch = { (d.core c.val).arch with pc := p, accSt := a })
    (regs : RegsWithin ws d e) (spares : ∀ f ∈ entryFields c.val, ∀ g ∈ ws, g.Spares f) : Entered d d' c pc code detail tag addr after := by
  have world := regs.on (spares (Reg.ERG_CORE_CFG_WORLD (c.val / 8) (c.val % 8)) (by simp [entryFields]))
  have vec := regs _ (spares (Reg.ERG_CORE_TVEC (c.val / 8) (c.val % 8)) (by simp [entryFields]))
  have traps := regs _ (spares (Reg.ERG_CORE_TRAPS (c.val / 8) (c.val % 8)) (by simp [entryFields]))
  unfold Entered at h ⊢
  dsimp only at h ⊢
  rwa [arch, world, vec, traps] at h

/-! ### SYSCALL, BREAK and RTE (R189) -/

theorem commitFields_spare (c : Nat) : ∀ f ∈ entryFields c, ∀ g ∈ commitFields c, g.Spares f := by
  simp [entryFields, commitFields, Fld.Spares, coreState, Reg.ERG_CORE_CFG_WORLD, Reg.ERG_CORE_TVEC, Reg.ERG_CORE_TRAPS, Reg.ERG_CORE_BUNDLES,
    Reg.ERG_CORE_PC, Reg.ERG_CORE_STALLS, Reg.ERG_CORE_STATUS_STATE]

theorem bundles_spared (c : Nat) : ∀ g ∈ trapFields c, g.Spares (Reg.ERG_CORE_BUNDLES (c / 8) (c % 8)) := by
  simp [trapFields, Fld.Spares, coreState, Reg.ERG_CORE_BUNDLES, Reg.ERG_CORE_TRAPS, Reg.ERG_CORE_STATUS_LAST_CAUSE, Reg.ERG_CORE_STATUS_STATE]

/-- The bundle of the one operation of b, complete. -/
def Bundle.solo (n : Bundle) (b : Bnd) : Bundle := { n with count := 1, ready := true, stalls := b.stalls }

/-- A device whose core of b is about to commit a bundle of one operation. -/
def Dev.staged (d : Dev) (b : Bnd) (n : Bundle) : Dev := d.onCore b.core.val (fun x => { x with bundle := some (n.solo b) })

section
variable {d : Dev} {b : Bnd}

theorem Dev.core_staged (n : Bundle) : (d.staged b n).core b.core.val = { d.core b.core.val with bundle := some (n.solo b) } := d.core_onCore _ _

/-- A bundle of one operation is tried at once. -/
theorem Dev.op_solo (runs : d.executes b.core.val = true) (idle : (d.core b.core.val).bundle = none) (last : b.last = true)
    (f : Arch → Bundle → Bundle) : d.op b f =
      (d.staged b (f (d.core b.core.val).arch (Bundle.start (d.core b.core.val).arch))).tryCommit b.core.val := by
  have current : (d.core b.core.val).current = Bundle.start (d.core b.core.val).arch := by rw [Core.current, idle]; rfl
  rw [d.op_takes b f (by rw [Dev.takes, runs, current]; rfl), Dev.stage, Dev.stageFrom, current, last]
  rfl

/-- A bundle of one operation with no access, no trap and no end commits. -/
theorem Dev.staged_commits {n : Bundle} (load : n.load = none) (cx : n.cx = none) (traps : n.traps = []) (writes : n.writes = [])
    (tend : n.tend = none) (store : n.store = []) :
    (d.staged b n).tryCommit b.core.val = (d.staged b n).commitEffects b.core.val (n.solo b) := by
  have distinct : (n.solo b).writes.Nodup := by rw [Bundle.solo, writes]; exact List.nodup_nil
  have room : ((d.staged b n).core b.core.val).mayStore (n.solo b) = true := by rw [Core.mayStore, Bundle.solo, store]; rfl
  exact Dev.tryCommit_commits (congrArg Core.bundle (d.core_staged n)) rfl load cx (Bundle.precise_none traps distinct) tend room

theorem Dev.arch_staged_committed (n : Bundle) : (((d.staged b n).coreCommitted b.core.val (n.solo b)).core b.core.val).arch =
    (n.solo b).finish (d.core b.core.val).arch d.now := by
  rw [Dev.core_coreCommitted, Dev.core_staged]
  rfl

theorem Dev.staged_committed_regsWithin (n : Bundle) :
    RegsWithin (commitFields b.core.val) d ((d.staged b n).coreCommitted b.core.val (n.solo b)) :=
  .trans (.of_regs (Dev.setCore_regs _ _ _)) ((d.staged b n).coreCommitted_regsWithin _ _)

theorem Dev.staged_mem (n : Bundle) : (d.staged b n).mem = d.mem := Dev.setCore_mem _ _ _

theorem nextPc_one (pc : BitVec 13) : nextPc pc 1 = pc + 1 := by simp [nextPc]

/-- R189: SYSCALL commits, and the handler is entered after it. -/
theorem Dev.syscall_enters (level : (d.core b.core.val).arch.level = .tk) :
    let n := { Bundle.start (d.core b.core.val).arch with syscall := true }
    let e := (d.staged b n).coreCommitted b.core.val (n.solo b)
    (d.staged b n).tryCommit b.core.val = e.enterTrap b.core.val (trapOf 0x12 0) ((d.core b.core.val).arch.pc + 1) false true := by
  intro n e
  have level' : (e.core b.core.val).arch.level = .tk := (congrArg Arch.level (Dev.arch_staged_committed n)).trans level
  have after : (n.solo b).after = some (trapOf 0x12 0) := rfl
  rw [Dev.staged_commits rfl rfl rfl rfl rfl rfl, Dev.commitEffects_eq, after]
  dsimp only
  rw [Dev.iff, if_neg (by exact Bool.false_ne_true), Dev.takeTrap, if_pos level', Dev.core_staged, ← nextPc_one]
  rfl

/-- R189: BREAK traps before the commit. -/
theorem Dev.break_enters (level : (d.core b.core.val).arch.level = .tk) :
    let n := (Bundle.start (d.core b.core.val).arch).trap (trapOf 0x0C 0)
    (d.staged b n).tryCommit b.core.val = (d.staged b n).enterTrap b.core.val (trapOf 0x0C 0) (d.core b.core.val).arch.pc false false := by
  intro n
  have bundle := congrArg Core.bundle (d.core_staged (b := b) n)
  have arch := congrArg Core.arch (d.core_staged (b := b) n)
  have level' := (congrArg Arch.level arch).trans level
  rw [Dev.tryCommit_traps bundle rfl rfl rfl (t := trapOf 0x0C 0) rfl, Dev.takeTrap, if_pos level', arch]

/-- R136, R189: RTE commits, at the level and the PC of the trap it returns from. -/
theorem Dev.rte_commits (abort : (d.core b.core.val).abort = none) (fault : (d.core b.core.val).fault = none)
    (late : (d.core b.core.val).late = none) (l : Level) (pc : BitVec 13) :
    let n := { (Bundle.start (d.core b.core.val).arch).withNext (fun y => { y with level := l }) with branch := some pc }
    (((d.staged b n).tryCommit b.core.val).core b.core.val).arch =
      { (d.core b.core.val).arch with pc := pc, level := l, accSt := ((d.core b.core.val).arch.accSt &&& ~~~0) ||| 0 } ∧
    ((d.staged b n).tryCommit b.core.val).mem = d.mem := by
  intro n
  have after : (n.solo b).after = none := rfl
  have commit : (d.staged b n).tryCommit b.core.val = (d.staged b n).coreCommitted b.core.val (n.solo b) := by
    rw [Dev.staged_commits rfl rfl rfl rfl rfl rfl, Dev.commitEffects_eq, after]
    dsimp only
    rw [Dev.iff, if_neg (by exact Bool.false_ne_true)]
    refine Dev.takeAsync_none ?_ ?_ ?_ <;> rw [Dev.core_coreCommitted, Dev.core_staged, Core.commits]
    exacts [abort, fault, late]
  rw [commit, Dev.arch_staged_committed, Dev.coreCommitted_mem, Dev.staged_mem]
  exact ⟨rfl, rfl⟩

end

theorem exec_opSyscall (b : Bnd) (s : State) : exec (.opSyscall b) s =
    s.onDev (fun d => d.op b (fun x bu => if laneOn (x.rP b.pred.val) 0 then { bu with syscall := true } else bu)) := rfl

theorem exec_opBreak (b : Bnd) (s : State) : exec (.opBreak b) s =
    s.onDev (fun d => d.op b (fun x bu => if laneOn (x.rP b.pred.val) 0 then bu.trap (trapOf 0x0C 0) else bu)) := rfl

theorem exec_opRte (b : Bnd) (s : State) : exec (.opRte b) s = s.onDev (fun d => d.op b (fun x bu =>
    if x.level = .tk then bu.trap (trapOf 0x02 0)
    else { bu.withNext (fun y => { y with level := levelOf x.trapLevel.toNat }) with branch := some x.trapPc })) := rfl

/-- Settles O15: the bundle of each operation by what becomes of it, and an entry by what it leaves of the state before the bundle. -/
theorem trapAndReturn : Obligations.TrapAndReturn := by
  unfold Obligations.TrapAndReturn
  intro s b x e k runs idle last on abort fault late entered
  have on' : laneOn (x.arch.rP b.pred.val) 0 = true := on
  have enters {d' : Dev} {pc : BitVec 13} {cause : Nat} {after : Bool} (h : Entered s.dev d' b.core pc cause 0 0 0 after)
      (mem : d'.mem = s.dev.mem) : entered d' pc cause := by
    obtain ⟨trapPc, code, -, -, from_tk, level, vec, hs, -, hv, -, hacc, state, -, -⟩ := h
    exact ⟨trapPc, code, from_tk, vec, level, state, hs, hv, hacc, mem⟩
  refine ⟨fun user => ⟨?_, ?_⟩, fun above => ?_⟩
  · refine (completes_iff_of_exec (exec_opSyscall b s)).2 ?_
    rw [Dev.op_solo runs idle last, if_pos on', Dev.syscall_enters user]
    have arch := Dev.arch_staged_committed (d := s.dev) (b := b) { Bundle.start x.arch with syscall := true }
    have regs := Dev.staged_committed_regsWithin (d := s.dev) (b := b) { Bundle.start x.arch with syscall := true }
    refine ⟨enters (.of_same (Dev.enterTrap_entered ((congrArg Arch.level arch).trans user) rfl _ _) arch regs (commitFields_spare _)) ?_, ?_⟩
    · rw [Dev.enterTrap_mem, Dev.coreCommitted_mem, Dev.staged_mem]
    · rw [Dev.enterTrap_regsWithin _ _ _ _ _ _ _ (bundles_spared _), (Dev.get_coreCommitted _ _ _).2]
      rfl
  · refine (completes_iff_of_exec (exec_opBreak b s)).2 ?_
    rw [Dev.op_solo runs idle last, if_pos on', Dev.break_enters user]
    have arch := congrArg Core.arch (s.dev.core_staged (b := b) ((Bundle.start x.arch).trap (trapOf 0x0C 0)))
    refine ⟨enters (.of_same (ws := []) (Dev.enterTrap_entered ((congrArg Arch.level arch).trans user) rfl _ _) arch
      (.of_regs (Dev.setCore_regs _ _ _)) (by simp)) ?_, ?_⟩
    · rw [Dev.enterTrap_mem, Dev.staged_mem]
    · rw [Dev.enterTrap_regsWithin _ _ _ _ _ _ _ (bundles_spared _)]
      rfl
  · refine (completes_iff_of_exec (exec_opRte b s)).2 ?_
    rw [Dev.op_solo runs idle last, if_neg above]
    obtain ⟨arch, mem⟩ := Dev.rte_commits abort fault late (levelOf x.arch.trapLevel.toNat) x.arch.trapPc
    have field {α : Type} (f : Arch → α) := congrArg f arch
    exact ⟨field Arch.pc, (field Arch.level).trans (levelOf_toNat _), field Arch.s, field Arch.trapPc, mem⟩

/-! ### Asynchronous traps (R163) -/

/-- R163: the first asynchronous trap a core holds, and the core without it. -/
def Core.nextAsync (x : Core) : Option (Trap × Bool × Core) :=
  match x.abort, x.fault, x.late with
  | some (t, more), _, _ => some (t, more, { x with abort := none })
  | none, some (t, more), _ => some (t, more, { x with fault := none })
  | none, none, some (t, more) => some (t, more, { x with late := none })
  | none, none, none => none

theorem Core.nextAsync_abort {x : Core} {h : Trap × Bool} (abort : x.abort = some h) :
    x.nextAsync = some (h.1, h.2, { x with abort := none }) := by
  rw [Core.nextAsync, abort]

theorem Core.nextAsync_fault {x : Core} {h : Trap × Bool} (abort : x.abort = none) (fault : x.fault = some h) :
    x.nextAsync = some (h.1, h.2, { x with fault := none }) := by
  rw [Core.nextAsync, abort, fault]

theorem Core.nextAsync_late {x : Core} {h : Trap × Bool} (abort : x.abort = none) (fault : x.fault = none) (late : x.late = some h) :
    x.nextAsync = some (h.1, h.2, { x with late := none }) := by
  rw [Core.nextAsync, abort, fault, late]

/-- R163: a core at a bundle boundary at TK enters its handler with the first trap it holds. -/
theorem Dev.takeAsyncIdle_enters {d : Dev} {c : Nat} {t : Trap} {more : Bool} {x y : Core} (core : d.core c = x) (idle : x.bundle = none)
    (level : x.arch.level = .tk) (state : d.get (coreState c) = 1) (ending : x.ending = none) (forced : x.forced = false)
    (held : x.nextAsync = some (t, more, y)) :
    (d.tryCommit c).takeAsyncIdle c = (d.setCore c y).enterTrap c t x.arch.pc more true := by
  subst core
  have stays : d.tryCommit c = d := by rw [Dev.tryCommit, idle]
  rw [stays, Dev.takeAsyncIdle, idle, Option.isNone_none, if_pos rfl, Dev.takeAsync, if_pos ⟨level, state, ending, forced⟩]
  unfold Core.nextAsync at held
  split at held <;> simp_all

/-- Such an entry, seen from the state before the event that brought the trap. -/
theorem Entered.of_event {d e : Dev} {c : Fin 104} {y : Core} {t : Trap} {ws : List Fld} (level : (d.core c.val).arch.level = .tk)
    (arch : y.arch = (d.core c.val).arch) (plain : t.bundleFault = 0) (regs : RegsWithin ws d e)
    (spares : ∀ f ∈ entryFields c.val, ∀ g ∈ ws, g.Spares f) :
    Entered d ((e.setCore c.val y).enterTrap c.val t (d.core c.val).arch.pc false true) c (d.core c.val).arch.pc t.code t.detail t.tag t.addr true := by
  have same : ((e.setCore c.val y).core c.val).arch = (d.core c.val).arch := by rw [Dev.core_setCore, arch]
  exact .of_same (Dev.enterTrap_entered (by rw [same, level]) plain _ _) same (regs.trans (.of_regs (Dev.setCore_regs _ _ _))) spares

/-! ### The events of a core (R157, R160, R169, R205) -/

theorem exec_branchResolve (c : Fin 104) (missed : Bool) (n : Fin 17) (s : State) : exec (.branchResolve c missed n) s =
    s.onDev (fun d => if missed && d.executes c.val then d.add (Reg.ERG_CORE_SQUASHED (c.val / 8) (c.val % 8)) n.val else d) := rfl

theorem exec_storeAccepted (c : Fin 104) (j : Fin 16) (ext : List Ext) (s : State) :
    exec (.storeAccepted c j ext) s = s.onDev (fun d => d.storeAccepted c.val j.val ext) := rfl

theorem exec_storeFault (c : Fin 104) (s : State) : exec (.storeFault c) s = s.onDev (fun d => d.storeFault c.val) := rfl

theorem exec_abortRequest (c : Fin 104) (s : State) : exec (.abortRequest c) s = s.onDev (fun d => abortRequest c.val d) := rfl

theorem exec_cxLate (c : Fin 104) (s : State) : exec (.cxLate c) s = s.onDev (fun d => d.cxReport c.val) := rfl

/-- R160: a store with no older one at a controller of its own leaves the buffer. -/
theorem Dev.storeAccepted_accepts {d d' : Dev} {c j : Nat} {ext : List Ext} {st : List StoreWord} (store : (d.core c).buffer[j]? = some st)
    (first : ∀ i < j, ∀ o, (d.core c).buffer[i]? = some o → ∀ q ∈ d.storeCtrls o, q ∉ d.storeCtrls st)
    (accepted : (d.setCore c { d.core c with buffer := (d.core c).buffer.eraseIdx j }).storeAll c st ext = (d', none)) :
    d.storeAccepted c j ext = d'.afterStore c := by
  have clear : ((d.core c).buffer.take j).any (fun o => (d.storeCtrls o).any (d.storeCtrls st).contains) = false := by
    rw [List.any_eq_false]
    intro o mem
    obtain ⟨i, hi⟩ := List.mem_iff_getElem?.1 mem
    obtain ⟨below, at_i⟩ : i < j ∧ (d.core c).buffer[i]? = some o := by simpa [List.getElem?_take] using hi
    simpa using first i below o at_i
  simp only [Dev.storeAccepted, store, clear, Bool.false_eq_true, if_false, accepted]

/-- R205, R212, R215: the report of a late coprocessor error in the core's registers. -/
def Dev.cxLogged (d : Dev) (c : Nat) (o : CxOp) (code w : Nat) : Dev :=
  let e := c / 8
  let k := c % 8
  let d := (d.bump (cxLate c)).set (Reg.ERG_CX_LAST_LATE_CODE e k) code
  let d := (d.set (Reg.ERG_CX_LAST_LATE_TAG e k) o.tag).set (Reg.ERG_CX_LAST_LATE_FN e k) o.fn
  let d := (d.set (Reg.ERG_CX_LAST_LATE_ADDR_LO e k) w).set (Reg.ERG_CX_LAST_LATE_ADDR_HI e k) (w / 2 ^ 32)
  (d.set (Reg.ERG_CX_ATTN_LATE e k) 1).coreEvent c 2

/-- The fields such a report writes. -/
def lateFields (c : Nat) : List Fld :=
  [cxLate c, Reg.ERG_CX_LAST_LATE_CODE (c / 8) (c % 8), Reg.ERG_CX_LAST_LATE_TAG (c / 8) (c % 8), Reg.ERG_CX_LAST_LATE_FN (c / 8) (c % 8),
    Reg.ERG_CX_LAST_LATE_ADDR_LO (c / 8) (c % 8), Reg.ERG_CX_LAST_LATE_ADDR_HI (c / 8) (c % 8), Reg.ERG_CX_ATTN_LATE (c / 8) (c % 8)]

section
variable (d : Dev) (c : Nat) (o : CxOp) (code w : Nat)

theorem Dev.core_cxLogged : (d.cxLogged c o code w).core c = d.core c := by
  rw [Dev.cxLogged, Dev.coreEvent, Dev.core_raise, Dev.core_set, Dev.core_set, Dev.core_set, Dev.core_set, Dev.core_set, Dev.core_set,
    Dev.core_bump]

theorem Dev.cxLogged_regsWithin : RegsWithin (lateFields c) d (d.cxLogged c o code w) := by
  unfold Dev.cxLogged Dev.bump
  refine .trans ?_ (.of_regs (Dev.raise_regs _ _))
  refine .set (.set (.set (.set (.set (.set (.set (.refl _ _) ?_ _) ?_ _) ?_ _) ?_ _) ?_ _) ?_ _) ?_ _ <;> simp [lateFields]

/-- What follows the count leaves it. -/
theorem Dev.cxLogged_after_late : RegsWithin (lateFields c).tail (d.bump (cxLate c)) (d.cxLogged c o code w) := by
  unfold Dev.cxLogged
  refine .trans ?_ (.of_regs (Dev.raise_regs _ _))
  refine .set (.set (.set (.set (.set (.set (.refl _ _) ?_ _) ?_ _) ?_ _) ?_ _) ?_ _) ?_ _ <;> simp [lateFields]

/-- What follows the code leaves it. -/
theorem Dev.cxLogged_after_code : RegsWithin (lateFields c).tail.tail
    ((d.bump (cxLate c)).set (Reg.ERG_CX_LAST_LATE_CODE (c / 8) (c % 8)) code) (d.cxLogged c o code w) := by
  unfold Dev.cxLogged
  refine .trans ?_ (.of_regs (Dev.raise_regs _ _))
  refine .set (.set (.set (.set (.set (.refl _ _) ?_ _) ?_ _) ?_ _) ?_ _) ?_ _ <;> simp [lateFields]

/-- R215: LATE counts the report; LAST_LATE.CODE and ATTN.LATE show it. -/
theorem Dev.get_cxLogged :
    (d.cxLogged c o code w).get (cxLate c) = (d.get (cxLate c) + 1) % 2 ^ (cxLate c).w ∧
    (d.cxLogged c o code w).get (Reg.ERG_CX_LAST_LATE_CODE (c / 8) (c % 8)) = code % 2 ^ (Reg.ERG_CX_LAST_LATE_CODE (c / 8) (c % 8)).w ∧
    (d.cxLogged c o code w).on (Reg.ERG_CX_ATTN_LATE (c / 8) (c % 8)) = true := by
  refine ⟨?_, ?_, ?_⟩
  · rw [d.cxLogged_after_late c o code w _ (by simp [lateFields, Fld.Spares, cxLate, Reg.ERG_CX_LATE, Reg.ERG_CX_LAST_LATE_CODE,
      Reg.ERG_CX_LAST_LATE_TAG, Reg.ERG_CX_LAST_LATE_FN, Reg.ERG_CX_LAST_LATE_ADDR_LO, Reg.ERG_CX_LAST_LATE_ADDR_HI, Reg.ERG_CX_ATTN_LATE])]
    exact Dev.get_bump_self _ _ (by simp [cxLate, Reg.ERG_CX_LATE])
  · rw [d.cxLogged_after_code c o code w _ (by simp [lateFields, Fld.Spares, Reg.ERG_CX_LAST_LATE_CODE,
      Reg.ERG_CX_LAST_LATE_TAG, Reg.ERG_CX_LAST_LATE_FN, Reg.ERG_CX_LAST_LATE_ADDR_LO, Reg.ERG_CX_LAST_LATE_ADDR_HI, Reg.ERG_CX_ATTN_LATE])]
    exact Dev.get_set_self _ _ _ (by simp [Reg.ERG_CX_LAST_LATE_CODE])
  · rw [Dev.cxLogged, Dev.coreEvent, Dev.on_raise, Dev.on_set_self _ _ _ (by simp [Reg.ERG_CX_ATTN_LATE])]
    rfl

end

/-- R205: the core once the error of its operation o has been reported, as the trap t. -/
def Core.cxReported (x : Core) (o : CxOp) (t : Trap) (halted : Bool) : Core :=
  { x with late := if halted then x.late else holdTrap x.late t,
           ops := if o.ended then x.ops.filter (fun y => !(y == o))
                  else x.ops.map (fun y => if y == o then { o with reported := true } else y) }

/-- R205: the report of the error of operation o, up to the trap it holds. -/
def Dev.cxReported (d : Dev) (c : Nat) (o : CxOp) : Dev :=
  let code := (o.err.getD (0, 0)).1
  let t : Trap := { trapOf 0x1A 0 with detail := code, tag := o.tag }
  let halted := !(d.get (coreState c) == 1 || d.get (coreState c) == 2)
  let d := (d.cxLogged c o code (o.err.getD (0, 0)).2).onCore c (fun x => x.cxReported o t halted)
  if o.record.isNone && !o.ended then d.cxEnds c { o with reported := true } else d

theorem Dev.cxReport_of_find {d : Dev} {c : Nat} {o : CxOp}
    (oldest : (d.core c).ops.find? (fun o => o.err.isSome && !o.reported) = some o) :
    d.cxReport c = ((d.cxReported c o).tryCommit c).takeAsyncIdle c := by
  refine (?_ : (match (d.core c).ops.find? (fun o => o.err.isSome && !o.reported) with
    | none => d
    | some o => ((d.cxReported c o).tryCommit c).takeAsyncIdle c) = _)
  rw [oldest]

theorem lateFields_spare (c : Nat) : ∀ f ∈ coreState c :: entryFields c, ∀ g ∈ lateFields c, g.Spares f := by
  have k := Nat.mod_lt c (by decide : 0 < 8)
  simp [entryFields, lateFields, cxLate, Fld.Spares, coreState, Reg.ERG_CORE_CFG_WORLD, Reg.ERG_CORE_TVEC, Reg.ERG_CORE_TRAPS,
    Reg.ERG_CORE_STATUS_STATE, Reg.ERG_CX_LATE, Reg.ERG_CX_LAST_LATE_CODE, Reg.ERG_CX_LAST_LATE_TAG, Reg.ERG_CX_LAST_LATE_FN,
    Reg.ERG_CX_LAST_LATE_ADDR_LO, Reg.ERG_CX_LAST_LATE_ADDR_HI, Reg.ERG_CX_ATTN_LATE]
  omega

theorem trapFields_spare_late (c : Nat) : ∀ f ∈ lateFields c, ∀ g ∈ trapFields c, g.Spares f := by
  have k := Nat.mod_lt c (by decide : 0 < 8)
  simp [trapFields, lateFields, cxLate, Fld.Spares, coreState, Reg.ERG_CORE_TRAPS, Reg.ERG_CORE_STATUS_STATE, Reg.ERG_CORE_STATUS_LAST_CAUSE,
    Reg.ERG_CX_LATE, Reg.ERG_CX_LAST_LATE_CODE, Reg.ERG_CX_LAST_LATE_TAG, Reg.ERG_CX_LAST_LATE_FN, Reg.ERG_CX_LAST_LATE_ADDR_LO,
    Reg.ERG_CX_LAST_LATE_ADDR_HI, Reg.ERG_CX_ATTN_LATE]
  omega

theorem storeAttn_spares (c : Nat) : ∀ f ∈ coreState c :: entryFields c, ∀ g ∈ [Reg.ERG_CORE_ATTN_STORE_FAULT (c / 8) (c % 8)], g.Spares f := by
  simp [entryFields, Fld.Spares, coreState, Reg.ERG_CORE_CFG_WORLD, Reg.ERG_CORE_TVEC, Reg.ERG_CORE_TRAPS, Reg.ERG_CORE_STATUS_STATE,
    Reg.ERG_CORE_ATTN_STORE_FAULT]

theorem trapFields_spare_storeAttn (c : Nat) : ∀ g ∈ trapFields c, g.Spares (Reg.ERG_CORE_ATTN_STORE_FAULT (c / 8) (c % 8)) := by
  simp [trapFields, Fld.Spares, coreState, Reg.ERG_CORE_TRAPS, Reg.ERG_CORE_STATUS_STATE, Reg.ERG_CORE_STATUS_LAST_CAUSE,
    Reg.ERG_CORE_ATTN_STORE_FAULT]

/-- R161, R171: a store error reported, with the trap it holds. -/
def Dev.storeLogged (d : Dev) (c : Nat) (rest : List (Nat × Nat)) (t : Trap) : Dev :=
  ((d.setCore c { d.core c with storeErrs := rest, fault := some (t, false) }).set (Reg.ERG_CORE_ATTN_STORE_FAULT (c / 8) (c % 8)) 1).coreEvent c 1

theorem Dev.core_storeLogged (d : Dev) (c : Nat) (rest : List (Nat × Nat)) (t : Trap) :
    (d.storeLogged c rest t).core c = { d.core c with storeErrs := rest, fault := some (t, false) } := d.core_setCore c _

theorem Dev.storeLogged_regsWithin (d : Dev) (c : Nat) (rest : List (Nat × Nat)) (t : Trap) :
    RegsWithin [Reg.ERG_CORE_ATTN_STORE_FAULT (c / 8) (c % 8)] d (d.storeLogged c rest t) :=
  .trans (.set (.of_regs (Dev.setCore_regs _ _ _)) (by simp) _) (.of_regs (Dev.raise_regs _ _))

section
variable {d : Dev} {c : Nat} (boundary : d.atBoundary c)
include boundary

/-- R161: the report of a store error enters the handler. -/
theorem Dev.storeFault_enters {st a : Nat} {rest : List (Nat × Nat)} (errs : (d.core c).storeErrs = (st, a) :: rest) :
    let t : Trap := { trapOf 0x19 a with detail := st }
    d.storeFault c = ((d.storeLogged c rest t).setCore c { d.core c with storeErrs := rest, fault := none }).enterTrap c t (d.core c).arch.pc
      false true := by
  intro t
  obtain ⟨idle, level, state, ending, forced, abort, fault, -⟩ := boundary
  have logged : d.storeFault c = ((d.storeLogged c rest t).tryCommit c).takeAsyncIdle c := by
    simp only [Dev.storeFault, errs, state, fault, holdTrap]
    rfl
  have state' : (d.storeLogged c rest t).get (coreState c) = 1 :=
    (d.storeLogged_regsWithin c rest t _ (storeAttn_spares c _ List.mem_cons_self)).trans state
  have enters := Dev.takeAsyncIdle_enters (d.core_storeLogged c rest t) idle level state' ending forced (Core.nextAsync_fault abort rfl)
  exact logged.trans enters

/-- R169: an abort that was asked enters the handler. -/
theorem abortRequest_enters (asked : (d.core c).asked = true) : ∃ e : Dev, e.regs = d.regs ∧
    abortRequest c d = (e.setCore c { d.core c with asked := false, abort := none }).enterTrap c (trapOf 0x18 0) (d.core c).arch.pc false true := by
  obtain ⟨idle, level, state, ending, forced, abort, -, -⟩ := boundary
  let e := (d.setCore c { d.core c with asked := false }).onCore c (fun x => { x with abort := holdTrap x.abort (trapOf 0x18 0) })
  have runs : (d.setCore c { d.core c with asked := false }).executes c = true := by
    rw [Dev.executes, Dev.core_setCore, Dev.get_of_regs (Dev.setCore_regs _ _ _), state, ending, forced]
    rfl
  have held : abortRequest c d = (e.tryCommit c).takeAsyncIdle c := by
    rw [abortRequest, asked]
    exact if_pos runs
  have core : e.core c = { d.core c with asked := false, abort := some (trapOf 0x18 0, false) } := by
    rw [Dev.core_onCore, Dev.core_setCore, abort]
    rfl
  have enters := Dev.takeAsyncIdle_enters core idle level state ending forced (Core.nextAsync_abort rfl)
  exact ⟨e, rfl, held.trans enters⟩

/-- R205: a late coprocessor error whose record is written leaves its operation running. -/
theorem Dev.cxReported_eq {o : CxOp} {code w : Nat} (err : o.err = some (code, w)) (record : o.record.isSome = true) :
    d.cxReported c o =
      (d.cxLogged c o code w).onCore c (fun x => x.cxReported o { trapOf 0x1A 0 with detail := code, tag := o.tag } false) := by
  obtain ⟨-, -, state, -, -, -, -, -⟩ := boundary
  have kept : o.record.isNone = false := by rw [Option.isNone_eq_false_iff, record]
  simp only [Dev.cxReported, err, state, kept]
  rfl

/-- R205: it enters the handler. -/
theorem Dev.cxReport_enters {o : CxOp} {code w : Nat} (oldest : (d.core c).ops.find? (fun o => o.err.isSome && !o.reported) = some o)
    (err : o.err = some (code, w)) (record : o.record.isSome = true) :
    let t : Trap := { trapOf 0x1A 0 with detail := code, tag := o.tag }
    ∃ e : Dev, e.regs = (d.cxLogged c o code w).regs ∧
      d.cxReport c = (e.setCore c { (d.core c).cxReported o t false with late := none }).enterTrap c t (d.core c).arch.pc false true := by
  intro t
  have reported := Dev.cxReported_eq boundary err record
  obtain ⟨idle, level, state, ending, forced, abort, fault, late⟩ := boundary
  have core : (d.cxReported c o).core c = (d.core c).cxReported o t false := by
    rw [reported, Dev.core_onCore, Dev.core_cxLogged]
  have held : ((d.core c).cxReported o t false).late = some (t, false) := congrArg (holdTrap · t) late
  have regs : (d.cxReported c o).regs = (d.cxLogged c o code w).regs := by rw [reported, Dev.onCore, Dev.setCore_regs]
  have state' : (d.cxReported c o).get (coreState c) = 1 := by
    rw [Dev.get_of_regs regs, d.cxLogged_regsWithin c o code w _ (lateFields_spare c _ List.mem_cons_self), state]
  have enters := Dev.takeAsyncIdle_enters core idle level state' ending forced (Core.nextAsync_late abort fault held)
  refine ⟨_, regs, ?_⟩
  rw [Dev.cxReport_of_find oldest]
  exact enters

end

section
variable (d : Dev) (c : Fin 104) (rest : List (Nat × Nat)) (t : Trap)

/-- R161: ATTN.STORE_FAULT shows the report. -/
theorem Dev.storeLogged_attn : (d.storeLogged c.val rest t).on (Reg.ERG_CORE_ATTN_STORE_FAULT (c.val / 8) (c.val % 8)) = true := by
  rw [Dev.storeLogged, Dev.coreEvent, Dev.on_raise, Dev.on_set_self _ _ _ (by simp [Reg.ERG_CORE_ATTN_STORE_FAULT])]
  rfl

theorem Dev.storeLogged_world : (d.storeLogged c.val rest t).on (Reg.ERG_CORE_CFG_WORLD (c.val / 8) (c.val % 8)) =
    d.on (Reg.ERG_CORE_CFG_WORLD (c.val / 8) (c.val % 8)) :=
  (d.storeLogged_regsWithin c.val rest t).on (storeAttn_spares c.val _ (by simp [entryFields]))

/-- R171: event STORE_FAULT. -/
theorem Dev.storeLogged_queue : (d.storeLogged c.val rest t).evt.queue =
    d.evt.queue ++ [⟨8 * c.val + 1, d.on (Reg.ERG_CORE_CFG_WORLD (c.val / 8) (c.val % 8))⟩] := by
  have world := d.storeLogged_world c rest t
  rw [Dev.storeLogged, Dev.coreEvent, Dev.on_raise] at world
  rw [Dev.storeLogged, Dev.coreEvent_queue _ _ (by decide), world]
  rfl

/-- R162, R171: event STORE_FAULT, and CORE_TRAP of the trap it brings. -/
theorem Dev.storeLogged_enters_queue (y : Core) (pc : BitVec 13) :
    (((d.storeLogged c.val rest t).setCore c.val y).enterTrap c.val t pc false true).evt.queue =
      d.evt.queue ++ [⟨8 * c.val + 1, d.on (Reg.ERG_CORE_CFG_WORLD (c.val / 8) (c.val % 8))⟩,
        ⟨8 * c.val + 3, d.on (Reg.ERG_CORE_CFG_WORLD (c.val / 8) (c.val % 8))⟩] := by
  have queue : ((d.storeLogged c.val rest t).setCore c.val y).evt.queue = (d.storeLogged c.val rest t).evt.queue := by rw [Dev.setCore_evt]
  rw [Dev.enterTrap_queue, queue, Dev.on_of_regs (Dev.setCore_regs _ _ _), Dev.storeLogged_world, Dev.storeLogged_queue, List.append_assoc]
  rfl

end

/-- R162, R215: what a late coprocessor error shows once its trap has been entered. -/
theorem Dev.cxLogged_enters_shows (d : Dev) (c : Nat) (o : CxOp) (code w : Nat) {e : Dev} (regs : e.regs = (d.cxLogged c o code w).regs)
    (y : Core) (t : Trap) (pc : BitVec 13) :
    let d' := (e.setCore c y).enterTrap c t pc false true
    d'.get (cxLate c) = (d.get (cxLate c) + 1) % 2 ^ (cxLate c).w ∧
    d'.get (Reg.ERG_CX_LAST_LATE_CODE (c / 8) (c % 8)) = code % 2 ^ (Reg.ERG_CX_LAST_LATE_CODE (c / 8) (c % 8)).w ∧
    d'.on (Reg.ERG_CX_ATTN_LATE (c / 8) (c % 8)) = true := by
  intro d'
  have shown {f : Fld} (hf : f ∈ lateFields c) : d'.get f = (d.cxLogged c o code w).get f :=
    (Dev.enterTrap_regsWithin _ _ _ _ _ _ f (trapFields_spare_late _ f hf)).trans (Dev.get_of_regs regs f)
  rw [Dev.on, shown (by simp [lateFields]), shown (by simp [lateFields]), shown (by simp [lateFields])]
  exact d.get_cxLogged c o code w

/-- Settles O16: a misprediction and an accepted store by their commands, and each asynchronous trap by the entry of the handler it brings. -/
theorem coreEvents : Obligations.CoreEvents := by
  unfold Obligations.CoreEvents
  intro s c x e k
  refine ⟨fun n runs => ⟨(completes_iff_of_exec (exec_branchResolve c true n s)).2 ?_, rfl⟩, fun j ext st d' store first accepted => ?_,
    fun st a rest boundary errs => (completes_iff_of_exec (exec_storeFault c s)).2 ?_,
    fun boundary asked => (completes_iff_of_exec (exec_abortRequest c s)).2 ?_,
    fun o code w boundary oldest err _ record => (completes_iff_of_exec (exec_cxLate c s)).2 ?_⟩
  · rw [if_pos (by rw [runs]; rfl)]
    exact ⟨Dev.get_set_self _ _ _ (by simp [Reg.ERG_CORE_SQUASHED]), rfl, rfl⟩
  · exact (gives_iff_of_exec (exec_storeAccepted c j ext s)).2 (Dev.storeAccepted_accepts store first accepted)
  · rw [Dev.storeFault_enters boundary errs]
    obtain ⟨-, level, -⟩ := boundary
    have regs := s.dev.storeLogged_regsWithin c.val rest { trapOf 0x19 a with detail := st }
    refine ⟨Entered.of_event level rfl rfl regs fun f hf => storeAttn_spares c.val f (List.mem_cons_of_mem _ hf), ?_, ?_,
      s.dev.storeLogged_enters_queue c rest _ _ _⟩
    · rw [(Dev.enterTrap_regsWithin _ _ _ _ _ _).on (trapFields_spare_storeAttn _), Dev.on_of_regs (Dev.setCore_regs _ _ _),
        Dev.storeLogged_attn]
    · rw [Dev.core_enterTrap, Dev.core_setCore]
      rfl
  · obtain ⟨e, regs, entry⟩ := abortRequest_enters boundary asked
    obtain ⟨-, level, -⟩ := boundary
    rw [entry]
    refine ⟨Entered.of_event (ws := []) level rfl rfl (.of_regs regs) (by simp), ?_⟩
    rw [Dev.core_enterTrap, Dev.core_setCore]
    rfl
  · obtain ⟨e, regs, entry⟩ := Dev.cxReport_enters boundary oldest err record
    obtain ⟨-, level, -⟩ := boundary
    have logged := s.dev.cxLogged_regsWithin c.val o code w
    rw [entry]
    exact ⟨Entered.of_event level rfl rfl (logged.trans (.of_regs regs)) fun f hf => lateFields_spare c.val f (List.mem_cons_of_mem _ hf),
      s.dev.cxLogged_enters_shows c.val o code w regs _ _ _⟩

end Sys2Proof.Machine
end

section
/-! SUPPORT. The lane operations of the VALU slot that wrap (R182), and the CX slot: issue, wait and lock (R191, R201, R203, R211). -/

namespace Sys2Proof.Machine

/-! ### Lanes that wrap (R182) -/

/-- A value that fits its register is kept. -/
theorem wrapped_toInt {n : Nat} (x : BitVec n) : wrapped n x.toInt = x.toInt := by rw [wrapped, BitVec.ofInt_toInt]

/-- R182: the complement of a lane. -/
theorem wrapped_not (n : Nat) (z : Int) : wrapped n (-z - 1) = wrapped n (~~~BitVec.ofInt n z).toInt := by
  have complement : BitVec.ofInt n (-z - 1) = ~~~BitVec.ofInt n z := by
    rw [BitVec.not_eq_neg_add, Int.sub_eq_add_neg, BitVec.ofInt_add, BitVec.ofInt_neg, BitVec.ofInt_neg, ← BitVec.sub_eq_add_neg]
    rfl
  rw [wrapped_toInt, wrapped, complement]

/-- R182: lane i ⊕ 1 is the other part of complex lane i / 2. -/
theorem Arch.lanes_pairLane (r : Arch) (x : Fin 64) (i : Nat) : r.lanes x (pairLane i) = if i % 2 = 0 then r.im x i else r.re x i := by
  unfold Arch.lanes Arch.re Arch.im pairLane
  split
  · rw [show 2 * (i / 2) + 1 = i + 1 by omega]
  · rw [show 2 * (i / 2) = i - 1 by omega]

/-- R139, R182: a vector written gives its selected lanes their values, wrapped. -/
theorem Bundle.vector_lane (bu : Bundle) (x : Arch) (r : Nat) (on : Nat → Bool) (f : Nat → Int) {i : Nat} (hi : i < 32) :
    laneOf ((bu.vector x r on f).next.physV (x.phys r)) i = if on i then wrapped 18 (f i) else laneOf (x.rV r) i := by
  have written : (bu.vector x r on f).next.physV (x.phys r) = ofLanes (fun i => if on i then f i else laneOf (x.rV r) i) :=
    Arch.physV_wV _ _ _
  rw [written, laneOf_ofLanes _ _ hi]
  split
  · rfl
  · exact wrapped_toInt _

/-- R139, R182: a vector written leaves every other V register, and the rest of the bundle but for its note. -/
theorem Bundle.vector_others (bu : Bundle) (x : Arch) (r : Nat) (on : Nat → Bool) (f : Nat → Int) (q : Nat) (h : q ≠ x.phys r) :
    (bu.vector x r on f).next.physV q = bu.next.physV q := Arch.physV_wV_ne _ _ h

theorem Bundle.vector_frame (bu : Bundle) (x : Arch) (r : Nat) (on : Nat → Bool) (f : Nat → Int) :
    bu.vector x r on f = { bu with writes := bu.writes ++ [nameV (x.phys r)], next := { bu.next with v := (bu.vector x r on f).next.v } } := by
  obtain ⟨w, written⟩ : ∃ w, bu.vector x r on f = (bu.note [nameV (x.phys r)]).withNext (fun y => y.wV (x.phys r) w) := ⟨_, rfl⟩
  rw [written]
  rfl

/-- R182: VINS writes lane l, if its predicate bit is set, and nothing else. -/
theorem issues_vins (s : State) (b : Bnd) (v : Fin 64) (l k : Fin 32) : Issues (.opVins b v l k) s b (fun r B0 B =>
    (∀ i < 32, laneOf (B.next.physV (r.phys v.val)) i = if i = l.val ∧ laneSelected r b false i = true then r.lo k else r.sample v i) ∧
    (∀ q, q ≠ r.phys v.val → B.next.physV q = B0.next.physV q) ∧
    B = { B0 with writes := B0.writes ++ [nameV (r.phys v.val)], next := { B0.next with v := B.next.v } }) := by
  refine issues_of_op (f := fun x bu => bu.vector x v.val (fun i => i == l.val && laneOn (x.rP b.pred.val) i) (fun _ => x.lo k)) rfl
    ⟨fun i hi => (Bundle.vector_lane _ _ _ _ _ hi).trans ?_, Bundle.vector_others _ _ _ _ _, Bundle.vector_frame _ _ _ _ _⟩
  have put (x : Arch) : wrapped 18 (x.lo k) = x.lo k := wrapped_toInt _
  simp only [put, Bool.and_eq_true, beq_iff_eq]
  rfl

/-- Settles O3: each form by the value of its lanes, up to wrapping. -/
theorem valuWraps : Obligations.ValuWraps := by
  unfold Obligations.ValuWraps
  intro s b v x y q k l t imm
  refine ⟨issues_valu rfl fun _ _ => rfl, issues_valu rfl fun _ _ => rfl, issues_valu rfl fun _ _ => rfl, issues_valu rfl fun _ _ => rfl,
    issues_valu rfl fun _ _ => rfl, issues_valu rfl fun _ _ => rfl, issues_valu rfl fun _ _ => rfl, issues_valu rfl fun _ _ => rfl,
    issues_valu rfl fun _ _ => rfl, issues_valu rfl fun _ _ => wrapped_not 18 _, issues_valu rfl fun r i => ?_, issues_valu rfl fun r i => ?_,
    issues_valu rfl fun _ _ => congrArg _ (roundShift_eq _ _), issues_valu rfl fun r i => congrArg _ (r.lanes_pairLane x i),
    issues_valu rfl fun _ _ => rfl, issues_valu rfl fun _ _ => rfl, issues_valu rfl fun _ _ => rfl, issues_valu rfl fun _ _ => rfl,
    issues_valu rfl fun _ _ => rfl, issues_valu rfl fun _ _ => rfl, issues_vins s b v l k⟩
  · exact congrArg (fun z => wrapped 18 (r.lanes x i * z)) (Nat.cast_pow 2 t.val)
  · exact congrArg (fun z => wrapped 18 (r.lanes x i / z)) (Nat.cast_pow 2 t.val)

/-! ### The CX slot (R191, R201, R203, R211) -/

/-- An operation that waits leaves the device as it was. -/
theorem Dev.opWith_waits {d : Dev} {b : Bnd} {f : Dev → Core → Bundle → Option (Dev × Bundle)}
    (hf : f d (d.core b.core.val) (d.core b.core.val).current = none) : d.opWith b f = d := by
  simp only [Dev.opWith, hf, ite_self]

/-- R201: the operation an issue puts into its bundle. -/
def CxOp.fresh (tag : Fin 8) (fn block : Nat) : CxOp :=
  { tag := tag.val, fn := fn, block := block, begun := false, ranges := [], staged := [], poisoned := false, record := none, err := none,
    reported := false, ended := false }

section
variable {c : Instr} {s : State} {b : Bnd} {fn : Nat} {tag : Fin 8} {n : Fin 16} {g : Fin 4}

/-- R201, R203: an issue whose tag is free sets its SB bit, and puts its operation into the bundle. -/
theorem gives_issue_on (arm : exec c s = s.onDev (fun d => d.cxIssue b fn tag n g)) (takes : s.dev.takes b = true)
    (on : laneOn ((s.dev.core b.core.val).arch.rP b.pred.val) 0 = true) (free : (s.dev.core b.core.val).sb.getLsbD tag.val = false) :
    Gives c s ((s.dev.onCore b.core.val (fun y => { y with sb := y.sb ||| BitVec.ofNat 8 (2 ^ tag.val) })).stageFrom b
      (s.dev.core b.core.val).current { (s.dev.core b.core.val).current with cx := some (CxOp.fresh tag fn
        ((s.dev.core b.core.val).arch.rSeg s.dev.ownId g.val * 2 ^ 32 + ((s.dev.core b.core.val).arch.rA n.val).toNat)) }) := by
  unfold Gives
  rw [arm, State.onDev_eq, Dev.cxIssue, Dev.opWith_stages takes]
  simp only [on, free, Bool.not_true, Bool.false_eq_true, if_false]
  rfl

/-- R139: an issue that its predicate turns off does nothing. -/
theorem gives_issue_off (arm : exec c s = s.onDev (fun d => d.cxIssue b fn tag n g)) (takes : s.dev.takes b = true)
    (off : laneOn ((s.dev.core b.core.val).arch.rP b.pred.val) 0 = false) : Gives c s (s.dev.stage b (s.dev.core b.core.val).current) := by
  unfold Gives
  rw [arm, State.onDev_eq, Dev.cxIssue, Dev.opWith_takes _ _ _ _ takes]
  simp only [off, Bool.not_false, if_true]

end

section
variable {s : State} {b : Bnd} {mask : BitVec 8} {p : Fin 8}

theorem exec_opCxwait (b : Bnd) (mask : BitVec 8) (s : State) :
    exec (.opCxwait b mask) s = s.onDev (fun d => d.opWith b (fun d core bu =>
      if laneOn (core.arch.rP b.pred.val) 0 && core.sb &&& mask != 0 then none else some (d, bu))) := rfl

/-- R191: CXWAIT waits while an SB bit of its mask is set. -/
theorem cxwait_waits (on : laneOn ((s.dev.core b.core.val).arch.rP b.pred.val) 0 = true) (busy : (s.dev.core b.core.val).sb &&& mask ≠ 0) :
    Gives (.opCxwait b mask) s s.dev := by
  unfold Gives
  rw [exec_opCxwait, State.onDev_eq, Dev.opWith_waits]
  rw [on, bne_iff_ne.2 busy]
  rfl

/-- R191: CXWAIT completes without effect once no SB bit of its mask is set. -/
theorem issues_cxwait (done : laneOn ((s.dev.core b.core.val).arch.rP b.pred.val) 0 = false ∨ (s.dev.core b.core.val).sb &&& mask = 0) :
    Issues (.opCxwait b mask) s b (fun _ B0 B => B = B0) := by
  refine issues_of_opWith (exec_opCxwait b mask s) ?_ rfl
  obtain off | idle := done
  · simp only [off, Bool.false_and, Bool.false_eq_true, if_false]
  · simp only [idle, bne_self_eq_false, Bool.and_false, Bool.false_eq_true, if_false]

/-- R211: CXLOCK takes the lock where the core holds it or may use the coprocessor. -/
theorem issues_cxlock_taken (on : laneOn ((s.dev.core b.core.val).arch.rP b.pred.val) 0 = true)
    (got : (s.dev.core b.core.val).lock = true ∨ s.dev.cxEnabled b.core.val (s.dev.core b.core.val).arch.level = true) :
    Issues (.opCxlock b p) s b (fun _ B0 B =>
      B = { B0 with writes := B0.writes ++ [nameP p.val], next := B0.next.wP p.val (BitVec.allOnes 32), lock := some true }) := by
  refine issues_of_opWith rfl ?_ rfl
  simp only [on, (Bool.or_eq_true _ _).mpr got]
  rfl

/-- R211: CXLOCK that is refused the lock. -/
theorem issues_cxlock_refused (on : laneOn ((s.dev.core b.core.val).arch.rP b.pred.val) 0 = true)
    (free : (s.dev.core b.core.val).lock = false) (closed : s.dev.cxEnabled b.core.val (s.dev.core b.core.val).arch.level = false) :
    Issues (.opCxlock b p) s b (fun _ B0 B => B = { B0 with writes := B0.writes ++ [nameP p.val], next := B0.next.wP p.val 0 }) := by
  refine issues_of_opWith rfl ?_ rfl
  simp only [on, free, closed]
  rfl

/-- R139: CXLOCK that its predicate turns off. -/
theorem issues_cxlock_off (off : laneOn ((s.dev.core b.core.val).arch.rP b.pred.val) 0 = false) :
    Issues (.opCxlock b p) s b (fun _ B0 B => B = { B0 with writes := B0.writes ++ [nameP p.val] }) := by
  refine issues_of_opWith rfl ?_ rfl
  simp only [off]
  rfl

end

/-- Settles O12: each issue by its predicate and its tag's SB bit, CXWAIT by the bits it waits for, CXLOCK by the enable of its level. -/
theorem coprocessorSlot : Obligations.CoprocessorSlot := by
  unfold Obligations.CoprocessorSlot
  intro s b tag n g mask p core x on level enabled
  have issue {c : Instr} {fn : Nat} (arm : exec c s = s.onDev (fun d => d.cxIssue b fn tag n g)) (takes : s.dev.takes b = true) :=
    And.intro (gives_issue_on arm takes) (gives_issue_off arm takes)
  have enable : s.dev.cxEnabled b.core.val x.level = (enabled == 1) := rfl
  refine ⟨issue rfl, issue rfl, issue rfl, issue rfl, issues_cxwait, fun hon busy _ => cxwait_waits hon busy,
    fun hon => ⟨fun got => issues_cxlock_taken hon ?_, fun free closed => issues_cxlock_refused hon free ?_⟩, issues_cxlock_off,
    issues_marked rfl⟩
  · exact got.imp_right fun one => enable.trans (by rw [one]; rfl)
  · exact enable.trans (by rw [closed]; rfl)

end Sys2Proof.Machine
end

section
/-! SUPPORT. The beginning and the end of a coprocessor operation (R194–R206). -/

namespace Sys2Proof.Machine

theorem exec_coprocessorOpBegin (c : Fin 104) (s : State) : exec (.coprocessorOpBegin c) s = s.onDev (fun d => d.cxBegin c.val) := rfl
theorem exec_coprocessorOpEnd (c : Fin 104) (s : State) : exec (.coprocessorOpEnd c) s = s.onDev (fun d => d.cxEnd c.val) := rfl

/-! ### The beginning -/

/-- R195: the words of an operation's parameter block. -/
def CxOp.blockWords (o : CxOp) : List Nat := (upFrom 0 6).map (fun k => o.block + 8 * k)

/-- R202: the operations of a core that have begun and not ended. -/
def Core.cxOlder (x : Core) : List CxOp := x.ops.filter (fun y => y.begun && !y.ended)

/-- R201: the ranges that the operations of a core under way write. -/
def Core.cxRanges (x : Core) : List (Nat × Nat) := (x.cxOlder.map (·.ranges)).flatten

/-- Words read in order from a device, with nothing found yet. -/
def Dev.cxRead (d : Dev) (c : Nat) (as : List Nat) : CxRead :=
  ({ dev := d, words := [], world := none, uncorr := none, poison := none } : CxRead).all c as

/-- The words of the next matrix read, with what the reads before it found. -/
def CxRead.next (r : CxRead) (c : Nat) (as : List Nat) : CxRead := ({ r with words := [] } : CxRead).all c as

/-- R193: the rows of A, of B and of C. -/
def CxParam.aRows (p : CxParam) (fn : Nat) : List (Nat × Nat) := matrixRows p.aAddr p.aStride (p.aShape fn)
@[inherit_doc CxParam.aRows]
def CxParam.bRows (p : CxParam) (fn : Nat) : List (Nat × Nat) := matrixRows p.bAddr p.bStride (p.bShape fn)
@[inherit_doc CxParam.aRows]
def CxParam.cRows (p : CxParam) (fn : Nat) : List (Nat × Nat) := matrixRows p.cAddr p.cStride (p.cShape fn)

/-- R205: every word that the addresses of a parameter block name. -/
def CxParam.covers (p : CxParam) (fn : Nat) : List Nat :=
  rangeWords (p.aRows fn) ++ rangeWords (p.bRows fn) ++ rangeWords (p.cRows fn) ++ [p.resAddr]

/-- R196, R201, R202, R205, R208: the operation's parameter block can be read now. -/
structure CxOp.BlockReady (o : CxOp) (d : Dev) (c : Nat) : Prop where
  reached : o.blockWords.all (d.cxReach c) = true
  home : d.cxForeign c o.blockWords = none
  apart : rangesMeet [(o.block, 6)] (d.core c).cxRanges = false
  stored : d.cxWaitsStore c o.blockWords = false
  room : (d.core c).cxOlder.length < 2

/-- R193–R196, R201, R202, R205, R208: the parameters are sound, and the operands of the operation can be read now. -/
structure CxParam.Ready (p : CxParam) (d : Dev) (c fn : Nat) : Prop where
  sound : p.sound fn = true
  aAligned : p.aAddr % 8 = 0
  bAligned : p.bAddr % 8 = 0
  cAligned : p.cAddr % 8 = 0
  resAligned : p.resAddr % 8 = 0
  reached : (p.covers fn).all (d.cxReach c) = true
  home : d.cxForeign c (p.covers fn) = none
  apart : rangesMeet (p.aRows fn ++ p.bRows fn) (d.core c).cxRanges = false
  stored : d.cxWaitsStore c (rangeWords (p.aRows fn) ++ rangeWords (p.bRows fn)) = false
  room : (d.core c).stagedWords + (rangeWords (p.cRows fn)).length + 1 ≤ 1024

/-- R197: the reads of an operation's operands, A before B, and what follows from them. -/
def CxRead.operate (r : CxRead) (c : Nat) (o : CxOp) (p : CxParam) : Dev :=
  let a := r.next c (rangeWords (p.aRows o.fn))
  let b := a.next c (rangeWords (p.bRows o.fn))
  b.finish c o p true (matOfWords a.words (p.aShape o.fn)) (matOfWords b.words (p.bShape o.fn))

/-- R196: the result record of an operation that is ready can be written. -/
theorem CxParam.Ready.resOk {p : CxParam} {d : Dev} {c fn : Nat} (h : p.Ready d c fn) :
    (p.resAddr % 8 == 0 && d.cxReach c p.resAddr) = true := by
  have covered : p.resAddr ∈ p.covers fn := List.mem_append_right _ (List.mem_singleton_self _)
  rw [List.all_eq_true.1 h.reached _ covered, h.resAligned]
  rfl

/-- R197, R201: the oldest operation that has not begun reads its block and its operands and computes, where nothing makes it fail or wait. -/
theorem Dev.cxBegin_of_ready {d : Dev} {c : Nat} {o : CxOp} (oldest : (d.core c).ops.find? (fun o => !o.begun) = some o)
    (hb : o.BlockReady d c) (hp : (cxParam (d.cxRead c o.blockWords).words).Ready d c o.fn) :
    d.cxBegin c = (d.cxRead c o.blockWords).operate c o (cxParam (d.cxRead c o.blockWords).words) := by
  obtain ⟨reached, home, apart, stored, room⟩ := hb
  have resOk := hp.resOk
  obtain ⟨sound, aAligned, bAligned, cAligned, -, reached', home', apart', stored', room'⟩ := hp
  unfold CxOp.blockWords Core.cxRanges Core.cxOlder Dev.cxRead CxParam.covers CxParam.aRows CxParam.bRows CxParam.cRows at *
  rw [List.all_append, Bool.and_eq_true] at reached'
  obtain ⟨operands, -⟩ := reached'
  simp only [Dev.cxBegin, oldest, reached, home, apart, stored, sound, aAligned, bAligned, cAligned, resOk, operands, home', apart', stored',
    decide_eq_false (Nat.not_le.2 room), decide_eq_false (Nat.not_lt.2 room'), Bool.not_true, Bool.or_false, Bool.and_true, beq_self_eq_true,
    Bool.false_eq_true, if_false]
  rfl

/-! ### The end -/

/-- One word written by an operation that ends (R194, R200). -/
def Dev.cxPut (d : Dev) (c a : Nat) (v : Word) (poison : Bool) : Dev :=
  let q := d.coreReq c 2 (d.inOwnData c a)
  (if poison then d.writePoison q (a % 2 ^ 53) else d.writeWord q (a % 2 ^ 53) v).1

/-- R200, R202: the oldest operation that has not ended writes what it staged, then its record. -/
theorem Dev.cxEnd_of_begun {d : Dev} {c : Nat} {o : CxOp} {ra : Nat} {rv : Word}
    (oldest : (d.core c).ops.find? (fun o => !o.ended) = some o) (begun : o.begun = true) (record : o.record = some (ra, rv)) :
    d.cxEnd c = (((o.staged.foldl (fun d w => d.cxPut c w.1 w.2 o.poisoned) d).cxPut c ra rv false).cxEnds c o).tryCommit c := by
  simp only [Dev.cxEnd, oldest, record, begun, Bool.not_true, Bool.false_eq_true, if_false]
  rfl

/-- R206: the SB bit of an operation that ends is clear. -/
theorem Dev.cxEnds_sb (d : Dev) (c : Nat) (o : CxOp) : ((d.cxEnds c o).core c).sb.getLsbD o.tag = false := by
  have cleared : ((d.cxEnds c o).core c).sb = (d.core c).sb &&& ~~~(BitVec.ofNat 8 (2 ^ o.tag)) := by
    rw [Dev.cxEnds, Dev.core_bump, Dev.core_onCore]
  rw [cleared, BitVec.getLsbD_and, BitVec.getLsbD_not, BitVec.getLsbD_ofNat, Nat.testBit_two_pow_self]
  simp

/-- R206: an operation that ends is counted. -/
theorem Dev.cxEnds_ops (d : Dev) (c : Nat) (o : CxOp) :
    (d.cxEnds c o).get (Reg.ERG_CX_OPS (c / 8) (c % 8)) =
      (d.get (Reg.ERG_CX_OPS (c / 8) (c % 8)) + 1) % 2 ^ (Reg.ERG_CX_OPS (c / 8) (c % 8)).w := by
  have room : (Reg.ERG_CX_OPS (c / 8) (c % 8)).lo + (Reg.ERG_CX_OPS (c / 8) (c % 8)).w ≤ 32 := Nat.le_refl 32
  rw [Dev.cxEnds, Dev.get_bump_self _ _ room, Dev.get_onCore]

/-- Settles O18: the reads and the computation of an operation that nothing holds back, and the writes of one that ends. -/
theorem coprocessorRuns : Obligations.CoprocessorRuns := by
  unfold Obligations.CoprocessorRuns
  intro s c o x
  constructor
  · intro oldest older ranges block reached home apart stored room r p aWords bWords cWords sound aAl bAl cAl resAl reached' home' apart'
      stored' room'
    exact ⟨_, _, rfl, rfl, (gives_iff_of_exec (exec_coprocessorOpBegin c s)).2 (Dev.cxBegin_of_ready oldest
      ⟨reached, home, apart, stored, room⟩ ⟨sound, aAl, bAl, cAl, resAl, reached', home', apart', stored', room'⟩)⟩
  · intro ra rv oldest begun record put d1
    exact ⟨(gives_iff_of_exec (exec_coprocessorOpEnd c s)).2 (Dev.cxEnd_of_begun oldest begun record), Dev.cxEnds_sb d1 c o,
      Dev.cxEnds_ops d1 c o⟩

end Sys2Proof.Machine
end

section
/-! SUPPORT. The task scheduler (R216–R229): what a task entry reads after it has been changed, what the scheduler's operations leave alone,
and what becomes of a task on its shelf, when its entry is freed, and when its core reports its end. -/

namespace Sys2Proof.Machine

/-! ### Sparse maps read entry by entry -/

theorem mem_of_lookup_ne {α : Type} {dflt : Nat → α} {m : List (Nat × α)} {k : Nat} (h : lookup dflt m k ≠ dflt k) :
    (k, lookup dflt m k) ∈ m := by
  induction m with
  | nil => exact absurd rfl h
  | cons x m ih =>
    obtain ⟨k', v⟩ := x
    by_cases hk : k' = k
    · simp [lookup, hk]
    · simp only [lookup, hk, if_false] at h ⊢
      exact List.mem_cons_of_mem _ (ih h)

/-- A map of the canonical form holds each entry's value under its key. -/
theorem lookup_of_mem_canonical {α : Type} [DecidableEq α] {dflt : Nat → α} {m : List (Nat × α)} (h : canonical dflt m = true) {x : Nat × α}
    (hx : x ∈ m) : lookup dflt m x.1 = x.2 := by
  obtain ⟨rising, -⟩ := (canonical_iff dflt m).1 h
  clear h
  induction m with
  | nil => simp at hx
  | cons y m ih =>
    obtain ⟨first, rest⟩ := List.pairwise_cons.1 rising
    rcases List.mem_cons.1 hx with rfl | hx
    · simp [lookup]
    · have later := first x hx
      simp [lookup, later.ne, ih hx rest]

/-! ### Task entries (R216) -/

@[simp] theorem Dev.task_setTask_self (d : Dev) (n : Nat) (t : Task) : (d.setTask n t).task n = t := lookup_update_self _ _ _ _

theorem Dev.task_setTask_ne (d : Dev) {m n : Nat} (h : m ≠ n) (t : Task) : (d.setTask n t).task m = d.task m := lookup_update_ne _ _ _ h

theorem Dev.task_of_tsu {d e : Dev} (h : e.tsu = d.tsu) (n : Nat) : e.task n = d.task n := by rw [Dev.task, h, Dev.task]

@[simp] theorem Dev.endJob_tsu (d : Dev) (j : Job) (st r : Nat) : (d.endJob j st r).tsu = d.tsu := by
  obtain ⟨_, _, h⟩ := d.endJob_only j st r
  rw [h]

@[simp] theorem Dev.task_endJob (d : Dev) (j : Job) (st r n : Nat) : (d.endJob j st r).task n = d.task n := Dev.task_of_tsu (d.endJob_tsu j st r) n

/-- A job ends as it would have ended before what left the jobs and time alone. -/
theorem Dev.job_endJob_same {d e : Dev} (jfe : e.jfe = d.jfe) (time : e.time = d.time) {j : Job} (found : d.job j.id = some j) (st r : Nat) :
    (e.endJob j st r).job j.id = some (d.endedJob j st r) := by
  rw [Dev.job_endJob_self ((Dev.job_of_jfe jfe _).trans found), Dev.endedJob_of_time time]

theorem OnlyRegs.tsu_eq {d e : Dev} (h : OnlyRegs d e) : e.tsu = d.tsu := by
  obtain ⟨_, _, rfl⟩ := h
  rfl

/-- The second device differs from the first in task entries and their order of arrival, jobs, the rails' late marks, cores and the event
fabric alone. -/
def OnlyWork (d e : Dev) : Prop :=
  ∃ ts p jf pc cs ev, e = { d with tsu := { d.tsu with tasks := ts, nextPlace := p }, jfe := jf, pace := pc, cores := cs, evt := ev }

theorem OnlyWork.refl (d : Dev) : OnlyWork d d := ⟨_, _, _, _, _, _, rfl⟩

theorem OnlyWork.trans {d e f : Dev} (h : OnlyWork d e) (g : OnlyWork e f) : OnlyWork d f := by
  obtain ⟨_, _, _, _, _, _, rfl⟩ := h
  obtain ⟨ts, p, jf, pc, cs, ev, rfl⟩ := g
  exact ⟨ts, p, jf, pc, cs, ev, rfl⟩

theorem OnlyWork.regs_eq {d e : Dev} (h : OnlyWork d e) : e.regs = d.regs := by
  obtain ⟨_, _, _, _, _, _, rfl⟩ := h
  rfl

theorem OnlyWork.time_eq {d e : Dev} (h : OnlyWork d e) : e.time = d.time := by
  obtain ⟨_, _, _, _, _, _, rfl⟩ := h
  rfl

theorem OnlyWork.retiring_eq {d e : Dev} (h : OnlyWork d e) : e.tsu.retiring = d.tsu.retiring := by
  obtain ⟨_, _, _, _, _, _, rfl⟩ := h
  rfl

theorem Dev.setTask_work (d : Dev) (n : Nat) (t : Task) : OnlyWork d (d.setTask n t) := ⟨_, _, _, _, _, _, rfl⟩

theorem Dev.onCore_work (d : Dev) (c : Nat) (f : Core → Core) : OnlyWork d (d.onCore c f) := ⟨_, _, _, _, _, _, rfl⟩

theorem Dev.endJob_work (d : Dev) (j : Job) (st r : Nat) : OnlyWork d (d.endJob j st r) := by
  obtain ⟨js, l, h⟩ := d.endJob_only j st r
  exact ⟨_, _, _, _, _, _, h⟩

theorem Dev.relevel_work (d : Dev) (n : Nat) : OnlyWork d (d.relevel n) := by
  obtain ⟨ev, h⟩ := d.relevel_onlyEvt n
  exact ⟨_, _, _, _, _, _, h⟩

/-! ### The shelf (R220) -/

theorem Dev.toShelf_work (d : Dev) (n : Nat) : OnlyWork d (d.toShelf n) := ⟨_, _, _, _, _, _, rfl⟩

/-- R220, R225: a task on its shelf is READY, since now; its last core, place and hold stage are the shelf's to give. -/
theorem Dev.toShelf_eq (d : Dev) (n : Nat) : ∃ last p st, d.toShelf n =
    d.takePlace.2.setTask n { d.task n with state := .ready, lastCore := last, arrived := d.now, place := p, stage := st } := ⟨_, _, _, rfl⟩

theorem Dev.task_toShelf_self (d : Dev) (n : Nat) :
    ∃ last p st, (d.toShelf n).task n = { d.task n with state := .ready, lastCore := last, arrived := d.now, place := p, stage := st } := by
  obtain ⟨last, p, st, h⟩ := d.toShelf_eq n
  exact ⟨last, p, st, by rw [h, Dev.task_setTask_self]⟩

theorem Dev.task_toShelf_ne (d : Dev) {m n : Nat} (h : m ≠ n) : (d.toShelf n).task m = d.task m := by
  obtain ⟨_, _, _, e⟩ := d.toShelf_eq n
  rw [e, Dev.task_setTask_ne _ h]
  rfl

/-! ### An entry freed (R216, R227) -/

/-- The TASK_FREE of a number ends, if it is in flight and has not ended. -/
def Dev.endFree (d : Dev) (id : Nat) : Dev :=
  match d.job id with
  | some j => if j.open_ then d.endJob j stOK 0 else d
  | none => d

theorem Dev.freeTask_eq (d : Dev) (n : Nat) :
    d.freeTask n = ((d.task n).freeJobs.foldl Dev.endFree (d.setTask n { Task.reset with gen := (d.task n).gen })).relevel 0x63E := rfl

theorem Dev.endFree_work (d : Dev) (id : Nat) : OnlyWork d (d.endFree id) := by
  unfold Dev.endFree
  split
  · split
    · exact d.endJob_work _ _ _
    · exact .refl d
  · exact .refl d

theorem Dev.endFree_tsu (d : Dev) (id : Nat) : (d.endFree id).tsu = d.tsu := by
  unfold Dev.endFree
  split
  · split
    · exact d.endJob_tsu _ _ _
    · rfl
  · rfl

theorem Dev.endFrees_work (ids : List Nat) (d : Dev) : OnlyWork d (ids.foldl Dev.endFree d) :=
  Dev.each_rel OnlyWork.refl OnlyWork.trans Dev.endFree_work ids d

theorem Dev.endFrees_tsu (ids : List Nat) (d : Dev) : (ids.foldl Dev.endFree d).tsu = d.tsu :=
  Dev.each_rel (R := fun d e => e.tsu = d.tsu) (fun _ => rfl) (fun h g => g.trans h) Dev.endFree_tsu ids d

theorem Dev.freeTask_work (d : Dev) (n : Nat) : OnlyWork d (d.freeTask n) :=
  ((d.setTask_work _ _).trans (Dev.endFrees_work _ _)).trans (Dev.relevel_work _ _)

/-- R216: an entry that is freed keeps its generation alone. -/
theorem Dev.task_freeTask (d : Dev) (n : Nat) : (d.freeTask n).task n = { Task.reset with gen := (d.task n).gen } := by
  rw [Dev.freeTask_eq, Dev.task_of_tsu (Dev.relevel_only _ _).tsu_eq, Dev.task_of_tsu (Dev.endFrees_tsu _ _), Dev.task_setTask_self]

theorem OnlyEvt.jfe_eq {d e : Dev} (h : OnlyEvt d e) : e.jfe = d.jfe := by
  obtain ⟨_, rfl⟩ := h
  rfl

theorem Dev.freeTask_jfe (d : Dev) {n : Nat} (h : (d.task n).freeJobs = []) : (d.freeTask n).jfe = d.jfe := by
  rw [Dev.freeTask_eq, h, (Dev.relevel_onlyEvt _ _).jfe_eq]
  rfl

/-- R227: the TASK_FREE that waits for an entry ends OK as the entry is freed. -/
theorem Dev.job_freeTask {d : Dev} {n : Nat} {j : Job} (h : (d.task n).freeJobs = [j.id]) (found : d.job j.id = some j) (pending : j.open_ = true) :
    (d.freeTask n).job j.id = some (d.endedJob j 0 0) := by
  have found' : (d.setTask n { Task.reset with gen := (d.task n).gen }).job j.id = some j := found
  rw [Dev.freeTask_eq, h, Dev.job_of_jfe (Dev.relevel_onlyEvt _ _).jfe_eq, List.foldl_cons, List.foldl_nil, Dev.endFree, found']
  simp only [pending, if_true]
  exact Dev.job_endJob_self found' 0 0

/-! ### The job of a task (R226) -/

theorem Dev.markTaskLate_work (d : Dev) (id : Nat) (core : Option Nat) : OnlyWork d (d.markTaskLate id core) := by
  unfold Dev.markTaskLate
  split
  · split
    · exact ⟨_, _, _, _, _, _, rfl⟩
    · exact .refl d
  · exact .refl d

theorem Dev.markTaskLate_keeps (d : Dev) (id : Nat) (core : Option Nat) : (d.markTaskLate id core).tsu = d.tsu ∧ (d.markTaskLate id core).jfe = d.jfe := by
  unfold Dev.markTaskLate
  split
  · split <;> exact ⟨rfl, rfl⟩
  · exact ⟨rfl, rfl⟩

theorem Dev.endTaskJob_work (d : Dev) (n st raw out : Nat) : OnlyWork d (d.endTaskJob n st raw out) := by
  unfold Dev.endTaskJob
  dsimp only
  split
  · split
    · split
      · exact (d.endJob_work _ _ _).trans (Dev.markTaskLate_work _ _ _)
      · exact .refl d
    · exact .refl d
  · exact .refl d

/-- R226: the job of a job task ends with the task's status and RESULT; the entry is as it was. -/
theorem Dev.endTaskJob_of_open {d : Dev} {n : Nat} {j : Job} (own : (d.task n).job = some j.id) (found : d.job j.id = some j)
    (pending : j.open_ = true) (st raw out : Nat) :
    (d.endTaskJob n st raw out).tsu = d.tsu ∧ (d.endTaskJob n st raw out).job j.id =
      some (d.endedJob j st (taskResult n (d.task n).gen.toNat raw ((d.task n).core.getD 0xFF) out)) := by
  have ends : d.endTaskJob n st raw out =
      (d.endJob j st (taskResult n (d.task n).gen.toNat raw ((d.task n).core.getD 0xFF) out)).markTaskLate j.id (d.task n).core := by
    simp [Dev.endTaskJob, own, found, pending]
  obtain ⟨tsu, jfe⟩ := (d.endJob j st (taskResult n (d.task n).gen.toNat raw ((d.task n).core.getD 0xFF) out)).markTaskLate_keeps j.id
    (d.task n).core
  rw [ends]
  exact ⟨tsu.trans (Dev.endJob_tsu _ _ _ _), (Dev.job_of_jfe jfe _).trans (Dev.job_endJob_self found _ _)⟩

/-! ### Cancels (R228, R229) -/

theorem Dev.cancelTask_work (d : Dev) (n st : Nat) : OnlyWork d (d.cancelTask n st) := by
  unfold Dev.cancelTask
  dsimp only
  split
  · exact .refl d
  · split
    · exact (d.setTask_work _ _).trans (Dev.onCore_work _ _ _)
    · exact d.setTask_work _ _
  · exact .refl d
  · exact (d.endTaskJob_work _ _ _ _).trans (Dev.freeTask_work _ _)

/-- R228: a running task that is cancelled is asked to abort. -/
theorem Dev.task_cancelTask_running {d : Dev} {n : Nat} (h : (d.task n).state = .running) (st : Nat) :
    (d.cancelTask n st).task n = { d.task n with state := .aborting, since := d.now, abortAs := st } := by
  unfold Dev.cancelTask
  simp only [h]
  split <;> exact Dev.task_setTask_self _ _ _

/-- R227: a cancel of an entry's own generation takes effect. -/
theorem Dev.cancelTakes_own {d : Dev} {n : Nat} (h : (d.task n).state ≠ .free) : d.cancelTakes n (d.task n).gen.toNat = true := by
  have same : (d.task n).gen.toNat + 2 ^ 16 - (d.task n).gen.toNat = 2 ^ 16 := by omega
  rw [Dev.cancelTakes, same]
  simp [h, signed]

end Sys2Proof.Machine
end

section
/-! SUPPORT. The task scheduler, command by command (R221, R224, R226–R229): ticks, hold stages, wakes and frees. -/

namespace Sys2Proof.Machine

theorem exec_tsuTick (s : State) : exec .tsuTick s = s.onDev tsuTick := rfl
theorem exec_affinityHoldEnd (n : Fin 4096) (s : State) : exec (.affinityHoldEnd n) s = s.onDev (affinityHoldEnd n.val) := rfl
theorem exec_taskWake (id : Nat) (s : State) : exec (.taskWake id) s = s.onDev (taskWake id) := rfl
theorem exec_taskFree (id : Nat) (s : State) : exec (.taskFree id) s = s.onDev (taskFree id) := rfl

/-! ### Ticks (R221) -/

theorem mem_sortTasks {now : ShortTime} {ts : List (Nat × Task)} {x : Nat × Task} : x ∈ sortTasks now ts ↔ x ∈ ts := by
  induction ts with
  | nil => rfl
  | cons t ts ih =>
    have parts : x ∈ sortTasks now ts ↔ x ∈ (sortTasks now ts).takeWhile (fun u => laterThan now u.2 t.2) ∨
        x ∈ (sortTasks now ts).dropWhile (fun u => laterThan now u.2 t.2) := by
      rw [← List.mem_append, List.takeWhile_append_dropWhile]
    rw [sortTasks, List.mem_append, List.mem_cons, List.mem_cons, ← ih, parts]
    tauto

/-- R221: the tasks that a tick moves, in the order in which it moves them. -/
def Dev.tickOrder (d : Dev) : List (Nat × Task) :=
  let due := d.tsu.tasks.filter (fun t => t.2.state == .delayed && d.due t.2.wake)
  ([7, 6, 5, 4, 3, 2, 1, 0].map (fun l => sortTasks d.now (due.filter (fun t => t.2.prio / 8 == l)))).flatten

/-- R221, R229: a tick moves one task to its shelf; a resident one is told the wake time that begins its run. -/
def Dev.tickTask (d : Dev) (t : Nat × Task) : Dev :=
  (d.setTask t.1 { t.2 with timed := if t.2.resident then t.2.wake else 0 }).toShelf t.1

theorem tsuTick_eq (d : Dev) : tsuTick d = d.each d.tickOrder Dev.tickTask := rfl

/-- R220, R221: the tasks moved are the delayed ones of the 64 priorities whose wake time is reached. -/
theorem Dev.mem_tickOrder {d : Dev} {x : Nat × Task} :
    x ∈ d.tickOrder ↔ x ∈ d.tsu.tasks ∧ x.2.state = .delayed ∧ d.due x.2.wake = true ∧ x.2.prio < 64 := by
  have lists : x.2.prio / 8 ∈ [7, 6, 5, 4, 3, 2, 1, 0] ↔ x.2.prio < 64 := by
    simp only [List.mem_cons, List.not_mem_nil, or_false]
    omega
  simp only [Dev.tickOrder, List.mem_flatten, List.mem_map, exists_exists_and_eq_and, mem_sortTasks, List.mem_filter, Bool.and_eq_true,
    beq_iff_eq, ← lists]
  constructor
  · rintro ⟨l, hl, ⟨listed, delayed, due⟩, rfl⟩
    exact ⟨listed, delayed, due, hl⟩
  · rintro ⟨listed, delayed, due, hl⟩
    exact ⟨_, hl, ⟨listed, delayed, due⟩, rfl⟩

/-- R221, R229: the entry x is the delayed task t as a tick leaves it on its shelf. -/
def Task.Woken (now : ShortTime) (t x : Task) : Prop :=
  x.state = .ready ∧ x.arrived = now ∧ x.timed = if t.resident then t.wake else 0

theorem Dev.tickTask_work (d : Dev) (t : Nat × Task) : OnlyWork d (d.tickTask t) := (d.setTask_work _ _).trans (Dev.toShelf_work _ _)

theorem Dev.task_tickTask_self (d : Dev) (t : Nat × Task) : t.2.Woken d.now ((d.tickTask t).task t.1) := by
  obtain ⟨_, _, _, h⟩ := (d.setTask t.1 { t.2 with timed := if t.2.resident then t.2.wake else 0 }).task_toShelf_self t.1
  rw [Dev.tickTask, h, Dev.task_setTask_self]
  exact ⟨rfl, rfl, rfl⟩

theorem Dev.task_tickTask_ne (d : Dev) {m : Nat} {t : Nat × Task} (h : m ≠ t.1) : (d.tickTask t).task m = d.task m := by
  rw [Dev.tickTask, Dev.task_toShelf_ne _ h, Dev.task_setTask_ne _ h]

/-- A task that is not moved stays as it was. -/
theorem Dev.task_ticks_unlisted (d : Dev) {m : Nat} {ts : List (Nat × Task)} (h : ∀ t ∈ ts, m ≠ t.1) :
    (d.each ts Dev.tickTask).task m = d.task m :=
  Dev.each_rel_mem (R := fun d e => e.task m = d.task m) (fun _ => rfl) (fun h g => g.trans h) (fun d t ht => d.task_tickTask_ne (h t ht)) d

/-- A task that is moved under its own number alone reads as it was moved. -/
theorem Dev.task_ticks_listed {ts : List (Nat × Task)} {t : Nat × Task} (ht : t ∈ ts) (alone : ∀ u ∈ ts, u.1 = t.1 → u = t) (d : Dev) :
    t.2.Woken d.now ((d.each ts Dev.tickTask).task t.1) := by
  induction ts generalizing d with
  | nil => simp at ht
  | cons x xs ih =>
    have rest : ∀ u ∈ xs, u.1 = t.1 → u = t := fun u hu => alone u (List.mem_cons_of_mem _ hu)
    by_cases again : t ∈ xs
    · have same : (d.tickTask x).now = d.now := by rw [Dev.now, (d.tickTask_work x).time_eq, Dev.now]
      exact same ▸ ih again rest (d.tickTask x)
    · obtain rfl : t = x := (List.mem_cons.1 ht).resolve_right again
      have unlisted : ∀ u ∈ xs, t.1 ≠ u.1 := fun u hu e => again (rest u hu e.symm ▸ hu)
      have after := (d.tickTask t).task_ticks_unlisted unlisted
      exact after ▸ d.task_tickTask_self t

/-- R221: a tick moves every delayed task whose wake time is reached. -/
theorem task_tsuTick_due {d : Dev} (sparse : canonical (fun _ => Task.reset) d.tsu.tasks = true) {m : Nat} (delayed : (d.task m).state = .delayed)
    (due : d.due (d.task m).wake = true) (prio : (d.task m).prio < 64) : (d.task m).Woken d.now ((tsuTick d).task m) := by
  have allocated : d.task m ≠ Task.reset := fun h => by rw [h] at delayed; cases delayed
  have listed : (m, d.task m) ∈ d.tickOrder := Dev.mem_tickOrder.2 ⟨mem_of_lookup_ne allocated, delayed, due, prio⟩
  rw [tsuTick_eq]
  refine Dev.task_ticks_listed listed (fun u hu same => ?_) d
  have value := lookup_of_mem_canonical sparse (Dev.mem_tickOrder.1 hu).1
  exact Prod.ext same (by rw [← value, same]; rfl)

/-- R221: a tick moves no other task. -/
theorem task_tsuTick_not_due {d : Dev} (sparse : canonical (fun _ => Task.reset) d.tsu.tasks = true) {m : Nat}
    (h : ¬((d.task m).state = .delayed ∧ d.due (d.task m).wake = true)) : (tsuTick d).task m = d.task m := by
  rw [tsuTick_eq]
  refine d.task_ticks_unlisted (fun u hu same => h ?_)
  obtain ⟨listed, delayed, due, -⟩ := Dev.mem_tickOrder.1 hu
  have value : d.task m = u.2 := same ▸ lookup_of_mem_canonical sparse listed
  rw [value]
  exact ⟨delayed, due⟩

/-! ### Wakes and frees (R227, R229) -/

theorem Dev.queuedTask_of_job {d : Dev} {j : Job} {op : Nat} (found : d.job j.id = some j) (queued : j.phase = .queued) (opcode : j.opcode = op) :
    d.queuedTask j.id op = some j := by
  simp [Dev.queuedTask, found, queued, opcode]

theorem Job.open_of_queued {j : Job} (h : j.phase = .queued) : j.open_ = true := by simp [Job.open_, h]

/-- R229: a wake leaves the jobs in flight and time alone. -/
theorem Dev.wakeTask_keeps (d : Dev) (n : Nat) : (d.wakeTask n).jfe = d.jfe ∧ (d.wakeTask n).time = d.time := by
  unfold Dev.wakeTask
  dsimp only
  split
  case h_1 => exact ⟨rfl, rfl⟩
  all_goals split <;> exact ⟨rfl, rfl⟩

/-- R229: a resident task that is delayed or waits is ready after its wake. -/
theorem Dev.task_wakeTask_idle {d : Dev} {n : Nat} (resident : (d.task n).resident = true)
    (state : (d.task n).state = .delayed ∨ (d.task n).state = .waiting) : ((d.wakeTask n).task n).state = .ready := by
  have wakes : d.wakeTask n = (d.setTask n { d.task n with timed := 0 }).toShelf n := by
    rcases state with h | h <;> simp [Dev.wakeTask, h, resident]
  obtain ⟨_, _, _, shelf⟩ := (d.setTask n { d.task n with timed := 0 }).task_toShelf_self n
  rw [wakes, shelf]

/-- R229: the wake of a resident task that is ready or runs is kept for the end of its run. -/
theorem Dev.task_wakeTask_busy {d : Dev} {n : Nat} (resident : (d.task n).resident = true)
    (state : (d.task n).state = .ready ∨ (d.task n).state = .running ∨ (d.task n).state = .aborting) :
    (d.wakeTask n).task n = { d.task n with pendingWake := true } := by
  have wakes : d.wakeTask n = d.setTask n { d.task n with pendingWake := true } := by
    rcases state with h | h | h <;> simp [Dev.wakeTask, h, resident]
  rw [wakes, Dev.task_setTask_self]

section
variable {d : Dev} {j : Job} {n : Nat} (found : d.job j.id = some j) (queued : j.phase = .queued) (entry : j.entry = n)
  (gen : (d.task n).gen.toNat = j.entryGen)
include found queued entry gen

/-- R229: a TASK_WAKE of an entry that still holds its task wakes it, and ends OK. -/
theorem taskWake_eq (opcode : j.opcode = 0xB1) : taskWake j.id d = (d.wakeTask n).endJob j 0 0 := by
  simp only [taskWake, Dev.queuedTask_of_job found queued opcode, entry, gen, if_true, stOK]

theorem task_taskWake (opcode : j.opcode = 0xB1) : (taskWake j.id d).task n = (d.wakeTask n).task n := by
  rw [taskWake_eq found queued entry gen opcode, Dev.task_endJob]

theorem job_taskWake (opcode : j.opcode = 0xB1) : (taskWake j.id d).job j.id = some (d.endedJob j 0 0) := by
  obtain ⟨jfe, time⟩ := d.wakeTask_keeps n
  rw [taskWake_eq found queued entry gen opcode]
  exact Dev.job_endJob_same jfe time found 0 0

/-- R227, R229: an entry that does not run is freed at once. -/
theorem taskFree_idle (opcode : j.opcode = 0xB2)
    (state : (d.task n).state = .delayed ∨ (d.task n).state = .ready ∨ (d.task n).state = .waiting) :
    (taskFree j.id d).task n = { Task.reset with gen := (d.task n).gen } ∧ (taskFree j.id d).job j.id = some (d.endedJob j 0 0) := by
  have held : (d.task n).state ≠ .free ∧ ¬((d.task n).state = .running ∨ (d.task n).state = .aborting) := by
    rcases state with h | h | h <;> simp [h]
  have takes : d.cancelTakes n j.entryGen = true := gen ▸ Dev.cancelTakes_own held.1
  have frees : taskFree j.id d = (d.setTask n { d.task n with freeJobs := [j.id] }).freeTask n := by
    simp only [taskFree, Dev.queuedTask_of_job found queued opcode, entry, takes, held.2, Bool.not_true, Bool.false_eq_true, if_false]
  have waits : ((d.setTask n { d.task n with freeJobs := [j.id] }).task n).freeJobs = [j.id] := by rw [Dev.task_setTask_self]
  rw [frees, Dev.task_freeTask, Dev.task_setTask_self]
  exact ⟨rfl, Dev.job_freeTask waits found (Job.open_of_queued queued)⟩

/-- R227, R229: the TASK_FREE of a running task waits for the end of the run, which it asks for if it says so. -/
theorem taskFree_running (opcode : j.opcode = 0xB2) (running : (d.task n).state = .running) :
    ((taskFree j.id d).task n).freeJobs = (d.task n).freeJobs ++ [j.id] ∧
      ((taskFree j.id d).task n).state = if j.freeAbort then .aborting else .running := by
  have takes : d.cancelTakes n j.entryGen = true := gen ▸ Dev.cancelTakes_own (by simp [running])
  simp only [taskFree, Dev.queuedTask_of_job found queued opcode, entry, takes, running, true_or, if_true, Bool.not_true, Bool.false_eq_true,
    if_false, beq_self_eq_true, Bool.and_true]
  split
  · rw [Dev.task_cancelTask_running (by rw [Dev.task_setTask_self]), Dev.task_setTask_self]
    exact ⟨rfl, rfl⟩
  · rw [Dev.task_setTask_self]
    exact ⟨rfl, rfl⟩

end

/-- R224: a ready task passes the end of its hold stage. -/
theorem task_affinityHoldEnd {d : Dev} {n : Nat} (ready : (d.task n).state = .ready) (held : (d.task n).stage < 3)
    (reached : d.due ((d.task n).arrived + BitVec.ofNat 64 ((d.task n).stage * d.holdTime)) = true) :
    (affinityHoldEnd n d).task n = { d.task n with stage := (d.task n).stage + 1 } := by
  rw [affinityHoldEnd, if_pos ⟨ready, held, reached⟩, Dev.task_setTask_self]

end Sys2Proof.Machine
end

section
/-! SUPPORT. The end of a task (R168, R226, R229): when a core reports it, what the core shows without its task, and what becomes of a job
task and of a resident one; with it the statement of how tasks move. -/

namespace Sys2Proof.Machine

theorem exec_taskEnd (c : Fin 104) (s : State) : exec (.taskEnd c) s = s.onDev (taskEnd c.val) := rfl

/-! ### The core without its task (R165, R168) -/

/-- The second device differs from the first in cores and registers alone. -/
def OnlyCores (d e : Dev) : Prop := ∃ cs rs, e = { d with cores := cs, regs := rs }

theorem Dev.onCore_only (d : Dev) (c : Nat) (f : Core → Core) : OnlyCores d (d.onCore c f) := ⟨_, d.regs, rfl⟩

theorem OnlyCores.set {d e : Dev} (h : OnlyCores d e) (f : Fld) (v : Nat) : OnlyCores d (e.set f v) := by
  obtain ⟨cs, _, rfl⟩ := h
  exact ⟨cs, _, rfl⟩

theorem Dev.coreOff_only (d : Dev) (c : Nat) : OnlyCores d (d.coreOff c) := by
  have cleared := fun f => (d.onCore_only c f).set (Reg.ERG_CORE_TASK_VALID (c / 8) (c % 8)) 0
  unfold Dev.coreOff
  dsimp only
  split
  · exact cleared _
  · exact (cleared _).set _ _

theorem OnlyCores.tsu_eq {d e : Dev} (h : OnlyCores d e) : e.tsu = d.tsu := by
  obtain ⟨_, _, rfl⟩ := h
  rfl

theorem OnlyCores.jfe_eq {d e : Dev} (h : OnlyCores d e) : e.jfe = d.jfe := by
  obtain ⟨_, _, rfl⟩ := h
  rfl

theorem OnlyCores.time_eq {d e : Dev} (h : OnlyCores d e) : e.time = d.time := by
  obtain ⟨_, _, rfl⟩ := h
  rfl

/-- R168, R170: a core that was not HALTED is IDLE without its task. -/
theorem Dev.coreOff_shows {d : Dev} {c : Nat} (h : d.get (coreState c) ≠ 3) :
    (d.coreOff c).get (coreState c) = 0 ∧ (d.coreOff c).on (Reg.ERG_CORE_TASK_VALID (c / 8) (c % 8)) = false := by
  have state_valid : (coreState c).Spares (Reg.ERG_CORE_TASK_VALID (c / 8) (c % 8)) :=
    .inl (by simp [coreState, Reg.ERG_CORE_STATUS_STATE, Reg.ERG_CORE_TASK_VALID])
  have valid_state : (Reg.ERG_CORE_TASK_VALID (c / 8) (c % 8)).Spares (coreState c) :=
    .inl (by simp [coreState, Reg.ERG_CORE_STATUS_STATE, Reg.ERG_CORE_TASK_VALID])
  unfold Dev.coreOff
  dsimp only
  rw [if_neg (by rwa [Dev.get_set_spares _ _ valid_state, Dev.get_onCore])]
  constructor
  · rw [Dev.get_set_self _ _ _ (by simp [coreState, Reg.ERG_CORE_STATUS_STATE]), Nat.zero_mod]
  · rw [Dev.on_set_spares _ _ state_valid, Dev.on_set_self _ _ _ (by simp [Reg.ERG_CORE_TASK_VALID]), Nat.zero_mod]
    rfl

/-! ### The end -/

/-- An attention bit sets in no field but its own. -/
theorem Dev.attend_within {ws : List Fld} (d : Dev) {f : Fld} (hf : f ∈ ws) (n : Nat) : RegsWithin ws d (d.attend f n) :=
  ((RegsWithin.refl ws d).set hf 1).trans (.of_regs (Dev.relevel_regs _ n))

/-- R226, R229: a resident run without a pending wake, a period or a TASK_FREE is counted and waits. -/
theorem Dev.residentEnds_waits {d : Dev} {n : Nat} (noFree : (d.task n).freeJobs = []) (noWake : (d.task n).pendingWake = false)
    (once : (d.task n).period = 0) (st : Nat) :
    (d.residentEnds n st).task n = { d.task n with state := .waiting, core := none, lastStatus := BitVec.ofNat 8 st, runs := (d.task n).runs + 1 } ∧
      RegsWithin [Reg.TSU_ATTN_RES_STATUS] d (d.residentEnds n st) := by
  constructor
  · simp only [Dev.residentEnds, noFree, noWake, once, List.isEmpty_nil, Bool.not_true, Bool.false_eq_true, if_false, ne_eq, not_true_eq_false,
      Dev.task_setTask_self]
  · have attends : RegsWithin [Reg.TSU_ATTN_RES_STATUS] d (d.iff (st != 0) (fun d => d.tsuAttend Reg.TSU_ATTN_RES_STATUS)) :=
      .ite (d.attend_within (List.mem_singleton.2 rfl) _) (.refl _ d)
    simp only [Dev.residentEnds, noFree, noWake, once, List.isEmpty_nil, Bool.not_true, Bool.false_eq_true, if_false, ne_eq, not_true_eq_false]
    exact attends.trans (.of_regs rfl)

/-- R226: TEND's statuses for the record. -/
theorem tendStatus_eq (st : Nat) : tendStatus st = if st ∈ [0x00, 0x04, 0x05, 0x0C, 0x0E, 0x0F] then st else stCONFIG := by
  simp only [tendStatus, List.contains_iff_mem]

section
variable {d : Dev} {c n : Nat} {st : BitVec 8}

/-- R168, R226: a core whose TEND has been committed and whose stores are accepted reports the end of its task. -/
theorem taskEnd_of_ending (entry : d.get (Reg.ERG_CORE_TASK_ENTRY (c / 8) (c % 8)) = n)
    (valid : d.on (Reg.ERG_CORE_TASK_VALID (c / 8) (c % 8)) = true) (own : (d.task n).core = some c) (stored : (d.core c).buffer = [])
    (computed : (d.core c).ops = []) (ending : (d.core c).ending = some st) :
    taskEnd c d = (d.coreOff c).taskOver n (some st.toNat) (((d.core c).arch.rS 1).toNat % 2 ^ 32) := by
  have reports : d.mayReport c = true := by simp [Dev.mayReport, valid, stored, computed, ending]
  have same : ((d.coreOff c).task n).core = some c := (Dev.task_of_tsu (d.coreOff_only c).tsu_eq n).symm ▸ own
  simp only [taskEnd, reports, entry, same, ending, Option.map_some, Bool.not_true, Bool.false_eq_true, if_true, if_false]

/-- R226: a job task's entry is freed as its job ends with the task's status and RESULT. -/
theorem Dev.taskOver_job {j : Job} (running : (d.task n).state = .running) (job : (d.task n).resident = false)
    (own : (d.task n).job = some j.id) (core : (d.task n).core = some c) (found : d.job j.id = some j) (phase : j.phase = .running)
    (noFree : (d.task n).freeJobs = []) (tend out : Nat) :
    (d.taskOver n (some tend) out).task n = { Task.reset with gen := (d.task n).gen } ∧ (d.taskOver n (some tend) out).regs = d.regs ∧
      (d.taskOver n (some tend) out).job j.id =
        some (d.endedJob j (tendStatus tend) (taskResult n (d.task n).gen.toNat tend c out)) := by
  have ends : d.taskOver n (some tend) out = (d.endTaskJob n (tendStatus tend) tend out).freeTask n := by
    simp [Dev.taskOver, running, job]
  obtain ⟨tsu, record⟩ := Dev.endTaskJob_of_open own found (by simp [Job.open_, phase]) (tendStatus tend) tend out
  have entry := Dev.task_of_tsu tsu n
  rw [ends, Dev.task_freeTask, entry, (Dev.freeTask_work _ _).regs_eq, (Dev.endTaskJob_work _ _ _ _ _).regs_eq,
    Dev.job_of_jfe (Dev.freeTask_jfe _ (by rw [entry, noFree])), record, core]
  exact ⟨rfl, rfl, rfl⟩

theorem Dev.taskOver_resident (running : (d.task n).state = .running) (resident : (d.task n).resident = true) (tend out : Nat) :
    d.taskOver n (some tend) out = d.residentEnds n tend := by
  simp [Dev.taskOver, running, resident]

end

section
variable {d : Dev} {c n : Nat} {st : BitVec 8} (entry : d.get (Reg.ERG_CORE_TASK_ENTRY (c / 8) (c % 8)) = n)
  (valid : d.on (Reg.ERG_CORE_TASK_VALID (c / 8) (c % 8)) = true) (own : (d.task n).core = some c) (running : (d.task n).state = .running)
  (stored : (d.core c).buffer = []) (computed : (d.core c).ops = []) (runs : d.get (coreState c) ≠ 3) (ending : (d.core c).ending = some st)
include entry valid own running stored computed runs ending

/-- R168, R226: the end of a job task. -/
theorem taskEnd_job {j : Job} (job : (d.task n).resident = false) (ownJob : (d.task n).job = some j.id) (found : d.job j.id = some j)
    (phase : j.phase = .running) (noFree : (d.task n).freeJobs = []) :
    (taskEnd c d).task n = { Task.reset with gen := (d.task n).gen } ∧ (taskEnd c d).get (coreState c) = 0 ∧
      (taskEnd c d).on (Reg.ERG_CORE_TASK_VALID (c / 8) (c % 8)) = false ∧
      (taskEnd c d).job j.id = some (d.endedJob j (tendStatus st.toNat)
        (taskResult n (d.task n).gen.toNat st.toNat c (((d.core c).arch.rS 1).toNat % 2 ^ 32))) := by
  have off := d.coreOff_only c
  have same := Dev.task_of_tsu off.tsu_eq n
  obtain ⟨idle, invalid⟩ := Dev.coreOff_shows runs
  obtain ⟨freed, regs, record⟩ := Dev.taskOver_job (same ▸ running) (same ▸ job) (same ▸ ownJob) (same ▸ own)
    ((Dev.job_of_jfe off.jfe_eq _).trans found) phase (same ▸ noFree) st.toNat (((d.core c).arch.rS 1).toNat % 2 ^ 32)
  rw [taskEnd_of_ending entry valid own stored computed ending]
  rw [same] at freed record
  rw [Dev.endedJob_of_time off.time_eq] at record
  exact ⟨freed, (Dev.get_of_regs regs _).trans idle, (Dev.on_of_regs regs _).trans invalid, record⟩

/-- R168, R229: the end of a run of a resident task that waits for its next wake. -/
theorem taskEnd_resident (resident : (d.task n).resident = true) (noFree : (d.task n).freeJobs = []) (noWake : (d.task n).pendingWake = false)
    (once : (d.task n).period = 0) :
    (taskEnd c d).task n = { d.task n with state := .waiting, core := none, lastStatus := st, runs := (d.task n).runs + 1 } ∧
      (taskEnd c d).get (coreState c) = 0 := by
  have same := Dev.task_of_tsu (d.coreOff_only c).tsu_eq n
  obtain ⟨idle, -⟩ := Dev.coreOff_shows runs
  obtain ⟨waits, regs⟩ := Dev.residentEnds_waits (same ▸ noFree) (same ▸ noWake) (same ▸ once) st.toNat
  have apart : Reg.TSU_ATTN_RES_STATUS.Spares (coreState c) := .inl (by
    simp only [Reg.TSU_ATTN_RES_STATUS, coreState, Reg.ERG_CORE_STATUS_STATE]
    omega)
  rw [taskEnd_of_ending entry valid own stored computed ending, Dev.taskOver_resident (same ▸ running) (same ▸ resident)]
  rw [same, BitVec.ofNat_toNat, BitVec.setWidth_eq] at waits
  exact ⟨waits, (regs _ (by simpa using apart)).trans idle⟩

end

/-! ### The statement -/

/-- Settles O20: each command of the scheduler on each task that its clause names. -/
theorem tasksMove : Obligations.TasksMove := by
  unfold Obligations.TasksMove
  intro s n j c t
  refine ⟨?tick, ?hold, ?jobs, ?ends⟩
  case tick =>
    intro sparse prio
    refine (completes_iff_of_exec (exec_tsuTick s)).2 (fun m => ?_)
    split
    · next due => exact task_tsuTick_due sparse due.1 due.2 (prio m)
    · next other => exact task_tsuTick_not_due sparse other
  case hold =>
    exact fun ready held reached => (completes_iff_of_exec (exec_affinityHoldEnd n s)).2 (task_affinityHoldEnd ready held reached)
  case jobs =>
    intro found queued entry
    constructor
    · intro opcode gen resident
      have record := job_taskWake found queued entry gen opcode
      have wakes := task_taskWake found queued entry gen opcode
      exact ⟨fun state => (completes_iff_of_exec (exec_taskWake j.id s)).2 ⟨wakes ▸ Dev.task_wakeTask_idle resident state, record⟩,
        fun state => (completes_iff_of_exec (exec_taskWake j.id s)).2 ⟨wakes ▸ Dev.task_wakeTask_busy resident state, record⟩⟩
    · exact fun opcode gen =>
        ⟨fun state => (completes_iff_of_exec (exec_taskFree j.id s)).2 (taskFree_idle found queued entry gen opcode state),
          fun state => (completes_iff_of_exec (exec_taskFree j.id s)).2 (taskFree_running found queued entry gen opcode state)⟩
  case ends =>
    intro x entry valid own running stored computed runs st ending
    constructor
    · intro job ownJob found phase noFree
      refine (completes_iff_of_exec (exec_taskEnd c s)).2 ?_
      rw [← tendStatus_eq]
      exact taskEnd_job entry valid own running stored computed runs ending job ownJob found phase noFree
    · intro resident noFree noWake once
      exact (completes_iff_of_exec (exec_taskEnd c s)).2
        (taskEnd_resident entry valid own running stored computed runs ending resident noFree noWake once)

end Sys2Proof.Machine
end

section
/-! SUPPORT. The retirement of ergs (R228, R230, R232, R233): the abort limit, the beginning and the end of a retirement, and the standby erg;
with it their statement. -/

namespace Sys2Proof.Machine

theorem exec_abortTimeout (c : Fin 104) (s : State) : exec (.abortTimeout c) s = s.onDev (abortTimeout c.val) := rfl
theorem exec_retire (who : Accessor) (e : Fin 16) (abort : Bool) (s : State) : exec (.retire who e abort) s = s.onDev (retire who e.val abort) := rfl
theorem exec_retirementDrained (s : State) : exec .retirementDrained s = s.onDev retirementDrained := rfl
theorem exec_tsuStandbyWrite (who : Accessor) (e : Fin 16) (auto : Bool) (s : State) :
    exec (.tsuStandbyWrite who e auto) s = s.onDev (tsuStandbyWrite who e.val auto) := rfl

/-- R10, R233: a host's write of a register of the secure world is a violation. -/
theorem Dev.secureOnly_func {d : Dev} {off : Nat} {n : Fin 64} (h : d.reaches (.func n) off = true) (f : Dev → Dev) :
    d.secureOnly (.func n) off f = d.regViolation (.func n) off := by
  simp [Dev.secureOnly, h]

/-! ### The abort limit (R228) -/

theorem Dev.cxDiscard_ops (d : Dev) (c : Nat) : ((d.cxDiscard c).core c).ops = [] := by
  rw [Dev.cxDiscard, Dev.core_add, Dev.core_setCore]

/-- R228: the forced end of a core that executes discards its bundle and its coprocessor operations. -/
theorem Dev.forceEnd_forces {d : Dev} {c : Nat} (h : d.get (coreState c) = 1 ∨ d.get (coreState c) = 2) :
    ((d.forceEnd c).core c).forced = true ∧ ((d.forceEnd c).core c).bundle = none ∧ ((d.forceEnd c).core c).ops = [] ∧
      (d.forceEnd c).on Reg.TSU_ATTN_ABORT_FORCED = true := by
  rw [Dev.forceEnd, if_neg (by omega)]
  dsimp only
  rw [Dev.tsuAttend, Dev.attend, Dev.core_relevel, Dev.core_set, Dev.core_onCore, Dev.on_relevel]
  exact ⟨rfl, rfl, d.cxDiscard_ops c, Dev.on_set_self _ _ _ (by decide)⟩

/-- R228: the abort limit forces the end of a task that has not ended. -/
theorem abortTimeout_due {d : Dev} {c n : Nat} (valid : d.on (Reg.ERG_CORE_TASK_VALID (c / 8) (c % 8)) = true)
    (entry : d.get (Reg.ERG_CORE_TASK_ENTRY (c / 8) (c % 8)) = n) (aborting : (d.task n).state = .aborting) (own : (d.task n).core = some c)
    (unforced : (d.core c).forced = false)
    (due : d.due ((d.task n).since + BitVec.ofNat 64 (d.get Reg.TSU_ABORT_TIMEOUT_US * 1000 * 2 ^ 16)) = true) :
    abortTimeout c d = d.forceEnd c := by
  have task : d.coreTask c = some n := by rw [Dev.coreTask, if_pos valid, entry]
  simp only [abortTimeout, task]
  exact if_pos ⟨aborting, own, unforced, due⟩

/-! ### What an abort of an erg's work leaves alone (R230) -/

/-- The retirement under way and the states of the ergs are the same in both. -/
structure KeepsErgs (d e : Dev) : Prop where
  retiring : e.tsu.retiring = d.tsu.retiring
  states : ∀ g, e.get (ergFn g).state = d.get (ergFn g).state

theorem KeepsErgs.refl (d : Dev) : KeepsErgs d d := ⟨rfl, fun _ => rfl⟩

theorem KeepsErgs.trans {d e f : Dev} (h : KeepsErgs d e) (g : KeepsErgs e f) : KeepsErgs d f :=
  ⟨g.retiring.trans h.retiring, fun x => (g.states x).trans (h.states x)⟩

theorem OnlyWork.keepsErgs {d e : Dev} (h : OnlyWork d e) : KeepsErgs d e := ⟨h.retiring_eq, fun _ => Dev.get_of_regs h.regs_eq _⟩

/-- R234: the state of an erg lies in its control word. -/
theorem ergFn_state (g : Nat) : (ergFn g).state = ⟨0xc00000 + g % 13 * 0x10000, 4, 2⟩ := rfl

theorem discarded_spares_state (c g : Nat) : (Reg.ERG_CX_DISCARDED (c / 8) (c % 8)).Spares (ergFn g).state := by
  rw [ergFn_state]
  refine .inl ?_
  simp only [Reg.ERG_CX_DISCARDED]
  omega

theorem tsuAttn_spares_state {f : Fld} (h : f.off = 0xb00020) (g : Nat) : f.Spares (ergFn g).state := by
  rw [ergFn_state]
  exact .inl (by dsimp only; omega)

theorem Dev.cxDiscard_keepsErgs (d : Dev) (c : Nat) : KeepsErgs d (d.cxDiscard c) :=
  ⟨rfl, fun g => Dev.get_set_spares (d.setCore c _) _ (discarded_spares_state c g)⟩

theorem Dev.tsuAttend_keepsErgs (d : Dev) {f : Fld} (h : f.off = 0xb00020) : KeepsErgs d (d.tsuAttend f) :=
  ⟨by rw [Dev.tsuAttend, (d.attend_only _ _).tsu_eq], fun g => by
    rw [Dev.tsuAttend, Dev.attend, Dev.get_relevel, Dev.get_set_spares _ _ (tsuAttn_spares_state h g)]⟩

theorem Dev.forceEnd_keepsErgs (d : Dev) (c : Nat) : KeepsErgs d (d.forceEnd c) := by
  unfold Dev.forceEnd
  split
  · exact .refl d
  · exact ((d.cxDiscard_keepsErgs c).trans (Dev.onCore_work _ _ _).keepsErgs).trans (Dev.tsuAttend_keepsErgs _ rfl)

theorem Dev.ergAbort_keepsErgs (d : Dev) (e st : Nat) : KeepsErgs d (d.ergAbort e st) := by
  refine Dev.each_rel KeepsErgs.refl KeepsErgs.trans (fun d c => ?_) (ergCores e) d
  have cancelled : KeepsErgs d (match d.coreTask c with
      | some n => if (d.task n).core = some c then d.cancelTask n st else d
      | none => d) := by
    split
    · split
      · exact (d.cancelTask_work _ _).keepsErgs
      · exact .refl d
    · exact .refl d
  exact (cancelled.trans (Dev.cxDiscard_keepsErgs _ _)).trans (Dev.forceEnd_keepsErgs _ _)

theorem Dev.dropAffinity_work (d : Dev) (e : Nat) : OnlyWork d (d.dropAffinity e) :=
  Dev.each_rel OnlyWork.refl OnlyWork.trans (fun d _ => d.setTask_work _ _) _ d

/-! ### A retirement begins (R232) -/

theorem Dev.enterStopping_state (d : Dev) (e : Nat) (abort : Bool) : (d.enterStopping (ergFn e) abort).get (ergFn e).state = 2 := by
  have apart : (ergFn e).abort.Spares (ergFn e).state := .inr (by simp [Fn.abort, Fn.state])
  rw [Dev.enterStopping, Dev.get_set_spares _ _ apart, Dev.get_set_self _ _ _ (by simp [Fn.state])]
  rfl

/-- R232 step 2: an erg that is not STOPPED enters STOPPING. -/
def Dev.stopErg (d : Dev) (e : Nat) (abort : Bool) : Dev := if d.stopped (ergFn e) then d else d.enterStopping (ergFn e) abort

/-- R232 steps 1 and 2: the erg to be retired takes no more tasks, and what it runs is aborted if the retirement says so. -/
def Dev.beginRetirement (d : Dev) (e : Nat) (abort : Bool) : Dev :=
  let d := ((d.setRetiring (some (e, abort))).dropAffinity e).stopErg e abort
  if abort then d.ergAbort e stABORTED else d

theorem retire_secure {d : Dev} {e : Nat} (abort : Bool) (reaches : d.reaches .secure 0xB00014 = true) (he : e < 13)
    (serving : d.get Reg.TSU_STANDBY_ERG ≠ e) (unretired : d.on (Reg.ERG_STATUS_RETIRED e) = false) (idle : d.tsu.retiring = none) :
    retire .secure e abort d = d.beginRetirement e abort := by
  have accepted : ¬(13 ≤ e ∨ d.get Reg.TSU_STANDBY_ERG = e ∨ d.on (Reg.ERG_STATUS_RETIRED e) = true ∨ d.tsu.retiring.isSome = true) := by
    simp [he, serving, unretired, idle]
  rw [retire, Dev.secureOnly_secure reaches, if_neg accepted]
  rfl

theorem Dev.stopErg_tsu (d : Dev) (e : Nat) (abort : Bool) : (d.stopErg e abort).tsu = d.tsu := by
  unfold Dev.stopErg
  split
  · rfl
  · exact (d.enterStopping_only _ _).tsu_eq

theorem Dev.stopErg_state {d : Dev} {e : Nat} (h : d.stopped (ergFn e) = false) (abort : Bool) :
    (d.stopErg e abort).get (ergFn e).state = 2 := by
  rw [Dev.stopErg, h, if_neg Bool.false_ne_true, Dev.enterStopping_state]

theorem Dev.beginRetirement_begins (d : Dev) (e : Nat) (abort : Bool) :
    (d.beginRetirement e abort).tsu.retiring = some (e, abort) ∧
      (d.stopped (ergFn e) = false → (d.beginRetirement e abort).get (ergFn e).state = 2) := by
  have work := (d.setRetiring (some (e, abort))).dropAffinity_work e
  have stopped : ((d.setRetiring (some (e, abort))).dropAffinity e).stopped (ergFn e) = d.stopped (ergFn e) := by
    rw [Dev.stopped, Dev.get_of_regs work.regs_eq]
    rfl
  have kept : KeepsErgs (((d.setRetiring (some (e, abort))).dropAffinity e).stopErg e abort) (d.beginRetirement e abort) := by
    unfold Dev.beginRetirement
    dsimp only
    split
    · exact Dev.ergAbort_keepsErgs _ e _
    · exact .refl _
  constructor
  · rw [kept.retiring, Dev.stopErg_tsu, work.retiring_eq]
    rfl
  · exact fun runs => (kept.states e).trans (Dev.stopErg_state (stopped.trans runs) abort)

/-! ### A retirement ends (R232 step 3) -/

theorem Dev.enterStopped_state (d : Dev) (e : Nat) : (d.enterStopped (ergFn e)).get (ergFn e).state = 0 := by
  have apart : (ergFn e).abort.Spares (ergFn e).state := .inr (by simp [Fn.abort, Fn.state])
  rw [Dev.enterStopped, Dev.get_set_spares _ _ apart, Dev.get_set_self _ _ _ (by simp [Fn.state])]
  rfl

/-- The flags that the end of a retirement sets. -/
def retiredFlags (e : Nat) : List Fld := [Reg.ERG_STATUS_RETIRED e, Reg.ERG_ATTN_RETIRED e, Reg.TSU_ATTN_RETIRED]

theorem Dev.ergRetired_within (d : Dev) (e : Nat) :
    RegsWithin (retiredFlags e) ((d.setRetiring none).enterStopped (ergFn e)) (d.ergRetired e) := by
  have status := (RegsWithin.refl (retiredFlags e) ((d.setRetiring none).enterStopped (ergFn e))).set
    (f := Reg.ERG_STATUS_RETIRED e) (by simp [retiredFlags]) 1
  exact (status.trans (Dev.attend_within _ (by simp [retiredFlags]) (0x630 + e))).trans (Dev.attend_within _ (by simp [retiredFlags]) 0x63D)

theorem retiredFlags_spare_state {e : Nat} : ∀ f ∈ retiredFlags e, f.Spares (ergFn e).state := by
  simp only [retiredFlags, List.forall_mem_cons, ergFn_state]
  refine ⟨.inl ?_, .inl ?_, .inl ?_, by simp⟩
  · simp only [Reg.ERG_STATUS_RETIRED]; omega
  · simp only [Reg.ERG_ATTN_RETIRED]; omega
  · simp only [Reg.TSU_ATTN_RETIRED]; omega

theorem retiredFlags_spare_auto (e : Nat) : ∀ f ∈ retiredFlags e, f.Spares Reg.TSU_STANDBY_AUTO := by
  simp only [retiredFlags, List.forall_mem_cons]
  refine ⟨.inl ?_, .inl ?_, .inl (by decide), by simp⟩
  · simp only [Reg.TSU_STANDBY_AUTO, Reg.ERG_STATUS_RETIRED]; omega
  · simp only [Reg.TSU_STANDBY_AUTO, Reg.ERG_ATTN_RETIRED]; omega

theorem Dev.ergRetired_state (d : Dev) (e : Nat) : (d.ergRetired e).get (ergFn e).state = 0 :=
  (d.ergRetired_within e _ retiredFlags_spare_state).trans (Dev.enterStopped_state _ e)

theorem Dev.ergRetired_auto (d : Dev) (e : Nat) : (d.ergRetired e).on Reg.TSU_STANDBY_AUTO = d.on Reg.TSU_STANDBY_AUTO := by
  have state : (ergFn e).state.Spares Reg.TSU_STANDBY_AUTO := .inl (by rw [ergFn_state]; simp only [Reg.TSU_STANDBY_AUTO]; omega)
  have abort : (ergFn e).abort.Spares Reg.TSU_STANDBY_AUTO := .inl (by
    rw [show (ergFn e).abort.off = (ergFn e).state.off from rfl, ergFn_state]; simp only [Reg.TSU_STANDBY_AUTO]; omega)
  rw [(d.ergRetired_within e).on (retiredFlags_spare_auto e), Dev.enterStopped, Dev.on_set_spares _ _ abort, Dev.on_set_spares _ _ state]
  rfl

/-- R232 step 3: the flags of an erg that is retired, of its block and of the scheduler. -/
theorem Dev.ergRetired_flags (d : Dev) (e : Nat) : (d.ergRetired e).on (Reg.ERG_STATUS_RETIRED e) = true ∧
    (d.ergRetired e).on (Reg.ERG_ATTN_RETIRED e) = true ∧ (d.ergRetired e).on Reg.TSU_ATTN_RETIRED = true := by
  have tsu_status : Reg.TSU_ATTN_RETIRED.Spares (Reg.ERG_STATUS_RETIRED e) :=
    .inl (by simp only [Reg.ERG_STATUS_RETIRED, Reg.TSU_ATTN_RETIRED]; omega)
  have tsu_attn : Reg.TSU_ATTN_RETIRED.Spares (Reg.ERG_ATTN_RETIRED e) :=
    .inl (by simp only [Reg.ERG_ATTN_RETIRED, Reg.TSU_ATTN_RETIRED]; omega)
  have attn_status : (Reg.ERG_ATTN_RETIRED e).Spares (Reg.ERG_STATUS_RETIRED e) := .inl (by simp [Reg.ERG_ATTN_RETIRED, Reg.ERG_STATUS_RETIRED])
  unfold Dev.ergRetired Dev.tsuAttend
  dsimp only
  simp only [Dev.on_attend]
  refine ⟨?_, ?_, ?_⟩
  · rw [Dev.on_set_spares _ _ tsu_status, Dev.on_attend, Dev.on_set_spares _ _ attn_status, Dev.on_set_self _ _ _ (by simp [Reg.ERG_STATUS_RETIRED])]
    rfl
  · rw [Dev.on_set_spares _ _ tsu_attn, Dev.on_attend, Dev.on_set_self _ _ _ (by simp [Reg.ERG_ATTN_RETIRED])]
    rfl
  · exact Dev.on_set_self _ _ _ (by decide)

theorem Dev.ergRetired_retiring (d : Dev) (e : Nat) : (d.ergRetired e).tsu.retiring = none := by
  unfold Dev.ergRetired Dev.tsuAttend
  dsimp only
  rw [(Dev.attend_only _ _ _).tsu_eq, (Dev.attend_only _ _ _).tsu_eq, Dev.set_tsu, (Dev.enterStopped_only _ _).tsu_eq]
  rfl

/-- R232 step 4: without TSU_STANDBY.AUTO no standby erg takes over. -/
theorem Dev.standbySteps_of_off {d : Dev} (h : d.on Reg.TSU_STANDBY_AUTO = false) (e : Nat) : d.standbySteps e = d := by
  simp [Dev.standbySteps, h]

/-- R232 step 3: the drain of an erg ends its retirement. -/
theorem retirementDrained_eq {d : Dev} {r : Nat × Bool} (retiring : d.tsu.retiring = some r) (idle : d.ergBusy r.1 = false)
    (manual : d.on Reg.TSU_STANDBY_AUTO = false) : retirementDrained d = d.ergRetired r.1 := by
  simp only [retirementDrained, retiring, idle, Bool.false_eq_true, if_false]
  exact Dev.standbySteps_of_off ((d.ergRetired_auto r.1).trans manual) r.1

/-! ### The standby erg (R232, R233) -/

/-- R234: STATUS.STANDBY of erg k while erg e is the standby erg. -/
def Dev.showStandby (e : Nat) (d : Dev) (k : Nat) : Dev := d.set (Reg.ERG_STATUS_STANDBY k) (b2n (k == e))

/-- R232, R234: the standby erg named, and shown by every erg; a retired erg named is retired no more. -/
def Dev.nameStandby (d : Dev) (e : Nat) : Dev :=
  let d := (d.set Reg.TSU_STANDBY_ERG e).each (upFrom 0 13) (Dev.showStandby e)
  if e = 15 then d else d.set (Reg.ERG_STATUS_RETIRED e) 0

/-- R232: an erg that may be the standby erg: none, or one that is STOPPED and is not both retired and broken. -/
def Dev.mayStandBy (d : Dev) (e : Nat) : Prop :=
  e = 15 ∨ (e < 13 ∧ d.stopped (ergFn e) = true ∧
    (d.on (Reg.ERG_STATUS_RETIRED e) && d.on (Reg.ERG_STATUS_SELFTEST_FAIL e)) = false)

theorem auto_spares_state (e : Nat) : Reg.TSU_STANDBY_AUTO.Spares (ergFn e).state :=
  .inl (by rw [ergFn_state]; simp only [Reg.TSU_STANDBY_AUTO]; omega)

/-- What makes an erg fit to stand by is no matter of TSU_STANDBY.AUTO. -/
theorem Dev.mayStandBy_set_auto {d : Dev} {e : Nat} (h : d.mayStandBy e) (v : Nat) : (d.set Reg.TSU_STANDBY_AUTO v).mayStandBy e := by
  have retired : Reg.TSU_STANDBY_AUTO.Spares (Reg.ERG_STATUS_RETIRED e) :=
    .inl (by simp only [Reg.ERG_STATUS_RETIRED, Reg.TSU_STANDBY_AUTO]; omega)
  have failed : Reg.TSU_STANDBY_AUTO.Spares (Reg.ERG_STATUS_SELFTEST_FAIL e) :=
    .inl (by simp only [Reg.ERG_STATUS_SELFTEST_FAIL, Reg.TSU_STANDBY_AUTO]; omega)
  unfold Dev.mayStandBy at h ⊢
  rwa [Dev.stopped, Dev.get_set_spares _ _ (auto_spares_state e), Dev.on_set_spares _ _ retired, Dev.on_set_spares _ _ failed]

theorem tsuStandbyWrite_secure {d : Dev} {e : Nat} (auto : Bool) (reaches : d.reaches .secure 0xB00010 = true) (may : d.mayStandBy e) :
    tsuStandbyWrite .secure e auto d = (d.set Reg.TSU_STANDBY_AUTO (b2n auto)).nameStandby e := by
  have may' := Dev.mayStandBy_set_auto may (b2n auto)
  rw [tsuStandbyWrite, Dev.secureOnly_secure reaches]
  dsimp only
  rw [if_neg]
  · rfl
  · rcases may' with rfl | ⟨known, stopped, sound⟩
    · simp
    · simp [known, stopped, Bool.and_assoc, sound]

/-- The fields in which the standby erg is shown. -/
def standbyFields (e : Nat) : List Fld := Reg.ERG_STATUS_RETIRED e :: (upFrom 0 13).map Reg.ERG_STATUS_STANDBY

theorem Dev.nameStandby_within (d : Dev) (e : Nat) : RegsWithin (standbyFields e) (d.set Reg.TSU_STANDBY_ERG e) (d.nameStandby e) := by
  have shown : RegsWithin (standbyFields e) (d.set Reg.TSU_STANDBY_ERG e)
      ((d.set Reg.TSU_STANDBY_ERG e).each (upFrom 0 13) (Dev.showStandby e)) :=
    RegsWithin.each (fun d k hk => (RegsWithin.refl _ d).set (List.mem_cons_of_mem _ (List.mem_map_of_mem hk)) _) _
  exact .ite shown (shown.set (List.mem_cons_self ..) 0)

theorem standbyFields_spare {e : Nat} {g : Fld} (h : g.off < 0xc00000) : ∀ f ∈ standbyFields e, f.Spares g := by
  simp only [standbyFields, List.forall_mem_cons, List.forall_mem_map, Reg.ERG_STATUS_RETIRED, Reg.ERG_STATUS_STANDBY]
  exact ⟨.inl (by dsimp only; omega), fun _ _ => .inl (by dsimp only; omega)⟩

theorem Dev.get_nameStandby (d : Dev) {e : Nat} (h : e < 16) : (d.nameStandby e).get Reg.TSU_STANDBY_ERG = e := by
  rw [d.nameStandby_within e _ (standbyFields_spare (by decide)), Dev.get_set_self _ _ _ (by decide)]
  exact Nat.mod_eq_of_lt h

theorem Dev.nameStandby_auto (d : Dev) (e : Nat) : (d.nameStandby e).on Reg.TSU_STANDBY_AUTO = d.on Reg.TSU_STANDBY_AUTO := by
  rw [(d.nameStandby_within e).on (standbyFields_spare (by decide)), Dev.on_set_spares _ _ (.inr (by decide))]

theorem b2n_mod_two (b : Bool) : (b2n b % 2 ^ 1 == 1) = b := by cases b <;> rfl

/-- R234: after the loop over the ergs each shows whether it is the standby erg. -/
theorem Dev.on_each_showStandby (d : Dev) (e : Nat) {k : Nat} (hk : k < 13) :
    (d.each (upFrom 0 13) (Dev.showStandby e)).on (Reg.ERG_STATUS_STANDBY k) = (k == e) := by
  have others : ∀ d : Dev, ∀ i ∈ upFrom 0 13, i ≠ k → (Dev.showStandby e d i).on (Reg.ERG_STATUS_STANDBY k) = d.on (Reg.ERG_STATUS_STANDBY k) :=
    fun d i _ ne => Dev.on_set_spares _ _ (.inl (by simp only [Reg.ERG_STATUS_STANDBY]; omega))
  obtain ⟨x, -, own⟩ := Dev.each_once (R := fun d e => e.on (Reg.ERG_STATUS_STANDBY k) = d.on (Reg.ERG_STATUS_STANDBY k)) (fun _ => rfl)
    (fun h g => g.trans h) (upFrom_nodup 0 13) (x := k) (by simp [hk]) others d
  rw [own, Dev.showStandby, Dev.on_set_self _ _ _ (by simp [Reg.ERG_STATUS_STANDBY])]
  exact b2n_mod_two _

theorem Dev.nameStandby_shows (d : Dev) (e : Nat) {k : Nat} (hk : k < 13) :
    (d.nameStandby e).on (Reg.ERG_STATUS_STANDBY k) = (k == e) := by
  have apart : (Reg.ERG_STATUS_RETIRED e).Spares (Reg.ERG_STATUS_STANDBY k) := .inr (by simp [Reg.ERG_STATUS_RETIRED, Reg.ERG_STATUS_STANDBY])
  unfold Dev.nameStandby
  dsimp only
  split
  · exact Dev.on_each_showStandby _ e hk
  · rw [Dev.on_set_spares _ _ apart, Dev.on_each_showStandby _ e hk]

/-! ### The statement -/

/-- Settles O21: each command on the erg, the core or the retirement that its clause names. -/
theorem ergsRetire : Obligations.ErgsRetire := by
  unfold Obligations.ErgsRetire
  intro s n c e abort auto
  refine ⟨?limit, ?begins, ?ends, ?standby, ?world⟩
  case limit =>
    intro t valid entry aborting own unforced due executes
    refine (completes_iff_of_exec (exec_abortTimeout c s)).2 ?_
    rw [abortTimeout_due valid entry aborting own unforced due]
    exact Dev.forceEnd_forces executes
  case begins =>
    intro reaches he serving unretired idle
    refine (completes_iff_of_exec (exec_retire .secure e abort s)).2 ?_
    rw [retire_secure abort reaches he serving unretired idle]
    exact s.dev.beginRetirement_begins e.val abort
  case ends =>
    intro r retiring _ idle manual
    refine (completes_iff_of_exec (exec_retirementDrained s)).2 ?_
    rw [retirementDrained_eq retiring idle manual]
    obtain ⟨status, attn, tsuAttn⟩ := s.dev.ergRetired_flags r.1
    exact ⟨s.dev.ergRetired_retiring r.1, status, s.dev.ergRetired_state r.1, attn, tsuAttn⟩
  case standby =>
    intro reaches may
    refine (completes_iff_of_exec (exec_tsuStandbyWrite .secure e auto s)).2 ?_
    rw [tsuStandbyWrite_secure auto reaches may]
    refine ⟨Dev.get_nameStandby _ e.isLt, ?_, fun k hk => Dev.nameStandby_shows _ e.val hk⟩
    rw [Dev.nameStandby_auto, Dev.on_set_self _ _ _ (by decide)]
    exact b2n_mod_two auto
  case world =>
    exact fun f reaches => (gives_iff_of_exec (exec_retire (.func f) e abort s)).2 (Dev.secureOnly_func reaches _)

end Sys2Proof.Machine
end

section
/-! SUPPORT. The accesses of the matrix engines and the transform units (R97, R237, R247–R249, R252, R255, R259): what a job of theirs can do
to the device, and how it ends. -/

namespace Sys2Proof.Machine

/-! ### Accesses -/

theorem Io.readAll_only (s : Io) (q : Req) (as : List Nat) : OnlyIo s.dev (s.readAll q as).1.dev :=
  OnlyIo.foldl (dev := fun b : Io × List Word => b.1.dev) (fun b a => b.1.read_only q a) _ (.refl s.dev)

theorem Io.writeAll_only (s : Io) (q : Req) (xs : List (Nat × Word)) (poison : Bool) : OnlyIo s.dev (s.writeAll q xs poison).dev :=
  OnlyIo.foldl (dev := Io.dev) (fun b (x : Nat × Word) => b.write_only q x.1 x.2 poison) _ (.refl s.dev)

/-- R248: the check of a job's ranges records a violation at most. -/
theorem Io.checkWorld_only (s : Io) (q : Req) (reads writes : List Nat) : OnlyIo s.dev (s.checkWorld q reads writes).dev := by
  unfold Io.checkWorld
  split
  · exact .refl _
  · split
    · rw [Io.halt_dev]
      exact (s.dev.worldViolation_only _ _ _ _ _).mem.io
    · split
      · rw [Io.halt_dev]
        exact (s.dev.worldViolation_only _ _ _ _ _).mem.io
      · exact .refl _

theorem Io.writeSamples_only (s : Io) (q : Req) (a : Nat) (v : Word) (mask : Nat) (poison : Bool) :
    OnlyIo s.dev (s.writeSamples q a v mask poison).dev := by
  unfold Io.writeSamples
  split
  · exact .refl _
  · split
    · exact s.write_only _ _ _ _
    · split
      · next b _ => exact Io.took_only ((s.noteWrite_only (b / 8)).mem.trans (Dev.writeNarrow_only _ _ _ _ _ _)).io
      · rw [Io.halt_dev]
        exact .refl _

theorem Io.writeRow_only (s : Io) (q : Req) (as : List Nat) (c : Nat) (last : Bool) (row : List Cx) (poison : Bool) :
    OnlyIo s.dev (s.writeRow q as c last row poison).dev :=
  OnlyIo.foldl (dev := Io.dev) (fun b _ => b.writeSamples_only q _ _ _ poison) _ (.refl s.dev)

/-! ### Instances and symbols -/

theorem MxRun.writeC_only (r : MxRun) (q : Req) (j : Job) (i : Nat) (c : Option Mat) (poison : Bool) :
    OnlyIo r.io.dev (r.writeC q j i c poison).io.dev :=
  OnlyIo.foldl (dev := Io.dev) (fun b _ => b.writeRow_only q _ _ _ _ poison) _ (.refl r.io.dev)

theorem MxRun.record_only (r : MxRun) (q : Req) (j : Job) (i : Nat) (w : Word) : OnlyIo r.io.dev (r.record q j i w).io.dev :=
  r.io.write_only q _ w false

/-- A matrix C and its record. -/
theorem MxRun.output_only (r : MxRun) (q : Req) (j : Job) (i : Nat) (c : Option Mat) (poison : Bool) (w : Word) :
    OnlyIo r.io.dev ((r.writeC q j i c poison).record q j i w).io.dev :=
  (r.writeC_only q j i c poison).trans (MxRun.record_only _ _ _ _ _)

/-- Operands read where the exponent they need has come. -/
theorem Io.readUnless_only (s : Io) (q : Req) (as : List Nat) (failed : Bool) :
    OnlyIo s.dev (if failed then (s, []) else s.readAll q as).1.dev := by
  split
  · exact .refl _
  · exact s.readAll_only q as

/-- R247, R248: what a matrix job can do for one of its instances. -/
theorem MxRun.instance_only (q : Req) (j : Job) (r : MxRun) (i : Nat) : OnlyIo r.io.dev (r.instance_ q j i).io.dev := by
  unfold MxRun.instance_
  dsimp -zeta only
  extract_lets erec old io e failed bad r'
  have operands : OnlyIo r.io.dev r'.io.dev := (((r.io.fresh.checkWorld_only _ _ _).trans (io.readAll_only _ _)).trans
    (Io.readUnless_only _ _ _ _)).trans (Io.readUnless_only _ _ _ _)
  clear_value bad r'
  split
  · exact operands
  · cases bad with
    | some st => exact operands.trans (r'.output_only _ _ _ _ _ _)
    | none => exact operands.trans (r'.output_only _ _ _ _ _ _)

/-- R255–R259: what a symbol or block of a transform job can do. -/
theorem XfRun.symbol_only (q : Req) (j : Job) (r : XfRun) (k : Nat) : OnlyIo r.io.dev (r.symbol q j k).io.dev := by
  unfold XfRun.symbol
  dsimp -zeta only
  extract_lets time row ins outs old bad r'
  have read : OnlyIo r.io.dev r'.io.dev := (r.io.fresh.checkWorld_only _ _ _).trans (Io.readAll_only _ _ _)
  clear_value bad r'
  split
  · exact read
  · cases bad with
    | some st => exact read.trans (r'.io.writeAll_only _ _ _)
    | none => exact read.trans (r'.io.writeAll_only _ _ _)

/-! ### The end of a job -/

theorem Dev.engineAttn_only (d : Dev) (poison numeric : Fld) (ev st : Nat) : OnlyRegs d (d.engineAttn poison numeric ev st) :=
  .ite (d.attend_only _ _) (.ite (d.attend_only _ _) (.refl d))

theorem Dev.drawUpTo_work (d : Dev) (n : Nat) : SameWork d (d.drawUpTo n).2 := ⟨rfl, rfl, rfl, rfl, rfl, rfl, rfl, rfl⟩

/-- R248, R249: the end of a matrix job counts it, shows its status in the attention, and ends it with its engine in the RESULT. -/
theorem Dev.mxeEnd_eq (d : Dev) (j : Job) (st result : Nat) :
    ∃ e, OnlyRegs d e ∧ d.mxeEnd j st result = e.endJob j st (result + j.unit * 2 ^ 112) :=
  ⟨_, (d.bump_only _).trans (Dev.engineAttn_only _ _ _ _ _), rfl⟩

/-- Words read at the beginning of a job. -/
theorem SameWork.of_readAll {d : Dev} {j : Job} {q : Req} {as : List Nat} {io : Io} {ws : List Word}
    (read : (Io.start d j []).readAll q as = (io, ws)) : SameWork d io.done := by
  have accesses := (Io.start d j []).readAll_only q as
  rw [read] at accesses
  exact accesses.work.trans io.done_only.work

theorem SameWork.add {d e : Dev} (h : SameWork d e) (f : Fld) (n : Nat) : SameWork d (e.add f n) := h.trans (e.set_only f _).work

section
variable {d : Dev} {j : Job}

theorem SameWork.jobEnds_mxeEnd {e : Dev} (h : SameWork d e) (found : d.job j.id = some j) (st r : Nat) : d.jobEnds j (e.mxeEnd j st r) := by
  obtain ⟨f, only, eq⟩ := e.mxeEnd_eq j st r
  rw [eq]
  exact (h.trans only.work).jobEnds found _ _

/-- A job that is ended with fields the device does not yet show. -/
theorem SameWork.job_mxeEnd {e : Dev} {x : Job} (h : SameWork d e) (found : d.job j.id = some x) (st r : Nat) :
    ∃ r', (e.mxeEnd j st r).job j.id = some (d.endedJob j st r') := by
  obtain ⟨f, only, eq⟩ := e.mxeEnd_eq j st r
  have same := h.trans only.work
  rw [eq, Dev.job_endJob_self ((Dev.job_of_jfe same.jfe _).trans found), Dev.endedJob_of_time same.time]
  exact ⟨_, rfl⟩

variable (found : d.job j.id = some j) (running : j.phase = .running) {op : Nat} (hop : j.opcode = op)
include found running hop

/-- R247–R249: a matrix job that executes ends. -/
theorem mxJob_jobEnds : d.jobEnds j (mxJob op j.id d) := by
  rw [mxJob, Dev.executing_running found running hop]
  dsimp only
  generalize run : (upFrom 0 j.mxCount).foldl _ _ = r
  have accesses : OnlyIo d r.io.dev := run ▸
    OnlyIo.foldl (dev := fun r : MxRun => r.io.dev) (fun r i => r.instance_only _ j i) _ (.refl d)
  have drawn := (accesses.work.trans r.io.done_only.work).trans (Dev.drawUpTo_work _ j.mxSteps)
  exact (((drawn.add _ _).add _ _).add _ _).jobEnds_mxeEnd found _ _

/-- R259: a transform job that executes ends. -/
theorem xfJob_jobEnds : d.jobEnds j (xfJob op j.id d) := by
  rw [xfJob, Dev.executing_running found running hop]
  dsimp only
  generalize run : (upFrom 0 j.xfCount).foldl _ _ = r
  have accesses : OnlyIo d r.io.dev := run ▸
    OnlyIo.foldl (dev := fun r : XfRun => r.io.dev) (fun r k => r.symbol_only _ j k) _ (.refl d)
  have drawn := (accesses.work.trans r.io.done_only.work).trans (Dev.drawUpTo_work _ j.xfSteps)
  exact (((((drawn.add _ _).add _ _).add _ _).add _ _).trans (Dev.engineAttn_only _ _ _ _ _).work).jobEnds found _ _

end

/-! ### A unit's next job (R237, R252) -/

theorem Dev.serves_iff {d : Dev} {fn : Fn} : d.serves fn = true ↔ d.running fn = true ∨ (d.stopping fn = true ∧ d.on fn.abort = false) := by
  simp [Dev.serves]

theorem Dev.mem_atUnit {d : Dev} {lo hi unit : Nat} {p : Phase} {j : Job} :
    j ∈ d.atUnit lo hi unit p ↔ j ∈ d.jfe.jobs ∧ lo ≤ j.opcode ∧ j.opcode < hi ∧ j.unit = unit ∧ j.phase = p := by
  simp [Dev.atUnit, and_assoc]

/-- A unit has a next job where it serves, is powered and idle, and has a queue. -/
theorem Dev.nextJob_eq_some {d : Dev} {lo hi unit domain : Nat} {fn : Fn} {j : Job} :
    d.nextJob lo hi unit domain fn = some j ↔ (d.serves fn = true ∧ d.domainOn domain = true ∧ d.atUnit lo hi unit .running = []) ∧
      firstInQueue (d.atUnit lo hi unit .queued) = some j := by
  simp [Dev.nextJob, and_assoc]

/-- R252: a transform unit begins its next job. -/
theorem xfmJobBegin_begins {d : Dev} {u : Nat} {j : Job} (next : d.nextJob 0x30 0x40 u 14 (xfmFn u) = some j) :
    xfmJobBegin u d = d.setJob { j with phase := .running } := by rw [xfmJobBegin, next]

section
variable {d : Dev} {m : Nat} {j : Job} (next : d.nextJob 0x10 0x30 m 13 (mxeFn m) = some j)
include next

/-- R241, R242: a parameter block out of place. -/
theorem mxeJobBegin_misplaced (place : d.engineRun j.mxParam 8 = false) : mxeJobBegin m d = d.mxeEnd j stCONFIG 0 := by
  simp [mxeJobBegin, next, place]

variable (place : d.engineRun j.mxParam 8 = true) {io : Io} {ws : List Word}
  (read : (Io.start d j []).readAll (d.mxeReq j) (gridWords j.mxParam 1 8 0) = (io, ws))
include place read

/-- R242: a parameter block that is refused, or that holds a lost word. -/
theorem mxeJobBegin_lost {st : Nat} (lost : io.stop = some st ∨ io.stop = none ∧ io.lost = some st) :
    mxeJobBegin m d = io.done.mxeEnd { j with params := ws } st 0 := by
  rcases lost with stops | ⟨goes, lost⟩
  · simp [mxeJobBegin, next, place, read, stops]
  · simp [mxeJobBegin, next, place, read, goes, lost]

/-- R240–R242, R247: a parameter block that is whole begins the job if it is sound. -/
theorem mxeJobBegin_whole (goes : io.stop = none) (whole : io.lost = none) :
    mxeJobBegin m d = if io.done.mxParamOk { j with params := ws } then io.done.setJob { j with params := ws, phase := .running }
      else io.done.mxeEnd { j with params := ws } stCONFIG 0 := by
  simp [mxeJobBegin, next, place, read, goes, whole]

end

/-! ### The commands -/

theorem exec_mxeJobBegin (m : Fin 4) (s : State) : exec (.mxeJobBegin m) s = s.onDev (mxeJobBegin m.val) := rfl
theorem exec_xfmJobBegin (u : Fin 32) (s : State) : exec (.xfmJobBegin u) s = s.onDev (xfmJobBegin u.val) := rfl
theorem exec_mxMatmul (id : Nat) (s : State) : exec (.mxMatmul id) s = s.onDev (mxJob 0x10 id) := rfl
theorem exec_mxGram (id : Nat) (s : State) : exec (.mxGram id) s = s.onDev (mxJob 0x11 id) := rfl
theorem exec_mxCombine (id : Nat) (s : State) : exec (.mxCombine id) s = s.onDev (mxJob 0x12 id) := rfl
theorem exec_mxChol (id : Nat) (s : State) : exec (.mxChol id) s = s.onDev (mxJob 0x13 id) := rfl
theorem exec_mxTrsm (id : Nat) (s : State) : exec (.mxTrsm id) s = s.onDev (mxJob 0x14 id) := rfl
theorem exec_mxPosv (id : Nat) (s : State) : exec (.mxPosv id) s = s.onDev (mxJob 0x15 id) := rfl
theorem exec_xfFft (id : Nat) (s : State) : exec (.xfFft id) s = s.onDev (xfJob 0x30 id) := rfl
theorem exec_xfDft (id : Nat) (s : State) : exec (.xfDft id) s = s.onDev (xfJob 0x31 id) := rfl

/-- Settles O38: the beginning of a job by the outcome of its parameter block, and its end by what its accesses leave alone. -/
theorem engineJobs : Obligations.EngineJobs := by
  unfold Obligations.EngineJobs
  intro s m u j d
  refine ⟨fun next found => ⟨fun place => ?misplaced, fun place io ws read => ⟨fun goes whole sound => ?sound, fun goes whole unsound => ?unsound,
    fun st lost => ?lost⟩⟩, fun next => ?transform, fun lo hi unit domain fn next => ?queue, fun found running => ?runs⟩
  case misplaced =>
    rw [completes_iff_of_exec (exec_mxeJobBegin m s), mxeJobBegin_misplaced next place]
    exact (OnlyRegs.refl d).work.job_mxeEnd found _ _
  case sound =>
    rw [gives_iff_of_exec (exec_mxeJobBegin m s), mxeJobBegin_whole next place read goes whole, if_pos sound]
  case unsound =>
    rw [completes_iff_of_exec (exec_mxeJobBegin m s), mxeJobBegin_whole next place read goes whole, if_neg (Bool.eq_false_iff.1 unsound)]
    exact (SameWork.of_readAll read).job_mxeEnd (j := { j with params := ws }) found _ _
  case lost =>
    rw [completes_iff_of_exec (exec_mxeJobBegin m s), mxeJobBegin_lost next place read lost]
    exact (SameWork.of_readAll read).job_mxeEnd (j := { j with params := ws }) found _ _
  case transform =>
    rw [gives_iff_of_exec (exec_xfmJobBegin u s), xfmJobBegin_begins next]
  case queue =>
    obtain ⟨⟨serves, powered, idle⟩, first⟩ := Dev.nextJob_eq_some.1 next
    obtain ⟨queued, least⟩ := firstInQueue_least first
    obtain ⟨-, atLeast, below, unit, phase⟩ := Dev.mem_atUnit.1 queued
    exact ⟨powered, unit, phase, atLeast, below, Dev.serves_iff.1 serves, idle, least⟩
  case runs =>
    have matrix {op : Nat} {c : Instr} (exec : exec c s = s.onDev (mxJob op j.id)) (hop : j.opcode = op) : Completes c s (d.jobEnds j) :=
      (completes_iff_of_exec exec).2 (mxJob_jobEnds found running hop)
    have transform {op : Nat} {c : Instr} (exec : exec c s = s.onDev (xfJob op j.id)) (hop : j.opcode = op) : Completes c s (d.jobEnds j) :=
      (completes_iff_of_exec exec).2 (xfJob_jobEnds found running hop)
    exact ⟨matrix (exec_mxMatmul _ s), matrix (exec_mxGram _ s), matrix (exec_mxCombine _ s), matrix (exec_mxChol _ s),
      matrix (exec_mxTrsm _ s), matrix (exec_mxPosv _ s), transform (exec_xfFft _ s), transform (exec_xfDft _ s)⟩

end Sys2Proof.Machine
end

section
/-! SUPPORT. The exact products of the matrix engines (R238, R243, R244, R246, R147): conjugate transposes, products and diagonal loading
element by element, their extraction with one shift, and the smallest headroom of a matrix. -/

namespace Sys2Proof.Machine

/-! ### Matrices element by element -/

/-- A matrix of `rows` rows of `cols` elements, which f gives. -/
def MatIs (x : Mat) (rows cols : Nat) (f : Nat → Nat → Cx) : Prop :=
  x.length = rows ∧ (∀ r ∈ x, r.length = cols) ∧ ∀ r < rows, ∀ c < cols, elem x r c = f r c

theorem shaped.matIs {m : Mat} {rows cols : Nat} (h : shaped m rows cols) : MatIs m rows cols (elem m) :=
  ⟨h.1, fun r hr => (h.2 r hr).1, fun _ _ _ _ => rfl⟩

theorem MatIs.own {x : Mat} {rows cols : Nat} {f : Nat → Nat → Cx} (h : MatIs x rows cols f) : MatIs x rows cols (elem x) :=
  ⟨h.1, h.2.1, fun _ _ _ _ => rfl⟩

theorem elem_of_lt {m : Mat} {r c : Nat} (h : r < m.length) : elem m r c = m[r].getD c Cx.zero := by simp [elem, h]

theorem upFrom_eq_range' (k n : Nat) : upFrom k n = List.range' k n := by
  induction n generalizing k with
  | zero => rfl
  | succ n ih => rw [upFrom, ih, List.range'_succ]

theorem upFrom_zero_eq_range (n : Nat) : upFrom 0 n = List.range n := by rw [upFrom_eq_range', List.range_eq_range']

/-- R238: the conjugate transpose. -/
theorem MatIs.hermitian {m : Mat} {rows cols : Nat} {f : Nat → Nat → Cx} (h : MatIs m rows cols f) :
    MatIs (hermitian m cols) cols rows (fun r c => (f c r).conj) := by
  obtain ⟨length, -, elems⟩ := h
  refine ⟨by simp [Machine.hermitian], ?_, fun r hr c hc => ?_⟩
  · simp [Machine.hermitian, length]
  · have hc' : c < m.length := length ▸ hc
    have entry : f c r = m[c].getD r Cx.zero := by rw [← elems c hc r hr, elem_of_lt hc']
    simp [elem, Machine.hermitian, upFrom_zero_eq_range, hr, hc', entry]

/-- R238: op(A), by its flag. -/
theorem MatIs.op {m : Mat} {rows cols : Nat} {conj : Bool} (h : shaped m (if conj then cols else rows) (if conj then rows else cols)) :
    MatIs (if conj then Machine.hermitian m rows else m) rows cols (opElem conj m) := by
  cases conj
  · exact h.matIs
  · exact h.matIs.hermitian

/-! ### Sums of products -/

theorem foldl_add (xs : List Cx) (z : Cx) : xs.foldl Cx.add z = ⟨z.re + (xs.map Cx.re).sum, z.im + (xs.map Cx.im).sum⟩ := by
  induction xs generalizing z with
  | nil => simp
  | cons x xs ih => simp [ih, Cx.add, add_assoc]

theorem zipWith_mul_eq {x y : List Cx} {n : Nat} (hx : x.length = n) (hy : y.length = n) :
    x.zipWith Cx.mul y = (List.range n).map fun i => (x.getD i Cx.zero).mul (y.getD i Cx.zero) := by
  apply List.ext_getElem
  · simp [hx, hy]
  · intro i hi _
    have hi' : i < n := by simpa [hx, hy] using hi
    simp [hx, hy, hi']

/-- R243: the products of a row and a column are exact, and so is their sum. -/
theorem foldl_zipWith_mul {x y : List Cx} {n : Nat} (hx : x.length = n) (hy : y.length = n) :
    (x.zipWith Cx.mul y).foldl Cx.add Cx.zero = dot n (x.getD · Cx.zero) (y.getD · Cx.zero) := by
  rw [foldl_add, zipWith_mul_eq hx hy]
  simp [dot, Cx.zero, Cx.mul, Function.comp_def]

theorem dot_congr {n : Nat} {x x' y y' : Nat → Cx} (hx : ∀ i < n, x i = x' i) (hy : ∀ i < n, y i = y' i) : dot n x y = dot n x' y' := by
  unfold dot
  congr 2 <;> exact List.map_congr_left fun i hi => by rw [hx i (List.mem_range.1 hi), hy i (List.mem_range.1 hi)]

/-- R238, R243: the product of two matrices. -/
theorem MatIs.matMul {a b : Mat} {m k n : Nat} {f g : Nat → Nat → Cx} (ha : MatIs a m k f) (hb : MatIs b k n g) :
    MatIs (matMul a b n) m n (fun r c => dot k (f r) (fun i => g i c)) := by
  obtain ⟨lengthA, colsA, elemsA⟩ := ha
  obtain ⟨lengthB, -, elemsB⟩ := hb
  refine ⟨by simp [Machine.matMul, lengthA], ?_, fun r hr c hc => ?_⟩
  · simp [Machine.matMul]
  · have hr' : r < a.length := lengthA ▸ hr
    have entry : elem (Machine.matMul a b n) r c =
        ((a[r]).zipWith Cx.mul (b.map fun x => x.getD c Cx.zero)).foldl Cx.add Cx.zero := by
      simp [elem, Machine.matMul, upFrom_zero_eq_range, hr', hc]
    rw [entry, foldl_zipWith_mul (colsA _ (List.getElem_mem hr')) (by simp [lengthB])]
    refine dot_congr (fun i hi => ?_) (fun i hi => ?_)
    · rw [← elemsA r hr i hi, elem_of_lt hr']
    · have hi' : i < b.length := lengthB ▸ hi
      rw [← elemsB i hi c hc, elem_of_lt hi']
      simp [hi']

/-- R244: diagonal loading. -/
theorem MatIs.addDiagonal {g : Mat} {n k : Nat} {f : Nat → Nat → Cx} (h : MatIs g n k f) (x : Int) :
    MatIs (addDiagonal g x) n k (fun r c => ⟨(f r c).re + if r = c then x else 0, (f r c).im⟩) := by
  obtain ⟨length, cols, elems⟩ := h
  refine ⟨by simp [Machine.addDiagonal, length], fun r hr => ?_, fun r hr c hc => ?_⟩
  · obtain ⟨i, hi, rfl⟩ := List.getElem_of_mem hr
    simp only [Machine.addDiagonal, List.length_map, List.length_zipIdx] at hi
    simp [Machine.addDiagonal, cols _ (List.getElem_mem hi)]
  · have hr' : r < g.length := length ▸ hr
    have hc' : c < g[r].length := (cols _ (List.getElem_mem hr')) ▸ hc
    have entry : f r c = g[r][c] := by rw [← elems r hr c hc, elem_of_lt hr']; simp [hc']
    by_cases e : c = r
    · subst e
      simp [elem, Machine.addDiagonal, hr', hc', entry]
    · simp [elem, Machine.addDiagonal, hr', hc', entry, e, Ne.symm e]

/-! ### The arithmetic of a matrix job -/

/-- R244: λ at the weight 2^t of the accumulators. -/
def loadAt (lambda : Nat) (t : Int) : Int := if 0 ≤ t then (lambda * 2 ^ t.toNat : Nat) else roundShift lambda (-t).toNat

theorem mxLoading_eq_some {t : Int} (near : t ≤ 29) (lambda : Nat) : mxLoading lambda t = some (loadAt lambda t) := by
  rw [mxLoading, if_neg (by omega), loadAt]
  split <;> simp

section
variable {j : Job} {a b : Mat} {e : Int}

/-- R238: a matrix is stored turned where its conjugate transpose is taken. -/
theorem hermitian_turned (conj : Bool) (m : Mat) (rows cols : Nat) :
    (if conj then hermitian m (if conj then (cols, rows) else (rows, cols)).2 else m) = if conj then hermitian m rows else m := by
  cases conj <;> rfl

theorem Job.mxCompute_matmul (hop : j.opcode = 0x10) : j.mxCompute a b e = mxScaled j.mxShift (e + j.mxBExp)
    (matMul (if j.mxConjA then hermitian a (j.mxD 0 + 1) else a) (if j.mxConjB then hermitian b (j.mxD 2 + 1) else b) (j.mxD 1 + 1)) := by
  simp [Job.mxCompute, Job.mxShapes, hop, hermitian_turned]

theorem Job.mxCompute_combine (hop : j.opcode = 0x12) : j.mxCompute a b e = mxScaled j.mxShift (e + j.mxBExp)
    (matMul (if j.mxConjA then hermitian a (j.mxD 0 + 1) else a) b j.mxGroup) := by
  simp [Job.mxCompute, Job.mxShapes, hop, hermitian_turned]

/-- R238: A^H · A. -/
def Job.gram (j : Job) (a : Mat) : Mat := matMul (hermitian a (j.mxD 1 + 1)) a (j.mxD 1 + 1)

theorem Job.gram_is {k : Nat} (h : shaped a k (j.mxD 1 + 1)) :
    MatIs (j.gram a) (j.mxD 1 + 1) (j.mxD 1 + 1) (fun r c => dot k (fun i => (elem a i r).conj) (fun i => elem a i c)) :=
  h.matIs.hermitian.matMul h.matIs

theorem Job.mxCompute_gram (hop : j.opcode = 0x11) (diag : j.mxDiag = false) : j.mxCompute a b e = mxScaled j.mxShift (2 * e) (j.gram a) := by
  simp [Job.mxCompute, Job.gram, hop, diag]

/-- R244: a load above the accumulators' range. -/
theorem Job.mxCompute_unloadable (hop : j.opcode = 0x11) (diag : j.mxDiag = true) (far : 29 < j.mxLambdaExp - 2 * e + 17) :
    j.mxCompute a b e = { status := stNUMERIC, c := none, exp := 0, shift := 0, sat := false, col := 0 } := by
  simp [Job.mxCompute, hop, diag, mxLoading, far]

theorem Job.mxCompute_loaded (hop : j.opcode = 0x11) (diag : j.mxDiag = true) (near : j.mxLambdaExp - 2 * e + 17 ≤ 29) :
    j.mxCompute a b e = mxScaled j.mxShift (2 * e) (addDiagonal (j.gram a) (loadAt j.mxLambda (j.mxLambdaExp - 2 * e + 17))) := by
  simp [Job.mxCompute, Job.gram, hop, diag, mxLoading_eq_some near]

end

/-! ### Extraction (R145, R243, R246) -/

theorem extractMat_fst (m : Mat) (s : Nat) : (extractMat m s).1 =
    m.map (fun r => r.map (fun z => ⟨limited 18 (roundShift z.re s), limited 18 (roundShift z.im s)⟩)) := by
  simp [extractMat, extraction, limit18, satTo_eq]

theorem extractMat_snd_iff (m : Mat) (s : Nat) : (extractMat m s).2 = true ↔
    ∃ l ∈ m, ∃ z ∈ l, ¬inRange 18 (roundShift z.re s) ∨ ¬inRange 18 (roundShift z.im s) := by
  have limits (v : Int) : (!fits 18 v) = true ↔ ¬inRange 18 v := by rw [← fits_iff, Bool.not_eq_true', Bool.not_eq_true]
  simp only [extractMat, extraction, limit18, List.any_eq_true, Bool.or_eq_true, limits]

theorem expFits_iff {e : Int} : expFits e = true ↔ -128 ≤ e ∧ e ≤ 127 := by simp [expFits]

theorem mxScaled_fits {shift : Nat} {e : Int} {m : Mat} (fit : expFits (e + pickShift shift m - 17) = true) :
    mxScaled shift e m =
      { status := stOK, c := some (extractMat m (pickShift shift m)).1, exp := e + pickShift shift m - 17, shift := pickShift shift m,
        sat := (extractMat m (pickShift shift m)).2 && shift != 0xFF, col := 0 } := by
  simp only [mxScaled, fit, if_true]

theorem mxScaled_overflows {shift : Nat} {e : Int} {m : Mat} (fit : expFits (e + pickShift shift m - 17) = false) :
    mxScaled shift e m = { status := stNUMERIC, c := none, exp := 0, shift := pickShift shift m, sat := false, col := 0 } := by
  simp [mxScaled, fit]

/-! ### The smallest headroom (R147) -/

theorem matHeadroom_least {m : Mat} (range : ∀ l ∈ m, ∀ z ∈ l, inRange 48 z.re ∧ inRange 48 z.im) :
    (∀ l ∈ m, ∀ z ∈ l, ∃ p q, IsHeadroom 48 z.re p ∧ IsHeadroom 48 z.im q ∧ matHeadroom m ≤ p ∧ matHeadroom m ≤ q) ∧
    (matHeadroom m = 47 ∨ ∃ l ∈ m, ∃ z ∈ l, IsHeadroom 48 z.re (matHeadroom m) ∨ IsHeadroom 48 z.im (matHeadroom m)) := by
  have lane {v : Int} (h : inRange 48 v) : IsHeadroom 48 v (headroom 48 v) := isHeadroom 48 (by decide) v h
  obtain ⟨least, -, attained⟩ := minD_spec 47 (m.flatten.map (fun x => min (headroom 48 x.re) (headroom 48 x.im)))
  refine ⟨fun l hl z hz => ?_, ?_⟩
  · have below := le_min_iff.1 (least _ (List.mem_map_of_mem (List.mem_flatten_of_mem hl hz)))
    exact ⟨_, _, lane (range l hl z hz).1, lane (range l hl z hz).2, below⟩
  · refine attained.symm.imp id fun taken => ?_
    obtain ⟨z, hz, eq⟩ := List.mem_map.1 taken
    obtain ⟨l, hl, hz⟩ := List.mem_flatten.1 hz
    refine ⟨l, hl, z, hz, ?_⟩
    rw [matHeadroom, ← eq]
    rcases min_choice (headroom 48 z.re) (headroom 48 z.im) with h | h
    · rw [h]
      exact .inl (lane (range l hl z hz).1)
    · rw [h]
      exact .inr (lane (range l hl z hz).2)

/-- Settles O39: products element by element, their extraction with one shift, and the headroom that an automatic shift follows. -/
theorem engineProducts : Obligations.EngineProducts := by
  unfold Obligations.EngineProducts
  intro j a b e m n k product
  refine ⟨fun hop ha hb => ?matmul, fun hop ha hb => ?combine, fun hop ha => ?gram, fun shift x => ?extraction, fun x => matHeadroom_least⟩
  case matmul => exact ⟨_, (MatIs.op ha).matMul (MatIs.op hb), Job.mxCompute_matmul hop⟩
  case combine => exact ⟨_, (MatIs.op ha).matMul hb.matIs, Job.mxCompute_combine hop⟩
  case gram =>
    have gram := Job.gram_is ha
    refine ⟨j.gram a, gram, Job.mxCompute_gram hop, fun diag t ht => ⟨fun far => ?_, fun near => ?_⟩⟩
    · rw [Job.mxCompute_unloadable hop diag (ht ▸ far)]
      exact ⟨rfl, rfl⟩
    · subst ht
      exact ⟨_, gram.own.addDiagonal _, Job.mxCompute_loaded hop diag near⟩
  case extraction =>
    refine ⟨fun low high => ?_, fun out => ?_⟩
    · rw [mxScaled_fits (expFits_iff.2 ⟨low, high⟩), extractMat_fst]
      refine ⟨rfl, rfl, rfl, rfl, ?_⟩
      rw [Bool.and_eq_true, extractMat_snd_iff, bne_iff_ne, and_comm]
      rfl
    · rw [mxScaled_overflows (Bool.eq_false_iff.2 fun fit => ?_)]
      · exact ⟨rfl, rfl, rfl⟩
      · have := expFits_iff.1 fit
        unfold pickShift at this
        omega

end Sys2Proof.Machine
end

section
/-! SUPPORT. The remainders of channel coding (R277–R279): division by a polynomial one bit at a time, and what bits that end in a word of
the polynomial's width leave. -/

namespace Sys2Proof.Machine

/-- The remainder once one more bit has come, for the polynomial of degree w with low bits p. -/
def remStep (w p r : Nat) (b : Bool) : Nat :=
  if (2 * r + b2n b).testBit w then (2 * r + b2n b) ^^^ (2 ^ w + p) else 2 * r + b2n b

theorem polyMod_eq_foldl (w p : Nat) (bs : List Bool) : polyMod w p bs = bs.foldl (remStep w p) 0 := by
  simp only [polyMod, bitOf_eq_testBit]
  rfl

/-- A remainder stays below the polynomial's leading bit. -/
theorem remStep_lt {w p r : Nat} (hp : p < 2 ^ w) (hr : r < 2 ^ w) (b : Bool) : remStep w p r b < 2 ^ w := by
  have top : 2 * r + b2n b < 2 ^ (w + 1) := by
    have : b2n b ≤ 1 := by cases b <;> decide
    omega
  unfold remStep
  split
  · next set =>
    have leads : (2 ^ w + p).testBit w = true := by rw [Nat.testBit_two_pow_add_eq, Nat.testBit_lt_two_pow hp]; rfl
    refine Nat.lt_pow_two_of_testBit _ fun i hi => ?_
    rw [Nat.testBit_xor]
    obtain rfl | above := hi.eq_or_lt
    · rw [set, leads]
      rfl
    · have wide : 2 ^ (w + 1) ≤ 2 ^ i := Nat.pow_le_pow_right (by decide) above
      rw [Nat.testBit_lt_two_pow (top.trans_le wide), Nat.testBit_lt_two_pow (by omega)]
      rfl
  · next clear =>
    refine Nat.lt_pow_two_of_testBit _ fun i hi => ?_
    obtain rfl | above := hi.eq_or_lt
    · exact Bool.eq_false_iff.2 clear
    · exact Nat.testBit_lt_two_pow (top.trans_le (Nat.pow_le_pow_right (by decide) above))

theorem polyMod_lt {w p : Nat} (hp : p < 2 ^ w) (bs : List Bool) : polyMod w p bs < 2 ^ w := by
  rw [polyMod_eq_foldl]
  exact List.foldlRecOn (motive := (· < 2 ^ w)) bs _ (by positivity) (fun _ hr b _ => remStep_lt hp hr b)

/-- A doubled number with a low bit, as a sum without carries. -/
theorem two_mul_xor_add (r s : Nat) (b : Bool) : 2 * (r ^^^ s) + b2n b = 2 * r ^^^ (2 * s + b2n b) := by
  have split := Nat.xor_bit false r b s
  simpa [Nat.bit_val, b2n, Bool.toNat, Bool.cond_eq_ite] using split.symm

/-- Division is linear: what is too small to divide passes it unchanged. -/
theorem remStep_xor {w s : Nat} (p r : Nat) {b : Bool} (small : 2 * s + b2n b < 2 ^ w) :
    remStep w p (r ^^^ s) b = remStep w p r false ^^^ (2 * s + b2n b) := by
  have passes : (2 * r ^^^ (2 * s + b2n b)).testBit w = (2 * r).testBit w := by
    rw [Nat.testBit_xor, Nat.testBit_lt_two_pow small, Bool.xor_false]
  have zero : 2 * r + b2n false = 2 * r := rfl
  rw [remStep, two_mul_xor_add, passes, remStep, zero]
  split
  · rw [Nat.xor_assoc, Nat.xor_comm (2 * s + b2n b), Nat.xor_assoc]
  · rfl

theorem bitsMsb_succ (v n : Nat) : bitsMsb v (n + 1) = bitOf v n :: bitsMsb v n := by
  simp only [bitsMsb, upFrom_zero_eq_range, List.range_succ_eq_map, List.map_cons, List.map_map, Nat.add_sub_cancel, Nat.sub_zero]
  exact congrArg _ (List.map_congr_left fun k _ => congrArg (bitOf v) (by omega))

theorem two_mul_div_add_bitOf (v n : Nat) : 2 * (v / 2 ^ (n + 1)) + b2n (bitOf v n) = v / 2 ^ n := by
  have bit : b2n (bitOf v n) = v / 2 ^ n % 2 := by
    rw [bitOf, bitsOf, pow_one, b2n]
    rcases Nat.mod_two_eq_zero_or_one (v / 2 ^ n) with h | h <;> rw [h] <;> rfl
  rw [bit, pow_succ, ← Nat.div_div_eq_div_mul, Nat.div_add_mod]

/-- The low n bits of a word, fed after its high ones, leave what n zeros leave, and the word. -/
theorem foldl_remStep_bitsMsb {w v : Nat} (p : Nat) (hv : v < 2 ^ w) (n r : Nat) :
    (bitsMsb v n).foldl (remStep w p) (r ^^^ v / 2 ^ n) = (List.replicate n false).foldl (remStep w p) r ^^^ v := by
  induction n generalizing r with
  | zero => simp [bitsMsb, upFrom]
  | succ n ih =>
    have next : 2 * (v / 2 ^ (n + 1)) + b2n (bitOf v n) = v / 2 ^ n := two_mul_div_add_bitOf v n
    have small : v / 2 ^ n < 2 ^ w := (Nat.div_le_self _ _).trans_lt hv
    rw [bitsMsb_succ, List.foldl_cons, remStep_xor p r (next.symm ▸ small), next, ih, List.replicate_succ, List.foldl_cons]

/-- Bits that end in a word of w bits leave their own remainder and the word. -/
theorem polyMod_append_bitsMsb {w v : Nat} (p : Nat) (hv : v < 2 ^ w) (bs : List Bool) :
    polyMod w p (bs ++ bitsMsb v w) = polyMod w p (bs ++ List.replicate w false) ^^^ v := by
  have fed := foldl_remStep_bitsMsb p hv w (bs.foldl (remStep w p) 0)
  rw [Nat.div_eq_of_lt hv, Nat.xor_zero] at fed
  simpa only [polyMod_eq_foldl, List.foldl_append] using fed

/-- R279: each code's polynomial fits its width, and a code that MASK applies to is wide enough for it. -/
theorem crcPoly_wf {code : Nat} (lo : 1 ≤ code) (hi : code ≤ 7) :
    (crcPoly code).1 ≠ 0 ∧ (crcPoly code).2 < 2 ^ (crcPoly code).1 ∧ (maskApplies code = true → 16 ≤ (crcPoly code).1) := by
  interval_cases code <;> decide

/-- The bits that a CRC code divides ahead of its input. -/
def crcLead (code : Nat) : List Bool := if code = 7 then List.replicate 24 true else []

theorem crcOf_eq {code : Nat} (wide : (crcPoly code).1 ≠ 0) (bs : List Bool) :
    crcOf code bs = polyMod (crcPoly code).1 (crcPoly code).2 (crcLead code ++ bs ++ List.replicate (crcPoly code).1 false) :=
  if_neg wide

theorem crcCheck_eq {code : Nat} (wide : (crcPoly code).1 ≠ 0) (bs : List Bool) :
    crcCheck code bs = polyMod (crcPoly code).1 (crcPoly code).2 (crcLead code ++ bs) :=
  if_neg wide

/-- R275, R277: bits with their CRC attached leave MASK alone. -/
theorem crcCheck_withCrc {code mask : Nat} (lo : 1 ≤ code) (hi : code ≤ 7) (hm : mask < 2 ^ 16) (bits : List Bool) :
    crcCheck code (withCrc code mask bits) = if maskApplies code then mask else 0 := by
  obtain ⟨wide, fits, room⟩ := crcPoly_wf lo hi
  have own : crcOf code bits < 2 ^ (crcPoly code).1 := by
    rw [crcOf_eq wide]
    exact polyMod_lt fits _
  have masked : (if maskApplies code then mask else 0) < 2 ^ (crcPoly code).1 := by
    split
    · next applies => exact hm.trans_le (Nat.pow_le_pow_right (by decide) (room applies))
    · positivity
  rw [crcCheck_eq wide, withCrc, ← List.append_assoc, polyMod_append_bitsMsb _ (Nat.xor_lt_two_pow own masked), ← crcOf_eq wide,
    ← Nat.xor_assoc, Nat.xor_self, Nat.zero_xor]

end Sys2Proof.Machine
end

section
/-! SUPPORT. The accesses of the coding units (R248, R270–R276, R281): what inputs and outputs can do to the device. -/

namespace Sys2Proof.Machine

theorem OnlyIo.code {d e : Dev} (h : OnlyIo d e) : e.code = d.code := by
  obtain ⟨_, _, _, _, _, rfl, _⟩ := h
  rfl

/-! ### Inputs -/

theorem Io.readLlrs_only (s : Io) (q : Req) (j : Job) (base k n : Nat) : OnlyIo s.dev (s.readLlrs q j base k n).1.dev := by
  unfold Io.readLlrs
  split
  · exact s.readAll_only q _
  · exact s.readBytes_only q _ _

/-- R271: a soft buffer is read as far as its header leads. -/
theorem Io.readSoft_only (s : Io) (q : Req) (j : Job) (r ncb : Nat) : OnlyIo s.dev (s.readSoft q j r ncb).1.dev := by
  have header := s.read_only q (j.softAt r)
  unfold Io.readSoft
  dsimp only
  generalize (if j.cdTurbo then 3 else if j.cdBg2 then 2 else 1) = mine
  split
  · exact .refl _
  · split
    · exact header
    · split
      · exact header
      · exact header.trans (Io.readBytes_only _ _ _ _)

theorem Io.readPayload_only (s : Io) (q : Req) (j : Job) (r : Nat) : OnlyIo s.dev (s.readPayload q j r).1.dev :=
  OnlyIo.foldl (dev := fun b : Io × List Bool × Bool => b.1.dev) (fun b _ => b.1.readBytes_only q _ _) _ (.refl s.dev)

/-- R272–R276: what the computation of one block can do. -/
theorem Io.codeInstance_only (s : Io) (q : Req) (j : Job) (k : Nat) : OnlyIo s.dev (s.codeInstance q j k).1.dev := by
  have checked (reads writes : List Nat) : OnlyIo s.dev (s.fresh.checkWorld q reads writes).dev := s.fresh.checkWorld_only q reads writes
  unfold Io.codeInstance Io.joinMarks
  dsimp only
  split
  · split
    · exact ((checked _ _).trans (Io.readLlrs_only _ _ _ _ _ _)).trans (Io.readSoft_only _ _ _ _ _)
    · exact (checked _ _).trans (Io.readPayload_only _ _ _ _)
  · split
    · exact (checked _ _).trans (Io.readLlrs_only _ _ _ _ _ _)
    · exact (checked _ _).trans (Io.readBytes_only _ _ _ _)

/-! ### Outputs -/

/-- R281: the place of a lost output is written over. -/
theorem Io.writeLost_only (s : Io) (q : Req) (a n : Nat) : OnlyIo s.dev (s.writeLost q a n).dev := by
  unfold Io.writeLost
  split
  · exact s.writeBytes_only _ _ _ _
  · refine OnlyIo.foldl (dev := Io.dev) (fun b x => ?_) _ (.refl s.dev)
    split
    · exact b.write_only _ _ _ _
    · exact b.writeShare_only _ _ _ _ _

theorem Io.writeSoft_only (s : Io) (q : Req) (a : Nat) (x : Nat × List Int) : OnlyIo s.dev (s.writeSoft q a x).dev :=
  ((s.write_only _ _ _ _).trans (Io.writeBytes_only _ _ _ _ _)).trans (Io.write_only _ _ _ _ _)

/-- A record is written where the job asks for one. -/
theorem Io.writeIf_only (s : Io) (q : Req) (c : Bool) (a : Nat) (v : Word) :
    OnlyIo s.dev (if c then (s.write q a v false).1 else s).dev := by
  split
  · exact s.write_only _ _ _ _
  · exact .refl _

/-- R271–R282: a block's output, write-back and record touch memory alone, and the run counts one more as done. -/
theorem Io.codeFinish_spec (s : Io) (q : Req) (j : Job) (r : CodeRun) (k : Nat) (o : CodeOut) :
    OnlyIo s.dev (s.codeFinish q j r k o).1.dev ∧ (s.codeFinish q j r k o).2.done = r.done + 1 := by
  unfold Io.codeFinish
  cases o.lost with
  | some st => exact ⟨(s.writeLost_only _ _ _).trans (Io.writeIf_only _ _ _ _ _), rfl⟩
  | none =>
    refine ⟨OnlyIo.trans ?_ (Io.writeIf_only _ _ _ _ _), rfl⟩
    cases o.soft with
    | some x => exact (s.writeBytes_only _ _ _ _).trans (Io.writeSoft_only _ _ _ _)
    | none => exact s.writeBytes_only _ _ _ _

end Sys2Proof.Machine
end

section
/-! SUPPORT. The coding complex (R264–R267, R281, R284): its runs and busy units, the end of a coding job, and the work a free unit takes. -/

namespace Sys2Proof.Machine

/-! ### Runs and units -/

/-- The jobs of others and their work stay when all work stays. -/
theorem SameWork.keepsOthers {d e : Dev} (h : SameWork d e) (id : Nat) : d.keepsOthers e id :=
  ⟨fun x _ => Dev.job_of_jfe h.jfe x, h.cores, h.tsu, h.noc, h.links, h.power, h.time, h.boot⟩

theorem Dev.onCode_work (d : Dev) (f : CodeState → CodeState) : SameWork d (d.onCode f) := ⟨rfl, rfl, rfl, rfl, rfl, rfl, rfl, rfl⟩

theorem Dev.setCodeRun_work (d : Dev) (r : CodeRun) : SameWork d (d.setCodeRun r) := d.onCode_work _

/-- The number of the job of a run found is the number looked for. -/
theorem Dev.job_of_codeRun {d : Dev} {id : Nat} {r : CodeRun} (h : d.codeRun id = some r) : r.job = id := by
  simpa using List.find?_some h

/-- A changed run is the one found under its job. -/
theorem Dev.codeRun_setCodeRun_self {d : Dev} {r x : CodeRun} (h : d.codeRun r.job = some x) : (d.setCodeRun r).codeRun r.job = some r := by
  have same : ((fun x : CodeRun => x.job == r.job) ∘ fun x => if x.job == r.job then r else x) = fun x => x.job == r.job := by
    funext x
    by_cases h : x.job = r.job <;> simp [h]
  have found : d.code.runs.find? (fun x => x.job == r.job) = some x := h
  have owner : (x.job == r.job) = true := beq_iff_eq.2 (Dev.job_of_codeRun h)
  simp only [Dev.codeRun, Dev.setCodeRun, Dev.onCode, List.find?_map, same, found, Option.map_some, owner, if_true]

/-- R284: a unit's busy bit lies in its field, and the field in one of the two words of busy bits. -/
theorem codeBusy_wf (u : Fin 36) : (codeBusy u).2 < (codeBusy u).1.w ∧ (codeBusy u).1.lo + (codeBusy u).1.w ≤ 32 ∧
    ((codeBusy u).1.off = 0xe80008 ∨ (codeBusy u).1.off = 0xe8000c) := by
  revert u
  decide

theorem Dev.bit_setBit_codeBusy (d : Dev) (u : Fin 36) : (d.setBit (codeBusy u).1 (codeBusy u).2).bit (codeBusy u).1 (codeBusy u).2 = true := by
  obtain ⟨inField, inWord, -⟩ := codeBusy_wf u
  rw [Dev.bit_eq_on _ inField, Dev.setBit_eq_set _ inField, Dev.on_set_self _ _ _ (by dsimp only; omega)]
  rfl

theorem Dev.bit_clearBit_codeBusy (d : Dev) (u : Fin 36) : (d.clearBit (codeBusy u).1 (codeBusy u).2).bit (codeBusy u).1 (codeBusy u).2 = false := by
  obtain ⟨inField, inWord, -⟩ := codeBusy_wf u
  rw [Dev.bit_eq_on _ inField, Dev.clearBit_eq_set _ inField, Dev.on_set_self _ _ _ (by dsimp only; omega)]
  rfl

/-! ### The end of a coding job -/

/-- R281, R284: a coding job that ends is counted, and a loss shows in the attention. -/
def Dev.codeShown (d : Dev) (st : Nat) : Dev :=
  if st = stUNCORR ∨ st = stPOISONED then (d.bump Reg.CODE_JOBS).attend Reg.CODE_ATTN_POISON 0x5E4 else d.bump Reg.CODE_JOBS

theorem Dev.codeShown_only (d : Dev) (st : Nat) : OnlyRegs d (d.codeShown st) :=
  .ite ((d.bump_only _).trans (Dev.attend_only _ _ _)) (d.bump_only _)

theorem Dev.codeShown_within (d : Dev) (st : Nat) : RegsWithin [Reg.CODE_JOBS, Reg.CODE_ATTN_POISON] d (d.codeShown st) := by
  have jobs : RegsWithin [Reg.CODE_JOBS, Reg.CODE_ATTN_POISON] d (d.bump Reg.CODE_JOBS) := (RegsWithin.refl _ d).set (.head _) _
  exact .ite (jobs.trans (Dev.attend_within _ (by simp) _)) jobs

/-- The end of a coding job leaves its units and their busy bits. -/
theorem Dev.codeEnd_eq (d : Dev) (j : Job) (st result : Nat) :
    ∃ e, SameWork d e ∧ e.code.units = d.code.units ∧ (∀ u : Fin 36, e.get (codeBusy u).1 = d.get (codeBusy u).1) ∧
      d.codeEnd j st result = e.endJob j st result := by
  have units := congrArg CodeState.units (d.codeShown_only st).mem.io.code
  refine ⟨_, (d.codeShown_only st).work.trans (Dev.onCode_work _ _), ?_, fun u => d.codeShown_within st _ fun g hg => .inl ?_, rfl⟩
  · exact units
  obtain ⟨-, -, word⟩ := codeBusy_wf u
  rcases List.mem_pair.1 hg with rfl | rfl <;> simp only [Reg.CODE_JOBS, Reg.CODE_ATTN_POISON] <;> omega

theorem Dev.units_codeEnd (d : Dev) (j : Job) (st result : Nat) : (d.codeEnd j st result).code.units = d.code.units := by
  obtain ⟨e, -, units, -, eq⟩ := d.codeEnd_eq j st result
  obtain ⟨_, _, only⟩ := e.endJob_only j st result
  rw [eq, only]
  exact units

theorem Dev.bit_codeBusy_codeEnd (d : Dev) (j : Job) (st result : Nat) (u : Fin 36) :
    (d.codeEnd j st result).bit (codeBusy u).1 (codeBusy u).2 = d.bit (codeBusy u).1 (codeBusy u).2 := by
  obtain ⟨e, -, -, busy, eq⟩ := d.codeEnd_eq j st result
  rw [eq, Dev.bit, Dev.get_of_regs (e.endJob_regs j st result), busy, Dev.bit]

/-- The job that ends is found under its number, ended. -/
theorem SameWork.job_codeEnd {d e : Dev} (h : SameWork d e) {j x : Job} (found : d.job j.id = some x) (st result : Nat) :
    (e.codeEnd j st result).job j.id = some (d.endedJob j st result) := by
  obtain ⟨f, same, -, -, eq⟩ := e.codeEnd_eq j st result
  have all := h.trans same
  rw [eq, Dev.job_endJob_self ((Dev.job_of_jfe all.jfe _).trans found), Dev.endedJob_of_time all.time]

theorem SameWork.jobEnds_codeEnd {d e : Dev} (h : SameWork d e) {j : Job} (found : d.job j.id = some j) (st result : Nat) :
    d.jobEnds j (e.codeEnd j st result) := by
  obtain ⟨f, same, -, -, eq⟩ := e.codeEnd_eq j st result
  rw [eq]
  exact (h.trans same).jobEnds found st result

/-- R281, R282: a job whose instances are over ends, under the status that has stopped it if one has. -/
theorem Dev.codeOver_eq (d : Dev) (j : Job) (r : CodeRun) (uncorr : Bool) :
    ∃ st result, d.codeOver j r uncorr = d.codeEnd j st result ∧ ∀ x, r.stop = some x → st = x := by
  refine ⟨_, _, rfl, fun x stopped => ?_⟩
  rw [stopped]

/-! ### The work a free unit takes (R264–R267) -/

theorem mem_of_firstServed {js : List Job} {k : Job} (h : firstServed js = some k) : k ∈ js := by
  induction js generalizing k with
  | nil => simp [firstServed] at h
  | cons j js ih =>
    rw [firstServed] at h
    cases rest : firstServed js with
    | none =>
      obtain rfl : j = k := by simpa [rest] using h
      exact .head _
    | some l =>
      simp only [rest, Option.some.injEq] at h
      split at h
      · exact h ▸ .head _
      · exact h ▸ .tail _ (ih rest)

/-- Unit u takes what is next in the run r of job id. -/
def Dev.codeTake (d : Dev) (u id : Nat) (r : CodeRun) : Dev :=
  ((d.setCodeRun { r with next := r.next + 1 }).onCode (fun c =>
    { c with units := c.units ++ [{ unit := u, job := id, inst := r.next, out := none }] })).setBit (codeBusy u).1 (codeBusy u).2

theorem Dev.codeRun_codeTake {d : Dev} {id : Nat} {r : CodeRun} (run : d.codeRun id = some r) (u : Nat) :
    (d.codeTake u id r).codeRun id = some { r with next := r.next + 1 } := by
  obtain rfl := Dev.job_of_codeRun run
  exact Dev.codeRun_setCodeRun_self (r := { r with next := r.next + 1 }) run

/-- Does unit u serve a job, which waits or is at work (R264, R265)? -/
def Job.codesAt (j : Job) (u : Nat) : Bool :=
  decide (0x40 ≤ j.opcode) && decide (j.opcode < 0x48) && decide ((codeUnits j.opcode).1 ≤ u) &&
    decide (u < (codeUnits j.opcode).1 + (codeUnits j.opcode).2) && (j.phase == .queued || j.phase == .running)

section
variable {d : Dev} {u : Nat} {j : Job} (serves : d.serves .code = true) (powered : d.domainOn 15 = true)
  (idle : d.code.units.any (fun x => x.unit == u) = false) (first : firstServed (d.jfe.jobs.filter (fun x => x.codesAt u && d.codeReady x)) = some j)
include serves powered idle first

theorem codeInstanceStart_running (phase : j.phase = .running) {r : CodeRun} (run : d.codeRun j.id = some r) :
    codeInstanceStart u d = d.codeTake u j.id r := by
  have ready : d.codeReady j = true := (Bool.and_eq_true_iff.1 (List.mem_filter.1 (mem_of_firstServed first)).2).2
  simp only [Job.codesAt] at first
  simp [codeInstanceStart, serves, powered, idle, first, phase, run, ready, Dev.codeTake]

variable (phase : j.phase = .queued)
include phase

theorem codeInstanceStart_ended {e : Dev} (begun : d.codeBegin j = (e, none)) : codeInstanceStart u d = e := by
  simp only [Job.codesAt] at first
  simp [codeInstanceStart, serves, powered, idle, first, phase, begun]

theorem codeInstanceStart_begun {e : Dev} {k : Job} (begun : d.codeBegin j = (e, some k)) {r : CodeRun} (run : e.codeRun k.id = some r)
    (ready : e.codeReady k = true) : codeInstanceStart u d = e.codeTake u k.id r := by
  simp only [Job.codesAt] at first
  simp [codeInstanceStart, serves, powered, idle, first, phase, begun, run, ready, Dev.codeTake]

end

/-- R267, R280: a job that cannot begin has ended. -/
theorem Dev.phase_codeBegin_none {d e : Dev} {j : Job} (found : d.job j.id = some j) (begun : d.codeBegin j = (e, none)) :
    (e.job j.id).map (·.phase) = some .ended := by
  unfold Dev.codeBegin at begun
  generalize read : (Io.start d j []).readAll _ _ = x at begun
  obtain ⟨io, ws⟩ := x
  have ended (st : Nat) : ((io.done.codeEnd { j with params := ws } st 0).job j.id).map (·.phase) = some .ended := by
    have job := (SameWork.of_readAll read).job_codeEnd (j := { j with params := ws }) found st 0
    rw [job]
    rfl
  dsimp only at begun
  split at begun
  · exact (Prod.mk.inj begun).1 ▸ ended _
  · exact (Prod.mk.inj begun).1 ▸ ended _
  · split at begun
    · simp at begun
    · exact (Prod.mk.inj begun).1 ▸ ended _

end Sys2Proof.Machine
end

section
/-! SUPPORT. What the coding units do (R271–R277, R281, R282): the instances they compute and end, and CRC jobs. -/

namespace Sys2Proof.Machine

/-! ### What the units compute (R272–R276) -/

/-- A unit at work on job `id` has computed; every other unit stays. -/
def CodeUnit.Computed (id : Nat) (u v : CodeUnit) : Prop :=
  (¬(u.job = id ∧ u.out.isNone) ∧ v = u) ∨ (u.job = id ∧ u.out.isNone ∧ ∃ o, v = { u with out := some o })

section
variable {id : Nat} {us vs : List CodeUnit} (h : List.Forall₂ (CodeUnit.Computed id) us vs)
include h

theorem CodeUnit.Computed.all_isSome : ∀ v ∈ vs, v.job = id → v.out.isSome = true := by
  induction h with
  | nil => simp
  | cons step _ ih =>
    refine List.forall_mem_cons.2 ⟨fun own => ?_, ih⟩
    rcases step with ⟨still, rfl⟩ | ⟨-, -, o, rfl⟩
    · exact Option.isSome_iff_ne_none.2 fun none => still ⟨own, Option.isNone_iff_eq_none.2 none⟩
    · rfl

theorem CodeUnit.Computed.map_eq : vs.map (fun x => (x.unit, x.job, x.inst)) = us.map (fun x => (x.unit, x.job, x.inst)) := by
  induction h with
  | nil => rfl
  | cons step _ ih =>
    rw [List.map_cons, List.map_cons, ih]
    rcases step with ⟨-, rfl⟩ | ⟨-, -, o, rfl⟩ <;> rfl

theorem CodeUnit.Computed.mem_of_mem : ∀ u ∈ us, u.job ≠ id ∨ u.out.isSome = true → u ∈ vs := by
  induction h with
  | nil => simp
  | cons step _ ih =>
    refine List.forall_mem_cons.2 ⟨fun stays => ?_, fun u hu stays => .tail _ (ih u hu stays)⟩
    rcases step with ⟨-, rfl⟩ | ⟨own, none, -⟩
    · exact .head _
    · rcases stays with other | some
      · exact absurd own other
      · simp [Option.isNone_iff_eq_none.1 none] at some

end

/-- One unit in turn, for the instances of job j that are at work. -/
def Io.codeStep (q : Req) (j : Job) (acc : Io × List CodeUnit) (u : CodeUnit) : Io × List CodeUnit :=
  if u.job = j.id ∧ u.out.isNone then
    ((acc.1.codeInstance q j u.inst).1, acc.2 ++ [{ u with out := some (acc.1.codeInstance q j u.inst).2 }])
  else (acc.1, acc.2 ++ [u])

theorem Io.foldl_codeStep_spec (q : Req) (j : Job) (us : List CodeUnit) (acc : Io × List CodeUnit) :
    OnlyIo acc.1.dev (us.foldl (Io.codeStep q j) acc).1.dev ∧
      ∃ vs, (us.foldl (Io.codeStep q j) acc).2 = acc.2 ++ vs ∧ List.Forall₂ (CodeUnit.Computed j.id) us vs := by
  induction us generalizing acc with
  | nil => exact ⟨.refl _, [], (List.append_nil _).symm, .nil⟩
  | cons u us ih =>
    obtain ⟨only, vs, eq, computed⟩ := ih (Io.codeStep q j acc u)
    rw [List.foldl_cons, eq]
    by_cases works : u.job = j.id ∧ u.out.isNone
    · rw [Io.codeStep, if_pos works] at only ⊢
      exact ⟨(acc.1.codeInstance_only q j u.inst).trans only, _, List.append_assoc _ _ _, .cons (.inr ⟨works.1, works.2, _, rfl⟩) computed⟩
    · rw [Io.codeStep, if_neg works] at only ⊢
      exact ⟨only, _, List.append_assoc _ _ _, .cons (.inl ⟨works, rfl⟩) computed⟩

/-- A job's accesses go on under the answer that its earlier ones have had. -/
def Io.resume (d : Dev) (j : Job) (r : CodeRun) (ext : List Ext) : Io :=
  { Io.start d j ext with stop := match r.stop with | some x => some x | none => j.verdict }

theorem Io.resume_stop {r : CodeRun} {st : Nat} (stopped : r.stop = some st) (d : Dev) (j : Job) (ext : List Ext) :
    (Io.resume d j r ext).stop = some st := by
  simp [Io.resume, stopped]

section
variable {d : Dev} {j : Job} (found : d.job j.id = some j) (running : j.phase = .running) {r : CodeRun} (run : d.codeRun j.id = some r)
  {op : Nat} (hop : j.opcode = op) (ext : List Ext)
include found running run hop

/-- R272–R276: the command of an opcode goes through the units, for a job of it that runs. -/
theorem codeCompute_eq :
    let x := d.code.units.foldl (Io.codeStep (d.codeReq j) j) (Io.resume d j r ext, [])
    codeCompute op j.id ext d = (x.1.done.onCode (fun c => { c with units := x.2 })).setCodeRun { r with stop := x.1.stop } := by
  rw [codeCompute, Dev.executing_running found running hop, run]
  rfl

theorem codeCompute_spec :
    SameWork d (codeCompute op j.id ext d) ∧ List.Forall₂ (CodeUnit.Computed j.id) d.code.units (codeCompute op j.id ext d).code.units := by
  obtain ⟨only, vs, eq, computed⟩ := Io.foldl_codeStep_spec (d.codeReq j) j d.code.units (Io.resume d j r ext, [])
  rw [List.nil_append] at eq
  rw [codeCompute_eq found running run hop ext, eq]
  exact ⟨((only.work.trans (Io.done_only _).work).trans (Dev.onCode_work _ _)).trans (Dev.setCodeRun_work _ _), computed⟩

end

/-! ### The end of a unit's work (R271) -/

/-- Unit u is free. -/
def Dev.freeCodeUnit (d : Dev) (u : Nat) : Dev :=
  (d.onCode (fun c => { c with units := c.units.filter (fun y => y.unit != u) })).clearBit (codeBusy u).1 (codeBusy u).2

theorem Dev.freeCodeUnit_work (d : Dev) (u : Nat) : SameWork d (d.freeCodeUnit u) := ⟨rfl, rfl, rfl, rfl, rfl, rfl, rfl, rfl⟩

theorem Dev.units_freeCodeUnit {d e : Dev} (h : e.code = d.code) (u : Nat) :
    (e.freeCodeUnit u).code.units = d.code.units.filter (fun y => y.unit != u) := by
  rw [← h]
  rfl

theorem Dev.codeCount_only (d : Dev) (j : Job) (o : CodeOut) : OnlyRegs d (d.codeCount j o) := by
  have counted : OnlyRegs d (if j.cdDecodes && o.lost.isNone then (d.bump Reg.CODE_CB_DECODED).add Reg.CODE_CB_FAILED (b2n o.fail) else d) :=
    .ite ((d.bump_only _).set _ _) (.refl d)
  exact .ite ((((counted.set _ _).bump _).trans (Dev.attend_only _ _ _))) (counted.set _ _)

/-- The accesses with which a unit's work ends, and the run that counts it: a job that has been stopped makes none. -/
def Dev.codeOutput (d : Dev) (j : Job) (r : CodeRun) (k : Nat) (o : CodeOut) : Io × CodeRun :=
  if (Io.resume d j r []).stop.isSome then (Io.resume d j r [], r) else (Io.resume d j r []).codeFinish (d.codeReq j) j r k o

theorem Dev.codeOutput_only (d : Dev) (j : Job) (r : CodeRun) (k : Nat) (o : CodeOut) : OnlyIo d (d.codeOutput j r k o).1.dev := by
  unfold Dev.codeOutput
  split
  · exact .refl d
  · exact ((Io.resume d j r []).codeFinish_spec _ _ _ _ _).1

/-- The run once the unit's work has ended. -/
def Dev.codeRunOver (d : Dev) (j : Job) (r : CodeRun) (k : Nat) (o : CodeOut) : CodeRun :=
  let s := d.codeOutput j r k o
  { s.2 with stop := s.1.stop, uncorr := s.2.uncorr || s.1.uncorr }

/-- What has stopped a run goes on to stop it. -/
theorem Dev.codeRunOver_stopped (d : Dev) (j : Job) {r : CodeRun} {st : Nat} (stopped : r.stop = some st) (k : Nat) (o : CodeOut) :
    (d.codeRunOver j r k o).stop = some st := by
  have resumed := Io.resume_stop stopped d j []
  simp [Dev.codeRunOver, Dev.codeOutput, resumed]

/-- A run in which a unit's work has ended is stopped, or has one more done. -/
theorem Dev.codeRunOver_done (d : Dev) (j : Job) (r : CodeRun) (k : Nat) (o : CodeOut) :
    (d.codeRunOver j r k o).stop.isSome = true ∨ (d.codeRunOver j r k o).done = r.done + 1 := by
  unfold Dev.codeRunOver Dev.codeOutput
  split
  · next stopped => exact .inl stopped
  · exact .inr ((Io.resume d j r []).codeFinish_spec _ _ _ _ _).2

/-- The device once a unit's work has ended: the unit is free, the run is told, and the counters too unless the job was stopped before. -/
def Dev.codeInstanceOver (d : Dev) (u : Nat) (j : Job) (r : CodeRun) (k : Nat) (o : CodeOut) : Dev :=
  let s := (d.codeOutput j r k o).1
  ((if (Io.resume d j r []).stop.isSome then s.done else s.done.codeCount j o).freeCodeUnit u).setCodeRun (d.codeRunOver j r k o)

theorem Dev.codeInstanceOver_spec (d : Dev) (u : Fin 36) (j : Job) (r : CodeRun) (k : Nat) (o : CodeOut) :
    SameWork d (d.codeInstanceOver u j r k o) ∧ (d.codeInstanceOver u j r k o).code.units = d.code.units.filter (fun y => y.unit != u.val) ∧
      (d.codeInstanceOver u j r k o).bit (codeBusy u).1 (codeBusy u).2 = false := by
  have counted : OnlyIo d (if (Io.resume d j r []).stop.isSome then (d.codeOutput j r k o).1.done
      else (d.codeOutput j r k o).1.done.codeCount j o) := by
    refine (d.codeOutput_only j r k o).trans (OnlyRegs.mem ?_).io
    exact .ite (Io.done_only _) ((Io.done_only _).trans (Dev.codeCount_only _ _ _))
  exact ⟨(counted.work.trans (Dev.freeCodeUnit_work _ _)).trans (Dev.setCodeRun_work _ _), Dev.units_freeCodeUnit counted.code u,
    Dev.bit_clearBit_codeBusy _ u⟩

/-- R271: the end of a unit's work, which ends the job where no other unit is at work for it and the run is stopped or done. -/
theorem codeInstanceEnd_eq {d : Dev} {u : Nat} {x : CodeUnit} {j : Job} {r : CodeRun} {o : CodeOut}
    (held : d.code.units.find? (fun x => x.unit == u) = some x) (owner : x.job = j.id) (found : d.job j.id = some j)
    (run : d.codeRun j.id = some r) (out : x.out = some o) :
    let e := d.codeInstanceOver u j r x.inst o
    let r' := d.codeRunOver j r x.inst o
    codeInstanceEnd u d = if (!e.code.units.any (fun y => y.job == j.id)) && (r'.stop.isSome || r'.done == j.cdInstances)
      then e.codeOver j r' (d.codeOutput j r x.inst o).1.uncorr else e := by
  unfold codeInstanceEnd
  simp only [held, owner, found, run, out]
  rfl

section
variable {d : Dev} {u : Fin 36} {x : CodeUnit} {j : Job} {r : CodeRun} {o : CodeOut}
  (held : d.code.units.find? (fun x => x.unit == u.val) = some x) (owner : x.job = j.id) (found : d.job j.id = some j)
  (run : d.codeRun j.id = some r) (out : x.out = some o)
include held owner found run out

/-- What the end of a unit's work leaves: the unit is free, and the job is as it was, or ended. -/
theorem codeInstanceEnd_spec :
    (codeInstanceEnd u d).code.units = d.code.units.filter (fun y => y.unit != u.val) ∧
      (codeInstanceEnd u d).bit (codeBusy u).1 (codeBusy u).2 = false ∧ d.keepsOthers (codeInstanceEnd u d) j.id ∧
      ((codeInstanceEnd u d).job j.id = some j ∨ ∃ st res, (codeInstanceEnd u d).job j.id = some (d.endedJob j st res)) := by
  obtain ⟨same, units, free⟩ := d.codeInstanceOver_spec u j r x.inst o
  rw [codeInstanceEnd_eq held owner found run out]
  split
  · obtain ⟨st, res, eq, -⟩ := (d.codeInstanceOver u j r x.inst o).codeOver_eq j (d.codeRunOver j r x.inst o)
      (d.codeOutput j r x.inst o).1.uncorr
    obtain ⟨-, others⟩ := same.jobEnds_codeEnd found st res
    rw [eq, Dev.units_codeEnd, Dev.bit_codeBusy_codeEnd]
    exact ⟨units, free, others, .inr ⟨st, res, same.job_codeEnd found st res⟩⟩
  · exact ⟨units, free, same.keepsOthers _, .inl ((Dev.job_of_jfe same.jfe _).trans found)⟩

/-- The last unit at work for a job that is stopped or done ends the job, under the status that has stopped it if one has. -/
theorem job_codeInstanceEnd_last (last : ∀ y ∈ d.code.units, y.unit ≠ u.val → y.job ≠ j.id)
    (enough : r.done + 1 = j.cdInstances ∨ ∃ st, r.stop = some st) :
    ∃ st res, (codeInstanceEnd u d).job j.id = some (d.endedJob j st res) ∧ ∀ x, r.stop = some x → st = x := by
  obtain ⟨same, units, -⟩ := d.codeInstanceOver_spec u j r x.inst o
  have idle : (d.codeInstanceOver u j r x.inst o).code.units.any (fun y => y.job == j.id) = false := by
    rw [units]
    simpa using last
  have ended : ((d.codeRunOver j r x.inst o).stop.isSome || (d.codeRunOver j r x.inst o).done == j.cdInstances) = true := by
    rw [Bool.or_eq_true, beq_iff_eq]
    rcases enough with done | ⟨st, stopped⟩
    · exact (d.codeRunOver_done j r x.inst o).imp_right fun more => more.trans done
    · exact .inl (Option.isSome_iff_exists.2 ⟨st, d.codeRunOver_stopped j stopped x.inst o⟩)
  obtain ⟨st, res, eq, status⟩ := (d.codeInstanceOver u j r x.inst o).codeOver_eq j (d.codeRunOver j r x.inst o)
    (d.codeOutput j r x.inst o).1.uncorr
  refine ⟨st, res, ?_, fun _ stopped => status _ (d.codeRunOver_stopped j stopped x.inst o)⟩
  rw [codeInstanceEnd_eq held owner found run out, idle, ended, Bool.not_false, Bool.and_true, if_pos rfl, eq]
  exact same.job_codeEnd found st res

end

/-! ### CRC jobs (R277) -/

/-- The value of a CRC job over the bits it reads: their CRC, or what they leave, with MASK. -/
def Job.ccValue (j : Job) (bits : List Bool) : Nat :=
  (if j.ccCheck then crcCheck j.sbCrc bits else crcOf j.sbCrc bits) ^^^ (if maskApplies j.sbCrc then j.bytes 40 2 else 0)

/-- A CRC job's read of its bits. -/
def Dev.ccRead (d : Dev) (j : Job) (ext : List Ext) : Io × List Byte × Bool :=
  ((Io.start d j ext).checkWorld (d.codeReq j)
    (if bitOf j.ccSrc 53 then [] else gridWords j.ccSrc 1 (((j.ccLen + 7) / 8 + 7) / 8) 0) []).readBytes (d.codeReq j) j.ccSrc ((j.ccLen + 7) / 8)

/-- What is left of the device once the bits are read and a free value is drawn. -/
theorem Dev.ccRead_work (d : Dev) (j : Job) (ext : List Ext) : SameWork d (d.ccRead j ext).1.done.draw.2 := by
  have read : OnlyIo d (d.ccRead j ext).1.dev := ((Io.start d j ext).checkWorld_only _ _ _).trans (Io.readBytes_only _ _ _ _)
  exact (read.work.trans (Io.done_only _).work).trans ⟨rfl, rfl, rfl, rfl, rfl, rfl, rfl, rfl⟩

/-- Accesses that nothing has stopped and that met no lost word leave a job's own status. -/
theorem Io.status_whole {s : Io} (goes : s.stop = none) (whole : s.lost = none) (own : Nat) : s.status own = own := by
  cases uncorr : s.uncorr <;> cases poison : s.poison <;> simp_all [Io.lost, Io.status]

section
variable {d : Dev} {j : Job} (found : d.job j.id = some j) (hop : j.opcode = 0x48) (queued : j.phase = .queued)
  (serves : d.serves .code = true) (powered : d.domainOn 15 = true) (ext : List Ext)
include found hop queued serves powered

/-- R277: a CRC job that CODE serves ends with the value of its bits, or with a free one where they are lost. -/
theorem ccCrc_eq :
    let s := (d.ccRead j ext).1
    let v := if s.lost.isSome ∨ s.stop.isSome then s.done.draw.1.toNat % 2 ^ 24
      else j.ccValue ((bitsOfBytes (d.ccRead j ext).2.1).take j.ccLen)
    ccCrc j.id ext d = s.done.draw.2.codeEnd j (s.status (if j.ccCheck ∧ v ≠ 0 then stDECODEFAIL else stOK)) (v + b2n (v == 0) * 2 ^ 24) := by
  simp only [ccCrc, found, hop, queued, serves, powered]
  rfl

/-- R277: a CRC job that CODE serves ends. -/
theorem ccCrc_jobEnds : d.jobEnds j (ccCrc j.id ext d) := by
  rw [ccCrc_eq found hop queued serves powered ext]
  exact (d.ccRead_work j ext).jobEnds_codeEnd found _ _

/-- R277: a CRC job whose bits are read whole ends with their value, in which 0 is marked. -/
theorem job_ccCrc_whole {io : Io} {bs : List Byte} {b : Bool} (read : d.ccRead j ext = (io, bs, b)) (goes : io.stop = none)
    (whole : io.lost = none) :
    let v := j.ccValue ((bitsOfBytes bs).take j.ccLen)
    (ccCrc j.id ext d).job j.id =
      some (d.endedJob j (if j.ccCheck = true ∧ v ≠ 0 then stDECODEFAIL else stOK) (v + if v = 0 then 2 ^ 24 else 0)) := by
  intro v
  have mark : b2n (v == 0) * 2 ^ 24 = if v = 0 then 2 ^ 24 else 0 := by simp [b2n]
  rw [ccCrc_eq found hop queued serves powered ext, (d.ccRead_work j ext).job_codeEnd found, ← mark]
  simp only [read, goes, whole, Io.status_whole goes whole, Option.isSome_none, Bool.false_eq_true, or_self, if_false, v]

end

/-! ### The commands -/

theorem exec_codeInstanceStart (u : Fin 36) (s : State) : exec (.codeInstanceStart u) s = s.onDev (codeInstanceStart u.val) := rfl
theorem exec_codeInstanceEnd (u : Fin 36) (s : State) : exec (.codeInstanceEnd u) s = s.onDev (codeInstanceEnd u.val) := rfl
theorem exec_ccCrc (id : Nat) (ext : List Ext) (s : State) : exec (.ccCrc id ext) s = s.onDev (ccCrc id ext) := rfl

/-- R272–R276: each opcode's command computes for a job of its opcode. -/
theorem exec_codeCompute {id op : Nat} {ext : List Ext} {c : Instr} (s : State)
    (row : (c, op) ∈ [(Instr.cdLdpc id, 0x40), (.ceLdpc id ext, 0x41), (.cdPolar id, 0x42), (.cePolar id ext, 0x43), (.cdTurbo id, 0x44),
      (.ceTurbo id ext, 0x45), (.cdTbcc id, 0x46), (.ceTbcc id ext, 0x47)]) :
    ∃ ext', exec c s = s.onDev (codeCompute op id ext') := by
  simp only [List.mem_cons, Prod.mk.injEq, List.not_mem_nil, or_false] at row
  rcases row with ⟨rfl, rfl⟩ | ⟨rfl, rfl⟩ | ⟨rfl, rfl⟩ | ⟨rfl, rfl⟩ | ⟨rfl, rfl⟩ | ⟨rfl, rfl⟩ | ⟨rfl, rfl⟩ | ⟨rfl, rfl⟩
  all_goals exact ⟨_, rfl⟩

/-- Settles O40: the start by the run a unit takes from, the computation unit by unit, the end by what it leaves of the job, and CRCs by
division. -/
theorem codingJobs : Obligations.CodingJobs := by
  unfold Obligations.CodingJobs
  intro s u j ext r d mine takes
  have taken {e : Dev} (same : e.codeRun j.id = some r) : takes e r (e.codeTake u j.id r) :=
    ⟨rfl, Dev.codeRun_codeTake same u, Dev.bit_setBit_codeBusy _ u, rfl, rfl⟩
  refine ⟨fun serves powered free first => ?start, fun found running run c op row hop => ?compute,
    fun x o held owner found run out => ?ends, fun found hop queued serves powered => ⟨?crc, fun io bs b read goes whole => ?value⟩,
    fun code mask bits lo hi hm => crcCheck_withCrc lo hi hm bits⟩
  case start =>
    have idle : d.code.units.any (fun x => x.unit == u.val) = false := by simpa using free
    refine ⟨fun running run => ?_, fun queued found => ⟨fun e begun => ?_, fun e k begun same run ready => ?_⟩⟩
    · rw [completes_iff_of_exec (exec_codeInstanceStart u s), codeInstanceStart_running serves powered idle first running run]
      exact taken run
    · rw [gives_iff_of_exec (exec_codeInstanceStart u s)]
      exact ⟨codeInstanceStart_ended serves powered idle first queued begun, Dev.phase_codeBegin_none found begun⟩
    · rw [completes_iff_of_exec (exec_codeInstanceStart u s),
        codeInstanceStart_begun serves powered idle first queued begun (same ▸ run) ready, same]
      exact taken run
  case compute =>
    obtain ⟨ext', exec⟩ := exec_codeCompute s row
    obtain ⟨same, computed⟩ := codeCompute_spec found running run hop ext'
    exact (completes_iff_of_exec exec).2 ⟨(Dev.job_of_jfe same.jfe _).trans found, CodeUnit.Computed.all_isSome computed,
      CodeUnit.Computed.map_eq computed, CodeUnit.Computed.mem_of_mem computed, same.keepsOthers _⟩
  case ends =>
    obtain ⟨units, bit, others, job⟩ := codeInstanceEnd_spec held owner found run out
    refine (completes_iff_of_exec (exec_codeInstanceEnd u s)).2
      ⟨units, bit, others, job, fun last => ⟨fun done _ => ?_, fun st stopped => ?_⟩⟩
    · obtain ⟨st, res, ended, -⟩ := job_codeInstanceEnd_last held owner found run out last (.inl done)
      exact ⟨st, res, ended⟩
    · obtain ⟨st', res, ended, status⟩ := job_codeInstanceEnd_last held owner found run out last (.inr ⟨st, stopped⟩)
      exact ⟨res, status st stopped ▸ ended⟩
  case crc => exact (completes_iff_of_exec (exec_ccCrc j.id ext s)).2 (ccCrc_jobEnds found hop queued serves powered ext)
  case value => exact (completes_iff_of_exec (exec_ccCrc j.id ext s)).2 (job_ccCrc_whole found hop queued serves powered ext read goes whole)

end Sys2Proof.Machine
end
